-- ==== Sys2Proof/Word.lean ====
section
/-! DEFINITION. The machine's words (R20, R64): bytes, 32-bit and 64-bit words, and their byte lists. -/

namespace Sys2Proof

/-- One byte of memory. -/
abbrev Byte := BitVec 8

/-- A lane-set value (R5). -/
abbrev W32 := BitVec 32

/-- A group-set value, an address, a special register (R5, R15). -/
abbrev W64 := BitVec 64

end Sys2Proof
end

