-- ==== Sys2Proof/Syntax.lean ====
section
/-! DEFINITION. The instructions and events of the SK7-384: one constructor for each row of
spec/opcode_table.json, with the operand forms of R24-R36 and R53-R59. -/

namespace Sys2Proof

/-- p0-p11 (R28). -/
abbrev PReg := Fin 12

/-- v0-v127 (R24). -/
abbrev VReg := Fin 128

/-- x0-x63 (R26). -/
abbrev XReg := Fin 64

/-- The guard G (R29): `none` is G = 0, `some n` is G = n + 1. -/
abbrev Guard := Option PReg

/-- An F8 field as a source (R24). -/
inductive Src8
  | v (n : VReg) | o (n : Fin 8) | lr | lit (w : W32) | zero | tid | lane | x (n : XReg)
deriving DecidableEq, Repr

/-- An F8 field as a destination (R24). -/
inductive Dst8
  | v (n : VReg) | o (n : Fin 8) | lr | zero
deriving DecidableEq, Repr

/-- An S5 field (R25). -/
inductive Src5
  | o (n : Fin 8) | lr | lit (w : W32) | zero | one | negOne | fOne | fHalf | tid | x (n : Fin 16)
deriving DecidableEq, Repr

/-- A B9 field (R26). -/
inductive SrcB9
  | imm (i : BitVec 8) | x (n : XReg) | lit32 (w : W32) | lit64 (w : W64) | zero
deriving DecidableEq, Repr

/-- A B7 field (R27). -/
inductive SrcB7
  | x (n : XReg) | imm (n : Fin 64)
deriving DecidableEq, Repr

/-- The register field of SHAPE (R114). -/
inductive VXReg
  | v (n : VReg) | x (n : XReg)
deriving DecidableEq, Repr

/-- A register that can be pending or spilled. -/
inductive RegName
  | v (n : VReg) | x (n : XReg) | o (n : Fin 8) | lr | p (n : PReg)
deriving DecidableEq, Repr

/-- Integer condition codes 0-5 (R50). -/
inductive ICond
  | eq | ne | lt | le | gt | ge
deriving DecidableEq, Repr

/-- Floating condition codes 0-12 (R50). -/
inductive FCond
  | eq | ne | lt | le | gt | ge | un | ord | ltu | leu | gtu | geu | equ
deriving DecidableEq, Repr

/-- Scopes 0-6 (R38, R201). -/
inductive Scope
  | thread | wg | core | cluster | die | device | system
deriving DecidableEq, Repr

/-- Cache hints (R53, R135). -/
inductive Hint
  | default | stream | keep | bypass
deriving DecidableEq, Repr

/-- The OS field of LM (R31). -/
inductive OffSel
  | o (n : Fin 6) | none | lit (w : W32)
deriving DecidableEq, Repr

/-- The memory operand of LM: base, offset selector and IMM4 (R31). -/
structure MemArg where
  xb : XReg
  os : OffSel
  k : BitVec 4
deriving DecidableEq, Repr

/-- ORDER of an ATOM (R53). -/
inductive Order
  | relaxed | acquire | release | acqRel
deriving DecidableEq, Repr

/-- SCOPE, ORDER and hint of an ATOM (R53). -/
structure OrdArg where
  scope : Scope
  order : Order
  hint : Hint
deriving DecidableEq, Repr

/-- T of an LDX with its size (R53, R133). -/
inductive LdxT
  | b1 (d : Dst8) | b2 (d : Dst8) | b4 (d : Dst8) | b8 (v : VReg) | b16 (v : VReg)
deriving DecidableEq, Repr

/-- T of an STX with its size (R53, R133). -/
inductive StxT
  | b1 (a : Src8) | b2 (a : Src8) | b4 (a : Src8) | b8 (v : VReg) | b16 (v : VReg)
deriving DecidableEq, Repr

/-- T of an ATOM with its TYPE (R53). -/
inductive AtomT
  | n32 (d : Dst8) | s32 (d : Dst8) | n64 (v : VReg) | s64 (v : VReg) | f32 (d : Dst8) | f16x2 (d : Dst8)
deriving DecidableEq, Repr

/-- The C field of a CAS (R53). -/
inductive CasC
  | w32 (a : Src8) | w64 (v : VReg)
deriving DecidableEq, Repr

/-- Operand formats of MMA (R54). -/
inductive MFmt
  | e4m3 | e5m2 | lns6 | int8 | f16 | bf16 | f64
deriving DecidableEq, Repr

/-- SPLIT of MMA (R54). -/
inductive Split
  | one | two | four
deriving DecidableEq, Repr

/-- The MMA control word (R54). M and N are 64 (m + 1) and 64 (n + 1). -/
structure MmaCtl where
  kcl : Bool
  k : Fin 8
  split : Split
  scale : Bool
  zero : Bool
  n : Fin 4
  m : Fin 4
  slot : Fin 8
  bsgn : Bool
  asgn : Bool
  bfmt : MFmt
  afmt : MFmt
deriving DecidableEq, Repr

/-- DFMT of MDRAIN (R55). -/
inductive DFmt
  | f32 | f16 | bf16 | e4m3 | e5m2 | lns6 | s8 | s32 | f64 | xf40
deriving DecidableEq, Repr

/-- The MDRAIN control word (R55). -/
structure DrainCtl where
  kcl : Bool
  k : Fin 8
  keep : Bool
  scale : Bool
  add : Bool
  dfmt : DFmt
  n : Fin 4
  m : Fin 4
  slot : Fin 8
deriving DecidableEq, Repr

/-- C of TBAR (R240): `none` is code 63, the constant 1. -/
abbrev TbCnt := Option (Fin 63)

/-- DTYPE of COLL (R59). -/
inductive DType
  | f32 | f16 | bf16 | f64 | s32 | n32 | s64 | n64 | e4m3 | e5m2
deriving DecidableEq, Repr

/-- ROP of COLL (R59). -/
inductive ROp
  | sum | min | max | and | or | xor
deriving DecidableEq, Repr

/-- Names a thread: a launched thread of a workgroup, a restoration thread, a curator's thread (R156, R372). -/
inductive TRef
  | none | thr (w t : Nat) | rest (w r : Nat) | cur (c : Nat)
deriving DecidableEq, Repr

/-- What arrives over an Nguril port (R364): a peer's write, its poison marker, or its read. -/
inductive PeerAcc
  | write (bytes : List Byte) (poison : Bool) | read (n : Nat)
deriving DecidableEq, Repr

/-- The instructions (rows 0-267 of the opcode table) and the events (rows 268-355). Events have no encoding. -/
inductive Instr
  | iadd (g : Guard) (d : Dst8) (a : Src8) (b : Src5)
  | isub (g : Guard) (d : Dst8) (a : Src8) (b : Src5)
  | imul (g : Guard) (d : Dst8) (a : Src8) (b : Src5)
  | imulhs (g : Guard) (d : Dst8) (a : Src8) (b : Src5)
  | imulhn (g : Guard) (d : Dst8) (a : Src8) (b : Src5)
  | imad (g : Guard) (d : Dst8) (a : Src8) (b : Src5)
  | isad (g : Guard) (d : Dst8) (a : Src8) (b : Src5)
  | imin (g : Guard) (d : Dst8) (a : Src8) (b : Src5)
  | imax (g : Guard) (d : Dst8) (a : Src8) (b : Src5)
  | nmin (g : Guard) (d : Dst8) (a : Src8) (b : Src5)
  | nmax (g : Guard) (d : Dst8) (a : Src8) (b : Src5)
  | and (g : Guard) (d : Dst8) (a : Src8) (b : Src5)
  | or (g : Guard) (d : Dst8) (a : Src8) (b : Src5)
  | xor (g : Guard) (d : Dst8) (a : Src8) (b : Src5)
  | andn (g : Guard) (d : Dst8) (a : Src8) (b : Src5)
  | shl (g : Guard) (d : Dst8) (a : Src8) (b : Src5)
  | shr (g : Guard) (d : Dst8) (a : Src8) (b : Src5)
  | sar (g : Guard) (d : Dst8) (a : Src8) (b : Src5)
  | bfen (g : Guard) (d : Dst8) (a : Src8) (b : Src5)
  | bfes (g : Guard) (d : Dst8) (a : Src8) (b : Src5)
  | bfi (g : Guard) (d : Dst8) (a : Src8) (b : Src5)
  | prmt (g : Guard) (d : Dst8) (a : Src8) (b : Src5)
  | csel (g : Guard) (d : Dst8) (a : Src8) (b : Src5)
  | mov (g : Guard) (d : Dst8) (a : Src8)
  | not (g : Guard) (d : Dst8) (a : Src8)
  | ineg (g : Guard) (d : Dst8) (a : Src8)
  | iabs (g : Guard) (d : Dst8) (a : Src8)
  | popc (g : Guard) (d : Dst8) (a : Src8)
  | clz (g : Guard) (d : Dst8) (a : Src8)
  | ctz (g : Guard) (d : Dst8) (a : Src8)
  | brev (g : Guard) (d : Dst8) (a : Src8)
  | bswap (g : Guard) (d : Dst8) (a : Src8)
  | sext8 (g : Guard) (d : Dst8) (a : Src8)
  | sext16 (g : Guard) (d : Dst8) (a : Src8)
  | zext8 (g : Guard) (d : Dst8) (a : Src8)
  | zext16 (g : Guard) (d : Dst8) (a : Src8)
  | fadd (g : Guard) (d : Dst8) (a : Src8) (b : Src5)
  | fsub (g : Guard) (d : Dst8) (a : Src8) (b : Src5)
  | fmul (g : Guard) (d : Dst8) (a : Src8) (b : Src5)
  | ffma (g : Guard) (d : Dst8) (a : Src8) (b : Src5)
  | fmin (g : Guard) (d : Dst8) (a : Src8) (b : Src5)
  | fmax (g : Guard) (d : Dst8) (a : Src8) (b : Src5)
  | fscale (g : Guard) (d : Dst8) (a : Src8) (b : Src5)
  | fabs (g : Guard) (d : Dst8) (a : Src8)
  | fneg (g : Guard) (d : Dst8) (a : Src8)
  | frcp (g : Guard) (d : Dst8) (a : Src8)
  | frsq (g : Guard) (d : Dst8) (a : Src8)
  | fsqrt (g : Guard) (d : Dst8) (a : Src8)
  | fexp2 (g : Guard) (d : Dst8) (a : Src8)
  | flog2 (g : Guard) (d : Dst8) (a : Src8)
  | fsinr (g : Guard) (d : Dst8) (a : Src8)
  | fcosr (g : Guard) (d : Dst8) (a : Src8)
  | ftanh (g : Guard) (d : Dst8) (a : Src8)
  | fsigm (g : Guard) (d : Dst8) (a : Src8)
  | ffloor (g : Guard) (d : Dst8) (a : Src8)
  | fceil (g : Guard) (d : Dst8) (a : Src8)
  | ftrunc (g : Guard) (d : Dst8) (a : Src8)
  | frint (g : Guard) (d : Dst8) (a : Src8)
  | ffrac (g : Guard) (d : Dst8) (a : Src8)
  | fsat (g : Guard) (d : Dst8) (a : Src8)
  | fclass (g : Guard) (d : Dst8) (a : Src8)
  | hadd2 (g : Guard) (d : Dst8) (a : Src8) (b : Src5)
  | hmul2 (g : Guard) (d : Dst8) (a : Src8) (b : Src5)
  | hfma2 (g : Guard) (d : Dst8) (a : Src8) (b : Src5)
  | bfma2 (g : Guard) (d : Dst8) (a : Src8) (b : Src5)
  | hmin2 (g : Guard) (d : Dst8) (a : Src8) (b : Src5)
  | hmax2 (g : Guard) (d : Dst8) (a : Src8) (b : Src5)
  | cvtF32S32 (g : Guard) (d : Dst8) (a : Src8)
  | cvtF32N32 (g : Guard) (d : Dst8) (a : Src8)
  | cvtS32F32 (g : Guard) (d : Dst8) (a : Src8)
  | cvtN32F32 (g : Guard) (d : Dst8) (a : Src8)
  | cvtS32F32Rn (g : Guard) (d : Dst8) (a : Src8)
  | cvtF16F32 (g : Guard) (d : Dst8) (a : Src8)
  | cvtF32F16l (g : Guard) (d : Dst8) (a : Src8)
  | cvtF32F16h (g : Guard) (d : Dst8) (a : Src8)
  | cvtBf16F32 (g : Guard) (d : Dst8) (a : Src8)
  | cvtF32Bf16l (g : Guard) (d : Dst8) (a : Src8)
  | cvtF32Bf16h (g : Guard) (d : Dst8) (a : Src8)
  | cvtE4m3F32 (g : Guard) (d : Dst8) (a : Src8)
  | cvtE5m2F32 (g : Guard) (d : Dst8) (a : Src8)
  | cvtF32E4m3 (g : Guard) (d : Dst8) (a : Src8)
  | cvtF32E5m2 (g : Guard) (d : Dst8) (a : Src8)
  | cvtLns6F32 (g : Guard) (d : Dst8) (a : Src8)
  | cvtF32Lns6 (g : Guard) (d : Dst8) (a : Src8)
  | cvtS8F32 (g : Guard) (d : Dst8) (a : Src8)
  | cvtN8F32 (g : Guard) (d : Dst8) (a : Src8)
  | icmp (g : Guard) (pd : PReg) (cc : ICond) (a : Src8) (b : Src5)
  | ncmp (g : Guard) (pd : PReg) (cc : ICond) (a : Src8) (b : Src5)
  | fcmp (g : Guard) (pd : PReg) (cc : FCond) (a : Src8) (b : Src5)
  | plop (g : Guard) (pd pa pb : PReg) (tt : BitVec 4)
  | ptov (g : Guard) (d : Dst8)
  | vtop (g : Guard) (a : Src8)
  | fld (g : Guard) (d : Dst8) (dep : Fin 8) (slot : Fin 1024)
  | fst (g : Guard) (a : Src8) (dep : Fin 8) (slot : Fin 1024)
  | fadda (g : Guard) (a : Src8) (dep : Fin 8) (slot : Fin 1024)
  | ldb (g : Guard) (t : Dst8) (m : MemArg)
  | ldbs (g : Guard) (t : Dst8) (m : MemArg)
  | ldh (g : Guard) (t : Dst8) (m : MemArg)
  | ldhs (g : Guard) (t : Dst8) (m : MemArg)
  | ldw (g : Guard) (t : Dst8) (m : MemArg)
  | ldd (g : Guard) (t : VReg) (m : MemArg)
  | ldq (g : Guard) (t : VReg) (m : MemArg)
  | ldx (g : Guard) (t : LdxT) (m : MemArg) (scope : Scope) (acq : Bool) (hint : Hint)
  | stb (g : Guard) (t : Src8) (m : MemArg)
  | sth (g : Guard) (t : Src8) (m : MemArg)
  | stw (g : Guard) (t : Src8) (m : MemArg)
  | std (g : Guard) (t : VReg) (m : MemArg)
  | stq (g : Guard) (t : VReg) (m : MemArg)
  | stx (g : Guard) (t : StxT) (m : MemArg) (scope : Scope) (rel : Bool) (hint : Hint)
  | atomAdd (g : Guard) (t : AtomT) (m : MemArg) (oa : OrdArg)
  | atomMin (g : Guard) (t : AtomT) (m : MemArg) (oa : OrdArg)
  | atomMax (g : Guard) (t : AtomT) (m : MemArg) (oa : OrdArg)
  | atomAnd (g : Guard) (t : AtomT) (m : MemArg) (oa : OrdArg)
  | atomOr (g : Guard) (t : AtomT) (m : MemArg) (oa : OrdArg)
  | atomXor (g : Guard) (t : AtomT) (m : MemArg) (oa : OrdArg)
  | atomExch (g : Guard) (t : AtomT) (m : MemArg) (oa : OrdArg)
  | atomCas (g : Guard) (t : AtomT) (m : MemArg) (oa : OrdArg) (c : CasC)
  | atomIncw (g : Guard) (t : Dst8) (m : MemArg) (oa : OrdArg)
  | atomFadd (g : Guard) (t : Dst8) (m : MemArg) (oa : OrdArg)
  | atomHadd2 (g : Guard) (t : Dst8) (m : MemArg) (oa : OrdArg)
  | nop (bits : BitVec 25)
  | wadd (g : Guard) (d a : XReg) (b : SrcB9)
  | wsub (g : Guard) (d a : XReg) (b : SrcB9)
  | wmul (g : Guard) (d a : XReg) (b : SrcB9)
  | wmulhs (g : Guard) (d a : XReg) (b : SrcB9)
  | wmulhn (g : Guard) (d a : XReg) (b : SrcB9)
  | wand (g : Guard) (d a : XReg) (b : SrcB9)
  | wor (g : Guard) (d a : XReg) (b : SrcB9)
  | wxor (g : Guard) (d a : XReg) (b : SrcB9)
  | wshl (g : Guard) (d a : XReg) (b : SrcB9)
  | wshr (g : Guard) (d a : XReg) (b : SrcB9)
  | wsar (g : Guard) (d a : XReg) (b : SrcB9)
  | wmin (g : Guard) (d a : XReg) (b : SrcB9)
  | wmax (g : Guard) (d a : XReg) (b : SrcB9)
  | wnmin (g : Guard) (d a : XReg) (b : SrcB9)
  | wnmax (g : Guard) (d a : XReg) (b : SrcB9)
  | wcmp (g : Guard) (pd : PReg) (cc : ICond) (a : XReg) (b : SrcB7)
  | wncmp (g : Guard) (pd : PReg) (cc : ICond) (a : XReg) (b : SrcB7)
  | wsel (g : Guard) (d a : XReg) (b : SrcB9)
  | wmov (g : Guard) (d a : XReg)
  | wnot (g : Guard) (d a : XReg)
  | wneg (g : Guard) (d a : XReg)
  | wabs (g : Guard) (d a : XReg)
  | wpopc (g : Guard) (d a : XReg)
  | wclz (g : Guard) (d a : XReg)
  | wctz (g : Guard) (d a : XReg)
  | wbrev (g : Guard) (d a : XReg)
  | wbswap (g : Guard) (d a : XReg)
  | wsext32 (g : Guard) (d a : XReg)
  | wzext32 (g : Guard) (d a : XReg)
  | dadd (g : Guard) (d a : XReg) (b : SrcB9)
  | dsub (g : Guard) (d a : XReg) (b : SrcB9)
  | dmul (g : Guard) (d a : XReg) (b : SrcB9)
  | dfma (g : Guard) (d a : XReg) (b : SrcB9)
  | dmin (g : Guard) (d a : XReg) (b : SrcB9)
  | dmax (g : Guard) (d a : XReg) (b : SrcB9)
  | dabs (g : Guard) (d a : XReg)
  | dneg (g : Guard) (d a : XReg)
  | dsqrt (g : Guard) (d a : XReg)
  | drcp (g : Guard) (d a : XReg)
  | dfloor (g : Guard) (d a : XReg)
  | dceil (g : Guard) (d a : XReg)
  | dtrunc (g : Guard) (d a : XReg)
  | drint (g : Guard) (d a : XReg)
  | dclass (g : Guard) (d a : XReg)
  | dcmp (g : Guard) (pd : PReg) (cc : FCond) (a : XReg) (b : SrcB7)
  | dcvtDS64 (g : Guard) (d a : XReg)
  | dcvtDN64 (g : Guard) (d a : XReg)
  | dcvtS64D (g : Guard) (d a : XReg)
  | dcvtN64D (g : Guard) (d a : XReg)
  | dcvtDF32l (g : Guard) (d a : XReg)
  | dcvtF32D (g : Guard) (d a : XReg)
  | dcvtDS32 (g : Guard) (d a : XReg)
  | dcvtS32D (g : Guard) (d a : XReg)
  | v2x (g : Guard) (d : XReg) (a : Src8)
  | v2xs (g : Guard) (d : XReg) (a : Src8)
  | vp2x (g : Guard) (d : XReg) (v : VReg)
  | x2v (g : Guard) (d : Dst8) (a : XReg)
  | x2vh (g : Guard) (d : Dst8) (a : XReg)
  | x2vp (g : Guard) (v : VReg) (a : XReg)
  | wld (g : Guard) (t b : XReg) (imm : BitVec 9)
  | wst (g : Guard) (t b : XReg) (imm : BitVec 9)
  | bra (g : Guard) (disp : BitVec 21)
  | brd (g : Guard) (disp : BitVec 21)
  | call (g : Guard) (disp : BitVec 21)
  | callr (g : Guard) (a : XReg)
  | ret (g : Guard)
  | jmp (g : Guard) (a : XReg)
  | exit (g : Guard)
  | yield (g : Guard)
  | trap (g : Guard) (n : BitVec 8)
  | tret (g : Guard)
  | srd (g : Guard) (d : XReg) (idx : BitVec 15)
  | swr (g : Guard) (t : XReg) (idx : BitVec 15)
  | tagof (g : Guard) (d : XReg) (r : VXReg)
  | fmtof (g : Guard) (d : XReg) (r : VXReg)
  | waitc (g : Guard) (loads : BitVec 6) (stores copies tiles : BitVec 5)
  | fence (g : Guard) (scope : Scope) (kinds : BitVec 4)
  | ftok (g : Guard) (d : XReg) (scope : Scope) (kinds : BitVec 6)
  | fwait (g : Guard) (a : XReg)
  | bar (g : Guard) (cluster : Bool) (id : Fin 16) (cnt : Option (Fin 63))
  | ksetCount (g : Guard) (k : Fin 8) (cluster : Bool) (a : XReg)
  | ksetMask (g : Guard) (k : Fin 8) (cluster : Bool) (a : XReg)
  | ksign (g : Guard) (k : Fin 8) (cluster : Bool) (a : XReg)
  | kxchTid (g : Guard) (k : Fin 8) (cluster : Bool) (d : Dst8) (a i : Src8)
  | kxchPos (g : Guard) (k : Fin 8) (cluster : Bool) (d : Dst8) (a i : Src8)
  | kredAddN32 (g : Guard) (k : Fin 8) (cluster : Bool) (d : Dst8) (a : Src8)
  | kredAddF32 (g : Guard) (k : Fin 8) (cluster : Bool) (d : Dst8) (a : Src8)
  | kredMinS32 (g : Guard) (k : Fin 8) (cluster : Bool) (d : Dst8) (a : Src8)
  | kredMaxS32 (g : Guard) (k : Fin 8) (cluster : Bool) (d : Dst8) (a : Src8)
  | kredMinF32 (g : Guard) (k : Fin 8) (cluster : Bool) (d : Dst8) (a : Src8)
  | kredMaxF32 (g : Guard) (k : Fin 8) (cluster : Bool) (d : Dst8) (a : Src8)
  | kredAnd (g : Guard) (k : Fin 8) (cluster : Bool) (d : Dst8) (a : Src8)
  | kredOr (g : Guard) (k : Fin 8) (cluster : Bool) (d : Dst8) (a : Src8)
  | kredXor (g : Guard) (k : Fin 8) (cluster : Bool) (d : Dst8) (a : Src8)
  | kredNz (g : Guard) (k : Fin 8) (cluster : Bool) (d : Dst8) (a : Src8)
  | mma (g : Guard) (xa xb xc : XReg) (c : MmaCtl)
  | mdrain (g : Guard) (xa xb xc : XReg) (c : DrainCtl)
  | mzero (g : Guard) (slot : Fin 8)
  | mldsc (g : Guard) (d a : XReg)
  | mstat (g : Guard) (d : XReg) (slot : Fin 8)
  | tbinit (g : Guard) (a : XReg) (c : TbCnt)
  | tbarrive (g : Guard) (d a : XReg) (c : TbCnt)
  | tbexpect (g : Guard) (a : XReg) (c : TbCnt)
  | tbtest (g : Guard) (d a : XReg) (c : TbCnt)
  | tbwait (g : Guard) (a p : XReg)
  | wlpush (g : Guard) (wl : Fin 4) (v : VReg) (dep : Fin 8)
  | wlpop (g : Guard) (xa : XReg) (ps : PReg) (wl : Fin 4) (v : VReg)
  | wltry (g : Guard) (xa : XReg) (ps : PReg) (wl : Fin 4) (v : VReg)
  | wldone (g : Guard) (wl : Fin 4)
  | wlfloor (g : Guard) (xa : XReg) (wl : Fin 4)
  | wlstat (g : Guard) (xa : XReg) (wl : Fin 4)
  | fenter (g : Guard) (dep : Fin 8) (a : XReg)
  | fleave (g : Guard) (dep : Fin 8)
  | fopen (g : Guard) (cluster : Bool) (dep : Fin 8) (a : XReg) (k : Fin 8)
  | flink (g : Guard) (dep : Fin 8) (a : XReg)
  | fhnd (g : Guard) (d : XReg) (dep : Fin 8)
  | fdrop (g : Guard) (a : XReg)
  | fsync (g : Guard) (dep : Fin 8)
  | funlink (g : Guard) (dep : Fin 8)
  | rcall (g : Guard) (region : Fin 1024) (argv resv : VReg) (argc resc : Fin 8)
  | rcallExact (g : Guard) (region : Fin 1024) (argv resv : VReg) (argc resc : Fin 8)
  | rcallSonly (g : Guard) (region : Fin 1024) (argv resv : VReg) (argc resc : Fin 8)
  | rret (g : Guard)
  | rload (g : Guard) (xb : XReg)
  | rctlEvict (g : Guard) (xa xb : XReg)
  | rctlPin (g : Guard) (xa xb : XReg)
  | rctlUnpin (g : Guard) (xa xb : XReg)
  | rctlFlush (g : Guard) (xa xb : XReg)
  | rctr (g : Guard) (xa xb : XReg)
  | rinfo (g : Guard) (xa xb : XReg)
  | collAllreduce (g : Guard) (xa xb xc : XReg) (send recv : BitVec 8) (ty : DType) (op : ROp)
  | collReducescatter (g : Guard) (xa xb xc : XReg) (send recv : BitVec 8) (ty : DType) (op : ROp)
  | collAllgather (g : Guard) (xa xb xc : XReg) (send recv : BitVec 8) (ty : DType)
  | collBroadcast (g : Guard) (xa xb xc : XReg) (send recv : BitVec 8) (ty : DType)
  | collAlltoall (g : Guard) (xa xb xc : XReg) (send recv : BitVec 8) (ty : DType)
  | bkpt (g : Guard)
  | tlbinv (g : Guard) (a : XReg)
  | l1clean (g : Guard) (a : XReg)
  | archive (g : Guard) (a : XReg)
  | qlaunch (g : Guard) (a : XReg)
  | qsignal (g : Guard) (a : XReg)
  | qwaitsig (g : Guard) (a : XReg)
  | qswitch (g : Guard) (a : XReg)
  | qphase (g : Guard) (a : XReg)
  | qdone (g : Guard)
  | renable (g : Guard) (a : XReg)
  | wlcfg (g : Guard) (a : XReg)
  | launchDecision (l : Nat)
  | gangPlacement (l gi die cluster first : Nat) (rows : List (List Nat)) (bases : List Nat) (zap : List (Nat × Nat))
  | phaseClean (l : Nat)
  | workgroupEnd (w : Nat)
  | gangRetire (gid : Nat)
  | pick (core : Nat)
  | ageCap (t : TRef)
  | regroupRelease (w : Nat) (target : BitVec 64)
  | loadReturn (t : TRef) (n : Nat) (ecc : Bool)
  | storePerformed (t : TRef) (n : Nat)
  | l1Eviction (core cid line : Nat)
  | fenceComplete (t : TRef)
  | fenceRollback (t : TRef)
  | tokenComplete (t : TRef) (seq : Nat)
  | pageWalk (core cid va : Nat)
  | pageRequest (rid : Nat)
  | pagerResponse (cid : Nat)
  | kill (cid : Nat) (w : Option Nat)
  | copyTakeEntry (w : Nat)
  | copy (w : Nat) (ch : Fin 4)
  | gather (w : Nat) (ch : Fin 4)
  | fill (w : Nat) (ch : Fin 4)
  | convert (w : Nat) (ch : Fin 4)
  | convertout (w : Nat) (ch : Fin 4)
  | mmaEntry (w : Nat)
  | mdrainEntry (w : Nat)
  | mctlEntry (w : Nat)
  | matrixEntryComplete (w : Nat)
  | mmaResume (w : Nat)
  | regionLoad (core cid region : Nat)
  | surrogateEvaluation (core n : Nat)
  | restorationStart (core n : Nat)
  | violationReport (n : Nat)
  | disableApply (core cid region : Nat)
  | enableApply (core cid region : Nat)
  | counterBlockWrite (cid region : Nat)
  | floorRefresh (cid : Nat) (wl : Fin 4)
  | groupFloorRefresh (cid : Nat) (wl : Fin 4) (peer : Option Nat) (quiet : Bool)
  | floorDropAck (t : TRef)
  | wlpushPlace (t : TRef)
  | wlpopServe (t : TRef) (n : Nat)
  | frontBufferSend (core n : Nat)
  | chunkSpill (cid : Nat) (wl : Fin 4) (die : Nat) (bucket : Nat)
  | chunkReadBack (cid : Nat) (wl : Fin 4) (die n : Nat)
  | chunkMigrate (cid : Nat) (wl : Fin 4) (src dst count : Nat)
  | spillRefill (w : Nat) (r : VXReg)
  | contextCreate (cid : Nat)
  | contextDestroy (cid : Nat)
  | contextSelect (cid : Nat)
  | queueEnable (q : Nat)
  | queueDisable (q : Nat)
  | queueQuiesce (q : Nat)
  | queueNotify (f q : Nat) (tail : BitVec 32)
  | packetStart (c q : Nat)
  | qwaitsigResume (q : Nat)
  | tickstopWrite (v : BitVec 64)
  | tickStop
  | registerWrite (off : Nat) (v : BitVec 64)
  | preemptRequest (gids : List Nat) (bound : Option Nat)
  | drainExpire (gid : Nat)
  | gangSave (gid : Nat)
  | gangRestore (slot die cluster : Nat) (rows : List (List Nat)) (bases : List Nat)
  | switchTick
  | switchComplete
  | haltRequest (ts : List TRef)
  | threadHalt (t : TRef)
  | resumeRequest (ts : List TRef)
  | sample (core : Nat)
  | checkpoint (cid : Nat)
  | gatePass (t : TRef)
  | intervalClose (cid : Nat)
  | collChunk (cid g k : Nat) (peers : List (List (BitVec 8)))
  | collectiveComplete (cid g k : Nat) (ok : Bool)
  | ingressWrite (f va : Nat) (bytes : List (BitVec 8))
  | ingressRead (f va n : Nat)
  | functionLevelReset (f : Nat)
  | coreFailure (core : Nat)
  | memoryRetire (hbm : Bool) (n : Nat)
  | moduleReset
  | attestationQuote (cid : Nat) (nonce : List (BitVec 8))
  | linkFailure (port : Fin 36)
  | flitRetry (port : Fin 36)
  | podLeave
  | linkUp (port : Fin 36)
  | ngurilIngress (port : Fin 36) (pa : Nat) (acc : PeerAcc)
  | vmodeWrite (v : BitVec 192)
  | instructionFetch (t : TRef)
  | resultWriteback (t : TRef) (r : RegName)
deriving DecidableEq, Repr

end Sys2Proof
end

