-- ==== Sys2Proof/Decode.lean ====
section
/-! DEFINITION. Decoding, total on any words, and the encoder (R20-R36, R47-R61). A refusal carries the
TINFO reason of R61; where several reasons apply the lowest is kept. -/

namespace Sys2Proof

/-- What decoding answers: a value, or the reason of R61. -/
inductive Dec (α : Type) where
  | ok (a : α)
  | err (reason : Nat)
deriving DecidableEq, Repr

/-- Apply, keeping the lowest reason of the two sides (R61). -/
def Dec.ap {α β : Type} (f : Dec (α → β)) (x : Dec α) : Dec β :=
  match f, x with
  | .ok f, .ok x => .ok (f x)
  | .err e, .ok _ => .err e
  | .ok _, .err e => .err e
  | .err e, .err e' => .err (min e e')

/-- Add a decode check with its reason (R60, R61). -/
def Dec.need {α : Type} (x : Dec α) (c : Bool) (r : Nat) : Dec α :=
  match c, x with
  | true, x => x
  | false, .ok _ => .err r
  | false, .err e => .err (min e r)

/-- Forget the reason. -/
def Dec.toOption {α : Type} : Dec α → Option α
  | .ok a => some a
  | .err _ => none

/-- What the decoder answers before it is read as an `Instr`. Compiled Lean cannot build a constructor with
fields whose number is above 243, so the instructions from RLOAD on (rows 244-267) have a constructor of
their own here; `Row.instr` is the instruction meant. -/
inductive Row
  | early (i : Instr)
  | rload (g : Guard) (xb : XReg)
  | rctlEvict (g : Guard) (xa xb : XReg)
  | rctlPin (g : Guard) (xa xb : XReg)
  | rctlUnpin (g : Guard) (xa xb : XReg)
  | rctlFlush (g : Guard) (xa xb : XReg)
  | rctr (g : Guard) (xa xb : XReg)
  | rinfo (g : Guard) (xa xb : XReg)
  | collAllreduce (g : Guard) (xa xb xc : XReg) (send recv : BitVec 8) (ty : DType) (op : ROp)
  | collReducescatter (g : Guard) (xa xb xc : XReg) (send recv : BitVec 8) (ty : DType) (op : ROp)
  | collAllgather (g : Guard) (xa xb xc : XReg) (send recv : BitVec 8) (ty : DType)
  | collBroadcast (g : Guard) (xa xb xc : XReg) (send recv : BitVec 8) (ty : DType)
  | collAlltoall (g : Guard) (xa xb xc : XReg) (send recv : BitVec 8) (ty : DType)
  | bkpt (g : Guard)
  | tlbinv (g : Guard) (a : XReg)
  | l1clean (g : Guard) (a : XReg)
  | archive (g : Guard) (a : XReg)
  | qlaunch (g : Guard) (a : XReg)
  | qsignal (g : Guard) (a : XReg)
  | qwaitsig (g : Guard) (a : XReg)
  | qswitch (g : Guard) (a : XReg)
  | qphase (g : Guard) (a : XReg)
  | qdone (g : Guard)
  | renable (g : Guard) (a : XReg)
  | wlcfg (g : Guard) (a : XReg)
deriving DecidableEq, Repr

/-- The instruction a row stands for. -/
noncomputable def Row.instr : Row → Instr
  | .early i => i
  | .rload g xb => .rload g xb
  | .rctlEvict g xa xb => .rctlEvict g xa xb
  | .rctlPin g xa xb => .rctlPin g xa xb
  | .rctlUnpin g xa xb => .rctlUnpin g xa xb
  | .rctlFlush g xa xb => .rctlFlush g xa xb
  | .rctr g xa xb => .rctr g xa xb
  | .rinfo g xa xb => .rinfo g xa xb
  | .collAllreduce g xa xb xc send recv ty op => .collAllreduce g xa xb xc send recv ty op
  | .collReducescatter g xa xb xc send recv ty op => .collReducescatter g xa xb xc send recv ty op
  | .collAllgather g xa xb xc send recv ty => .collAllgather g xa xb xc send recv ty
  | .collBroadcast g xa xb xc send recv ty => .collBroadcast g xa xb xc send recv ty
  | .collAlltoall g xa xb xc send recv ty => .collAlltoall g xa xb xc send recv ty
  | .bkpt g => .bkpt g
  | .tlbinv g a => .tlbinv g a
  | .l1clean g a => .l1clean g a
  | .archive g a => .archive g a
  | .qlaunch g a => .qlaunch g a
  | .qsignal g a => .qsignal g a
  | .qwaitsig g a => .qwaitsig g a
  | .qswitch g a => .qswitch g a
  | .qphase g a => .qphase g a
  | .qdone g => .qdone g
  | .renable g a => .renable g a
  | .wlcfg g a => .wlcfg g a

/-- Map the value. -/
def Dec.map {α β : Type} (f : α → β) : Dec α → Dec β
  | .ok a => .ok (f a)
  | .err e => .err e

/-- The field of `n` bits at bit `lo` of a word. -/
def fld (w lo n : Nat) : Nat := w / 2 ^ lo % 2 ^ n

/-- One bit of a word. -/
def bit (w lo : Nat) : Bool := w / 2 ^ lo % 2 == 1

/-- x0-x63 from six bits. -/
def xr (f : Nat) : XReg := Fin.ofNat 64 f

/-- v0-v127 from seven bits. -/
def vr (f : Nat) : VReg := Fin.ofNat 128 f

/-- k0-k7, a0-a7, depths 0-7. -/
def f8 (f : Nat) : Fin 8 := Fin.ofNat 8 f

/-- G (R29). -/
def guardF (f : Nat) : Dec Guard :=
  if f = 0 then .ok none
  else if f ≤ 12 then .ok (some (Fin.ofNat 12 (f - 1)))
  else .err 3

/-- A predicate field (R28). -/
def predF (f : Nat) : Dec PReg := if f < 12 then .ok (Fin.ofNat 12 f) else .err 3

/-- F8 as a source (R24), with the literal word. -/
def src8F (f lit : Nat) : Dec Src8 :=
  if f < 128 then .ok (.v (vr f))
  else if f < 136 then .ok (.o (f8 (f - 128)))
  else if f = 136 then .ok .lr
  else if f = 137 then .ok (.lit (BitVec.ofNat 32 lit))
  else if f = 138 then .ok .zero
  else if f = 139 then .ok .tid
  else if f = 140 then .ok .lane
  else if f < 192 then .err 3
  else .ok (.x (xr (f - 192)))

/-- F8 as a destination (R24). -/
def dst8F (f : Nat) : Dec Dst8 :=
  if f < 128 then .ok (.v (vr f))
  else if f < 136 then .ok (.o (f8 (f - 128)))
  else if f = 136 then .ok .lr
  else if f = 138 then .ok .zero
  else .err 3

/-- S5 (R25), with the literal word. -/
def src5F (f lit : Nat) : Dec Src5 :=
  if f < 8 then .ok (.o (f8 f))
  else if f = 8 then .ok .lr
  else if f = 9 then .ok (.lit (BitVec.ofNat 32 lit))
  else if f = 10 then .ok .zero
  else if f = 11 then .ok .one
  else if f = 12 then .ok .negOne
  else if f = 13 then .ok .fOne
  else if f = 14 then .ok .fHalf
  else if f = 15 then .ok .tid
  else .ok (.x (Fin.ofNat 16 (f - 16)))

/-- B9 (R26), with the two literal words. -/
def b9F (f l0 l1 : Nat) : Dec SrcB9 :=
  if 256 ≤ f then .ok (.imm (BitVec.ofNat 8 f))
  else if f < 64 then .ok (.x (xr f))
  else if f = 64 then .ok (.lit32 (BitVec.ofNat 32 l0))
  else if f = 65 then .ok (.lit64 (BitVec.ofNat 64 (l1 * 4294967296 + l0)))
  else if f = 66 then .ok .zero
  else .err 3

/-- B7 (R27). -/
def b7F (f : Nat) : Dec SrcB7 :=
  if f < 64 then .ok (.x (xr f)) else .ok (.imm (Fin.ofNat 64 (f - 64)))

/-- CC of the integer comparisons (R50). -/
def icondF (f : Nat) : Dec ICond :=
  match f with
  | 0 => .ok .eq | 1 => .ok .ne | 2 => .ok .lt | 3 => .ok .le | 4 => .ok .gt | 5 => .ok .ge
  | _ => .err 2

/-- CC of FCMP and DCMP (R50). -/
def fcondF (f : Nat) : Dec FCond :=
  match f with
  | 0 => .ok .eq | 1 => .ok .ne | 2 => .ok .lt | 3 => .ok .le | 4 => .ok .gt | 5 => .ok .ge
  | 6 => .ok .un | 7 => .ok .ord | 8 => .ok .ltu | 9 => .ok .leu | 10 => .ok .gtu | 11 => .ok .geu
  | 12 => .ok .equ
  | _ => .err 2

/-- A scope field of three bits (R36, R53): 7 is a disallowed code. -/
def scopeF (f : Nat) : Dec Scope :=
  match f with
  | 0 => .ok .thread | 1 => .ok .wg | 2 => .ok .core | 3 => .ok .cluster | 4 => .ok .die
  | 5 => .ok .device | 6 => .ok .system
  | _ => .err 3

/-- A hint field of two bits (R53). -/
def hintF (f : Nat) : Hint :=
  match f with
  | 0 => .default | 1 => .stream | 2 => .keep | _ => .bypass

/-- An ORDER field of two bits (R53). -/
def orderF (f : Nat) : Order :=
  match f with
  | 0 => .relaxed | 1 => .acquire | 2 => .release | _ => .acqRel

/-- A v pair: the code names an even v register (R53, R61 reasons 3 and 6). -/
def pairF (f : Nat) : Dec VReg :=
  if f < 128 then (if f % 2 = 0 then .ok (vr f) else .err 6) else .err 3

/-- A v quad: the code names a v register that is a multiple of 4 (R128). -/
def quadF (f : Nat) : Dec VReg :=
  if f < 128 then (if f % 4 = 0 then .ok (vr f) else .err 6) else .err 3

/-- OS (R31), with the literal word. -/
def offF (f lit : Nat) : OffSel :=
  if f < 6 then .o (Fin.ofNat 6 f) else if f = 6 then .none else .lit (BitVec.ofNat 32 lit)

/-- XB, OS and IMM4 of LM (R30, R31). -/
def memF (w lit : Nat) : MemArg :=
  ⟨xr (fld w 7 6), offF (fld w 4 3) lit, BitVec.ofNat 4 (fld w 0 4)⟩

/-- Operand format codes of MMA (R54). -/
def mfmtF (f : Nat) : Dec MFmt :=
  match f with
  | 0 => .ok .e4m3 | 1 => .ok .e5m2 | 2 => .ok .lns6 | 3 => .ok .int8 | 4 => .ok .f16
  | 5 => .ok .bf16 | 6 => .ok .f64
  | _ => .err 3

/-- SPLIT codes (R54). -/
def splitF (f : Nat) : Dec Split :=
  match f with
  | 0 => .ok .one | 1 => .ok .two | 2 => .ok .four
  | _ => .err 3

/-- DFMT codes (R55). -/
def dfmtF (f : Nat) : Dec DFmt :=
  match f with
  | 0 => .ok .f32 | 1 => .ok .f16 | 2 => .ok .bf16 | 3 => .ok .e4m3 | 4 => .ok .e5m2
  | 5 => .ok .lns6 | 6 => .ok .s8 | 7 => .ok .s32 | 8 => .ok .f64 | 9 => .ok .xf40
  | _ => .err 3

/-- DTYPE codes (R59). -/
def dtypeF (f : Nat) : Dec DType :=
  match f with
  | 0 => .ok .f32 | 1 => .ok .f16 | 2 => .ok .bf16 | 3 => .ok .f64 | 4 => .ok .s32
  | 5 => .ok .n32 | 6 => .ok .s64 | 7 => .ok .n64 | 8 => .ok .e4m3 | 9 => .ok .e5m2
  | _ => .err 3

/-- ROP codes of COLL (R59). -/
def ropF (f : Nat) : Dec ROp :=
  match f with
  | 0 => .ok .sum | 1 => .ok .min | 2 => .ok .max | 3 => .ok .and | 4 => .ok .or | 5 => .ok .xor
  | _ => .err 3

/-- An integer element type of COLL (R59). -/
def DType.isInt : DType → Bool
  | .s32 | .n32 | .s64 | .n64 => true
  | .f32 | .f16 | .bf16 | .f64 | .e4m3 | .e5m2 => false

/-- The legal format pairs of MMA (R54). -/
def MFmt.pairOk (a b : MFmt) : Bool :=
  match a, b with
  | .e4m3, .e4m3 | .e4m3, .e5m2 | .e5m2, .e4m3 | .e5m2, .e5m2 => true
  | .lns6, .lns6 | .int8, .int8 | .f16, .f16 | .bf16, .bf16 | .f64, .f64 => true
  | _, _ => false

/-- The combinations R54 allows in an MMA control word. -/
def MmaCtl.ok (c : MmaCtl) : Bool :=
  MFmt.pairOk c.afmt c.bfmt
  && (c.afmt == .int8 || (!c.asgn && !c.bsgn))
  && !(c.scale && c.afmt == .f64)
  && !(c.afmt == .f64 && c.slot.val % 2 == 1)

/-- The combinations R55 allows in an MDRAIN control word. -/
def DrainCtl.ok (c : DrainCtl) : Bool := !(c.dfmt == .xf40 && (c.add || c.scale))

/-! ## Formats -/

/-- LA (R30); a second literal is reason 5. -/
def decLA (c : Guard → Dst8 → Src8 → Src5 → Instr) (w l : Nat) : Dec Instr :=
  ((((Dec.ok c).ap (guardF (fld w 21 4))).ap (dst8F (fld w 13 8))).ap (src8F (fld w 5 8) l)).ap (src5F (fld w 0 5) l)
  |>.need (!(fld w 5 8 == 137 && fld w 0 5 == 9)) 5

/-- LU (R30). -/
def decLU (c : Guard → Dst8 → Src8 → Instr) (w l : Nat) : Dec Instr :=
  (((Dec.ok c).ap (guardF (fld w 21 4))).ap (dst8F (fld w 13 8))).ap (src8F (fld w 5 8) l)

/-- LP with an integer condition (R30, R50). -/
def decLPI (c : Guard → PReg → ICond → Src8 → Src5 → Instr) (w l : Nat) : Dec Instr :=
  (((((Dec.ok c).ap (guardF (fld w 21 4))).ap (predF (fld w 17 4))).ap (icondF (fld w 13 4))).ap
    (src8F (fld w 5 8) l)).ap (src5F (fld w 0 5) l)
  |>.need (!(fld w 5 8 == 137 && fld w 0 5 == 9)) 5

/-- LP with a floating condition (R30, R50). -/
def decLPF (c : Guard → PReg → FCond → Src8 → Src5 → Instr) (w l : Nat) : Dec Instr :=
  (((((Dec.ok c).ap (guardF (fld w 21 4))).ap (predF (fld w 17 4))).ap (fcondF (fld w 13 4))).ap
    (src8F (fld w 5 8) l)).ap (src5F (fld w 0 5) l)
  |>.need (!(fld w 5 8 == 137 && fld w 0 5 == 9)) 5

/-- LM load to one F8 destination (R30, R128). -/
def decLoad (c : Guard → Dst8 → MemArg → Instr) (w l : Nat) : Dec Instr :=
  (((Dec.ok c).ap (guardF (fld w 21 4))).ap (dst8F (fld w 13 8))).ap (.ok (memF w l))

/-- LM store of one F8 source (R128); a literal in T with OS = 7 is a second literal. -/
def decStore (c : Guard → Src8 → MemArg → Instr) (w l : Nat) : Dec Instr :=
  ((((Dec.ok c).ap (guardF (fld w 21 4))).ap (src8F (fld w 13 8) l)).ap (.ok (memF w l)))
  |>.need (!(fld w 13 8 == 137 && fld w 4 3 == 7)) 5

/-- LM with a v pair or quad in T (R128). -/
def decMulti (vf : Nat → Dec VReg) (c : Guard → VReg → MemArg → Instr) (w l : Nat) : Dec Instr :=
  (((Dec.ok c).ap (guardF (fld w 21 4))).ap (vf (fld w 13 8))).ap (.ok (memF w l))

/-- Checks common to LDX and STX control words (R53): AOP and C zero, reserved bits zero. A nonzero AOP is a disallowed code, reason 3, and
no unused field (DESIGN CHOICE, log entry 103). -/
def Dec.xCtl {α : Type} (d : Dec α) (c : Nat) : Dec α :=
  ((d.need (fld c 28 4 == 0) 3).need (fld c 12 8 == 0) 4).need (fld c 0 10 == 0) 4

/-- T of LDX by TYPE (R53, R133). -/
def ldxTF (ty t : Nat) : Dec LdxT :=
  match ty with
  | 0 => (Dec.ok LdxT.b1).ap (dst8F t)
  | 1 => (Dec.ok LdxT.b2).ap (dst8F t)
  | 2 => (Dec.ok LdxT.b4).ap (dst8F t)
  | 3 => (Dec.ok LdxT.b8).ap (pairF t)
  | 4 => (Dec.ok LdxT.b16).ap (quadF t)
  | _ => .err 3

/-- T of STX by TYPE (R53, R133). -/
def stxTF (ty t l : Nat) : Dec StxT :=
  match ty with
  | 0 => (Dec.ok StxT.b1).ap (src8F t l)
  | 1 => (Dec.ok StxT.b2).ap (src8F t l)
  | 2 => (Dec.ok StxT.b4).ap (src8F t l)
  | 3 => (Dec.ok StxT.b8).ap (pairF t)
  | 4 => (Dec.ok StxT.b16).ap (quadF t)
  | _ => .err 3

/-- LDX (R53): ORDER 0 or 1. -/
def decLdx (w c l : Nat) : Dec Instr :=
  ((((((((Dec.ok Instr.ldx).ap (guardF (fld w 21 4))).ap (ldxTF (fld c 20 3) (fld w 13 8))).ap
    (.ok (memF w l))).ap (scopeF (fld c 25 3))).ap (.ok (fld c 23 2 == 1))).ap
    (.ok (hintF (fld c 10 2)))).need (fld c 23 2 < 2) 3).xCtl c

/-- STX (R53): ORDER 0 or 2. -/
def decStx (w c l : Nat) : Dec Instr :=
  (((((((((Dec.ok Instr.stx).ap (guardF (fld w 21 4))).ap (stxTF (fld c 20 3) (fld w 13 8) l)).ap
    (.ok (memF w l))).ap (scopeF (fld c 25 3))).ap (.ok (fld c 23 2 == 2))).ap
    (.ok (hintF (fld c 10 2)))).need (fld c 23 2 % 2 == 0) 3).xCtl c)
  |>.need (!(fld w 13 8 == 137 && fld c 20 3 < 3 && fld w 4 3 == 7)) 5

/-- T of ATOM by TYPE (R53, R136). -/
def atomTF (ty t : Nat) : Dec AtomT :=
  match ty with
  | 0 => (Dec.ok AtomT.n32).ap (dst8F t)
  | 1 => (Dec.ok AtomT.s32).ap (dst8F t)
  | 2 => (Dec.ok AtomT.n64).ap (pairF t)
  | 3 => (Dec.ok AtomT.s64).ap (pairF t)
  | 4 => (Dec.ok AtomT.f32).ap (dst8F t)
  | 5 => (Dec.ok AtomT.f16x2).ap (dst8F t)
  | _ => .err 3

/-- SCOPE, ORDER and hint of ATOM (R53). -/
def ordArgF (c : Nat) : Dec OrdArg :=
  (((Dec.ok OrdArg.mk).ap (scopeF (fld c 25 3))).ap (.ok (orderF (fld c 23 2)))).ap (.ok (hintF (fld c 10 2)))

/-- C of CAS (R53). -/
def casCF (ty cf l : Nat) : Dec CasC :=
  if ty = 2 ∨ ty = 3 then (Dec.ok CasC.w64).ap (pairF cf) else (Dec.ok CasC.w32).ap (src8F cf l)

/-- ATOM with a full TYPE field (R53). -/
def decAtom (k : Guard → AtomT → MemArg → OrdArg → Instr) (maxTy : Nat) (w c l : Nat) : Dec Instr :=
  ((((((Dec.ok k).ap (guardF (fld w 21 4))).ap (atomTF (fld c 20 3) (fld w 13 8))).ap
    (.ok (memF w l))).ap (ordArgF c)).need (fld c 20 3 ≤ maxTy) 3).need (fld c 12 8 == 0) 4
  |>.need (fld c 0 10 == 0) 4

/-- ATOM of one fixed TYPE (R53). -/
def decAtom1 (k : Guard → Dst8 → MemArg → OrdArg → Instr) (ty : Nat) (w c l : Nat) : Dec Instr :=
  ((((((Dec.ok k).ap (guardF (fld w 21 4))).ap (dst8F (fld w 13 8))).ap
    (.ok (memF w l))).ap (ordArgF c)).need (fld c 20 3 == ty) 3).need (fld c 12 8 == 0) 4
  |>.need (fld c 0 10 == 0) 4

/-- ATOM CAS (R53): C is a source, a literal there counts (R21). -/
def decCas (w c l : Nat) : Dec Instr :=
  (((((((Dec.ok Instr.atomCas).ap (guardF (fld w 21 4))).ap (atomTF (fld c 20 3) (fld w 13 8))).ap
    (.ok (memF w l))).ap (ordArgF c)).ap (casCF (fld c 20 3) (fld c 12 8) l)).need (fld c 0 10 == 0) 4)
  |>.need (!(fld c 12 8 == 137 && fld w 4 3 == 7)) 5

/-- ATOM (R53) by AOP. -/
def decodeAtom (w c l : Nat) : Dec Instr :=
  match fld c 28 4 with
  | 0 => decAtom Instr.atomAdd 3 w c l
  | 1 => decAtom Instr.atomMin 3 w c l
  | 2 => decAtom Instr.atomMax 3 w c l
  | 3 => decAtom Instr.atomAnd 3 w c l
  | 4 => decAtom Instr.atomOr 3 w c l
  | 5 => decAtom Instr.atomXor 3 w c l
  | 6 => decAtom Instr.atomExch 5 w c l
  | 7 => decCas w c l
  | 8 => decAtom1 Instr.atomIncw 0 w c l
  | 9 => decAtom1 Instr.atomFadd 4 w c l
  | 10 => decAtom1 Instr.atomHadd2 5 w c l
  | _ => .err 3

/-- LF with a destination (R30, R143). -/
def decFld (w : Nat) : Dec Instr :=
  ((((Dec.ok Instr.fld).ap (guardF (fld w 21 4))).ap (dst8F (fld w 13 8))).ap
    (.ok (f8 (fld w 10 3)))).ap (.ok (Fin.ofNat 1024 (fld w 0 10)))

/-- LF with a source (R30, R143). -/
def decFst (c : Guard → Src8 → Fin 8 → Fin 1024 → Instr) (w l : Nat) : Dec Instr :=
  ((((Dec.ok c).ap (guardF (fld w 21 4))).ap (src8F (fld w 13 8) l)).ap
    (.ok (f8 (fld w 10 3)))).ap (.ok (Fin.ofNat 1024 (fld w 0 10)))

/-- PLOP (R30 LQ): bits [4:0] zero. -/
def decPlop (w : Nat) : Dec Instr :=
  (((((Dec.ok Instr.plop).ap (guardF (fld w 21 4))).ap (predF (fld w 17 4))).ap (predF (fld w 13 4))).ap
    (predF (fld w 9 4))).ap (.ok (BitVec.ofNat 4 (fld w 5 4)))
  |>.need (fld w 0 5 == 0) 4

/-- PTOV (R49): A zero. -/
def decPtov (w : Nat) : Dec Instr :=
  ((Dec.ok Instr.ptov).ap (guardF (fld w 21 4))).ap (dst8F (fld w 13 8)) |>.need (fld w 5 8 == 0) 4

/-- VTOP (R49): D zero. -/
def decVtop (w l : Nat) : Dec Instr :=
  ((Dec.ok Instr.vtop).ap (guardF (fld w 21 4))).ap (src8F (fld w 5 8) l) |>.need (fld w 13 8 == 0) 4

/-- GA (R33). -/
def decGA (c : Guard → XReg → XReg → SrcB9 → Instr) (w l0 l1 : Nat) : Dec Instr :=
  ((((Dec.ok c).ap (guardF (fld w 21 4))).ap (.ok (xr (fld w 15 6)))).ap (.ok (xr (fld w 9 6)))).ap
    (b9F (fld w 0 9) l0 l1)

/-- GU (R33). -/
def decGU (c : Guard → XReg → XReg → Instr) (w : Nat) : Dec Instr :=
  (((Dec.ok c).ap (guardF (fld w 21 4))).ap (.ok (xr (fld w 15 6)))).ap (.ok (xr (fld w 9 6)))

/-- GP with an integer condition (R33). -/
def decGPI (c : Guard → PReg → ICond → XReg → SrcB7 → Instr) (w : Nat) : Dec Instr :=
  (((((Dec.ok c).ap (guardF (fld w 21 4))).ap (predF (fld w 17 4))).ap (icondF (fld w 13 4))).ap
    (.ok (xr (fld w 7 6)))).ap (b7F (fld w 0 7))

/-- GP with a floating condition (R33). -/
def decGPF (c : Guard → PReg → FCond → XReg → SrcB7 → Instr) (w : Nat) : Dec Instr :=
  (((((Dec.ok c).ap (guardF (fld w 21 4))).ap (predF (fld w 17 4))).ap (fcondF (fld w 13 4))).ap
    (.ok (xr (fld w 7 6)))).ap (b7F (fld w 0 7))

/-- GM (R33). -/
def decGM (c : Guard → XReg → XReg → BitVec 9 → Instr) (w : Nat) : Dec Instr :=
  ((((Dec.ok c).ap (guardF (fld w 21 4))).ap (.ok (xr (fld w 15 6)))).ap (.ok (xr (fld w 9 6)))).ap
    (.ok (BitVec.ofNat 9 (fld w 0 9)))

/-- GB (R33). -/
def decGB (c : Guard → BitVec 21 → Instr) (w : Nat) : Dec Instr :=
  ((Dec.ok c).ap (guardF (fld w 21 4))).ap (.ok (BitVec.ofNat 21 (fld w 0 21)))

/-- CALLR, JMP, FWAIT: A at [14:9], the rest zero (R36). -/
def decA (c : Guard → XReg → Instr) (w : Nat) : Dec Instr :=
  ((((Dec.ok c).ap (guardF (fld w 21 4))).ap (.ok (xr (fld w 9 6)))).need (fld w 15 6 == 0) 4).need
    (fld w 0 9 == 0) 4

/-- RET, EXIT, YIELD, TRET: [20:0] zero (R36). -/
def decG0 (c : Guard → Instr) (w : Nat) : Dec Instr :=
  ((Dec.ok c).ap (guardF (fld w 21 4))).need (fld w 0 21 == 0) 4

/-- TRAP (R35): D zero, number 0-255. -/
def decTrap (w : Nat) : Dec Instr :=
  ((((Dec.ok Instr.trap).ap (guardF (fld w 21 4))).ap (.ok (BitVec.ofNat 8 (fld w 0 8)))).need
    (fld w 0 15 < 256) 3).need (fld w 15 6 == 0) 4

/-- SRD and SWR (R35); the index is checked where the machine knows whether the core is a curator (R16). -/
def decGS (c : Guard → XReg → BitVec 15 → Instr) (w : Nat) : Dec Instr :=
  (((Dec.ok c).ap (guardF (fld w 21 4))).ap (.ok (xr (fld w 15 6)))).ap (.ok (BitVec.ofNat 15 (fld w 0 15)))

/-- The register field of SHAPE (R114). -/
def vxF (f : Nat) : Dec VXReg :=
  if f < 128 then .ok (.v (vr f)) else if f < 192 then .err 3 else .ok (.x (xr (f - 192)))

/-- SHAPE (R36, R51). -/
def decShape (w : Nat) : Dec Instr :=
  let go (c : Guard → XReg → VXReg → Instr) : Dec Instr :=
    (((Dec.ok c).ap (guardF (fld w 21 4))).ap (.ok (xr (fld w 15 6)))).ap (vxF (fld w 7 8))
  match fld w 0 7 with
  | 0 => go Instr.tagof
  | 1 => go Instr.fmtof
  | _ => .err 2

/-- MVXV (R36, R51, R113). -/
def decMvxv (w l : Nat) : Dec Instr :=
  let g := guardF (fld w 21 4)
  let x := xr (fld w 15 6)
  let f := fld w 7 8
  match fld w 0 7 with
  | 0 => (((Dec.ok Instr.v2x).ap g).ap (.ok x)).ap (src8F f l)
  | 1 => (((Dec.ok Instr.v2xs).ap g).ap (.ok x)).ap (src8F f l)
  | 2 => (((Dec.ok Instr.vp2x).ap g).ap (.ok x)).ap (pairF f)
  | 3 => (((Dec.ok Instr.x2v).ap g).ap (dst8F f)).ap (.ok x)
  | 4 => (((Dec.ok Instr.x2vh).ap g).ap (dst8F f)).ap (.ok x)
  | 5 => (((Dec.ok Instr.x2vp).ap g).ap (pairF f)).ap (.ok x)
  | _ => .err 2

/-- WAITC (R36). -/
def decWaitc (w : Nat) : Dec Instr :=
  (((((Dec.ok Instr.waitc).ap (guardF (fld w 21 4))).ap (.ok (BitVec.ofNat 6 (fld w 15 6)))).ap
    (.ok (BitVec.ofNat 5 (fld w 10 5)))).ap (.ok (BitVec.ofNat 5 (fld w 5 5)))).ap
    (.ok (BitVec.ofNat 5 (fld w 0 5)))

/-- FENCE (R208). -/
def decFence (w : Nat) : Dec Instr :=
  (((((Dec.ok Instr.fence).ap (guardF (fld w 21 4))).ap (scopeF (fld w 18 3))).ap
    (.ok (BitVec.ofNat 4 (fld w 14 4)))).need (fld w 14 4 != 0) 3).need (fld w 0 14 == 0) 4

/-- FTOK (R211). -/
def decFtok (w : Nat) : Dec Instr :=
  ((((((Dec.ok Instr.ftok).ap (guardF (fld w 21 4))).ap (.ok (xr (fld w 15 6)))).ap (scopeF (fld w 12 3))).ap
    (.ok (BitVec.ofNat 6 (fld w 6 6)))).need (fld w 6 6 != 0) 3).need (fld w 0 6 == 0) 4

/-- BAR (R36, R181): scope 1 or 3; count 63 names every launched thread. -/
def decBar (w : Nat) : Dec Instr :=
  ((((((Dec.ok Instr.bar).ap (guardF (fld w 21 4))).ap (.ok (fld w 18 3 == 3))).ap
    (.ok (Fin.ofNat 16 (fld w 14 4)))).ap
    (.ok (if fld w 8 6 = 63 then none else some (Fin.ofNat 63 (fld w 8 6))))).need
    (fld w 18 3 == 1 || fld w 18 3 == 3) 3).need (fld w 0 8 == 0) 4

/-- KSET (R36, R174). -/
def decKset (w : Nat) : Dec Instr :=
  let c := if bit w 16 then Instr.ksetMask else Instr.ksetCount
  ((((((Dec.ok c).ap (guardF (fld w 21 4))).ap (.ok (f8 (fld w 18 3)))).ap (.ok (bit w 17))).ap
    (.ok (xr (fld w 9 6)))).need (fld w 15 1 == 0) 4).need (fld w 0 9 == 0) 4

/-- KSIGN (R36, R177). -/
def decKsign (w : Nat) : Dec Instr :=
  ((((((Dec.ok Instr.ksign).ap (guardF (fld w 21 4))).ap (.ok (f8 (fld w 18 3)))).ap (.ok (bit w 17))).ap
    (.ok (xr (fld w 9 6)))).need (fld w 15 2 == 0) 4).need (fld w 0 9 == 0) 4

/-- KXCH (R58): main [20:0] zero, two F8 sources name at most one literal. -/
def decKxch (w c l : Nat) : Dec Instr :=
  let go (k : Guard → Fin 8 → Bool → Dst8 → Src8 → Src8 → Instr) : Dec Instr :=
    (((((((((Dec.ok k).ap (guardF (fld w 21 4))).ap (.ok (f8 (fld c 24 3)))).ap (.ok (bit c 27))).ap
      (dst8F (fld c 0 8))).ap (src8F (fld c 8 8) l)).ap (src8F (fld c 16 8) l)).need
      (fld w 0 21 == 0) 4).need (fld c 30 2 == 0) 4).need (!(fld c 8 8 == 137 && fld c 16 8 == 137)) 5
  match fld c 28 2 with
  | 0 => go Instr.kxchTid
  | 1 => go Instr.kxchPos
  | _ => .err 3

/-- KRED (R58) by ROP. -/
def decKred (w c l : Nat) : Dec Instr :=
  let go (k : Guard → Fin 8 → Bool → Dst8 → Src8 → Instr) : Dec Instr :=
    (((((((Dec.ok k).ap (guardF (fld w 21 4))).ap (.ok (f8 (fld c 20 3)))).ap (.ok (bit c 23))).ap
      (dst8F (fld c 0 8))).ap (src8F (fld c 8 8) l)).need (fld w 0 21 == 0) 4).need (fld c 24 8 == 0) 4
  match fld c 16 4 with
  | 0 => go Instr.kredAddN32
  | 1 => go Instr.kredAddF32
  | 2 => go Instr.kredMinS32
  | 3 => go Instr.kredMaxS32
  | 4 => go Instr.kredMinF32
  | 5 => go Instr.kredMaxF32
  | 6 => go Instr.kredAnd
  | 7 => go Instr.kredOr
  | 8 => go Instr.kredXor
  | 9 => go Instr.kredNz
  | _ => .err 3

/-- The MMA control word (R54). -/
def mmaCtlF (c : Nat) : Dec MmaCtl :=
  ((((Dec.ok (fun sp bf af => MmaCtl.mk (bit c 22) (f8 (fld c 19 3)) sp (bit c 16) (bit c 15)
      (Fin.ofNat 4 (fld c 13 2)) (Fin.ofNat 4 (fld c 11 2)) (f8 (fld c 8 3)) (bit c 7) (bit c 6) bf af)).ap
    (splitF (fld c 17 2))).ap (mfmtF (fld c 3 3))).ap (mfmtF (fld c 0 3)))

/-- Check a decoded control word (R54, R55): a disallowed combination is reason 3. -/
def Dec.chk {α : Type} (x : Dec α) (p : α → Bool) : Dec α :=
  match x with
  | .ok a => if p a then .ok a else .err 3
  | .err e => .err e

/-- MMA (R54, R33 GC). -/
def decMma (w c : Nat) : Dec Instr :=
  (((((((Dec.ok Instr.mma).ap (guardF (fld w 21 4))).ap (.ok (xr (fld w 15 6)))).ap (.ok (xr (fld w 9 6)))).ap
    (.ok (xr (fld w 3 6)))).ap ((mmaCtlF c).chk MmaCtl.ok)).need (fld w 0 3 == 0) 4).need (fld c 23 9 == 0) 4

/-- The MDRAIN control word (R55). -/
def drainCtlF (c : Nat) : Dec DrainCtl :=
  (Dec.ok (fun df => DrainCtl.mk (bit c 25) (f8 (fld c 22 3)) (bit c 21) (bit c 20) (bit c 19) df
      (Fin.ofNat 4 (fld c 13 2)) (Fin.ofNat 4 (fld c 11 2)) (f8 (fld c 8 3)))).ap (dfmtF (fld c 15 4))

/-- MDRAIN (R55): [7:0] of its control word are not listed and so reserved. -/
def decMdrain (w c : Nat) : Dec Instr :=
  ((((((((Dec.ok Instr.mdrain).ap (guardF (fld w 21 4))).ap (.ok (xr (fld w 15 6)))).ap (.ok (xr (fld w 9 6)))).ap
    (.ok (xr (fld w 3 6)))).ap ((drainCtlF c).chk DrainCtl.ok)).need (fld w 0 3 == 0) 4).need
    (fld c 26 6 == 0) 4).need (fld c 0 8 == 0) 4

/-- MCTL (R36, R51, R258). -/
def decMctl (w : Nat) : Dec Instr :=
  let g := guardF (fld w 21 4)
  match fld w 6 3 with
  | 0 => (((((Dec.ok Instr.mzero).ap g).ap (.ok (f8 (fld w 3 3)))).need (fld w 15 6 == 0) 4).need
      (fld w 9 6 == 0) 4).need (fld w 0 3 == 0) 4
  | 1 => (((((Dec.ok Instr.mldsc).ap g).ap (.ok (xr (fld w 15 6)))).ap (.ok (xr (fld w 9 6)))).need
      (fld w 3 3 == 0) 4).need (fld w 0 3 == 0) 4
  | 2 => (((((Dec.ok Instr.mstat).ap g).ap (.ok (xr (fld w 15 6)))).ap (.ok (f8 (fld w 3 3)))).need
      (fld w 9 6 == 0) 4).need (fld w 0 3 == 0) 4
  | _ => .err 2

/-- C of TBAR (R240). -/
def tbCntF (f : Nat) : TbCnt := if f = 63 then none else some (Fin.ofNat 63 f)

/-- TBAR (R36, R51, R240). -/
def decTbar (w : Nat) : Dec Instr :=
  let g := guardF (fld w 21 4)
  let d := xr (fld w 15 6)
  let a := xr (fld w 9 6)
  let c := tbCntF (fld w 0 6)
  match fld w 6 3 with
  | 0 => ((((Dec.ok Instr.tbinit).ap g).ap (.ok a)).ap (.ok c)).need (fld w 15 6 == 0) 4
  | 1 => ((((Dec.ok Instr.tbarrive).ap g).ap (.ok d)).ap (.ok a)).ap (.ok c)
  | 2 => ((((Dec.ok Instr.tbexpect).ap g).ap (.ok a)).ap (.ok c)).need (fld w 15 6 == 0) 4
  | 3 => ((((Dec.ok Instr.tbtest).ap g).ap (.ok d)).ap (.ok a)).ap (.ok c)
  | _ => .err 2

/-- TBWAIT (R36, R241). -/
def decTbwait (w : Nat) : Dec Instr :=
  (((((Dec.ok Instr.tbwait).ap (guardF (fld w 21 4))).ap (.ok (xr (fld w 9 6)))).ap
    (.ok (xr (fld w 3 6)))).need (fld w 15 6 == 0) 4).need (fld w 0 3 == 0) 4

/-- Checks common to every WLIST function (R57, R286). -/
def Dec.wl {α : Type} (d : Dec α) (w c : Nat) : Dec α :=
  (((d.need (fld w 0 15 == 0) 4).need (fld c 21 11 == 0) 4).need (fld c 15 2 == 0) 4).need (fld c 17 4 < 12) 3

/-- WLIST (R57, R286). -/
def decWlist (w c : Nat) : Dec Instr :=
  let g := guardF (fld w 21 4)
  let wl : Fin 4 := Fin.ofNat 4 (fld c 0 2)
  let xa := xr (fld w 15 6)
  let v := quadF (fld c 5 7)
  let noXa := fld w 15 6 == 0
  let noV := fld c 5 7 == 0
  let noDep := fld c 12 3 == 0
  let noPs := fld c 17 4 == 0
  match fld c 2 3 with
  | 0 => ((((((Dec.ok Instr.wlpush).ap g).ap (.ok wl)).ap v).ap (.ok (f8 (fld c 12 3)))).need noXa 4).need noPs 4
      |>.wl w c
  | 1 => ((((((Dec.ok Instr.wlpop).ap g).ap (.ok xa)).ap (predF (fld c 17 4))).ap (.ok wl)).ap v).need noDep 4
      |>.wl w c
  | 2 => ((((((Dec.ok Instr.wltry).ap g).ap (.ok xa)).ap (predF (fld c 17 4))).ap (.ok wl)).ap v).need noDep 4
      |>.wl w c
  | 3 => ((((((Dec.ok Instr.wldone).ap g).ap (.ok wl)).need noXa 4).need noV 4).need noDep 4).need noPs 4
      |>.wl w c
  | 4 => ((((((Dec.ok Instr.wlfloor).ap g).ap (.ok xa)).ap (.ok wl)).need noV 4).need noDep 4).need noPs 4
      |>.wl w c
  | 5 => ((((((Dec.ok Instr.wlstat).ap g).ap (.ok xa)).ap (.ok wl)).need noV 4).need noDep 4).need noPs 4
      |>.wl w c
  | _ => .err 2

/-- FRAME (R36, R51, R144-R147, R182, R186). -/
def decFrame (w : Nat) : Dec Instr :=
  let g := guardF (fld w 21 4)
  let x := xr (fld w 15 6)
  let a := xr (fld w 9 6)
  let dep := f8 (fld w 3 3)
  let noD := fld w 15 6 == 0
  let noA := fld w 9 6 == 0
  let noDep := fld w 3 3 == 0
  let noK := fld w 0 3 == 0
  match fld w 6 3 with
  | 0 => (((((Dec.ok Instr.fenter).ap g).ap (.ok dep)).ap (.ok a)).need noD 4).need noK 4
  | 1 => (((((Dec.ok Instr.fleave).ap g).ap (.ok dep)).need noD 4).need noA 4).need noK 4
  | 2 => ((((((Dec.ok Instr.fopen).ap g).ap (.ok (fld w 15 6 == 1))).ap (.ok dep)).ap (.ok a)).ap
      (.ok (f8 (fld w 0 3)))).need (fld w 15 6 < 2) 3
  | 3 => (((((Dec.ok Instr.flink).ap g).ap (.ok dep)).ap (.ok a)).need noD 4).need noK 4
  | 4 => (((((Dec.ok Instr.fhnd).ap g).ap (.ok x)).ap (.ok dep)).need noA 4).need noK 4
  | 5 => (((((Dec.ok Instr.fdrop).ap g).ap (.ok a)).need noD 4).need noDep 4).need noK 4
  | 6 => (((((Dec.ok Instr.fsync).ap g).ap (.ok dep)).need noD 4).need noA 4).need noK 4
  | _ => (((((Dec.ok Instr.funlink).ap g).ap (.ok dep)).need noD 4).need noA 4).need noK 4

/-- RCALL by MODE (R56, R266). -/
def decRcall (w c : Nat) : Dec Instr :=
  let go (k : Guard → Fin 1024 → VReg → VReg → Fin 8 → Fin 8 → Instr) : Dec Instr :=
    (((((((((Dec.ok k).ap (guardF (fld w 21 4))).ap (.ok (Fin.ofNat 1024 (fld c 0 10)))).ap
      (.ok (vr (fld c 10 7)))).ap (.ok (vr (fld c 20 7)))).ap (.ok (f8 (fld c 17 3)))).ap
      (.ok (f8 (fld c 27 3)))).need (fld c 10 7 + fld c 17 3 ≤ 127) 3).need (fld c 20 7 + fld c 27 3 ≤ 127) 3).need
      (fld w 6 15 == 0 && fld w 0 3 == 0) 4
  match fld c 30 2 with
  | 0 => go Instr.rcall
  | 1 => go Instr.rcallExact
  | 2 => go Instr.rcallSonly
  | _ => .err 3

/-- RSUR (R36, R51). The four RCTL operations share one word: x[XB] chooses among them (R271), so
decoding answers `rctlEvict`, and its meaning takes the operation from x[XB] (Machine/Replica.lean). -/
def decRsur (w c : Nat) : Dec Row :=
  let g := guardF (fld w 21 4)
  let xa := xr (fld w 15 6)
  let xb := xr (fld w 9 6)
  let res := fld w 6 3 == 0 && fld w 0 3 == 0
  match fld w 3 3 with
  | 0 => (decRcall w c).map .early
  | 1 => (((((Dec.ok (fun g => Row.early (.rret g))).ap g).need (fld w 15 6 == 0) 4).need (fld w 9 6 == 0) 4).need res 4)
  | 2 => ((((Dec.ok Row.rload).ap g).ap (.ok xb)).need (fld w 15 6 == 0) 4).need res 4
  | 3 => ((((Dec.ok Row.rctlEvict).ap g).ap (.ok xa)).ap (.ok xb)).need res 4
  | 4 => ((((Dec.ok Row.rctr).ap g).ap (.ok xa)).ap (.ok xb)).need res 4
  | 5 => ((((Dec.ok Row.rinfo).ap g).ap (.ok xa)).ap (.ok xb)).need res 4
  | _ => .err 2

/-- COLL (R59) by COP. -/
def decColl (w c : Nat) : Dec Row :=
  let g := guardF (fld w 21 4)
  let xa : Dec XReg := .ok (xr (fld w 15 6))
  let xb : Dec XReg := .ok (xr (fld w 9 6))
  let xc : Dec XReg := .ok (xr (fld w 3 6))
  let send : Dec (BitVec 8) := .ok (BitVec.ofNat 8 (fld c 12 8))
  let recv : Dec (BitVec 8) := .ok (BitVec.ofNat 8 (fld c 20 8))
  let ty := dtypeF (fld c 4 4)
  let op := ropF (fld c 8 4)
  let res := fld c 28 4 == 0 && fld w 0 3 == 0
  let red (k : Guard → XReg → XReg → XReg → BitVec 8 → BitVec 8 → DType → ROp → Row) : Dec Row :=
    ((((((((((Dec.ok k).ap g).ap xa).ap xb).ap xc).ap send).ap recv).ap ty).ap op).need res 4).need
      (fld c 8 4 < 3 || (4 ≤ fld c 4 4 && fld c 4 4 ≤ 7)) 3
  let mov (k : Guard → XReg → XReg → XReg → BitVec 8 → BitVec 8 → DType → Row) : Dec Row :=
    (((((((((Dec.ok k).ap g).ap xa).ap xb).ap xc).ap send).ap recv).ap ty).need res 4).need (fld c 8 4 == 0) 3
  match fld c 0 4 with
  | 0 => red Row.collAllreduce
  | 1 => red Row.collReducescatter
  | 2 => mov Row.collAllgather
  | 3 => mov Row.collBroadcast
  | 4 => mov Row.collAlltoall
  | _ => .err 3

/-- SYS (R35, R52): BKPT and QDONE have no x operand. -/
def decSys (w : Nat) : Dec Row :=
  let g := guardF (fld w 21 4)
  let one (c : Guard → XReg → Row) : Dec Row := ((Dec.ok c).ap g).ap (.ok (xr (fld w 15 6)))
  match fld w 0 15 with
  | 0 => ((Dec.ok Row.bkpt).ap g).need (fld w 15 6 == 0) 4
  | 1 => one Row.tlbinv
  | 2 => one Row.l1clean
  | 3 => one Row.archive
  | 4 => one Row.qlaunch
  | 5 => one Row.qsignal
  | 6 => one Row.qwaitsig
  | 7 => one Row.qswitch
  | 8 => one Row.qphase
  | 9 => ((Dec.ok Row.qdone).ap g).need (fld w 15 6 == 0) 4
  | 10 => one Row.renable
  | 11 => one Row.wlcfg
  | _ => .err 2

/-- IUNARY (R49). -/
def decIunary (w l : Nat) : Dec Instr :=
  match fld w 0 5 with
  | 0 => decLU Instr.mov w l
  | 1 => decLU Instr.not w l
  | 2 => decLU Instr.ineg w l
  | 3 => decLU Instr.iabs w l
  | 4 => decLU Instr.popc w l
  | 5 => decLU Instr.clz w l
  | 6 => decLU Instr.ctz w l
  | 7 => decLU Instr.brev w l
  | 8 => decLU Instr.bswap w l
  | 9 => decLU Instr.sext8 w l
  | 10 => decLU Instr.sext16 w l
  | 11 => decLU Instr.zext8 w l
  | 12 => decLU Instr.zext16 w l
  | _ => .err 2

/-- FUNARY (R49). -/
def decFunary (w l : Nat) : Dec Instr :=
  match fld w 0 5 with
  | 0 => decLU Instr.fabs w l
  | 1 => decLU Instr.fneg w l
  | 2 => decLU Instr.frcp w l
  | 3 => decLU Instr.frsq w l
  | 4 => decLU Instr.fsqrt w l
  | 5 => decLU Instr.fexp2 w l
  | 6 => decLU Instr.flog2 w l
  | 7 => decLU Instr.fsinr w l
  | 8 => decLU Instr.fcosr w l
  | 9 => decLU Instr.ftanh w l
  | 10 => decLU Instr.fsigm w l
  | 11 => decLU Instr.ffloor w l
  | 12 => decLU Instr.fceil w l
  | 13 => decLU Instr.ftrunc w l
  | 14 => decLU Instr.frint w l
  | 15 => decLU Instr.ffrac w l
  | 16 => decLU Instr.fsat w l
  | 17 => decLU Instr.fclass w l
  | _ => .err 2

/-- CVT (R49). -/
def decCvt (w l : Nat) : Dec Instr :=
  match fld w 0 5 with
  | 0 => decLU Instr.cvtF32S32 w l
  | 1 => decLU Instr.cvtF32N32 w l
  | 2 => decLU Instr.cvtS32F32 w l
  | 3 => decLU Instr.cvtN32F32 w l
  | 4 => decLU Instr.cvtS32F32Rn w l
  | 5 => decLU Instr.cvtF16F32 w l
  | 6 => decLU Instr.cvtF32F16l w l
  | 7 => decLU Instr.cvtF32F16h w l
  | 8 => decLU Instr.cvtBf16F32 w l
  | 9 => decLU Instr.cvtF32Bf16l w l
  | 10 => decLU Instr.cvtF32Bf16h w l
  | 11 => decLU Instr.cvtE4m3F32 w l
  | 12 => decLU Instr.cvtE5m2F32 w l
  | 13 => decLU Instr.cvtF32E4m3 w l
  | 14 => decLU Instr.cvtF32E5m2 w l
  | 15 => decLU Instr.cvtLns6F32 w l
  | 16 => decLU Instr.cvtF32Lns6 w l
  | 17 => decLU Instr.cvtS8F32 w l
  | 18 => decLU Instr.cvtN8F32 w l
  | _ => .err 2

/-- WUNARY (R51). -/
def decWunary (w : Nat) : Dec Instr :=
  match fld w 0 9 with
  | 0 => decGU Instr.wmov w
  | 1 => decGU Instr.wnot w
  | 2 => decGU Instr.wneg w
  | 3 => decGU Instr.wabs w
  | 4 => decGU Instr.wpopc w
  | 5 => decGU Instr.wclz w
  | 6 => decGU Instr.wctz w
  | 7 => decGU Instr.wbrev w
  | 8 => decGU Instr.wbswap w
  | 9 => decGU Instr.wsext32 w
  | 10 => decGU Instr.wzext32 w
  | _ => .err 2

/-- DUNARY (R51). -/
def decDunary (w : Nat) : Dec Instr :=
  match fld w 0 9 with
  | 0 => decGU Instr.dabs w
  | 1 => decGU Instr.dneg w
  | 2 => decGU Instr.dsqrt w
  | 3 => decGU Instr.drcp w
  | 4 => decGU Instr.dfloor w
  | 5 => decGU Instr.dceil w
  | 6 => decGU Instr.dtrunc w
  | 7 => decGU Instr.drint w
  | 8 => decGU Instr.dclass w
  | _ => .err 2

/-- DCVT (R51). -/
def decDcvt (w : Nat) : Dec Instr :=
  match fld w 0 9 with
  | 0 => decGU Instr.dcvtDS64 w
  | 1 => decGU Instr.dcvtDN64 w
  | 2 => decGU Instr.dcvtS64D w
  | 3 => decGU Instr.dcvtN64D w
  | 4 => decGU Instr.dcvtDF32l w
  | 5 => decGU Instr.dcvtF32D w
  | 6 => decGU Instr.dcvtDS32 w
  | 7 => decGU Instr.dcvtS32D w
  | _ => .err 2

/-- The lane set (R47). `l` and `l2` are the words after the main word. -/
def decodeLane (w l l2 : Nat) : Dec Instr :=
  match fld w 25 6 with
  | 1 => decLA Instr.iadd w l
  | 2 => decLA Instr.isub w l
  | 3 => decLA Instr.imul w l
  | 4 => decLA Instr.imulhs w l
  | 5 => decLA Instr.imulhn w l
  | 6 => decLA Instr.imad w l
  | 7 => decLA Instr.isad w l
  | 8 => decLA Instr.imin w l
  | 9 => decLA Instr.imax w l
  | 10 => decLA Instr.nmin w l
  | 11 => decLA Instr.nmax w l
  | 12 => decLA Instr.and w l
  | 13 => decLA Instr.or w l
  | 14 => decLA Instr.xor w l
  | 15 => decLA Instr.andn w l
  | 16 => decLA Instr.shl w l
  | 17 => decLA Instr.shr w l
  | 18 => decLA Instr.sar w l
  | 19 => decLA Instr.bfen w l
  | 20 => decLA Instr.bfes w l
  | 21 => decLA Instr.bfi w l
  | 22 => decLA Instr.prmt w l
  | 23 => decLA Instr.csel w l
  | 24 => decIunary w l
  | 25 => decLA Instr.fadd w l
  | 26 => decLA Instr.fsub w l
  | 27 => decLA Instr.fmul w l
  | 28 => decLA Instr.ffma w l
  | 29 => decLA Instr.fmin w l
  | 30 => decLA Instr.fmax w l
  | 31 => decLA Instr.fscale w l
  | 32 => decFunary w l
  | 33 => decLA Instr.hadd2 w l
  | 34 => decLA Instr.hmul2 w l
  | 35 => decLA Instr.hfma2 w l
  | 36 => decLA Instr.bfma2 w l
  | 37 => decLA Instr.hmin2 w l
  | 38 => decLA Instr.hmax2 w l
  | 39 => decCvt w l
  | 40 => decLPI Instr.icmp w l
  | 41 => decLPI Instr.ncmp w l
  | 42 => decLPF Instr.fcmp w l
  | 43 => decPlop w
  | 44 => (match fld w 0 5 with | 0 => decPtov w | 1 => decVtop w l | _ => .err 2)
  | 45 => decFld w
  | 46 => decFst Instr.fst w l
  | 47 => decFst Instr.fadda w l
  | 48 => decLoad Instr.ldb w l
  | 49 => decLoad Instr.ldbs w l
  | 50 => decLoad Instr.ldh w l
  | 51 => decLoad Instr.ldhs w l
  | 52 => decLoad Instr.ldw w l
  | 53 => decMulti pairF Instr.ldd w l
  | 54 => decMulti quadF Instr.ldq w l
  | 55 => decLdx w l l2
  | 56 => decStore Instr.stb w l
  | 57 => decStore Instr.sth w l
  | 58 => decStore Instr.stw w l
  | 59 => decMulti pairF Instr.std w l
  | 60 => decMulti quadF Instr.stq w l
  | 61 => decStx w l l2
  | 62 => decodeAtom w l l2
  | _ => .err 1

/-- The group set (R48); every major is assigned. -/
def decodeGroup (w l l2 : Nat) : Dec Row :=
  match fld w 25 6 with
  | 0 => (Dec.ok (Instr.nop (BitVec.ofNat 25 (fld w 0 25)))).map .early
  | 1 => (decGA Instr.wadd w l l2).map .early
  | 2 => (decGA Instr.wsub w l l2).map .early
  | 3 => (decGA Instr.wmul w l l2).map .early
  | 4 => (decGA Instr.wmulhs w l l2).map .early
  | 5 => (decGA Instr.wmulhn w l l2).map .early
  | 6 => (decGA Instr.wand w l l2).map .early
  | 7 => (decGA Instr.wor w l l2).map .early
  | 8 => (decGA Instr.wxor w l l2).map .early
  | 9 => (decGA Instr.wshl w l l2).map .early
  | 10 => (decGA Instr.wshr w l l2).map .early
  | 11 => (decGA Instr.wsar w l l2).map .early
  | 12 => (decGA Instr.wmin w l l2).map .early
  | 13 => (decGA Instr.wmax w l l2).map .early
  | 14 => (decGA Instr.wnmin w l l2).map .early
  | 15 => (decGA Instr.wnmax w l l2).map .early
  | 16 => (decGPI Instr.wcmp w).map .early
  | 17 => (decGPI Instr.wncmp w).map .early
  | 18 => (decGA Instr.wsel w l l2).map .early
  | 19 => (decWunary w).map .early
  | 20 => (decGA Instr.dadd w l l2).map .early
  | 21 => (decGA Instr.dsub w l l2).map .early
  | 22 => (decGA Instr.dmul w l l2).map .early
  | 23 => (decGA Instr.dfma w l l2).map .early
  | 24 => (decGA Instr.dmin w l l2).map .early
  | 25 => (decGA Instr.dmax w l l2).map .early
  | 26 => (decDunary w).map .early
  | 27 => (decGPF Instr.dcmp w).map .early
  | 28 => (decDcvt w).map .early
  | 29 => (decMvxv w l).map .early
  | 30 => (decGM Instr.wld w).map .early
  | 31 => (decGM Instr.wst w).map .early
  | 32 => (decGB Instr.bra w).map .early
  | 33 => (decGB Instr.brd w).map .early
  | 34 => (decGB Instr.call w).map .early
  | 35 => (decA Instr.callr w).map .early
  | 36 => (decG0 Instr.ret w).map .early
  | 37 => (decA Instr.jmp w).map .early
  | 38 => (decG0 Instr.exit w).map .early
  | 39 => (decG0 Instr.yield w).map .early
  | 40 => (decTrap w).map .early
  | 41 => (decG0 Instr.tret w).map .early
  | 42 => (decGS Instr.srd w).map .early
  | 43 => (decGS Instr.swr w).map .early
  | 44 => (decShape w).map .early
  | 45 => (decWaitc w).map .early
  | 46 => (decFence w).map .early
  | 47 => (decFtok w).map .early
  | 48 => (decA Instr.fwait w).map .early
  | 49 => (decBar w).map .early
  | 50 => (decKset w).map .early
  | 51 => (decKsign w).map .early
  | 52 => (decKxch w l l2).map .early
  | 53 => (decKred w l l2).map .early
  | 54 => (decMma w l).map .early
  | 55 => (decMdrain w l).map .early
  | 56 => (decMctl w).map .early
  | 57 => (decTbar w).map .early
  | 58 => (decTbwait w).map .early
  | 59 => (decWlist w l).map .early
  | 60 => (decFrame w).map .early
  | 61 => decRsur w l
  | 62 => decColl w l
  | _ => decSys w

/-- The instruction at a main word, given the two words after it (R20-R23): total, a refusal is the reason of R61. -/
def decodeRow (w l l2 : Nat) : Dec Row :=
  if bit w 31 then decodeGroup w l l2 else (decodeLane w l l2).map .early

/-- The instruction at a main word, given the two words after it. -/
noncomputable def decode (w l l2 : Nat) : Dec Instr := (decodeRow w l l2).map Row.instr

/-- The main words that take a control word (R21). -/
def hasCtl (w : Nat) : Bool :=
  if bit w 31 then
    (match fld w 25 6 with
     | 0x34 | 0x35 | 0x36 | 0x37 | 0x3B | 0x3E => true
     | 0x3D => fld w 3 3 == 0
     | _ => false)
  else
    (match fld w 25 6 with
     | 0x37 | 0x3D | 0x3E => true
     | _ => false)

/-! ## Lengths -/

/-- Literal words of an F8 source. -/
def Src8.lits : Src8 → Nat
  | .lit _ => 1
  | .v _ | .o _ | .lr | .zero | .tid | .lane | .x _ => 0

/-- Literal words of an S5 source. -/
def Src5.lits : Src5 → Nat
  | .lit _ => 1
  | .o _ | .lr | .zero | .one | .negOne | .fOne | .fHalf | .tid | .x _ => 0

/-- Literal words of a B9 source. -/
def SrcB9.lits : SrcB9 → Nat
  | .lit32 _ => 1
  | .lit64 _ => 2
  | .imm _ | .x _ | .zero => 0

/-- Literal words of a memory operand. -/
def MemArg.lits (m : MemArg) : Nat :=
  match m.os with
  | .lit _ => 1
  | .o _ | .none => 0

/-- Literal words of an STX data operand. -/
def StxT.lits : StxT → Nat
  | .b1 a | .b2 a | .b4 a => a.lits
  | .b8 _ | .b16 _ => 0

/-- Literal words of a CAS compare operand. -/
def CasC.lits : CasC → Nat
  | .w32 a => a.lits
  | .w64 _ => 0

/-- Literal words of an instruction (R20); an event has none. -/
def Instr.lits : Instr → Nat
  | .iadd _ _ a b => a.lits + b.lits
  | .isub _ _ a b => a.lits + b.lits
  | .imul _ _ a b => a.lits + b.lits
  | .imulhs _ _ a b => a.lits + b.lits
  | .imulhn _ _ a b => a.lits + b.lits
  | .imad _ _ a b => a.lits + b.lits
  | .isad _ _ a b => a.lits + b.lits
  | .imin _ _ a b => a.lits + b.lits
  | .imax _ _ a b => a.lits + b.lits
  | .nmin _ _ a b => a.lits + b.lits
  | .nmax _ _ a b => a.lits + b.lits
  | .and _ _ a b => a.lits + b.lits
  | .or _ _ a b => a.lits + b.lits
  | .xor _ _ a b => a.lits + b.lits
  | .andn _ _ a b => a.lits + b.lits
  | .shl _ _ a b => a.lits + b.lits
  | .shr _ _ a b => a.lits + b.lits
  | .sar _ _ a b => a.lits + b.lits
  | .bfen _ _ a b => a.lits + b.lits
  | .bfes _ _ a b => a.lits + b.lits
  | .bfi _ _ a b => a.lits + b.lits
  | .prmt _ _ a b => a.lits + b.lits
  | .csel _ _ a b => a.lits + b.lits
  | .mov _ _ a => a.lits
  | .not _ _ a => a.lits
  | .ineg _ _ a => a.lits
  | .iabs _ _ a => a.lits
  | .popc _ _ a => a.lits
  | .clz _ _ a => a.lits
  | .ctz _ _ a => a.lits
  | .brev _ _ a => a.lits
  | .bswap _ _ a => a.lits
  | .sext8 _ _ a => a.lits
  | .sext16 _ _ a => a.lits
  | .zext8 _ _ a => a.lits
  | .zext16 _ _ a => a.lits
  | .fadd _ _ a b => a.lits + b.lits
  | .fsub _ _ a b => a.lits + b.lits
  | .fmul _ _ a b => a.lits + b.lits
  | .ffma _ _ a b => a.lits + b.lits
  | .fmin _ _ a b => a.lits + b.lits
  | .fmax _ _ a b => a.lits + b.lits
  | .fscale _ _ a b => a.lits + b.lits
  | .fabs _ _ a => a.lits
  | .fneg _ _ a => a.lits
  | .frcp _ _ a => a.lits
  | .frsq _ _ a => a.lits
  | .fsqrt _ _ a => a.lits
  | .fexp2 _ _ a => a.lits
  | .flog2 _ _ a => a.lits
  | .fsinr _ _ a => a.lits
  | .fcosr _ _ a => a.lits
  | .ftanh _ _ a => a.lits
  | .fsigm _ _ a => a.lits
  | .ffloor _ _ a => a.lits
  | .fceil _ _ a => a.lits
  | .ftrunc _ _ a => a.lits
  | .frint _ _ a => a.lits
  | .ffrac _ _ a => a.lits
  | .fsat _ _ a => a.lits
  | .fclass _ _ a => a.lits
  | .hadd2 _ _ a b => a.lits + b.lits
  | .hmul2 _ _ a b => a.lits + b.lits
  | .hfma2 _ _ a b => a.lits + b.lits
  | .bfma2 _ _ a b => a.lits + b.lits
  | .hmin2 _ _ a b => a.lits + b.lits
  | .hmax2 _ _ a b => a.lits + b.lits
  | .cvtF32S32 _ _ a => a.lits
  | .cvtF32N32 _ _ a => a.lits
  | .cvtS32F32 _ _ a => a.lits
  | .cvtN32F32 _ _ a => a.lits
  | .cvtS32F32Rn _ _ a => a.lits
  | .cvtF16F32 _ _ a => a.lits
  | .cvtF32F16l _ _ a => a.lits
  | .cvtF32F16h _ _ a => a.lits
  | .cvtBf16F32 _ _ a => a.lits
  | .cvtF32Bf16l _ _ a => a.lits
  | .cvtF32Bf16h _ _ a => a.lits
  | .cvtE4m3F32 _ _ a => a.lits
  | .cvtE5m2F32 _ _ a => a.lits
  | .cvtF32E4m3 _ _ a => a.lits
  | .cvtF32E5m2 _ _ a => a.lits
  | .cvtLns6F32 _ _ a => a.lits
  | .cvtF32Lns6 _ _ a => a.lits
  | .cvtS8F32 _ _ a => a.lits
  | .cvtN8F32 _ _ a => a.lits
  | .icmp _ _ _ a b => a.lits + b.lits
  | .ncmp _ _ _ a b => a.lits + b.lits
  | .fcmp _ _ _ a b => a.lits + b.lits
  | .vtop _ a => a.lits
  | .fst _ a _ _ => a.lits
  | .fadda _ a _ _ => a.lits
  | .ldb _ _ m => m.lits
  | .ldbs _ _ m => m.lits
  | .ldh _ _ m => m.lits
  | .ldhs _ _ m => m.lits
  | .ldw _ _ m => m.lits
  | .ldd _ _ m => m.lits
  | .ldq _ _ m => m.lits
  | .ldx _ _ m _ _ _ => m.lits
  | .stb _ t m => t.lits + m.lits
  | .sth _ t m => t.lits + m.lits
  | .stw _ t m => t.lits + m.lits
  | .std _ _ m => m.lits
  | .stq _ _ m => m.lits
  | .stx _ t m _ _ _ => t.lits + m.lits
  | .atomAdd _ _ m _ => m.lits
  | .atomMin _ _ m _ => m.lits
  | .atomMax _ _ m _ => m.lits
  | .atomAnd _ _ m _ => m.lits
  | .atomOr _ _ m _ => m.lits
  | .atomXor _ _ m _ => m.lits
  | .atomExch _ _ m _ => m.lits
  | .atomCas _ _ m _ c => m.lits + c.lits
  | .atomIncw _ _ m _ => m.lits
  | .atomFadd _ _ m _ => m.lits
  | .atomHadd2 _ _ m _ => m.lits
  | .wadd _ _ _ b => b.lits
  | .wsub _ _ _ b => b.lits
  | .wmul _ _ _ b => b.lits
  | .wmulhs _ _ _ b => b.lits
  | .wmulhn _ _ _ b => b.lits
  | .wand _ _ _ b => b.lits
  | .wor _ _ _ b => b.lits
  | .wxor _ _ _ b => b.lits
  | .wshl _ _ _ b => b.lits
  | .wshr _ _ _ b => b.lits
  | .wsar _ _ _ b => b.lits
  | .wmin _ _ _ b => b.lits
  | .wmax _ _ _ b => b.lits
  | .wnmin _ _ _ b => b.lits
  | .wnmax _ _ _ b => b.lits
  | .wsel _ _ _ b => b.lits
  | .dadd _ _ _ b => b.lits
  | .dsub _ _ _ b => b.lits
  | .dmul _ _ _ b => b.lits
  | .dfma _ _ _ b => b.lits
  | .dmin _ _ _ b => b.lits
  | .dmax _ _ _ b => b.lits
  | .v2x _ _ a => a.lits
  | .v2xs _ _ a => a.lits
  | .kxchTid _ _ _ _ a i => a.lits + i.lits
  | .kxchPos _ _ _ _ a i => a.lits + i.lits
  | .kredAddN32 _ _ _ _ a => a.lits
  | .kredAddF32 _ _ _ _ a => a.lits
  | .kredMinS32 _ _ _ _ a => a.lits
  | .kredMaxS32 _ _ _ _ a => a.lits
  | .kredMinF32 _ _ _ _ a => a.lits
  | .kredMaxF32 _ _ _ _ a => a.lits
  | .kredAnd _ _ _ _ a => a.lits
  | .kredOr _ _ _ _ a => a.lits
  | .kredXor _ _ _ _ a => a.lits
  | .kredNz _ _ _ _ a => a.lits
  | .plop _ _ _ _ _ | .ptov _ _ | .fld _ _ _ _ | .nop _
  | .wcmp _ _ _ _ _ | .wncmp _ _ _ _ _ | .wmov _ _ _ | .wnot _ _ _
  | .wneg _ _ _ | .wabs _ _ _ | .wpopc _ _ _ | .wclz _ _ _
  | .wctz _ _ _ | .wbrev _ _ _ | .wbswap _ _ _ | .wsext32 _ _ _
  | .wzext32 _ _ _ | .dabs _ _ _ | .dneg _ _ _ | .dsqrt _ _ _
  | .drcp _ _ _ | .dfloor _ _ _ | .dceil _ _ _ | .dtrunc _ _ _
  | .drint _ _ _ | .dclass _ _ _ | .dcmp _ _ _ _ _ | .dcvtDS64 _ _ _
  | .dcvtDN64 _ _ _ | .dcvtS64D _ _ _ | .dcvtN64D _ _ _ | .dcvtDF32l _ _ _
  | .dcvtF32D _ _ _ | .dcvtDS32 _ _ _ | .dcvtS32D _ _ _ | .vp2x _ _ _
  | .x2v _ _ _ | .x2vh _ _ _ | .x2vp _ _ _ | .wld _ _ _ _
  | .wst _ _ _ _ | .bra _ _ | .brd _ _ | .call _ _
  | .callr _ _ | .ret _ | .jmp _ _ | .exit _
  | .yield _ | .trap _ _ | .tret _ | .srd _ _ _
  | .swr _ _ _ | .tagof _ _ _ | .fmtof _ _ _ | .waitc _ _ _ _ _
  | .fence _ _ _ | .ftok _ _ _ _ | .fwait _ _ | .bar _ _ _ _
  | .ksetCount _ _ _ _ | .ksetMask _ _ _ _ | .ksign _ _ _ _ | .mma _ _ _ _ _
  | .mdrain _ _ _ _ _ | .mzero _ _ | .mldsc _ _ _ | .mstat _ _ _
  | .tbinit _ _ _ | .tbarrive _ _ _ _ | .tbexpect _ _ _ | .tbtest _ _ _ _
  | .tbwait _ _ _ | .wlpush _ _ _ _ | .wlpop _ _ _ _ _ | .wltry _ _ _ _ _
  | .wldone _ _ | .wlfloor _ _ _ | .wlstat _ _ _ | .fenter _ _ _
  | .fleave _ _ | .fopen _ _ _ _ _ | .flink _ _ _ | .fhnd _ _ _
  | .fdrop _ _ | .fsync _ _ | .funlink _ _ | .rcall _ _ _ _ _ _
  | .rcallExact _ _ _ _ _ _ | .rcallSonly _ _ _ _ _ _ | .rret _ | .rload _ _
  | .rctlEvict _ _ _ | .rctlPin _ _ _ | .rctlUnpin _ _ _ | .rctlFlush _ _ _
  | .rctr _ _ _ | .rinfo _ _ _ | .collAllreduce _ _ _ _ _ _ _ _ | .collReducescatter _ _ _ _ _ _ _ _
  | .collAllgather _ _ _ _ _ _ _ | .collBroadcast _ _ _ _ _ _ _ | .collAlltoall _ _ _ _ _ _ _ | .bkpt _
  | .tlbinv _ _ | .l1clean _ _ | .archive _ _ | .qlaunch _ _
  | .qsignal _ _ | .qwaitsig _ _ | .qswitch _ _ | .qphase _ _
  | .qdone _ | .renable _ _ | .wlcfg _ _ | .launchDecision _
  | .gangPlacement _ _ _ _ _ _ _ _ | .phaseClean _ | .workgroupEnd _ | .gangRetire _
  | .pick _ | .ageCap _ | .regroupRelease _ _ | .loadReturn _ _ _
  | .storePerformed _ _ | .l1Eviction _ _ _ | .fenceComplete _ | .fenceRollback _
  | .tokenComplete _ _ | .pageWalk _ _ _ | .pageRequest _ | .pagerResponse _
  | .kill _ _ | .copyTakeEntry _ | .copy _ _ | .gather _ _
  | .fill _ _ | .convert _ _ | .convertout _ _ | .mmaEntry _
  | .mdrainEntry _ | .mctlEntry _ | .matrixEntryComplete _ | .mmaResume _
  | .regionLoad _ _ _ | .surrogateEvaluation _ _ | .restorationStart _ _ | .violationReport _
  | .disableApply _ _ _ | .enableApply _ _ _ | .counterBlockWrite _ _ | .floorRefresh _ _
  | .groupFloorRefresh _ _ _ _ | .floorDropAck _ | .wlpushPlace _ | .wlpopServe _ _
  | .frontBufferSend _ _ | .chunkSpill _ _ _ _ | .chunkReadBack _ _ _ _ | .chunkMigrate _ _ _ _ _
  | .spillRefill _ _ | .contextCreate _ | .contextDestroy _ | .contextSelect _
  | .queueEnable _ | .queueDisable _ | .queueQuiesce _ | .queueNotify _ _ _
  | .packetStart _ _ | .qwaitsigResume _ | .tickstopWrite _ | .tickStop
  | .registerWrite _ _ | .preemptRequest _ _ | .drainExpire _ | .gangSave _
  | .gangRestore _ _ _ _ _ | .switchTick | .switchComplete | .haltRequest _
  | .threadHalt _ | .resumeRequest _ | .sample _ | .checkpoint _
  | .gatePass _ | .intervalClose _ | .collChunk _ _ _ _ | .collectiveComplete _ _ _ _
  | .ingressWrite _ _ _ | .ingressRead _ _ _ | .functionLevelReset _ | .coreFailure _
  | .memoryRetire _ _ | .moduleReset | .attestationQuote _ _ | .linkFailure _
  | .flitRetry _ | .podLeave | .linkUp _ | .ngurilIngress _ _ _
  | .vmodeWrite _ | .instructionFetch _ | .resultWriteback _ _ => 0

/-- Control words of an instruction (R21). -/
def Instr.ctls : Instr → Nat
  | .ldx _ _ _ _ _ _ | .stx _ _ _ _ _ _ | .atomAdd _ _ _ _ | .atomMin _ _ _ _
  | .atomMax _ _ _ _ | .atomAnd _ _ _ _ | .atomOr _ _ _ _ | .atomXor _ _ _ _
  | .atomExch _ _ _ _ | .atomCas _ _ _ _ _ | .atomIncw _ _ _ _ | .atomFadd _ _ _ _
  | .atomHadd2 _ _ _ _ | .kxchTid _ _ _ _ _ _ | .kxchPos _ _ _ _ _ _ | .kredAddN32 _ _ _ _ _
  | .kredAddF32 _ _ _ _ _ | .kredMinS32 _ _ _ _ _ | .kredMaxS32 _ _ _ _ _ | .kredMinF32 _ _ _ _ _
  | .kredMaxF32 _ _ _ _ _ | .kredAnd _ _ _ _ _ | .kredOr _ _ _ _ _ | .kredXor _ _ _ _ _
  | .kredNz _ _ _ _ _ | .mma _ _ _ _ _ | .mdrain _ _ _ _ _ | .wlpush _ _ _ _
  | .wlpop _ _ _ _ _ | .wltry _ _ _ _ _ | .wldone _ _ | .wlfloor _ _ _
  | .wlstat _ _ _ | .rcall _ _ _ _ _ _ | .rcallExact _ _ _ _ _ _ | .rcallSonly _ _ _ _ _ _
  | .collAllreduce _ _ _ _ _ _ _ _ | .collReducescatter _ _ _ _ _ _ _ _ | .collAllgather _ _ _ _ _ _ _ | .collBroadcast _ _ _ _ _ _ _
  | .collAlltoall _ _ _ _ _ _ _ => 1
  | .iadd _ _ _ _ | .isub _ _ _ _ | .imul _ _ _ _ | .imulhs _ _ _ _
  | .imulhn _ _ _ _ | .imad _ _ _ _ | .isad _ _ _ _ | .imin _ _ _ _
  | .imax _ _ _ _ | .nmin _ _ _ _ | .nmax _ _ _ _ | .and _ _ _ _
  | .or _ _ _ _ | .xor _ _ _ _ | .andn _ _ _ _ | .shl _ _ _ _
  | .shr _ _ _ _ | .sar _ _ _ _ | .bfen _ _ _ _ | .bfes _ _ _ _
  | .bfi _ _ _ _ | .prmt _ _ _ _ | .csel _ _ _ _ | .mov _ _ _
  | .not _ _ _ | .ineg _ _ _ | .iabs _ _ _ | .popc _ _ _
  | .clz _ _ _ | .ctz _ _ _ | .brev _ _ _ | .bswap _ _ _
  | .sext8 _ _ _ | .sext16 _ _ _ | .zext8 _ _ _ | .zext16 _ _ _
  | .fadd _ _ _ _ | .fsub _ _ _ _ | .fmul _ _ _ _ | .ffma _ _ _ _
  | .fmin _ _ _ _ | .fmax _ _ _ _ | .fscale _ _ _ _ | .fabs _ _ _
  | .fneg _ _ _ | .frcp _ _ _ | .frsq _ _ _ | .fsqrt _ _ _
  | .fexp2 _ _ _ | .flog2 _ _ _ | .fsinr _ _ _ | .fcosr _ _ _
  | .ftanh _ _ _ | .fsigm _ _ _ | .ffloor _ _ _ | .fceil _ _ _
  | .ftrunc _ _ _ | .frint _ _ _ | .ffrac _ _ _ | .fsat _ _ _
  | .fclass _ _ _ | .hadd2 _ _ _ _ | .hmul2 _ _ _ _ | .hfma2 _ _ _ _
  | .bfma2 _ _ _ _ | .hmin2 _ _ _ _ | .hmax2 _ _ _ _ | .cvtF32S32 _ _ _
  | .cvtF32N32 _ _ _ | .cvtS32F32 _ _ _ | .cvtN32F32 _ _ _ | .cvtS32F32Rn _ _ _
  | .cvtF16F32 _ _ _ | .cvtF32F16l _ _ _ | .cvtF32F16h _ _ _ | .cvtBf16F32 _ _ _
  | .cvtF32Bf16l _ _ _ | .cvtF32Bf16h _ _ _ | .cvtE4m3F32 _ _ _ | .cvtE5m2F32 _ _ _
  | .cvtF32E4m3 _ _ _ | .cvtF32E5m2 _ _ _ | .cvtLns6F32 _ _ _ | .cvtF32Lns6 _ _ _
  | .cvtS8F32 _ _ _ | .cvtN8F32 _ _ _ | .icmp _ _ _ _ _ | .ncmp _ _ _ _ _
  | .fcmp _ _ _ _ _ | .plop _ _ _ _ _ | .ptov _ _ | .vtop _ _
  | .fld _ _ _ _ | .fst _ _ _ _ | .fadda _ _ _ _ | .ldb _ _ _
  | .ldbs _ _ _ | .ldh _ _ _ | .ldhs _ _ _ | .ldw _ _ _
  | .ldd _ _ _ | .ldq _ _ _ | .stb _ _ _ | .sth _ _ _
  | .stw _ _ _ | .std _ _ _ | .stq _ _ _ | .nop _
  | .wadd _ _ _ _ | .wsub _ _ _ _ | .wmul _ _ _ _ | .wmulhs _ _ _ _
  | .wmulhn _ _ _ _ | .wand _ _ _ _ | .wor _ _ _ _ | .wxor _ _ _ _
  | .wshl _ _ _ _ | .wshr _ _ _ _ | .wsar _ _ _ _ | .wmin _ _ _ _
  | .wmax _ _ _ _ | .wnmin _ _ _ _ | .wnmax _ _ _ _ | .wcmp _ _ _ _ _
  | .wncmp _ _ _ _ _ | .wsel _ _ _ _ | .wmov _ _ _ | .wnot _ _ _
  | .wneg _ _ _ | .wabs _ _ _ | .wpopc _ _ _ | .wclz _ _ _
  | .wctz _ _ _ | .wbrev _ _ _ | .wbswap _ _ _ | .wsext32 _ _ _
  | .wzext32 _ _ _ | .dadd _ _ _ _ | .dsub _ _ _ _ | .dmul _ _ _ _
  | .dfma _ _ _ _ | .dmin _ _ _ _ | .dmax _ _ _ _ | .dabs _ _ _
  | .dneg _ _ _ | .dsqrt _ _ _ | .drcp _ _ _ | .dfloor _ _ _
  | .dceil _ _ _ | .dtrunc _ _ _ | .drint _ _ _ | .dclass _ _ _
  | .dcmp _ _ _ _ _ | .dcvtDS64 _ _ _ | .dcvtDN64 _ _ _ | .dcvtS64D _ _ _
  | .dcvtN64D _ _ _ | .dcvtDF32l _ _ _ | .dcvtF32D _ _ _ | .dcvtDS32 _ _ _
  | .dcvtS32D _ _ _ | .v2x _ _ _ | .v2xs _ _ _ | .vp2x _ _ _
  | .x2v _ _ _ | .x2vh _ _ _ | .x2vp _ _ _ | .wld _ _ _ _
  | .wst _ _ _ _ | .bra _ _ | .brd _ _ | .call _ _
  | .callr _ _ | .ret _ | .jmp _ _ | .exit _
  | .yield _ | .trap _ _ | .tret _ | .srd _ _ _
  | .swr _ _ _ | .tagof _ _ _ | .fmtof _ _ _ | .waitc _ _ _ _ _
  | .fence _ _ _ | .ftok _ _ _ _ | .fwait _ _ | .bar _ _ _ _
  | .ksetCount _ _ _ _ | .ksetMask _ _ _ _ | .ksign _ _ _ _ | .mzero _ _
  | .mldsc _ _ _ | .mstat _ _ _ | .tbinit _ _ _ | .tbarrive _ _ _ _
  | .tbexpect _ _ _ | .tbtest _ _ _ _ | .tbwait _ _ _ | .fenter _ _ _
  | .fleave _ _ | .fopen _ _ _ _ _ | .flink _ _ _ | .fhnd _ _ _
  | .fdrop _ _ | .fsync _ _ | .funlink _ _ | .rret _
  | .rload _ _ | .rctlEvict _ _ _ | .rctlPin _ _ _ | .rctlUnpin _ _ _
  | .rctlFlush _ _ _ | .rctr _ _ _ | .rinfo _ _ _ | .bkpt _
  | .tlbinv _ _ | .l1clean _ _ | .archive _ _ | .qlaunch _ _
  | .qsignal _ _ | .qwaitsig _ _ | .qswitch _ _ | .qphase _ _
  | .qdone _ | .renable _ _ | .wlcfg _ _ | .launchDecision _
  | .gangPlacement _ _ _ _ _ _ _ _ | .phaseClean _ | .workgroupEnd _ | .gangRetire _
  | .pick _ | .ageCap _ | .regroupRelease _ _ | .loadReturn _ _ _
  | .storePerformed _ _ | .l1Eviction _ _ _ | .fenceComplete _ | .fenceRollback _
  | .tokenComplete _ _ | .pageWalk _ _ _ | .pageRequest _ | .pagerResponse _
  | .kill _ _ | .copyTakeEntry _ | .copy _ _ | .gather _ _
  | .fill _ _ | .convert _ _ | .convertout _ _ | .mmaEntry _
  | .mdrainEntry _ | .mctlEntry _ | .matrixEntryComplete _ | .mmaResume _
  | .regionLoad _ _ _ | .surrogateEvaluation _ _ | .restorationStart _ _ | .violationReport _
  | .disableApply _ _ _ | .enableApply _ _ _ | .counterBlockWrite _ _ | .floorRefresh _ _
  | .groupFloorRefresh _ _ _ _ | .floorDropAck _ | .wlpushPlace _ | .wlpopServe _ _
  | .frontBufferSend _ _ | .chunkSpill _ _ _ _ | .chunkReadBack _ _ _ _ | .chunkMigrate _ _ _ _ _
  | .spillRefill _ _ | .contextCreate _ | .contextDestroy _ | .contextSelect _
  | .queueEnable _ | .queueDisable _ | .queueQuiesce _ | .queueNotify _ _ _
  | .packetStart _ _ | .qwaitsigResume _ | .tickstopWrite _ | .tickStop
  | .registerWrite _ _ | .preemptRequest _ _ | .drainExpire _ | .gangSave _
  | .gangRestore _ _ _ _ _ | .switchTick | .switchComplete | .haltRequest _
  | .threadHalt _ | .resumeRequest _ | .sample _ | .checkpoint _
  | .gatePass _ | .intervalClose _ | .collChunk _ _ _ _ | .collectiveComplete _ _ _ _
  | .ingressWrite _ _ _ | .ingressRead _ _ _ | .functionLevelReset _ | .coreFailure _
  | .memoryRetire _ _ | .moduleReset | .attestationQuote _ _ | .linkFailure _
  | .flitRetry _ | .podLeave | .linkUp _ | .ngurilIngress _ _ _
  | .vmodeWrite _ | .instructionFetch _ | .resultWriteback _ _ => 0

/-- The instruction's length in words (R20). -/
def Instr.words (i : Instr) : Nat := 1 + i.ctls + i.lits

/-! ## The encoder -/

/-- G (R29). -/
def encG : Guard → Nat
  | none => 0
  | some n => n.val + 1

/-- F8 source code (R24). -/
def Src8.code : Src8 → Nat
  | .v n => n.val | .o n => 128 + n.val | .lr => 136 | .lit _ => 137 | .zero => 138 | .tid => 139
  | .lane => 140 | .x n => 192 + n.val

/-- F8 destination code (R24). -/
def Dst8.code : Dst8 → Nat
  | .v n => n.val | .o n => 128 + n.val | .lr => 136 | .zero => 138

/-- S5 code (R25). -/
def Src5.code : Src5 → Nat
  | .o n => n.val | .lr => 8 | .lit _ => 9 | .zero => 10 | .one => 11 | .negOne => 12 | .fOne => 13
  | .fHalf => 14 | .tid => 15 | .x n => 16 + n.val

/-- B9 code (R26). -/
def SrcB9.code : SrcB9 → Nat
  | .imm i => 256 + i.toNat | .x n => n.val | .lit32 _ => 64 | .lit64 _ => 65 | .zero => 66

/-- B7 code (R27). -/
def SrcB7.code : SrcB7 → Nat
  | .x n => n.val | .imm n => 64 + n.val

/-- SHAPE register code (R114). -/
def VXReg.code : VXReg → Nat
  | .v n => n.val | .x n => 192 + n.val

/-- Condition code (R50). -/
def ICond.code : ICond → Nat
  | .eq => 0 | .ne => 1 | .lt => 2 | .le => 3 | .gt => 4 | .ge => 5

/-- Condition code (R50). -/
def FCond.code : FCond → Nat
  | .eq => 0 | .ne => 1 | .lt => 2 | .le => 3 | .gt => 4 | .ge => 5 | .un => 6 | .ord => 7 | .ltu => 8
  | .leu => 9 | .gtu => 10 | .geu => 11 | .equ => 12

/-- Scope code (R38). -/
def Scope.code : Scope → Nat
  | .thread => 0 | .wg => 1 | .core => 2 | .cluster => 3 | .die => 4 | .device => 5 | .system => 6

/-- Hint code (R53). -/
def Hint.code : Hint → Nat
  | .default => 0 | .stream => 1 | .keep => 2 | .bypass => 3

/-- ORDER code (R53). -/
def Order.code : Order → Nat
  | .relaxed => 0 | .acquire => 1 | .release => 2 | .acqRel => 3

/-- Format code (R54). -/
def MFmt.code : MFmt → Nat
  | .e4m3 => 0 | .e5m2 => 1 | .lns6 => 2 | .int8 => 3 | .f16 => 4 | .bf16 => 5 | .f64 => 6

/-- SPLIT code (R54). -/
def Split.code : Split → Nat
  | .one => 0 | .two => 1 | .four => 2

/-- DFMT code (R55). -/
def DFmt.code : DFmt → Nat
  | .f32 => 0 | .f16 => 1 | .bf16 => 2 | .e4m3 => 3 | .e5m2 => 4 | .lns6 => 5 | .s8 => 6 | .s32 => 7
  | .f64 => 8 | .xf40 => 9

/-- DTYPE code (R59). -/
def DType.code : DType → Nat
  | .f32 => 0 | .f16 => 1 | .bf16 => 2 | .f64 => 3 | .s32 => 4 | .n32 => 5 | .s64 => 6 | .n64 => 7
  | .e4m3 => 8 | .e5m2 => 9

/-- ROP code (R59). -/
def ROp.code : ROp → Nat
  | .sum => 0 | .min => 1 | .max => 2 | .and => 3 | .or => 4 | .xor => 5

/-- One bit as a number. -/
def b1 (b : Bool) : Nat := if b then 1 else 0

/-- The literal words of an F8 source. -/
def Src8.litw : Src8 → List Nat
  | .lit w => [w.toNat]
  | .v _ | .o _ | .lr | .zero | .tid | .lane | .x _ => []

/-- The literal words of an S5 source. -/
def Src5.litw : Src5 → List Nat
  | .lit w => [w.toNat]
  | .o _ | .lr | .zero | .one | .negOne | .fOne | .fHalf | .tid | .x _ => []

/-- The literal words of a B9 source, low word first (R26). -/
def SrcB9.litw : SrcB9 → List Nat
  | .lit32 w => [w.toNat]
  | .lit64 w => [w.toNat % 4294967296, w.toNat / 4294967296]
  | .imm _ | .x _ | .zero => []

/-- OS code (R31). -/
def OffSel.code : OffSel → Nat
  | .o n => n.val | .none => 6 | .lit _ => 7

/-- The literal words of a memory operand. -/
def OffSel.litw : OffSel → List Nat
  | .lit w => [w.toNat]
  | .o _ | .none => []

/-- XB, OS and IMM4 below bit 13 (R30). -/
def MemArg.code (m : MemArg) : Nat := m.xb.val * 128 + m.os.code * 16 + m.k.toNat

/-- A lane-set main word (R20). -/
def laneW (op : Nat) (g : Guard) (rest : Nat) : Nat := op * 33554432 + encG g * 2097152 + rest

/-- A group-set main word (R20). -/
def groupW (op : Nat) (g : Guard) (rest : Nat) : Nat := 2147483648 + op * 33554432 + encG g * 2097152 + rest

/-- LA (R30). -/
def encLA (op : Nat) (g : Guard) (d : Dst8) (a : Src8) (b : Src5) : List Nat :=
  laneW op g (d.code * 8192 + a.code * 32 + b.code) :: (a.litw ++ b.litw)

/-- LU (R30). -/
def encLU (op fn : Nat) (g : Guard) (d : Dst8) (a : Src8) : List Nat :=
  laneW op g (d.code * 8192 + a.code * 32 + fn) :: a.litw

/-- LP (R30). -/
def encLP (op : Nat) (g : Guard) (pd : PReg) (cc : Nat) (a : Src8) (b : Src5) : List Nat :=
  laneW op g (pd.val * 131072 + cc * 8192 + a.code * 32 + b.code) :: (a.litw ++ b.litw)

/-- LM (R30). -/
def encLM (op : Nat) (g : Guard) (t : Nat) (m : MemArg) (lit : List Nat) : List Nat :=
  laneW op g (t * 8192 + m.code) :: (lit ++ m.os.litw)

/-- LM with a control word (R53). -/
def encLMX (op : Nat) (g : Guard) (t : Nat) (m : MemArg) (ctl : Nat) (lit : List Nat) : List Nat :=
  laneW op g (t * 8192 + m.code) :: ctl :: (lit ++ m.os.litw)

/-- LF (R30). -/
def encLF (op : Nat) (g : Guard) (t : Nat) (dep : Fin 8) (slot : Fin 1024) (lit : List Nat) : List Nat :=
  laneW op g (t * 8192 + dep.val * 1024 + slot.val) :: lit

/-- The control word of LDX, STX and ATOM (R53). -/
def xCtlW (aop scope order ty c hint : Nat) : Nat :=
  aop * 268435456 + scope * 33554432 + order * 8388608 + ty * 1048576 + c * 4096 + hint * 1024

/-- T code and TYPE of LDX (R53). -/
def LdxT.code : LdxT → Nat × Nat
  | .b1 d => (0, d.code) | .b2 d => (1, d.code) | .b4 d => (2, d.code) | .b8 v => (3, v.val) | .b16 v => (4, v.val)

/-- T code and TYPE of STX (R53). -/
def StxT.code : StxT → Nat × Nat
  | .b1 a => (0, a.code) | .b2 a => (1, a.code) | .b4 a => (2, a.code) | .b8 v => (3, v.val) | .b16 v => (4, v.val)

/-- The literal word of an STX data operand. -/
def StxT.litw : StxT → List Nat
  | .b1 a | .b2 a | .b4 a => a.litw
  | .b8 _ | .b16 _ => []

/-- T code and TYPE of ATOM (R53). -/
def AtomT.code : AtomT → Nat × Nat
  | .n32 d => (0, d.code) | .s32 d => (1, d.code) | .n64 v => (2, v.val) | .s64 v => (3, v.val)
  | .f32 d => (4, d.code) | .f16x2 d => (5, d.code)

/-- C code of CAS (R53). -/
def CasC.code : CasC → Nat
  | .w32 a => a.code | .w64 v => v.val

/-- The literal word of a CAS compare operand. -/
def CasC.litw : CasC → List Nat
  | .w32 a => a.litw
  | .w64 _ => []

/-- ATOM (R53). -/
def encAtom (aop : Nat) (g : Guard) (ty t : Nat) (m : MemArg) (oa : OrdArg) (c : Nat) (lit : List Nat) : List Nat :=
  encLMX 0x3E g t m (xCtlW aop oa.scope.code oa.order.code ty c oa.hint.code) lit

/-- GA (R33). -/
def encGA (op : Nat) (g : Guard) (d a : XReg) (b : SrcB9) : List Nat :=
  groupW op g (d.val * 32768 + a.val * 512 + b.code) :: b.litw

/-- GU (R33). -/
def encGU (op fn : Nat) (g : Guard) (d a : XReg) : List Nat := [groupW op g (d.val * 32768 + a.val * 512 + fn)]

/-- GP (R33). -/
def encGP (op : Nat) (g : Guard) (pd : PReg) (cc : Nat) (a : XReg) (b : SrcB7) : List Nat :=
  [groupW op g (pd.val * 131072 + cc * 8192 + a.val * 128 + b.code)]

/-- MVXV (R36). -/
def encMvxv (fn : Nat) (g : Guard) (x : XReg) (v : Nat) (lit : List Nat) : List Nat :=
  groupW 0x1D g (x.val * 32768 + v * 128 + fn) :: lit

/-- C of BAR and TBAR. -/
def encC63 : Option (Fin 63) → Nat
  | none => 63
  | some n => n.val

/-- The control word of KXCH (R58). -/
def kxchCtl (mode : Nat) (cl : Bool) (k : Fin 8) (i a d : Nat) : Nat :=
  mode * 268435456 + b1 cl * 134217728 + k.val * 16777216 + i * 65536 + a * 256 + d

/-- KRED (R58). -/
def encKred (rop : Nat) (g : Guard) (k : Fin 8) (cl : Bool) (d : Dst8) (a : Src8) : List Nat :=
  groupW 0x35 g 0 :: (b1 cl * 8388608 + k.val * 1048576 + rop * 65536 + a.code * 256 + d.code) :: a.litw

/-- The MMA control word (R54). -/
def MmaCtl.enc (c : MmaCtl) : Nat :=
  b1 c.kcl * 4194304 + c.k.val * 524288 + c.split.code * 131072 + b1 c.scale * 65536 + b1 c.zero * 32768
  + c.n.val * 8192 + c.m.val * 2048 + c.slot.val * 256 + b1 c.bsgn * 128 + b1 c.asgn * 64 + c.bfmt.code * 8
  + c.afmt.code

/-- The MDRAIN control word (R55). -/
def DrainCtl.enc (c : DrainCtl) : Nat :=
  b1 c.kcl * 33554432 + c.k.val * 4194304 + b1 c.keep * 2097152 + b1 c.scale * 1048576 + b1 c.add * 524288
  + c.dfmt.code * 32768 + c.n.val * 8192 + c.m.val * 2048 + c.slot.val * 256

/-- GC (R33) with a control word. -/
def encGC (op : Nat) (g : Guard) (xa xb xc : Nat) (ctl : Nat) : List Nat :=
  [groupW op g (xa * 32768 + xb * 512 + xc * 8), ctl]

/-- The WLIST control word (R57). -/
def wlCtl (ps dep v fn : Nat) (wl : Fin 4) : Nat := ps * 131072 + dep * 4096 + v * 32 + fn * 4 + wl.val

/-- FRAME (R36). -/
def encFrame (fn : Nat) (g : Guard) (d a dep k : Nat) : List Nat :=
  [groupW 0x3C g (d * 32768 + a * 512 + fn * 64 + dep * 8 + k)]

/-- RSUR (R36). -/
def encRsur (fn : Nat) (g : Guard) (xa xb : Nat) : List Nat := [groupW 0x3D g (xa * 32768 + xb * 512 + fn * 8)]

/-- RCALL (R56). -/
def encRcall (mode : Nat) (g : Guard) (region : Fin 1024) (argv resv : VReg) (argc resc : Fin 8) : List Nat :=
  [groupW 0x3D g 0, mode * 1073741824 + resc.val * 134217728 + resv.val * 1048576 + argc.val * 131072
    + argv.val * 1024 + region.val]

/-- COLL (R59). -/
def encColl (cop : Nat) (g : Guard) (xa xb xc : XReg) (send recv : BitVec 8) (ty : DType) (op : Nat) : List Nat :=
  encGC 0x3E g xa.val xb.val xc.val (recv.toNat * 1048576 + send.toNat * 4096 + op * 256 + ty.code * 16 + cop)

/-- SYS (R35). -/
def encSys (fn : Nat) (g : Guard) (x : Nat) : List Nat := [groupW 0x3F g (x * 32768 + fn)]

/-- The words of an instruction, main word first (R20). An event has none. -/
def encode : Instr → List Nat
  | .iadd g d a b => encLA 1 g d a b
  | .isub g d a b => encLA 2 g d a b
  | .imul g d a b => encLA 3 g d a b
  | .imulhs g d a b => encLA 4 g d a b
  | .imulhn g d a b => encLA 5 g d a b
  | .imad g d a b => encLA 6 g d a b
  | .isad g d a b => encLA 7 g d a b
  | .imin g d a b => encLA 8 g d a b
  | .imax g d a b => encLA 9 g d a b
  | .nmin g d a b => encLA 10 g d a b
  | .nmax g d a b => encLA 11 g d a b
  | .and g d a b => encLA 12 g d a b
  | .or g d a b => encLA 13 g d a b
  | .xor g d a b => encLA 14 g d a b
  | .andn g d a b => encLA 15 g d a b
  | .shl g d a b => encLA 16 g d a b
  | .shr g d a b => encLA 17 g d a b
  | .sar g d a b => encLA 18 g d a b
  | .bfen g d a b => encLA 19 g d a b
  | .bfes g d a b => encLA 20 g d a b
  | .bfi g d a b => encLA 21 g d a b
  | .prmt g d a b => encLA 22 g d a b
  | .csel g d a b => encLA 23 g d a b
  | .mov g d a => encLU 24 0 g d a
  | .not g d a => encLU 24 1 g d a
  | .ineg g d a => encLU 24 2 g d a
  | .iabs g d a => encLU 24 3 g d a
  | .popc g d a => encLU 24 4 g d a
  | .clz g d a => encLU 24 5 g d a
  | .ctz g d a => encLU 24 6 g d a
  | .brev g d a => encLU 24 7 g d a
  | .bswap g d a => encLU 24 8 g d a
  | .sext8 g d a => encLU 24 9 g d a
  | .sext16 g d a => encLU 24 10 g d a
  | .zext8 g d a => encLU 24 11 g d a
  | .zext16 g d a => encLU 24 12 g d a
  | .fadd g d a b => encLA 25 g d a b
  | .fsub g d a b => encLA 26 g d a b
  | .fmul g d a b => encLA 27 g d a b
  | .ffma g d a b => encLA 28 g d a b
  | .fmin g d a b => encLA 29 g d a b
  | .fmax g d a b => encLA 30 g d a b
  | .fscale g d a b => encLA 31 g d a b
  | .fabs g d a => encLU 32 0 g d a
  | .fneg g d a => encLU 32 1 g d a
  | .frcp g d a => encLU 32 2 g d a
  | .frsq g d a => encLU 32 3 g d a
  | .fsqrt g d a => encLU 32 4 g d a
  | .fexp2 g d a => encLU 32 5 g d a
  | .flog2 g d a => encLU 32 6 g d a
  | .fsinr g d a => encLU 32 7 g d a
  | .fcosr g d a => encLU 32 8 g d a
  | .ftanh g d a => encLU 32 9 g d a
  | .fsigm g d a => encLU 32 10 g d a
  | .ffloor g d a => encLU 32 11 g d a
  | .fceil g d a => encLU 32 12 g d a
  | .ftrunc g d a => encLU 32 13 g d a
  | .frint g d a => encLU 32 14 g d a
  | .ffrac g d a => encLU 32 15 g d a
  | .fsat g d a => encLU 32 16 g d a
  | .fclass g d a => encLU 32 17 g d a
  | .hadd2 g d a b => encLA 33 g d a b
  | .hmul2 g d a b => encLA 34 g d a b
  | .hfma2 g d a b => encLA 35 g d a b
  | .bfma2 g d a b => encLA 36 g d a b
  | .hmin2 g d a b => encLA 37 g d a b
  | .hmax2 g d a b => encLA 38 g d a b
  | .cvtF32S32 g d a => encLU 39 0 g d a
  | .cvtF32N32 g d a => encLU 39 1 g d a
  | .cvtS32F32 g d a => encLU 39 2 g d a
  | .cvtN32F32 g d a => encLU 39 3 g d a
  | .cvtS32F32Rn g d a => encLU 39 4 g d a
  | .cvtF16F32 g d a => encLU 39 5 g d a
  | .cvtF32F16l g d a => encLU 39 6 g d a
  | .cvtF32F16h g d a => encLU 39 7 g d a
  | .cvtBf16F32 g d a => encLU 39 8 g d a
  | .cvtF32Bf16l g d a => encLU 39 9 g d a
  | .cvtF32Bf16h g d a => encLU 39 10 g d a
  | .cvtE4m3F32 g d a => encLU 39 11 g d a
  | .cvtE5m2F32 g d a => encLU 39 12 g d a
  | .cvtF32E4m3 g d a => encLU 39 13 g d a
  | .cvtF32E5m2 g d a => encLU 39 14 g d a
  | .cvtLns6F32 g d a => encLU 39 15 g d a
  | .cvtF32Lns6 g d a => encLU 39 16 g d a
  | .cvtS8F32 g d a => encLU 39 17 g d a
  | .cvtN8F32 g d a => encLU 39 18 g d a
  | .icmp g pd cc a b => encLP 40 g pd cc.code a b
  | .ncmp g pd cc a b => encLP 41 g pd cc.code a b
  | .fcmp g pd cc a b => encLP 42 g pd cc.code a b
  | .plop g pd pa pb tt => [laneW 0x2B g (pd.val * 131072 + pa.val * 8192 + pb.val * 512 + tt.toNat * 32)]
  | .ptov g d => [laneW 0x2C g (d.code * 8192)]
  | .vtop g a => laneW 0x2C g (a.code * 32 + 1) :: a.litw
  | .fld g d dep slot => encLF 0x2D g d.code dep slot []
  | .fst g a dep slot => encLF 46 g a.code dep slot a.litw
  | .fadda g a dep slot => encLF 47 g a.code dep slot a.litw
  | .ldb g t m => encLM 48 g t.code m []
  | .ldbs g t m => encLM 49 g t.code m []
  | .ldh g t m => encLM 50 g t.code m []
  | .ldhs g t m => encLM 51 g t.code m []
  | .ldw g t m => encLM 52 g t.code m []
  | .ldd g t m => encLM 53 g t.val m []
  | .ldq g t m => encLM 54 g t.val m []
  | .ldx g t m scope acq hint => encLMX 0x37 g t.code.2 m (xCtlW 0 scope.code (b1 acq) t.code.1 0 hint.code) []
  | .stb g t m => encLM 56 g t.code m t.litw
  | .sth g t m => encLM 57 g t.code m t.litw
  | .stw g t m => encLM 58 g t.code m t.litw
  | .std g t m => encLM 59 g t.val m []
  | .stq g t m => encLM 60 g t.val m []
  | .stx g t m scope rel hint => encLMX 0x3D g t.code.2 m (xCtlW 0 scope.code (2 * b1 rel) t.code.1 0 hint.code) t.litw
  | .atomAdd g t m oa => encAtom 0 g t.code.1 t.code.2 m oa 0 []
  | .atomMin g t m oa => encAtom 1 g t.code.1 t.code.2 m oa 0 []
  | .atomMax g t m oa => encAtom 2 g t.code.1 t.code.2 m oa 0 []
  | .atomAnd g t m oa => encAtom 3 g t.code.1 t.code.2 m oa 0 []
  | .atomOr g t m oa => encAtom 4 g t.code.1 t.code.2 m oa 0 []
  | .atomXor g t m oa => encAtom 5 g t.code.1 t.code.2 m oa 0 []
  | .atomExch g t m oa => encAtom 6 g t.code.1 t.code.2 m oa 0 []
  | .atomCas g t m oa c => encAtom 7 g t.code.1 t.code.2 m oa c.code c.litw
  | .atomIncw g t m oa => encAtom 8 g 0 t.code m oa 0 []
  | .atomFadd g t m oa => encAtom 9 g 4 t.code m oa 0 []
  | .atomHadd2 g t m oa => encAtom 10 g 5 t.code m oa 0 []
  | .nop bits => [2147483648 + bits.toNat]
  | .wadd g d a b => encGA 1 g d a b
  | .wsub g d a b => encGA 2 g d a b
  | .wmul g d a b => encGA 3 g d a b
  | .wmulhs g d a b => encGA 4 g d a b
  | .wmulhn g d a b => encGA 5 g d a b
  | .wand g d a b => encGA 6 g d a b
  | .wor g d a b => encGA 7 g d a b
  | .wxor g d a b => encGA 8 g d a b
  | .wshl g d a b => encGA 9 g d a b
  | .wshr g d a b => encGA 10 g d a b
  | .wsar g d a b => encGA 11 g d a b
  | .wmin g d a b => encGA 12 g d a b
  | .wmax g d a b => encGA 13 g d a b
  | .wnmin g d a b => encGA 14 g d a b
  | .wnmax g d a b => encGA 15 g d a b
  | .wcmp g pd cc a b => encGP 16 g pd cc.code a b
  | .wncmp g pd cc a b => encGP 17 g pd cc.code a b
  | .wsel g d a b => encGA 18 g d a b
  | .wmov g d a => encGU 19 0 g d a
  | .wnot g d a => encGU 19 1 g d a
  | .wneg g d a => encGU 19 2 g d a
  | .wabs g d a => encGU 19 3 g d a
  | .wpopc g d a => encGU 19 4 g d a
  | .wclz g d a => encGU 19 5 g d a
  | .wctz g d a => encGU 19 6 g d a
  | .wbrev g d a => encGU 19 7 g d a
  | .wbswap g d a => encGU 19 8 g d a
  | .wsext32 g d a => encGU 19 9 g d a
  | .wzext32 g d a => encGU 19 10 g d a
  | .dadd g d a b => encGA 20 g d a b
  | .dsub g d a b => encGA 21 g d a b
  | .dmul g d a b => encGA 22 g d a b
  | .dfma g d a b => encGA 23 g d a b
  | .dmin g d a b => encGA 24 g d a b
  | .dmax g d a b => encGA 25 g d a b
  | .dabs g d a => encGU 26 0 g d a
  | .dneg g d a => encGU 26 1 g d a
  | .dsqrt g d a => encGU 26 2 g d a
  | .drcp g d a => encGU 26 3 g d a
  | .dfloor g d a => encGU 26 4 g d a
  | .dceil g d a => encGU 26 5 g d a
  | .dtrunc g d a => encGU 26 6 g d a
  | .drint g d a => encGU 26 7 g d a
  | .dclass g d a => encGU 26 8 g d a
  | .dcmp g pd cc a b => encGP 27 g pd cc.code a b
  | .dcvtDS64 g d a => encGU 28 0 g d a
  | .dcvtDN64 g d a => encGU 28 1 g d a
  | .dcvtS64D g d a => encGU 28 2 g d a
  | .dcvtN64D g d a => encGU 28 3 g d a
  | .dcvtDF32l g d a => encGU 28 4 g d a
  | .dcvtF32D g d a => encGU 28 5 g d a
  | .dcvtDS32 g d a => encGU 28 6 g d a
  | .dcvtS32D g d a => encGU 28 7 g d a
  | .v2x g d a => encMvxv 0 g d a.code a.litw
  | .v2xs g d a => encMvxv 1 g d a.code a.litw
  | .vp2x g d v => encMvxv 2 g d v.val []
  | .x2v g d a => encMvxv 3 g a d.code []
  | .x2vh g d a => encMvxv 4 g a d.code []
  | .x2vp g v a => encMvxv 5 g a v.val []
  | .wld g t b imm => [groupW 30 g (t.val * 32768 + b.val * 512 + imm.toNat)]
  | .wst g t b imm => [groupW 31 g (t.val * 32768 + b.val * 512 + imm.toNat)]
  | .bra g disp => [groupW 32 g disp.toNat]
  | .brd g disp => [groupW 33 g disp.toNat]
  | .call g disp => [groupW 34 g disp.toNat]
  | .callr g a => [groupW 35 g (a.val * 512)]
  | .ret g => [groupW 36 g 0]
  | .jmp g a => [groupW 37 g (a.val * 512)]
  | .exit g => [groupW 38 g 0]
  | .yield g => [groupW 39 g 0]
  | .trap g n => [groupW 0x28 g n.toNat]
  | .tret g => [groupW 41 g 0]
  | .srd g d idx => [groupW 0x2A g (d.val * 32768 + idx.toNat)]
  | .swr g t idx => [groupW 0x2B g (t.val * 32768 + idx.toNat)]
  | .tagof g d r => [groupW 0x2C g (d.val * 32768 + r.code * 128 + 0)]
  | .fmtof g d r => [groupW 0x2C g (d.val * 32768 + r.code * 128 + 1)]
  | .waitc g loads stores copies tiles => [groupW 0x2D g (loads.toNat * 32768 + stores.toNat * 1024 + copies.toNat * 32 + tiles.toNat)]
  | .fence g scope kinds => [groupW 0x2E g (scope.code * 262144 + kinds.toNat * 16384)]
  | .ftok g d scope kinds => [groupW 0x2F g (d.val * 32768 + scope.code * 4096 + kinds.toNat * 64)]
  | .fwait g a => [groupW 0x30 g (a.val * 512)]
  | .bar g cluster id cnt => [groupW 0x31 g ((1 + 2 * b1 cluster) * 262144 + id.val * 16384 + encC63 cnt * 256)]
  | .ksetCount g k cluster a => [groupW 0x32 g (k.val * 262144 + b1 cluster * 131072 + a.val * 512)]
  | .ksetMask g k cluster a => [groupW 0x32 g (k.val * 262144 + b1 cluster * 131072 + 65536 + a.val * 512)]
  | .ksign g k cluster a => [groupW 0x33 g (k.val * 262144 + b1 cluster * 131072 + a.val * 512)]
  | .kxchTid g k cluster d a i => groupW 0x34 g 0 :: kxchCtl 0 cluster k i.code a.code d.code :: (a.litw ++ i.litw)
  | .kxchPos g k cluster d a i => groupW 0x34 g 0 :: kxchCtl 1 cluster k i.code a.code d.code :: (a.litw ++ i.litw)
  | .kredAddN32 g k cluster d a => encKred 0 g k cluster d a
  | .kredAddF32 g k cluster d a => encKred 1 g k cluster d a
  | .kredMinS32 g k cluster d a => encKred 2 g k cluster d a
  | .kredMaxS32 g k cluster d a => encKred 3 g k cluster d a
  | .kredMinF32 g k cluster d a => encKred 4 g k cluster d a
  | .kredMaxF32 g k cluster d a => encKred 5 g k cluster d a
  | .kredAnd g k cluster d a => encKred 6 g k cluster d a
  | .kredOr g k cluster d a => encKred 7 g k cluster d a
  | .kredXor g k cluster d a => encKred 8 g k cluster d a
  | .kredNz g k cluster d a => encKred 9 g k cluster d a
  | .mma g xa xb xc c => encGC 0x36 g xa.val xb.val xc.val c.enc
  | .mdrain g xa xb xc c => encGC 0x37 g xa.val xb.val xc.val c.enc
  | .mzero g slot => [groupW 0x38 g (slot.val * 8)]
  | .mldsc g d a => [groupW 0x38 g (d.val * 32768 + a.val * 512 + 64)]
  | .mstat g d slot => [groupW 0x38 g (d.val * 32768 + 128 + slot.val * 8)]
  | .tbinit g a c => [groupW 0x39 g (a.val * 512 + encC63 c)]
  | .tbarrive g d a c => [groupW 0x39 g (d.val * 32768 + a.val * 512 + 64 + encC63 c)]
  | .tbexpect g a c => [groupW 0x39 g (a.val * 512 + 128 + encC63 c)]
  | .tbtest g d a c => [groupW 0x39 g (d.val * 32768 + a.val * 512 + 192 + encC63 c)]
  | .tbwait g a p => [groupW 0x3A g (a.val * 512 + p.val * 8)]
  | .wlpush g wl v dep => encGC 0x3B g 0 0 0 (wlCtl 0 dep.val v.val 0 wl)
  | .wlpop g xa ps wl v => encGC 0x3B g xa.val 0 0 (wlCtl ps.val 0 v.val 1 wl)
  | .wltry g xa ps wl v => encGC 0x3B g xa.val 0 0 (wlCtl ps.val 0 v.val 2 wl)
  | .wldone g wl => encGC 0x3B g 0 0 0 (wlCtl 0 0 0 3 wl)
  | .wlfloor g xa wl => encGC 0x3B g xa.val 0 0 (wlCtl 0 0 0 4 wl)
  | .wlstat g xa wl => encGC 0x3B g xa.val 0 0 (wlCtl 0 0 0 5 wl)
  | .fenter g dep a => encFrame 0 g 0 a.val dep.val 0
  | .fleave g dep => encFrame 1 g 0 0 dep.val 0
  | .fopen g cluster dep a k => encFrame 2 g (b1 cluster) a.val dep.val k.val
  | .flink g dep a => encFrame 3 g 0 a.val dep.val 0
  | .fhnd g d dep => encFrame 4 g d.val 0 dep.val 0
  | .fdrop g a => encFrame 5 g 0 a.val 0 0
  | .fsync g dep => encFrame 6 g 0 0 dep.val 0
  | .funlink g dep => encFrame 7 g 0 0 dep.val 0
  | .rcall g region argv resv argc resc => encRcall 0 g region argv resv argc resc
  | .rcallExact g region argv resv argc resc => encRcall 1 g region argv resv argc resc
  | .rcallSonly g region argv resv argc resc => encRcall 2 g region argv resv argc resc
  | .rret g => encRsur 1 g 0 0
  | .rload g xb => encRsur 2 g 0 xb.val
  | .rctlEvict g xa xb => encRsur 3 g xa.val xb.val
  | .rctlPin g xa xb => encRsur 3 g xa.val xb.val
  | .rctlUnpin g xa xb => encRsur 3 g xa.val xb.val
  | .rctlFlush g xa xb => encRsur 3 g xa.val xb.val
  | .rctr g xa xb => encRsur 4 g xa.val xb.val
  | .rinfo g xa xb => encRsur 5 g xa.val xb.val
  | .collAllreduce g xa xb xc send recv ty op => encColl 0 g xa xb xc send recv ty op.code
  | .collReducescatter g xa xb xc send recv ty op => encColl 1 g xa xb xc send recv ty op.code
  | .collAllgather g xa xb xc send recv ty => encColl 2 g xa xb xc send recv ty 0
  | .collBroadcast g xa xb xc send recv ty => encColl 3 g xa xb xc send recv ty 0
  | .collAlltoall g xa xb xc send recv ty => encColl 4 g xa xb xc send recv ty 0
  | .bkpt g => encSys 0 g 0
  | .tlbinv g a => encSys 1 g a.val
  | .l1clean g a => encSys 2 g a.val
  | .archive g a => encSys 3 g a.val
  | .qlaunch g a => encSys 4 g a.val
  | .qsignal g a => encSys 5 g a.val
  | .qwaitsig g a => encSys 6 g a.val
  | .qswitch g a => encSys 7 g a.val
  | .qphase g a => encSys 8 g a.val
  | .qdone g => encSys 9 g 0
  | .renable g a => encSys 10 g a.val
  | .wlcfg g a => encSys 11 g a.val
  | .launchDecision _ => []
  | .gangPlacement _ _ _ _ _ _ _ _ => []
  | .phaseClean _ => []
  | .workgroupEnd _ => []
  | .gangRetire _ => []
  | .pick _ => []
  | .ageCap _ => []
  | .regroupRelease _ _ => []
  | .loadReturn _ _ _ => []
  | .storePerformed _ _ => []
  | .l1Eviction _ _ _ => []
  | .fenceComplete _ => []
  | .fenceRollback _ => []
  | .tokenComplete _ _ => []
  | .pageWalk _ _ _ => []
  | .pageRequest _ => []
  | .pagerResponse _ => []
  | .kill _ _ => []
  | .copyTakeEntry _ => []
  | .copy _ _ => []
  | .gather _ _ => []
  | .fill _ _ => []
  | .convert _ _ => []
  | .convertout _ _ => []
  | .mmaEntry _ => []
  | .mdrainEntry _ => []
  | .mctlEntry _ => []
  | .matrixEntryComplete _ => []
  | .mmaResume _ => []
  | .regionLoad _ _ _ => []
  | .surrogateEvaluation _ _ => []
  | .restorationStart _ _ => []
  | .violationReport _ => []
  | .disableApply _ _ _ => []
  | .enableApply _ _ _ => []
  | .counterBlockWrite _ _ => []
  | .floorRefresh _ _ => []
  | .groupFloorRefresh _ _ _ _ => []
  | .floorDropAck _ => []
  | .wlpushPlace _ => []
  | .wlpopServe _ _ => []
  | .frontBufferSend _ _ => []
  | .chunkSpill _ _ _ _ => []
  | .chunkReadBack _ _ _ _ => []
  | .chunkMigrate _ _ _ _ _ => []
  | .spillRefill _ _ => []
  | .contextCreate _ => []
  | .contextDestroy _ => []
  | .contextSelect _ => []
  | .queueEnable _ => []
  | .queueDisable _ => []
  | .queueQuiesce _ => []
  | .queueNotify _ _ _ => []
  | .packetStart _ _ => []
  | .qwaitsigResume _ => []
  | .tickstopWrite _ => []
  | .tickStop => []
  | .registerWrite _ _ => []
  | .preemptRequest _ _ => []
  | .drainExpire _ => []
  | .gangSave _ => []
  | .gangRestore _ _ _ _ _ => []
  | .switchTick => []
  | .switchComplete => []
  | .haltRequest _ => []
  | .threadHalt _ => []
  | .resumeRequest _ => []
  | .sample _ => []
  | .checkpoint _ => []
  | .gatePass _ => []
  | .intervalClose _ => []
  | .collChunk _ _ _ _ => []
  | .collectiveComplete _ _ _ _ => []
  | .ingressWrite _ _ _ => []
  | .ingressRead _ _ _ => []
  | .functionLevelReset _ => []
  | .coreFailure _ => []
  | .memoryRetire _ _ => []
  | .moduleReset => []
  | .attestationQuote _ _ => []
  | .linkFailure _ => []
  | .flitRetry _ => []
  | .podLeave => []
  | .linkUp _ => []
  | .ngurilIngress _ _ _ => []
  | .vmodeWrite _ => []
  | .instructionFetch _ => []
  | .resultWriteback _ _ => []

/-- The instruction the decoder reads from the bits the opcode table gives a row; bits above them are zero. -/
noncomputable def decodeTableWord (nbits w : Nat) : Option Instr :=
  let v := w % 2 ^ nbits
  (decode (fld v 0 32) (fld v 32 32) (fld v 64 32)).toOption

end Sys2Proof
end

