-- ==== Sys2Proof/Machine/Flags.lean ====
section
/-! DEFINITION. The FSR flags (R17, R67): sets of flags, in the bit places of FSR. -/

namespace Sys2Proof.Machine

/-- A set of flags in FSR's places: IX UF OF DZ IV from bit 4 down (R17). -/
abbrev Fl := BitVec 5

/-- No flag. -/
def fl0 : Fl := 0
/-- Invalid operation. -/
def flIV : Fl := 1
/-- Division by zero. -/
def flDZ : Fl := 2
/-- Overflow. -/
def flOF : Fl := 4
/-- Underflow. -/
def flUF : Fl := 8
/-- Inexact. -/
def flIX : Fl := 16

/-- Flags are sticky: an instruction adds those it sets (R17). -/
def fsrAdd (fsr : BitVec 5) (f : Fl) : BitVec 5 := fsr ||| f

/-- A write to FSR clears the flags whose bit is 1 (R15, R17). -/
def fsrClear (fsr : BitVec 5) (w : W64) : BitVec 5 := fsr &&& ~~~(w.setWidth 5)

/-- The flag set of a condition. -/
def flIf (c : Bool) (f : Fl) : Fl := if c then f else 0

end Sys2Proof.Machine
end

