-- ==== Sys2Proof/Machine/Numbers.lean ====
section
/-! DEFINITION. Number formats, Round, conversions and the functions of R64-R77. Exact values are sign, integer
mantissa and power of two; an irrational or repeating value carries a sticky last bit, which decides every rounding
and every exactness test as the exact value would. -/

namespace Sys2Proof.Machine

/-- An exact value: NaN (`sig` when its quiet bit is clear), an infinity, or (−1)^neg · m · 2^e. -/
inductive Val
  | nan (sig : Bool)
  | inf (neg : Bool)
  | fin (neg : Bool) (m : Nat) (e : Int)
deriving DecidableEq, Repr

/-- A floating format of R64: exponent and fraction widths, bias; `ieee` is false for E4M3. -/
structure Fmt where
  ew : Nat
  fw : Nat
  bias : Nat
  ieee : Bool
deriving DecidableEq, Repr

/-- binary64 (R64). -/
def Fmt.f64 : Fmt := ⟨11, 52, 1023, true⟩
/-- binary32 (R64). -/
def Fmt.f32 : Fmt := ⟨8, 23, 127, true⟩
/-- binary16 (R64). -/
def Fmt.f16 : Fmt := ⟨5, 10, 15, true⟩
/-- bfloat16 (R64). -/
def Fmt.bf16 : Fmt := ⟨8, 7, 127, true⟩
/-- E5M2 (R64). -/
def Fmt.e5m2 : Fmt := ⟨5, 2, 15, true⟩
/-- E4M3 (R64). -/
def Fmt.e4m3 : Fmt := ⟨4, 3, 7, false⟩
/-- XF40 (R64, R73). -/
def Fmt.xf40 : Fmt := ⟨8, 31, 127, true⟩

namespace Fmt
/-- P (R64). -/
def p (f : Fmt) : Nat := f.fw + 1
/-- Emin (R64). -/
def emin (f : Fmt) : Int := 1 - (f.bias : Int)
/-- The exponent of the largest finite value. -/
def emax (f : Fmt) : Int := if f.ieee then (f.bias : Int) else 8
/-- The largest finite value's significand at 2^(emax − P + 1): E4M3 stops at 1.75 (R64). -/
def maxSig (f : Fmt) : Nat := if f.ieee then 2 ^ f.p - 1 else 14
/-- The exponent field of all ones. -/
def expOnes (f : Fmt) : Nat := 2 ^ f.ew - 1
/-- The sign bit's weight. -/
def signW (f : Fmt) : Nat := 2 ^ (f.ew + f.fw)
/-- The sign. -/
def sgn (f : Fmt) (neg : Bool) : Nat := if neg then f.signW else 0
/-- The canonical NaN (R64, R65). -/
def nan (f : Fmt) : Nat := if f.ieee then f.expOnes * 2 ^ f.fw + 2 ^ (f.fw - 1) else 0x7F
/-- Infinity. -/
def inf (f : Fmt) (neg : Bool) : Nat := f.sgn neg + f.expOnes * 2 ^ f.fw
/-- The largest finite encoding. -/
def max (f : Fmt) (neg : Bool) : Nat :=
  f.sgn neg + (if f.ieee then f.expOnes * 2 ^ f.fw - 1 else 0x7E)
end Fmt

/-- The value an encoding stands for (R64, R65). -/
def Fmt.dec (f : Fmt) (w : Nat) : Val :=
  let fr := w % 2 ^ f.fw
  let ex := w / 2 ^ f.fw % 2 ^ f.ew
  let neg := w / f.signW % 2 == 1
  if ex = 0 then .fin neg fr (f.emin - f.fw)
  else if f.ieee && ex == f.expOnes then
    (if fr = 0 then .inf neg else .nan (fr < 2 ^ (f.fw - 1)))
  else if !f.ieee && ex == f.expOnes && fr == 7 then .nan false
  else .fin neg (2 ^ f.fw + fr) ((ex : Int) - f.bias - f.fw)

/-- RoundHalfEven(m · 2^e / 2^q) (R66). -/
def roundAt (m : Nat) (e q : Int) : Nat :=
  if q ≤ e then m * 2 ^ (e - q).toNat
  else
    let s := (q - e).toNat
    let n := m / 2 ^ s
    let r := m % 2 ^ s
    let h := 2 ^ (s - 1)
    if h < r || (r == h && n % 2 == 1) then n + 1 else n

/-- a · 2^i < b · 2^j. -/
def ltScaled (a : Nat) (i : Int) (b : Nat) (j : Int) : Bool :=
  if i ≤ j then a < b * 2 ^ (j - i).toNat else a * 2 ^ (i - j).toNat < b

/-- Round(v, f), with the flags it sets (R66). The two early tests answer values beyond every rounding boundary. -/
def Fmt.round (f : Fmt) (v : Val) : Nat × Fl :=
  match v with
  | .nan _ => (f.nan, 0)
  | .inf s => if f.ieee then (f.inf s, 0) else (f.max s, flOF ||| flIX)
  | .fin s m e =>
    if m = 0 then (f.sgn s, 0)
    else
      let eu : Int := (Nat.log2 m : Int) + e
      let ovf : Nat × Fl := (if f.ieee then f.inf s else f.max s, flOF ||| flIX)
      if f.emax + 1 < eu then ovf
      else if eu < f.emin - f.p - 1 then (f.sgn s, flUF ||| flIX)
      else
        let qu : Int := eu - f.p + 1
        let ru := roundAt m e qu
        if ltScaled f.maxSig (f.emax - f.p + 1) ru qu then ovf
        else
          let q : Int := (if eu < f.emin then f.emin else eu) - f.p + 1
          let r := roundAt m e q
          let inexact := e < q && m % 2 ^ (q - e).toNat != 0
          let tiny := inexact && ltScaled ru qu 1 f.emin
          (f.sgn s + ((q + f.p - 1 + f.bias).toNat * 2 ^ f.fw + r - 2 ^ f.fw),
            flIf inexact flIX ||| flIf tiny flUF)

/-- IV of a signalling NaN operand (R65). -/
def Val.sigFl : Val → Fl
  | .nan true => flIV
  | .nan false | .inf _ | .fin _ _ _ => 0

/-- Is it a NaN. -/
def Val.isNan : Val → Bool
  | .nan _ => true
  | .inf _ | .fin _ _ _ => false

/-- Is it a zero. -/
def Val.isZero : Val → Bool
  | .fin _ m _ => m == 0
  | .nan _ | .inf _ => false

/-- Its sign. -/
def Val.isNeg : Val → Bool
  | .nan _ => false
  | .inf s => s
  | .fin s _ _ => s

/-- The opposite value. -/
def Val.neg : Val → Val
  | .nan q => .nan q
  | .inf s => .inf (!s)
  | .fin s m e => .fin (!s) m e

/-- The absolute value. -/
def Val.abs : Val → Val
  | .nan q => .nan q
  | .inf _ => .inf false
  | .fin _ m e => .fin false m e

/-- An integer as a value. -/
def Val.ofInt (i : Int) : Val := .fin (i < 0) i.natAbs 0

/-- Its integer mantissa at exponent `q`, for q at or below its own exponent. -/
def signedAt (s : Bool) (m : Nat) (e q : Int) : Int :=
  let k : Int := (m * 2 ^ (e - q).toNat : Nat)
  if s then -k else k

/-- The exact sum, and IV of R67; an exact zero sum of opposite signs is +0 (R66). -/
def Val.add (a b : Val) : Val × Fl :=
  match a, b with
  | .nan _, _ => (.nan false, a.sigFl ||| b.sigFl)
  | _, .nan _ => (.nan false, a.sigFl ||| b.sigFl)
  | .inf s, .inf t => if s == t then (.inf s, 0) else (.nan false, flIV)
  | .inf s, .fin _ _ _ => (.inf s, 0)
  | .fin _ _ _, .inf t => (.inf t, 0)
  | .fin s m e, .fin t n k =>
    let q := if e < k then e else k
    let i := signedAt s m e q + signedAt t n k q
    (.fin (if i = 0 then s && t else i < 0) i.natAbs q, 0)

/-- The exact product, and IV of R67. -/
def Val.mul (a b : Val) : Val × Fl :=
  match a, b with
  | .nan _, _ => (.nan false, a.sigFl ||| b.sigFl)
  | _, .nan _ => (.nan false, a.sigFl ||| b.sigFl)
  | .inf s, .inf t => (.inf (s ^^ t), 0)
  | .inf s, .fin t n _ => if n = 0 then (.nan false, flIV) else (.inf (s ^^ t), 0)
  | .fin s m _, .inf t => if m = 0 then (.nan false, flIV) else (.inf (s ^^ t), 0)
  | .fin s m e, .fin t n k => (.fin (s ^^ t) (m * n) (e + k), 0)

/-- a · b + c exactly; 0 · ∞ sets IV even when c is NaN (R67). -/
def Val.fma (a b c : Val) : Val × Fl :=
  let p := a.mul b
  let r := p.1.add c
  (r.1, p.2 ||| r.2)

/-- Round an exact result and join the flags. -/
def Fmt.out (f : Fmt) (r : Val × Fl) : Nat × Fl :=
  let o := f.round r.1
  (o.1, r.2 ||| o.2)

/-! ## Comparison -/

/-- a < b among non-NaN values, −0 = +0. -/
def Val.lt (a b : Val) : Bool :=
  match a, b with
  | .nan _, _ | _, .nan _ => false
  | .inf s, .inf t => s && !t
  | .inf s, .fin _ _ _ => s
  | .fin _ _ _, .inf t => !t
  | .fin s m e, .fin t n k =>
    let q := if e < k then e else k
    signedAt s m e q < signedAt t n k q

/-- a = b among non-NaN values, −0 = +0. -/
def Val.eqv (a b : Val) : Bool := !a.isNan && !b.isNan && !a.lt b && !b.lt a

/-- a below b in the order of R89, which puts −0 below +0. -/
def Val.below (a b : Val) : Bool := a.lt b || (a.isZero && b.isZero && a.isNeg && !b.isNeg)

/-- FMIN and FMAX on encodings (R89). -/
def Fmt.minmax (f : Fmt) (isMax : Bool) (x y : Nat) : Nat × Fl :=
  let a := f.dec x
  let b := f.dec y
  let fl := a.sigFl ||| b.sigFl
  if a.isNan && b.isNan then (f.nan, fl)
  else if a.isNan then (y, fl)
  else if b.isNan then (x, fl)
  else if isMax then (if a.below b then y else x, fl)
  else (if b.below a then y else x, fl)

/-! ## Integers -/

/-- Rounding of R68: toward zero or to nearest-even. -/
inductive IMode
  | trunc | nearest
deriving DecidableEq, Repr

/-- The integer nearest in the mode, and whether it differs from the value (R68). -/
def toIntMode (md : IMode) (s : Bool) (m : Nat) (e : Int) : Int × Bool :=
  let n := if 0 ≤ e then m * 2 ^ e.toNat else
    match md with
    | .trunc => m / 2 ^ (-e).toNat
    | .nearest => roundAt m e 0
  (if s then -(n : Int) else n, e < 0 && m % 2 ^ (-e).toNat != 0)

/-- Conversion to an integer format from `lo` to `hi` (R68). A value with more than 80 integer bits is out of range. -/
def Val.toInt (md : IMode) (lo hi : Int) (v : Val) : Int × Fl :=
  match v with
  | .nan _ => (0, flIV)
  | .inf s => (if s then lo else hi, flIV)
  | .fin s m e =>
    if m ≠ 0 ∧ 80 < (Nat.log2 m : Int) + e then (if s then lo else hi, flIV)
    else if m ≠ 0 ∧ (Nat.log2 m : Int) + e < -2 then (0, flIX)
    else
      let r := toIntMode md s m e
      if r.1 < lo then (lo, flIV) else if hi < r.1 then (hi, flIV) else (r.1, flIf r.2 flIX)

/-- How an integral value is chosen (R91). -/
inductive Integral
  | floor | ceil | trunc | rint
deriving DecidableEq, Repr

/-- The integral value of R91, keeping the sign of a zero result. -/
def Val.integral (k : Integral) (v : Val) : Val :=
  match v with
  | .nan _ => .nan false
  | .inf s => .inf s
  | .fin s m e =>
    if 0 ≤ e then .fin s m e
    else
      let d := 2 ^ (-e).toNat
      let n := m / d
      let frac := m % d != 0
      match k with
      | .trunc => .fin s n 0
      | .rint => .fin s (roundAt m e 0) 0
      | .floor => .fin s (if s && frac then n + 1 else n) 0
      | .ceil => .fin s (if !s && frac then n + 1 else n) 0

/-! ## Roots and reciprocals -/

/-- Bit by bit, the largest r with r² ≤ x. -/
def isqrtGo (x : Nat) : Nat → Nat → Nat
  | 0, r => r
  | i + 1, r =>
    let t := r + 2 ^ i
    isqrtGo x i (if t * t ≤ x then t else r)

/-- ⌊√x⌋. -/
def isqrt (x : Nat) : Nat := isqrtGo x (Nat.log2 x / 2 + 1) 0

/-- A mantissa with a sticky last bit. -/
def sticky (m : Nat) (inexact : Bool) : Nat := 2 * m + (if inexact then 1 else 0)

/-- √(m · 2^e), m ≠ 0: mantissa of at least 120 bits. -/
def sqrtVal (m : Nat) (e : Int) : Val :=
  let k : Nat := 242 - Nat.log2 m
  let k' : Nat := if (e - k) % 2 = 0 then k else k + 1
  let x := m * 2 ^ k'
  let r := isqrt x
  .fin false (sticky r (r * r != x)) ((e - k') / 2 - 1)

/-- The square root (R90, R110). -/
def Val.sqrt (v : Val) : Val × Fl :=
  match v with
  | .nan _ => (.nan false, v.sigFl)
  | .inf true => (.nan false, flIV)
  | .inf false => (.inf false, 0)
  | .fin s m e => if m = 0 then (.fin s 0 0, 0) else if s then (.nan false, flIV) else (sqrtVal m e, 0)

/-- 1 / (m · 2^e), m ≠ 0: mantissa of at least 120 bits. -/
def recipVal (s : Bool) (m : Nat) (e : Int) : Val :=
  let k : Nat := Nat.log2 m + 122
  .fin s (sticky (2 ^ k / m) (2 ^ k % m != 0)) (-e - k - 1)

/-- 1/x with DZ at a zero (R77, R110). -/
def Val.recip (v : Val) : Val × Fl :=
  match v with
  | .nan _ => (.nan false, v.sigFl)
  | .inf s => (.fin s 0 0, 0)
  | .fin s m e => if m = 0 then (.inf s, flDZ) else (recipVal s m e, 0)

/-- 1/√x (R77). -/
def Val.rsqrt (v : Val) : Val × Fl :=
  match v with
  | .nan _ => (.nan false, v.sigFl)
  | .inf true => (.nan false, flIV)
  | .inf false => (.fin false 0 0, 0)
  | .fin s m e =>
    if m = 0 then (.inf s, flDZ)
    else if s then (.nan false, flIV)
    else
      let e' := if e % 2 = 0 then e else e - 1
      let m' := if e % 2 = 0 then m else 2 * m
      let k : Nat := 2 * Nat.log2 m' + 124
      let k' := if k % 2 = 0 then k else k + 1
      let r := isqrt (2 ^ (2 * k') / m')
      (.fin false (sticky r (r * r * m' != 2 ^ (2 * k'))) (-(e' / 2) - k' - 1), 0)

/-! ## Functions of R77, in fixed point with `fp` fraction bits -/

/-- Fraction bits of the fixed-point work. -/
def fp : Nat := 400

/-- Σ of x^(2j+1)/(2j+1), `t` being x^(2j+1), ovf n terms. -/
def atanhGo (x2 : Nat) : Nat → Nat → Nat → Nat
  | 0, _, _ => 0
  | n + 1, j, t => t / (2 * j + 1) + atanhGo x2 n (j + 1) (t * x2 / 2 ^ fp)

/-- atanh of x / 2^fp for x at most a third of 2^fp. -/
def atanhFp (x : Nat) : Nat := atanhGo (x * x / 2 ^ fp) 130 0 x

/-- ln 2 = 2 · atanh(1/3). -/
def ln2Fp : Nat := 2 * atanhFp (2 ^ fp / 3)

/-- arctan(1/d) by its alternating series, n terms. -/
def atanInvGo (d2 : Nat) : Nat → Nat → Nat → Int
  | 0, _, _ => 0
  | n + 1, j, t => ((t / (2 * j + 1) : Nat) : Int) - atanInvGo d2 n (j + 1) (t / d2)

/-- π = 16 arctan(1/5) − 4 arctan(1/239). -/
def piFp : Nat := (16 * atanInvGo 25 90 0 (2 ^ fp / 5) - 4 * atanInvGo 57121 30 0 (2 ^ fp / 239)).toNat

/-- Σ x^j/j!, `t` being x^j/j!, ovf n terms. -/
def expGo (x : Nat) : Nat → Nat → Nat → Nat
  | 0, _, _ => 0
  | n + 1, j, t => t + expGo x n (j + 1) (t * x / 2 ^ fp / (j + 1))

/-- e^(x/2^fp) for x below 2^fp. -/
def expFp (x : Nat) : Nat := expGo x 90 0 (2 ^ fp)

/-- The alternating series of sine (j = 1, t = x) and cosine (j = 0, t = 1). -/
def trigGo (x2 : Nat) : Nat → Nat → Nat → Int
  | 0, _, _ => 0
  | n + 1, j, t => (t : Int) - trigGo x2 n (j + 2) (t * x2 / 2 ^ fp / ((j + 1) * (j + 2)))

/-- sin of x/2^fp, 0 ≤ x ≤ π/2. -/
def sinFp (x : Nat) : Nat := (trigGo (x * x / 2 ^ fp) 50 1 x).toNat

/-- cos of x/2^fp, 0 ≤ x ≤ π/2. -/
def cosFp (x : Nat) : Nat := (trigGo (x * x / 2 ^ fp) 50 0 (2 ^ fp)).toNat

/-- A fixed-point result that is not exact. -/
def fpVal (s : Bool) (x : Nat) : Val := .fin s (2 * x + 1) (-(fp : Int) - 1)

/-- m · 2^e in fixed point, for e at or above −fp and a small value. -/
def toFp (m : Nat) (e : Int) : Nat := m * 2 ^ (e + fp).toNat

/-- 2^x (R77): beyond ±300 the result is past every boundary of binary32. -/
def Val.exp2 (v : Val) : Val × Fl :=
  match v with
  | .nan _ => (.nan false, v.sigFl)
  | .inf true => (.fin false 0 0, 0)
  | .inf false => (.inf false, 0)
  | .fin s m e =>
    if m = 0 then (.fin false 1 0, 0)
    else if 9 ≤ (Nat.log2 m : Int) + e then (.fin false 1 (if s then -1000 else 1000), 0)
    else
      let d : Nat := if 0 ≤ e then 1 else 2 ^ (-e).toNat
      let i : Int := (if 0 ≤ e then m * 2 ^ e.toNat else m : Nat)
      let i := if s then -i else i
      let n := i / d
      let r := (i % d).toNat
      if r = 0 then (.fin false 1 n, 0)
      else
        let x := r * 2 ^ fp / d
        (.fin false (2 * expFp (x * ln2Fp / 2 ^ fp) + 1) (n - fp - 1), 0)

/-- log2 x (R77). -/
def Val.log2 (v : Val) : Val × Fl :=
  match v with
  | .nan _ => (.nan false, v.sigFl)
  | .inf true => (.nan false, flIV)
  | .inf false => (.inf false, 0)
  | .fin s m e =>
    if m = 0 then (.inf true, flDZ)
    else if s then (.nan false, flIV)
    else
      let l := Nat.log2 m
      let n : Int := (l : Int) + e
      if m = 2 ^ l then (Val.ofInt n, 0)
      else
        let y := 2 * atanhFp ((m - 2 ^ l) * 2 ^ fp / (m + 2 ^ l)) * 2 ^ fp / ln2Fp
        let t : Int := n * (2 ^ fp : Nat) + y
        if t < 0 then (.fin true (2 * t.natAbs - 1) (-(fp : Int) - 1), 0) else (fpVal false t.toNat, 0)

/-- sin(2πx) for `cosine` false, cos(2πx) for true (R77). -/
def Val.turn (cosine : Bool) (v : Val) : Val × Fl :=
  match v with
  | .nan _ => (.nan false, v.sigFl)
  | .inf _ => (.nan false, flIV)
  | .fin s m e =>
    let d : Nat := if 0 ≤ e then 1 else 2 ^ (-e).toNat
    let r := if 0 ≤ e then 0 else m % d
    -- quarter turns of |x|, one more for the cosine
    let q := (4 * r / d + (if cosine then 1 else 0)) % 4
    let f := 4 * r % d
    let neg := (!cosine && s) ^^ (2 ≤ q)
    if f = 0 then (if q % 2 = 0 then .fin false 0 0 else .fin neg 1 0, 0)
    else
      let a := f * piFp / (2 * d)
      (fpVal neg (if q % 2 = 0 then sinFp a else cosFp a), 0)

/-- e^(−y/2^fp) in fixed point. -/
def expNegFp (y : Nat) : Nat :=
  let n := y / ln2Fp
  expFp (ln2Fp - y % ln2Fp) / 2 ^ (n + 1)

/-- tanh x (R77): below 2^-13 it lies just under x, from 64 just under 1. -/
def Val.tanh (v : Val) : Val × Fl :=
  match v with
  | .nan _ => (.nan false, v.sigFl)
  | .inf s => (.fin s 1 0, 0)
  | .fin s m e =>
    if m = 0 then (.fin s 0 0, 0)
    else
      let l : Int := (Nat.log2 m : Int) + e
      if l < -13 then (.fin s (m * 2 ^ 64 - 1) (e - 64), 0)
      else if 6 ≤ l then (.fin s (2 ^ 64 - 1) (-64), 0)
      else
        let t := expNegFp (2 * toFp m e)
        (fpVal s ((2 ^ fp - t) * 2 ^ fp / (2 ^ fp + t)), 0)

/-- 1/(1 + e^−x) (R77): from 256 just under 1, to −256 just above 0. -/
def Val.sigm (v : Val) : Val × Fl :=
  match v with
  | .nan _ => (.nan false, v.sigFl)
  | .inf true => (.fin false 0 0, 0)
  | .inf false => (.fin false 1 0, 0)
  | .fin s m e =>
    if m = 0 then (.fin false 1 (-1), 0)
    else if 8 ≤ (Nat.log2 m : Int) + e then
      (if s then .fin false 1 (-1000) else .fin false (2 ^ 64 - 1) (-64), 0)
    else
      let t := expNegFp (toFp m e)
      (fpVal false ((if s then t else 2 ^ fp) * 2 ^ fp / (2 ^ fp + t)), 0)

/-! ## LNS6 (R69-R71) -/

/-- F of R69. -/
def lnsF (r : Nat) : Nat := if r = 0 then 65536 else if r = 1 then 77936 else if r = 2 then 92682 else 110218

/-- (−1)^s · 2^⌊L/4⌋ · F[L mod 4] / 65,536. -/
def lnsVal (s : Bool) (l : Int) : Val := .fin s (lnsF (l % 4).toNat) (l / 4 - 16)

/-- The value of an LNS6 byte (R69). -/
def lnsDec (b : Nat) : Val :=
  if b % 32 = 0 then .fin false 0 0 else lnsVal (b / 32 % 2 == 1) ((b % 32 : Nat) - 16 : Int)

/-- RoundLNS6 (R70): n = ⌊log2(v^8 · 2^33) / 2⌋ is the integer nearest 4·log2|v| + 16. -/
def lnsRound (v : Val) : Nat × Fl :=
  match v with
  | .nan _ => (0, flIV)
  | .inf s => ((if s then 32 else 0) + 31, flOF ||| flIX)
  | .fin s m e =>
    if m = 0 then (0, 0)
    else
      let n : Int := ((Nat.log2 (m ^ 8) : Int) + 8 * e + 33) / 2
      if n ≤ 0 then (0, flUF ||| flIX)
      else if 32 ≤ n then ((if s then 32 else 0) + 31, flOF ||| flIX)
      else ((if s then 32 else 0) + n.toNat, flIf (!(lnsVal s (n - 16)).eqv v) flIX)

/-- The product of two LNS6 bytes (R71). That of a code 0 and a negative operand is +0: the spec gives zero no sign there (DESIGN CHOICE, log
entry 104). -/
def lnsMul (a b : Nat) : Val :=
  if a % 32 = 0 ∨ b % 32 = 0 then .fin false 0 0
  else lnsVal ((a / 32 + b / 32) % 2 == 1) ((a % 32 + b % 32 : Nat) - 32 : Int)

/-! ## Classes and fractions -/

/-- The class mask (R92). -/
def Fmt.cls (f : Fmt) (w : Nat) : Nat :=
  match f.dec w with
  | .inf s => if s then 1 else 128
  | .nan sig => if sig then 256 else 512
  | .fin s m _ =>
    if m = 0 then (if s then 8 else 16)
    else if m < 2 ^ f.fw then (if s then 4 else 32)
    else (if s then 2 else 64)

/-- FFRAC (R91): a − ⌊a⌋ rounded toward zero. -/
def Fmt.frac (f : Fmt) (w : Nat) : Nat × Fl :=
  let a := f.dec w
  match a with
  | .nan _ => (f.nan, a.sigFl)
  | .inf _ => (f.nan, flIV)
  | .fin s m e =>
    if 0 ≤ e ∨ m = 0 then (0, 0)
    else
      let d := 2 ^ (-e).toNat
      let r := m % d
      let x := if s && r != 0 then d - r else r
      let drop := Nat.log2 x + 1 - f.p
      (f.round (.fin false (x / 2 ^ drop) (e + drop)) |>.1, flIf (x % 2 ^ drop != 0) flIX)

/-- FSAT (R91). -/
def Fmt.sat (f : Fmt) (w : Nat) : Nat × Fl :=
  let a := f.dec w
  let one : Val := .fin false 1 0
  if a.isNan then (0, a.sigFl)
  else if one.lt a then ((f.round one).1, 0)
  else if (Val.fin false 0 0).lt a then (w, 0)
  else (0, 0)

end Sys2Proof.Machine
end

