-- ==== Sys2Proof/Config.lean ====
section
/-! DEFINITION. What one SK7-384 fixes (R2), and the values the spec leaves free: opaque constants without a body. -/

namespace Sys2Proof.Config

/-- Logical cores of the device (R2, R15). -/
def cores : Nat := 384

/-- Cores of one compute die (R15). -/
def coresPerDie : Nat := 96

/-- Scratchpad bytes per core, 2 MiB (R2, R18). -/
def scratchBytes : Nat := 2097152

/-- Register pool bytes per core, 1.5 MiB (R2, R168). -/
def poolBytes : Nat := 1572864

/-- Resident workgroups per core (R2, R153). -/
def wgPlaces : Nat := 32

/-- Slot rows of a core (R156). -/
def slotRows : Nat := 64

/-- Accumulator slots of a core (R2, R153). -/
def accSlots : Nat := 8

/-- Restoration queue entries of a core (R2, R266). -/
def restEntries : Nat := 1024

/-- Replica store bytes of a core (R2, R262). -/
def replicaBytes : Nat := 524288

/-- Bytes that pinned images may take (R271). -/
def pinBytes : Nat := 458752

/-- Lines of 128 bytes that an L1 of 256 KiB holds (R2, R189). -/
def l1Lines : Nat := 2048

/-- Words that an instruction cache of 64 KiB holds (R2, R189). -/
def icacheWords : Nat := 16384

/-- Outstanding requests of a core's memory path (R2, R160). -/
def coreRequests : Nat := 1536

/-- HBM bytes of the device, 1 TiB (R2). -/
def hbmBytes : Nat := 1099511627776

/-- Ready contexts at once (R317). -/
def runningContexts : Nat := 8

/-- The age at which a thread's pipe is reserved (R161). -/
def ageCap : Nat := 4096

/-- Contents the spec leaves undefined: the scale memory of a placed workgroup (R248). Log entry 9. -/
opaque freeByte : Nat → Byte

/-- What a device outside the module answers to a read of the system window (R364). Log entry 10. -/
opaque outsideByte : Nat → Byte

/-- The SHAKE256 digest (R380, R381): named by the spec, defined outside it. Log entry 11. -/
opaque shake256 : List Byte → List Byte

/-- The Falcon-1024 signature under the device identity key (R381). Log entry 11. -/
opaque falconSign : List Byte → List Byte

/-- Bytes of a collective's receive buffer that ended unfinished (R368). Log entry 12. -/
opaque collByte : Nat → Byte

/-- Choices that the spec calls not architectural: which of several records a pop returns (R289). Log entry 7. -/
opaque freeChoice : Nat → Nat

/-- Whether a sector of a line fails its check, or has an uncorrectable error, on its way out of an L1, and which (R199, R200). Log entry 105. -/
opaque hopError : Nat → Option (Fin 4)

end Sys2Proof.Config
end

