-- ==== Sys2Proof/Machine/State.lean ====
section
/-! DEFINITION. The state of the SK7-384: plain data, everything the spec gives the machine, and the state after
module reset. INVENTORY.md lists each field with the rule that names it. -/

namespace Sys2Proof.Machine

/-! ## One thread -/

/-- The registers that a fence rollback restores (R5, R209). `p` bit n is p*n*; `fsr` is IX UF OF DZ IV (R17). -/
structure Regs where
  v : Vector W32 128
  x : Vector W64 64
  o : Vector W32 8
  lr : W32
  p : BitVec 12
  d : Vector W64 8
  pc : W64
  sp : W64
  fsr : BitVec 5
  fgc : BitVec 13
deriving DecidableEq, Repr

/-- Every register at the start value of R5 that is 0; FGC starts at 1 (R141). -/
def Regs.start : Regs :=
  { v := Vector.replicate 128 0, x := Vector.replicate 64 0, o := Vector.replicate 8 0, lr := 0, p := 0,
    d := Vector.replicate 8 0, pc := 0, sp := 0, fsr := 0, fgc := 1 }

/-- The operation of an atomic access (R136, R143). `fadda` returns nothing. -/
inductive AtomOp
  | add | min | max | and | or | xor | exch | cas | incw | fadd | hadd2 | fadda
deriving DecidableEq, Repr

/-- The type of an atomic access (R53). -/
inductive AtomTy
  | n32 | s32 | n64 | s64 | f32 | f16x2
deriving DecidableEq, Repr

/-- Where an access delivers what it read (R127, R131, R133, R138). -/
inductive LdDst
  | none
  | z32 (d : Dst8)
  | s32 (d : Dst8)
  | pair (v : VReg)
  | quad (v : VReg)
  | x (n : XReg)
deriving DecidableEq, Repr

/-- What an outstanding access does when it is performed. -/
inductive MopKind
  | load
  | store
  | atom (op : AtomOp) (ty : AtomTy)
deriving DecidableEq, Repr

/-- An outstanding memory access of a thread (R130, R131). `key` is the place in the model's one address space of homes
and scratchpads; `cov` the kind bit of R208; `data` what is stored, `cmp` the compare value of a CAS;
`hint` is the hint of R135, `push` a store that no store instruction made (R352); `lrw`: it writes the latch, `lrs`: the latch that
a rollback restores (R131, R209). -/
structure Mop where
  id : Nat
  kind : MopKind
  va : W64
  key : Nat
  size : Nat
  scope : Nat
  acq : Bool
  rel : Bool
  hint : Hint
  data : BitVec 128
  cmp : BitVec 64
  dst : LdDst
  lrw : Bool
  lrs : Bool
  cov : Nat
  held : Bool
  push : Bool
  pc : W64
deriving DecidableEq, Repr

/-- A store that is performed and not yet in the store hash, since an earlier access may still write (R352): the access's
number, address, size and data. -/
structure HStore where
  id : Nat
  va : Nat
  size : Nat
  data : Nat
deriving DecidableEq, Repr

/-- An incomplete fence token (R211): accesses with `id < upto`, ring entries below `ring`, matrix entries below `mx`. -/
structure Token where
  seq : Nat
  scope : Nat
  kinds : BitVec 6
  upto : Nat
  ring : Nat
  mx : Nat
deriving DecidableEq, Repr

/-- A pending speculative fence (R209): what it covers, the state just after it, the watched sectors. -/
structure Fence where
  scope : Nat
  kinds : BitVec 4
  upto : Nat
  snap : Regs
  count : Nat
  watch : List Nat
  hit : Bool
  rolled : Bool
deriving DecidableEq, Repr

/-- The result registers of a surrogate call (R266): pending, or failed with TADDR and TINFO of R268. -/
structure RPend where
  call : Nat
  resv : Nat
  resc : Nat
  failed : Option (W64 × W64)
deriving DecidableEq, Repr

/-- Why a restoration entry was made (R266). -/
inductive RestKind
  | exact
  | fallback
  | sample (ys : List W32) (accepted : Bool)
deriving DecidableEq, Repr

/-- An entry of a core's restoration queue (R267); the caller's accesses below `upto` come before it. -/
structure RestEntry where
  uid : Nat
  upto : Nat
  kind : RestKind
  caller : TRef
  w : Nat
  cid : Nat
  region : Nat
  args : List W32
  xs : List W64
  resv : Nat
  resc : Nat
  call : Nat
  exactpc : W64
  metric : Bool
  qb : W32
  floor : W32
deriving DecidableEq, Repr

/-- The waits of R158 and the curator's waits of R373. PC stays at the waiting instruction. `gate`: the arbiter, and the code of
the value chunk that the request takes (0: none). -/
inductive Wait
  | none
  | page (rid : Nat)
  | bar (cluster : Bool) (id : Nat)
  | sign (cluster : Bool) (k : Nat)
  | tbwait (addr : W64) (ph : Nat)
  | fwait (tok : W64)
  | waitc (loads : BitVec 6) (stores copies tiles : BitVec 5)
  | ftok
  | wlpop (wl : Fin 4) (xa : XReg) (ps : PReg) (v : VReg)
  | wlpush (wl : Fin 4) (words : List W32) (dep : Nat) (acked : Bool)
  | mstat (mx : Nat)
  | hold (target : W64) (arrived : Nat)
  | region (n : Nat)
  | coll
  | spill (r : VXReg)
  | gate (arb code : Nat)
  | fence
  | drain
  | qlaunch (l : Nat)
  | qsig
deriving DecidableEq, Repr

/-- A pipe's result on its way (R19): the register, the PC of the producer, what the register held before. -/
structure OnWay where
  reg : RegName
  pc : W64
  old : W64
deriving DecidableEq, Repr

/-- One thread (R5): launched, restoration (R267) or curator (R372). `picked`: it is in a sheaf of this tick (R159). -/
structure Thread where
  ref : TRef
  cid : Nat
  core : Nat
  slot : Nat
  tid : Nat
  r : Regs
  tcause : BitVec 9
  tpc : W64
  taddr : W64
  tinfo : W64
  tmode : Bool
  seq : Nat
  toks : List Token
  hold : List W64
  exited : Bool
  wait : Wait
  halted : Bool
  haltReq : Bool
  bkpt : Bool
  age : Nat
  nmop : Nat
  mops : List Mop
  fence : Option Fence
  rpend : List RPend
  board : List OnWay
  lastRing : Nat
  lastMx : Nat
  hash : W32
  hstores : List HStore
  pushes : Nat
  issues : Nat
  rb : Bool
  issued : Bool
  picked : Bool
  ipc : W64
  trapped : Bool
  rej : Option W64
  rest : Option RestEntry
deriving DecidableEq, Repr

/-- A thread slot with nothing in it; `State.cur` holds it while no thread is selected. -/
def Thread.idle : Thread :=
  { ref := .none, cid := 0, core := 0, slot := 0, tid := 0, r := Regs.start, tcause := 0, tpc := 0, taddr := 0, tinfo := 0,
    tmode := false, seq := 0, toks := [], hold := [], exited := false, wait := .none, halted := false, haltReq := false, bkpt := false, age := 0,
    nmop := 0, mops := [], fence := none, rpend := [], board := [], lastRing := 0, lastMx := 0, hash := 0, hstores := [], pushes := 0,
    issues := 0, rb := false, issued := false, picked := false, ipc := 0, trapped := false, rej := none, rest := none }

/-! ## Convergence, barriers, engines of a workgroup -/

/-- States of a convergence register (R173). -/
inductive KState
  | undeclared | armed | gathering | faulted
deriving DecidableEq, Repr

/-- The operation a round carries (R175). -/
inductive SignOp
  | ksign
  | kxch (pos : Bool)
  | kred (op : Nat)
  | fopen (dep : Nat)
  | mma (c : MmaCtl)
  | mdrain (c : DrainCtl)
deriving DecidableEq, Repr

/-- One signing of a round (R175): set index, operand values, destination, length of the instruction in words. -/
structure Sign where
  ref : TRef
  idx : Nat
  a : W32
  i : W32
  dst : Dst8
  words : Nat
deriving DecidableEq, Repr

/-- A convergence register (R173-R175). `val` is N or the base; `mask` the mask of the round; `expect` the expected count
of a COUNT round. -/
structure KReg where
  st : KState
  maskMode : Bool
  val : W64
  op : SignOp
  words : List Nat
  sw : List W64
  mask : W64
  expect : Nat
  signs : List Sign
deriving DecidableEq, Repr

/-- UNDECLARED, as at placement (R173). -/
def KReg.init : KReg :=
  { st := .undeclared, maskMode := false, val := 0, op := .ksign, words := [], sw := [], mask := 0, expect := 0, signs := [] }

/-- A barrier (R181): the phase's C and its arrivals with their instructions' lengths. -/
structure Bar where
  c : Nat
  arr : List (TRef × Nat)
deriving DecidableEq, Repr

/-- A frame heap (R184): allocated runs as (offset, bytes), and HGC. -/
structure Heap where
  off : Nat
  size : Nat
  runs : List (Nat × Nat)
  hgc : BitVec 13
deriving DecidableEq, Repr

/-- KIND of an accumulator slot (R246). -/
inductive AKind
  | empty | float | int | f64
deriving DecidableEq, Repr

/-- An accumulator slot (R246, R73). Cells at row·256 + column; one that is not listed is 0. -/
structure Acc where
  kind : AKind
  ovf : Bool
  latch : Vector Byte 16
  lv : Bool
  cells : List (Nat × W64)
deriving DecidableEq, Repr

/-- A slot at allotment (R246). -/
def Acc.init : Acc := { kind := .empty, ovf := false, latch := Vector.replicate 16 0x38, lv := false, cells := [] }

/-- What a matrix queue entry does (R253). -/
inductive MOp
  | mma (xa xb xc : W64) (c : MmaCtl) (rank : Nat)
  | mdrain (xa xb xc : W64) (c : DrainCtl)
  | mzero (slot : Nat)
  | mldsc (src : Nat) (cnt didx : Nat)
  | mstat (slot : Nat) (t : TRef) (d : XReg)
deriving DecidableEq, Repr

/-- A matrix queue entry (R253): begun, done, or suspended on a page request (R256); `row` counts the rows an
MDRAIN has drained. -/
structure MEnt where
  uid : Nat
  op : MOp
  begun : Bool
  done : Bool
  susp : Option Nat
  row : Nat
deriving DecidableEq, Repr

/-- A copy entry taken from the ring (R231, R232), with the number of destination bytes it has written. Where its destination overlaps its
source: `was` holds what its destination bytes held, by their number, and `coin` names the free choices of R233. -/
structure CopyEnt where
  idx : Nat
  raw : List Byte
  pub : Nat
  done : Nat
  was : List (Nat × Byte)
  coin : Nat
deriving DecidableEq, Repr

/-- A placed workgroup (R149-R157). `use` holds the tick at which a register was last used (R169). -/
structure Wg where
  id : Nat
  cid : Nat
  launch : Nat
  gang : Nat
  member : Nat
  wgid : Nat
  core : Nat
  rows : List Nat
  base : Nat
  size : Nat
  k : Vector KReg 8
  bars : Vector Bar 16
  exits : Nat
  heap : Heap
  head : Nat
  tail : Nat
  pubs : List (Nat × Nat)
  woken : Bool
  chans : Vector (List CopyEnt) 4
  chwp : Vector W64 4
  copyStop : Bool
  slots : List Acc
  scaleBase : Nat
  scale : List (Nat × Byte)
  mq : List MEnt
  mstep : Nat
  side : Bool
  spilled : List (VXReg × Nat)
  use : List (VXReg × Nat)
  placed : Nat
  spent : Nat
  term : Bool
  ended : Bool
deriving DecidableEq, Repr

/-- How a gang leaves its cores (R323-R326). -/
inductive Way
  | run
  | drain (deadline : Option Nat)
  | save
deriving DecidableEq, Repr

/-- A placed gang (R153), with the cluster-scope registers, barriers and heap (R173, R181, R184); `by'` is the context whose request
pre-empts it (R322). -/
structure Gang where
  id : Nat
  cid : Nat
  launch : Nat
  g : Nat
  die : Nat
  cluster : Nat
  first : Nat
  members : List Nat
  k : Vector KReg 8
  bars : Vector Bar 16
  exits : Nat
  heap : Heap
  way : Way
  slot : Nat
  endTick : Option Nat
  ready : Bool
  by' : Option Nat
deriving DecidableEq, Repr

/-- A level descriptor (R43): domain code, scope code, extent. -/
structure Level where
  dom : Nat
  scope : Nat
  extent : Nat
deriving DecidableEq, Repr

/-- A launch record as the dispatcher read it (R149). -/
structure LRec where
  entry : W64
  handler : W64
  noflush : Bool
  zlocal : Bool
  wgsize : Nat
  levels : List Level
  regroup : Nat
  rslots : Nat
  gang : Nat
  aslots : Nat
  xregs : Nat
  vregs : Nat
  stack : Nat
  loc : Nat
  ringOff : Nat
  ringEnt : Nat
  spill : Nat
  wgHeapOff : Nat
  wgHeapSz : Nat
  clHeapOff : Nat
  clHeapSz : Nat
  cycles : Nat
  latency : Nat
  args : W64
deriving DecidableEq, Repr

/-- A launch (R149, R321, R375): the x register of its QLAUNCH, the next gang index of `total`, the flushed indices that are
pending again, its live gangs, and the unit that the gangs of a level's index were placed on (R154). -/
structure Launch where
  id : Nat
  cid : Nat
  addr : W64
  raw : List Byte
  lrec : LRec
  q : Nat
  sig : W64
  accepted : Bool
  phase : Bool
  a : XReg
  next : Nat
  total : Nat
  pending : List Nat
  live : Nat
  units : List (Nat × Nat × Nat)
deriving DecidableEq, Repr

/-! ## One core -/

/-- A 32-byte sector of an L1 (R191, R192): CID tag, home sector number, bytes, dirty mask, the last hint of its line (R135). -/
structure Sector where
  cid : Nat
  sec : Nat
  valid : Bool
  data : BitVec 256
  dirty : BitVec 32
  poison : Bool
  hint : Hint
deriving DecidableEq, Repr

/-- A word of an instruction cache (R194). -/
structure IWord where
  cid : Nat
  va : Nat
  word : W32
deriving DecidableEq, Repr

/-- A leaf held in a TLB (R314): the page's base and size, and the 64-bit entry. -/
structure TlbEnt where
  cid : Nat
  va : Nat
  size : Nat
  ent : W64
deriving DecidableEq, Repr

/-- A worklist record (R281) with its pusher (R349). -/
structure WRec where
  cid : Nat
  wl : Nat
  words : List W32
  core : Nat
  slot : Nat
  num : Nat
  resv : Option Nat
deriving DecidableEq, Repr

/-- A region resident in a replica store (R262): the descriptor and image as loaded. -/
structure Resident where
  cid : Nat
  region : Nat
  pin : Bool
  desc : List Byte
  image : List Byte
deriving DecidableEq, Repr

/-- An evaluation under way (R265, R266). `c` is the lane-call's number; `sonly` is MODE 2. -/
structure Eval where
  uid : Nat
  upto : Nat
  sonly : Bool
  c : Nat
  caller : TRef
  w : Nat
  cid : Nat
  region : Nat
  desc : List Byte
  image : List Byte
  args : List W32
  xs : List W64
  resv : Nat
  resc : Nat
  call : Nat
deriving DecidableEq, Repr

/-- The issue pipes of a core (R160). -/
inductive Pipe
  | l0 | l1 | g | m | k
deriving DecidableEq, Repr

/-- One core; a core not listed in `State.cores` is `Core.init`. `states` is the region state as this core applied it;
`todo` the DISABLE (true) and ENABLE broadcasts it has not applied; `pipes` the ticks from which its pipes are free (R160); `picks` the
tick of its last pick and the picks it made in that tick (R159). -/
structure Core where
  num : Nat
  l1 : List Sector
  icache : List IWord
  tlb : List TlbEnt
  front : List WRec
  store : List Resident
  states : List (Nat × Nat × Nat)
  todo : List (Nat × Nat × Bool)
  evals : List Eval
  restq : List RestEntry
  samp : Nat
  sampAt : Option Nat
  urgent : Option TRef
  owner : List (Nat × Nat × Nat)
  spare : Bool
  pipes : List (Pipe × Nat)
  picks : Nat × Nat
deriving DecidableEq, Repr

/-- A core at module reset: everything empty. -/
def Core.init (n : Nat) : Core :=
  { num := n, l1 := [], icache := [], tlb := [], front := [], store := [], states := [], todo := [], evals := [], restq := [],
    samp := 0, sampAt := none, urgent := none, owner := [], spare := false, pipes := [], picks := (0, 0) }

/-! ## Contexts -/

/-- STATE of a context (R317). -/
inductive CState
  | free | idle | running | saved
deriving DecidableEq, Repr

/-- A context descriptor as created (R318). -/
structure CDesc where
  troot : Nat
  rtab : Nat
  evq : Nat
  evqent : Nat
  save : Nat
  savebytes : Nat
  pager : Nat
  part : Nat
  prio : Nat
  weight : Nat
  syssw : Bool
deriving DecidableEq, Repr

/-- A debug descriptor (R342). -/
structure DDesc where
  sring : Nat
  srent : Nat
  bken : Bool
  sen : Bool
  sn : Nat
  tms : Nat
  amode : Nat
  arch : Nat
  archbytes : Nat
  logbytes : Nat
deriving DecidableEq, Repr

/-- States of a worklist (R280). -/
inductive WState
  | unconfigured | active | terminated | faulted
deriving DecidableEq, Repr

/-- The worklist's part of one die's unit (R292): the Fseen it holds, records on chip, spilled chunks. -/
structure WUnit where
  fseen : Option Nat
  recs : List WRec
  chunks : List (Nat × List WRec)
deriving DecidableEq, Repr

/-- A worklist (R280-R294). `tasks` holds (thread, key) of the tasks in flight; `counts` pushes, pops, retirements and
joins since WLCFG; `last` those at the last refresh that found the conditions of R294; `refreshed` is the tick of the last refresh. Fseen `none` is infinite. -/
structure Worklist where
  st : WState
  shift : Nat
  delta : Nat
  sys : Bool
  dbal : Bool
  xbal : Bool
  spill : Nat
  spillbytes : Nat
  join : Nat
  group : Nat
  joined : Nat
  fseen : Option Nat
  units : Vector WUnit 4
  parts : List TRef
  tasks : List (TRef × W32)
  counts : Nat × Nat × Nat × Nat
  last : Option (Nat × Nat × Nat × Nat)
  peersReady : Bool
  flt : Option (BitVec 9 × W64)
  refreshed : Option Nat
deriving DecidableEq, Repr

/-- UNCONFIGURED, as at context creation (R280). -/
def Worklist.init : Worklist :=
  { st := .unconfigured, shift := 0, delta := 0, sys := false, dbal := false, xbal := false, spill := 0, spillbytes := 0,
    join := 0, group := 0, joined := 0, fseen := none, units := Vector.replicate 4 ⟨none, [], []⟩, parts := [], tasks := [],
    counts := (0, 0, 0, 0), last := none, peersReady := true, flt := none, refreshed := none }

/-- The aggregator's counts of a region (R263), and the state it holds. -/
structure Agg where
  region : Nat
  c : Vector W64 8
  state : Nat
deriving DecidableEq, Repr

/-- Who waits on a page request (R315). -/
inductive PWho
  | thread (t : TRef)
  | matrix (w : Nat)
  | refill (w : Nat) (r : VXReg)
  | chunk (wl die n : Nat)
deriving DecidableEq, Repr

/-- A page request (R320); `posted` once it stands in the request ring. -/
structure PReq where
  rid : Nat
  va : Nat
  kind : Nat
  who : List PWho
  posted : Bool
deriving DecidableEq, Repr

/-- A collective in flight on this device (R366, R368), with the chunks done and the operands its issue named. -/
structure Coll where
  g : Nat
  k : Nat
  cop : Nat
  ty : DType
  op : ROp
  b : Nat
  send : Nat
  sendLen : Nat
  recv : Nat
  recvLen : Nat
  next : Nat
deriving DecidableEq, Repr

/-- A saved gang (R328, R329): the slot, the gang with all of its state, its restoration entries, the rejections (who, address,
KIND) that its restore applies (R316), what its parked pops are to get, status 2 or a trap (R297, R335), and the bytes of its members'
allotments. -/
structure Saved where
  slot : Nat
  bytes : Nat
  gang : Gang
  wgs : List Wg
  threads : List Thread
  rests : List RestEntry
  tick : Nat
  rejected : List (PWho × Nat × Nat)
  pops : List (TRef × Option (BitVec 9 × W64))
  allots : List (List Byte)
deriving DecidableEq, Repr

/-- A placement that a recording notes (R356): launch record address, gang index, first core, slot rows. -/
structure Placed where
  addr : W64
  g : Nat
  core : Nat
  rows : List (List Nat)
deriving DecidableEq, Repr

/-- A checkpoint (R347, R356): tick, number, the store hashes by (core, WGID) of the workgroups that ended in the interval it
closes and of those that live, the interval's log, placements and ingress data, the gangs with their launches, the worklists,
Count(core, region) (R266, R351), and the image. -/
structure Checkpoint where
  tick : Nat
  seq : Nat
  ended : List (Nat × Nat × W32)
  live : List (Nat × Nat × W32)
  log : List W64
  placed : List Placed
  ingress : List (Nat × Nat × List Byte)
  gangs : List Saved
  launches : List Launch
  wls : Vector Worklist 4
  counts : List (Nat × Nat × W32)
  img : List (Nat × Byte)
deriving DecidableEq, Repr

/-- The archive unit's state of one context (R347-R353). `log` is newest last; `full`: the area is full; `settling`: a
checkpoint has begun; `ingress` holds (port, address, bytes); in replay `left` is
what the arbiters have not consumed of the interval and `want` the checkpoints still to reach. -/
structure Arch where
  on : Bool
  full : Bool
  seq : Nat
  since : Nat
  log : List W64
  used : Nat
  done : List Checkpoint
  ended : List (Nat × Nat × W32)
  left : List W64
  want : List Checkpoint
  stopLabel : Option Nat
  img : List (Nat × Byte)
  placed : List Placed
  ingress : List (Nat × Nat × List Byte)
  settling : Bool
deriving DecidableEq, Repr

/-- Nothing recorded. -/
def Arch.init : Arch :=
  { on := false, full := false, seq := 0, since := 0, log := [], used := 0, done := [], ended := [], left := [], want := [],
    stopLabel := none, img := [], placed := [], ingress := [], settling := false }

/-- A context (R317, R318); `leaving`: system software has asked for all of its gangs, and it becomes SAVED with them. -/
structure Ctx where
  cid : Nat
  st : CState
  desc : CDesc
  dbg : DDesc
  deficit : Int
  wls : Vector Worklist 4
  agg : List Agg
  counts : List (Nat × Nat × W32)
  attest : List (Nat × List Byte)
  measure : List Byte
  measured : List Nat
  preqs : List PReq
  collK : List (Nat × Nat)
  colls : List Coll
  slots : List (Nat × Nat)
  saved : List Saved
  leaving : Bool
  arch : Arch
deriving DecidableEq, Repr

/-! ## Queues and the device -/

/-- STATE of a queue (R371). -/
inductive QState
  | disabled | enabled | waiting | faulted
deriving DecidableEq, Repr

/-- A queue (R371): descriptor fields, published TAIL, program store, and whether its next launch opens a phase (R377). -/
structure Queue where
  q : Nat
  ring : Nat
  vf : Nat
  log2e : Nat
  cur : Nat
  sw : Bool
  cid : Nat
  prog : Nat
  words : List W32
  wins : List (Nat × Nat)
  phase : W32
  head : W32
  tail : W32
  verr : Nat
  st : QState
  waddr : W64
  wthr : W64
  fresh : Bool
  launches : List Nat
  quiesce : Bool
  paused : Option Thread
deriving DecidableEq, Repr

/-- A curator (R372, R373): the queue it serves, QLEFT, the windows of x60-x63. -/
structure Curator where
  c : Nat
  q : Nat
  left : Nat
  wins : List (Nat × Nat)
deriving DecidableEq, Repr

/-- A curator's round (R372): the context it visited last, each context's queue it served last, and its curator deficits. -/
structure Round where
  c : Nat
  last : Nat
  lastQ : List (Nat × Nat)
  defs : List (Nat × Int)
deriving DecidableEq, Repr

/-- A switch in progress (R333), and the context whose queue asked for it. -/
structure Switch where
  out : List Nat
  inc : Option Nat
  when : Nat
  begun : Bool
  by' : Nat
deriving DecidableEq, Repr

/-- The device configuration of R362. -/
structure Cfg where
  cdtab : W64
  dbgtab : W64
  qdtab : W64
  coltab : W64
  ccid : BitVec 6
  qid : BitVec 12
  vmode : BitVec 192
  tickstop : W64
  devnum : BitVec 10
  pcap : BitVec 12
  functx : Vector (BitVec 9) 65
deriving DecidableEq, Repr

/-- What a read from outside completes with (R364, R370): bytes, poisoned bytes, or Unsupported Request. -/
inductive Answer
  | data (bytes : List Byte)
  | poisoned (bytes : List Byte)
  | unsupported
deriving DecidableEq, Repr

/-- A trap that a thread has to take: it is taken before anything issues (R176, R183, R242). `spec`: an instruction inside a
speculation raised it (R210). -/
structure TrapReq where
  ref : TRef
  cause : BitVec 9
  tpc : W64
  taddr : W64
  tinfo : W64
  spec : Bool
deriving DecidableEq, Repr

/-- The machine. `trapq` holds the traps that other threads' instructions gave and `agenda` holds the events that come next, `cur` the thread selected to issue (idle: none), `sheaf` the rest
of the sheaf a pick chose (log entry 2); `archives` the archive areas that destroyed contexts recorded (R351); `viol` the violations on their way to the aggregator, as (core, CID, region) (R272); `turn` the CID that the dispatcher visited last (R322); `fresh` numbers free values (log entry 7), `uid` names (log entry 2). -/
structure State where
  trapq : List TrapReq
  agenda : List Instr
  cur : Thread
  sheaf : List TRef
  threads : List Thread
  wgs : List Wg
  gangs : List Gang
  launches : List Launch
  cores : List Core
  l2 : Vector (List TlbEnt) 4
  ctxs : List Ctx
  archives : List (Nat × Arch)
  queues : List Queue
  curators : List Curator
  rounds : List Round
  switches : List Switch
  cfg : Cfg
  tick : Nat
  stopped : Bool
  recovery : Bool
  spares : List Nat
  outClusters : List Nat
  hbmRet : Nat
  vbRet : Nat
  links : BitVec 36
  inPod : Bool
  egress : List (Nat × Byte)
  posted : List (Nat × Byte)
  quote : List (List Byte)
  answers : List Answer
  viol : List (Nat × Nat × Nat)
  turn : Nat
  mem : List (Nat × Byte)
  poison : List Nat
  fresh : Nat
  uid : Nat
deriving DecidableEq, Repr

/-! ## Stops -/

/-- Why the machine stops with a fault. -/
inductive Fault
  /-- An access at a physical address of HBM at or above its 1 TiB (R2, R361): raised by the one operation that reads or
  writes homes. Safe: nothing goes on from there. -/
  | noSuchMemory (key : Nat)
deriving DecidableEq, Repr

/-- Why the machine has no meaning for what it met. -/
inductive Refusal
  /-- An instruction not modelled yet: raised by `exec` alone. Safe. -/
  | notModelled (mnemonic : String)
deriving DecidableEq, Repr

/-! ## Reset -/

/-- The configuration at module reset (R362). -/
def Cfg.reset : Cfg :=
  { cdtab := 0, dbgtab := 0, qdtab := 0, coltab := 0, ccid := 0, qid := 0, vmode := BitVec.allOnes 192, tickstop := 0,
    devnum := 0, pcap := 3600, functx := Vector.replicate 65 0 }

/-- The machine right after module reset (R340, R317, R362, R382): no context, thread or line; TICK 0. -/
def State.reset : State :=
  { trapq := [], agenda := [], cur := Thread.idle, sheaf := [], threads := [], wgs := [], gangs := [], launches := [], cores := [],
    l2 := Vector.replicate 4 [], ctxs := [], archives := [], queues := [], curators := [], rounds := [], switches := [], cfg := Cfg.reset, tick := 0,
    stopped := false, recovery := false, spares := [], outClusters := [], hbmRet := 0, vbRet := 0, links := 0, inPod := true,
    egress := [], posted := [], quote := [], answers := [], viol := [], turn := 63, mem := [], poison := [], fresh := 0, uid := 0 }

end Sys2Proof.Machine
end

