-- ==== Sys2Proof/Machine/Operands.lean ====
section
/-! DEFINITION. Reading and writing the operand forms of R24-R31 in the selected thread, the guard (R29), the last-result
latch (R8) and the advance of PC (R14). -/

namespace Sys2Proof.Machine

/-- What a step answers. -/
abbrev Out := Host.Outcome State Fault Refusal

/-! ## Registers -/

/-- v*n* (R5). -/
def Regs.getV (r : Regs) (n : VReg) : W32 := r.v[n]
/-- x*n* (R5). -/
def Regs.getX (r : Regs) (n : XReg) : W64 := r.x[n]
/-- d*n* (R11). -/
def Regs.getD (r : Regs) (n : Fin 8) : W64 := r.d[n]
/-- p*n* (R10). -/
def Regs.getP (r : Regs) (n : PReg) : Bool := r.p.getLsbD n.val

/-- Write v*n*. -/
def Regs.setV (r : Regs) (n : VReg) (w : W32) : Regs := { r with v := r.v.set n.val w n.isLt }
/-- Write x*n*. -/
def Regs.setX (r : Regs) (n : XReg) (w : W64) : Regs := { r with x := r.x.set n.val w n.isLt }
/-- Write d*n*. -/
def Regs.setD (r : Regs) (n : Fin 8) (w : W64) : Regs := { r with d := r.d.set n.val w n.isLt }
/-- Write p*n*. -/
def Regs.setP (r : Regs) (n : PReg) (b : Bool) : Regs :=
  { r with p := (r.p &&& ~~~(1#12 <<< n.val)) ||| (if b then 1#12 <<< n.val else 0) }
/-- Set FSR flags (R17). -/
def Regs.addFl (r : Regs) (f : Fl) : Regs := { r with fsr := fsrAdd r.fsr f }
/-- PC := PC + 4·n (R14). -/
def Regs.adv (r : Regs) (n : Nat) : Regs := { r with pc := r.pc + BitVec.ofNat 64 (4 * n) }

/-- v*n* by number, for the registers of a range. -/
def Regs.vAt (r : Regs) (n : Nat) : W32 := r.getV (Fin.ofNat 128 n)
/-- Write v*n* by number. -/
def Regs.setVAt (r : Regs) (n : Nat) (w : W32) : Regs := r.setV (Fin.ofNat 128 n) w

/-- v(n+1):v(n) (R53). -/
def Regs.pair (r : Regs) (n : VReg) : W64 := r.vAt (n.val + 1) ++ r.getV n
/-- Write v(n) := low word, v(n+1) := high word. -/
def Regs.setPair (r : Regs) (n : VReg) (w : W64) : Regs :=
  (r.setV n (w.setWidth 32)).setVAt (n.val + 1) (w.extractLsb' 32 32)
/-- v(n+3):v(n+2):v(n+1):v(n) (R127). -/
def Regs.quad (r : Regs) (n : VReg) : BitVec 128 :=
  r.vAt (n.val + 3) ++ r.vAt (n.val + 2) ++ r.vAt (n.val + 1) ++ r.getV n
/-- Write the quad from v(n) up. -/
def Regs.setQuad (r : Regs) (n : VReg) (w : BitVec 128) : Regs :=
  (((r.setV n (w.setWidth 32)).setVAt (n.val + 1) (w.extractLsb' 32 32)).setVAt (n.val + 2)
    (w.extractLsb' 64 32)).setVAt (n.val + 3) (w.extractLsb' 96 32)

/-- Write a list of words to v(n), v(n+1), … -/
def Regs.setRange (r : Regs) : Nat → List W32 → Regs
  | _, [] => r
  | n, w :: ws => (r.setVAt n w).setRange (n + 1) ws

/-- Read k words from v(n) up. -/
def Regs.range (r : Regs) (n : Nat) : Nat → List W32
  | 0 => []
  | k + 1 => r.vAt n :: r.range (n + 1) k

/-! ## Operand fields -/

/-- The home lane (R156). -/
def Thread.lane (t : Thread) : Nat := t.slot % 64

/-- An F8 source (R24). -/
def Thread.src8 (t : Thread) : Src8 → W32
  | .v n => t.r.getV n
  | .o n => t.r.o[n]
  | .lr => t.r.lr
  | .lit w => w
  | .zero => 0
  | .tid => BitVec.ofNat 32 t.tid
  | .lane => BitVec.ofNat 32 t.lane
  | .x n => (t.r.getX n).setWidth 32

/-- D read as a third source (R78, R82): zero reads 0. -/
def Thread.dst8 (t : Thread) : Dst8 → W32
  | .v n => t.r.getV n
  | .o n => t.r.o[n]
  | .lr => t.r.lr
  | .zero => 0

/-- An S5 source (R25). -/
def Thread.src5 (t : Thread) : Src5 → W32
  | .o n => t.r.o[n]
  | .lr => t.r.lr
  | .lit w => w
  | .zero => 0
  | .one => 1
  | .negOne => 0xFFFFFFFF
  | .fOne => 0x3F800000
  | .fHalf => 0x3F000000
  | .tid => BitVec.ofNat 32 t.tid
  | .x n => (t.r.getX (Fin.castLE (by decide) n)).setWidth 32

/-- A B9 operand as an integer (R26): the immediate and the 32-bit literal are sign-extended. -/
def Thread.b9 (t : Thread) : SrcB9 → W64
  | .imm i => i.signExtend 64
  | .x n => t.r.getX n
  | .lit32 w => w.signExtend 64
  | .lit64 w => w
  | .zero => 0

/-- A B7 operand as an integer (R27). -/
def Thread.b7 (t : Thread) : SrcB7 → W64
  | .x n => t.r.getX n
  | .imm n => BitVec.ofNat 64 n.val

/-- Write an F8 destination without touching the latch, but where it names it (R8's exceptions, R113, R178). -/
def Regs.put8 (r : Regs) : Dst8 → W32 → Regs
  | .v n, w => r.setV n w
  | .o n, w => { r with o := r.o.set n.val w n.isLt }
  | .lr, w => { r with lr := w }
  | .zero, _ => r

/-- Write8: the destination, and the latch (R8, R24). -/
def Regs.write8 (r : Regs) (d : Dst8) (w : W32) : Regs := { r.put8 d w with lr := w }

/-- The guard holds (R29). -/
def Regs.holds (r : Regs) : Guard → Bool
  | none => true
  | some p => r.getP p

/-- Is the guard 0 or its predicate true: the selector of CSEL and WSEL (R86, R105). -/
def Regs.sel (r : Regs) (g : Guard) : Bool := r.holds g

/-! ## The selected thread -/

/-- Change the selected thread. -/
def State.onCur (s : State) (f : Thread → Thread) : State := { s with cur := f s.cur }
/-- Change the selected thread's registers. -/
def State.onRegs (s : State) (f : Regs → Regs) : State := { s with cur := { s.cur with r := f s.cur.r } }
/-- What was issued before a pending fence and arrives late changes the registers and what a rollback restores (R209). -/
def Thread.late (t : Thread) (f : Regs → Regs) : Thread :=
  { t with r := f t.r, fence := t.fence.map (fun x => { x with snap := f x.snap }) }
/-- The selected thread goes on after an instruction of n words. -/
def State.adv (s : State) (n : Nat) : State := s.onRegs (fun r => r.adv n)

/-- An instruction of n words under a guard (R29): when it is false only PC moves. -/
def guarded (g : Guard) (n : Nat) (s : State) (k : Out) : Out :=
  if s.cur.r.holds g then k else .next (s.adv n)

/-- A lane instruction of n words with result w (R78). -/
def laneWrite (g : Guard) (d : Dst8) (n : Nat) (w : W32) (s : State) : Out :=
  guarded g n s (.next (s.onRegs (fun r => (r.write8 d w).adv n)))

/-- A lane instruction of n words with a result and flags (R78, R17). -/
def laneFl (g : Guard) (d : Dst8) (n : Nat) (w : Nat × Fl) (s : State) : Out :=
  guarded g n s (.next (s.onRegs (fun r => ((r.write8 d (BitVec.ofNat 32 w.1)).addFl w.2).adv n)))

/-- A group instruction of n words with result w (R99). -/
def groupWrite (g : Guard) (d : XReg) (n : Nat) (w : W64) (s : State) : Out :=
  guarded g n s (.next (s.onRegs (fun r => (r.setX d w).adv n)))

/-- A group instruction with a result and flags (R99). -/
def groupFl (g : Guard) (d : XReg) (n : Nat) (w : Nat × Fl) (s : State) : Out :=
  guarded g n s (.next (s.onRegs (fun r => ((r.setX d (BitVec.ofNat 64 w.1)).addFl w.2).adv n)))

/-- A comparison of n words (R95, R96, R107, R111). -/
def predWrite (g : Guard) (pd : PReg) (n : Nat) (b : Bool) (f : Fl) (s : State) : Out :=
  guarded g n s (.next (s.onRegs (fun r => ((r.setP pd b).addFl f).adv n)))

end Sys2Proof.Machine
end

