-- ==== Sys2Proof/Machine/Memory.lean ====
section
/-! DEFINITION. The bytes of the machine (R127, R189-R200): one list of (place, byte) pairs in canonical form, the homes,
the scratchpads, poison, posted writes, and the L1s above them. A place is a number: HBM at its physical address,
the system window at physical addresses with bit 55, vault quarters from 2^56, scratchpads from 2^57 (log entry 3). -/

namespace Sys2Proof.Machine

/-! ## The list -/

/-- The byte at a place; one that is not listed reads 0 (log entry 1). -/
def memGet : List (Nat × Byte) → Nat → Byte
  | [], _ => 0
  | (k, v) :: t, a => if a = k then v else if a < k then 0 else memGet t a

/-- Insert in order, in place of what stood there. -/
def memPut : List (Nat × Byte) → Nat → Byte → List (Nat × Byte)
  | [], a, b => [(a, b)]
  | (k, v) :: t, a, b =>
    if a = k then (a, b) :: t else if a < k then (a, b) :: (k, v) :: t else (k, v) :: memPut t a b

/-- Take a place out of the list. -/
def memDel : List (Nat × Byte) → Nat → List (Nat × Byte)
  | [], _ => []
  | (k, v) :: t, a => if a = k then t else if a < k then (k, v) :: t else (k, v) :: memDel t a

/-- Write a byte, keeping the canonical form: writing 0 removes the entry. -/
def memSet (m : List (Nat × Byte)) (a : Nat) (b : Byte) : List (Nat × Byte) :=
  if b = 0 then memDel m a else memPut m a b

/-- Places strictly rise from `lo` on, and no listed byte is 0. -/
def memWfFrom : Nat → List (Nat × Byte) → Bool
  | _, [] => true
  | lo, (k, v) :: t => decide (lo ≤ k) && v != 0 && memWfFrom (k + 1) t

/-- The canonical form of memory. -/
def Memory.wf (m : List (Nat × Byte)) : Bool := memWfFrom 0 m

/-- The little-endian value of n bytes (R127). -/
def readLE (m : List (Nat × Byte)) (a : Nat) : Nat → Nat
  | 0 => 0
  | n + 1 => (memGet m a).toNat + 256 * readLE m (a + 1) n

/-- Write the n low bytes of v, little-endian. -/
def writeLE (m : List (Nat × Byte)) (a : Nat) : Nat → Nat → List (Nat × Byte)
  | 0, _ => m
  | n + 1, v => writeLE (memSet m a (BitVec.ofNat 8 v)) (a + 1) n (v / 256)

/-- The bytes of a number, little-endian. -/
def bytesLE : Nat → Nat → List Byte
  | 0, _ => []
  | n + 1, v => BitVec.ofNat 8 v :: bytesLE n (v / 256)

/-- The number of bytes, little-endian. -/
def ofBytes : List Byte → Nat
  | [] => 0
  | b :: bs => b.toNat + 256 * ofBytes bs

/-- n bytes from a place. -/
def readBytes (m : List (Nat × Byte)) (a : Nat) : Nat → List Byte
  | 0 => []
  | n + 1 => memGet m a :: readBytes m (a + 1) n

/-- Write bytes from a place on. -/
def writeBytes (m : List (Nat × Byte)) (a : Nat) : List Byte → List (Nat × Byte)
  | [] => m
  | b :: bs => writeBytes (memSet m a b) (a + 1) bs

/-! ## Places -/

/-- The system window (R364): physical addresses with bit 55. -/
def isSys (key : Nat) : Bool := 36028797018963968 ≤ key && key < 72057594037927936
/-- A vault quarter's byte (R195). -/
def vaultKey (vq off : Nat) : Nat := 72057594037927936 + vq * 33554432 + off
/-- A scratchpad byte of a logical core (R190). -/
def scratchKey (core off : Nat) : Nat := 144115188075855872 + core * 2097152 + off
/-- A scratchpad byte. -/
def isScratch (key : Nat) : Bool := 144115188075855872 ≤ key
/-- A place that exists: HBM below 1 TiB, and the other spaces (R2, R361). -/
def keyOk (key : Nat) : Bool := key < Config.hbmBytes || 36028797018963968 ≤ key
/-- The sector of a place (R199). -/
def secOf (key : Nat) : Nat := key / 32

/-- The 16-bit check of a sector (R199): polynomial 0x8BB7, most significant bit first, initial value 0. It is a function
of the bytes, so State holds no check: a mismatch is an event that marks the sector poisoned (R200). -/
def crcByte (c : BitVec 16) (b : Byte) : BitVec 16 :=
  (List.range 8).foldl (fun c _ => if c.msb then (c <<< 1) ^^^ 0x8BB7 else c <<< 1) (c ^^^ (b.setWidth 16 <<< 8))

/-- The check of 32 bytes (R199). -/
def sectorCheck (bs : List Byte) : BitVec 16 := bs.foldl crcByte 0

/-! ## Lookups -/

/-- Apply a function to each element of a vector. -/
def vmap {α β : Type} {n : Nat} (f : α → β) (v : Vector α n) : Vector β n := Vector.ofFn (fun i => f v[i])

/-- Insert before the first element whose key is greater. -/
def insertBy {α : Type} (k : α → Nat) (a : α) : List α → List α
  | [] => [a]
  | x :: xs => if k a < k x then a :: x :: xs else x :: insertBy k a xs

/-- Sort by a key, least first; equal keys keep their order. -/
def sortBy {α : Type} (k : α → Nat) (l : List α) : List α := l.foldl (fun r a => insertBy k a r) []

/-- Replace the first element that fits. -/
def updFirst {α : Type} (p : α → Bool) (f : α → α) : List α → List α
  | [] => []
  | x :: xs => if p x then f x :: xs else x :: updFirst p f xs

/-- Core n (R15), empty if it is not listed. -/
def State.core (s : State) (n : Nat) : Core := (s.cores.find? (fun c => c.num == n)).getD (Core.init n)

/-- Change core n. -/
def State.onCore (s : State) (n : Nat) (f : Core → Core) : State :=
  if s.cores.any (fun c => c.num == n) then { s with cores := updFirst (fun c => c.num == n) f s.cores }
  else { s with cores := s.cores ++ [f (Core.init n)] }

/-- A context by CID, if it exists (R317). -/
def State.ctx? (s : State) (cid : Nat) : Option Ctx := s.ctxs.find? (fun c => c.cid == cid)
/-- Change a context. -/
def State.onCtx (s : State) (cid : Nat) (f : Ctx → Ctx) : State := { s with ctxs := updFirst (fun c => c.cid == cid) f s.ctxs }
/-- A workgroup by name. -/
def State.wg? (s : State) (w : Nat) : Option Wg := s.wgs.find? (fun x => x.id == w)
/-- Change a workgroup. -/
def State.onWg (s : State) (w : Nat) (f : Wg → Wg) : State := { s with wgs := updFirst (fun x => x.id == w) f s.wgs }
/-- A gang by name. -/
def State.gang? (s : State) (g : Nat) : Option Gang := s.gangs.find? (fun x => x.id == g)
/-- Change a gang. -/
def State.onGang (s : State) (g : Nat) (f : Gang → Gang) : State := { s with gangs := updFirst (fun x => x.id == g) f s.gangs }
/-- A launch by name. -/
def State.launch? (s : State) (l : Nat) : Option Launch := s.launches.find? (fun x => x.id == l)
/-- Change a launch. -/
def State.onLaunch (s : State) (l : Nat) (f : Launch → Launch) : State :=
  { s with launches := updFirst (fun x => x.id == l) f s.launches }
/-- A queue (R371). -/
def State.queue? (s : State) (q : Nat) : Option Queue := s.queues.find? (fun x => x.q == q)
/-- Change a queue. -/
def State.onQueue (s : State) (q : Nat) (f : Queue → Queue) : State := { s with queues := updFirst (fun x => x.q == q) f s.queues }
/-- A curator (R372). -/
def State.curator? (s : State) (c : Nat) : Option Curator := s.curators.find? (fun x => x.c == c)

/-- A thread by name; the selected one stands outside the list. -/
def State.thread? (s : State) (t : TRef) : Option Thread :=
  if s.cur.ref == t && t != .none then some s.cur else s.threads.find? (fun x => x.ref == t)

/-- Change a thread. -/
def State.onThread (s : State) (t : TRef) (f : Thread → Thread) : State :=
  if s.cur.ref == t then { s with cur := f s.cur } else { s with threads := updFirst (fun x => x.ref == t) f s.threads }

/-- Every thread, the selected one first. -/
def State.all (s : State) : List Thread := if s.cur.ref == .none then s.threads else s.cur :: s.threads

/-- Change every thread. -/
def State.onAll (s : State) (f : Thread → Thread) : State :=
  { s with cur := (if s.cur.ref == .none then s.cur else f s.cur), threads := s.threads.map f }

/-- The workgroup a thread belongs to (R156). -/
def refWg : TRef → Option Nat
  | .thr w _ => some w
  | .rest w _ => some w
  | .none | .cur _ => none

/-- The workgroup of a thread. -/
def State.wgOf (s : State) (t : Thread) : Option Wg := (refWg t.ref).bind s.wg?
/-- The launch record of a workgroup (R149). -/
def State.lrecOf (s : State) (w : Wg) : Option LRec := (s.launch? w.launch).map (·.lrec)

/-! ## Homes and scratchpads -/

/-- Another agent's store on a watched sector undoes a speculation (R209). -/
def touch (s : State) (who : TRef) (key n : Nat) : State :=
  s.onAll (fun t =>
    match t.fence with
    | none => t
    | some f =>
      if t.ref != who && f.watch.any (fun x => secOf key ≤ x && x ≤ secOf (key + n - 1)) then { t with fence := some { f with hit := true } }
      else t)

/-- A store that covers a poisoned sector clears it; a partial one leaves it (R200). -/
def clearPoison (p : List Nat) (key n : Nat) : List Nat := p.filter (fun x => !(key ≤ 32 * x && 32 * x + 32 ≤ key + n))

/-- Is any of the bytes in a poisoned sector (R200). -/
def State.poisoned (s : State) (key n : Nat) : Bool := s.poison.any (fun x => secOf key ≤ x && x ≤ secOf (key + n - 1))

/-- Write bytes at their home or in a scratchpad; a store to the system window is posted (R364). -/
def State.put (s : State) (who : TRef) (key : Nat) (bs : List Byte) : State :=
  if isSys key then { s with egress := s.egress ++ (bs.zipIdx.map (fun x => (key + x.2, x.1))) }
  else
    let s := touch s who key bs.length
    { s with mem := writeBytes s.mem key bs, poison := clearPoison s.poison key bs.length }

/-- Write n bytes of a number. -/
def State.putN (s : State) (who : TRef) (key n v : Nat) : State := s.put who key (bytesLE n v)

/-- Read bytes at their home or in a scratchpad. What a device answers from the system window is free (R364). -/
def State.take (s : State) (key n : Nat) : List Byte × State :=
  if isSys key then ((List.range n).map (fun i => Config.outsideByte (s.fresh + i)), { s with fresh := s.fresh + n })
  else (readBytes s.mem key n, s)

/-- Read a number at its home, where no device answers. -/
def State.get (s : State) (key n : Nat) : Nat := readLE s.mem key n

/-- The hub's egress and the posted PCI Express writes drain (R202, R204). -/
def State.drainEgress (s : State) : State := { s with posted := s.posted ++ s.egress, egress := [] }

/-! ## L1 (R191-R193) -/

/-- The sector a context has in a core's L1. -/
def l1Find (l : List Sector) (cid sec : Nat) : Option Sector := l.find? (fun x => x.cid == cid && x.sec == sec)

/-- Put a sector in place of its former copy. -/
def l1Put (l : List Sector) (x : Sector) : List Sector :=
  if l.any (fun y => y.cid == x.cid && y.sec == x.sec) then updFirst (fun y => y.cid == x.cid && y.sec == x.sec) (fun _ => x) l
  else l ++ [x]

/-- Byte i of a sector. -/
def Sector.byte (x : Sector) (i : Nat) : Byte := x.data.extractLsb' (8 * i) 8

/-- Write byte i and mark it dirty. -/
def Sector.store (x : Sector) (i : Nat) (b : Byte) : Sector :=
  { x with data := (x.data &&& ~~~((255#256) <<< (8 * i))) ||| ((b.setWidth 256) <<< (8 * i)), dirty := x.dirty ||| (1#32 <<< i) }

/-- Write bytes from i on. -/
def Sector.stores (x : Sector) : Nat → List Byte → Sector
  | _, [] => x
  | i, b :: bs => (x.store i b).stores (i + 1) bs

/-- The 32 bytes of a home sector as one word. -/
def State.sectorWord (s : State) (sec : Nat) : BitVec 256 := BitVec.ofNat 256 (s.get (32 * sec) 32)

/-- A sector fetched from its home, dirty bytes winning (R191). -/
def Sector.fill (x : Sector) (home : BitVec 256) (poison : Bool) : Sector :=
  if x.valid then x
  else
    let y : Sector := { x with data := home, valid := true, poison := poison }
    (List.range 32).foldl
      (fun (z : Sector) i =>
        if x.dirty.getLsbD i then
          { z with data := (z.data &&& ~~~((255#256) <<< (8 * i))) ||| (((x.byte i).setWidth 256) <<< (8 * i)) }
        else z) y

/-- An empty sector. -/
def Sector.new (cid sec : Nat) : Sector := { cid, sec, valid := false, data := 0, dirty := 0, poison := false, hint := .default }

/-- Dirty bytes go home; `drop` also invalidates (R191, R126). -/
def writeBack (s : State) (core : Nat) (x : Sector) (drop : Bool) : State :=
  let who : TRef := .none
  let s := (List.range 32).foldl
    (fun (s : State) i =>
      if x.dirty.getLsbD i && x.dirty != BitVec.allOnes 32 then s.put who (32 * x.sec + i) [x.byte i] else s) s
  let s := if x.dirty == BitVec.allOnes 32 then s.putN who (32 * x.sec) 32 x.data.toNat else s
  s.onCore core (fun c =>
    { c with l1 :=
        if drop || !x.valid then c.l1.filter (fun y => !(y.cid == x.cid && y.sec == x.sec))
        else l1Put c.l1 { x with dirty := 0 } })

/-- Write back every dirty sector that fits (R204, R126). -/
def writeBackAll (s : State) (core : Nat) (p : Sector → Bool) (drop : Bool) : State :=
  ((s.core core).l1.filter p).foldl (fun s x => writeBack s core x drop) s

/-- The 128-byte line of a sector (R189). -/
def Sector.line (x : Sector) : Nat × Nat := (x.cid, x.sec / 4)

/-- The lines of some sectors. -/
def linesOf (l : List Sector) : List (Nat × Nat) := (l.map Sector.line).eraseDups

/-- Does an L1 hold the line of a sector. -/
def lineIn (l : List Sector) (cid sec : Nat) : Bool := l.any (fun x => x.line == (cid, sec / 4))

/-- The lines that may leave a full L1 for a new one (R135): those read with stream first, a keep line for a keep line only. -/
def l1Victims (l : List Sector) (hint : Hint) : List (Nat × Nat) :=
  let stream := l.filter (fun x => x.hint == .stream)
  let plain := l.filter (fun x => x.hint != .keep)
  if !stream.isEmpty then linesOf stream else if !plain.isEmpty then linesOf plain else if hint = .keep then linesOf l else []

/-- Has an L1 a free line (R189). -/
def l1Free (l : List Sector) : Bool := decide (l.length < Config.l1Lines) || decide ((linesOf l).length < Config.l1Lines)

/-- Does the L1 take the line of a sector: it holds it, or may allocate it (R135, R189). -/
def l1Takes (l : List Sector) (cid sec : Nat) (hint : Hint) : Bool :=
  lineIn l cid sec || (hint != .bypass && (l1Free l || !(l1Victims l hint).isEmpty))

/-- A full L1 gives up a line for a new one; which one is not architectural (R189, R191, log entry 7). -/
def l1Room (s : State) (core cid sec : Nat) (hint : Hint) : State :=
  let l := (s.core core).l1
  if lineIn l cid sec || l1Free l then s
  else
    let vs := l1Victims l hint
    match vs[Config.freeChoice s.fresh % vs.length]? with
    | none => s
    | some v => writeBackAll { s with fresh := s.fresh + 1 } core (fun x => x.line == v) true

/-- The hint of an access stands on the line it used (R135). -/
def l1Mark (s : State) (core cid sec : Nat) (hint : Hint) : State :=
  if hint = .stream || hint = .keep then
    s.onCore core (fun c => { c with l1 := c.l1.map (fun x => if x.line == (cid, sec / 4) then { x with hint } else x) })
  else s

/-- Invalidate clean sectors of a CID, and the clean bytes of those that hold dirty bytes (R205). -/
def invalidateClean (s : State) (core cid : Nat) : State :=
  s.onCore core (fun c =>
    { c with l1 := (c.l1.filter (fun x => !(x.cid == cid && x.dirty == 0))).map (fun x => if x.cid == cid then { x with valid := false } else x) })

/-- The sectors that n bytes at a place touch. -/
def sectors (key n : Nat) : List Nat := (List.range (secOf (key + n - 1) + 1 - secOf key)).map (fun i => secOf key + i)

/-- Before an access at the home, the core's dirty bytes of the sector go home (R202). -/
def flushSector (s : State) (core cid key n : Nat) : State :=
  (sectors key n).foldl
    (fun s sec =>
      match l1Find (s.core core).l1 cid sec with
      | some x => if x.dirty == 0 then s else writeBack s core x false
      | none => s) s

/-- Cores below 384 have an L1; a curator's accesses are performed at the homes (log entry 13). -/
def hasL1 (core : Nat) : Bool := core < Config.cores

/-- A load at the L1 (R191): the bytes and whether one is poisoned. -/
def l1Load (s : State) (core cid key n : Nat) : (List Byte × Bool) × State :=
  let s := (sectors key n).foldl
    (fun s sec =>
      let x := (l1Find (s.core core).l1 cid sec).getD (Sector.new cid sec)
      if x.valid then s
      else s.onCore core (fun c => { c with l1 := l1Put c.l1 (x.fill (s.sectorWord sec) (s.poison.contains sec)) })) s
  let l := (s.core core).l1
  let byte (a : Nat) : Byte := ((l1Find l cid (secOf a)).map (fun x => x.byte (a % 32))).getD 0
  (((List.range n).map (fun i => byte (key + i)), (sectors key n).any (fun sec => ((l1Find l cid sec).map (·.poison)).getD false)), s)

/-- A sector that one store covers holds that store's bytes and no poison (R200). -/
def Sector.covered (x : Sector) (key n : Nat) : Sector :=
  if key ≤ 32 * x.sec && 32 * x.sec + 32 ≤ key + n then { x with valid := true, poison := false } else x

/-- A store at the L1 (R191), without a fetch. -/
def l1Store (s : State) (who : TRef) (core cid key : Nat) (bs : List Byte) : State :=
  let s := touch s who key bs.length
  let s := bs.zipIdx.foldl
    (fun s b =>
      let a := key + b.2
      s.onCore core (fun c => { c with l1 := l1Put c.l1 (((l1Find c.l1 cid (secOf a)).getD (Sector.new cid (secOf a))).store (a % 32) b.1) })) s
  s.onCore core (fun c => { c with l1 := c.l1.map (fun x => if x.cid == cid then x.covered key bs.length else x) })

/-- Is an access of an agent of a core performed in its L1 (R135, R190, R202)? -/
def atL1 (s : State) (core cid scope : Nat) (hint : Hint) (key : Nat) : Bool :=
  hasL1 core && scope < 3 && l1Takes (s.core core).l1 cid (secOf key) hint

/-- Before an access at the home: at scope 6 the hub's egress and the posted writes drain, and the core's dirty bytes of the
sectors go home (R202). -/
def goHome (s : State) (core cid scope key n : Nat) : State :=
  let s := if scope = 6 then s.drainEgress else s
  if hasL1 core then flushSector s core cid key n else s

/-- A read by an agent of a core at the place of its scope: scratchpad, system window, home from scope 3 on, else L1
(R190, R202, R364). A bypass access uses a line the L1 has there, else the home (R135). -/
def agentRead (s : State) (core cid scope : Nat) (hint : Hint) (key n : Nat) : (List Byte × Bool) × State :=
  if isScratch key || isSys key then
    let r := s.take key n
    ((r.1, false), r.2)
  else if atL1 s core cid scope hint key then
    let r := l1Load (l1Room s core cid (secOf key) hint) core cid key n
    (r.1, l1Mark r.2 core cid (secOf key) hint)
  else
    let s := goHome s core cid scope key n
    ((readBytes s.mem key n, s.poisoned key n), s)

/-- A write by an agent of a core at the place of its scope; at the home it also leaves the core's own copy of those bytes
as written (R190, R202). -/
def agentWrite (s : State) (who : TRef) (core cid scope : Nat) (hint : Hint) (key : Nat) (bs : List Byte) : State :=
  if isScratch key || isSys key then s.put who key bs
  else if atL1 s core cid scope hint key then
    l1Mark (l1Store (l1Room s core cid (secOf key) hint) who core cid key bs) core cid (secOf key) hint
  else
    let s := goHome s core cid scope key bs.length
    let s := s.put who key bs
    if hasL1 core then
      s.onCore core (fun c => { c with l1 := c.l1.filter (fun x => !(x.cid == cid && x.dirty == 0 && (sectors key bs.length).contains x.sec)) })
    else s

end Sys2Proof.Machine
end

