-- ==== Sys2Proof/Machine/Translate.lean ====
section
/-! DEFINITION. Page tables, TLBs, the windows (R18, R155, R195, R312-R316, R364), page requests (R320) and the event
queue (R319). -/

namespace Sys2Proof.Machine

/-- The bits [lo+n-1:lo] of a word, as a number. -/
def bits (w : Nat) (lo n : Nat) : Nat := w / 2 ^ lo % 2 ^ n

/-- What a walk finds (R313). -/
inductive WalkRes
  | leaf (ent : W64) (level : Nat)
  | bad (reason : Nat)
  | absent
  | memerr
  | hole (pa : Nat)
deriving DecidableEq, Repr

/-- Page size of a leaf's level (R312). -/
def pageSize (level : Nat) : Nat := if level = 2 then 1073741824 else if level = 1 then 2097152 else 65536

/-- The table index of a level (R312). -/
def walkIndex (va level : Nat) : Nat :=
  if level = 3 then bits va 46 10 else if level = 2 then bits va 30 16 else if level = 1 then bits va 21 9 else bits va 16 5

/-- A valid leaf's form (R313). -/
def leafRes (ent level : Nat) : WalkRes :=
  let place := bits ent 5 2
  let sz := pageSize level
  let pa := bits ent 16 40 * 65536
  if level = 3 then .bad 6
  else if place = 2 ∧ level = 2 then .bad 5
  else if bits ent 9 7 ≠ 0 ∨ pa % sz ≠ 0 ∨ 192 ≤ bits ent 56 8 then .bad 6
  else if place = 2 ∧ 33554432 < pa + sz then .bad 6
  else .leaf (BitVec.ofNat 64 ent) level

/-- The walk from a table down (R312, R313); tables are read at their homes. -/
def walkGo (s : State) (va : Nat) : Nat → Nat → WalkRes
  | tbl, 0 =>
    let a := tbl + 8 * walkIndex va 0
    if !keyOk a then .hole a
    else if s.poisoned a 8 then .memerr
    else
      let ent := s.get a 8
      if ent % 2 = 0 then .absent else if bits ent 1 1 = 0 then .bad 6 else leafRes ent 0
  | tbl, l + 1 =>
    let a := tbl + 8 * walkIndex va (l + 1)
    if !keyOk a then .hole a
    else if s.poisoned a 8 then .memerr
    else
      let ent := s.get a 8
      if ent % 2 = 0 then .absent
      else if bits ent 1 1 = 1 then leafRes ent (l + 1)
      else if bits ent 2 6 ≠ 0 ∨ bits ent 56 8 ≠ 0 then .bad 6
      else walkGo s va (bits ent 8 48 * 256) l

/-- The walk of a context (R312). -/
def walk (s : State) (cid va : Nat) : WalkRes :=
  match s.ctx? cid with
  | none => .absent
  | some c => walkGo s va c.desc.troot 3

/-- A page that a context maps: address, level, leaf. -/
structure Leaf where
  va : Nat
  level : Nat
  ent : W64
deriving DecidableEq, Repr

/-- The pages mapped from a table down (R312). -/
def leavesGo (s : State) : Nat → Nat → Nat → List Leaf
  | va, tbl, 0 =>
    (List.range 32).flatMap (fun i =>
      let e := s.get (tbl + 8 * i) 8
      if bits e 0 2 = 3 then [{ va := va + i * 65536, level := 0, ent := BitVec.ofNat 64 e }] else [])
  | va, tbl, l + 1 =>
    let n : Nat := if l = 0 then 512 else if l = 1 then 65536 else 1024
    let sz : Nat := if l = 0 then 2097152 else if l = 1 then 1073741824 else 70368744177664
    (List.range n).flatMap (fun i =>
      let e := s.get (tbl + 8 * i) 8
      if bits e 0 1 = 0 then []
      else if bits e 1 1 = 1 then [{ va := va + i * sz, level := l + 1, ent := BitVec.ofNat 64 e }]
      else leavesGo s (va + i * sz) (bits e 8 48 * 256) l)

/-- Every page that a context maps. -/
def leavesOf (s : State) (cid : Nat) : List Leaf :=
  match s.ctx? cid with
  | none => []
  | some c => leavesGo s 0 c.desc.troot 3

/-- What a translation answers: a place, or PROT with its reason, a page fault, poison in a table, no such memory. -/
inductive Xl
  | ok (key : Nat)
  | prot (reason : Nat)
  | absent
  | memerr
  | hole (pa : Nat)
deriving DecidableEq, Repr

/-- Rights by KIND (R306, R313): 1 and 6 read, 2 write, 3 both, 4 fetch. -/
def rightsOk (ent kind : Nat) : Bool :=
  let r := bits ent 2 1 == 1
  let w := bits ent 3 1 == 1
  let x := bits ent 4 1 == 1
  if kind = 2 then w else if kind = 3 then r && w else if kind = 4 then x else if kind = 0 then true else r

/-- The place a leaf gives to an address (R195, R196, R313, R364). KIND 0 asks no right. -/
def leafKey (s : State) (ent : W64) (level va kind : Nat) : Xl :=
  let e := ent.toNat
  let low := va % pageSize level
  let pa := bits e 16 40 * 65536 + low
  let place := bits e 5 2
  if !rightsOk e kind then .prot 4
  else if place = 3 then .prot 5
  else if place = 2 then (if s.cfg.vmode.getLsbD (bits e 56 8) then .prot 5 else .ok (vaultKey (bits e 56 8) pa))
  else if place = 0 ∧ isSys pa then (if kind = 3 then .prot 4 else .ok pa)
  else if pa < Config.hbmBytes then .ok pa
  else .hole pa

/-- Where a mapped page begins (R195). -/
def Leaf.base (l : Leaf) : Nat :=
  let e := l.ent.toNat
  if bits e 5 2 = 2 then vaultKey (bits e 56 8) (bits e 16 40 * 65536) else bits e 16 40 * 65536

/-- The address under which one of some pages maps a place. -/
def vaIn (ls : List Leaf) (key : Nat) : Option Nat :=
  (ls.find? (fun l => l.base ≤ key && key < l.base + pageSize l.level)).map (fun l => l.va + (key - l.base))

/-- The leaf a TLB holds for an address (R314). -/
def tlbFind (l : List TlbEnt) (cid va : Nat) : Option TlbEnt := l.find? (fun e => e.cid == cid && e.va ≤ va && va < e.va + e.size)

/-- The level of a held leaf. -/
def TlbEnt.level (e : TlbEnt) : Nat := if e.size = 1073741824 then 2 else if e.size = 2097152 then 1 else 0

/-- Put a leaf into a core's TLB and its die's second level (R314); the oldest leaves a full one. -/
def tlbFill (s : State) (core : Nat) (e : TlbEnt) : State :=
  if hasL1 core then
    let s := s.onCore core (fun c => { c with tlb := e :: c.tlb.take 511 })
    let d := core / Config.coresPerDie % 4
    { s with l2 := s.l2.set d (e :: (s.l2[d]'(Nat.mod_lt _ (by decide))).take 16383) (Nat.mod_lt _ (by decide)) }
  else s

/-- Translate a global address for an agent of a core (R314): TLB, second level, walk. -/
def xlate (s : State) (core cid va kind : Nat) : Xl × State :=
  let d := core / Config.coresPerDie % 4
  match (if hasL1 core then tlbFind (s.core core).tlb cid va else none) with
  | some e => (leafKey s e.ent e.level va kind, s)
  | none =>
    match (if hasL1 core then tlbFind (s.l2[d]'(Nat.mod_lt _ (by decide))) cid va else none) with
    | some e => (leafKey s e.ent e.level va kind, s.onCore core (fun c => { c with tlb := e :: c.tlb.take 511 }))
    | none =>
      match walk s cid va with
      | .leaf ent level =>
        let sz := pageSize level
        (leafKey s ent level va kind, tlbFill s core { cid, va := va / sz * sz, size := sz, ent })
      | .bad r => (.prot r, s)
      | .absent => (.absent, s)
      | .memerr => (.memerr, s)
      | .hole pa => (.hole pa, s)

/-- The page entry by which an agent of a core reaches an address: its TLB, the second level, the tables (R314). -/
def leafAt (s : State) (core cid va : Nat) : Option W64 :=
  let held := if hasL1 core then
      (tlbFind (s.core core).tlb cid va).orElse (fun _ => tlbFind (s.l2[core / Config.coresPerDie % 4]'(Nat.mod_lt _ (by decide))) cid va)
    else none
  match held with
  | some e => some e.ent
  | none => (match walk s cid va with | .leaf ent _ => some ent | .bad _ | .absent | .memerr | .hole _ => none)

/-- The arbiter of a place that is spread, or of a vault quarter (R195, R348): HBM controllers by address bits [15:12]. -/
def homeArb (key : Nat) : Nat :=
  if 72057594037927936 ≤ key then 0x300 + (key - 72057594037927936) / 33554432 else 0x200 + bits key 12 4

/-- The arbiter of the home of an address (R195, R348, R361): under PLACE 1 the controller that bits [13:12] choose among the four of
the die named in the page entry. The bytes are those of the physical address, whatever its home (log entry 77). -/
def homeOf (s : State) (core cid va key : Nat) : Nat :=
  match leafAt s core cid va with
  | some e =>
    if key < 72057594037927936 ∧ va < 72057594037927936 ∧ bits e.toNat 5 2 = 1 then 0x200 + 4 * bits e.toNat 7 2 + bits key 12 2 else homeArb key
  | none => homeArb key

/-! ## Windows (R18, R155) -/

/-- The base of the local window. -/
def localBase : Nat := 18230571291595767808
/-- The base of the cluster window. -/
def clusterBase : Nat := 18158513697557839872
/-- Is an address in the local window. -/
def inLocal (va : Nat) : Bool := localBase ≤ va
/-- Is an address in the cluster window. -/
def inCluster (va : Nat) : Bool := clusterBase ≤ va && va < clusterBase + 72057594037927936

/-- The member of a gang on core q of its cluster; one that has ended keeps its allotment until the gang retires (R155, R157,
R187). -/
def memberOn (s : State) (w : Wg) (q : Nat) : Option Wg :=
  (s.gang? w.gang).bind (fun g => s.wgs.find? (fun x => g.members.contains x.id && x.core % 8 == q))

/-- Resolve n bytes at an address for a workgroup's agent: the windows, then translation (R18, R155, R315). -/
def resolve (s : State) (w : Option Wg) (core cid va n kind : Nat) : Xl × State :=
  if va < 72057594037927936 then xlate s core cid va kind
  else
    match w with
    | none => (.prot 1, s)
    | some w =>
      if inLocal va then
        (if va - localBase + n ≤ w.size then .ok (scratchKey w.core (w.base + (va - localBase))) else .prot 2, s)
      else if inCluster va then
        let q := (va - clusterBase) / 16777216
        let off := (va - clusterBase) % 16777216
        (match (if q < 8 then memberOn s w q else none) with
          | none => .prot 3
          | some x => if off + n ≤ x.size then .ok (scratchKey x.core (x.base + off)) else .prot 2, s)
      else (.prot 1, s)

/-! ## Device accesses through a context (log entry 15) -/

/-- The place of a context's address for the device itself, no right asked. -/
def devKey (s : State) (cid va : Nat) : Option Nat :=
  if va < 72057594037927936 then
    match walk s cid va with
    | .leaf ent level =>
      (match leafKey s ent level va 0 with
        | .ok k => some k
        | .prot _ | .absent | .memerr | .hole _ => none)
    | .bad _ | .absent | .memerr | .hole _ => none
  else none

/-- Write bytes for the device, each where its page lies; a byte without a page is dropped. -/
def devPut (s : State) (cid : Nat) : Nat → List Byte → State
  | _, [] => s
  | va, b :: bs =>
    let s := match devKey s cid va with
      | some k => s.put .none k [b]
      | none => s
    devPut s cid (va + 1) bs

/-- Read bytes for the device, none where a page is missing; what answers from the system window is outside (R364, log entry 10). -/
def devGet (s : State) (cid va : Nat) : Nat → Option (List Byte)
  | 0 => some []
  | n + 1 =>
    match devKey s cid va, devGet s cid (va + 1) n with
    | some k, some bs => some ((if isSys k then Config.outsideByte (s.fresh + va) else memGet s.mem k) :: bs)
    | _, _ => none

/-- A number read for the device; 0 where a page is missing. -/
def devNum (s : State) (cid va n : Nat) : Nat := ((devGet s cid va n).map ofBytes).getD 0

/-! ## Page requests (R315, R320) -/

/-- Ask for a page, or join the request that stands for it (R316). The name of the request is its RID. -/
def pageRequest (s : State) (cid va kind : Nat) (who : PWho) : Nat × State :=
  match (s.ctx? cid).bind (fun c => c.preqs.find? (fun r => r.va / 65536 == va / 65536)) with
  | some r => (r.rid, s.onCtx cid (fun c => { c with preqs := updFirst (fun x => x.rid == r.rid) (fun x => { x with who := if x.who.contains who then x.who else x.who ++ [who] }) c.preqs }))
  | none =>
    let s' := s.onCtx cid (fun c => { c with preqs := c.preqs ++ [{ rid := s.uid, va, kind, who := [who], posted := false }] })
    (s.uid, { s' with uid := s.uid + 1 })

/-! ## The event queue (R319) -/

/-- Put an entry of 256 bytes into a ring with a 64-byte header, or count it LOST (R319, R344). -/
def ringPost (s : State) (cid base ents esz : Nat) (entry : List Byte) : State :=
  let tail := devNum s cid base 4
  let head := devNum s cid (base + 4) 4
  let s := { s with fresh := s.fresh + 1 }
  if ents = 0 then s
  else if (tail + 4294967296 - head) % 4294967296 = ents then
    devPut s cid (base + 8) (bytesLE 8 (devNum s cid (base + 8) 8 + 1))
  else
    let s := devPut s cid (base + 64 + esz * (tail % ents)) entry
    let s := s.drainEgress
    devPut s cid base (bytesLE 4 (tail + 1))

/-- Post an entry to a context's event queue. -/
def postEntry (s : State) (cid : Nat) (entry : List Byte) : State :=
  match s.ctx? cid with
  | none => s
  | some c => ringPost s cid c.desc.evq c.desc.evqent 256 entry

/-- Post an event of a TYPE with its arguments (R319). -/
def postEvent (s : State) (cid type arg0 arg1 : Nat) : State :=
  postEntry s cid
    (bytesLE 8 (type * 2 ^ 48 + cid * 2 ^ 16) ++ bytesLE 8 s.tick ++ bytesLE 8 arg0 ++ bytesLE 8 arg1 ++ bytesLE 224 0)

end Sys2Proof.Machine
end

