-- ==== Sys2Proof/Machine/Perform.lean ====
section
/-! DEFINITION. Performing outstanding accesses (R130, R131, R136, R202-R205), releases and acquires, the order log
(R348, R349) and the store hash (R352). -/

namespace Sys2Proof.Machine

/-! ## The order log -/

/-- An order chunk (R349). -/
def orderChunk (arb core slot run : Nat) : W64 := BitVec.ofNat 64 (arb * 2 ^ 48 + core * 2 ^ 39 + slot * 2 ^ 27 + run)

/-- A value chunk's data that names an agent as CORE and SLOT, with 24 bits more (R349). -/
def agentVal (core slot n : Nat) : Nat := core * 2 ^ 39 + slot * 2 ^ 27 + n % 2 ^ 24

/-- Is a chunk a value chunk that follows its win (R349); a checkpoint boundary belongs to no win. -/
def isValueChunk (c : W64) : Bool := 65520 ≤ c.toNat / 2 ^ 48 && c.toNat / 2 ^ 48 != 65532

/-- Add a win to a log: the arbiter's last chunk counts it when it names the same agent and no value chunk belongs to it (R349). -/
def addWin (log : List W64) (arb core slot : Nat) : List W64 :=
  let new := log ++ [orderChunk arb core slot 1]
  match (log.zipIdx.filter (fun x => x.1.toNat / 2 ^ 48 == arb)).getLast? with
  | some (c, i) =>
    if c.toNat / 2 ^ 27 = (orderChunk arb core slot 0).toNat / 2 ^ 27 ∧ c.toNat % 2 ^ 24 < 2 ^ 24 - 1
        ∧ ((log[i + 1]?).map isValueChunk).getD false = false then log.set i (c + 1)
    else new
  | none => new

/-- Curators have no arbiter and pass every gate (R348). -/
def isCurator (core : Nat) : Bool := Config.cores ≤ core && core != 511

/-- Log an order point of a context that records (R347, R348). -/
def logWin (s : State) (cid arb core slot : Nat) : State :=
  s.onCtx cid (fun c =>
    if c.dbg.amode = 1 && c.arch.on && !isCurator core then { c with arch := { c.arch with log := addWin c.arch.log arb core slot } } else c)

/-- Log an order point whose value chunk follows: its own chunk has RUN 1 (R349). -/
def logValue (s : State) (cid arb core slot code val : Nat) : State :=
  s.onCtx cid (fun c =>
    if c.dbg.amode = 1 && c.arch.on && !isCurator core then
      { c with arch := { c.arch with log := c.arch.log ++ [orderChunk arb core slot 1, BitVec.ofNat 64 (code * 2 ^ 48 + val % 2 ^ 48)] } }
    else c)

/-! ## The replay gate (R351) -/

/-- A context that replays (R351). -/
def replaying (s : State) (cid : Nat) : Bool := ((s.ctx? cid).map (fun c => c.dbg.amode == 2 && c.arch.on)).getD false

/-- What the gate of an arbiter says to an agent. -/
inductive Gate
  | pass (left : List W64) (value : Option W64)
  | hold
  | exhausted
deriving DecidableEq, Repr

/-- The first chunk of an arbiter must name the agent; its RUN counts down, and a value chunk goes with it (R349, R351). -/
def gateScan (arb core slot : Nat) : List W64 → Gate
  | [] => .exhausted
  | c :: cs =>
    if c.toNat / 2 ^ 48 = arb then
      if c.toNat / 2 ^ 27 = (orderChunk arb core slot 0).toNat / 2 ^ 27 then
        if 1 < c.toNat % 2 ^ 24 then .pass ((c - 1) :: cs) none
        else
          (match cs with
            | v :: rest => if isValueChunk v then .pass rest (some v) else .pass cs none
            | [] => .pass [] none)
      else .hold
    else
      match gateScan arb core slot cs with
      | .pass l v => .pass (c :: l) v
      | .hold => .hold
      | .exhausted => .exhausted

/-- What the gate says to an agent of a context; outside replay it is open. -/
def gateOf (s : State) (cid arb core slot : Nat) : Gate :=
  match s.ctx? cid with
  | some c => if c.dbg.amode == 2 && c.arch.on && !isCurator core then gateScan arb core slot c.arch.left else .pass c.arch.left none
  | none => .pass [] none

/-- Does a value chunk fit a request that takes chunks of a code; 0 takes none (R353). -/
def chunkFits (code : Nat) (v : Option W64) : Bool := match v with | none => code == 0 | some c => c.toNat / 2 ^ 48 == code

/-- Pass the gate, if the log names the agent and a value chunk of the code the request takes (R351, R353). -/
def gateTake (s : State) (cid arb core slot code : Nat) : Option (State × Option W64) :=
  match gateOf s cid arb core slot with
  | .pass l v =>
    if replaying s cid && !isCurator core && !chunkFits code v then none
    else some (s.onCtx cid (fun c => { c with arch := { c.arch with left := l } }), v)
  | .hold | .exhausted => none

/-! ## The store hash (R352) -/

/-- One word into the hash. -/
def hashWord (h : W32) (addr : Nat) (data : W32) : W32 := (h.rotateLeft 5) ^^^ BitVec.ofNat 32 addr ^^^ data

/-- The words of a store of n bytes, in address order. -/
def hashStore (h : W32) (va n : Nat) (data : Nat) : W32 :=
  if n < 4 then hashWord h (va / 4 * 4) (BitVec.ofNat 32 (data % 2 ^ (8 * n) * 2 ^ (8 * (va % 4))))
  else (List.range (n / 4)).foldl (fun h i => hashWord h (va + 4 * i) (BitVec.ofNat 32 (data / 2 ^ (32 * i)))) h

/-- An access that may write words of the hash: what a store instruction, an ATOM or a FADDA does, no push and no header (R352). -/
def Mop.hashes (m : Mop) : Bool := !m.push && (match m.kind with | .load => false | .store | .atom _ _ => true)

/-- Fold performed stores into the hash. -/
def foldStores (h : W32) (l : List HStore) : W32 := l.foldl (fun h x => hashStore h x.va x.size x.data) h

/-- The hash takes, in program order, the performed stores that no outstanding access comes before (R352). -/
def settleHash (t : Thread) : Thread :=
  let open' := (t.mops.filter Mop.hashes).map (·.id)
  let out (x : HStore) : Bool := open'.any (fun i => i < x.id)
  { t with hash := foldStores t.hash (t.hstores.filter (fun x => !out x)), hstores := t.hstores.filter out }

/-- A thread's hash with every store it has performed (R352). -/
def hashOf (t : Thread) : W32 := foldStores t.hash t.hstores

/-- Record and replay keep the hash: access m, which no longer stands among the outstanding ones, has written `data` (R352). -/
def noteStore (s : State) (t : TRef) (cid : Nat) (m : Mop) (data : Nat) : State :=
  if ((s.ctx? cid).map (fun c => c.dbg.amode == 1 || c.dbg.amode == 2)).getD false then
    s.onThread t (fun x =>
      settleHash (if m.push then x else { x with hstores := insertBy (·.id) { id := m.id, va := m.va.toNat, size := m.size, data } x.hstores }))
  else s

/-! ## Release and acquire (R204, R205) -/

/-- The write-backs of a release at a scope by an agent of a core. -/
def release (s : State) (core cid scope : Nat) : State :=
  let s := if 3 ≤ scope && hasL1 core then writeBackAll s core (fun x => x.cid == cid && x.dirty != 0) false else s
  if scope = 6 then s.drainEgress else s

/-- The invalidations of an acquire at a scope. -/
def acquire (s : State) (core cid scope : Nat) : State :=
  if 3 ≤ scope && hasL1 core then invalidateClean s core cid else s

/-! ## The ring's notify word (R230, R231) -/

/-- Workgroups whose TAIL the n bytes at a place touch. -/
def tailOf (s : State) (key n : Nat) : Option Wg :=
  s.wgs.find? (fun w =>
    match s.lrecOf w with
    | none => false
    | some l =>
      let k := scratchKey w.core (w.base + l.ringOff)
      l.ringEnt != 0 && !w.ended && key < k + 4 && k < key + n)

/-- The count of entries that a value of TAIL publishes, HEAD counted since placement (R230, R231). -/
def ringIndex (w : Wg) (v : Nat) : Nat := w.head + (v + 4294967296 - w.head % 4294967296) % 4294967296

/-- A store to TAIL wakes the engine, which notes who published (R231, R244). -/
def noteTail (s : State) (tid : Nat) (t : TRef) (key n : Nat) : State :=
  if isScratch key then
    match tailOf s key n with
    | none => s
    | some w =>
      let v := s.get (scratchKey w.core (w.base + ((s.lrecOf w).map (·.ringOff)).getD 0)) 4
      let s := s.onWg w.id (fun w => { w with woken := true, pubs := w.pubs ++ [(tid, v)] })
      s.onThread t (fun x => if refWg x.ref == some w.id then { x with lastRing := ringIndex w v } else x)
  else s

/-! ## Outstanding accesses -/

/-- Do two accesses share a byte. -/
def Mop.overlaps (a b : Mop) : Bool := a.key < b.key + b.size && b.key < a.key + a.size

/-- Is it an atomic access. -/
def Mop.isAtom (m : Mop) : Bool := match m.kind with | .atom _ _ => true | .load | .store => false
/-- Is it a plain or ordered load. -/
def Mop.isLoad (m : Mop) : Bool := match m.kind with | .load => true | .atom _ _ | .store => false
/-- Is it a store. -/
def Mop.isStore (m : Mop) : Bool := match m.kind with | .store => true | .atom _ _ | .load => false

/-- The accesses of a thread that come before one. -/
def before (ms : List Mop) (id : Nat) : List Mop := ms.takeWhile (fun m => m.id != id)

/-- May an access be performed now, given those before it (R130, R204, R205, R209): not held, behind no acquire, a release
behind nothing, and in program order on its bytes; a load may pass a store, whose bytes it takes, and a load that is not performed at
the home (R203). -/
def mayPerform (ms : List Mop) (m : Mop) : Bool :=
  let es := before ms m.id
  !m.held && !es.any (·.acq) && (!m.rel || es.isEmpty)
    && !es.any (fun e => e.overlaps m && (e.isAtom || !m.isLoad || (e.isLoad && 3 ≤ e.scope && 3 ≤ m.scope)))

/-- Lay the bytes of a thread's own earlier stores over what memory holds (R130). -/
def overlay (es : List Mop) (key : Nat) (bs : List Byte) : List Byte :=
  es.foldl
    (fun bs e =>
      if e.isStore then
        bs.zipIdx.map (fun x =>
          let a := key + x.2
          if e.key ≤ a && a < e.key + e.size then e.data.extractLsb' (8 * (a - e.key)) 8 else x.1)
      else bs) bs

/-- What the thread itself sees at a scratchpad place: memory under its outstanding stores (R130). -/
def viewBytes (s : State) (t : Thread) (key n : Nat) : List Byte := overlay t.mops key (readBytes s.mem key n)

/-- That view as a number. -/
def viewN (s : State) (t : Thread) (key n : Nat) : Nat := ofBytes (viewBytes s t key n)

/-- The new value of an atomic access, none when a CAS finds a mismatch (R136, R143). -/
def atomNew (op : AtomOp) (ty : AtomTy) (old opn cmp : W64) : Option W64 :=
  let wide := ty == .n64 || ty == .s64
  let cut (x : W64) : W64 := if wide then x else (x.setWidth 32).setWidth 64
  let o := cut old
  let b := cut opn
  let sless (x y : W64) : Bool := if wide then BitVec.slt x y else BitVec.slt (x.setWidth 32) (y.setWidth 32)
  let less (x y : W64) : Bool := if ty == .s32 || ty == .s64 then sless x y else BitVec.ult x y
  let half (i : Nat) : Nat :=
    (Fmt.f16.round ((Fmt.f16.dec (bits o.toNat (16 * i) 16)).add (Fmt.f16.dec (bits b.toNat (16 * i) 16))).1).1
  match op with
  | .add | .fadda => some (cut (o + b))
  | .min => some (if less b o then b else o)
  | .max => some (if less o b then b else o)
  | .and => some (o &&& b)
  | .or => some (o ||| b)
  | .xor => some (o ^^^ b)
  | .exch => some b
  | .cas => if o = cut cmp then some b else none
  | .incw => some (if BitVec.ule b o then 0 else o + 1)
  | .fadd => some (BitVec.ofNat 64 (Fmt.f32.round ((Fmt.f32.dec o.toNat).add (Fmt.f32.dec b.toNat)).1).1)
  | .hadd2 => some (BitVec.ofNat 64 (half 1 * 65536 + half 0))

/-- Deliver what an access read (R127, R131, R133, R138); the latch takes a 32-bit result unless a later one came (R131). -/
def deliver (r : Regs) (dst : LdDst) (lrw : Bool) (size : Nat) (v : Nat) : Regs :=
  let lr (r : Regs) (w : W32) : Regs := if lrw then { r with lr := w } else r
  match dst with
  | .none => r
  | .z32 d => (match d with
      | .lr => lr r (BitVec.ofNat 32 v)
      | .v _ | .o _ | .zero => lr (r.put8 d (BitVec.ofNat 32 v)) (BitVec.ofNat 32 v))
  | .s32 d =>
    let w : W32 := if size = 1 then (BitVec.ofNat 8 v).signExtend 32 else (BitVec.ofNat 16 v).signExtend 32
    (match d with
      | .lr => lr r w
      | .v _ | .o _ | .zero => lr (r.put8 d w) w)
  | .pair n => r.setPair n (BitVec.ofNat 64 v)
  | .quad n => r.setQuad n (BitVec.ofNat 128 v)
  | .x n => r.setX n (BitVec.ofNat 64 v)

/-- The scope at which an access is performed: a covered load behind a pending fence goes to the fence's point (R209). -/
def effScope (t : Thread) (m : Mop) : Nat :=
  match t.fence with
  | some f => if m.isLoad && f.upto ≤ m.id && f.kinds.getLsbD m.cov && m.scope < f.scope then f.scope else m.scope
  | none => m.scope

/-- A covered load behind a fence watches the sectors it read (R209). -/
def addWatch (t : Thread) (m : Mop) : Thread :=
  match t.fence with
  | some f =>
    if m.isLoad && f.upto ≤ m.id && f.kinds.getLsbD m.cov then { t with fence := some { f with watch := f.watch ++ sectors m.key m.size } }
    else t
  | none => t

/-- An access returns to its thread; one from before a pending fence also to the state that a rollback restores (R209). -/
def returnTo (t : Thread) (m : Mop) (v : Nat) : Thread :=
  let r := deliver t.r m.dst m.lrw m.size v
  match t.fence with
  | some x => { t with r, fence := some (if m.id < x.upto then { x with snap := deliver x.snap m.dst m.lrs m.size v } else x) }
  | none => { t with r }

/-- Take an access out of the outstanding ones. -/
def dropMop (t : Thread) (id : Nat) : Thread := { t with mops := t.mops.filter (fun m => m.id != id) }

/-- The core of a scratchpad place (R190). -/
def scratchCore (key : Nat) : Nat := (key - 144115188075855872) / 2097152

/-- Where an ordered access is an order point (R348): scope 0-2 its core, 3-6 its home; in a scratchpad the core that holds it. -/
def accessArb (s : State) (t : Thread) (m : Mop) : Nat :=
  if isScratch m.key then scratchCore m.key else if m.scope ≤ 2 then t.core else homeOf s t.core t.cid m.va.toNat m.key

/-- Is an access an order point (R348). -/
def isOrderPoint (m : Mop) : Bool := m.isAtom || ((m.acq || m.rel) && 2 ≤ m.scope)

/-- What performing an access comes to: done, or poison met (R200). -/
inductive Perf
  | done (s : State)
  | poison (s : State) (va : W64) (pc : W64)

/-- Does a CAS find its compare value (R136)? -/
def casHits (s : State) (t : Thread) (m : Mop) : Bool :=
  match m.kind with
  | .atom .cas ty =>
    (atomNew .cas ty (BitVec.ofNat 64 (ofBytes (agentRead s t.core t.cid (effScope t m) m.hint m.key m.size).1.1)) (m.data.setWidth 64)
      m.cmp).isSome
  | .load | .store | .atom _ _ => true

/-- An access as it acts: a CAS that finds a mismatch keeps the acquire part of its order only (R137). -/
def actual (s : State) (t : Thread) (m : Mop) : Mop := { m with rel := m.rel && casHits s t m }

/-- Perform an access of a thread (R130, R136, R191, R202-R205). -/
def perform (s : State) (t : Thread) (m : Mop) : Perf :=
  let sc := effScope t m
  let s := if isOrderPoint m then logWin s t.cid (accessArb s t m) t.core t.slot else s
  let s := if m.rel && casHits s t m then release s t.core t.cid m.scope else s
  match m.kind with
  | .load =>
    let r := agentRead s t.core t.cid sc m.hint m.key m.size
    let s := r.2
    if r.1.2 then .poison (s.onThread t.ref (fun x => dropMop x m.id)) m.va m.pc
    else
      let v := ofBytes (overlay (before t.mops m.id) m.key r.1.1)
      let s := s.onThread t.ref (fun x => addWatch (dropMop (returnTo x m v) m.id) m)
      .done (if m.acq then acquire s t.core t.cid m.scope else s)
  | .store =>
    let s := s.onThread t.ref (fun x => dropMop x m.id)
    let s := agentWrite s t.ref t.core t.cid sc m.hint m.key (bytesLE m.size m.data.toNat)
    let s := noteStore s t.ref t.cid m m.data.toNat
    .done (noteTail s t.tid t.ref m.key m.size)
  | .atom op ty =>
    let r := agentRead s t.core t.cid sc m.hint m.key m.size
    let s := r.2
    if r.1.2 then .poison (s.onThread t.ref (fun x => dropMop x m.id)) m.va m.pc
    else
      let old := ofBytes r.1.1
      let s := s.onThread t.ref (fun x => dropMop (returnTo x m old) m.id)
      let s := (match atomNew op ty (BitVec.ofNat 64 old) (m.data.setWidth 64) m.cmp with
        | none => s
        | some v =>
          let s := agentWrite s t.ref t.core t.cid sc m.hint m.key (bytesLE m.size v.toNat)
          noteTail (noteStore s t.ref t.cid m v.toNat) t.tid t.ref m.key m.size)
      .done (if m.acq then acquire s t.core t.cid m.scope else s)

end Sys2Proof.Machine
end

