-- ==== Sys2Proof/Machine/Groups.lean ====
section
/-! DEFINITION. Convergence registers, barriers and shared frames (R173-R188), and the matrix queue's entries (R250,
R253): what a completed round or phase does. A trap that a completion gives goes to `State.trapq`. -/

namespace Sys2Proof.Machine

/-! ## Causes (R62) -/

/-- ILLEGAL. -/
def cILLEGAL : BitVec 9 := 0x01
/-- PRIV. -/
def cPRIV : BitVec 9 := 0x02
/-- ALIGN. -/
def cALIGN : BitVec 9 := 0x03
/-- PAGE. -/
def cPAGE : BitVec 9 := 0x04
/-- PROT. -/
def cPROT : BitVec 9 := 0x05
/-- MEMERR. -/
def cMEMERR : BitVec 9 := 0x06
/-- FRAME. -/
def cFRAME : BitVec 9 := 0x07
/-- MEMBER. -/
def cMEMBER : BitVec 9 := 0x08
/-- REGION. -/
def cREGION : BitVec 9 := 0x09
/-- TBPOISON. -/
def cTBPOISON : BitVec 9 := 0x0A
/-- STACK. -/
def cSTACK : BitVec 9 := 0x0B
/-- SLOT. -/
def cSLOT : BitVec 9 := 0x0C
/-- QBUDGET. -/
def cQBUDGET : BitVec 9 := 0x0D
/-- DOUBLE. -/
def cDOUBLE : BitVec 9 := 0x0E

/-- Give a trap to a thread; TPC is its current instruction. -/
def askTrap (s : State) (t : Thread) (cause : BitVec 9) (taddr tinfo : W64) : State :=
  { s with trapq := s.trapq ++ [{ ref := t.ref, cause, tpc := t.r.pc, taddr, tinfo, spec := false }] }

/-! ## Threads of a scope -/

/-- A thread is a launched thread of the workgroup. -/
def isMember (w : Nat) (t : Thread) : Bool := match t.ref with | .thr w' _ => w' == w | .none | .rest _ _ | .cur _ => false

/-- The live threads of a workgroup (R156). -/
def liveOf (s : State) (w : Nat) : List Thread := s.all.filter (fun t => isMember w t && !t.exited)

/-- The workgroups of a scope: the workgroup, or the members of its gang. -/
def scopeWgs (s : State) (w : Wg) (cluster : Bool) : List Wg :=
  if cluster then
    match s.gang? w.gang with
    | some g => s.wgs.filter (fun x => g.members.contains x.id)
    | none => [w]
  else [w]

/-- The live threads of a scope. -/
def scopeLive (s : State) (w : Wg) (cluster : Bool) : List Thread := (scopeWgs s w cluster).flatMap (fun x => liveOf s x.id)

/-- WGSIZE of a workgroup. -/
def wgSize (s : State) (w : Wg) : Nat := ((s.lrecOf w).map (·.wgsize)).getD 0

/-- The scope count (R173). -/
def scopeCount (s : State) (w : Wg) (cluster : Bool) : Nat :=
  if cluster then wgSize s w * ((s.lrecOf w).map (·.gang)).getD 1 else wgSize s w

/-- The set index of a thread (R173). -/
def setIndex (s : State) (w : Wg) (cluster : Bool) (t : Thread) : Nat := if cluster then w.member * wgSize s w + t.tid else t.tid

/-- The convergence register k of a scope (R173). -/
def getK (s : State) (w : Wg) (cluster : Bool) (k : Fin 8) : KReg :=
  if cluster then ((s.gang? w.gang).map (fun g => g.k[k])).getD KReg.init else w.k[k]

/-- Write a convergence register. -/
def setK (s : State) (w : Wg) (cluster : Bool) (k : Fin 8) (r : KReg) : State :=
  if cluster then s.onGang w.gang (fun g => { g with k := g.k.set k.val r k.isLt })
  else s.onWg w.id (fun x => { x with k := x.k.set k.val r k.isLt })

/-- A waiting thread goes on after its instruction of n words. -/
def wake (s : State) (ref : TRef) (n : Nat) (f : Regs → Regs) : State :=
  s.onThread ref (fun t => { t with wait := .none, age := 0, r := (f t.r).adv n })

/-- Completion is an acquire by each released thread at the set's scope (R175, R181). -/
def acquireBy (s : State) (ref : TRef) (scope : Nat) : State :=
  match s.thread? ref with
  | some t => acquire s t.core t.cid scope
  | none => s

/-! ## The stack (R12, R13) -/

/-- The window address of a thread's stack base, and the start value of SP. -/
def stackRange (s : State) (t : Thread) : Nat × Nat :=
  match (s.wgOf t).bind s.lrecOf with
  | some l => (localBase + l.loc + t.tid * l.stack, localBase + l.loc + (t.tid + 1) * l.stack)
  | none => (localBase, localBase)

/-- What a push of 8 bytes at an address comes to: the place, or cause, TADDR and TINFO (R13, R18). `low` is the lowest
address that STACK names; with a small SP it may lie above the pushed word, whose own bytes are below the stack base then. -/
def pushCheck (s : State) (t : Thread) (addr low : Nat) : Except (BitVec 9 × W64 × W64) Nat :=
  let a := BitVec.ofNat 64 addr
  if low < (stackRange s t).1 ∨ addr < (stackRange s t).1 ∨ 18446744073709551616 < addr + 8 then .error (cSTACK, BitVec.ofNat 64 low, 0)
  else if t.r.sp.toNat % 8 ≠ 0 then .error (cALIGN, a, 5)
  else
    match (resolve s (s.wgOf t) t.core t.cid addr 8 5).1 with
    | .ok k => .ok k
    | .prot r => .error (cPROT, a, BitVec.ofNat 64 (16 * r + 5))
    | .absent | .memerr | .hole _ => .error (cPROT, a, 21)

/-- The STACK and ALIGN checks of a pop of 8 bytes (R13). -/
def popStack (s : State) (t : Thread) (addr : Nat) : Option (BitVec 9 × W64 × W64) :=
  let a := BitVec.ofNat 64 addr
  if (stackRange s t).2 < addr + 8 then some (cSTACK, a, 0) else if addr % 8 ≠ 0 then some (cALIGN, a, 5) else none

/-- What a pop of 8 bytes at a window address comes to (R13, R18). -/
def popCheck (s : State) (t : Thread) (addr : Nat) : Except (BitVec 9 × W64 × W64) Nat :=
  match popStack s t addr with
  | some e => .error e
  | none =>
    match (resolve s (s.wgOf t) t.core t.cid addr 8 5).1 with
    | .ok k => .ok k
    | .prot r => .error (cPROT, BitVec.ofNat 64 addr, BitVec.ofNat 64 (16 * r + 5))
    | .absent | .memerr | .hole _ => .error (cPROT, BitVec.ofNat 64 addr, 21)

/-! ## Frame headers (R139, R140) and heaps (R184) -/

/-- A frame header. -/
structure Hdr where
  refc : Nat
  size : Nat
  depth : Nat
  scope : Nat
  live : Bool
  pad : Nat
  gen : Nat
  retain : Nat
deriving DecidableEq, Repr

/-- Read a header from its 128 bits (R140). -/
def Hdr.ofNat (w : Nat) : Hdr :=
  { refc := bits w 0 32, size := bits w 32 11, depth := bits w 48 3, scope := bits w 51 3, live := bits w 54 1 == 1,
    pad := bits w 55 1, gen := bits w 64 13, retain := bits w 96 32 }

/-- The 128 bits of a header (R140). -/
def Hdr.toNat (h : Hdr) : Nat :=
  h.refc + h.size * 2 ^ 32 + h.depth * 2 ^ 48 + h.scope * 2 ^ 51 + (if h.live then 2 ^ 54 else 0) + h.pad * 2 ^ 55
    + h.gen * 2 ^ 64 + h.retain * 2 ^ 96

/-- The next generation, from 8,191 back to 1 (R141, R185). -/
def nextGen (g : Nat) : Nat := if 8191 ≤ g then 1 else g + 1

/-- A handle (R11). -/
def handle (scope gen base : Nat) : W64 := BitVec.ofNat 64 (scope * 2 ^ 61 + gen * 2 ^ 48 + base)
/-- The scope of a handle. -/
def hScope (h : W64) : Nat := bits h.toNat 61 3
/-- The generation of a handle. -/
def hGen (h : W64) : Nat := bits h.toNat 48 13
/-- The base of a handle. -/
def hBase (h : W64) : Nat := bits h.toNat 0 48
/-- The address of a handle's frame (R139). -/
def hAddr (h : W64) : Nat := (if hScope h = 3 then clusterBase else localBase) + hBase h

/-- The bytes of a frame of n slots (R144, R182). -/
def frameBytes (n : Nat) : Nat := 16 * ((16 + 4 * n + 15) / 16)

/-- The heap of a scope (R184). -/
def getHeap (s : State) (w : Wg) (cluster : Bool) : Heap :=
  if cluster then ((s.gang? w.gang).map (·.heap)).getD w.heap else w.heap

/-- Write the heap of a scope. -/
def setHeap (s : State) (w : Wg) (cluster : Bool) (h : Heap) : State :=
  if cluster then s.onGang w.gang (fun g => { g with heap := h }) else s.onWg w.id (fun x => { x with heap := h })

/-- The lowest granule from `at` on where n bytes are free (R184). -/
def heapFind (runs : List (Nat × Nat)) (n lim : Nat) : Nat → Nat → Option Nat
  | 0, _ => none
  | fuel + 1, o =>
    if lim < o + n then none
    else
      match runs.find? (fun r => r.1 < o + n && o < r.1 + r.2) with
      | none => some o
      | some r => heapFind runs n lim fuel (r.1 + r.2)

/-- Allocate n bytes (R184). -/
def heapAlloc (h : Heap) (n : Nat) : Option Nat := heapFind h.runs n (h.size / 16 * 16) (h.runs.length + 1) 0

/-- The place of a shared handle's frame. -/
def sharedKey (s : State) (w : Wg) (h : W64) (n : Nat) : Xl := (resolve s (some w) w.core w.cid (hAddr h) n 3).1

/-- Free a shared frame: LIVE 0, the next generation, its granules back (R185). -/
def freeFrame (s : State) (w : Wg) (h : W64) (key : Nat) (d : Hdr) : State :=
  let s := s.putN .none key 16 { d with live := false, gen := nextGen d.gen }.toNat
  let cl := hScope h == 3
  let hp := getHeap s w cl
  let off := (if cl then hBase h % 16777216 else hBase h) - hp.off
  setHeap s w cl { hp with runs := hp.runs.filter (fun r => r.1 != off) }

/-- Give up one hold of a shared frame (R185). -/
def releaseHold (s : State) (w : Wg) (h : W64) : State :=
  match sharedKey s w h 16 with
  | .ok key =>
    let d := Hdr.ofNat (s.get key 16)
    let d' := { d with refc := d.refc - 1 }
    if d'.refc = 0 ∧ d'.retain = 0 then freeFrame s w h key d' else s.putN .none key 16 d'.toNat
  | .prot _ | .absent | .memerr | .hole _ => s

/-! ## Rounds (R175, R176) -/

/-- TINFO of MEMBER (R176). -/
def memberInfo (reason k : Nat) (cluster : Bool) : W64 := BitVec.ofNat 64 (reason + k * 256 + if cluster then 4096 else 0)

/-- Every signer of a round takes a trap; the register becomes `st`. -/
def failRound (s : State) (w : Wg) (cluster : Bool) (k : Fin 8) (kr : KReg) (st : KState) (p : Thread → Option (BitVec 9 × W64 × W64)) : State :=
  let s := setK s w cluster k { kr with st, signs := [], words := [], sw := [] }
  kr.signs.foldl
    (fun s g =>
      match s.thread? g.ref with
      | some t =>
        (match p t with
          | some (c, a, i) => askTrap (s.onThread t.ref (fun x => { x with wait := .none })) t c a i
          | none => s)
      | none => s) s

/-- A disagreement: every signer takes MEMBER, the register is FAULTED (R176). -/
def memberFault (s : State) (w : Wg) (cluster : Bool) (k : Fin 8) (kr : KReg) (reason : Nat) : State :=
  failRound s w cluster k kr .faulted (fun _ => some (cMEMBER, 0, memberInfo reason k.val cluster))

/-- Has the expected group signed (R175). -/
def roundFull (kr : KReg) : Bool :=
  if kr.maskMode then
    (List.range 64).all (fun i => !kr.mask.getLsbD i || kr.signs.any (fun g => g.idx == kr.val.toNat + i))
  else kr.expect ≤ kr.signs.length

/-- The value of KRED over the signers' A (R179). -/
def kredValue (op : Nat) (as : List W32) : W32 :=
  let fsum : Val := as.foldl (fun a x => (a.add (Fmt.f32.dec x.toNat)).1) (.fin true 0 0)
  let fold (f : W32 → W32 → W32) : W32 := match as with | [] => 0 | a :: t => t.foldl f a
  if op = 0 then as.foldl (· + ·) 0
  else if op = 1 then BitVec.ofNat 32 (Fmt.f32.round fsum).1
  else if op = 2 then fold (fun x y => if BitVec.slt y x then y else x)
  else if op = 3 then fold (fun x y => if BitVec.slt x y then y else x)
  else if op = 4 ∨ op = 5 then
    let m := fold (fun x y => BitVec.ofNat 32 (Fmt.f32.minmax (op == 5) x.toNat y.toNat).1)
    if (Fmt.f32.dec m.toNat).isNan then 0x7FC00000 else m
  else if op = 6 then fold (· &&& ·)
  else if op = 7 then fold (· ||| ·)
  else if op = 8 then fold (· ^^^ ·)
  else BitVec.ofNat 32 (as.filter (· != 0)).length

/-- The rank order of KXCH.POS: by set index under a mask, else the order of signing (R178). -/
def posOrder (kr : KReg) : List Sign := if kr.maskMode then sortBy (·.idx) kr.signs else kr.signs

/-- What KXCH gives a signer (R178). -/
def kxchValue (kr : KReg) (pos : Bool) (g : Sign) : W32 :=
  let j := g.i.toNat
  let src := if pos then (posOrder kr)[j]? else kr.signs.find? (fun x => x.idx == j)
  (src.map (·.a)).getD g.a

/-- The register after a completed round: ARMED, its declaration kept (R175). -/
def KReg.armed (kr : KReg) : KReg := { kr with st := .armed, signs := [], words := [], sw := [], mask := 0, expect := 0 }

/-- Release every signer of a completed round, each with its own result. -/
def finishRound (s : State) (w : Wg) (cluster : Bool) (k : Fin 8) (kr : KReg) (f : Sign → Regs → Regs) : State :=
  let s := setK s w cluster k kr.armed
  kr.signs.foldl (fun s g => acquireBy (wake s g.ref g.words (f g)) g.ref (if cluster then 3 else 1)) s

/-- A completed FOPEN round (R182, R183). A signer's own failure is found before an exhausted heap (log entry 80). -/
def finishFopen (s : State) (w : Wg) (cluster : Bool) (k : Fin 8) (kr : KReg) (dep : Nat) : State :=
  let n := (kr.sw.headD 0).toNat
  if n = 0 ∨ 1024 < n then failRound s w cluster k kr .armed (fun _ => some (cILLEGAL, 0, 8))
  else
    let bad (t : Thread) : Option (BitVec 9 × W64 × W64) :=
      if 8 ≤ t.hold.length then some (cFRAME, 0, 10)
      else
        match pushCheck s t (t.r.sp - 8).toNat (t.r.sp - 8).toNat with
        | .error e => some e
        | .ok _ => none
    if kr.signs.any (fun g => ((s.thread? g.ref).bind bad).isSome) then
      failRound s w cluster k kr .faulted
        (fun t => (bad t).orElse (fun _ => some (cMEMBER, 0, memberInfo 6 k.val cluster)))
    else
      let hp := getHeap s w cluster
      match heapAlloc hp (frameBytes n) with
      | none => failRound s w cluster k kr .armed (fun _ => some (cFRAME, 0, 9))
      | some o =>
        let q := ((scopeWgs s w true).find? (fun x => x.member == 0)).map (fun x => x.core % 8)
        let base := if cluster then (q.getD 0) * 16777216 + hp.off + o else hp.off + o
        let h := handle (if cluster then 3 else 1) hp.hgc.toNat base
        let hd : Hdr := { refc := kr.signs.length, size := n, depth := dep, scope := if cluster then 3 else 1, live := true,
                          pad := 0, gen := hp.hgc.toNat, retain := 0 }
        let s := setHeap s w cluster { hp with runs := hp.runs ++ [(o, frameBytes n)], hgc := BitVec.ofNat 13 (nextGen hp.hgc.toNat) }
        let s := match sharedKey s w h (16 + 4 * n) with
          | .ok key => s.put .none key (bytesLE 16 hd.toNat ++ bytesLE (4 * n) 0)
          | .prot _ | .absent | .memerr | .hole _ => s
        let d : Fin 8 := Fin.ofNat 8 dep
        let s := kr.signs.foldl
          (fun s g =>
            match s.thread? g.ref with
            | some t =>
              let sp := t.r.sp - 8
              let s := match pushCheck s t sp.toNat sp.toNat with
                | .ok key => s.putN t.ref key 8 (t.r.getD d).toNat
                | .error _ => s
              s.onThread t.ref (fun x => { x with hold := x.hold ++ [h], r := { x.r with sp := sp } })
            | none => s) s
        finishRound s w cluster k kr (fun _ r => r.setD d h)

/-- Append an entry to a workgroup's matrix queue (R253). -/
def enqueue (s : State) (w : Nat) (op : MOp) : Nat × State :=
  let s' := s.onWg w (fun x => { x with mq := x.mq ++ [{ uid := s.uid, op, begun := false, done := false, susp := none, row := 0 }] })
  (s.uid, { s' with uid := s.uid + 1 })

/-- The members that hold a signer, in order (R250). -/
def participants (s : State) (w : Wg) (cluster : Bool) (kr : KReg) : List Wg :=
  sortBy (·.member) ((scopeWgs s w cluster).filter (fun x => kr.signs.any (fun g => refWg g.ref == some x.id)))

/-- Each participant appends its entry; the signers note it for their tokens (R211, R250). -/
def enqueueAll (s : State) (ps : List Wg) (kr : KReg) (op : Nat → MOp) : State :=
  ps.foldl
    (fun s p =>
      let r := enqueue s p.id (op p.member)
      kr.signs.foldl
        (fun s g => if refWg g.ref == some p.id then s.onThread g.ref (fun t => { t with lastMx := r.1 + 1 }) else s) r.2) s

/-- SPLIT as a count (R250). -/
def Split.num : Split → Nat
  | .one => 1 | .two => 2 | .four => 4

/-- A completed MMA round (R250). -/
def finishMma (s : State) (w : Wg) (cluster : Bool) (k : Fin 8) (kr : KReg) (c : MmaCtl) : State :=
  let ps := participants s w cluster kr
  let n := Split.num c.split
  let m0 := (ps.head?.map (·.member)).getD 0
  let x (i : Nat) : W64 := kr.sw.getD i 0
  if n ≠ 1 ∧ !(ps.length == n && m0 % n == 0 && ps.all (fun p => p.member < m0 + n)) then
    failRound s w cluster k kr .armed (fun _ => some (cILLEGAL, 0, 8))
  else
    let s := enqueueAll s ps kr (fun m => .mma (x 0) (x 1) (x 2) c (if n = 1 then 0 else m - m0))
    finishRound s w cluster k kr (fun _ r => r)

/-- A completed MDRAIN round (R257). -/
def finishMdrain (s : State) (w : Wg) (cluster : Bool) (k : Fin 8) (kr : KReg) (c : DrainCtl) : State :=
  let x (i : Nat) : W64 := kr.sw.getD i 0
  let s := enqueueAll s (participants s w cluster kr) kr (fun _ => .mdrain (x 0) (x 1) (x 2) c)
  finishRound s w cluster k kr (fun _ r => r)

/-- Complete a round (R175). -/
def completeRound (s : State) (w : Wg) (cluster : Bool) (k : Fin 8) (kr : KReg) : State :=
  match kr.op with
  | .ksign => finishRound s w cluster k kr (fun _ r => r)
  | .kxch pos => finishRound s w cluster k kr (fun g r => r.put8 g.dst (kxchValue kr pos g))
  | .kred op => finishRound s w cluster k kr (fun g r => r.put8 g.dst (kredValue op (kr.signs.map (·.a))))
  | .fopen dep => finishFopen s w cluster k kr dep
  | .mma c => finishMma s w cluster k kr c
  | .mdrain c => finishMdrain s w cluster k kr c

/-- Complete the round of a register if its group has signed. -/
def testRound (s : State) (w : Wg) (cluster : Bool) (k : Fin 8) : State :=
  let kr := getK s w cluster k
  if kr.st = .gathering ∧ roundFull kr then completeRound s w cluster k kr else s

/-! ## Barriers (R181) -/

/-- A barrier of a scope. -/
def getBar (s : State) (w : Wg) (cluster : Bool) (id : Fin 16) : Bar :=
  if cluster then ((s.gang? w.gang).map (fun g => g.bars[id])).getD ⟨0, []⟩ else w.bars[id]

/-- Write a barrier. -/
def setBar (s : State) (w : Wg) (cluster : Bool) (id : Fin 16) (b : Bar) : State :=
  if cluster then s.onGang w.gang (fun g => { g with bars := g.bars.set id.val b id.isLt })
  else s.onWg w.id (fun x => { x with bars := x.bars.set id.val b id.isLt })

/-- Threads of the scope that have exited since placement (R181). -/
def exitsOf (s : State) (w : Wg) (cluster : Bool) : Nat :=
  if cluster then ((s.gang? w.gang).map (·.exits)).getD 0 else ((s.wg? w.id).map (·.exits)).getD 0

/-- Complete a phase whose arrivals suffice (R181). -/
def testBar (s : State) (w : Wg) (cluster : Bool) (id : Fin 16) : State :=
  let b := getBar s w cluster id
  if b.arr ≠ [] ∧ b.c - exitsOf s w cluster ≤ b.arr.length then
    let s := setBar s w cluster id ⟨b.c, []⟩
    b.arr.foldl (fun s a => acquireBy (wake s a.1 a.2 (fun r => r)) a.1 (if cluster then 3 else 1)) s
  else s

/-- Test every register and barrier of a scope; barriers complete first, then rounds from k0 to k7 (log entry 81). -/
def testScope (s : State) (w : Nat) (cluster : Bool) : State :=
  let at' (s : State) (f : State → Wg → State) : State := match s.wg? w with | some x => f s x | none => s
  let s := (List.finRange 16).foldl (fun s i => at' s (fun s x => testBar s x cluster i)) s
  (List.finRange 8).foldl (fun s i => at' s (fun s x => testRound s x cluster i)) s

end Sys2Proof.Machine
end

