-- ==== Sys2Proof/Machine/Lists.lean ====
section
/-! DEFINITION. The bucketed worklists' bookkeeping (R280-R298): records, floor, tasks, participants, the front buffers and
the die units. -/

namespace Sys2Proof.Machine

/-- A worklist of a context. -/
def State.wl? (s : State) (cid : Nat) (wl : Fin 4) : Option Worklist := (s.ctx? cid).map (fun c => c.wls[wl])
/-- Change a worklist of a context. -/
def State.onWl (s : State) (cid : Nat) (wl : Fin 4) (f : Worklist → Worklist) : State :=
  s.onCtx cid (fun c => { c with wls := c.wls.set wl.val (f c.wls[wl]) wl.isLt })

/-- The key of a record (R281). -/
def WRec.key (r : WRec) : W32 := r.words.headD 0
/-- The bucket of a key (R281). -/
def bucket (w : Worklist) (key : W32) : Nat := key.toNat / 2 ^ w.shift
/-- b ≤ Fseen + Δ as a unit holds Fseen (R284); an infinite Fseen bounds nothing. -/
def eligible (w : Worklist) (fseen : Option Nat) (b : Nat) : Bool :=
  match fseen with | none => true | some f => b ≤ f + w.delta

/-- The front-buffer records of a worklist on a core. -/
def frontOf (s : State) (core cid : Nat) (wl : Fin 4) : List WRec := (s.core core).front.filter (fun r => r.cid == cid && r.wl == wl.val)

/-- Every present record of a worklist (R284). -/
def present (s : State) (cid : Nat) (wl : Fin 4) (w : Worklist) : List WRec :=
  (s.cores.flatMap (fun c => c.front.filter (fun r => r.cid == cid && r.wl == wl.val)))
    ++ w.units.toList.flatMap (fun u => u.recs ++ u.chunks.flatMap (·.2))

/-- The least of a list of numbers. -/
def least : List Nat → Option Nat
  | [] => none
  | x :: xs => match least xs with | none => some x | some y => some (min x y)

/-- The floor F (R284): the lowest bucket of a present record or a task in flight. -/
def floorOf (s : State) (cid : Nat) (wl : Fin 4) (w : Worklist) : Option Nat :=
  least ((present s cid wl w).map (fun r => bucket w r.key) ++ w.tasks.map (fun t => bucket w t.2))

/-- A thread joins at its first WLPUSH, WLPOP or WLTRY (R285). -/
def wlJoin (w : Worklist) (t : TRef) : Worklist :=
  if w.parts.contains t then w
  else { w with parts := w.parts ++ [t], joined := w.joined + 1, counts := (w.counts.1, w.counts.2.1, w.counts.2.2.1, w.counts.2.2.2 + 1) }

/-- Does a thread hold a task (R284). -/
def wlHeld (w : Worklist) (t : TRef) : Option W32 := (w.tasks.find? (fun x => x.1 == t)).map (·.2)

/-- Retire the task a thread holds, if it holds one (R290). -/
def wlRetire (w : Worklist) (t : TRef) : Worklist :=
  if (wlHeld w t).isSome then
    { w with tasks := w.tasks.filter (fun x => x.1 != t), counts := (w.counts.1, w.counts.2.1, w.counts.2.2.1 + 1, w.counts.2.2.2) }
  else w

/-- The scope of a worklist as a scope code (R282). -/
def wlScope (w : Worklist) : Nat := if w.sys then 6 else 5

/-- WLDONE's effect for a thread: retire with a release at the worklist's scope (R290). -/
def wlDone (s : State) (t : Thread) (wl : Fin 4) : State :=
  match s.wl? t.cid wl with
  | none => s
  | some w =>
    if (wlHeld w t.ref).isSome then
      (release s t.core t.cid (wlScope w)).onWl t.cid wl (fun w => wlRetire w t.ref)
    else s

/-- A participant leaves every worklist of its context (R165, R285). -/
def wlLeave (s : State) (t : Thread) : State :=
  s.onCtx t.cid (fun c => { c with wls := vmap (fun w => { w with parts := w.parts.filter (· != t.ref) }) c.wls })

/-- Lower Fseen to a bucket at the hub and on every die unit (R284). -/
def floorDrop (w : Worklist) (b : Nat) : Worklist :=
  let low (f : Option Nat) : Option Nat := match f with | none => some b | some x => some (min x b)
  { w with fseen := low w.fseen, units := vmap (fun u => { u with fseen := low u.fseen }) w.units }

/-- Is b below Fseen (R288). -/
def belowSeen (w : Worklist) (b : Nat) : Bool := match w.fseen with | none => true | some f => b < f

/-- The general entries in use of a core's front buffer (R292). -/
def generalUsed (c : Core) : Nat := (c.front.filter (fun r => r.resv.isNone)).length

/-- The entry a push takes: a general one, else the reserved one of its depth (R288, R292). -/
def frontRoom (c : Core) (dep : Nat) : Option (Option Nat) :=
  if generalUsed c < 256 then some none
  else if c.front.any (fun r => r.resv == some dep) then none
  else some (some dep)

/-- The die of a core. -/
def dieOf (core : Nat) : Fin 4 := Fin.ofNat 4 (core / Config.coresPerDie)

/-- Records a die unit holds on chip (R292). -/
def unitRoom : Nat := 65536

/-- The records that a die's unit holds on chip, of every worklist and context (R292). -/
def dieHeld (s : State) (d : Fin 4) : Nat := (s.ctxs.map (fun c => (c.wls.toList.map (fun w => (w.units[d]).recs.length)).sum)).sum

/-- A front-buffer record moves to its die unit (R292). -/
def sendRec (s : State) (core : Nat) (r : WRec) : State :=
  let d := dieOf core
  let s := s.onCore core (fun c => { c with front := c.front.erase r })
  s.onWl r.cid (Fin.ofNat 4 r.wl) (fun w =>
    let u := w.units[d]
    { w with units := w.units.set d.val { u with recs := u.recs ++ [{ r with resv := none }] } d.isLt })

/-- A full front buffer sends a record to a die unit that has room, the oldest, before a push takes an entry: a push waits only when
both are full (R292; log entry 101). -/
def sendFull (s : State) (core : Nat) : State :=
  if 256 ≤ generalUsed (s.core core) ∧ dieHeld s (dieOf core) < unitRoom then
    (match (s.core core).front.find? (fun r => r.resv.isNone) with
      | some r => sendRec s core r
      | none => s)
  else s

/-- Place a record in the core's front buffer; the push completes, with a release at the worklist's scope (R288). -/
def wlPlace (s : State) (t : Thread) (wl : Fin 4) (rec : List W32) (entry : Option Nat) : State :=
  let sc := ((s.wl? t.cid wl).map wlScope).getD 5
  let s := release s t.core t.cid sc
  let s := s.onCore t.core (fun c =>
    { c with front := c.front ++ [{ cid := t.cid, wl := wl.val, words := rec, core := t.core, slot := t.slot, num := t.pushes, resv := entry }] })
  let s := s.onWl t.cid wl (fun w => { w with counts := (w.counts.1 + 1, w.counts.2) })
  let s := s.onThread t.ref (fun x => { x with pushes := x.pushes + 1 })
  logWin s t.cid (0x400 + t.core / Config.coresPerDie) t.core t.slot

/-- The records a core reaches that a pop may return: those of the lowest eligible bucket (R284, R289, R293). -/
def popChoices (s : State) (core cid : Nat) (wl : Fin 4) (w : Worklist) : List WRec :=
  let u := w.units[dieOf core]
  let all := (frontOf s core cid wl ++ u.recs ++ u.chunks.flatMap (·.2)).filter (fun r => eligible w u.fseen (bucket w r.key))
  match least (all.map (fun r => bucket w r.key)) with
  | none => []
  | some b => all.filter (fun r => bucket w r.key == b)

/-- Take a record away wherever the core reaches it. -/
def takeRec (s : State) (core cid : Nat) (wl : Fin 4) (r : WRec) : State :=
  if (frontOf s core cid wl).contains r then s.onCore core (fun c => { c with front := c.front.erase r })
  else
    s.onWl cid wl (fun w =>
      let d := dieOf core
      let u := w.units[d]
      let u := if u.recs.contains r then { u with recs := u.recs.erase r }
        else { u with chunks := updFirst (fun c => c.2.contains r) (fun c => (c.1, c.2.erase r)) u.chunks }
      { w with units := w.units.set d.val u d.isLt })

/-- Give a thread a record: v(n) to v(n+3), a task, an acquire, the side-effect bit, the log's value chunk (R289, R349). -/
def popGive (s : State) (t : Thread) (wl : Fin 4) (xa : XReg) (ps : PReg) (v : VReg) (n : Nat) (r : WRec) : State :=
  let sc := ((s.wl? t.cid wl).map wlScope).getD 5
  let s := takeRec s t.core t.cid wl r
  let s := s.onWl t.cid wl (fun w =>
    { w with tasks := w.tasks ++ [(t.ref, r.key)], counts := (w.counts.1, w.counts.2.1 + 1, w.counts.2.2) })
  let s := logValue s t.cid (0x400 + t.core / Config.coresPerDie) t.core t.slot 0xFFFB (agentVal r.core r.slot r.num)
  let s := match refWg t.ref with | some w => s.onWg w (fun x => { x with side := true }) | none => s
  let s := acquire s t.core t.cid sc
  s.onThread t.ref (fun x =>
    { x with wait := .none, age := 0, r := ((((x.r.setRange v.val r.words).setX xa 0).setP ps true).adv n) })

/-- A pop that returns no record: the status, PS false (R289). -/
def popStatus (s : State) (t : Thread) (xa : XReg) (ps : PReg) (n st : Nat) : State :=
  s.onThread t.ref (fun x => { x with wait := .none, age := 0, r := ((x.r.setX xa (BitVec.ofNat 64 st)).setP ps false).adv n })

/-- The status-2 return acquires every participant's releases (R289). -/
def popEnded (s : State) (t : Thread) (wl : Fin 4) (xa : XReg) (ps : PReg) (n : Nat) : State :=
  popStatus (acquire s t.core t.cid (((s.wl? t.cid wl).map wlScope).getD 5)) t xa ps n 2

/-- The threads parked in WLPOP on a worklist. -/
def parkedOn (s : State) (cid : Nat) (wl : Fin 4) : List Thread := s.all.filter (fun t =>
    t.cid == cid && !t.exited && (match t.wait with | .wlpop l _ _ _ => l == wl | _ => false))

end Sys2Proof.Machine
end

