-- ==== Sys2Proof/Machine/Ops.lean ====
section
/-! DEFINITION. Taking an exception (R304-R310), returning from one (R120, R307), the end of a thread (R117, R165) and of a
workgroup (R309), and the one operation by which instructions access memory (R127-R138, R315). -/

namespace Sys2Proof.Machine

/-! ## EXIT (R165) -/

/-- A gathering register after a thread's exit (R165 step 2). -/
def kExit (kr : KReg) (t : TRef) (idx live : Nat) : KReg :=
  if kr.st = .gathering then
    let signs := kr.signs.filter (fun g => g.ref != t)
    if signs.isEmpty then kr.armed
    else
      let off := idx - kr.val.toNat
      { kr with
        signs
        mask := if kr.maskMode && kr.val.toNat ≤ idx && off < 64 then kr.mask &&& ~~~(1#64 <<< off) else kr.mask
        expect := min kr.expect (signs.length + live) }
  else kr

/-- The exit's effect on the sets and barriers of its workgroup and gang (R165 steps 2 and 3), before they are tested. -/
def exitGroups (s : State) (t : Thread) (w : Wg) : State :=
  let unsigned (cluster : Bool) (kr : KReg) : Nat :=
    ((scopeLive s w cluster).filter (fun x => x.ref != t.ref && !kr.signs.any (fun g => g.ref == x.ref))).length
  let s := s.onWg w.id (fun x =>
    { x with exits := x.exits + 1, k := vmap (fun kr => kExit kr t.ref (setIndex s w false t) (unsigned false kr)) x.k })
  s.onGang w.gang (fun g =>
    { g with exits := g.exits + 1, k := vmap (fun kr => kExit kr t.ref (setIndex s w true t) (unsigned true kr)) g.k })

/-- What the exits of a tick satisfy completes in it (R165). -/
def testGroups (s : State) (w : Nat) : State := testScope (testScope s w false) w true

/-- Cancel restoration entries that have not started (R165 step 7). -/
def cancelRest (s : State) (core : Nat) (p : RestEntry → Bool) : State :=
  s.onCore core (fun c => { c with restq := c.restq.filter (fun e => !p e) })

/-- Perform the stores and atomics that an exiting thread has outstanding, in program order (R117). -/
def performAll (s : State) (ref : TRef) : List Mop → State
  | [] => s
  | m :: ms =>
    match s.thread? ref with
    | none => s
    | some t => performAll (match perform s t m with | .done s => s | .poison s _ _ => s) ref ms

/-- The thread gives up the shared frames it holds, as FLEAVE does: its stores are performed and released first (R165 step 6, R185;
log entry 78). -/
def exitHolds (s : State) (t : Thread) (hold : List W64) : State :=
  match s.wgOf t with
  | none => s
  | some w =>
    if hold.isEmpty then s
    else
      let s := performAll s t.ref (((s.thread? t.ref).map (·.mops)).getD [])
      hold.foldl (fun s h => releaseHold (release s t.core t.cid (hScope h)) ((s.wg? w.id).getD w) h) s

/-- What the end of a thread changes at once (R117, R165); `fault` is the end by termination (R309 step 1), which discards what is
outstanding. -/
def exitEffects (s : State) (t : Thread) (fault : Bool) : State :=
  let s := s.onThread t.ref (fun x =>
    { x with
      exited := true, wait := .none, toks := [], fence := none, hold := [], rpend := [], board := []
      mops := if fault then [] else (x.mops.filter (fun m => !m.isLoad)).map (fun m => { m with dst := .none, lrw := false, lrs := false }) })
  let s := match s.wgOf t with
    | some w => exitGroups s t w
    | none => s
  let s := (List.finRange 4).foldl
    (fun s wl => if fault then s.onWl t.cid wl (fun w => wlRetire w t.ref) else wlDone s t wl) s
  let s := exitHolds (wlLeave s t) t t.hold
  cancelRest s t.core (fun e => e.caller == t.ref)

/-- A thread ends (R117, R165). -/
def exitThread (s : State) (t : Thread) (fault : Bool) : State :=
  match refWg t.ref with
  | some w => testGroups (exitEffects s t fault) w
  | none => exitEffects s t fault

/-! ## Termination (R309, R310) -/

/-- What a fault report says beyond its workgroup (R310). -/
structure Report where
  source : Nat
  cause : Nat
  cmderr : Nat
  tpc : W64
  taddr : W64
  tinfo : W64
  ring : Nat
  ch : Nat
  tid : Nat
  aux : Nat
  entry : List Byte
deriving DecidableEq, Repr

/-- The report of a thread's trap. -/
def Report.trap (cause : BitVec 9) (tpc taddr tinfo : W64) (tid : Nat) : Report :=
  { source := 0, cause := cause.toNat, cmderr := 0, tpc, taddr, tinfo, ring := 0, ch := 0, tid, aux := 0, entry := [] }

/-- The tasks the threads of a workgroup hold, as (key, worklist) in increasing TID (R296). -/
def heldTasks (s : State) (w : Wg) : List (Nat × Nat) :=
  let ts := sortBy (·.tid) (liveOf s w.id)
  ts.flatMap (fun t =>
    (List.finRange 4).filterMap (fun wl => ((s.wl? w.cid wl).bind (fun l => wlHeld l t.ref)).map (fun k => (k.toNat, wl.val))))

/-- The 256 bytes of a fault report (R310). -/
def reportBytes (s : State) (w : Wg) (r : Report) (tasks : List (Nat × Nat)) : List Byte :=
  bytesLE 8 (r.cause * 2 ^ 32 + w.cid * 2 ^ 16 + r.cmderr * 256 + r.source) ++ bytesLE 8 s.tick
    ++ bytesLE 8 (w.core * 2 ^ 32 + w.wgid) ++ bytesLE 8 r.tpc.toNat ++ bytesLE 8 r.taddr.toNat ++ bytesLE 8 r.tinfo.toNat
    ++ bytesLE 8 (r.ring * 2 ^ 16 + r.ch * 2 ^ 14 + r.tid) ++ bytesLE 8 r.aux
    ++ (r.entry ++ bytesLE (32 - r.entry.length) 0) ++ bytesLE 8 tasks.length
    ++ ((tasks.take 16).flatMap (fun t => bytesLE 8 (t.2 * 2 ^ 32 + t.1))) ++ bytesLE (8 * (16 - tasks.length)) 0
    ++ bytesLE 24 0

/-- Where the barrier of a copy entry lies (R237): the workgroup, and the place if it is inside the allotment. -/
def copyBar (s : State) (w : Wg) (raw : List Byte) : Option (Wg × Nat) :=
  let off := 32 * bits (ofBytes raw) 48 16
  let dst := ofBytes (raw.drop 16 |>.take 8)
  let home := if inCluster dst then memberOn s w ((dst - clusterBase) / 16777216) else some w
  home.bind (fun h => if off + 16 ≤ h.size then some (h, scratchKey h.core (h.base + off)) else none)

/-- A thread that waits at the barrier of a place takes TBPOISON in the tick in which it is poisoned (R245). -/
def poisonWaiters (s : State) (key : Nat) : State :=
  s.all.foldl
    (fun s t =>
      match t.wait with
      | .tbwait a _ => if (resolve s (s.wgOf t) t.core t.cid a.toNat 16 1).1 = .ok key then askTrap s t cTBPOISON a 0 else s
      | _ => s) s

/-- The barriers of uncompleted entries that lie in another member's allotment are poisoned (R244, R245). -/
def poisonBars (s : State) (w : Wg) (raws : List (List Byte)) : State :=
  raws.foldl
    (fun s raw =>
      match copyBar s w raw with
      | some (h, key) =>
        if h.id = w.id then s
        else
          let v := s.get key 16
          poisonWaiters (s.putN .none key 16 (if bits v 68 1 = 1 then v else v + 2 ^ 68)) key
      | none => s) s

/-- The published entries of a workgroup's ring that the engine has not taken (R230, R231). -/
def untakenRaw (s : State) (w : Wg) : List (List Byte) :=
  match s.lrecOf w with
  | none => []
  | some l =>
    let key := scratchKey w.core (w.base + l.ringOff)
    let n := (s.get key 4 + 4294967296 - w.head % 4294967296) % 4294967296
    if l.ringEnt = 0 ∨ l.ringEnt < n then []
    else (List.range n).map (fun i => readBytes s.mem (key + 64 + 32 * ((w.head + i) % 4294967296 % l.ringEnt)) 32)

/-- The copy engine stops for a workgroup (R244); an entry published and not taken is uncompleted too (log entry 24). -/
def stopCopy (s : State) (w : Wg) : State :=
  let s := poisonBars s w (w.chans.toList.flatten.map (·.raw) ++ untakenRaw s w)
  s.onWg w.id (fun x => { x with copyStop := true, chans := Vector.replicate 4 [] })

/-- A workgroup is terminated in one tick (R309): its threads, restorations and engines stop; one report is posted. -/
def terminate (s : State) (w : Wg) (r : Report) : State :=
  let tasks := heldTasks s w
  let s := s.onWg w.id (fun x => { x with term := true })
  let s := testGroups ((liveOf s w.id).foldl (fun s t => exitEffects s ((s.thread? t.ref).getD t) true) s) w.id
  let isRest (t : Thread) : Bool := match t.ref with | .rest w' _ => w' == w.id | .none | .thr _ _ | .cur _ => false
  let s := { s with threads := s.threads.filter (fun t => !isRest t), cur := if isRest s.cur then Thread.idle else s.cur }
  let s := cancelRest s w.core (fun e => e.w == w.id)
  let s := s.onCore w.core (fun c => { c with evals := c.evals.filter (fun e => e.w != w.id) })
  let s := stopCopy s ((s.wg? w.id).getD w)
  let s := s.onWg w.id (fun x => { x with mq := [], mstep := 0 })
  postEntry s w.cid (reportBytes s w r tasks)

/-! ## Taking an exception (R304, R305) -/

/-- A restoration thread's trap ends it; its caller's results become NaN and a REGION is due (R268). -/
def restorationFault (s : State) (t : Thread) (e : RestEntry) (cause : BitVec 9) (tpc : W64) : State :=
  let info := BitVec.ofNat 64 (if cause = cREGION then e.region + 1024 else e.region + 2048 + cause.toNat * 4096)
  let s := if s.cur.ref == t.ref then { s with cur := Thread.idle } else { s with threads := s.threads.filter (fun x => x.ref != t.ref) }
  s.onThread e.caller (fun c =>
    if c.rpend.any (fun p => p.call == e.call) then
      { c.late (fun r => r.setRange e.resv (List.replicate e.resc 0x7FC00000)) with
        rpend := updFirst (fun p => p.call == e.call) (fun p => { p with failed := some (tpc, info) }) c.rpend }
    else c)

/-- STATE of a queue as a number (R371). -/
def QState.code : QState → Nat
  | .disabled => 0 | .enabled => 1 | .waiting => 2 | .faulted => 3

/-- The device keeps its fields of the queue's descriptor (R371, R379). -/
def syncQueue (s : State) (q : Nat) : State :=
  let pa := s.cfg.qdtab.toNat + 128 * q + 64
  match s.queue? q with
  | none => s
  | some x =>
    if keyOk pa then
      s.put .none pa
        (bytesLE 8 (x.head.toNat + x.phase.toNat * 2 ^ 32) ++ bytesLE 8 (x.st.code + x.verr * 256) ++ bytesLE 8 x.waddr.toNat
          ++ bytesLE 8 x.wthr.toNat)
    else s

/-- Change a queue, and its descriptor with it. -/
def State.setQueue (s : State) (q : Nat) (f : Queue → Queue) : State := syncQueue (s.onQueue q f) q

/-- A curator's round; nothing served yet (R372). -/
def State.round (s : State) (c : Nat) : Round :=
  (s.rounds.find? (fun r => r.c == c)).getD { c, last := 63, lastQ := [], defs := [] }

/-- Change a curator's round. -/
def State.setRound (s : State) (r : Round) : State := { s with rounds := r :: s.rounds.filter (fun x => x.c != r.c) }

/-- The curator deficit of a context. -/
def Round.deficit (r : Round) (cid : Nat) : Int := ((r.defs.find? (fun x => x.1 == cid)).map (·.2)).getD 0

/-- Give a context a curator deficit. -/
def Round.setDeficit (r : Round) (cid : Nat) (d : Int) : Round := { r with defs := (cid, d) :: r.defs.filter (fun x => x.1 != cid) }

/-- A packet ends: the context's curator deficit falls by the instructions it issued, and the curator is free (R372). -/
def endPacket (s : State) (c : Nat) : State :=
  let n : Nat := ((s.curator? c).map (fun x => 4096 - x.left)).getD 0
  let q := ((s.curator? c).map (·.q)).getD 0
  let cid := ((s.queue? q).map (·.cid)).getD 0
  let r := s.round c
  let s := s.setRound (r.setDeficit cid (r.deficit cid - n))
  { s with curators := s.curators.filter (fun x => x.c != c) }

/-- Take a thread out of the machine. -/
def dropThread (s : State) (ref : TRef) : State :=
  if s.cur.ref == ref then { s with cur := Thread.idle } else { s with threads := s.threads.filter (fun x => x.ref != ref) }

/-- A trap on a curator has no handler: the queue is FAULTED and event 12 is posted (R372). -/
def curatorTrap (s : State) (t : Thread) (c : Nat) (cause : BitVec 9) (tpc : W64) : State :=
  let q := ((s.curator? c).map (·.q)).getD 0
  let s := endPacket (dropThread s t.ref) c
  let s := s.setQueue q (fun x => { x with st := .faulted })
  postEvent s t.cid 12 (q + cause.toNat * 65536) tpc.toNat

/-- A thread takes a trap, in one step (R304): the trap registers, then DOUBLE, termination, or the handler. Inside a
speculation it waits for the fence (R210). -/
def takeTrap (s : State) (ref : TRef) (cause : BitVec 9) (tpc taddr tinfo : W64) : State :=
  match s.thread? ref with
  | none => s
  | some t =>
    if t.fence.isSome then s.onThread ref (fun x => { x with wait := .fence })
    else
      match ref, t.rest with
      | .rest _ _, some e => restorationFault s t e cause tpc
      | .cur c, _ => curatorTrap s t c cause tpc
      | _, _ =>
        let s := s.onThread ref (fun x => { x with tcause := cause, tpc, taddr, tinfo, wait := .none, rej := none, trapped := true })
        match s.wgOf t with
        | none => s
        | some w =>
          if t.tmode then terminate s w (Report.trap cDOUBLE tpc taddr (BitVec.ofNat 64 cause.toNat) t.tid)
          else
            let h := ((s.lrecOf w).map (·.handler)).getD 0
            if h = 0 then terminate s w (Report.trap cause tpc taddr tinfo t.tid)
            else s.onThread ref (fun x => { x with tmode := true, r := { x.r with pc := h } })

/-- The selected thread's instruction traps, TPC its main word (R305). -/
def trap (s : State) (cause : BitVec 9) (taddr tinfo : W64) : Out :=
  .next (takeTrap s s.cur.ref cause s.cur.r.pc taddr tinfo)

/-- ILLEGAL with reason 8 (R61). -/
def illegal8 (s : State) : Out := trap s cILLEGAL 0 8

/-- Return from a trap (R120, R307): PC := TPC, TMODE[0] and the trap registers cleared. -/
def trapReturn (t : Thread) : Thread :=
  { t with r := { t.r with pc := t.tpc }, tmode := false, tcause := 0, tpc := 0, taddr := 0, tinfo := 0 }

/-- The selected thread stays at its instruction and waits (R158). -/
def waitAt (s : State) (w : Wait) : Out := .next (s.onCur (fun t => { t with wait := w }))

/-- What a restoration thread may not execute raises REGION there (R268, R305). -/
def outside (s : State) (k : Out) : Out :=
  match s.cur.rest with
  | some e => trap s cREGION 0 (BitVec.ofNat 64 (e.region + 1024))
  | none => k

/-- What does not issue while a speculative fence of the thread is pending (R210). -/
def settled (s : State) (k : Out) : Out := if s.cur.fence.isSome then waitAt s .fence else k

/-- A signing, an arrival or another release by the thread waits until the thread's own accesses are performed (R175, R181,
R185, R204; log entry 18). -/
def drained (s : State) (k : Out) : Out := if s.cur.mops.isEmpty then k else waitAt s .drain

/-- An order point of the selected thread at an arbiter (R348): a replay holds it at the gate, a recording logs it. -/
def orderPoint (s : State) (arb : Nat) (k : State → Out) : Out :=
  match gateTake s s.cur.cid arb s.cur.core s.cur.slot 0 with
  | some (s, _) => k (logWin s s.cur.cid arb s.cur.core s.cur.slot)
  | none => waitAt s (.gate arb 0)

/-! ## Accessing memory -/

/-- An access an instruction asks for. `xb` is its base register, by which a curator's window is found (R373); `named`: LDX, STX,
WLD, WST or ATOM asks (R208); `push`: no store instruction asks (R352). -/
structure MReq where
  kind : MopKind
  va : W64
  size : Nat
  scope : Nat
  acq : Bool
  rel : Bool
  hint : Hint
  data : BitVec 128
  cmp : BitVec 64
  dst : LdDst
  lrw : Bool
  frame : Bool
  named : Bool
  push : Bool
  xb : Option XReg
deriving DecidableEq, Repr

/-- A plain access (R127). -/
def MReq.plain (kind : MopKind) (va : W64) (size : Nat) (xb : Option XReg) : MReq :=
  { kind, va, size, scope := 0, acq := false, rel := false, hint := .default, data := 0, cmp := 0, dst := .none, lrw := false,
    frame := false, named := false, push := false, xb }

/-- KIND of R306. -/
def MopKind.code : MopKind → Nat
  | .load => 1 | .store => 2 | .atom _ _ => 3

/-- TINFO of R306. -/
def info306 (reason kind : Nat) : W64 := BitVec.ofNat 64 (16 * reason + kind)

/-- The kind bit of R208: frame slots; global accesses and those of LDX, STX, WLD, WST and ATOM; other accesses to the windows. -/
def covOf (a : MReq) : Nat :=
  if a.frame then 2
  else if a.named || a.va.toNat < 72057594037927936 then (match a.kind with | .load => 0 | .store | .atom _ _ => 1)
  else 3

/-- The window check of a curator's access (R373): the reason of PROT, if any. -/
def curatorReason (s : State) (a : MReq) : Option Nat :=
  match s.cur.ref with
  | .cur c =>
    let i := (a.xb.map (·.val)).getD 0
    (match (s.curator? c).bind (fun x => x.wins[i - 60]?) with
      | some (base, size) =>
        if i < 60 ∨ a.va.toNat < base ∨ base + size < a.va.toNat + a.size then some 2
        else if i = 60 ∧ a.kind ≠ .load then some 4
        else none
      | none => some 2)
  | .none | .thr _ _ | .rest _ _ => none

/-- The side-effect bit of the selected thread's workgroup (R324). -/
def sideOn (s : State) : State :=
  match refWg s.cur.ref with
  | some w => s.onWg w (fun x => { x with side := true })
  | none => s

/-- An access leaves the local window, or is a store to TAIL: the side-effect bit (R324). -/
def noteSide (s : State) (a : MReq) (key : Nat) : State :=
  if a.kind != .load && (!inLocal a.va.toNat || (tailOf s key a.size).isSome) then sideOn s else s

/-- The outstanding access made of a request at a place. A store inside a speculation is held, so that a rollback leaves no trace
of it (R209; log entry 79). -/
def MReq.mop (a : MReq) (t : Thread) (key : Nat) : Mop :=
  { id := t.nmop, kind := a.kind, va := a.va, key, size := a.size, scope := a.scope, acq := a.acq, rel := a.rel, hint := a.hint,
    data := a.data, cmp := a.cmp, dst := a.dst, lrw := a.lrw, lrs := a.lrw, cov := covOf a,
    held := t.fence.isSome && (match a.kind with | .store => true | .load | .atom _ _ => false), push := a.push, pc := t.r.pc }

/-- The pager has rejected the page of an address for a thread (R315). -/
def rejected (t : Thread) (va : Nat) : Bool := t.rej.map (fun a => a.toNat / 65536) == some (va / 65536)

/-- Go on with the place of n bytes for the selected thread (R315): the ranges and rights, then presence; a missing page
parks the thread, or gives PAGE once the pager has rejected it, whatever is mapped since (R316); inside a speculation it waits for
the fence (R210). -/
def withPlace (s : State) (va : W64) (n kind : Nat) (k : Nat → State → Out) : Out :=
  let x := resolve s (s.wgOf s.cur) s.cur.core s.cur.cid va.toNat n kind
  let s := x.2
  match x.1 with
  | .prot r => trap s cPROT va (info306 r kind)
  | .memerr => trap s cMEMERR va (info306 0 7)
  | .hole pa => .fault (.noSuchMemory pa)
  | .absent =>
    if s.cur.fence.isSome then waitAt s .fence
    else if rejected s.cur va.toNat then trap s cPAGE va (info306 0 kind)
    else
      let r := pageRequest s s.cur.cid va.toNat kind (.thread s.cur.ref)
      waitAt r.2 (.page r.1)
  | .ok key => if va.toNat < 72057594037927936 && rejected s.cur va.toNat then trap s cPAGE va (info306 0 kind) else k key s

/-- Issue an access of the selected thread, then go on with `k` (R129, R131): ALIGN, a curator's window (R373), then the
place. A store to TAIL waits for a pending fence (R210). -/
def issue (s : State) (a : MReq) (k : State → State) : Out :=
  let kc := a.kind.code
  if a.va.toNat % a.size ≠ 0 then trap s cALIGN a.va (info306 0 kc)
  else
    match curatorReason s a with
    | some r => trap s cPROT a.va (info306 r kc)
    | none =>
      withPlace s a.va a.size kc (fun key s =>
        if s.cur.fence.isSome && (tailOf s key a.size).isSome && a.kind != .load then waitAt s .fence
        else
          let s := noteSide s a key
          .next (k (s.onCur (fun t => { t with mops := t.mops ++ [a.mop t key], nmop := t.nmop + 1 }))))

/-- The address of an LM memory operand (R31). -/
def lmAddr (t : Thread) (m : MemArg) (size : Nat) : W64 :=
  let off : W64 := match m.os with
    | .o n => (t.r.o[n.val]'(by omega)).signExtend 64 * BitVec.ofNat 64 size
    | .none => 0
    | .lit w => w.signExtend 64
  t.r.getX m.xb + off + m.k.signExtend 64 * BitVec.ofNat 64 size

/-- A read made at issue comes after an earlier acquire of the thread (R205), and after its atomics (R130). -/
def acquired (s : State) (k : Out) : Out := if s.cur.mops.any (fun m => m.acq || m.isAtom) then waitAt s .drain else k

/-- What of a thread's own accesses a read of n bytes at a place waits for when it is made at issue: an acquire (R205), an atomic on
those bytes; `all`: any access on them, for one that also writes (R130). -/
def blocked (t : Thread) (key n : Nat) (all : Bool) : Bool :=
  t.mops.any (fun m => m.acq || ((all || m.isAtom) && m.key < key + n && key < m.key + m.size))

/-- Note a store made by the thread itself at a scratchpad place: an outstanding store (R12, R130). -/
def pushMop (s : State) (va : W64) (key size : Nat) (data : BitVec 128) : State :=
  let a : MReq := { MReq.plain .store va size none with data, push := true }
  s.onCur (fun t => { t with mops := t.mops ++ [a.mop t key], nmop := t.nmop + 1 })

/-! ## Engines while a gang is saved (R327) -/

/-- Has a launched thread of a workgroup an incomplete token of a kind. -/
def tokenOn (s : State) (w : Nat) (p : Token → Bool) : Bool := (s.all.filter (isMember w)).any (fun t => t.toks.any p)

/-- May an engine take up work of a workgroup: its gang is not being saved, or the save waits for this work (R327). -/
def engineGoes (s : State) (w : Wg) (must : Bool) : Bool := ((s.gang? w.gang).map (fun g => g.way != .save || must)).getD false

end Sys2Proof.Machine
end

