-- ==== Sys2Proof/Machine/Atomics.lean ====
section
/-! DEFINITION. Atomics (R136, R137). -/

namespace Sys2Proof.Machine

/-- Does ORDER carry an acquire. -/
def Order.isAcq : Order → Bool
  | .acquire | .acqRel => true
  | .relaxed | .release => false

/-- Does ORDER carry a release. -/
def Order.isRel : Order → Bool
  | .release | .acqRel => true
  | .relaxed | .acquire => false

/-- Type, size, operand, destination and latch write of an ATOM (R53, R136). -/
def atomPlan (t : Thread) : AtomT → AtomTy × Nat × W64 × LdDst × Bool
  | .n32 d => (.n32, 4, (t.dst8 d).setWidth 64, .z32 d, true)
  | .s32 d => (.s32, 4, (t.dst8 d).setWidth 64, .z32 d, true)
  | .n64 v => (.n64, 8, t.r.pair v, .pair v, false)
  | .s64 v => (.s64, 8, t.r.pair v, .pair v, false)
  | .f32 d => (.f32, 4, (t.dst8 d).setWidth 64, .z32 d, true)
  | .f16x2 d => (.f16x2, 4, (t.dst8 d).setWidth 64, .z32 d, true)

/-- An ATOM of n words with a compare value (R136, R137). -/
def atomAccess (g : Guard) (op : AtomOp) (t : AtomT) (m : MemArg) (oa : OrdArg) (n : Nat) (cmp : W64) (s : State) : Out :=
  let p := atomPlan s.cur t
  guarded g n s
    (outside s (settled s (issue s
      { MReq.plain (.atom op p.1) (lmAddr s.cur m p.2.1) p.2.1 (some m.xb) with
        data := p.2.2.1.setWidth 128, cmp, dst := p.2.2.2.1, lrw := p.2.2.2.2, scope := oa.scope.code
        acq := Order.isAcq oa.order, rel := Order.isRel oa.order, hint := oa.hint, named := true }
      (fun s => s.adv n))))

/-- ATOM.ADD (R136, R137). -/
def execAtomAdd (g : Guard) (t : AtomT) (m : MemArg) (oa : OrdArg) (s : State) : Out :=
  atomAccess g .add t m oa (2 + m.lits) 0 s

/-- ATOM.MIN (R136, R137). -/
def execAtomMin (g : Guard) (t : AtomT) (m : MemArg) (oa : OrdArg) (s : State) : Out :=
  atomAccess g .min t m oa (2 + m.lits) 0 s

/-- ATOM.MAX (R136, R137). -/
def execAtomMax (g : Guard) (t : AtomT) (m : MemArg) (oa : OrdArg) (s : State) : Out :=
  atomAccess g .max t m oa (2 + m.lits) 0 s

/-- ATOM.AND (R136, R137). -/
def execAtomAnd (g : Guard) (t : AtomT) (m : MemArg) (oa : OrdArg) (s : State) : Out :=
  atomAccess g .and t m oa (2 + m.lits) 0 s

/-- ATOM.OR (R136, R137). -/
def execAtomOr (g : Guard) (t : AtomT) (m : MemArg) (oa : OrdArg) (s : State) : Out :=
  atomAccess g .or t m oa (2 + m.lits) 0 s

/-- ATOM.XOR (R136, R137). -/
def execAtomXor (g : Guard) (t : AtomT) (m : MemArg) (oa : OrdArg) (s : State) : Out :=
  atomAccess g .xor t m oa (2 + m.lits) 0 s

/-- ATOM.EXCH (R136, R137). -/
def execAtomExch (g : Guard) (t : AtomT) (m : MemArg) (oa : OrdArg) (s : State) : Out :=
  atomAccess g .exch t m oa (2 + m.lits) 0 s

/-- ATOM.CAS (R136, R137). -/
def execAtomCas (g : Guard) (t : AtomT) (m : MemArg) (oa : OrdArg) (c : CasC) (s : State) : Out :=
  let cmp : W64 := match c with | .w32 a => (s.cur.src8 a).setWidth 64 | .w64 v => s.cur.r.pair v
  atomAccess g .cas t m oa (2 + m.lits + c.lits) cmp s

/-- ATOM.INCW (R136, R137). -/
def execAtomIncw (g : Guard) (t : Dst8) (m : MemArg) (oa : OrdArg) (s : State) : Out :=
  atomAccess g .incw (.n32 t) m oa (2 + m.lits) 0 s

/-- ATOM.FADD writes no flag (R136, R137). -/
def execAtomFadd (g : Guard) (t : Dst8) (m : MemArg) (oa : OrdArg) (s : State) : Out :=
  atomAccess g .fadd (.f32 t) m oa (2 + m.lits) 0 s

/-- ATOM.HADD2 writes no flag (R136, R137). -/
def execAtomHadd2 (g : Guard) (t : Dst8) (m : MemArg) (oa : OrdArg) (s : State) : Out :=
  atomAccess g .hadd2 (.f16x2 t) m oa (2 + m.lits) 0 s

end Sys2Proof.Machine
end

