-- ==== Sys2Proof/Machine/HostOps.lean ====
section
/-! DEFINITION. What system software and the hub share (R317, R318, R346, R371): device tables at physical addresses, the
state of a context, undoing a speculation (R209), halts. -/

namespace Sys2Proof.Machine

/-! ## Device tables (R362) -/

/-- Read n bytes of a device table at a physical address (log entry 15). -/
def tableRead (s : State) (pa n : Nat) (k : List Byte → State → Out) : Out :=
  if keyOk pa && keyOk (pa + n - 1) then
    let r := s.take pa n
    k r.1 r.2
  else .fault (.noSuchMemory pa)

/-- The dword at an offset of a table entry. -/
def dword (bs : List Byte) (off : Nat) : Nat := ofBytes ((bs.drop off).take 8)

/-- STATE of a context as a number (R317). -/
def CState.code : CState → Nat
  | .free => 0 | .idle => 1 | .running => 2 | .saved => 3

/-- Give a context its STATE, and its descriptor with it (R317, R318). -/
def setCtxState (s : State) (cid : Nat) (st : CState) : State :=
  let pa := s.cfg.cdtab.toNat + 128 * cid + 72
  let s := s.onCtx cid (fun c => { c with st })
  if keyOk pa then s.put .none pa (bytesLE 8 st.code) else s

/-- STATE of a CID; one without a context is FREE (R317). -/
def ctxState (s : State) (cid : Nat) : CState := ((s.ctx? cid).map (·.st)).getD .free

/-- The gangs of a context that are placed. -/
def ctxGangs (s : State) (cid : Nat) : List Gang := s.gangs.filter (fun g => g.cid == cid)

/-- The end of a context's last gang makes it IDLE (R317); a launch with pending gangs still keeps a RUNNING one. A context all of whose
gangs system software has asked for is SAVED once they are (log entry 98). -/
def testIdle (s : State) (cid : Nat) : State :=
  match s.ctx? cid with
  | none => s
  | some c =>
    if !(ctxGangs s cid).isEmpty then s
    else if c.saved.isEmpty then
      let s := s.onCtx cid (fun c => { c with leaving := false })
      if c.st = .saved ∨ (c.st = .running ∧ !s.launches.any (fun l => l.cid == cid)) then setCtxState s cid .idle else s
    else if c.st = .running ∧ c.leaving then setCtxState (s.onCtx cid (fun c => { c with leaving := false })) cid .saved
    else s

/-- PRIO and WEIGHT as the descriptors have them now: they take effect at the curator's next round (R318). PART is read again for a
context that has saved gangs (R332). -/
def refreshDescs (s : State) : State :=
  { s with ctxs := s.ctxs.map (fun (c : Ctx) =>
    let pa := s.cfg.cdtab.toNat + 128 * c.cid + 0x40
    let d := s.get pa 8
    let part := if c.saved.isEmpty then c.desc.part else bits (s.get (pa - 8) 8) 0 48
    if keyOk pa && bits d 16 16 != 0 then { c with desc := { c.desc with prio := bits d 32 3, weight := bits d 16 16, part } } else c) }

/-! ## Undoing a speculation (R209, R210) -/

/-- The thread goes back to just after its fence and waits for it; what the undone instructions asked for, held stores and traps
among it, is dropped. A fence that has been rolled back has nothing more to undo. -/
def rollBack (s : State) (ref : TRef) : State :=
  match (s.thread? ref).bind (·.fence) with
  | none => s
  | some f =>
    if f.rolled then s
    else
      let s := { s with trapq := s.trapq.filter (fun x => !(x.ref == ref && x.spec)) }
      s.onThread ref (fun t =>
        { t with
          r := f.snap, wait := .fence, rb := true, board := [], rej := none, issues := t.issues - f.count
          mops := (t.mops.filter (fun m => m.id < f.upto)).map (fun (m : Mop) => { m with lrw := m.lrs })
          fence := some { f with count := 0, watch := [], hit := false, rolled := true } })

/-- The fence of a thread completes (R208, R209): what it covered is performed, held stores go on. -/
def finishFence (s : State) (ref : TRef) : State :=
  match s.thread? ref with
  | none => s
  | some t =>
    match t.fence with
    | none => s
    | some f =>
      let s := acquire (release s t.core t.cid f.scope) t.core t.cid f.scope
      s.onThread ref (fun t =>
        { t with
          fence := none, mops := t.mops.map (fun m => { m with held := false })
          wait := (if t.wait = .fence then .none else t.wait) })

/-! ## Halts (R346) -/

/-- The TYPE 6 event of a halted thread of a workgroup (R319, R346). -/
def haltEventOf (s : State) (t : Thread) (wgid : Nat) (bk : Bool) : State :=
  postEvent s t.cid 6 (t.slot * 2 ^ 41 + t.core * 2 ^ 32 + wgid)
    (t.r.pc.toNat / 4 * 4 + (if t.tmode then 1 else 0) + (if bk then 2 else 0))

/-- The TYPE 6 event of a halted thread on a core. -/
def haltEvent (s : State) (t : Thread) (bk : Bool) : State := haltEventOf s t (((s.wgOf t).map (·.wgid)).getD 0) bk

/-- Change the threads of a context's saved gangs. -/
def State.onSaved (s : State) (f : Thread → Thread) : State :=
  { s with ctxs := s.ctxs.map (fun (c : Ctx) => { c with saved := c.saved.map (fun (v : Saved) => { v with threads := v.threads.map f }) }) }

/-- Ask a thread to halt at its instruction boundary (R346). -/
def Thread.askHalt (t : Thread) : Thread := if t.exited || t.halted || (refWg t.ref).isNone then t else { t with haltReq := true }

/-- A saved thread that is asked to halt is at its boundary: it is halted where it is saved (R346). -/
def haltSaved (s : State) (ref : TRef) : State :=
  match s.ctxs.findSome? (fun c => c.saved.findSome? (fun v => (v.threads.find? (fun t => t.ref == ref)).map (fun t => (t, v)))) with
  | none => s
  | some (t, v) =>
    if !t.haltReq || t.exited then s
    else
      let wgid := ((v.wgs.find? (fun w => refWg ref == some w.id)).map (·.wgid)).getD 0
      haltEventOf (s.onSaved (fun x => if x.ref == ref then { x with halted := true, haltReq := false } else x)) t wgid false

/-- A thread halts (R346): a speculation is undone first (R210). -/
def haltThread (s : State) (ref : TRef) (bk : Bool) : State :=
  match s.thread? ref with
  | none => s
  | some t =>
    if t.exited || t.halted then s
    else
      let s := rollBack s ref
      let s := s.onThread ref (fun t => { t with halted := true, haltReq := false, bkpt := bk })
      match s.thread? ref with
      | some t => haltEvent s t bk
      | none => s

/-- Halt every launched thread of a context, saved ones too (R350). -/
def haltAll (s : State) (cid : Nat) : State :=
  let s := ((s.all.filter (fun t => t.cid == cid && !t.exited && (refWg t.ref).isSome && t.rest.isNone)).map (·.ref)).foldl
    (fun s r => haltThread s r false) s
  let s := s.onSaved (fun t => if t.cid == cid then t.askHalt else t)
  ((((s.ctx? cid).map (·.saved)).getD []).flatMap (fun v => v.threads.map (·.ref))).foldl haltSaved s

end Sys2Proof.Machine
end

