-- ==== Sys2Proof/Machine/Coll.lean ====
section
/-! DEFINITION. Collectives: the tables (R365) and the COLL instructions (R366, R368). -/

namespace Sys2Proof.Machine

/-- Bytes of an element of a DTYPE (R366). -/
def dtSize : DType → Nat
  | .f32 => 4 | .f16 => 2 | .bf16 => 2 | .f64 => 8 | .s32 => 4 | .n32 => 4 | .s64 => 8 | .n64 => 8 | .e4m3 => 1 | .e5m2 => 1

/-- A group entry (R365): members, this device's rank, the address of the device numbers. -/
structure GroupEnt where
  n : Nat
  rank : Nat
  list : Nat
deriving DecidableEq, Repr

/-- Read a group entry; none: not configured (log entry 23). -/
def GroupEnt.ofBytes (bs : List Byte) : Option GroupEnt :=
  let d := dword bs 0
  let n := bits d 0 10 + 1
  let rank := bits d 16 10
  if dword bs 8 = 0 ∨ bits d 10 6 ≠ 0 ∨ bits d 26 38 ≠ 0 ∨ dword bs 16 ≠ 0 ∨ dword bs 24 ≠ 0 ∨ n ≤ rank then none
  else some { n, rank, list := dword bs 8 }

/-- Read a buffer entry: base and byte count; none: not configured (R365). -/
def bufOf (bs : List Byte) : Option (Nat × Nat) :=
  let base := dword bs 0
  let d := dword bs 8
  if bits d 0 40 = 0 ∨ bits d 40 24 ≠ 0 ∨ base % 64 ≠ 0 then none else some (base, bits d 0 40)

/-- Where the collective table of a context lies (R365). -/
def collTable (s : State) (cid : Nat) : Nat := s.cfg.coltab.toNat + 65536 * cid

/-- Bytes the send buffer needs (R366): 0 ALLREDUCE, 1 REDUCESCATTER, 2 ALLGATHER, 3 BROADCAST, 4 ALLTOALL. -/
def sendBytes (cop n b : Nat) : Nat := if cop = 1 ∨ cop = 4 then n * b else b
/-- Bytes the receive buffer needs (R366). -/
def recvBytes (cop n b : Nat) : Nat := if cop = 2 ∨ cop = 4 then n * b else b

/-- The number of a context's last COLL on a group on this device (R368). -/
def lastColl (c : Ctx) (g : Nat) : Nat := ((c.collK.find? (fun x => x.1 == g)).map (·.2)).getD 0

/-- A collective's token (R368). -/
def collToken (g k : Nat) : W64 := BitVec.ofNat 64 (2 * 2 ^ 56 + g * 2 ^ 46 + k % 2 ^ 40)

/-- The collective starts: its number, its token, the release (R366, R368). -/
def collGo (s : State) (c : Ctx) (cop g b : Nat) (ty : DType) (op : ROp) (send recv : Nat × Nat) (xc : XReg) : State :=
  let k := lastColl c g + 1
  let s := release (sideOn s) s.cur.core s.cur.cid 6
  let s := s.onCtx c.cid (fun c =>
    { c with
      collK := (g, k) :: c.collK.filter (fun x => x.1 != g)
      colls := c.colls ++ [{ g, k, cop, ty, op, b, send := send.1, sendLen := send.2, recv := recv.1, recvLen := recv.2, next := 0 }] })
  s.onRegs (fun r => (r.setX xc (collToken g k)).adv 2)

/-- COLL (R366): REGION, a pending fence, the checks, 64 in flight, then the issue. -/
def coll (cop : Nat) (g : Guard) (xa xb xc : XReg) (send recv : BitVec 8) (ty : DType) (op : ROp) (s : State) : Out :=
  guarded g 2 s
    (outside s (settled s
      (let grp := (s.cur.r.getX xa).toNat
       let b := (s.cur.r.getX xb).toNat
       match s.ctx? s.cur.cid with
       | none => illegal8 s
       | some c =>
         if 1024 ≤ grp ∨ b = 0 ∨ b % dtSize ty ≠ 0 then illegal8 s
         else
           tableRead s (collTable s c.cid + 4096 + 32 * grp) 32 (fun ge s =>
             tableRead s (collTable s c.cid + 16 * send.toNat) 16 (fun se s =>
               tableRead s (collTable s c.cid + 16 * recv.toNat) 16 (fun re s =>
                 match GroupEnt.ofBytes ge, bufOf se, bufOf re with
                 | some e, some sb, some rb =>
                   if sb.2 < sendBytes cop e.n b ∨ rb.2 < recvBytes cop e.n b then illegal8 s
                   else if 64 ≤ c.colls.length then waitAt s .coll
                   else drained s (.next (collGo s c cop grp b ty op sb rb xc))
                 | _, _, _ => illegal8 s))))))

/-- COLL.ALLREDUCE (R366). -/
def execCollAllreduce (g : Guard) (xa xb xc : XReg) (send recv : BitVec 8) (ty : DType) (op : ROp) (s : State) : Out :=
  coll 0 g xa xb xc send recv ty op s

/-- COLL.REDUCESCATTER (R366). -/
def execCollReducescatter (g : Guard) (xa xb xc : XReg) (send recv : BitVec 8) (ty : DType) (op : ROp) (s : State) : Out :=
  coll 1 g xa xb xc send recv ty op s

/-- COLL.ALLGATHER (R366). -/
def execCollAllgather (g : Guard) (xa xb xc : XReg) (send recv : BitVec 8) (ty : DType) (s : State) : Out :=
  coll 2 g xa xb xc send recv ty .sum s

/-- COLL.BROADCAST (R366). -/
def execCollBroadcast (g : Guard) (xa xb xc : XReg) (send recv : BitVec 8) (ty : DType) (s : State) : Out :=
  coll 3 g xa xb xc send recv ty .sum s

/-- COLL.ALLTOALL (R366). -/
def execCollAlltoall (g : Guard) (xa xb xc : XReg) (send recv : BitVec 8) (ty : DType) (s : State) : Out :=
  coll 4 g xa xb xc send recv ty .sum s

end Sys2Proof.Machine
end

