-- ==== Sys2Proof/Machine/FrameOps.lean ====
section
/-! DEFINITION. The checks of a handle (R142) and the pushes and pops of the selected thread (R12, R13, R116). -/

namespace Sys2Proof.Machine

/-- A trap that an operation answers: cause, TADDR, TINFO. -/
abbrev TrapInfo := BitVec 9 × W64 × W64

/-- The checks of R142 up to reason 3: the place of the header, and the header. A header whose bytes the windows do not
reach gives PROT with the KIND of the access (R155, R187, log entry 16). -/
def frameCheck (s : State) (t : Thread) (h : W64) (kind : Nat) : Except TrapInfo (Nat × Hdr) :=
  let a := hAddr h
  let bad (r : Nat) : Except TrapInfo (Nat × Hdr) := .error (cFRAME, BitVec.ofNat 64 a, BitVec.ofNat 64 r)
  if h = 0 then .error (cFRAME, 0, 1)
  else if !(hScope h == 0 || hScope h == 1 || hScope h == 3) || hBase h % 16 != 0 then bad 2
  else if hScope h = 0 ∧ ¬((stackRange s t).1 ≤ a ∧ a < (stackRange s t).2) then bad 8
  else
    match (resolve s (s.wgOf t) t.core t.cid a 16 kind).1 with
    | .prot r => .error (cPROT, BitVec.ofNat 64 a, info306 r kind)
    | .absent | .memerr | .hole _ => .error (cPROT, BitVec.ofNat 64 a, info306 1 kind)
    | .ok key =>
      let d := Hdr.ofNat (viewN s t key 16)
      if !d.live || d.gen != hGen h || d.scope != hScope h || (hScope h == 0 && a < t.r.sp.toNat) then bad 3
      else .ok (key, d)

/-- The trap an operation answered, taken by the selected thread. -/
def trapOf (s : State) (e : TrapInfo) : Out := trap s e.1 e.2.1 e.2.2

/-- Go on with what an operation answered, or take its trap. -/
def orTrap {α : Type} (s : State) (x : Except TrapInfo α) (k : α → Out) : Out :=
  match x with
  | .error e => trapOf s e
  | .ok a => k a

/-- Push 8 bytes: SP − 8, STACK, ALIGN and PROT checked first (R12, R13, R116). -/
def pushThen (s : State) (v : W64) (k : State → Out) : Out :=
  let a := s.cur.r.sp - 8
  orTrap s (pushCheck s s.cur a.toNat a.toNat) (fun key =>
    k ((pushMop s a key 8 (v.setWidth 128)).onRegs (fun r => { r with sp := a })))

/-- Is the header that a handle names written by an earlier access of the thread that must be performed first. -/
def headerBusy (s : State) (h : W64) (kind : Nat) : Bool :=
  match (resolve s (s.wgOf s.cur) s.cur.core s.cur.cid (hAddr h) 16 kind).1 with
  | .ok key => blocked s.cur key 16 (kind == 3 && hScope h != 0)
  | .prot _ | .absent | .memerr | .hole _ => false

/-- Go on with the frame a handle names, or take the trap of its checks (R142). -/
def withFrame (s : State) (h : W64) (kind : Nat) (k : Nat × Hdr → Out) : Out :=
  if headerBusy s h kind then waitAt s .drain else orTrap s (frameCheck s s.cur h kind) k

/-- Read the 8 bytes that a pop at an address takes: STACK and ALIGN (R13), then a load of the thread at its place, made at issue,
under its own outstanding stores (R116, R129, R130, R200, R209). -/
def popAt (s : State) (va : W64) (k : W64 → State → Out) : Out :=
  match popStack s s.cur va.toNat with
  | some e => trapOf s e
  | none =>
    withPlace s va 8 5 (fun key s =>
      if blocked s.cur key 8 false then waitAt s .drain
      else
        let m := (MReq.plain .load va 8 none).mop s.cur key
        let r := agentRead s s.cur.core s.cur.cid (effScope s.cur m) .default key 8
        if r.1.2 then trap r.2 cMEMERR va (info306 0 5)
        else k (BitVec.ofNat 64 (ofBytes (overlay s.cur.mops key r.1.1))) (r.2.onCur (fun t => addWatch t m)))

/-- Pop 8 bytes at SP (R12, R13, R116). -/
def popThen (s : State) (k : W64 → State → Out) : Out :=
  popAt s s.cur.r.sp (fun v t => k v (t.onRegs (fun r => { r with sp := r.sp + 8 })))

end Sys2Proof.Machine
end

