-- ==== Sys2Proof/Machine/Control.lean ====
section
/-! DEFINITION. Control flow and traps (R115-R120, R123). -/

namespace Sys2Proof.Machine

/-- PC + 4·sext(DISP) (R34, R115). -/
def branchTarget (t : Thread) (disp : BitVec 21) : W64 := t.r.pc + 4 * disp.signExtend 64

/-- The ALIGN of check(t) (R116). -/
def targetTrap (tgt : W64) : TrapInfo := (cALIGN, tgt, info306 0 4)

/-- check(t): a target that is no multiple of 4 (R116). -/
def badTarget (tgt : W64) : Bool := tgt.toNat % 4 != 0

/-- The regroup window of the selected thread (R163): 0 where it is no launched thread. -/
def regroupOf (s : State) : Nat :=
  match s.cur.ref with
  | .thr _ _ => (((s.wgOf s.cur).bind s.lrecOf).map (·.regroup)).getD 0
  | .none | .rest _ _ | .cur _ => 0

/-- NOP ignores its bits (R123). -/
def execNop (_bits : BitVec 25) (s : State) : Out :=
  .next (s.adv 1)

/-- BRA (R115). -/
def execBra (g : Guard) (disp : BitVec 21) (s : State) : Out :=
  guarded g 1 s (.next (s.onRegs (fun r => { r with pc := branchTarget s.cur disp })))

/-- BRD: a taken one is held at its target while REGROUP is not 0 (R115, R163). -/
def execBrd (g : Guard) (disp : BitVec 21) (s : State) : Out :=
  guarded g 1 s
    (let tgt := branchTarget s.cur disp
     let s := s.onRegs (fun r => { r with pc := tgt })
     .next (if regroupOf s = 0 then s else s.onCur (fun t => { t with wait := .hold tgt s.tick })))

/-- CALL (R116). -/
def execCall (g : Guard) (disp : BitVec 21) (s : State) : Out :=
  guarded g 1 s
    (outside s (pushThen s (s.cur.r.pc + 4) (fun s => .next (s.onRegs (fun r => { r with pc := branchTarget s.cur disp })))))

/-- CALLR: STACK, then the two ALIGNs, then PROT of the push (R63, R116). -/
def execCallr (g : Guard) (a : XReg) (s : State) : Out :=
  guarded g 1 s
    (outside s
    (let tgt := s.cur.r.getX a
     let sp := s.cur.r.sp - 8
     let late : Bool := match pushCheck s s.cur sp.toNat sp.toNat with | .error e => e.1 == cPROT | .ok _ => true
     if badTarget tgt && late then trapOf s (targetTrap tgt)
     else pushThen s (s.cur.r.pc + 4) (fun s => .next (s.onRegs (fun r => { r with pc := tgt })))))

/-- RET (R116). -/
def execRet (g : Guard) (s : State) : Out :=
  guarded g 1 s
    (outside s (popThen s (fun tgt s' =>
      if badTarget tgt then trapOf s (targetTrap tgt) else .next (s'.onRegs (fun r => { r with pc := tgt })))))

/-- JMP (R116). -/
def execJmp (g : Guard) (a : XReg) (s : State) : Out :=
  guarded g 1 s
    (let tgt := s.cur.r.getX a
     if badTarget tgt then trapOf s (targetTrap tgt) else .next (s.onRegs (fun r => { r with pc := tgt })))

/-- EXIT (R117, R165). -/
def execExit (g : Guard) (s : State) : Out :=
  guarded g 1 s (outside s (settled s (.next (exitThread s s.cur false))))

/-- YIELD sets the age to 0 (R118, R161). -/
def execYield (g : Guard) (s : State) : Out :=
  guarded g 1 s (settled s (.next ((s.onCur (fun t => { t with age := 0 })).adv 1)))

/-- TRAP: TPC is the next word (R119). -/
def execTrap (g : Guard) (n : BitVec 8) (s : State) : Out :=
  guarded g 1 s
    (outside s (settled s (.next (takeTrap s s.cur.ref (BitVec.ofNat 9 (256 + n.toNat)) (s.cur.r.pc + 4) 0 (n.setWidth 64)))))

/-- TRET (R120, R307). -/
def execTret (g : Guard) (s : State) : Out :=
  guarded g 1 s (settled s (if s.cur.tmode then .next (s.onCur trapReturn) else illegal8 s))

end Sys2Proof.Machine
end

