-- ==== Sys2Proof/Machine/Engine.lean ====
section
/-! DEFINITION. How the engines of a core read and write spans of memory (R213, R232, R249, R262, R315): piece by piece,
through the windows or the context's translation, at the core's L1 and the scratchpads. -/

namespace Sys2Proof.Machine

/-- What an engine's access comes to: bytes (none for a write), a fault with TADDR and TINFO, an absent page, no memory. -/
inductive Rd
  | ok (bs : List Byte)
  | bad (cause : BitVec 9) (va : W64) (info : W64)
  | absent (va : Nat)
  | hole (pa : Nat)
deriving DecidableEq, Repr

/-- The pieces of n bytes from an address, none of which crosses a multiple of 16. -/
def pieces (va n : Nat) : List (Nat × Nat) :=
  if n = 0 then []
  else
    (List.range ((va + n - 1) / 16 + 1 - va / 16)).map (fun i =>
      let b := 16 * (va / 16 + i)
      let lo := max va b
      (lo, min (va + n) (b + 16) - lo))

/-- Read one piece; `ms` are the accesses of a thread whose own stores are seen. -/
def readPiece (s : State) (w : Option Wg) (core cid : Nat) (ms : List Mop) (kind va n : Nat) : Rd × State :=
  let x := resolve s w core cid va n kind
  let a := BitVec.ofNat 64 va
  match x.1 with
  | .prot r => (.bad cPROT a (info306 r kind), x.2)
  | .memerr => (.bad cMEMERR a (info306 0 7), x.2)
  | .absent => (.absent va, x.2)
  | .hole pa => (.hole pa, x.2)
  | .ok key =>
    let r := agentRead x.2 core cid 0 .default key n
    if r.1.2 then (.bad cMEMERR a (info306 0 kind), r.2) else (.ok (overlay ms key r.1.1), r.2)

/-- Read the pieces in order, latest first in `acc`, up to the first that fails. -/
def readPieces (w : Option Wg) (core cid : Nat) (ms : List Mop) (kind : Nat) :
    List (Nat × Nat) → State → List (List Byte) → Rd × State
  | [], s, acc => (.ok acc.reverse.flatten, s)
  | p :: ps, s, acc =>
    match readPiece s w core cid ms kind p.1 p.2 with
    | (.ok bs, s) => readPieces w core cid ms kind ps s (bs :: acc)
    | (.bad c a i, s) => (.bad c a i, s)
    | (.absent a, s) => (.absent a, s)
    | (.hole a, s) => (.hole a, s)

/-- Read n bytes. -/
def engineRead (s : State) (w : Option Wg) (core cid : Nat) (ms : List Mop) (va n kind : Nat) : Rd × State :=
  readPieces w core cid ms kind (pieces va n) s []

/-- Write one piece at the core's L1 or a scratchpad; a store to TAIL is noted. -/
def writePiece (s : State) (w : Option Wg) (core cid : Nat) (va : Nat) (bs : List Byte) : Rd × State :=
  let x := resolve s w core cid va bs.length 2
  let a := BitVec.ofNat 64 va
  match x.1 with
  | .prot r => (.bad cPROT a (info306 r 2), x.2)
  | .memerr => (.bad cMEMERR a (info306 0 7), x.2)
  | .absent => (.absent va, x.2)
  | .hole pa => (.hole pa, x.2)
  | .ok key => (.ok [], noteTail (agentWrite x.2 .none core cid 0 .default key bs) 0 .none key bs.length)

/-- Write the pieces in order; the number written so far is counted in `done`. -/
def writePieces (w : Option Wg) (core cid : Nat) : List (Nat × Nat) → List Byte → State → Nat → (Rd × Nat) × State
  | [], _, s, done => ((.ok [], done), s)
  | p :: ps, bs, s, done =>
    match writePiece s w core cid p.1 (bs.take p.2) with
    | (.ok _, s) => writePieces w core cid ps (bs.drop p.2) s (done + p.2)
    | (r, s) => ((r, done), s)

/-- Write bytes; the answer says how many were written before a failure. -/
def engineWrite (s : State) (w : Option Wg) (core cid va : Nat) (bs : List Byte) : (Rd × Nat) × State :=
  writePieces w core cid (pieces va bs.length) bs s 0

end Sys2Proof.Machine
end

