-- ==== Sys2Proof/Machine/LaneInt.lean ====
section
/-! DEFINITION. Integer and bit instructions of the lane set (R81-R87). -/

namespace Sys2Proof.Machine

/-- An instruction of the LA format whose result is a function of a and b (R78). -/
def laneBin (f : W32 → W32 → W32) (g : Guard) (d : Dst8) (a : Src8) (b : Src5) (s : State) : Out :=
  laneWrite g d (1 + a.lits + b.lits) (f (s.cur.src8 a) (s.cur.src5 b)) s

/-- An instruction of the LU format (R78). -/
def laneUn (f : W32 → W32) (g : Guard) (d : Dst8) (a : Src8) (s : State) : Out :=
  laneWrite g d (1 + a.lits) (f (s.cur.src8 a)) s

/-- SAR (R83). -/
def sarW (a b : W32) : W32 := if b.toNat < 32 then a.sshiftRight b.toNat else if a.msb then 0xFFFFFFFF else 0

/-- The position, clipped to 32, of a field descriptor (R84). -/
def bfPos (b : W32) : Nat := min (b.toNat % 256) 32

/-- The width, clipped to the word, of a field descriptor (R84). -/
def bfWidth (b : W32) : Nat := min (b.toNat / 256 % 256) (32 - bfPos b)

/-- The field mask of a descriptor (R84). -/
def bfMask (b : W32) : W32 := BitVec.ofNat 32 ((2 ^ bfWidth b - 1) * 2 ^ bfPos b)

/-- BFEN (R84). -/
def bfenW (a b : W32) : W32 := (a &&& bfMask b) >>> bfPos b

/-- BFES (R84). -/
def bfesW (a b : W32) : W32 :=
  let r := bfenW a b
  let w := bfWidth b
  if w ≠ 0 ∧ r.getLsbD (w - 1) then r ||| BitVec.ofNat 32 (4294967296 - 2 ^ w) else r

/-- BFI with the latch's former value (R84). -/
def bfiW (lr a b : W32) : W32 := (a &&& ~~~(bfMask b)) ||| ((lr <<< bfPos b) &&& bfMask b)

/-- Byte i of PRMT (R85). -/
def prmtByte (a b : W32) (i : Nat) : Nat :=
  let q := b.toNat / 2 ^ (4 * i) % 16
  let byte := a.toNat / 2 ^ (8 * (q % 4)) % 256
  if q / 4 % 2 = 1 then 0 else if q / 8 = 1 then (if 128 ≤ byte then 255 else 0) else byte

/-- PRMT (R85). -/
def prmtW (a b : W32) : W32 :=
  BitVec.ofNat 32 (prmtByte a b 0 + 256 * prmtByte a b 1 + 65536 * prmtByte a b 2 + 16777216 * prmtByte a b 3)

/-- Ones of a word of n bits (R87, R105). -/
def popcount {n : Nat} (w : BitVec n) : Nat := (List.range n).foldl (fun c i => if w.getLsbD i then c + 1 else c) 0

/-- Zeros from the first bit on, bit j of the search being bit p j of the word. -/
def zerosFrom {n : Nat} (w : BitVec n) (p : Nat → Nat) : Nat := ((List.range n).takeWhile (fun j => !w.getLsbD (p j))).length

/-- Leading zeros. -/
def clzW {n : Nat} (w : BitVec n) : Nat := zerosFrom w (fun j => n - 1 - j)

/-- Trailing zeros. -/
def ctzW {n : Nat} (w : BitVec n) : Nat := zerosFrom w (fun j => j)

/-- The bytes of a word of n bytes in the opposite order (R87). -/
def bswapW {n : Nat} (w : BitVec n) : BitVec n :=
  BitVec.ofNat n ((List.range (n / 8)).foldl (fun r i => r * 256 + w.toNat / 2 ^ (8 * i) % 256) 0)

/-- IADD (R81). -/
def execIadd (g : Guard) (d : Dst8) (a : Src8) (b : Src5) (s : State) : Out :=
  laneBin (fun a b => a + b) g d a b s

/-- ISUB (R81). -/
def execIsub (g : Guard) (d : Dst8) (a : Src8) (b : Src5) (s : State) : Out :=
  laneBin (fun a b => a - b) g d a b s

/-- IMUL (R81). -/
def execImul (g : Guard) (d : Dst8) (a : Src8) (b : Src5) (s : State) : Out :=
  laneBin (fun a b => a * b) g d a b s

/-- IMULHS (R81). -/
def execImulhs (g : Guard) (d : Dst8) (a : Src8) (b : Src5) (s : State) : Out :=
  laneBin (fun a b => BitVec.ofInt 32 (a.toInt * b.toInt / 4294967296)) g d a b s

/-- IMULHN (R81). -/
def execImulhn (g : Guard) (d : Dst8) (a : Src8) (b : Src5) (s : State) : Out :=
  laneBin (fun a b => BitVec.ofNat 32 (a.toNat * b.toNat / 4294967296)) g d a b s

/-- IMAD: D is the third source (R82). -/
def execImad (g : Guard) (d : Dst8) (a : Src8) (b : Src5) (s : State) : Out :=
  laneBin (fun a b => a * b + s.cur.dst8 d) g d a b s

/-- ISAD: D is the third source (R82). -/
def execIsad (g : Guard) (d : Dst8) (a : Src8) (b : Src5) (s : State) : Out :=
  laneBin (fun a b => BitVec.ofNat 32 (a.toInt - b.toInt).natAbs + s.cur.dst8 d) g d a b s

/-- IMIN (R81). -/
def execImin (g : Guard) (d : Dst8) (a : Src8) (b : Src5) (s : State) : Out :=
  laneBin (fun a b => if BitVec.slt b a then b else a) g d a b s

/-- IMAX (R81). -/
def execImax (g : Guard) (d : Dst8) (a : Src8) (b : Src5) (s : State) : Out :=
  laneBin (fun a b => if BitVec.slt a b then b else a) g d a b s

/-- NMIN (R81). -/
def execNmin (g : Guard) (d : Dst8) (a : Src8) (b : Src5) (s : State) : Out :=
  laneBin (fun a b => if BitVec.ult b a then b else a) g d a b s

/-- NMAX (R81). -/
def execNmax (g : Guard) (d : Dst8) (a : Src8) (b : Src5) (s : State) : Out :=
  laneBin (fun a b => if BitVec.ult a b then b else a) g d a b s

/-- AND (R81). -/
def execAnd (g : Guard) (d : Dst8) (a : Src8) (b : Src5) (s : State) : Out :=
  laneBin (fun a b => a &&& b) g d a b s

/-- OR (R81). -/
def execOr (g : Guard) (d : Dst8) (a : Src8) (b : Src5) (s : State) : Out :=
  laneBin (fun a b => a ||| b) g d a b s

/-- XOR (R81). -/
def execXor (g : Guard) (d : Dst8) (a : Src8) (b : Src5) (s : State) : Out :=
  laneBin (fun a b => a ^^^ b) g d a b s

/-- ANDN (R81). -/
def execAndn (g : Guard) (d : Dst8) (a : Src8) (b : Src5) (s : State) : Out :=
  laneBin (fun a b => a &&& ~~~b) g d a b s

/-- SHL (R83). -/
def execShl (g : Guard) (d : Dst8) (a : Src8) (b : Src5) (s : State) : Out :=
  laneBin (fun a b => if b.toNat < 32 then a <<< b.toNat else 0) g d a b s

/-- SHR (R83). -/
def execShr (g : Guard) (d : Dst8) (a : Src8) (b : Src5) (s : State) : Out :=
  laneBin (fun a b => if b.toNat < 32 then a >>> b.toNat else 0) g d a b s

/-- SAR (R83). -/
def execSar (g : Guard) (d : Dst8) (a : Src8) (b : Src5) (s : State) : Out :=
  laneBin (fun a b => sarW a b) g d a b s

/-- BFEN (R84). -/
def execBfen (g : Guard) (d : Dst8) (a : Src8) (b : Src5) (s : State) : Out :=
  laneBin (fun a b => bfenW a b) g d a b s

/-- BFES (R84). -/
def execBfes (g : Guard) (d : Dst8) (a : Src8) (b : Src5) (s : State) : Out :=
  laneBin (fun a b => bfesW a b) g d a b s

/-- BFI (R84). -/
def execBfi (g : Guard) (d : Dst8) (a : Src8) (b : Src5) (s : State) : Out :=
  laneBin (fun a b => bfiW s.cur.r.lr a b) g d a b s

/-- PRMT (R85). -/
def execPrmt (g : Guard) (d : Dst8) (a : Src8) (b : Src5) (s : State) : Out :=
  laneBin (fun a b => prmtW a b) g d a b s

/-- CSEL executes whatever the guard; the guard selects (R86, R29). -/
def execCsel (g : Guard) (d : Dst8) (a : Src8) (b : Src5) (s : State) : Out :=
  laneBin (fun a b => if s.cur.r.sel g then a else b) none d a b s

/-- MOV (R87). -/
def execMov (g : Guard) (d : Dst8) (a : Src8) (s : State) : Out :=
  laneUn (fun a => a) g d a s

/-- NOT (R87). -/
def execNot (g : Guard) (d : Dst8) (a : Src8) (s : State) : Out :=
  laneUn (fun a => ~~~a) g d a s

/-- INEG (R87). -/
def execIneg (g : Guard) (d : Dst8) (a : Src8) (s : State) : Out :=
  laneUn (fun a => -a) g d a s

/-- IABS (R87). -/
def execIabs (g : Guard) (d : Dst8) (a : Src8) (s : State) : Out :=
  laneUn (fun a => if a.msb then -a else a) g d a s

/-- POPC (R87). -/
def execPopc (g : Guard) (d : Dst8) (a : Src8) (s : State) : Out :=
  laneUn (fun a => BitVec.ofNat 32 (popcount a)) g d a s

/-- CLZ (R87). -/
def execClz (g : Guard) (d : Dst8) (a : Src8) (s : State) : Out :=
  laneUn (fun a => BitVec.ofNat 32 (clzW a)) g d a s

/-- CTZ (R87). -/
def execCtz (g : Guard) (d : Dst8) (a : Src8) (s : State) : Out :=
  laneUn (fun a => BitVec.ofNat 32 (ctzW a)) g d a s

/-- BREV (R87). -/
def execBrev (g : Guard) (d : Dst8) (a : Src8) (s : State) : Out :=
  laneUn (fun a => a.reverse) g d a s

/-- BSWAP (R87). -/
def execBswap (g : Guard) (d : Dst8) (a : Src8) (s : State) : Out :=
  laneUn (fun a => bswapW a) g d a s

/-- SEXT8 (R87). -/
def execSext8 (g : Guard) (d : Dst8) (a : Src8) (s : State) : Out :=
  laneUn (fun a => (a.setWidth 8).signExtend 32) g d a s

/-- SEXT16 (R87). -/
def execSext16 (g : Guard) (d : Dst8) (a : Src8) (s : State) : Out :=
  laneUn (fun a => (a.setWidth 16).signExtend 32) g d a s

/-- ZEXT8 (R87). -/
def execZext8 (g : Guard) (d : Dst8) (a : Src8) (s : State) : Out :=
  laneUn (fun a => (a.setWidth 8).setWidth 32) g d a s

/-- ZEXT16 (R87). -/
def execZext16 (g : Guard) (d : Dst8) (a : Src8) (s : State) : Out :=
  laneUn (fun a => (a.setWidth 16).setWidth 32) g d a s

end Sys2Proof.Machine
end

