-- ==== Sys2Proof/Machine/Special.lean ====
section
/-! DEFINITION. Special registers (R15, R16, R121) and shape queries (R114, R166). -/

namespace Sys2Proof.Machine

/-! ## Shape (R114, R166) -/

/-- The inverse of an odd word, by Newton's steps, each doubling the bits that are right. -/
def oddInv {n : Nat} (o : BitVec n) : BitVec n :=
  (List.range 6).foldl (fun x _ => x * (2 - o * x)) o

/-- Do differences of TIDs and of values fit one slope (R166)? The pair whose TID difference has the fewest trailing zeros
fixes the slope on every bit that matters. -/
def affine {n : Nat} (ds : List (BitVec n × BitVec n)) : Bool :=
  match (sortBy (fun x => ctzW x.1) ds).head? with
  | none => false
  | some (d, e) =>
    let k := ctzW d
    let sl := (e >>> k) * oddInv (d >>> k)
    ds.all (fun x => x.2 == sl * x.1)

/-- The tag of (TID, value) pairs: 0 U, 1 A, 2 G (R166). -/
def tagOfVals {n : Nat} (l : List (Nat × BitVec n)) : Nat :=
  match l with
  | [] => 0
  | (t, v) :: xs =>
    if xs.all (fun x => x.2 == v) then 0
    else if affine (xs.map (fun x => (BitVec.ofNat n x.1 - BitVec.ofNat n t, x.2 - v))) then 1
    else 2

/-- The threads whose contents give the tag that a thread asks for (R166). -/
def tagGroup (s : State) (t : Thread) : List Thread :=
  match t.ref with
  | .thr w _ => liveOf s w
  | .rest w _ =>
    s.all.filter (fun x =>
      (match x.ref with | .rest w' _ => w' == w | .none | .thr _ _ | .cur _ => false)
        && x.rest.map (·.region) == t.rest.map (·.region))
  | .none | .cur _ => [t]

/-- What a thread's v register holds for others: a pipe's result counts once it is written (R114, R167). -/
def seenV (t : Thread) (n : VReg) : W32 :=
  match (t.board.filter (fun b => b.reg == .v n)).getLast? with
  | some b => b.old.setWidth 32
  | none => t.r.getV n

/-- What a thread's x register holds for others. -/
def seenX (t : Thread) (n : XReg) : W64 :=
  match (t.board.filter (fun b => b.reg == .x n)).getLast? with
  | some b => b.old
  | none => t.r.getX n

/-- The tag of a register (R166): the thread's own writes count, another thread's once they are performed (R114, R167). -/
def tagOf (s : State) (t : Thread) : VXReg → Nat
  | .v n => tagOfVals ((tagGroup s t).map (fun x => (x.tid, if x.ref = t.ref then x.r.getV n else seenV x n)))
  | .x n => tagOfVals ((tagGroup s t).map (fun x => (x.tid, if x.ref = t.ref then x.r.getX n else seenX x n)))

/-- The spill format of a register, 0 if it is resident (R114, R169). -/
def fmtOf (s : State) (t : Thread) (r : VXReg) : Nat :=
  ((s.wgOf t).bind (fun w => (w.spilled.find? (fun x => x.1 == r)).map (·.2))).getD 0

/-! ## Special registers (R15) -/

/-- The class of a domain: thread, workgroup, gang and above (R151). -/
def domClass (d : Nat) : Nat := min d 2

/-- LIDX of a level, from the index of its class in mixed radix, the inner level fastest (R151). -/
def lidx (l : LRec) (i tid m g : Nat) : Nat :=
  match l.levels[i]? with
  | none => 0
  | some lv =>
    let c := domClass lv.dom
    let below := (l.levels.take i).filter (fun x => domClass x.dom == c)
    let n := if c = 0 then tid else if c = 1 then m else g
    n / (below.foldl (fun p x => p * x.extent) 1) % lv.extent

/-- LDIM of a level (R15). -/
def ldim (l : LRec) (i : Nat) : Nat := ((l.levels[i]?).map (·.extent)).getD 1

/-- NWG: the product of the extents of the levels that are not of the thread domain (R151). -/
def nwg (l : LRec) : Nat := (l.levels.filter (fun x => x.dom != 0)).foldl (fun p x => p * x.extent) 1

/-- MRP (R255). -/
def mrp (w : Wg) : Nat :=
  let ovf := (w.slots.zipIdx.foldl (fun a x => if x.1.ovf then a + 2 ^ x.2 else a) 0) % 256
  ovf * 2 ^ 48 + min ((w.mq.filter (fun e => !e.done)).length) 65535 * 2 ^ 32 + w.mstep

/-- Indices that R15 lists. -/
def srListed (i : Nat) : Bool := i ≤ 9 || (16 ≤ i && i ≤ 40) || (48 ≤ i && i ≤ 52) || (256 ≤ i && i ≤ 511)

/-- The indices of the curator registers (R372). -/
def srCurator (i : Nat) : Bool := 256 ≤ i && i ≤ 511

/-- The selected thread is a curator's (R372). -/
def onCurator (s : State) : Bool := match s.cur.ref with | .cur _ => true | .none | .thr _ _ | .rest _ _ => false

/-- A decode fault of the index (R16): ILLEGAL reason 3 whatever the guard. -/
def srBad (s : State) (i : Nat) : Bool := !srListed i || (onCurator s && 262 ≤ i && i ≤ 511)

/-- The curator registers 0x100-0x105 (R372). -/
def curatorReg (s : State) (i : Nat) : Nat :=
  match s.cur.ref with
  | .cur c =>
    (match s.curator? c with
      | none => 0
      | some k =>
        let q := s.queue? k.q
        if i = 256 then k.q
        else if i = 257 then s.cur.cid
        else if i = 258 then (q.map (fun q => q.phase.toNat)).getD 0
        else if i = 259 then k.left
        else if i = 260 then (q.map (fun q => q.head.toNat)).getD 0
        else (q.map (fun q => q.tail.toNat)).getD 0)
  | .none | .thr _ _ | .rest _ _ => 0

/-- The value of a special register for the selected thread (R15). -/
def srValue (s : State) (i : Nat) : W64 :=
  let t := s.cur
  let w := s.wgOf t
  let l := w.bind s.lrecOf
  let g := (w.bind (fun w => s.gang? w.gang)).map (·.g)
  let num (n : Nat) : W64 := BitVec.ofNat 64 n
  if i = 0 then num t.tid
  else if i = 1 then num ((l.map (·.wgsize)).getD 1)
  else if i = 2 then num ((w.map (·.wgid)).getD 0)
  else if i = 3 then num ((l.map nwg).getD 1)
  else if i = 4 then num t.lane
  else if i = 5 then num t.core
  else if i = 6 then num (t.core % Config.coresPerDie / 8)
  else if i = 7 then num (t.core / Config.coresPerDie)
  else if i = 8 then s.cfg.devnum.setWidth 64
  else if i = 9 then num t.cid
  else if 16 ≤ i ∧ i ≤ 23 then num ((l.map (fun l => lidx l (i - 16) t.tid ((w.map (·.member)).getD 0) (g.getD 0))).getD 0)
  else if 24 ≤ i ∧ i ≤ 31 then num ((l.map (fun l => ldim l (i - 24))).getD 1)
  else if i = 32 then num s.tick
  else if i = 33 then t.r.sp
  else if i = 34 then t.r.fsr.setWidth 64
  else if i = 35 then num ((w.map mrp).getD 0)
  else if 36 ≤ i ∧ i ≤ 39 then (w.map (fun w => w.chwp[(Fin.ofNat 4 (i - 36))])).getD 0
  else if i = 40 then num ((w.map (·.head)).getD 0 % 4294967296)
  else if i = 48 then t.tcause.setWidth 64
  else if i = 49 then t.tpc
  else if i = 50 then t.taddr
  else if i = 51 then t.tinfo
  else if i = 52 then (if t.tmode then 1 else 0)
  else num (curatorReg s i)

/-- Write a special register that SWR may write: SP, FSR (W1C), TPC (R15). Outside a handler TPC keeps what is written, although the trap
registers hold 0 there until then (DESIGN CHOICE, log entry 102). -/
def srWrite (t : Thread) (i : Nat) (v : W64) : Thread :=
  if i = 33 then { t with r := { t.r with sp := v } }
  else if i = 34 then { t with r := { t.r with fsr := fsrClear t.r.fsr v } }
  else { t with tpc := v }

/-- The tick of a value chunk (R349): the high bits come from the interval's checkpoint tick. -/
def chunkTick (base : Nat) (v : W64) : W64 :=
  let lo := bits v.toNat 0 48
  BitVec.ofNat 64 ((base / 2 ^ 48 + if lo < base % 2 ^ 48 then 1 else 0) * 2 ^ 48 + lo)

/-- SRD of TICK is an order point of its core with a value chunk (R348, R349, R351). -/
def readTick (s : State) (d : XReg) : Out :=
  let t := s.cur
  match gateTake s t.cid t.core t.core t.slot 0xFFFE with
  | none => waitAt s (.gate s.cur.core 0xFFFE)
  | some (s, v) =>
    let now := BitVec.ofNat 64 s.tick
    let val := (v.map (chunkTick (((s.ctx? t.cid).map (fun c => c.arch.since)).getD 0))).getD now
    let s := logValue s t.cid t.core t.core t.slot 65534 s.tick
    .next (s.onRegs (fun r => (r.setX d val).adv 1))

/-- SRD (R16, R121). -/
def execSrd (g : Guard) (d : XReg) (idx : BitVec 15) (s : State) : Out :=
  if srBad s idx.toNat then trap s cILLEGAL 0 3
  else
    guarded g 1 s
      (if srCurator idx.toNat && !onCurator s then trap s cPRIV 0 0
       else if idx.toNat = 32 then readTick s d
       else .next (s.onRegs (fun r => (r.setX d (srValue s idx.toNat)).adv 1)))

/-- SWR (R16, R121, R268). -/
def execSwr (g : Guard) (t : XReg) (idx : BitVec 15) (s : State) : Out :=
  if srBad s idx.toNat then trap s cILLEGAL 0 3
  else
    guarded g 1 s
      (if idx.toNat = 33 ∨ idx.toNat = 34 ∨ idx.toNat = 49 then
         outside s (settled s (.next ((s.onCur (fun x => srWrite x idx.toNat (x.r.getX t))).adv 1)))
       else trap s cPRIV 0 0)

/-- TAGOF (R114, R166, R167). -/
def execTagof (g : Guard) (d : XReg) (r : VXReg) (s : State) : Out :=
  groupWrite g d 1 (BitVec.ofNat 64 (tagOf s s.cur r)) s

/-- FMTOF (R114). -/
def execFmtof (g : Guard) (d : XReg) (r : VXReg) (s : State) : Out :=
  groupWrite g d 1 (BitVec.ofNat 64 (fmtOf s s.cur r)) s

end Sys2Proof.Machine
end

