-- ==== Sys2Proof/Machine/SpillOps.lean ====
section
/-! DEFINITION. The register pool and the spill engine (R168-R172): formats, records, eviction and refill. -/

namespace Sys2Proof.Machine

/-! ## Formats (R169) -/

/-- Does every value sign-extend from k bits. -/
def fitsIn {n : Nat} (k : Nat) (l : List (Nat × BitVec n)) : Bool := l.all (fun x => (x.2.setWidth k).signExtend n == x.2)

/-- The narrowest format that holds the values exactly: the first of the table that fits (R169). -/
def fmtCode {n : Nat} (l : List (Nat × BitVec n)) : Nat :=
  let t := tagOfVals l
  if t = 0 then 1 else if t = 1 then 2
  else if fitsIn 8 l then 3 else if fitsIn 16 l then 4 else if n ≤ 32 || fitsIn 32 l then 5 else 6

/-- Base and slope of affine values (R166, R169). -/
def affFit {n : Nat} (l : List (Nat × BitVec n)) : BitVec n × BitVec n :=
  match l with
  | [] => (0, 0)
  | (t, v) :: xs =>
    match (sortBy (fun x => ctzW x.1) (xs.map (fun x => (BitVec.ofNat n x.1 - BitVec.ofNat n t, x.2 - v)))).head? with
    | none => (v, 0)
    | some (d, e) =>
      let k := ctzW d
      let sl := (e >>> k) * oddInv (d >>> k)
      (v - sl * BitVec.ofNat n t, sl)

/-- Bytes per TID of a format. -/
def fmtWidth (fmt : Nat) : Nat := if fmt = 3 then 1 else if fmt = 4 then 2 else if fmt = 5 then 4 else 8

/-- Data bytes of a record, w bytes the register's width (R169). -/
def fmtBytes (fmt w size : Nat) : Nat := if fmt = 1 then w else if fmt = 2 then 2 * w else size * fmtWidth fmt

/-- The writes of a record's data, as (offset, bytes); entries of exited threads are left as they are (R170). -/
def recordData {n : Nat} (fmt : Nat) (l : List (Nat × BitVec n)) : List (Nat × List Byte) :=
  if fmt = 1 then [(0, bytesLE (n / 8) ((l.head?.map (fun x => x.2.toNat)).getD 0))]
  else if fmt = 2 then [(0, bytesLE (n / 8) (affFit l).1.toNat ++ bytesLE (n / 8) (affFit l).2.toNat)]
  else l.map (fun x => (x.1 * fmtWidth fmt, bytesLE (fmtWidth fmt) x.2.toNat))

/-- A thread's value read back from the data of a record. A 4-byte entry of an x register sign-extends too: the format holds every value
exactly (log entry 90). -/
def recordValue (n fmt : Nat) (data : List Byte) (tid : Nat) : BitVec n :=
  let num (off k : Nat) : Nat := ofBytes ((data.drop off).take k)
  if fmt = 1 then BitVec.ofNat n (num 0 (n / 8))
  else if fmt = 2 then BitVec.ofNat n (num 0 (n / 8)) + BitVec.ofNat n (num (n / 8) (n / 8)) * BitVec.ofNat n tid
  else if fmt = 3 then (BitVec.ofNat 8 (num tid 1)).signExtend n
  else if fmt = 4 then (BitVec.ofNat 16 (num (2 * tid) 2)).signExtend n
  else if fmt = 5 then (BitVec.ofNat 32 (num (4 * tid) 4)).signExtend n
  else BitVec.ofNat n (num (8 * tid) 8)

/-! ## Registers of a workgroup -/

/-- The declared registers of a workgroup (R149). -/
def declared (l : LRec) : List VXReg :=
  ((List.range l.vregs).map (fun i => VXReg.v (Fin.ofNat 128 i))) ++ (List.range l.xregs).map (fun i => VXReg.x (Fin.ofNat 64 i))

/-- Width in bytes of a register. -/
def regWidth : VXReg → Nat
  | .v _ => 4 | .x _ => 8

/-- The tag a workgroup's register has (R166). -/
def wgTag (s : State) (w : Wg) : VXReg → Nat
  | .v n => tagOfVals ((liveOf s w.id).map (fun (t : Thread) => (t.tid, t.r.getV n)))
  | .x n => tagOfVals ((liveOf s w.id).map (fun (t : Thread) => (t.tid, t.r.getX n)))

/-- The format a workgroup's register is stored in. -/
def wgFmt (s : State) (w : Wg) : VXReg → Nat
  | .v n => fmtCode ((liveOf s w.id).map (fun (t : Thread) => (t.tid, t.r.getV n)))
  | .x n => fmtCode ((liveOf s w.id).map (fun (t : Thread) => (t.tid, t.r.getX n)))

/-- Where a register's record lies (R170). -/
def recordAddr (l : LRec) : VXReg → Nat
  | .v n => l.spill + n.val * (16 + 4 * l.wgsize)
  | .x n => l.spill + l.vregs * (16 + 4 * l.wgsize) + n.val * (16 + 8 * l.wgsize)

/-- The header of a record (R170). -/
def recordHeader (r : VXReg) (fmt : Nat) : List Byte := bytesLE 16 (fmt + (match r with | .v _ => 0 | .x _ => 256))

/-- Is a register of a workgroup spilled. -/
def isSpilled (w : Wg) (r : VXReg) : Bool := w.spilled.any (fun x => x.1 == r)

/-- Pool bytes a workgroup holds (R168, R171). -/
def poolUse (s : State) (w : Wg) : Nat :=
  match s.lrecOf w with
  | none => 0
  | some l =>
    let rest := l.rslots * (4 * l.vregs + 8 * l.xregs)
    if l.spill = 0 then l.wgsize * (4 * l.vregs + 8 * l.xregs) + rest
    else
      let live := (liveOf s w.id).length
      rest + ((declared l).map (fun r =>
        if isSpilled w r then 16
        else
          let t := wgTag s w r
          max 16 ((if t = 0 then 1 else if t = 1 then 2 else live) * (regWidth r)))).sum

/-- The most pool bytes a workgroup can hold. -/
def poolMost (s : State) (w : Wg) : Nat :=
  match s.lrecOf w with
  | none => 0
  | some l => (l.wgsize + l.rslots) * (4 * l.vregs + 8 * l.xregs) + 16 * (l.vregs + l.xregs)

/-- The workgroups that hold a core. -/
def wgsOn (s : State) (core : Nat) : List Wg := s.wgs.filter (fun w => w.core == core)

/-! ## Eviction and refill (R169, R172) -/

/-- A failed spill or refill terminates the workgroup, SOURCE 3 (R172). -/
def spillFault (s : State) (w : Wg) (l : LRec) (r : VXReg) (cause : BitVec 9) (info : W64) : State :=
  terminate s w { source := 3, cause := cause.toNat, cmderr := 0, tpc := 0, taddr := BitVec.ofNat 64 (recordAddr l r), tinfo := info,
                  ring := 0, ch := 0, tid := 0, aux := 0, entry := [] }

/-- Write the parts of a record. -/
def writeParts (w : Wg) (va : Nat) : List (Nat × List Byte) → State → Rd × State
  | [], s => (.ok [], s)
  | p :: ps, s =>
    match engineWrite s (some w) w.core w.cid (va + p.1) p.2 with
    | ((.ok _, _), s) => writeParts w va ps s
    | ((r, _), s) => (r, s)

/-- The parts of a register's record; the header comes last, so that FMT is 0 while the register is resident (R170). -/
def recordParts (s : State) (w : Wg) (r : VXReg) : List (Nat × List Byte) :=
  let ts := liveOf s w.id
  let fmt := wgFmt s w r
  let data := match r with
    | .v n => recordData fmt (ts.map (fun (t : Thread) => (t.tid, t.r.getV n)))
    | .x n => recordData fmt (ts.map (fun (t : Thread) => (t.tid, t.r.getX n)))
  data.map (fun p => (p.1 + 16, p.2)) ++ [(0, recordHeader r fmt)]

/-- Evict a register into its record (R169); a missing page is asked for, and the register stays until it is there. A page without the
right, or malformed, is reported as PROT (log entry 91). -/
def evict (s : State) (w : Wg) (r : VXReg) : State :=
  match s.lrecOf w with
  | none => s
  | some l =>
    let va := recordAddr l r
    match writeParts w va (recordParts s w r) s with
    | (.ok _, s') => s'.onWg w.id (fun x => { x with spilled := x.spilled ++ [(r, wgFmt s w r)] })
    | (.bad c _ i, s') => spillFault s' w l r c i
    | (.absent a, s') => (pageRequest s' w.cid a 2 (.refill w.id r)).2
    | (.hole _, s') => spillFault s' w l r cPROT (info306 6 2)

/-- Every register of a workgroup with a spill area is resident at placement: FMT of its record is 0 (R170). A record whose page is
missing or lacks the right keeps what it holds until the register is first evicted. -/
def clearRecords (s : State) (w : Wg) : State :=
  match s.lrecOf w with
  | none => s
  | some l =>
    if l.spill = 0 then s
    else (declared l).foldl (fun s r => (engineWrite s (some w) w.core w.cid (recordAddr l r) (recordHeader r 0)).2) s

/-- Give the threads the values of a record. -/
def restoreValues (s : State) (w : Wg) (r : VXReg) (fmt : Nat) (data : List Byte) : State :=
  (liveOf s w.id).foldl
    (fun s t =>
      s.onThread t.ref (fun x =>
        match r with
        | .v n => { x with r := x.r.setV n (recordValue 32 fmt data x.tid) }
        | .x n => { x with r := x.r.setX n (recordValue 64 fmt data x.tid) })) s

/-- Refill a spilled register (R172): FMT of its record becomes 0 (R170). -/
def refill (s : State) (w : Wg) (r : VXReg) (fmt : Nat) : State :=
  match s.lrecOf w with
  | none => s
  | some l =>
    let va := recordAddr l r
    match engineRead s (some w) w.core w.cid [] (va + 16) (fmtBytes fmt (regWidth r) l.wgsize) 1 with
    | (.ok data, s) =>
      let s := restoreValues s w r fmt data
      let s := (engineWrite s (some w) w.core w.cid va (recordHeader r 0)).2
      s.onWg w.id (fun x =>
        { x with spilled := x.spilled.filter (fun y => y.1 != r), use := (r, s.tick) :: x.use.filter (fun u => u.1 != r) })
    | (.bad c _ i, s) => spillFault s w l r c i
    | (.absent a, s) => (pageRequest s w.cid a 1 (.refill w.id r)).2
    | (.hole _, s) => spillFault s w l r cPROT (info306 6 1)

end Sys2Proof.Machine
end

