-- ==== Sys2Proof/Machine/Uses.lean ====
section
/-! DEFINITION. The registers an instruction names (R6, R131, R172) and those a lane or group pipe writes (R19). -/

namespace Sys2Proof.Machine

/-- The predicate of a guard. -/
def grdR : Guard → List RegName
  | none => [] | some p => [.p p]
/-- An F8 source. -/
def src8R : Src8 → List RegName
  | .v n => [.v n] | .o n => [.o n] | .lr => [.lr] | .x n => [.x n] | .lit _ | .zero | .tid | .lane => []
/-- An F8 destination. -/
def dst8R : Dst8 → List RegName
  | .v n => [.v n] | .o n => [.o n] | .lr => [.lr] | .zero => []
/-- An S5 source. -/
def src5R : Src5 → List RegName
  | .o n => [.o n] | .lr => [.lr] | .x n => [.x (Fin.castLE (by decide) n)]
  | .lit _ | .zero | .one | .negOne | .fOne | .fHalf | .tid => []
/-- A B9 operand. -/
def b9R : SrcB9 → List RegName
  | .x n => [.x n] | .imm _ | .lit32 _ | .lit64 _ | .zero => []
/-- A B7 operand. -/
def b7R : SrcB7 → List RegName
  | .x n => [.x n] | .imm _ => []
/-- n v registers from one on. -/
def rangeR (v : VReg) (n : Nat) : List RegName := (List.range n).map (fun i => .v (Fin.ofNat 128 (v.val + i)))
/-- A pair of x registers. -/
def pairXR (a : XReg) : List RegName := [.x a, .x (Fin.ofNat 64 (a.val + 1))]
/-- An LM operand. -/
def memR (m : MemArg) : List RegName :=
  .x m.xb :: (match m.os with | .o n => [.o (Fin.castLE (by decide) n)] | .none | .lit _ => [])
/-- T of an LDX. -/
def ldxR : LdxT → List RegName
  | .b1 d | .b2 d | .b4 d => dst8R d | .b8 v => rangeR v 2 | .b16 v => rangeR v 4
/-- T of an STX. -/
def stxR : StxT → List RegName
  | .b1 a | .b2 a | .b4 a => src8R a | .b8 v => rangeR v 2 | .b16 v => rangeR v 4
/-- T of an ATOM. -/
def atomR : AtomT → List RegName
  | .n32 d | .s32 d | .f32 d | .f16x2 d => dst8R d | .n64 v | .s64 v => rangeR v 2
/-- C of a CAS. -/
def casR : CasC → List RegName
  | .w32 a => src8R a | .w64 v => rangeR v 2
/-- The register of SHAPE. -/
def vxR : VXReg → List RegName
  | .v n => [.v n] | .x n => [.x n]
/-- A count register; code 63 names none. -/
def cntR : Option (Fin 63) → List RegName
  | none => [] | some n => [.x (Fin.castLE (by decide) n)]

/-- The registers an instruction names, read or written. -/
def regsOf : Instr → List RegName
  | .iadd g d a b | .isub g d a b | .imul g d a b | .imulhs g d a b | .imulhn g d a b | .imad g d a b | .isad g d a b
  | .imin g d a b | .imax g d a b | .nmin g d a b | .nmax g d a b | .and g d a b | .or g d a b | .xor g d a b
  | .andn g d a b | .shl g d a b | .shr g d a b | .sar g d a b | .bfen g d a b | .bfes g d a b | .bfi g d a b
  | .prmt g d a b | .csel g d a b | .fadd g d a b | .fsub g d a b | .fmul g d a b | .ffma g d a b | .fmin g d a b
  | .fmax g d a b | .fscale g d a b | .hadd2 g d a b | .hmul2 g d a b | .hfma2 g d a b | .bfma2 g d a b | .hmin2 g d a b
  | .hmax2 g d a b => grdR g ++ dst8R d ++ src8R a ++ src5R b
  | .mov g d a | .not g d a | .ineg g d a | .iabs g d a | .popc g d a | .clz g d a | .ctz g d a | .brev g d a
  | .bswap g d a | .sext8 g d a | .sext16 g d a | .zext8 g d a | .zext16 g d a | .fabs g d a | .fneg g d a | .frcp g d a
  | .frsq g d a | .fsqrt g d a | .fexp2 g d a | .flog2 g d a | .fsinr g d a | .fcosr g d a | .ftanh g d a | .fsigm g d a
  | .ffloor g d a | .fceil g d a | .ftrunc g d a | .frint g d a | .ffrac g d a | .fsat g d a | .fclass g d a
  | .cvtF32S32 g d a | .cvtF32N32 g d a | .cvtS32F32 g d a | .cvtN32F32 g d a | .cvtS32F32Rn g d a | .cvtF16F32 g d a
  | .cvtF32F16l g d a | .cvtF32F16h g d a | .cvtBf16F32 g d a | .cvtF32Bf16l g d a | .cvtF32Bf16h g d a
  | .cvtE4m3F32 g d a | .cvtE5m2F32 g d a | .cvtF32E4m3 g d a | .cvtF32E5m2 g d a | .cvtLns6F32 g d a | .cvtF32Lns6 g d a
  | .cvtS8F32 g d a | .cvtN8F32 g d a | .kredAddN32 g _ _ d a | .kredAddF32 g _ _ d a | .kredMinS32 g _ _ d a
  | .kredMaxS32 g _ _ d a | .kredMinF32 g _ _ d a | .kredMaxF32 g _ _ d a | .kredAnd g _ _ d a | .kredOr g _ _ d a
  | .kredXor g _ _ d a | .kredNz g _ _ d a => grdR g ++ dst8R d ++ src8R a
  | .icmp g pd _ a b | .ncmp g pd _ a b | .fcmp g pd _ a b => grdR g ++ [.p pd] ++ src8R a ++ src5R b
  | .plop g pd pa pb _ => grdR g ++ [.p pd] ++ [.p pa] ++ [.p pb]
  | .ptov g d | .fld g d _ _ => grdR g ++ dst8R d
  | .vtop g a | .fst g a _ _ | .fadda g a _ _ => grdR g ++ src8R a
  | .ldb g t m | .ldbs g t m | .ldh g t m | .ldhs g t m | .ldw g t m | .atomIncw g t m _ | .atomFadd g t m _
  | .atomHadd2 g t m _ => grdR g ++ dst8R t ++ memR m
  | .ldd g t m | .std g t m => grdR g ++ rangeR t 2 ++ memR m
  | .ldq g t m | .stq g t m => grdR g ++ rangeR t 4 ++ memR m
  | .ldx g t m _ _ _ => grdR g ++ ldxR t ++ memR m
  | .stb g t m | .sth g t m | .stw g t m => grdR g ++ src8R t ++ memR m
  | .stx g t m _ _ _ => grdR g ++ stxR t ++ memR m
  | .atomAdd g t m _ | .atomMin g t m _ | .atomMax g t m _ | .atomAnd g t m _ | .atomOr g t m _ | .atomXor g t m _
  | .atomExch g t m _ => grdR g ++ atomR t ++ memR m
  | .atomCas g t m _ c => grdR g ++ atomR t ++ memR m ++ casR c
  | .nop _ | .launchDecision _ | .gangPlacement _ _ _ _ _ _ _ _ | .phaseClean _ | .workgroupEnd _ | .gangRetire _
  | .pick _ | .ageCap _ | .regroupRelease _ _ | .loadReturn _ _ _ | .storePerformed _ _ | .l1Eviction _ _ _
  | .fenceComplete _ | .fenceRollback _ | .tokenComplete _ _ | .pageWalk _ _ _ | .pageRequest _ | .pagerResponse _
  | .kill _ _ | .copyTakeEntry _ | .copy _ _ | .gather _ _ | .fill _ _ | .convert _ _ | .convertout _ _ | .mmaEntry _
  | .mdrainEntry _ | .mctlEntry _ | .matrixEntryComplete _ | .mmaResume _ | .regionLoad _ _ _ | .surrogateEvaluation _ _
  | .restorationStart _ _ | .violationReport _ | .disableApply _ _ _ | .enableApply _ _ _ | .counterBlockWrite _ _
  | .floorRefresh _ _ | .groupFloorRefresh _ _ _ _ | .floorDropAck _ | .wlpushPlace _ | .wlpopServe _ _
  | .frontBufferSend _ _ | .chunkSpill _ _ _ _ | .chunkReadBack _ _ _ _ | .chunkMigrate _ _ _ _ _ | .spillRefill _ _
  | .contextCreate _ | .contextDestroy _ | .contextSelect _ | .queueEnable _ | .queueDisable _ | .queueQuiesce _
  | .queueNotify _ _ _ | .packetStart _ _ | .qwaitsigResume _ | .tickstopWrite _ | .tickStop | .registerWrite _ _
  | .preemptRequest _ _ | .drainExpire _ | .gangSave _ | .gangRestore _ _ _ _ _ | .switchTick | .switchComplete
  | .haltRequest _ | .threadHalt _ | .resumeRequest _ | .sample _ | .checkpoint _ | .gatePass _ | .intervalClose _
  | .collChunk _ _ _ _ | .collectiveComplete _ _ _ _ | .ingressWrite _ _ _ | .ingressRead _ _ _ | .functionLevelReset _
  | .coreFailure _ | .memoryRetire _ _ | .moduleReset | .attestationQuote _ _ | .linkFailure _ | .flitRetry _ | .podLeave
  | .linkUp _ | .ngurilIngress _ _ _ | .vmodeWrite _ | .instructionFetch _ | .resultWriteback _ _ => []
  | .wadd g d a b | .wsub g d a b | .wmul g d a b | .wmulhs g d a b | .wmulhn g d a b | .wand g d a b | .wor g d a b
  | .wxor g d a b | .wshl g d a b | .wshr g d a b | .wsar g d a b | .wmin g d a b | .wmax g d a b | .wnmin g d a b
  | .wnmax g d a b | .wsel g d a b | .dadd g d a b | .dsub g d a b | .dmul g d a b | .dfma g d a b | .dmin g d a b
  | .dmax g d a b => grdR g ++ [.x d] ++ [.x a] ++ b9R b
  | .wcmp g pd _ a b | .wncmp g pd _ a b | .dcmp g pd _ a b => grdR g ++ [.p pd] ++ [.x a] ++ b7R b
  | .wmov g d a | .wnot g d a | .wneg g d a | .wabs g d a | .wpopc g d a | .wclz g d a | .wctz g d a | .wbrev g d a
  | .wbswap g d a | .wsext32 g d a | .wzext32 g d a | .dabs g d a | .dneg g d a | .dsqrt g d a | .drcp g d a
  | .dfloor g d a | .dceil g d a | .dtrunc g d a | .drint g d a | .dclass g d a | .dcvtDS64 g d a | .dcvtDN64 g d a
  | .dcvtS64D g d a | .dcvtN64D g d a | .dcvtDF32l g d a | .dcvtF32D g d a | .dcvtDS32 g d a | .dcvtS32D g d a
  | .mldsc g d a => grdR g ++ [.x d] ++ [.x a]
  | .v2x g d a | .v2xs g d a => grdR g ++ [.x d] ++ src8R a
  | .vp2x g d v => grdR g ++ [.x d] ++ rangeR v 2
  | .x2v g d a | .x2vh g d a => grdR g ++ dst8R d ++ [.x a]
  | .x2vp g v a => grdR g ++ rangeR v 2 ++ [.x a]
  | .wld g t b _ | .wst g t b _ => grdR g ++ [.x t] ++ [.x b]
  | .bra g _ | .brd g _ | .call g _ | .ret g | .exit g | .yield g | .trap g _ | .tret g | .waitc g _ _ _ _ | .fence g _ _
  | .mzero g _ | .wldone g _ | .fleave g _ | .fsync g _ | .funlink g _ | .rret g | .bkpt g | .qdone g => grdR g
  | .callr g a | .jmp g a | .fwait g a | .ksetCount g _ _ a | .ksetMask g _ _ a | .ksign g _ _ a | .fenter g _ a
  | .fopen g _ _ a _ | .flink g _ a | .fdrop g a | .tlbinv g a | .l1clean g a | .archive g a | .qswitch g a | .qphase g a
  | .renable g a | .wlcfg g a => grdR g ++ [.x a]
  | .srd g d _ | .ftok g d _ _ | .mstat g d _ | .fhnd g d _ => grdR g ++ [.x d]
  | .swr g t _ => grdR g ++ [.x t]
  | .tagof g d r | .fmtof g d r => grdR g ++ [.x d] ++ vxR r
  | .bar g _ _ cnt => grdR g ++ cntR cnt
  | .kxchTid g _ _ d a i | .kxchPos g _ _ d a i => grdR g ++ dst8R d ++ src8R a ++ src8R i
  | .mma g xa xb xc _ | .mdrain g xa xb xc _ | .collAllreduce g xa xb xc _ _ _ _ | .collReducescatter g xa xb xc _ _ _ _
  | .collAllgather g xa xb xc _ _ _ | .collBroadcast g xa xb xc _ _ _ | .collAlltoall g xa xb xc _ _ _ => grdR g ++ [.x xa] ++ [.x xb] ++ [.x xc]
  | .tbinit g a c | .tbexpect g a c => grdR g ++ [.x a] ++ cntR c
  | .tbarrive g d a c | .tbtest g d a c => grdR g ++ [.x d] ++ [.x a] ++ cntR c
  | .tbwait g a p => grdR g ++ [.x a] ++ [.x p]
  | .wlpush g _ v _ => grdR g ++ rangeR v 4
  | .wlpop g xa ps _ v | .wltry g xa ps _ v => grdR g ++ [.x xa] ++ [.p ps] ++ rangeR v 4
  | .wlfloor g xa _ | .wlstat g xa _ => grdR g ++ [.x xa]
  | .rcall g _ argv resv argc resc | .rcallExact g _ argv resv argc resc | .rcallSonly g _ argv resv argc resc => grdR g ++ rangeR argv (argc.val + 1) ++ rangeR resv (resc.val + 1)
  | .rload g xb => grdR g ++ [.x xb]
  | .rctlEvict g xa xb | .rctlPin g xa xb | .rctlUnpin g xa xb | .rctlFlush g xa xb | .rctr g xa xb | .rinfo g xa xb => grdR g ++ [.x xa] ++ [.x xb]
  | .qlaunch g a | .qsignal g a | .qwaitsig g a => grdR g ++ pairXR a

/-- The registers whose result a lane or group pipe delivers after its latency (R19). -/
def dstOf : Instr → List RegName
  | .iadd _ d _ _ | .isub _ d _ _ | .imul _ d _ _ | .imulhs _ d _ _ | .imulhn _ d _ _ | .imad _ d _ _ | .isad _ d _ _
  | .imin _ d _ _ | .imax _ d _ _ | .nmin _ d _ _ | .nmax _ d _ _ | .and _ d _ _ | .or _ d _ _ | .xor _ d _ _
  | .andn _ d _ _ | .shl _ d _ _ | .shr _ d _ _ | .sar _ d _ _ | .bfen _ d _ _ | .bfes _ d _ _ | .bfi _ d _ _
  | .prmt _ d _ _ | .csel _ d _ _ | .mov _ d _ | .not _ d _ | .ineg _ d _ | .iabs _ d _ | .popc _ d _ | .clz _ d _
  | .ctz _ d _ | .brev _ d _ | .bswap _ d _ | .sext8 _ d _ | .sext16 _ d _ | .zext8 _ d _ | .zext16 _ d _ | .fadd _ d _ _
  | .fsub _ d _ _ | .fmul _ d _ _ | .ffma _ d _ _ | .fmin _ d _ _ | .fmax _ d _ _ | .fscale _ d _ _ | .fabs _ d _
  | .fneg _ d _ | .frcp _ d _ | .frsq _ d _ | .fsqrt _ d _ | .fexp2 _ d _ | .flog2 _ d _ | .fsinr _ d _ | .fcosr _ d _
  | .ftanh _ d _ | .fsigm _ d _ | .ffloor _ d _ | .fceil _ d _ | .ftrunc _ d _ | .frint _ d _ | .ffrac _ d _ | .fsat _ d _
  | .fclass _ d _ | .hadd2 _ d _ _ | .hmul2 _ d _ _ | .hfma2 _ d _ _ | .bfma2 _ d _ _ | .hmin2 _ d _ _ | .hmax2 _ d _ _
  | .cvtF32S32 _ d _ | .cvtF32N32 _ d _ | .cvtS32F32 _ d _ | .cvtN32F32 _ d _ | .cvtS32F32Rn _ d _ | .cvtF16F32 _ d _
  | .cvtF32F16l _ d _ | .cvtF32F16h _ d _ | .cvtBf16F32 _ d _ | .cvtF32Bf16l _ d _ | .cvtF32Bf16h _ d _
  | .cvtE4m3F32 _ d _ | .cvtE5m2F32 _ d _ | .cvtF32E4m3 _ d _ | .cvtF32E5m2 _ d _ | .cvtLns6F32 _ d _ | .cvtF32Lns6 _ d _
  | .cvtS8F32 _ d _ | .cvtN8F32 _ d _ | .ptov _ d => dst8R d ++ [.lr]
  | .icmp _ _ _ _ _ | .ncmp _ _ _ _ _ | .fcmp _ _ _ _ _ | .plop _ _ _ _ _ | .vtop _ _ | .fld _ _ _ _ | .fst _ _ _ _
  | .fadda _ _ _ _ | .ldb _ _ _ | .ldbs _ _ _ | .ldh _ _ _ | .ldhs _ _ _ | .ldw _ _ _ | .ldd _ _ _ | .ldq _ _ _
  | .ldx _ _ _ _ _ _ | .stb _ _ _ | .sth _ _ _ | .stw _ _ _ | .std _ _ _ | .stq _ _ _ | .stx _ _ _ _ _ _
  | .atomAdd _ _ _ _ | .atomMin _ _ _ _ | .atomMax _ _ _ _ | .atomAnd _ _ _ _ | .atomOr _ _ _ _ | .atomXor _ _ _ _
  | .atomExch _ _ _ _ | .atomCas _ _ _ _ _ | .atomIncw _ _ _ _ | .atomFadd _ _ _ _ | .atomHadd2 _ _ _ _ | .nop _
  | .wcmp _ _ _ _ _ | .wncmp _ _ _ _ _ | .dcmp _ _ _ _ _ | .wld _ _ _ _ | .wst _ _ _ _ | .bra _ _ | .brd _ _ | .call _ _
  | .callr _ _ | .ret _ | .jmp _ _ | .exit _ | .yield _ | .trap _ _ | .tret _ | .srd _ _ _ | .swr _ _ _ | .tagof _ _ _
  | .fmtof _ _ _ | .waitc _ _ _ _ _ | .fence _ _ _ | .ftok _ _ _ _ | .fwait _ _ | .bar _ _ _ _ | .ksetCount _ _ _ _
  | .ksetMask _ _ _ _ | .ksign _ _ _ _ | .kxchTid _ _ _ _ _ _ | .kxchPos _ _ _ _ _ _ | .kredAddN32 _ _ _ _ _
  | .kredAddF32 _ _ _ _ _ | .kredMinS32 _ _ _ _ _ | .kredMaxS32 _ _ _ _ _ | .kredMinF32 _ _ _ _ _ | .kredMaxF32 _ _ _ _ _
  | .kredAnd _ _ _ _ _ | .kredOr _ _ _ _ _ | .kredXor _ _ _ _ _ | .kredNz _ _ _ _ _ | .mma _ _ _ _ _ | .mdrain _ _ _ _ _
  | .mzero _ _ | .mldsc _ _ _ | .mstat _ _ _ | .tbinit _ _ _ | .tbarrive _ _ _ _ | .tbexpect _ _ _ | .tbtest _ _ _ _
  | .tbwait _ _ _ | .wlpush _ _ _ _ | .wlpop _ _ _ _ _ | .wltry _ _ _ _ _ | .wldone _ _ | .wlfloor _ _ _ | .wlstat _ _ _
  | .fenter _ _ _ | .fleave _ _ | .fopen _ _ _ _ _ | .flink _ _ _ | .fhnd _ _ _ | .fdrop _ _ | .fsync _ _ | .funlink _ _
  | .rcall _ _ _ _ _ _ | .rcallExact _ _ _ _ _ _ | .rcallSonly _ _ _ _ _ _ | .rret _ | .rload _ _ | .rctlEvict _ _ _
  | .rctlPin _ _ _ | .rctlUnpin _ _ _ | .rctlFlush _ _ _ | .rctr _ _ _ | .rinfo _ _ _ | .collAllreduce _ _ _ _ _ _ _ _
  | .collReducescatter _ _ _ _ _ _ _ _ | .collAllgather _ _ _ _ _ _ _ | .collBroadcast _ _ _ _ _ _ _
  | .collAlltoall _ _ _ _ _ _ _ | .bkpt _ | .tlbinv _ _ | .l1clean _ _ | .archive _ _ | .qlaunch _ _ | .qsignal _ _
  | .qwaitsig _ _ | .qswitch _ _ | .qphase _ _ | .qdone _ | .renable _ _ | .wlcfg _ _ | .launchDecision _
  | .gangPlacement _ _ _ _ _ _ _ _ | .phaseClean _ | .workgroupEnd _ | .gangRetire _ | .pick _ | .ageCap _
  | .regroupRelease _ _ | .loadReturn _ _ _ | .storePerformed _ _ | .l1Eviction _ _ _ | .fenceComplete _
  | .fenceRollback _ | .tokenComplete _ _ | .pageWalk _ _ _ | .pageRequest _ | .pagerResponse _ | .kill _ _
  | .copyTakeEntry _ | .copy _ _ | .gather _ _ | .fill _ _ | .convert _ _ | .convertout _ _ | .mmaEntry _ | .mdrainEntry _
  | .mctlEntry _ | .matrixEntryComplete _ | .mmaResume _ | .regionLoad _ _ _ | .surrogateEvaluation _ _
  | .restorationStart _ _ | .violationReport _ | .disableApply _ _ _ | .enableApply _ _ _ | .counterBlockWrite _ _
  | .floorRefresh _ _ | .groupFloorRefresh _ _ _ _ | .floorDropAck _ | .wlpushPlace _ | .wlpopServe _ _
  | .frontBufferSend _ _ | .chunkSpill _ _ _ _ | .chunkReadBack _ _ _ _ | .chunkMigrate _ _ _ _ _ | .spillRefill _ _
  | .contextCreate _ | .contextDestroy _ | .contextSelect _ | .queueEnable _ | .queueDisable _ | .queueQuiesce _
  | .queueNotify _ _ _ | .packetStart _ _ | .qwaitsigResume _ | .tickstopWrite _ | .tickStop | .registerWrite _ _
  | .preemptRequest _ _ | .drainExpire _ | .gangSave _ | .gangRestore _ _ _ _ _ | .switchTick | .switchComplete
  | .haltRequest _ | .threadHalt _ | .resumeRequest _ | .sample _ | .checkpoint _ | .gatePass _ | .intervalClose _
  | .collChunk _ _ _ _ | .collectiveComplete _ _ _ _ | .ingressWrite _ _ _ | .ingressRead _ _ _ | .functionLevelReset _
  | .coreFailure _ | .memoryRetire _ _ | .moduleReset | .attestationQuote _ _ | .linkFailure _ | .flitRetry _ | .podLeave
  | .linkUp _ | .ngurilIngress _ _ _ | .vmodeWrite _ | .instructionFetch _ | .resultWriteback _ _ => []
  | .wadd _ d _ _ | .wsub _ d _ _ | .wmul _ d _ _ | .wmulhs _ d _ _ | .wmulhn _ d _ _ | .wand _ d _ _ | .wor _ d _ _
  | .wxor _ d _ _ | .wshl _ d _ _ | .wshr _ d _ _ | .wsar _ d _ _ | .wmin _ d _ _ | .wmax _ d _ _ | .wnmin _ d _ _
  | .wnmax _ d _ _ | .wsel _ d _ _ | .wmov _ d _ | .wnot _ d _ | .wneg _ d _ | .wabs _ d _ | .wpopc _ d _ | .wclz _ d _
  | .wctz _ d _ | .wbrev _ d _ | .wbswap _ d _ | .wsext32 _ d _ | .wzext32 _ d _ | .dadd _ d _ _ | .dsub _ d _ _
  | .dmul _ d _ _ | .dfma _ d _ _ | .dmin _ d _ _ | .dmax _ d _ _ | .dabs _ d _ | .dneg _ d _ | .dsqrt _ d _ | .drcp _ d _
  | .dfloor _ d _ | .dceil _ d _ | .dtrunc _ d _ | .drint _ d _ | .dclass _ d _ | .dcvtDS64 _ d _ | .dcvtDN64 _ d _
  | .dcvtS64D _ d _ | .dcvtN64D _ d _ | .dcvtDF32l _ d _ | .dcvtF32D _ d _ | .dcvtDS32 _ d _ | .dcvtS32D _ d _
  | .v2x _ d _ | .v2xs _ d _ | .vp2x _ d _ => [.x d]
  | .x2v _ d _ | .x2vh _ d _ => dst8R d
  | .x2vp _ v _ => rangeR v 2

end Sys2Proof.Machine
end

