-- ==== Sys2Proof/Machine/Fetch.lean ====
section
/-! DEFINITION. Instruction fetch (R14, R20-R22, R194, R372) and the operands a decoded row names. -/

namespace Sys2Proof.Machine

/-! ## Rows -/

/-- The number of words of a row (R20, R21). -/
def rowLen : Row → Nat
  | .early i => (encode i).length
  | .collAllreduce _ _ _ _ _ _ _ _ | .collReducescatter _ _ _ _ _ _ _ _ | .collAllgather _ _ _ _ _ _ _
  | .collBroadcast _ _ _ _ _ _ _ | .collAlltoall _ _ _ _ _ _ _ => 2
  | .rload _ _ | .rctlEvict _ _ _ | .rctlPin _ _ _ | .rctlUnpin _ _ _ | .rctlFlush _ _ _ | .rctr _ _ _ | .rinfo _ _ _
  | .bkpt _ | .tlbinv _ _ | .l1clean _ _ | .archive _ _ | .qlaunch _ _ | .qsignal _ _ | .qwaitsig _ _ | .qswitch _ _
  | .qphase _ _ | .qdone _ | .renable _ _ | .wlcfg _ _ => 1

/-- The registers a row names. -/
def rowRegs : Row → List RegName
  | .early i => regsOf i
  | .collAllreduce g xa xb xc _ _ _ _ | .collReducescatter g xa xb xc _ _ _ _ | .collAllgather g xa xb xc _ _ _
  | .collBroadcast g xa xb xc _ _ _ | .collAlltoall g xa xb xc _ _ _ => grdR g ++ [.x xa, .x xb, .x xc]
  | .rctlEvict g xa xb | .rctlPin g xa xb | .rctlUnpin g xa xb | .rctlFlush g xa xb | .rctr g xa xb | .rinfo g xa xb =>
    grdR g ++ [.x xa, .x xb]
  | .rload g a | .tlbinv g a | .l1clean g a | .archive g a | .qswitch g a | .qphase g a | .renable g a | .wlcfg g a => grdR g ++ [.x a]
  | .qlaunch g a | .qsignal g a | .qwaitsig g a => grdR g ++ pairXR a
  | .bkpt g | .qdone g => grdR g

/-- The registers a row has a lane or group pipe write. -/
def rowDst : Row → List RegName
  | .early i => dstOf i
  | .collAllreduce _ _ _ _ _ _ _ _ | .collReducescatter _ _ _ _ _ _ _ _ | .collAllgather _ _ _ _ _ _ _
  | .collBroadcast _ _ _ _ _ _ _ | .collAlltoall _ _ _ _ _ _ _
  | .rload _ _ | .rctlEvict _ _ _ | .rctlPin _ _ _ | .rctlUnpin _ _ _ | .rctlFlush _ _ _ | .rctr _ _ _ | .rinfo _ _ _
  | .bkpt _ | .tlbinv _ _ | .l1clean _ _ | .archive _ _ | .qlaunch _ _ | .qsignal _ _ | .qwaitsig _ _ | .qswitch _ _
  | .qphase _ _ | .qdone _ | .renable _ _ | .wlcfg _ _ => []

/-- The guard of a row: it is the guard field of every main word but NOP's (R29). -/
def guardOf (w : Nat) : Guard := if fld w 21 4 = 0 then none else some (Fin.ofNat 12 (fld w 21 4 - 1))

/-! ## Words -/

/-- What fetching comes to. -/
inductive FetchRes (α : Type)
  | ok (a : α)
  | trap (cause : BitVec 9) (addr info : W64)
  | absent (va : Nat)
  | hole (pa : Nat)
deriving DecidableEq, Repr

/-- A fetch that failed, for another kind of answer. -/
def FetchRes.fail {α β : Type} : FetchRes α → FetchRes β
  | .ok _ => .trap 0 0 0
  | .trap c a i => .trap c a i
  | .absent a => .absent a
  | .hole a => .hole a

/-- The word an instruction cache holds (R194). -/
def iFind (c : Core) (cid va : Nat) : Option W32 := (c.icache.find? (fun e => e.cid == cid && e.va == va)).map (·.word)

/-- The word of a curator's program store (R371, R372). -/
def programWord (s : State) (c va : Nat) : Option W32 :=
  match (s.curator? c).bind (fun k => s.queue? k.q) with
  | none => none
  | some q => if q.prog ≤ va && va % 4 == 0 then q.words[(va - q.prog) / 4]? else none

/-- Fetch a word from global memory: rights, presence, poison, then the home (R14, R194, R315). A page that the pager has rejected
stays absent for the thread until it takes PAGE (R316). -/
def fetchGlobal (s : State) (t : Thread) (va : Nat) : FetchRes W32 × State :=
  let a := BitVec.ofNat 64 va
  if (t.rej.map (fun r => r.toNat / 65536)) == some (va / 65536) then (.absent va, s)
  else
  match iFind (s.core t.core) t.cid va with
  | some w => (.ok w, s)
  | none =>
    match xlate s t.core t.cid va 4 with
    | (.prot r, s) => (.trap cPROT a (info306 r 4), s)
    | (.memerr, s) => (.trap cMEMERR a (info306 0 7), s)
    | (.hole pa, s) => (.hole pa, s)
    | (.absent, s) => (.absent va, s)
    | (.ok key, s) =>
      if !isSys key && s.poisoned key 4 then (.trap cMEMERR a (info306 0 4), s)
      else
        let r := s.take key 4
        let w : W32 := BitVec.ofNat 32 (ofBytes r.1)
        (.ok w, r.2.onCore t.core (fun c =>
          { c with icache := { cid := t.cid, va, word := w } :: c.icache.take (Config.icacheWords - 1) }))

/-- Fetch a word for a thread (R14, R372). -/
def fetchWord (s : State) (t : Thread) (va : Nat) : FetchRes W32 × State :=
  let a := BitVec.ofNat 64 va
  if va % 4 ≠ 0 then (.trap cALIGN a (info306 0 4), s)
  else
    match t.ref with
    | .cur c =>
      (match programWord s c va with
        | some w => (.ok w, s)
        | none => (.trap cPROT a (info306 1 4), s))
    | .none | .thr _ _ | .rest _ _ =>
      if 72057594037927936 ≤ va then (.trap cPROT a (info306 1 4), s) else fetchGlobal s t va

/-- Fetch n words one after another. -/
def fetchWords (t : Thread) : Nat → Nat → State → FetchRes (List Nat) × State
  | _, 0, s => (.ok [], s)
  | va, n + 1, s =>
    match fetchWord s t va with
    | (.ok w, s) =>
      (match fetchWords t ((va + 4) % 2 ^ 64) n s with
        | (.ok ws, s) => (.ok (w.toNat :: ws), s)
        | (r, s) => (r, s))
    | (.trap c a i, s) => (.trap c a i, s)
    | (.absent a, s) => (.absent a, s)
    | (.hole a, s) => (.hole a, s)

/-! ## Decode faults of a row (R16, R61) -/

/-- A special-register index that decodes to a fault in a thread (R16). -/
def rowSrBad (s : State) (t : Thread) : Row → Bool
  | .early (.srd _ _ i) | .early (.swr _ _ i) => srBad { s with cur := t } i.toNat
  | _ => false

/-- Is one of some registers beyond those the launch declares (R61 reason 7); a curator declares none. -/
def undeclared (s : State) (t : Thread) (rs : List RegName) : Bool :=
  match s.wgOf t with
  | none => false
  | some w =>
    match s.lrecOf w with
    | none => false
    | some l => rs.any (fun r => match r with | .v n => l.vregs ≤ n.val | .x n => l.xregs ≤ n.val | .o _ | .lr | .p _ => false)

/-- The ILLEGAL that a decoded row has in a thread, lowest reason first (R16, R61). -/
def rowFaultOf (s : State) (t : Thread) (row : Row) : Option Nat :=
  if rowSrBad s t row then some 3 else if undeclared s t (rowRegs row) then some 7 else none

/-- A control word without fault or register for a major that takes one: with it a main word shows its own faults. -/
def plainCtl (w : Nat) : Nat :=
  if bit w 31 then
    (match fld w 25 6 with
     | 0x34 => 0x008A8A8A
     | 0x35 => 0x00008A8A
     | 0x3B => 4
     | _ => 0)
  else (match fld w 25 6 with | 0x3E => 0 | _ => 0x00200000)

/-- The ILLEGAL that a main word has whatever words follow it: it comes before the PROT or PAGE of a trailing word (R23, R63). -/
def mainFault (s : State) (t : Thread) (w : Nat) : Option Nat :=
  match decodeRow w (plainCtl w) 0 with
  | .err r => some r
  | .ok row =>
    let rs := (rowRegs row).filter (fun r => !bit w 31 || (match r with | .x _ => true | .v _ | .o _ | .lr | .p _ => false))
    if undeclared s t rs then some 7 else none

/-- A fetched instruction: its main word and what it decodes to. -/
abbrev Fetched := Nat × Dec Row

/-- Fetch and decode the instruction at PC (R20-R23): the main word, the control word of a major that has one, then the
literals that their fields name. A trailing word's PROT or page fault does not depend on the guard (log entry 85). -/
def fetchInstr (s : State) (t : Thread) : FetchRes Fetched × State :=
  let pc := t.r.pc.toNat
  match fetchWords t pc 1 s with
  | (.ok ws, s) =>
    let w := ws.headD 0
    let n := if hasCtl w then 2 else 1
    (match fetchWords t pc n s with
      | (.ok ws, s) =>
        (match decodeRow w ((ws[1]?).getD 0) 0 with
          | .err r => (.ok (w, .err r), s)
          | .ok row =>
            (match fetchWords t pc (rowLen row) s with
              | (.ok ws, s) => (.ok (w, decodeRow w ((ws[1]?).getD 0) ((ws[2]?).getD 0)), s)
              | (r, s) => ((if (rowFaultOf s t row).isSome then .ok (w, .ok row) else r.fail), s)))
      | (r, s) => ((match mainFault s t w with | some e => .ok (w, .err e) | none => r.fail), s))
  | (.trap c a i, s) => (.trap c a i, s)
  | (.absent a, s) => (.absent a, s)
  | (.hole a, s) => (.hole a, s)

/-- Are n words at a thread's PC fetched: in the instruction cache, or a curator's program store (R158, R194, R371)? -/
def wordsHeld (s : State) (t : Thread) (n : Nat) : Bool :=
  match t.ref with
  | .cur _ => true
  | .none | .thr _ _ | .rest _ _ => (List.range n).all (fun i => (iFind (s.core t.core) t.cid (t.r.pc.toNat + 4 * i)).isSome)

/-- The v and x registers of a row that the spill engine must bring back first (R172); a shape query only asks (R114). -/
def rowVX : Row → List VXReg
  | .early (.tagof _ d _) | .early (.fmtof _ d _) => [.x d]
  | row => (rowRegs row).filterMap (fun r => match r with | .v n => some (.v n) | .x n => some (.x n) | .o _ | .lr | .p _ => none)

/-- A spilled register of a launched thread's row (R168, R172). -/
def spilledReg (s : State) (t : Thread) (row : Row) : Option VXReg :=
  match t.ref with
  | .thr w _ => (s.wg? w).bind (fun w => if w.spilled.isEmpty then none else (rowVX row).find? (fun r => isSpilled w r))
  | .none | .rest _ _ | .cur _ => none

/-- The next instruction of a thread, once its words have been fetched (R158): its main word and what it decodes to. -/
def nextFetched (s : State) (t : Thread) : Option Fetched :=
  match fetchInstr s t with
  | (.ok (w, d), _) =>
    let n := match d with | .ok row => rowLen row | .err _ => 1
    if wordsHeld s t n then some (w, d) else none
  | _ => none

/-- The registers of a thread's current instruction. -/
def currentRegs (s : State) (t : Thread) : List RegName :=
  match nextFetched s t with
  | some (_, .ok row) => rowRegs row
  | some (_, .err _) | none => []

/-! ## The standing reserve (R168) -/

/-- Bytes of one thread's operands. -/
def operandBytes (rs : List RegName) : Nat :=
  (rs.eraseDups.map (fun r => match r with | .v _ => 4 | .x _ => 8 | .o _ | .lr | .p _ => 0)).sum

/-- Has a workgroup a spill area (R171)? -/
def spills (s : State) (w : Wg) : Bool := ((s.lrecOf w).map (fun l => decide (l.spill ≠ 0))).getD false

/-- The pool bytes that a core keeps so that every resident thread can hold the operands of its current instruction (R168; log entry
86). -/
def standing (s : State) (core : Nat) : Nat :=
  (((wgsOn s core).filter (spills s)).map (fun w => ((liveOf s w.id).map (fun t => operandBytes (currentRegs s t))).sum)).sum

end Sys2Proof.Machine
end

