-- ==== Sys2Proof/Machine/Order.lean ====
section
/-! DEFINITION. WAITC, fences and tokens (R122, R208-R212). -/

namespace Sys2Proof.Machine

/-! ## Counters (R122) -/

/-- Loads and atomics whose destination is not yet written. -/
def loadsOut (t : Thread) : Nat :=
  (t.mops.filter (fun m => match m.kind with | .load => true | .store => false | .atom op _ => op != .fadda)).length

/-- Stores not yet performed. -/
def storesOut (t : Thread) : Nat :=
  (t.mops.filter (fun m => match m.kind with | .load => false | .store => true | .atom op _ => op == .fadda)).length

/-- TAIL of a workgroup's ring as it stands (R230). -/
def ringTail (s : State) (w : Wg) : Nat :=
  match s.lrecOf w with
  | some l => if l.ringEnt = 0 then w.tail else s.get (scratchKey w.core (w.base + l.ringOff)) 4
  | none => w.tail

/-- Ring entries that the engine has not taken (R231). -/
def untaken (s : State) (w : Wg) : Nat := (ringTail s w + 4294967296 - w.head % 4294967296) % 4294967296

/-- Ring entries published and not completed. -/
def copiesOut (s : State) (w : Wg) : Nat := if w.copyStop then 0 else untaken s w + (w.chans.toList.map List.length).sum

/-- Is a matrix queue entry counted in tiles (R122, R253). -/
def MOp.isTile : MOp → Bool
  | .mma _ _ _ _ _ | .mdrain _ _ _ _ | .mzero _ | .mldsc _ _ _ => true
  | .mstat _ _ _ => false

/-- Matrix entries of the workgroup not yet complete. -/
def tilesOut (w : Wg) : Nat := (w.mq.filter (fun e => !e.done && e.op.isTile)).length

/-- A counter is at or below its field, or the field is all ones (R122). -/
def waitcOk (n field ones : Nat) : Bool := field == ones || n ≤ field

/-- The four counters of WAITC are met. -/
def waitcMet (s : State) (t : Thread) (loads : BitVec 6) (stores copies tiles : BitVec 5) : Bool :=
  let w := s.wgOf t
  waitcOk (loadsOut t) loads.toNat 63 && waitcOk (storesOut t) stores.toNat 31
    && waitcOk ((w.map (copiesOut s)).getD 0) copies.toNat 31 && waitcOk ((w.map tilesOut).getD 0) tiles.toNat 31

/-! ## What fences and tokens cover (R208, R211) -/

/-- A kinds field covers an access: an atomic has a read part and a write part. -/
def covers (kinds : BitVec 6) (m : Mop) : Bool :=
  kinds.getLsbD m.cov || (m.cov == 1 && m.isAtom && kinds.getLsbD 0)

/-- Every covered access before a point is performed. -/
def coveredDone (t : Thread) (kinds : BitVec 6) (upto : Nat) : Bool := !t.mops.any (fun m => m.id < upto && covers kinds m)

/-- Ring entries before a count are complete: taken, and none that the thread published is under way (R211). -/
def ringDone (s : State) (t : Thread) (upto : Nat) : Bool :=
  match s.wgOf t with
  | none => true
  | some w => w.copyStop || (upto ≤ w.head && !w.chans.toList.any (fun c => c.any (fun e => e.pub == t.tid && e.idx < upto)))

/-- The ring entries whose notify word a thread has published (R211), a store to TAIL that is still outstanding among them. -/
def publishedRing (s : State) (t : Thread) : Nat :=
  match s.wgOf t with
  | none => t.lastRing
  | some w =>
    match s.lrecOf w with
    | none => t.lastRing
    | some l =>
      let key := scratchKey w.core (w.base + l.ringOff)
      if l.ringEnt != 0 && t.mops.any (fun m => m.isStore && key < m.key + m.size && m.key < key + 4) then
        max t.lastRing (ringIndex w (viewN s t key 4))
      else t.lastRing

/-- Matrix entries the thread signed before a point are complete (R211). -/
def matrixDone (s : State) (t : Thread) (upto : Nat) : Bool :=
  match s.wgOf t with
  | none => true
  | some w => !w.mq.any (fun e => e.uid < upto && !e.done)

/-- A token can complete (R211). -/
def tokenMet (s : State) (t : Thread) (k : Token) : Bool :=
  coveredDone t k.kinds k.upto && (!k.kinds.getLsbD 4 || ringDone s t k.ring) && (!k.kinds.getLsbD 5 || matrixDone s t k.mx)

/-- A fence token (R212). -/
def fenceToken (tid scope : Nat) (kinds : BitVec 6) (seq : Nat) : W64 :=
  BitVec.ofNat 64 (2 ^ 56 + tid * 2 ^ 44 + scope * 2 ^ 41 + kinds.toNat * 2 ^ 35 + seq % 2 ^ 35)

/-- What FWAIT finds (R212, R368). -/
inductive FwaitRes
  | illegal
  | pending
  | complete (scope : Nat)
deriving DecidableEq, Repr

/-- The state of a token for a thread. -/
def fwaitTest (s : State) (t : Thread) (tok : W64) : FwaitRes :=
  let w := tok.toNat
  if bits w 56 8 = 1 then
    let seq := bits w 0 35
    if bits w 44 12 ≠ t.tid ∨ seq = 0 ∨ t.seq < seq then .illegal
    else if t.toks.any (fun k => k.seq == seq) then .pending
    else .complete (bits w 41 3)
  else if bits w 56 8 = 2 then
    let g := bits w 46 10
    let k := bits w 0 40
    match s.ctx? t.cid with
    | none => .illegal
    | some c =>
      let last := ((c.collK.find? (fun x => x.1 == g)).map (·.2)).getD 0
      if last < k then .illegal
      else if c.colls.any (fun x => x.g == g && x.k == k) then .pending
      else .complete 6
  else .illegal

/-- WAITC waits until every counter is at or below its field (R122). -/
def execWaitc (g : Guard) (loads : BitVec 6) (stores copies tiles : BitVec 5) (s : State) : Out :=
  guarded g 1 s
    (if waitcMet s s.cur loads stores copies tiles then .next (s.adv 1) else waitAt s (.waitc loads stores copies tiles))

/-- FENCE: speculative at scopes 0-4; at 5 and 6 it waits, as an FTOK does, for a place among the tokens, then for what it covers, then
releases and acquires (R208, R209); its hidden token takes no sequence number (log entry 83). -/
def execFence (g : Guard) (scope : Scope) (kinds : BitVec 4) (s : State) : Out :=
  guarded g 1 s
    (settled s
      (let sc := scope.code
       if sc < 5 then
         let s := s.adv 1
         .next (s.onCur (fun t =>
           { t with
             mops := t.mops.map (fun (m : Mop) => { m with lrs := m.lrw })
             fence := some { scope := sc, kinds, upto := t.nmop, snap := t.r, count := 0, watch := [], hit := false,
                             rolled := false } }))
       else if 8 ≤ s.cur.toks.length then waitAt s .ftok
       else if coveredDone s.cur (kinds.setWidth 6) s.cur.nmop then
         .next ((acquire (release s s.cur.core s.cur.cid sc) s.cur.core s.cur.cid sc).adv 1)
       else waitAt s .drain))

/-- At scope 2 a fence or token is an order point of its core (R348); at scopes 3-6 it names no line, so no home serialises it (log
entry 84). -/
def atScope2 (s : State) (scope : Nat) (k : State → Out) : Out :=
  if scope = 2 then orderPoint s s.cur.core k else k s

/-- FTOK: a ninth incomplete token waits for the oldest (R211). -/
def execFtok (g : Guard) (d : XReg) (scope : Scope) (kinds : BitVec 6) (s : State) : Out :=
  guarded g 1 s
    (settled s
      (if 8 ≤ s.cur.toks.length then waitAt s .ftok
       else
         let t := s.cur
         let k : Token := { seq := t.seq + 1, scope := scope.code, kinds, upto := t.nmop, ring := publishedRing s t, mx := t.lastMx }
         atScope2 s scope.code (fun s => .next (s.onCur (fun t =>
           { t with
             seq := t.seq + 1, toks := t.toks ++ [k]
             r := (t.r.setX d (fenceToken t.tid scope.code kinds (t.seq + 1))).adv 1 })))))

/-- FWAIT (R212, R368). -/
def execFwait (g : Guard) (a : XReg) (s : State) : Out :=
  guarded g 1 s
    (settled s
      (match fwaitTest s s.cur (s.cur.r.getX a) with
       | .illegal => illegal8 s
       | .pending => waitAt s (.fwait (s.cur.r.getX a))
       | .complete sc => .next ((acquire s s.cur.core s.cur.cid sc).adv 1)))

end Sys2Proof.Machine
end

