-- ==== Sys2Proof/Machine/PreemptOps.lean ====
section
/-! DEFINITION. Pre-emption's decision (R323-R326), save slots (R328) and how a gang leaves its cores. -/

namespace Sys2Proof.Machine

/-! ## Sizes (R328, R329) -/

/-- Round up to a multiple. -/
def roundUp (n k : Nat) : Nat := (n + k - 1) / k * k

/-- Bytes of a workgroup's allotment, L + W·S (R153). -/
def allotment (l : LRec) : Nat := l.loc + l.wgsize * l.stack

/-- The save slot a gang reserves (R328). -/
def slotBytes (l : LRec) : Nat :=
  let r (n : Nat) : Nat := roundUp n 64
  let sm := 64 + r (l.vregs * (16 + 4 * l.wgsize)) + r (l.xregs * (16 + 8 * l.wgsize)) + r (256 * l.wgsize) + r (allotment l)
    + r (l.aslots * (64 + 327680)) + r (l.aslots * 8192) + 163840
  256 + 4096 + l.gang * sm

/-- Bytes a save of a member would write with the current shapes (R325, R329). -/
def memberBytes (s : State) (w : Wg) : Nat :=
  match s.lrecOf w with
  | none => 0
  | some l =>
    64 + ((declared l).map (fun r => if isSpilled w r then 0 else 16 + fmtBytes (wgFmt s w r) (regWidth r) l.wgsize)).sum
      + 256 * l.wgsize + allotment l + l.aslots * (64 + 327680 + 8192) + 163840

/-- Members of a gang, in order. -/
def membersOf (s : State) (g : Gang) : List Wg := sortBy (·.member) (s.wgs.filter (fun w => g.members.contains w.id))

/-- The greatest of a list. -/
def most (l : List Nat) : Nat := l.foldl max 0

/-- Elapsed ticks of a workgroup since placement, without time spent saved (R325). -/
def elapsed (s : State) (w : Wg) : Nat := w.spent + (s.tick - w.placed)

/-- Ticks that a save or a restore takes (R325, R331). -/
def moveTicks (bytes : Nat) : Nat := 200 + (bytes + 63) / 64

/-! ## The decision (R325) -/

/-- The ways of R325. -/
inductive PreWay
  | drain | save | flush
deriving DecidableEq, Repr

/-- a ≤ b where none is no bound. -/
def within (a : Nat) (b : Option Nat) : Bool := match b with | none => true | some n => a ≤ n

/-- The bound of a gang: the lesser of the request's and LATENCY (R323). -/
def gangBound (br : Option Nat) (latency : Nat) : Option Nat :=
  if latency = 0 then br else match br with | none => some latency | some n => some (min n latency)

/-- The way a gang takes under a bound (R325); ties go to drain, save, flush. -/
def gangWay (s : State) (g : Gang) (l : LRec) (b : Option Nat) : PreWay :=
  let ws := membersOf s g
  let e := most (ws.map (elapsed s))
  let td := most (ws.map (fun w => l.cycles - elapsed s w))
  let ts := moveTicks (most (ws.map (memberBytes s)))
  let cands : List (PreWay × Nat) :=
    (if l.cycles != 0 && within td b then [(PreWay.drain, td)] else []) ++ (if within ts b then [(PreWay.save, 2 * ts)] else [])
      ++ (if within 16 b && ws.all (fun w => !w.side) && !l.noflush then [(PreWay.flush, e)] else [])
  match sortBy (·.2) cands with
  | [] => .save
  | x :: _ => x.1

/-! ## Leaving the cores -/

/-- D falls by the measured workgroup-cycles (R322). -/
def charge (s : State) (cid n : Nat) : State := s.onCtx cid (fun c => { c with deficit := c.deficit - n })

/-- The ticks of a save or a restore are charged to the context that caused them, if a context did (R322). -/
def chargeMove (s : State) (who : Option Nat) (bytes : Nat) : State :=
  match who with
  | some c => charge s c (moveTicks bytes)
  | none => s

/-- Workgroup-cycles of a gang's members that have not ended; one that has was charged then (R322). -/
def unchargedTicks (s : State) (ws : List Wg) : Nat := ((ws.filter (fun w => !w.ended)).map (fun w => s.tick - w.placed)).sum

/-- The threads of a workgroup, restoration threads too. -/
def threadsOf (s : State) (w : Nat) : List Thread := s.all.filter (fun t => refWg t.ref == some w)

/-- Take a workgroup off its core: threads, restoration entries, evaluations. -/
def dropWg (s : State) (w : Wg) : State :=
  let s := (threadsOf s w.id).foldl (fun s t => dropThread s t.ref) s
  let s := s.onCore w.core (fun c =>
    { c with
      restq := c.restq.filter (fun e => e.w != w.id), evals := c.evals.filter (fun e => e.w != w.id)
      owner := (w.base, w.size, w.cid) :: c.owner })
  { s with wgs := s.wgs.filter (fun x => x.id != w.id), trapq := s.trapq.filter (fun x => refWg x.ref != some w.id) }

/-- Take a gang off its cores. -/
def dropGang (s : State) (g : Gang) : State :=
  let s := (membersOf s g).foldl dropWg s
  { s with gangs := s.gangs.filter (fun x => x.id != g.id) }

/-- Free a save slot (R328). -/
def freeSlot (s : State) (cid slot : Nat) : State := s.onCtx cid (fun c => { c with slots := c.slots.filter (fun x => x.1 != slot) })

/-- The flush of a gang (R326): its threads stop, and it returns to its launch's pending gangs. -/
def flushGang (s : State) (g : Gang) : State :=
  let ws := membersOf s g
  let n := unchargedTicks s ws
  let s := ws.foldl (fun s w => (liveOf s w.id).foldl (fun s t => exitThread s ((s.thread? t.ref).getD t) true) s) s
  let s := freeSlot (charge (dropGang s g) g.cid n) g.cid g.slot
  s.onLaunch g.launch (fun l => { l with pending := insertBy id g.g l.pending, live := l.live - 1 })

/-- A request reaches a gang (R323-R326, R335): one that has decided keeps its way. `by'` is the context that asks, if one does. -/
def preempt (s : State) (gid : Nat) (br by' : Option Nat) : State :=
  match s.gang? gid with
  | none => s
  | some g =>
    match (s.launch? g.launch).map (·.lrec) with
    | none => s
    | some l =>
      if g.way != .run || g.endTick.isSome then s
      else
        let b := gangBound br l.latency
        match gangWay s g l b with
        | .drain => s.onGang gid (fun g => { g with way := .drain (b.map (fun n => s.tick + n)), by' })
        | .save => s.onGang gid (fun g => { g with way := .save, by' })
        | .flush => flushGang s g

end Sys2Proof.Machine
end

