-- ==== Sys2Proof/Machine/LaneFloat.lean ====
section
/-! DEFINITION. Floating instructions of the lane set (R88-R93). -/

namespace Sys2Proof.Machine

/-- An LA instruction with a floating result and flags (R78, R88). -/
def laneBinFl (f : Nat → Nat → Nat × Fl) (g : Guard) (d : Dst8) (a : Src8) (b : Src5) (s : State) : Out :=
  laneFl g d (1 + a.lits + b.lits) (f (s.cur.src8 a).toNat (s.cur.src5 b).toNat) s

/-- An LU instruction with a floating result and flags (R78, R90). -/
def laneUnFl (f : Nat → Nat × Fl) (g : Guard) (d : Dst8) (a : Src8) (s : State) : Out :=
  laneFl g d (1 + a.lits) (f (s.cur.src8 a).toNat) s

/-- A function of values, with its own flags, rounded to a format (R66). -/
def valUn (f : Fmt) (k : Val → Val × Fl) (a : Nat) : Nat × Fl := f.out (k (f.dec a))

/-- A result of values, rounded to a format (R66). -/
def valBin (f : Fmt) (k : Val → Val → Val × Fl) (a b : Nat) : Nat × Fl := f.out (k (f.dec a) (f.dec b))

/-- a · b + c with one rounding (R88, R93, R108). -/
def valFma (f : Fmt) (c a b : Nat) : Nat × Fl := f.out ((f.dec a).fma (f.dec b) (f.dec c))

/-- Scale by a power of two; only a NaN, an infinity and a zero are not rounded (R88). -/
def valScale (f : Fmt) (a : Nat) (k : Int) : Nat × Fl :=
  match f.dec a with
  | .nan q => f.out (.nan q, (Val.nan q).sigFl)
  | .inf n => f.out (.inf n, 0)
  | .fin n m e => f.out (if m = 0 then .fin n 0 e else .fin n m (e + k), 0)

/-- |a| or −a: NaN canonical (R91). -/
def valSign (f : Fmt) (k : Val → Val) (a : Nat) : Nat × Fl := f.out (k (f.dec a), (f.dec a).sigFl)

/-- FFLOOR, FCEIL, FTRUNC, FRINT and their binary64 forms (R91, R110): the value is exact. -/
def valIntegral (f : Fmt) (k : Integral) (a : Nat) : Nat × Fl := f.out ((f.dec a).integral k, (f.dec a).sigFl)

/-- The two halves of a word, each by the rule of its half (R93). -/
def halves (f : Nat → Nat → Nat → Nat × Fl) (c a b : Nat) : Nat × Fl :=
  let l := f (c % 65536) (a % 65536) (b % 65536)
  let h := f (c / 65536 % 65536) (a / 65536 % 65536) (b / 65536 % 65536)
  (h.1 * 65536 + l.1, h.2 ||| l.2)

/-- FADD (R88). -/
def execFadd (g : Guard) (d : Dst8) (a : Src8) (b : Src5) (s : State) : Out :=
  laneBinFl (valBin .f32 Val.add) g d a b s

/-- FSUB (R88). -/
def execFsub (g : Guard) (d : Dst8) (a : Src8) (b : Src5) (s : State) : Out :=
  laneBinFl (valBin .f32 (fun x y => x.add y.neg)) g d a b s

/-- FMUL (R88). -/
def execFmul (g : Guard) (d : Dst8) (a : Src8) (b : Src5) (s : State) : Out :=
  laneBinFl (valBin .f32 Val.mul) g d a b s

/-- FFMA: D is the addend (R88). -/
def execFfma (g : Guard) (d : Dst8) (a : Src8) (b : Src5) (s : State) : Out :=
  laneBinFl (valFma .f32 (s.cur.dst8 d).toNat) g d a b s

/-- FMIN (R89). -/
def execFmin (g : Guard) (d : Dst8) (a : Src8) (b : Src5) (s : State) : Out :=
  laneBinFl (Fmt.f32.minmax false) g d a b s

/-- FMAX (R89). -/
def execFmax (g : Guard) (d : Dst8) (a : Src8) (b : Src5) (s : State) : Out :=
  laneBinFl (Fmt.f32.minmax true) g d a b s

/-- FSCALE: b is a signed integer (R88). -/
def execFscale (g : Guard) (d : Dst8) (a : Src8) (b : Src5) (s : State) : Out :=
  laneBinFl (fun x y => valScale .f32 x (BitVec.ofNat 32 y).toInt) g d a b s

/-- FABS (R91). -/
def execFabs (g : Guard) (d : Dst8) (a : Src8) (s : State) : Out :=
  laneUnFl (valSign .f32 Val.abs) g d a s

/-- FNEG (R91). -/
def execFneg (g : Guard) (d : Dst8) (a : Src8) (s : State) : Out :=
  laneUnFl (valSign .f32 Val.neg) g d a s

/-- FRCP (R90, R77). -/
def execFrcp (g : Guard) (d : Dst8) (a : Src8) (s : State) : Out :=
  laneUnFl (valUn .f32 Val.recip) g d a s

/-- FRSQ (R90, R77). -/
def execFrsq (g : Guard) (d : Dst8) (a : Src8) (s : State) : Out :=
  laneUnFl (valUn .f32 Val.rsqrt) g d a s

/-- FSQRT (R90). -/
def execFsqrt (g : Guard) (d : Dst8) (a : Src8) (s : State) : Out :=
  laneUnFl (valUn .f32 Val.sqrt) g d a s

/-- FEXP2 (R90, R77). -/
def execFexp2 (g : Guard) (d : Dst8) (a : Src8) (s : State) : Out :=
  laneUnFl (valUn .f32 Val.exp2) g d a s

/-- FLOG2 (R90, R77). -/
def execFlog2 (g : Guard) (d : Dst8) (a : Src8) (s : State) : Out :=
  laneUnFl (valUn .f32 Val.log2) g d a s

/-- FSINR (R90, R77). -/
def execFsinr (g : Guard) (d : Dst8) (a : Src8) (s : State) : Out :=
  laneUnFl (valUn .f32 (Val.turn false)) g d a s

/-- FCOSR (R90, R77). -/
def execFcosr (g : Guard) (d : Dst8) (a : Src8) (s : State) : Out :=
  laneUnFl (valUn .f32 (Val.turn true)) g d a s

/-- FTANH (R90, R77). -/
def execFtanh (g : Guard) (d : Dst8) (a : Src8) (s : State) : Out :=
  laneUnFl (valUn .f32 Val.tanh) g d a s

/-- FSIGM (R90, R77). -/
def execFsigm (g : Guard) (d : Dst8) (a : Src8) (s : State) : Out :=
  laneUnFl (valUn .f32 Val.sigm) g d a s

/-- FFLOOR (R91). -/
def execFfloor (g : Guard) (d : Dst8) (a : Src8) (s : State) : Out :=
  laneUnFl (valIntegral .f32 .floor) g d a s

/-- FCEIL (R91). -/
def execFceil (g : Guard) (d : Dst8) (a : Src8) (s : State) : Out :=
  laneUnFl (valIntegral .f32 .ceil) g d a s

/-- FTRUNC (R91). -/
def execFtrunc (g : Guard) (d : Dst8) (a : Src8) (s : State) : Out :=
  laneUnFl (valIntegral .f32 .trunc) g d a s

/-- FRINT (R91). -/
def execFrint (g : Guard) (d : Dst8) (a : Src8) (s : State) : Out :=
  laneUnFl (valIntegral .f32 .rint) g d a s

/-- FFRAC (R91). -/
def execFfrac (g : Guard) (d : Dst8) (a : Src8) (s : State) : Out :=
  laneUnFl Fmt.f32.frac g d a s

/-- FSAT (R91). -/
def execFsat (g : Guard) (d : Dst8) (a : Src8) (s : State) : Out :=
  laneUnFl Fmt.f32.sat g d a s

/-- FCLASS (R92). -/
def execFclass (g : Guard) (d : Dst8) (a : Src8) (s : State) : Out :=
  laneUnFl (fun x => (Fmt.f32.cls x, 0)) g d a s

/-- HADD2 (R93). -/
def execHadd2 (g : Guard) (d : Dst8) (a : Src8) (b : Src5) (s : State) : Out :=
  laneBinFl (halves (fun _ => valBin .f16 Val.add) 0) g d a b s

/-- HMUL2 (R93). -/
def execHmul2 (g : Guard) (d : Dst8) (a : Src8) (b : Src5) (s : State) : Out :=
  laneBinFl (halves (fun _ => valBin .f16 Val.mul) 0) g d a b s

/-- HFMA2: D is the addend (R93). -/
def execHfma2 (g : Guard) (d : Dst8) (a : Src8) (b : Src5) (s : State) : Out :=
  laneBinFl (halves (valFma .f16) (s.cur.dst8 d).toNat) g d a b s

/-- BFMA2: D is the addend (R93). -/
def execBfma2 (g : Guard) (d : Dst8) (a : Src8) (b : Src5) (s : State) : Out :=
  laneBinFl (halves (valFma .bf16) (s.cur.dst8 d).toNat) g d a b s

/-- HMIN2 (R93, R89). -/
def execHmin2 (g : Guard) (d : Dst8) (a : Src8) (b : Src5) (s : State) : Out :=
  laneBinFl (halves (fun _ => Fmt.f16.minmax false) 0) g d a b s

/-- HMAX2 (R93, R89). -/
def execHmax2 (g : Guard) (d : Dst8) (a : Src8) (b : Src5) (s : State) : Out :=
  laneBinFl (halves (fun _ => Fmt.f16.minmax true) 0) g d a b s

end Sys2Proof.Machine
end

