-- ==== Sys2Proof/Machine/RegionOps.lean ====
section
/-! DEFINITION. Surrogate regions: descriptors, images, their checks, the evaluation, and the aggregator (R261-R273). -/

namespace Sys2Proof.Machine

/-! ## Descriptors and images -/

/-- A number of n bytes at an offset of a byte list. -/
def at_ (bs : List Byte) (off n : Nat) : Nat := ofBytes ((bs.drop off).take n)

/-- The fields of a region descriptor (R261). -/
structure RDesc where
  exactpc : Nat
  state : Nat
  k : Nat
  metric : Bool
  resc : Nat
  argc : Nat
  kind : Nat
  image : Nat
  ibytes : Nat
  poff : Nat
  qb : Nat
  floor : Nat
  thresh : Nat
  phase : Nat
  ctrs : Nat
  zeros : Bool
deriving DecidableEq, Repr

/-- Read a descriptor from its 64 bytes; `zeros`: every reserved bit is zero. -/
def RDesc.ofBytes (bs : List Byte) : RDesc :=
  let d := at_ bs 8 8
  { exactpc := at_ bs 0 8, state := bits d 48 2, k := bits d 40 5, metric := bits d 32 1 == 1, resc := bits d 16 4,
    argc := bits d 12 4, kind := bits d 0 8, image := at_ bs 16 8, ibytes := at_ bs 24 4, poff := at_ bs 28 4,
    qb := at_ bs 32 4, floor := at_ bs 36 4, thresh := at_ bs 40 4, phase := at_ bs 44 4, ctrs := at_ bs 48 8,
    zeros := bits d 50 14 == 0 && bits d 45 3 == 0 && bits d 33 7 == 0 && bits d 20 12 == 0 && bits d 8 4 == 0 && at_ bs 56 8 == 0 }

/-- The value of binary32 bits. -/
def f32v (w : Nat) : Val := Fmt.f32.dec w

/-- The checks of a descriptor alone (R261, R262); with KIND 0 the surrogate's fields are ignored. -/
def RDesc.ok (d : RDesc) : Bool :=
  (d.state == 1 || d.state == 2) && d.kind ≤ 2 && d.zeros && d.exactpc % 4 == 0 && 1 ≤ d.resc && d.resc ≤ 8
    && 1 ≤ d.argc && d.argc ≤ 8 && d.ctrs % 64 == 0
    && (d.kind == 0 ||
      ((d.k ≤ 20 || d.k == 31) && d.image % 16 == 0 && 1 ≤ d.ibytes && d.ibytes ≤ 524288 && d.poff % 4 == 0
        && !(f32v d.qb).isNan && !((f32v d.qb).lt (.fin false 0 0))
        && (!d.metric || (!(f32v d.floor).isNan && (Val.fin false 0 0).lt (f32v d.floor)))))

/-- Byte i of an image. -/
def byteAt (im : List Byte) (i : Nat) : Nat := at_ im i 1

/-- Bytes padded to a multiple of 4. -/
def pad4 (n : Nat) : Nat := (n + 3) / 4 * 4

/-- Layer widths W1 to W_NL (R264). -/
def widths (im : List Byte) (nl : Nat) : List Nat := (List.range nl).map (fun l => byteAt im (4 + l))

/-- The bytes of an MLP layer. -/
def layerBytes (prev w : Nat) : Nat := pad4 (2 * (w * prev + w))

/-- The offset after the affine pairs. -/
def bodyOff (d : RDesc) : Nat := 16 + 8 * d.argc + 8 * d.resc

/-- The bytes of the layers of an MLP. -/
def mlpBytes (prev : Nat) : List Nat → Nat
  | [] => 0
  | w :: ws => layerBytes prev w + mlpBytes w ws

/-- Points per axis of a table. -/
def points (im : List Byte) (n : Nat) : List Nat := (List.range n).map (fun d => byteAt im (4 + d))

/-- A product. -/
def prod (l : List Nat) : Nat := l.foldl (· * ·) 1

/-- The predictor's header and size (R264). -/
def predOk (d : RDesc) (im : List Byte) : Bool :=
  let pk := byteAt im d.poff
  let h := byteAt im (d.poff + 1)
  let np := d.argc + d.resc
  let size := if pk = 0 then 4 + 4 * (1 + np) else 4 + 4 * (h * np + h + h + 1)
  d.poff + 4 ≤ d.ibytes && (pk == 0 && h == 0 || pk == 1 && 1 ≤ h && h ≤ 16) && byteAt im (d.poff + 2) == 0 && byteAt im (d.poff + 3) == 0
    && d.poff + size ≤ d.ibytes

/-- The image's 16-byte header against the descriptor (R262, R264). -/
def headOk (d : RDesc) (im : List Byte) : Bool :=
  if d.kind = 0 then true
  else if d.ibytes < 16 then false
  else if d.kind = 1 then
    let nl := byteAt im 1
    let ws := widths im nl
    byteAt im 0 == d.argc && 1 ≤ nl && nl ≤ 4 && at_ im 2 2 == 0
      && ws.all (fun w => 1 ≤ w && w ≤ 64) && ws.getLast? == some d.resc
      && (List.range 4).all (fun l => if l < nl then byteAt im (8 + l) ≤ 4 else byteAt im (4 + l) == 0 && byteAt im (8 + l) == 0)
      && at_ im 12 4 == 0 && bodyOff d + mlpBytes d.argc ws ≤ d.ibytes
  else
    let ps := points im d.argc
    byteAt im 0 == d.argc && d.argc ≤ 4 && byteAt im 1 == 0 && at_ im 2 2 == 0
      && (List.range 4).all (fun i => if i < d.argc then 2 ≤ byteAt im (4 + i) && byteAt im (4 + i) ≤ 64 else byteAt im (4 + i) == 0)
      && at_ im 8 8 == 0 && bodyOff d + 4 * (d.resc * prod ps) ≤ d.ibytes

/-- The headers of an image against the descriptor (R262, R264). -/
def imageOk (d : RDesc) (im : List Byte) : Bool := headOk d im && (d.kind == 0 || predOk d im)

/-! ## The evaluation (R265): every operation a binary32 Round -/

/-- Round(v, binary32). -/
def r32 (v : Val) : Nat := (Fmt.f32.round v).1
/-- Round(x·y + z). -/
def fma32 (x y z : Nat) : Nat := r32 ((f32v x).fma (f32v y) (f32v z)).1
/-- Round(x − y). -/
def sub32 (x y : Nat) : Nat := r32 ((f32v x).add (f32v y).neg).1
/-- Round(x·y). -/
def mul32 (x y : Nat) : Nat := r32 ((f32v x).mul (f32v y)).1
/-- A binary32 of an image. -/
def f32At (im : List Byte) (off : Nat) : Nat := at_ im off 4
/-- A binary16 of an image, widened. -/
def f16At (im : List Byte) (off : Nat) : Nat := r32 (Fmt.f16.dec (at_ im off 2))
/-- The canonical NaN. -/
def nan32 : Nat := Fmt.f32.nan

/-- ReLU (R265). -/
def relu (x : Nat) : Nat := if (f32v x).isNan then nan32 else if (Val.fin false 0 0).lt (f32v x) then x else 0

/-- An activation function (R265). -/
def act (k x : Nat) : Nat :=
  let sg := r32 (f32v x).sigm.1
  if k = 0 then x else if k = 1 then relu x else if k = 2 then r32 (f32v x).tanh.1 else if k = 3 then sg else mul32 x sg

/-- Σ w·x onto an accumulator, one Round a step. -/
def dot : List (Nat × Nat) → Nat → Nat
  | [], acc => acc
  | p :: ps, acc => dot ps (fma32 p.1 p.2 acc)

/-- u[i]: the affine inputs. -/
def affIn (im : List Byte) (args : List Nat) : List Nat :=
  args.zipIdx.map (fun a => fma32 a.1 (f32At im (16 + 8 * a.2)) (f32At im (20 + 8 * a.2)))

/-- One MLP layer at an offset. -/
def layer (im : List Byte) (off prev w act' : Nat) (h : List Nat) : List Nat :=
  (List.range w).map (fun o =>
    act act' (dot (h.zipIdx.map (fun x => (f16At im (off + 2 * (o * prev + x.2)), x.1))) (f16At im (off + 2 * (w * prev + o)))))

/-- The layers in order. -/
def layers (im : List Byte) : List (Nat × Nat) → Nat → Nat → List Nat → List Nat
  | [], _, _, h => h
  | (w, l) :: ws, off, prev, h => layers im ws (off + layerBytes prev w) w (layer im off prev w (byteAt im (8 + l)) h)

/-- A table coordinate: interval and fraction, none for NaN. -/
def coord (t p : Nat) : Option (Nat × Nat) :=
  let v := f32v t
  if v.isNan then none
  else
    let top := r32 (.ofInt (p - 1))
    let c := if v.lt (.fin false 0 0) then 0 else if (f32v top).lt v then top else t
    let i := min ((f32v c).toInt .trunc 0 64).1.toNat (p - 2)
    some (i, sub32 c (r32 (.ofInt i)))

/-- lerp (R265). -/
def lerp (a b f : Nat) : Nat := fma32 f (sub32 b a) a

/-- Reduce pairs of nodes along one axis. -/
def reduceAxis (f : Nat) : List Nat → List Nat
  | a :: b :: l => lerp a b f :: reduceAxis f l
  | l => l

/-- The corner nodes, the first axis varying fastest. -/
def corners (cs : List (Nat × Nat)) (ps : List Nat) : List Nat :=
  let strides := (List.range ps.length).map (fun d => prod (ps.drop (d + 1)))
  (cs.zip strides).foldl (fun idx c => idx.map (· + c.1.1 * c.2) ++ idx.map (· + (c.1.1 + 1) * c.2)) [0]

/-- The outputs of a table. -/
def tableOut (d : RDesc) (im : List Byte) (u : List Nat) : List Nat :=
  let ps := points im d.argc
  let cs := (u.zip ps).map (fun x => coord x.1 x.2)
  if cs.any (·.isNone) then List.replicate d.resc nan32
  else
    let cs := cs.filterMap id
    (List.range d.resc).map (fun j =>
      let nodes := (corners cs ps).map (fun i => f32At im (bodyOff d + 4 * (j * prod ps + i)))
      (cs.foldl (fun l c => reduceAxis c.2 l) nodes).headD 0)

/-- The surrogate's results and the predictor's e (R265). -/
def surrogate (d : RDesc) (im : List Byte) (args : List Nat) : List Nat × Nat :=
  let u := affIn im args
  let h := if d.kind = 1 then layers im ((widths im (byteAt im 1)).zipIdx) (bodyOff d) d.argc u else tableOut d im u
  let nanned := d.kind != 1 && ((u.zip (points im d.argc)).any (fun x => (f32v x.1).isNan))
  let ys := h.zipIdx.map (fun x =>
    if nanned then nan32
    else fma32 x.1 (f32At im (16 + 8 * d.argc + 8 * x.2)) (f32At im (20 + 8 * d.argc + 8 * x.2)))
  let ins := u ++ ys
  let np := d.argc + d.resc
  let o := d.poff + 4
  let lin (woff boff : Nat) : Nat := dot (ins.zipIdx.map (fun x => (f32At im (woff + 4 * x.2), x.1))) (f32At im boff)
  let e :=
    if byteAt im d.poff = 0 then lin (o + 4) o
    else
      let hn := byteAt im (d.poff + 1)
      let q := (List.range hn).map (fun m => relu (lin (o + 4 * m * np) (o + 4 * (hn * np + m))))
      dot (q.zipIdx.map (fun x => (f32At im (o + 4 * (hn * np + hn + x.2)), x.1))) (f32At im (o + 4 * (hn * np + hn + hn)))
  (ys, e)

/-! ## The metric (R270) -/

/-- |a − b| as an exact value. -/
def absDiff (a b : Val) : Val := (a.add b.neg).1.abs

/-- a / b, b not zero, with a sticky last bit. -/
def quot (a b : Val) : Val :=
  match a, b with
  | .nan _, _ | _, .nan _ => .nan false
  | .inf _, .inf _ => .nan false
  | .inf s, .fin _ _ _ => .inf s
  | .fin s _ _, .inf _ => .fin s 0 0
  | .fin s m e, .fin t n k =>
    if n = 0 then .inf (s ^^ t)
    else
      let x := m * 2 ^ 400
      .fin (s ^^ t) (sticky (x / n) (x % n != 0)) (e - k - 401)

/-- The greater of two values that are no NaN. -/
def maxVal (a b : Val) : Val := if a.lt b then b else a

/-- err, as binary64 bits (R270). -/
def metricErr (relative : Bool) (floor : Nat) (ys ye : List W32) : Nat :=
  let terms := (ys.zip ye).map (fun x =>
    let a := f32v x.1.toNat
    let b := f32v x.2.toNat
    if a.isNan || b.isNan then Val.nan false
    else
      let d := absDiff a b
      if relative then quot d (maxVal b.abs (f32v floor)) else d)
  if terms.any Val.isNan then Fmt.f64.nan else (Fmt.f64.round (terms.foldl maxVal (.fin false 0 0))).1

/-! ## The aggregator (R263, R272) -/

/-- A region's place in the table (R261). -/
def descVa (s : State) (cid region : Nat) : Option Nat :=
  (s.ctx? cid).bind (fun c => if c.desc.rtab = 0 then none else some (c.desc.rtab + 64 * region))

/-- The aggregator's counts of a region. -/
def aggOf (s : State) (cid region : Nat) : Option Agg := (s.ctx? cid).bind (fun c => c.agg.find? (fun a => a.region == region))

/-- Change the aggregator's counts of a region. -/
def onAgg (s : State) (cid region : Nat) (f : Agg → Agg) : State :=
  s.onCtx cid (fun c => { c with agg := updFirst (fun a => a.region == region) f c.agg })

/-- Add to a counter; counts wrap modulo 2^64. -/
def bump (s : State) (cid region : Nat) (i : Fin 8) : State :=
  onAgg s cid region (fun a => { a with c := a.c.set i.val (a.c[i] + 1) i.isLt })

/-- The aggregator takes a region's counts up from its block, unless it holds them (R263). -/
def takeUp (s : State) (cid region ctrs st : Nat) : State :=
  if (aggOf s cid region).isSome then s
  else
    let c : Vector W64 8 := Vector.ofFn (fun i : Fin 8 => BitVec.ofNat 64 (devNum s cid (ctrs + 8 * i.val) 8))
    s.onCtx cid (fun x => { x with agg := x.agg ++ [{ region, c, state := st }] })

/-- The counters block is written: a release at device scope (R263). -/
def writeBlock (s : State) (cid region : Nat) : State :=
  match descVa s cid region, aggOf s cid region with
  | some va, some a => devPut s cid (devNum s cid (va + 48) 8) (a.c.toList.flatMap (fun w => bytesLE 8 w.toNat))
  | _, _ => s

/-- The device writes STATE of a descriptor (R261): bits [49:48] of its dword 1. -/
def writeRegionState (s : State) (cid region st : Nat) : State :=
  match descVa s cid region with
  | some va =>
    let b := devNum s cid (va + 14) 1
    (devPut s cid (va + 14) (bytesLE 1 (b / 4 * 4 + st)))
  | none => s

/-- Broadcast DISABLE (true) or ENABLE to every core that is listed (R272, R273). -/
def broadcast (s : State) (cid region : Nat) (disable : Bool) : State :=
  { s with cores := s.cores.map (fun c => { c with todo := c.todo ++ [(cid, region, disable)] }) }

/-- The region is disabled in one tick (R272). -/
def disableRegion (s : State) (cid region : Nat) : State :=
  let s := onAgg s cid region (fun a => { a with state := 2, c := a.c.set 7 (BitVec.ofNat 64 s.tick) (by decide) })
  let s := writeRegionState s cid region 2
  let s := writeBlock s cid region
  let s := postEvent s cid 1 region 0
  broadcast s cid region true

/-- The attestation log of a context takes an entry (R381). -/
def measure (s : State) (cid kind : Nat) (image : List Byte) : State :=
  s.onCtx cid (fun c =>
    let d := Config.shake256 image
    { c with attest := c.attest ++ [(kind, d)], measure := Config.shake256 (c.measure ++ bytesLE 8 kind ++ d) })

/-! ## The replica store (R262) -/

/-- The image a core has of a region. -/
def residentOf (s : State) (core cid region : Nat) : Option Resident :=
  (s.core core).store.find? (fun r => r.cid == cid && r.region == region)

/-- Is an image used by an evaluation of its core. -/
def inUse (c : Core) (r : Resident) : Bool := c.evals.any (fun e => e.cid == r.cid && e.region == r.region)

/-- Bytes of some images. -/
def imageBytes (l : List Resident) : Nat := (l.map (fun r => r.image.length)).sum

/-- Take `n` bytes of images away: of a list with the least recently used first, the first that are neither pinned nor used. -/
def evictLru (c : Core) : List Resident → Nat → List Resident
  | [], _ => []
  | r :: rs, n => if n = 0 || r.pin || inUse c r then r :: evictLru c rs n else evictLru c rs (n - r.image.length)

/-- Evict, the least recently used first, until `need` bytes more fit; the list holds the most recently used first (R262). -/
def evictTo (c : Core) (l : List Resident) (need : Nat) : List Resident :=
  (evictLru c l.reverse (imageBytes l + need - Config.replicaBytes)).reverse

/-- Has the store room for an image beside what may not be evicted (R262)? Where it has none a load waits (log entry 93). -/
def storeRoom (c : Core) (cid region need : Nat) : Bool :=
  imageBytes (evictTo c (c.store.filter (fun r => !(r.cid == cid && r.region == region))) need) + need ≤ Config.replicaBytes

/-- What a load comes to (R262). -/
inductive LoadRes
  | ok (d : RDesc) (desc image : List Byte)
  | illegal
  | rd (r : Rd)
deriving DecidableEq, Repr

/-- Read and check a region as loads of a thread (R262). `no` says what else makes the instruction ILLEGAL: what the descriptor or
the header shows wrong comes before a fault of what is read after it (R63). -/
def fetchRegion (s : State) (t : Thread) (region : Nat) (no : RDesc → Bool) : LoadRes × State :=
  match descVa s t.cid region with
  | none => (.illegal, s)
  | some va =>
    match engineRead s (s.wgOf t) t.core t.cid t.mops va 64 6 with
    | (.ok desc, s) =>
      let d := RDesc.ofBytes desc
      if !d.ok || no d then (.illegal, s)
      else if d.kind = 0 then (.ok d desc [], s)
      else
        (match engineRead s (s.wgOf t) t.core t.cid t.mops d.image (min 16 d.ibytes) 6 with
          | (.ok hd, s) =>
            if !headOk d hd then (.illegal, s)
            else
              (match engineRead s (s.wgOf t) t.core t.cid t.mops d.image d.ibytes 6 with
                | (.ok im, s) => (if imageOk d im then .ok d desc im else .illegal, s)
                | (r, s) => (.rd r, s))
          | (r, s) => (.rd r, s))
    | (r, s) => (.rd r, s)

/-- Make a checked region resident on a core (R262, R263, R381). The state a core has applied stands: the descriptor gives it only to a
core that has applied none in this phase (R272, R273). -/
def makeResident (s : State) (core cid region : Nat) (d : RDesc) (desc image : List Byte) (pin : Bool) : State :=
  let s := takeUp s cid region d.ctrs d.state
  let first := !((s.ctx? cid).map (fun c => c.measured.contains region)).getD true
  let s := if first && d.kind != 0 then (measure s cid 3 image).onCtx cid (fun c => { c with measured := c.measured ++ [region] }) else s
  s.onCore core (fun c =>
    let others := c.store.filter (fun r => !(r.cid == cid && r.region == region))
    { c with
      store := { cid, region, pin, desc, image } :: evictTo c others image.length
      states := if c.states.any (fun x => x.1 == cid && x.2.1 == region) then c.states else (cid, region, d.state) :: c.states })

/-- Take the trap of a failed load, or park on its page (R262, R306). -/
def loadTrap (s : State) (r : LoadRes) : Out :=
  match r with
  | .ok _ _ _ => .next s
  | .illegal => illegal8 s
  | .rd (.bad c a i) => trap s c a i
  | .rd (.absent va) =>
    let r := pageRequest s s.cur.cid va 6 (.thread s.cur.ref)
    waitAt r.2 (.page r.1)
  | .rd (.hole pa) => .fault (.noSuchMemory pa)
  | .rd (.ok _) => .next s

/-- Load a region for the selected thread, after what its reads must follow (R205, R262); a rejected page is PAGE (R316). -/
def withLoad (s : State) (region : Nat) (no : RDesc → Bool) (k : RDesc → List Byte → List Byte → State → Out) : Out :=
  acquired s
    (match s.cur.rej with
     | some a => trap s cPAGE a (info306 0 6)
     | none =>
       match fetchRegion s s.cur region no with
       | (.ok d desc im, s) => k d desc im s
       | (r, s) => loadTrap s r)

/-- The region's state as a core applied it (R266). -/
def appliedState (s : State) (core cid region : Nat) : Nat :=
  (((s.core core).states.find? (fun x => x.1 == cid && x.2.1 == region)).map (·.2.2)).getD 0

/-- Count(core, region) (R266). -/
def countOf (s : State) (core cid region : Nat) : W32 :=
  (((s.ctx? cid).bind (fun c => c.counts.find? (fun x => x.1 == core && x.2.1 == region))).map (·.2.2)).getD 0

/-- Write Count(core, region). -/
def setCount (s : State) (core cid region : Nat) (n : W32) : State :=
  s.onCtx cid (fun c => { c with counts := (core, region, n) :: c.counts.filter (fun x => !(x.1 == core && x.2.1 == region)) })

end Sys2Proof.Machine
end

