-- ==== Sys2Proof/Machine/System.lean ====
section
/-! DEFINITION. The SYS functions (R52, R124-R126, R273, R283, R333, R350, R375). -/

namespace Sys2Proof.Machine

/-! ## Who may run them (R52) -/

/-- Privileged code: curators, and trap handlers of system software's contexts (R52, R318). -/
def privileged (s : State) : Bool :=
  match s.cur.ref with
  | .cur _ => true
  | .thr _ _ => s.cur.tmode && ((s.ctx? s.cur.cid).map (·.desc.syssw)).getD false
  | .none | .rest _ _ => false

/-- A privileged function of one word (R52, R63). -/
def sysPriv (g : Guard) (s : State) (k : Out) : Out :=
  guarded g 1 s (if privileged s then outside s (settled s k) else trap s cPRIV 0 0)

/-- A function of curator cores only (R52): the curator and its queue. -/
def sysCurator (g : Guard) (s : State) (k : Curator → Queue → Out) : Out :=
  guarded g 1 s
    (match s.cur.ref with
     | .cur c =>
       (match s.curator? c with
        | none => trap s cPRIV 0 0
        | some k' =>
          (match s.queue? k'.q with
           | none => trap s cPRIV 0 0
           | some q => settled s (k k' q)))
     | .none | .thr _ _ | .rest _ _ => trap s cPRIV 0 0)

/-- A register pair: A even and at most 58 (R375). -/
def pairOk (a : XReg) : Bool := a.val % 2 == 0 && a.val ≤ 58

/-- The second register of a pair. -/
def pairHigh (t : Thread) (a : XReg) : W64 := t.r.getX (Fin.ofNat 64 (a.val + 1))

/-- Read bytes for a curator's SYS function through the context's translation (R375); KIND 1; a rejected page is PAGE (R316). -/
def sysRead (s : State) (va : W64) (n : Nat) (k : List Byte → State → Out) : Out :=
  match s.cur.rej with
  | some a => trap s cPAGE a (info306 0 1)
  | none =>
  match engineRead s none s.cur.core s.cur.cid s.cur.mops va.toNat n 1 with
  | (.ok bs, s) => k bs s
  | (.bad c a i, s) => trap s c a i
  | (.hole pa, _) => .fault (.noSuchMemory pa)
  | (.absent a, s) =>
    let r := pageRequest s s.cur.cid a 1 (.thread s.cur.ref)
    waitAt r.2 (.page r.1)

/-- Read a block of n bytes from one of the queue's windows (R283, R375): ALIGN, then PROT with reason 2. -/
def windowRead (s : State) (c : Curator) (va : W64) (n align : Nat) (k : List Byte → State → Out) : Out :=
  if va.toNat % align ≠ 0 then trap s cALIGN va (info306 0 1)
  else if c.wins.any (fun w => w.1 ≤ va.toNat && va.toNat + n ≤ w.1 + w.2) then sysRead s va n k
  else trap s cPROT va (info306 2 1)

/-! ## BKPT, TLBINV, L1CLEAN, ARCHIVE -/

/-- BKPT halts the thread when the context has breakpoints enabled; PC stays at it until the resume (R124, R346). -/
def execBkpt (g : Guard) (s : State) : Out :=
  guarded g 1 s
    (outside s (settled s
      (if ((s.ctx? s.cur.cid).map (·.dbg.bken)).getD false then .next (haltThread s s.cur.ref true) else .next (s.adv 1))))

/-- The translations that TLBINV's operand names (R125). -/
def invNames (x : Nat) (e : TlbEnt) : Bool :=
  (bits x 63 1 == 1 || e.cid == bits x 56 6) && (bits x 62 1 == 1 || (e.va ≤ bits x 0 56 && bits x 0 56 < e.va + e.size))

/-- TLBINV (R125). -/
def execTlbinv (g : Guard) (a : XReg) (s : State) : Out :=
  sysPriv g s
    (let x := (s.cur.r.getX a).toNat
     let d := dieOf s.cur.core
     let s := sideOn s
     let s := s.onCore s.cur.core (fun c => { c with tlb := c.tlb.filter (fun e => !invNames x e) })
     let l2 := s.l2.set d.val ((s.l2[d]).filter (fun e => !invNames x e)) d.isLt
     .next ({ s with l2 }.adv 1))

/-- L1CLEAN (R126); the lines of the scope are those cleaned. -/
def execL1clean (g : Guard) (a : XReg) (s : State) : Out :=
  sysPriv g s
    (let x := (s.cur.r.getX a).toNat
     if 256 ≤ x then illegal8 s
     else
       let drop := bits x 7 1 == 1
       let names (l : Sector) : Bool := (bits x 6 1 == 1 || l.cid == bits x 0 6) && (drop || l.dirty != 0)
       .next ((writeBackAll (sideOn s) s.cur.core names drop).adv 1))

/-- ARCHIVE: an order point with a marker chunk in a recording; a replay holds it at the gate and stops the context at an
armed label (R350). -/
def execArchive (g : Guard) (a : XReg) (s : State) : Out :=
  guarded g 1 s
    (outside s (settled s
      (let t := s.cur
       let label := bits (t.r.getX a).toNat 0 24
       match gateTake s t.cid t.core t.core t.slot 0xFFFD with
       | none => waitAt s (.gate t.core 0xFFFD)
       | some (s, _) =>
         let s := logValue (sideOn s) t.cid t.core t.core t.slot 0xFFFD (agentVal t.core t.slot label)
         let s := s.adv 1
         if replaying s t.cid && ((s.ctx? t.cid).bind (·.arch.stopLabel)) == some label then .next (haltAll s t.cid) else .next s)))

/-! ## The curator's functions (R375) -/

/-- QLAUNCH: the record is read, the launch handed to the dispatcher, and the curator waits for its decision. -/
def execQlaunch (g : Guard) (a : XReg) (s : State) : Out :=
  sysCurator g s (fun _ q =>
    if !pairOk a then illegal8 s
    else
      let va := s.cur.r.getX a
      if va.toNat % 256 ≠ 0 then trap s cALIGN va (info306 0 1)
      else
        sysRead s va 256 (fun raw s =>
          let l : Launch :=
            { id := s.uid, cid := q.cid, addr := va, raw, q := q.q, sig := pairHigh s.cur a, accepted := false, phase := q.fresh,
              a, next := 0, total := 0, pending := [], live := 0, units := []
              lrec := { entry := 0, handler := 0, noflush := false, zlocal := false, wgsize := 1, levels := [], regroup := 0, rslots := 0,
                        gang := 1, aslots := 0, xregs := 0, vregs := 0, stack := 0, loc := 0, ringOff := 0, ringEnt := 0, spill := 0,
                        wgHeapOff := 0, wgHeapSz := 0, clHeapOff := 0, clHeapSz := 0, cycles := 0, latency := 0, args := 0 } }
          let s := { s with launches := s.launches ++ [l], uid := s.uid + 1 }
          waitAt s (.qlaunch l.id)))

/-- Add to the n64 at a place, at system scope with release (R375). -/
def signalAt (s : State) (core cid key : Nat) (n : W64) : State :=
  let s := release s core cid 6
  agentWrite s .none core cid 6 .default key (bytesLE 8 (BitVec.ofNat 64 (s.get key 8) + n).toNat)

/-- QSIGNAL (R375). -/
def execQsignal (g : Guard) (a : XReg) (s : State) : Out :=
  sysCurator g s (fun _ _ =>
    if !pairOk a then illegal8 s
    else
      let va := s.cur.r.getX a
      if va.toNat % 8 ≠ 0 then trap s cALIGN va (info306 0 3)
      else
        drained s (withPlace s va 8 3 (fun key s =>
          if s.poisoned key 8 then trap s cMEMERR va (info306 0 3)
          else .next ((signalAt s s.cur.core s.cur.cid key (pairHigh s.cur a)).adv 1))))

/-- QWAITSIG: the queue is WAITING, its thread set aside, and the curator serves other queues (R375). -/
def execQwaitsig (g : Guard) (a : XReg) (s : State) : Out :=
  sysCurator g s (fun c q =>
    if !pairOk a then illegal8 s
    else
      let va := s.cur.r.getX a
      if va.toNat % 8 ≠ 0 then trap s cALIGN va (info306 0 1)
      else
        withPlace s va 8 1 (fun _ s =>
          let t : Thread := { s.cur with wait := .qsig, r := s.cur.r.adv 1 }
          let s := endPacket (dropThread s t.ref) c.c
          let s := s.setQueue q.q (fun x => { x with st := .waiting, waddr := va, wthr := pairHigh t a, paused := some t })
          .next (if q.quiesce then s.setQueue q.q (fun x => { x with st := .disabled, quiesce := false, paused := none }) else s)))

/-- The least tick a switch may name (R333). -/
def switchLead : Nat := 16384

/-- QSWITCH (R333, R375). -/
def execQswitch (g : Guard) (a : XReg) (s : State) : Out :=
  sysCurator g s (fun c q =>
    if !q.sw then trap s cPRIV 0 0
    else
      windowRead s c (s.cur.r.getX a) 32 8 (fun bs s =>
        let mask := dword bs 0
        let d := dword bs 8
        let inc : Option Nat := if bits d 63 1 = 1 then none else some (bits d 0 6)
        let clash : Bool := match inc with | some i => mask.testBit i | none => false
        if bits d 6 57 ≠ 0 ∨ dword bs 24 ≠ 0 ∨ clash then illegal8 s
        else
          let t := max (dword bs 16) (s.tick + switchLead)
          let out := (List.range 64).filter (fun i => mask.testBit i)
          let sw : Switch := { out, inc, when := t, begun := false, by' := q.cid }
          if s.switches.any (fun x => { x with by' := q.cid } == sw) then .next (s.adv 1)
          else
            let gids := (s.gangs.filter (fun g => out.contains g.cid)).map (·.id)
            let s := gids.foldl (fun s g => preempt s g (some (t - s.tick)) (some q.cid)) s
            .next ({ s with switches := s.switches ++ [sw] }.adv 1)))

/-- QPHASE (R375, R377). -/
def execQphase (g : Guard) (a : XReg) (s : State) : Out :=
  sysCurator g s (fun _ q =>
    let x := (s.cur.r.getX a).toNat
    if 2 ^ 32 ≤ x then illegal8 s
    else
      let p : W32 := BitVec.ofNat 32 x
      .next ((s.setQueue q.q (fun q => { q with phase := p, fresh := q.fresh || q.phase != p })).adv 1))

/-- QDONE: HEAD with a release at system scope, and the packet ends (R375); a quiesce takes effect (R379). -/
def execQdone (g : Guard) (s : State) : Out :=
  sysCurator g s (fun c q =>
    drained s
      (let t := s.cur
       let s := release s t.core t.cid 6
       let s := s.setQueue q.q (fun q =>
         { q with head := q.head + 1, st := (if q.quiesce then .disabled else q.st), quiesce := false })
       .next (endPacket (dropThread s t.ref) c.c)))

/-- RENABLE (R273, R375). -/
def execRenable (g : Guard) (a : XReg) (s : State) : Out :=
  sysCurator g s (fun _ q =>
    let x := (s.cur.r.getX a).toNat
    match descVa s q.cid x with
    | none => illegal8 s
    | some va =>
      if 1024 ≤ x then illegal8 s
      else
        sysRead s (BitVec.ofNat 64 va) 64 (fun desc s =>
          let d := RDesc.ofBytes desc
          if !(d.state == 1 || d.state == 2) then illegal8 s
          else
            sysRead s (BitVec.ofNat 64 d.ctrs) 64 (fun _ s =>
              let s := takeUp s q.cid x d.ctrs d.state
              let s := onAgg s q.cid x (fun a => { a with state := 1, c := (a.c.set 3 0).set 7 0 })
              let s := writeBlock (writeRegionState s q.cid x 1) q.cid x
              .next ((broadcast s q.cid x false).adv 1))))

/-- Is a configuration block valid (R283)? The group entry is read through the collective table. -/
def wlBlockOk (bs : List Byte) : Bool :=
  let d := dword bs 0
  let sys := bits d 24 1
  bits d 27 37 == 0 && bits d 22 2 == 0 && bits d 13 3 == 0 && bits d 2 6 == 0 && dword bs 8 % 4096 == 0 && dword bs 16 % 4096 == 0
    && bits (dword bs 24) 32 32 == 0 && bits (dword bs 32) 10 54 == 0 && dword bs 40 == 0 && dword bs 48 == 0 && dword bs 56 == 0
    && (sys == 1 || (bits d 26 1 == 0 && dword bs 32 == 0))

/-- The worklist as WLCFG leaves it (R283). -/
def wlConfigured (bs : List Byte) (units : Vector WUnit 4) (group : Option GroupEnt) : Worklist :=
  let d := dword bs 0
  { Worklist.init with
    st := .active, shift := bits d 8 5, delta := bits d 16 6, sys := bits d 24 1 == 1, dbal := bits d 25 1 == 1, xbal := bits d 26 1 == 1
    spill := dword bs 8, spillbytes := dword bs 16, join := bits (dword bs 24) 0 32, group := bits (dword bs 32) 0 10, units
    peersReady := (match group with | some e => e.n == 1 | none => true) }

/-- WLCFG puts its status into x[A] (R283). -/
def wlStatus (s : State) (a : XReg) (st : Nat) : Out :=
  .next (s.onRegs (fun r => (r.setX a (BitVec.ofNat 64 st)).adv 1))

/-- WLCFG (R282, R283). -/
def execWlcfg (g : Guard) (a : XReg) (s : State) : Out :=
  sysCurator g s (fun c q =>
    windowRead s c (s.cur.r.getX a) 64 64 (fun bs s =>
      let wl : Fin 4 := Fin.ofNat 4 (bits (dword bs 0) 0 2)
      match s.wl? q.cid wl with
      | none => illegal8 s
      | some w =>
        if w.st = .active then wlStatus s a 1
        else if !wlBlockOk bs then wlStatus s a 2
        else
          let fresh : Vector WUnit 4 := Vector.replicate 4 ⟨none, [], []⟩
          let done (s : State) (e : Option GroupEnt) : Out :=
            let s := { s with cores := s.cores.map (fun (k : Core) => { k with front := k.front.filter (fun r => !(r.cid == q.cid && r.wl == wl.val)) }) }
            wlStatus (s.onWl q.cid wl (fun _ => wlConfigured bs fresh e)) a 0
          if bits (dword bs 0) 24 1 = 0 then done s none
          else
            tableRead s (collTable s q.cid + 4096 + 32 * bits (dword bs 32) 0 10) 32 (fun ge s =>
              match GroupEnt.ofBytes ge with
              | none => wlStatus s a 2
              | some e =>
                if devNum s q.cid (e.list + 2 * e.rank) 2 ≠ s.cfg.devnum.toNat then wlStatus s a 2 else done s (some e))))

end Sys2Proof.Machine
end

