-- ==== Sys2Proof/Machine/LaunchOps.lean ====
section
/-! DEFINITION. Launch records (R149-R152, R229), what placement needs (R153, R154, R168, R171) and what it makes (R5, R12,
R156, R173, R184, R230, R246, R248). -/

namespace Sys2Proof.Machine

/-- An event that is not due changes nothing. -/
def due (b : Bool) (s : State) (k : Out) : Out := if b then k else .next s

/-! ## The record -/

/-- Level i of a record (R43). -/
def levelAt (bs : List Byte) (i : Nat) : Level :=
  let d := dword bs (24 + 8 * i)
  { extent := bits d 0 32, dom := bits d 32 3, scope := bits d 35 3 }

/-- NLEV (R149). -/
def nlevOf (bs : List Byte) : Nat := bits (dword bs 16) 32 4

/-- Read a record (R149, R229). -/
def LRec.ofBytes (bs : List Byte) : LRec :=
  let f := dword bs 0x10
  let r := dword bs 0x58
  { entry := BitVec.ofNat 64 (dword bs 0), handler := BitVec.ofNat 64 (dword bs 8), noflush := bits f 1 1 == 1, zlocal := bits f 0 1 == 1
    wgsize := bits f 48 12, levels := (List.range (nlevOf bs)).map (levelAt bs)
    regroup := bits r 36 10, rslots := bits r 24 12, gang := bits r 20 4, aslots := bits r 16 4, xregs := bits r 8 8, vregs := bits r 0 8
    stack := bits (dword bs 0x60) 32 32, loc := bits (dword bs 0x60) 0 32
    ringOff := bits (dword bs 0x68) 0 32, ringEnt := bits (dword bs 0x68) 32 16, spill := dword bs 0x70
    wgHeapOff := bits (dword bs 0x78) 0 32, wgHeapSz := bits (dword bs 0x78) 32 32
    clHeapOff := bits (dword bs 0x80) 0 32, clHeapSz := bits (dword bs 0x80) 32 32
    cycles := dword bs 0x88, latency := dword bs 0x90, args := BitVec.ofNat 64 (dword bs 0x98) }

/-- The fields that break a range, multiple or reserved-zero condition, lowest offset first (R149, R43, R229). SPILL outside the global
range breaks none here: the spill engine's first access there reports it (log entry 92). -/
def badField (bs : List Byte) : Option Nat :=
  let l := LRec.ofBytes bs
  let f := dword bs 0x10
  let r := dword bs 0x58
  let levelBad (i : Nat) : Bool :=
    let v := levelAt bs i
    if i < nlevOf bs then v.extent == 0 || v.dom == 7 || v.scope == 7 || bits (dword bs (24 + 8 * i)) 38 26 != 0
    else dword bs (24 + 8 * i) != 0
  let checks : List (Nat × Bool) :=
    [(0x00, dword bs 0 % 4 != 0), (0x10, bits f 2 30 != 0),
     (0x14, bits f 60 4 != 0 || bits f 36 12 != 0 || l.wgsize == 0 || 2048 < l.wgsize || nlevOf bs == 0 || 8 < nlevOf bs)]
    ++ (List.range 8).map (fun i => (24 + 8 * i, levelBad i))
    ++ [(0x58, bits r 46 18 != 0 || 2048 < l.rslots || l.gang == 0 || 8 < l.gang || 8 < l.aslots || 64 < l.xregs || 128 < l.vregs),
        (0x60, l.stack % 16 != 0 || 65536 < l.stack || l.loc % 16 != 0),
        (0x68, bits (dword bs 0x68) 48 16 != 0 || 4096 < l.ringEnt || l.ringOff % 64 != 0
          || (l.ringEnt != 0 && l.loc < l.ringOff + 64 + 32 * l.ringEnt)),
        (0x70, l.spill % 64 != 0), (0x78, l.wgHeapOff % 16 != 0), (0x80, l.clHeapOff % 16 != 0)]
  (checks.find? (fun x => x.2)).map (·.1)

/-- The product of the extents of the levels that fit. -/
def extents (l : LRec) (p : Level → Bool) : Nat := (l.levels.filter p).foldl (fun n v => n * v.extent) 1

/-- Gangs of a launch: the product over gang and outer levels (R151). -/
def gangCount (l : LRec) : Nat := extents l (fun v => 2 ≤ v.dom)

/-- The first level whose domain is below that of the level inside it (R150). -/
def domainDrop : List Level → Nat → Option Nat
  | a :: b :: ls, i => if b.dom < a.dom then some (i + 1) else domainDrop (b :: ls) (i + 1)
  | _, _ => none

/-- The minimum scope of a level, from the levels outside it (R152). -/
def minScope (v : Level) (outer : List Level) : Nat :=
  match outer.find? (fun x => v.dom < x.dom) with
  | none => if v.dom = 6 then 6 else 5
  | some x => if x.dom = 1 then 1 else if x.dom = 2 ∨ x.dom = 3 then 3 else if x.dom = 4 then 4 else if x.dom = 5 then 5 else 6

/-- The first level whose scope is too low (R150, R152). -/
def scopeLow : List Level → Nat → Option Nat
  | [], _ => none
  | v :: ls, i => if v.scope < minScope v ls then some i else scopeLow ls (i + 1)

/-- Is cluster c of die d allowed by a partition and in service (R318, R382). -/
def clusterOk (s : State) (part die cluster : Nat) : Bool :=
  part.testBit (12 * die + cluster) && !s.outClusters.contains (12 * die + cluster)

/-- Slot rows of a workgroup (R153). -/
def rowsNeeded (l : LRec) : Nat := (l.wgsize + l.rslots + 63) / 64

/-- Pool bytes that admission reserves (R168, R171). -/
def poolReserve (l : LRec) : Nat :=
  (if l.spill = 0 then l.wgsize * (4 * l.vregs + 8 * l.xregs) else 16 * (l.vregs + l.xregs)) + l.rslots * (4 * l.vregs + 8 * l.xregs)

/-- The offset a rejection reports, none if the record is accepted (R150, R171, R328). -/
def launchError (s : State) (c : CDesc) (bs : List Byte) : Option Nat :=
  let l := LRec.ofBytes bs
  let clusters := (List.range 48).any (fun i => clusterOk s c.part (i / 12) (i % 12))
  match badField bs with
  | some o => some o
  | none =>
    match domainDrop l.levels 0 with
    | some i => some (24 + 8 * i)
    | none =>
      if extents l (fun v => v.dom == 0) ≠ l.wgsize then some 0x14
      else if extents l (fun v => v.dom == 1) ≠ l.gang then some 0x58
      else if 2 ^ 48 < extents l (fun _ => true) then some 0x18
      else
        match scopeLow l.levels 0 with
        | some i => some (24 + 8 * i)
        | none =>
          if Config.scratchBytes < allotment l then some 0x60
          else if allotment l < l.wgHeapOff + l.wgHeapSz then some 0x78
          else if allotment l < l.clHeapOff + l.clHeapSz then some 0x80
          else if 4096 < l.wgsize + l.rslots then some 0x58
          else if l.spill = 0 ∧ Config.poolBytes < poolReserve l then some 0x70
          else if Config.poolBytes < poolReserve l ∨ clusters = false then some 0x58
          else if c.savebytes < slotBytes l then some 0x20
          else none

/-! ## Where a gang goes (R153, R154, R328) -/

/-- The least gang index that is pending (R154). -/
def nextGang (l : Launch) : Option Nat :=
  match least l.pending with
  | some i => some i
  | none => if l.next < l.total then some l.next else none

/-- Rows are as many as needed, in order, and free on their core. -/
def rowsOk (s : State) (core : Nat) (l : LRec) (rows : List Nat) : Bool :=
  rows.length == rowsNeeded l && (rows.zip (rows.drop 1)).all (fun x => x.1 < x.2)
    && rows.all (fun r => r < Config.slotRows && !(wgsOn s core).any (fun w => w.rows.contains r))

/-- The launch record of each workgroup on a core. -/
def recsOn (s : State) (core : Nat) : List LRec := (wgsOn s core).filterMap s.lrecOf

/-- A core has what a member needs (R153), its pool the reserves and the standing reserve (R168). -/
def memberFits (s : State) (core : Nat) (l : LRec) (rows : List Nat) (base : Nat) : Bool :=
  rowsOk s core l rows && (wgsOn s core).length < Config.wgPlaces && base + allotment l ≤ Config.scratchBytes
    && (wgsOn s core).all (fun w => base + allotment l ≤ w.base || w.base + w.size ≤ base)
    && ((recsOn s core).map (·.aslots)).sum + l.aslots ≤ Config.accSlots
    && ((recsOn s core).map poolReserve).sum + poolReserve l + standing s core ≤ Config.poolBytes

/-- The index of a gang at a level and outward, in mixed radix (R151, R154). -/
def outerIndex (l : LRec) (j g : Nat) : Nat :=
  g / ((l.levels.take j).filter (fun v => 2 ≤ v.dom)).foldl (fun n v => n * v.extent) 1

/-- Level j's units that this device divides into: clusters and dies (R154). -/
def unitKeys (l : LRec) (g die cluster : Nat) : List (Nat × Nat × Nat) :=
  l.levels.zipIdx.filterMap (fun v =>
    if v.1.dom = 3 then some (v.2, outerIndex l v.2 g, 12 * die + cluster) else if v.1.dom = 4 then some (v.2, outerIndex l v.2 g, die) else none)

/-- Gangs that agree on a level's index stay on one unit (R154). -/
def unitsAgree (known new : List (Nat × Nat × Nat)) : Bool :=
  new.all (fun k => known.all (fun o => !(o.1 == k.1 && o.2.1 == k.2.1) || o.2.2 == k.2.2))

/-- The lowest place in the save area for a slot (R328). -/
def findSlot (c : Ctx) (n : Nat) : Option Nat :=
  let cands := c.desc.save :: (c.slots.map (fun x => roundUp (x.1 + x.2) 4096))
  (sortBy id cands).find? (fun a =>
    a + n ≤ c.desc.save + c.desc.savebytes && c.slots.all (fun x => a + n ≤ x.1 || x.1 + x.2 ≤ a))

/-! ## What placement makes -/

/-- A thread at its start (R5, R12, R156). -/
def startThread (w : Wg) (l : LRec) (tid : Nat) : Thread :=
  { Thread.idle with
    ref := .thr w.id tid, cid := w.cid, core := w.core, tid
    slot := 64 * (w.rows[tid / 64]?).getD 0 + tid % 64
    r := { Regs.start with
      x := if l.xregs = 0 then Vector.replicate 64 0 else (Vector.replicate 64 0).set 0 l.args
      pc := l.entry, sp := BitVec.ofNat 64 (localBase + l.loc + (tid + 1) * l.stack) } }

/-- A workgroup at placement (R157, R173, R181, R184, R229, R246, R248). -/
def startWg (s : State) (id cid launch gang member g core : Nat) (l : LRec) (rows : List Nat) (base fresh : Nat) : Wg :=
  { id, cid, launch, gang, member, wgid := member + l.gang * g, core, rows, base, size := allotment l
    k := Vector.replicate 8 KReg.init, bars := Vector.replicate 16 ⟨0, []⟩, exits := 0
    heap := { off := l.wgHeapOff, size := l.wgHeapSz, runs := [], hgc := 1 }
    head := 0, tail := 0, pubs := [], woken := false, chans := Vector.replicate 4 [], chwp := Vector.replicate 4 0, copyStop := false
    slots := List.replicate l.aslots Acc.init, scaleBase := fresh, scale := [], mq := [], mstep := 0, side := false
    spilled := [], use := [], placed := s.tick, spent := 0, term := false, ended := false }

/-- Whose bytes a core's scratchpad held last at an offset. -/
def lastOwner (c : Core) (off : Nat) : Option Nat := (c.owner.find? (fun o => o.1 ≤ off && off < o.1 + o.2.1)).map (·.2.2)

/-- The allotment of a new workgroup (R149, R230): bytes of another context, the local bytes under ZLOCAL, the ring's
counters and the bytes that `zap` names become 0; what the same context left elsewhere stays (log entry 9). -/
def clearAllotment (s : State) (w : Wg) (l : LRec) (zap : List (Nat × Nat)) : State :=
  let lo := scratchKey w.core w.base
  let c := s.core w.core
  let clears (k : Nat) : Bool :=
    lo ≤ k && k < lo + w.size &&
      (let off := k - lo
       lastOwner c (w.base + off) != some w.cid || (l.zlocal && off < l.loc)
         || (l.ringEnt != 0 && l.ringOff ≤ off && off < l.ringOff + 8)
         || zap.any (fun z => z.1 ≤ w.member * 16777216 + off && w.member * 16777216 + off < z.1 + z.2))
  { s with mem := s.mem.filter (fun x => !clears x.1) }

/-- Place the members of a gang from `m` on (R153): each its workgroup and its threads. -/
def placeMembers (l : LRec) (cid launch gang g first : Nat) (zap : List (Nat × Nat)) :
    List (List Nat × Nat) → Nat → State → State
  | [], _, s => s
  | x :: xs, m, s =>
    let w := startWg s s.uid cid launch gang m g (first + m) l x.1 x.2 s.fresh
    let s := clearAllotment s w l zap
    let s := { s with
      wgs := s.wgs ++ [w], uid := s.uid + 1, fresh := s.fresh + 8192 * l.aslots
      threads := s.threads ++ (List.range l.wgsize).map (startThread w l) }
    let s := s.onGang gang (fun y => { y with members := y.members ++ [w.id] })
    placeMembers l cid launch gang g first zap xs (m + 1) s

/-- Are two placements of one gang. -/
def sameGang (p x : Placed) : Bool := x.addr == p.addr && x.g == p.g

/-- A replay places a gang where it was recorded, in the interval that recorded it (R356). -/
def placedRight (s : State) (cid : Nat) (p : Placed) : Bool :=
  match s.ctx? cid with
  | none => true
  | some c =>
    if c.dbg.amode = 2 ∧ c.arch.on then
      (match c.arch.placed.find? (sameGang p) with
        | some x => x == p
        | none => !c.arch.want.any (fun h => h.placed.any (sameGang p)))
    else true

/-- A recording notes a placement; a replay has made one that it noted (R356). -/
def notePlaced (s : State) (cid : Nat) (p : Placed) : State :=
  s.onCtx cid (fun c =>
    if !c.arch.on then c
    else if c.dbg.amode = 1 then { c with arch := { c.arch with placed := c.arch.placed ++ [p] } }
    else { c with arch := { c.arch with placed := c.arch.placed.erase p } })

/-- A recording context places nothing before its first checkpoint (R347), and none while system software has its gangs saved. -/
def mayPlace (c : Ctx) : Bool := (c.dbg.amode != 1 || c.arch.on || c.arch.full) && !c.leaving

/-! ## Whose turn it is (R322) -/

/-- A visit adds WEIGHT·65,536 to D; a context being served with D > 0 goes on without one (R322). -/
def visit (turn : Nat) (c : Ctx) : Ctx :=
  if turn = c.cid ∧ 0 < c.deficit then c else { c with deficit := min (c.deficit + c.desc.weight * 65536) 1099511627776 }

/-- Could a member be placed on a core: the lowest free rows, at the lowest bases. -/
def memberCould (s : State) (core : Nat) (l : LRec) : Bool :=
  let free := (List.range Config.slotRows).filter (fun r => !(wgsOn s core).any (fun w => w.rows.contains r))
  (0 :: (wgsOn s core).map (fun w => w.base + w.size)).any (fun b => memberFits s core l (free.take (rowsNeeded l)) b)

/-- Is a gang index of a launch still to be placed (R321). -/
def Launch.pends (l : Launch) (g : Nat) : Bool := l.pending.contains g || (decide (l.next ≤ g) && decide (g < l.total))

/-- May a gang be placed next: the next of its launch; in a replay any, where it was recorded (R321, R356). -/
def gangNext (s : State) (l : Launch) (g : Nat) : Bool := if replaying s l.cid then l.pends g else nextGang l == some g

/-- A gang index of a launch is placed; in a replay the indices passed over are pending (R321, R356). -/
def Launch.take (l : Launch) (g : Nat) : Launch :=
  { l with
    next := if l.next ≤ g then g + 1 else l.next
    pending := l.pending.filter (· != g) ++ (List.range (g - l.next)).map (· + l.next) }

/-- Is the place that a recording noted for a gang free (R356)? -/
def recordedCould (s : State) (l : LRec) (p : Placed) : Bool :=
  p.rows.zipIdx.all (fun y =>
    (0 :: (wgsOn s (p.core + y.2)).map (fun w => w.base + w.size)).any (fun b => memberFits s (p.core + y.2) l y.1 b))

/-- Could the next gang of a launch be placed somewhere; a replayed one only where it was recorded (R356). -/
def gangCould (s : State) (c : Ctx) (la : Launch) : Bool :=
  if replaying s c.cid && c.arch.placed.any (fun p => p.addr == la.addr && la.pends p.g) then
    (findSlot c (slotBytes la.lrec)).isSome
      && c.arch.placed.any (fun p => p.addr == la.addr && la.pends p.g && recordedCould s la.lrec p)
  else
  match nextGang la with
  | none => false
  | some g =>
    (findSlot c (slotBytes la.lrec)).isSome && (List.range 48).any (fun k =>
      clusterOk s c.desc.part (k / 12) (k % 12) && unitsAgree la.units (unitKeys la.lrec g (k / 12) (k % 12))
        && (List.range 8).any (fun f => f + la.lrec.gang ≤ 8
          && (List.range la.lrec.gang).all (fun m => memberCould s (k / 12 * Config.coresPerDie + k % 12 * 8 + f + m) la.lrec)))

/-- The launches of a context that have gangs to place. -/
def readyLaunches (s : State) (c : Ctx) : List Launch :=
  if c.st = .running then s.launches.filter (fun l => l.cid == c.cid && l.accepted && !l.phase && (nextGang l).isSome) else []

/-- Has a context a gang that could be placed. -/
def couldPlace (s : State) (c : Ctx) : Bool := (readyLaunches s c).any (gangCould s c)

/-- The place of a context in its round: the one being served first, then CID order, wrapping round (R322). -/
def roundRank (turn : Nat) (c : Ctx) : Nat := if turn = c.cid ∧ 0 < c.deficit then 0 else (c.cid + 63 - turn) % 64 + 1

/-- Is a context served before another: higher PRIO, or earlier in the round (R322). -/
def servedBefore (turn : Nat) (d c : Ctx) : Bool :=
  c.desc.prio < d.desc.prio || (d.desc.prio == c.desc.prio && roundRank turn d < roundRank turn c)

/-- Could a saved gang be restored somewhere; a replayed one only where it was recorded (R331, R332, R351). -/
def savedCould (s : State) (c : Ctx) (v : Saved) : Bool :=
  match s.launch? v.gang.launch with
  | none => false
  | some la =>
    if replaying s c.cid then v.wgs.all (fun w =>
      (0 :: (wgsOn s w.core).map (fun x => x.base + x.size)).any (fun b => memberFits s w.core la.lrec w.rows b))
    else (List.range 48).any (fun k =>
      clusterOk s c.desc.part (k / 12) (k % 12)
        && v.wgs.all (fun w => memberCould s (k / 12 * Config.coresPerDie + k % 12 * 8 + v.gang.first + w.member) la.lrec))

/-- Has a context a saved gang that could be restored (R332). -/
def couldRestore (s : State) (c : Ctx) : Bool := c.st == .running && !c.leaving && c.saved.any (savedCould s c)

/-- No gang of a higher PRIO could be placed or restored (R322, R332). -/
def notOutranked (s : State) (c : Ctx) : Bool :=
  s.ctxs.all (fun d => !(c.desc.prio < d.desc.prio) || (!couldPlace s d && !couldRestore s d))

/-- Nothing that could be placed is served before a context, and no gang of a higher PRIO could be restored (R322, R332). -/
def servedNow (s : State) (c : Ctx) : Bool :=
  s.ctxs.all (fun d => !servedBefore s.turn d c || !couldPlace s d) && notOutranked s c

end Sys2Proof.Machine
end

