-- ==== Sys2Proof/Machine/EvLaunch.lean ====
section
/-! DEFINITION. The dispatcher: launches, placement, the coherence phase, the end of workgroups and gangs (R149-R157, R375,
R377). -/

namespace Sys2Proof.Machine

/-- The curator's thread that waits for a launch's decision. -/
def launchWaiter (s : State) (l : Nat) : Option Thread := s.all.find? (fun t => t.wait == .qlaunch l)

/-- The launch's signal (R375): 1 added at system scope with release; address 0 is no signal, and a place in the system window takes no
atomic (R364). -/
def signalEnd (s : State) (l : Launch) : State :=
  if l.sig = 0 then s
  else
    match devKey s l.cid l.sig.toNat with
    | some key => if isSys key then s else signalAt s 384 l.cid key 1
    | none => s

/-- A launch that has nothing left ends: its signal, and the context may be IDLE (R317, R375). -/
def testLaunch (s : State) (id : Nat) : State :=
  match s.launch? id with
  | none => s
  | some l =>
    if l.accepted && l.live == 0 && (nextGang l).isNone then
      let s := signalEnd { s with launches := s.launches.filter (fun x => x.id != id) } l
      testIdle s l.cid
    else s

/-- LAUNCH_DECISION (R150, R375): accepted, or rejected with 2^63 + the offset and the signal. -/
def execLaunchDecision (l : Nat) (s : State) : Out :=
  match s.launch? l, launchWaiter s l with
  | some x, some t =>
    (match s.ctx? x.cid with
     | none => .next s
     | some c =>
       due (!x.accepted) s
         (match launchError s c.desc x.raw with
          | some off =>
            let s := signalEnd { s with launches := s.launches.filter (fun y => y.id != l) } x
            .next (wake s t.ref 1 (fun r => r.setX x.a (BitVec.ofNat 64 (2 ^ 63 + off))))
          | none =>
            let rec_ := LRec.ofBytes x.raw
            let s := s.onLaunch l (fun y => { y with accepted := true, lrec := rec_, total := gangCount rec_ })
            let s := s.onQueue x.q (fun q => { q with fresh := false, launches := q.launches ++ [l] })
            if x.phase then .next (s.onThread t.ref (fun t => { t with r := t.r.setX x.a 0 }))
            else .next (wake s t.ref 1 (fun r => r.setX x.a 0))))
  | _, _ => .next s

/-- PHASE_CLEAN (R377, R381): once the queue's earlier launches have ended, the context's lines, words and images go, and with them
the region states that cores applied. -/
def execPhaseClean (l : Nat) (s : State) : Out :=
  match s.launch? l with
  | none => .next s
  | some x =>
    due (x.accepted && x.phase && !s.launches.any (fun y => y.q == x.q && y.id < l)) s
      (let s := (s.cores.map (·.num)).foldl (fun s n => writeBackAll s n (fun e => e.cid == x.cid) true) s
       let s := { s with cores := s.cores.map (fun (c : Core) =>
         { c with
           icache := c.icache.filter (fun e => e.cid != x.cid)
           store := c.store.filter (fun e => e.cid != x.cid)
           states := c.states.filter (fun e => e.1 != x.cid) }) }
       let s := s.onCtx x.cid (fun c => { c with measured := [] })
       let s := s.onLaunch l (fun y => { y with phase := false })
       match launchWaiter s l with
       | some t => .next (testLaunch (wake s t.ref 1 id) l)
       | none => .next (testLaunch s l))

/-- GANG_PLACEMENT (R153, R154, R318, R321, R322, R328, R356): every member or none, for the context whose turn it is; a visit
that leaves D at 0 or below only passes on. `rows` and `bases` name what each member takes, `zap` undefined allotment bytes
that hold 0. -/
def execGangPlacement (l gi die cluster first : Nat) (rows : List (List Nat)) (bases : List Nat) (zap : List (Nat × Nat)) (s : State) : Out :=
  let s := refreshDescs s
  match s.launch? l with
  | none => .next s
  | some x =>
    match s.ctx? x.cid with
    | none => .next s
    | some c =>
      let r := x.lrec
      let core := die * Config.coresPerDie + cluster * 8 + first
      let p : Placed := { addr := x.addr, g := gi, core, rows }
      let n := slotBytes r
      let ok : Bool := x.accepted && !x.phase && gangNext s x gi && c.st == .running && die < 4 && cluster < 12
        && clusterOk s c.desc.part die cluster && first + r.gang ≤ 8 && rows.length == r.gang && bases.length == r.gang
        && ((rows.zip bases).zipIdx.all (fun y => memberFits s (core + y.2) r y.1.1 y.1.2))
        && unitsAgree x.units (unitKeys r gi die cluster) && placedRight s x.cid p && mayPlace c && servedNow s c
      due ok s
        (match findSlot c n with
         | none => .next s
         | some slot =>
           let v := visit s.turn c
           let s := { s with turn := x.cid }
           if v.deficit ≤ 0 then .next (s.onCtx x.cid (fun _ => v))
           else
           let s := s.onCtx x.cid (fun _ => { v with slots := c.slots ++ [(slot, n)] })
           let gid := s.uid
           let g : Gang :=
             { id := gid, cid := x.cid, launch := l, g := gi, die, cluster, first, members := [], k := Vector.replicate 8 KReg.init
               bars := Vector.replicate 16 ⟨0, []⟩, exits := 0, heap := { off := r.clHeapOff, size := r.clHeapSz, runs := [], hgc := 1 }
               way := .run, slot, endTick := none, ready := true, by' := none }
           let s := { s with gangs := s.gangs ++ [g], uid := s.uid + 1 }
           let s := placeMembers r x.cid l gid gi core zap (rows.zip bases) 0 s
           let s := s.onLaunch l (fun y =>
             { y.take gi with
               live := y.live + 1
               units := y.units ++ (unitKeys r gi die cluster).filter (fun k => !y.units.contains k) })
           let s := (s.wgs.filter (fun w => w.gang == gid)).foldl clearRecords s
           .next (notePlaced s x.cid p))

/-- Does a workgroup have nothing left to do (R157). -/
def wgDone (s : State) (w : Wg) : Bool :=
  let ts := threadsOf s w.id
  ts.all (fun t => t.exited && t.mops.isEmpty)
    && !(s.core w.core).restq.any (fun e => e.w == w.id) && !(s.core w.core).evals.any (fun e => e.w == w.id)
    && (w.term || (copiesOut s w == 0 && w.mq.all (·.done)))

/-- The store hash of a workgroup's threads (R352). -/
def wgHash (s : State) (w : Wg) : W32 := (s.all.filter (isMember w.id)).foldl (fun h t => h ^^^ hashOf t) 0

/-- WORKGROUP_END (R157, R322): the charge, the hash it had, and the tick of the gang's last end. -/
def execWorkgroupEnd (w : Nat) (s : State) : Out :=
  match s.wg? w with
  | none => .next s
  | some x =>
    due (!x.ended && wgDone s x) s
      (let s := charge s x.cid (s.tick - x.placed)
       let s := s.onCtx x.cid (fun c =>
         if c.arch.on then { c with arch := { c.arch with ended := c.arch.ended ++ [(x.core, x.wgid, wgHash s x)] } } else c)
       let s := s.onWg w (fun y => { y with ended := true })
       match s.gang? x.gang with
       | none => .next s
       | some g => if (membersOf s g).all (·.ended) then .next (s.onGang g.id (fun g => { g with endTick := some s.tick })) else .next s)

/-- GANG_RETIRE (R157, R328, R375): in the tick after its last member ended, everything the gang held is free. -/
def execGangRetire (gid : Nat) (s : State) : Out :=
  match s.gang? gid with
  | none => .next s
  | some g =>
    match g.endTick with
    | none => .next s
    | some t =>
      due (t < s.tick) s
        (let s := freeSlot (dropGang s g) g.cid g.slot
         let s := s.onLaunch g.launch (fun l => { l with live := l.live - 1 })
         .next (testIdle (testLaunch s g.launch) g.cid))

end Sys2Proof.Machine
end

