-- ==== Sys2Proof/Machine/SaveOps.lean ====
section
/-! DEFINITION. The save slot (R328-R330): its layout, what a save writes and what a restore reads back. -/

namespace Sys2Proof.Machine

/-! ## Layout -/

/-- The lengths of the sections of a member record after its header: v records, x records, thread blocks, allotment,
accumulators, scale memory, control (R328, R329). -/
def sectionLens (l : LRec) : List Nat :=
  [l.vregs * (16 + 4 * l.wgsize), l.xregs * (16 + 8 * l.wgsize), 256 * l.wgsize, allotment l, l.aslots * (64 + 327680), l.aslots * 8192,
   163840].map (fun n => roundUp n 64)

/-- The offset of section i in its member record. -/
def sectionOff (l : LRec) (i : Nat) : Nat := 64 + ((sectionLens l).take i).sum

/-- The bytes of a member record, Sm of R328. -/
def memberLen (l : LRec) : Nat := sectionOff l 7

/-- The offset of member m's record in the slot (R328). -/
def memberOff (l : LRec) (m : Nat) : Nat := 256 + 4096 + m * memberLen l

/-- KIND of an accumulator slot as a number, in the order of R246's table. -/
def AKind.code : AKind → Nat
  | .empty => 0 | .float => 1 | .int => 2 | .f64 => 3

/-- The KIND of a number. -/
def AKind.ofCode (n : Nat) : AKind := if n = 1 then .float else if n = 2 then .int else if n = 3 then .f64 else .empty

/-- Bytes of a section the spec gives no layout for; they are free (log entry 9). -/
def freeBytes (s : State) (n : Nat) : List Byte × State :=
  ((List.range n).map (fun i => Config.freeByte (s.fresh + i)), { s with fresh := s.fresh + n })

/-- Write n bytes without an architectural layout at a context's address. -/
def putFree (s : State) (cid va n : Nat) : State :=
  let r := freeBytes s n
  devPut r.2 cid va r.1

/-! ## What a save writes -/

/-- A wait of R327 in which a thread is saved: a page fault, WLPOP, a barrier or a signing, a collective token (R330). -/
def parkedWait : Wait → Bool
  | .page _ | .wlpop _ _ _ _ | .bar _ _ | .sign _ _ => true
  | .fwait tok => bits tok.toNat 56 8 == 2
  | .none | .tbwait _ _ | .waitc _ _ _ _ | .ftok | .wlpush _ _ _ _ | .mstat _ | .hold _ _ | .region _ | .coll | .spill _ | .gate _ _ | .fence
  | .drain | .qlaunch _ | .qsig => false

/-- A thread block up to its WAIT field (R330); an exited thread's is zero. -/
def blockBytes (t : Thread) : List Byte :=
  if t.exited then bytesLE 224 0
  else
    bytesLE 8 t.r.pc.toNat ++ bytesLE 8 t.r.sp.toNat ++ bytesLE 8 t.tpc.toNat ++ bytesLE 8 t.taddr.toNat ++ bytesLE 8 t.tinfo.toNat
      ++ bytesLE 8 (t.tcause.toNat + (if t.tmode then 2 ^ 9 else 0) + t.r.fsr.toNat * 2 ^ 10 + t.r.p.toNat * 2 ^ 15 + t.r.fgc.toNat * 2 ^ 27
          + 2 ^ 40 + (if parkedWait t.wait then 2 ^ 41 else 0))
      ++ bytesLE 8 (t.seq % 2 ^ 35) ++ bytesLE 8 t.r.lr.toNat
      ++ t.r.o.toList.flatMap (fun (w : W32) => bytesLE 4 w.toNat) ++ t.r.d.toList.flatMap (fun (w : W64) => bytesLE 8 w.toNat)
      ++ ((t.hold ++ List.replicate (8 - t.hold.length) 0).take 8).flatMap (fun (w : W64) => bytesLE 8 w.toNat)

/-- The cells of an accumulator slot as n entries of w bytes from `lo` on. -/
def cellBytes (a : Acc) (lo n w : Nat) : List Byte :=
  (List.range n).flatMap (fun i => bytesLE w (((a.cells.find? (fun x => x.1 == lo + i)).map (·.2.toNat)).getD 0))

/-- Is slot i the odd half of an F64 pair. -/
def oddHalf (w : Wg) (i : Nat) : Bool := i % 2 == 1 && ((w.slots[i]?).map (·.kind)) == some .f64

/-- The slot of an MMA entry. -/
def mmaSlot (e : MEnt) : Option Nat :=
  match e.op with
  | .mma _ _ _ c _ => some c.slot.val
  | .mdrain _ _ _ _ | .mzero _ | .mldsc _ _ _ | .mstat _ _ _ => none

/-- The slot of a workgroup's oldest incomplete MMA (R255). -/
def stepSlot (w : Wg) : Option Nat := (w.mq.find? (fun e => !e.done && (mmaSlot e).isSome)).bind mmaSlot

/-- The STEP of a slot: that of the workgroup's oldest incomplete MMA, if it runs on this slot (R255, R329). -/
def slotStep (w : Wg) (i : Nat) : Nat := if stepSlot w = some i then w.mstep else 0

/-- An accumulator slot's section (R329). An F64 pair's first half holds its first 40,960 binary64 cells, its second half
zeros (log entry 25). -/
def accBytes (w : Wg) (i : Nat) (a : Acc) : List Byte :=
  bytesLE 8 (a.kind.code + (if a.ovf then 4 else 0) + (if a.lv then 8 else 0) + slotStep w i % 2 ^ 32 * 2 ^ 32) ++ a.latch.toList
    ++ bytesLE 40 0
    ++ (if oddHalf w i then bytesLE 327680 0 else if a.kind = .f64 then cellBytes a 0 40960 8 else cellBytes a 0 65536 5)

/-- The header and data of a register's record, as (offset, bytes) (R169, R170). -/
def regParts (ts : List Thread) : VXReg → List (Nat × List Byte)
  | .v n =>
    let l := ts.map (fun (t : Thread) => (t.tid, t.r.getV n))
    (0, recordHeader (.v n) (fmtCode l)) :: (recordData (fmtCode l) l).map (fun p => (p.1 + 16, p.2))
  | .x n =>
    let l := ts.map (fun (t : Thread) => (t.tid, t.r.getX n))
    (0, recordHeader (.x n) (fmtCode l)) :: (recordData (fmtCode l) l).map (fun p => (p.1 + 16, p.2))

/-- Where a register's record lies in a member record. -/
def regOff (l : LRec) : VXReg → Nat
  | .v n => sectionOff l 0 + n.val * (16 + 4 * l.wgsize)
  | .x n => sectionOff l 1 + n.val * (16 + 8 * l.wgsize)

/-- Write parts from an address on. -/
def putParts (s : State) (cid va : Nat) (ps : List (Nat × List Byte)) : State := ps.foldl (fun s p => devPut s cid (va + p.1) p.2) s

/-- The launched threads of a workgroup in a saved gang. -/
def Saved.threadsOf (v : Saved) (w : Nat) : List Thread := v.threads.filter (isMember w)

/-- The scale bytes of a workgroup; one never written is free (R248). -/
def scaleByte (w : Wg) (i : Nat) : Byte := ((w.scale.find? (fun x => x.1 == i)).map (·.2)).getD (Config.freeByte (w.scaleBase + i))

/-- Write a member record (R329, R330). -/
def writeMember (l : LRec) (va : Nat) (v : Saved) (s : State) (x : Wg × List Byte) : State :=
  let w := x.1
  let cid := w.cid
  let base := va + memberOff l w.member
  let ts := v.threadsOf w.id
  let live := ts.filter (fun t => !t.exited)
  let s := devPut s cid base ((List.range 7).flatMap (fun i => bytesLE 8 (sectionOff l i)) ++ bytesLE 8 0)
  let s := ((declared l).filter (fun r => !isSpilled w r)).foldl (fun s r => putParts s cid (base + regOff l r) (regParts live r)) s
  let s := ts.foldl
    (fun s t =>
      let a := base + sectionOff l 2 + 256 * t.tid
      let s := devPut s cid a (blockBytes t)
      if t.exited then devPut s cid (a + 224) (bytesLE 32 0) else putFree s cid (a + 224) 32) s
  let s := devPut s cid (base + sectionOff l 3) x.2
  let s := w.slots.zipIdx.foldl (fun s a => devPut s cid (base + sectionOff l 4 + a.2 * (64 + 327680)) (accBytes w a.2 a.1)) s
  let s := devPut s cid (base + sectionOff l 5) ((List.range (8192 * l.aslots)).map (scaleByte w))
  putFree s cid (base + sectionOff l 6) 163840

/-- The gang header (R329). -/
def headerBytes (l : LRec) (addr : W64) (v : Saved) (e : Nat) : List Byte :=
  bytesLE 8 addr.toNat ++ bytesLE 8 (v.gang.g % 2 ^ 32 + l.gang * 2 ^ 32 + v.gang.first * 2 ^ 36) ++ bytesLE 8 v.tick ++ bytesLE 8 e
    ++ (List.range 8).flatMap (fun m => bytesLE 8 (if m < l.gang then memberOff l m else 0)) ++ bytesLE 160 0

/-- Write a slot (R329). `e`: elapsed ticks at the save. -/
def writeSlot (s : State) (l : LRec) (addr : W64) (v : Saved) (e : Nat) : State :=
  let s := devPut s v.gang.cid v.slot (headerBytes l addr v e)
  let s := putFree s v.gang.cid (v.slot + 256) 4096
  (v.wgs.zip v.allots).foldl (writeMember l v.slot v) s

/-! ## What a restore reads -/

/-- Is the header well formed, and of the launch that placed the gang (R332)? -/
def headerOk (bs : List Byte) (addr : W64) : Bool :=
  dword bs 0 == addr.toNat && bits (dword bs 8) 39 25 == 0 && ((bs.drop 0x60).take 160).all (· == 0)

/-- A thread as its block and records have it (R330): LIVE and PARKED too are restored as found (R332). -/
def readThread (s : State) (cid : Nat) (l : LRec) (w : Wg) (base : Nat) (t : Thread) : Thread :=
  let b := base + sectionOff l 2 + 256 * t.tid
  let num (off n : Nat) : Nat := devNum s cid (b + off) n
  let f := num 0x28 8
  if bits f 40 1 = 0 then { t with exited := true, wait := .none, hold := [] }
  else
    let regs := (declared l).filter (fun r => !isSpilled w r)
    let r := regs.foldl
      (fun (r : Regs) reg =>
        let a := base + regOff l reg
        let fmt := devNum s cid a 1 % 8
        match reg with
        | .v n => r.setV n (recordValue 32 fmt ((devGet s cid (a + 16) (4 * l.wgsize)).getD []) t.tid)
        | .x n => r.setX n (recordValue 64 fmt ((devGet s cid (a + 16) (8 * l.wgsize)).getD []) t.tid)) t.r
    { t with
      exited := false, wait := if bits f 41 1 = 0 && parkedWait t.wait then .none else t.wait
      tpc := BitVec.ofNat 64 (num 0x10 8), taddr := BitVec.ofNat 64 (num 0x18 8), tinfo := BitVec.ofNat 64 (num 0x20 8)
      tcause := BitVec.ofNat 9 f, tmode := bits f 9 1 == 1, seq := num 0x30 8 % 2 ^ 35
      hold := ((List.range 8).map (fun i => BitVec.ofNat 64 (num (0xA0 + 8 * i) 8))).filter (· != 0)
      r := { r with
        pc := BitVec.ofNat 64 (num 0 8), sp := BitVec.ofNat 64 (num 8 8), fsr := BitVec.ofNat 5 (bits f 10 5), p := BitVec.ofNat 12 (bits f 15 12)
        fgc := BitVec.ofNat 13 (bits f 27 13), lr := BitVec.ofNat 32 (num 0x38 4)
        o := Vector.ofFn (fun i : Fin 8 => BitVec.ofNat 32 (num (0x40 + 4 * i.val) 4))
        d := Vector.ofFn (fun i : Fin 8 => BitVec.ofNat 64 (num (0x60 + 8 * i.val) 8)) } }

/-- Cells read back: n entries of w bytes, zeros left out. -/
def readCells (s : State) (cid va n w : Nat) : List (Nat × W64) :=
  ((List.range n).map (fun i => (i, BitVec.ofNat 64 (devNum s cid (va + w * i) w)))).filter (fun x => x.2 != 0)

/-- An accumulator slot as its section has it (R329). -/
def readAcc (s : State) (cid va : Nat) (odd : Bool) (a : Acc) : Acc :=
  let h := devNum s cid va 8
  let kind := AKind.ofCode (bits h 0 2)
  { kind, ovf := bits h 2 1 == 1, lv := bits h 3 1 == 1
    latch := Vector.ofFn (fun i : Fin 16 => BitVec.ofNat 8 (devNum s cid (va + 8 + i.val) 1))
    cells := if kind = .f64 then (if odd then a.cells else readCells s cid (va + 64) 40960 8 ++ a.cells.filter (fun c => 40960 ≤ c.1))
             else readCells s cid (va + 64) 65536 5 }

/-- A workgroup as its member record has it (R329). -/
def readWg (s : State) (l : LRec) (va : Nat) (w : Wg) : Wg :=
  let base := va + memberOff l w.member
  { w with
    mstep := (match stepSlot w with
      | some i => devNum s w.cid (base + sectionOff l 4 + i * (64 + 327680) + 4) 4
      | none => w.mstep)
    slots := w.slots.zipIdx.map (fun a => readAcc s w.cid (base + sectionOff l 4 + a.2 * (64 + 327680)) (oddHalf w a.2) a.1)
    scale := (List.range (8192 * l.aslots)).map (fun i => (i, BitVec.ofNat 8 (devNum s w.cid (base + sectionOff l 5 + i) 1))) }

end Sys2Proof.Machine
end

