-- ==== Sys2Proof/Machine/CtxOps.lean ====
section
/-! DEFINITION. Contexts (R317, R318): their descriptors, the debug descriptor (R342), a replay's start (R351), kills (R309,
R335). -/

namespace Sys2Proof.Machine

/-! ## Descriptors -/

/-- Is a number a power of two. -/
def isPow2 (n : Nat) : Bool := n != 0 && n == 2 ^ Nat.log2 n

/-- Below the end of the global range (R18). -/
def isGlobal (a : Nat) : Bool := a < 72057594037927936

/-- Read a context descriptor (R318). -/
def CDesc.ofBytes (bs : List Byte) : CDesc :=
  let d := dword bs 0x40
  { troot := dword bs 0, rtab := dword bs 8, evq := dword bs 0x10, evqent := bits (dword bs 0x18) 0 32, save := dword bs 0x20
    savebytes := dword bs 0x28, pager := dword bs 0x30, part := bits (dword bs 0x38) 0 48, prio := bits d 32 3, weight := bits d 16 16
    syssw := bits d 7 1 == 1 }

/-- What creation checks (R318). -/
def cdescOk (s : State) (bs : List Byte) : Bool :=
  let c := CDesc.ofBytes bs
  let d := dword bs 0x40
  bits (dword bs 0x18) 32 32 == 0 && bits (dword bs 0x48) 2 62 == 0 && bits (dword bs 0x38) 48 16 == 0 && bits d 35 29 == 0 && bits d 8 8 == 0 && bits d 0 7 == 0
    && (List.range 6).all (fun i => dword bs (0x50 + 8 * i) == 0)
    && isGlobal c.troot && c.troot % 65536 == 0 && isGlobal c.rtab && c.rtab % 64 == 0 && isGlobal c.evq && c.evq % 256 == 0
    && isPow2 c.evqent && 16 ≤ c.evqent && c.evqent ≤ 65536 && isGlobal c.save && c.save % 4096 == 0 && c.savebytes % 4096 == 0
    && isGlobal c.pager && c.pager % 4096 == 0 && c.weight != 0
    && (List.range 48).any (fun i => clusterOk s c.part (i / 12) (i % 12))

/-- Read a debug descriptor (R342). -/
def DDesc.ofBytes (bs : List Byte) : DDesc :=
  let d := dword bs 0x10
  let e := dword bs 0x18
  { sring := dword bs 0, srent := bits (dword bs 8) 0 32, bken := bits d 7 1 == 1, sen := bits d 6 1 == 1, sn := bits d 0 5
    tms := bits e 16 10, amode := bits e 0 2, arch := dword bs 0x20, archbytes := dword bs 0x28, logbytes := dword bs 0x30 }

/-- A debug descriptor of zeros. -/
def DDesc.zero : DDesc :=
  { sring := 0, srent := 0, bken := false, sen := false, sn := 0, tms := 0, amode := 0, arch := 0, archbytes := 0, logbytes := 0 }

/-- The offset of the first field that refuses RUNNING (R342), given by its dword (log entry 26). -/
def ddescBad (bs : List Byte) : Option Nat :=
  let d := DDesc.ofBytes bs
  let a := dword bs 0x10
  let e := dword bs 0x18
  if bits (dword bs 8) 32 32 ≠ 0 then some 0x08
  else if bits a 8 56 ≠ 0 ∨ bits a 5 1 ≠ 0 ∨ (d.sen ∧ (d.sn < 10 ∨ 20 < d.sn)) then some 0x10
  else if bits e 26 38 ≠ 0 ∨ bits e 2 14 ≠ 0 ∨ d.amode = 3 ∨ (d.amode ≠ 0 ∧ (d.tms = 0 ∨ 1000 < d.tms)) then some 0x18
  else if dword bs 0x38 ≠ 0 then some 0x38
  else none

/-- A context as it is created (R280, R317). -/
def Ctx.create (cid : Nat) (d : CDesc) (firmware : List Byte) : Ctx :=
  { cid, st := .idle, desc := d, dbg := DDesc.zero, deficit := 0, wls := Vector.replicate 4 Worklist.init, agg := []
    counts := [], attest := [], measure := firmware, measured := [], preqs := [], collK := [], colls := [], slots := [], saved := []
    leaving := false
    arch := Arch.init }

/-! ## A replay's start (R351) -/

/-- New names for what a checkpoint holds: every old name is below `b`. -/
def renRef (b : Nat) : TRef → TRef
  | .thr w i => .thr (w + b) i
  | .rest w i => .rest (w + b) i
  | .none => .none
  | .cur c => .cur c

/-- A convergence register under new names. -/
def renK (b : Nat) (k : KReg) : KReg := { k with signs := k.signs.map (fun (g : Sign) => { g with ref := renRef b g.ref }) }
/-- A barrier under new names. -/
def renBar (b : Nat) (x : Bar) : Bar := { x with arr := x.arr.map (fun a => (renRef b a.1, a.2)) }
/-- A matrix entry under new names. -/
def renEnt (b : Nat) (e : MEnt) : MEnt :=
  { e with
    uid := e.uid + b, susp := none
    op := (match e.op with
      | .mstat sl t d => .mstat sl (renRef b t) d
      | .mma xa xb xc c r => .mma xa xb xc c r
      | .mdrain xa xb xc c => .mdrain xa xb xc c
      | .mzero sl => .mzero sl
      | .mldsc src n i => .mldsc src n i) }
/-- A waiting thread's wait under new names; a page is asked for again. -/
def renWait (b : Nat) : Wait → Wait
  | .page _ => .none
  | .mstat m => .mstat (m + b)
  | w => w
/-- A restoration entry under new names. -/
def renRest (b cid : Nat) (e : RestEntry) : RestEntry := { e with uid := e.uid + b, caller := renRef b e.caller, w := e.w + b, cid, call := e.call + b }
/-- A thread under new names, its store hash 0 as at each checkpoint (R352). -/
def renThread (b cid : Nat) (t : Thread) : Thread :=
  { t with
    ref := renRef b t.ref, cid, wait := renWait b t.wait, rest := t.rest.map (renRest b cid), hash := 0
    rpend := t.rpend.map (fun (p : RPend) => { p with call := p.call + b }), lastMx := t.lastMx + b }
/-- A workgroup under new names. -/
def renWg (b cid : Nat) (w : Wg) : Wg :=
  { w with
    id := w.id + b, cid, launch := w.launch + b, gang := w.gang + b, k := vmap (renK b) w.k, bars := vmap (renBar b) w.bars
    mq := w.mq.map (renEnt b) }
/-- A gang under new names, in its slot of the new context. -/
def renGang (b cid slot : Nat) (g : Gang) : Gang :=
  { g with
    id := g.id + b, cid, launch := g.launch + b, members := g.members.map (· + b), k := vmap (renK b) g.k, bars := vmap (renBar b) g.bars
    slot }
/-- A saved gang under new names, in its slot of the new context. -/
def renSaved (b cid slot : Nat) (v : Saved) : Saved :=
  { v with
    slot, gang := renGang b cid slot v.gang, wgs := v.wgs.map (renWg b cid), threads := v.threads.map (renThread b cid)
    rests := v.rests.map (renRest b cid), rejected := [] }
/-- A launch under new names; its gangs that are not yet placed are launched again by the queue. -/
def renLaunch (b cid live : Nat) (l : Launch) : Launch :=
  { l with id := l.id + b, cid, sig := 0, phase := false, next := l.total, pending := [], live }

/-- The recording of an archive area: of a context that records into it, or one that a destroyed context left. -/
def archiveAt (s : State) (addr : Nat) : Option Arch :=
  match s.ctxs.find? (fun c => c.dbg.amode == 1 && c.dbg.arch == addr) with
  | some c => some c.arch
  | none => (s.archives.find? (fun a => a.1 == addr)).map (·.2)

/-- Give a checkpoint's gang a slot of the new context and write it there. -/
def adoptSaved (cid b : Nat) (s : State) (v : Saved) : State :=
  match s.ctx? cid, s.launches.find? (fun l => l.id == v.gang.launch + b) with
  | some c, some l =>
    let n := slotBytes l.lrec
    (match findSlot c n with
     | none => s
     | some slot =>
       let v' := renSaved b cid slot v
       let s := s.onCtx cid (fun c => { c with slots := c.slots ++ [(slot, n)], saved := c.saved ++ [v'] })
       writeSlot s l.lrec l.addr v' (most (v'.wgs.map (·.spent))))
  | _, _ => s

/-- The interval that a replay has come to: the log, placements and ingress of the checkpoint that closes it (R356, R357). -/
def openInterval (a : Arch) (since : Nat) : Arch :=
  match a.want with
  | [] => { a with left := [], placed := [], ingress := [] }
  | c :: _ => { a with since, left := c.log, placed := c.placed, ingress := c.ingress, ended := [] }

/-- The label at which system software has armed a stop, if it has; how it does so the spec does not say (R350, log entry 96). -/
def armedStop (n : Nat) : Option Nat := let x := Config.freeChoice n; if x % 2 = 0 then none else some (x / 2 % 2 ^ 24)

/-- Replay starts at a checkpoint of the archive that another follows, where there are several: which, system software has chosen
(R351, log entry 27). -/
def startReplay (s : State) (cid : Nat) (a : Arch) : State :=
  match a.done.drop (Config.freeChoice s.fresh % max 1 (a.done.length - 1)) with
  | [] => s
  | c :: cs =>
    let b := s.uid
    let stop := armedStop (s.fresh + 1)
    let s := { s with fresh := s.fresh + 2 }
    let ls := c.launches.map (fun l => renLaunch b cid (c.gangs.filter (fun v => v.gang.launch == l.id)).length l)
    let s := { s with launches := s.launches ++ ls, uid := 2 * b + 1 }
    let tasks (w : Worklist) : Worklist := { w with
      tasks := w.tasks.map (fun x => (renRef b x.1, x.2)), parts := w.parts.map (renRef b) }
    let s := s.onCtx cid (fun x =>
      { x with
        wls := vmap tasks c.wls, counts := c.counts
        arch := openInterval { Arch.init with on := true, seq := c.seq, want := cs, stopLabel := stop } c.tick })
    c.gangs.foldl (adoptSaved cid b) s

/-! ## RUNNING -/

/-- Contexts that are RUNNING (R317). -/
def runningCount (s : State) : Nat := (s.ctxs.filter (fun c => c.st == .running)).length

/-- Make a context RUNNING (R317, R342): the debug descriptor is checked first; at most 8 run. The device takes a new sample ring from
its header at reset (R344). A recording begins with its
first checkpoint, a replay from its archive. -/
def enterRunning (s : State) (cid : Nat) (k : State → Out) : Out :=
  match s.ctx? cid with
  | none => k s
  | some c =>
    if Config.runningContexts ≤ runningCount s then k s
    else
      tableRead s (s.cfg.dbgtab.toNat + 64 * cid) 64 (fun bs s =>
        match ddescBad bs with
        | some o => k (postEvent s cid 13 o 0)
        | none =>
          let d := DDesc.ofBytes bs
          let s := if d.sen && d.sring != c.dbg.sring then devPut s cid d.sring (bytesLE 64 0) else s
          let s := s.onCtx cid (fun x =>
            { x with
              dbg := d, leaving := false
              arch := if d.amode = 0 then { x.arch with on := false }
                else if d.amode = 1 ∧ !x.arch.on then { x.arch with since := s.tick } else x.arch })
          let s := setCtxState s cid .running
          if d.amode = 2 ∧ !c.arch.on then
            (match archiveAt s d.arch with
              | some a => k (startReplay s cid a)
              | none => k s)
          else k s)

/-! ## Kills -/

/-- A kill by system software (R309, R310): SOURCE 4, CAUSE 0. -/
def killReport : Report :=
  { source := 4, cause := 0, cmderr := 0, tpc := 0, taddr := 0, tinfo := 0, ring := 0, ch := 0, tid := 0, aux := 0, entry := [] }

/-- Terminate a workgroup by a kill. -/
def killWg (s : State) (w : Nat) : State :=
  match s.wg? w with
  | some x => if x.term || x.ended then s else terminate s x killReport
  | none => s

/-- A saved gang is killed (R335): its workgroups' reports, its tasks retired, its slot freed. Nothing of it lies on a core. -/
def killSaved (s : State) (cid : Nat) (v : Saved) : State :=
  let quietK := Vector.replicate 8 KReg.init
  let quietB := Vector.replicate 16 (⟨0, []⟩ : Bar)
  let g := { v.gang with k := quietK, bars := quietB }
  let ws := v.wgs.map (fun (w : Wg) => { w with k := quietK, bars := quietB, chans := Vector.replicate 4 [], head := 0, launch := s.uid })
  let ts := v.threads.map (fun (t : Thread) => { t with hold := [] })
  let s' := { s with gangs := s.gangs ++ [g], wgs := s.wgs ++ ws, threads := s.threads ++ ts }
  let s' := (sortBy (·.member) ws).foldl (fun s w => killWg s w.id) s'
  let mine (r : TRef) : Bool := ws.any (fun w => refWg r == some w.id)
  let s' := { s' with
    gangs := s'.gangs.filter (fun x => x.id != g.id), wgs := s'.wgs.filter (fun x => !ws.any (fun w => w.id == x.id))
    threads := s'.threads.filter (fun t => !mine t.ref) }
  let s' := freeSlot (s'.onCtx cid (fun c => { c with saved := c.saved.filter (fun x => x.slot != v.slot) })) cid v.slot
  let s' := s'.onLaunch g.launch (fun l => { l with live := l.live - 1 })
  testIdle (testLaunch s' g.launch) cid

/-- A context is killed (R309, R378): its workgroups, its saved gangs, and its launches' pending gangs, with no signal. -/
def killCtx (s : State) (cid : Nat) : State :=
  let s := { s with launches := s.launches.map (fun (l : Launch) =>
    if l.cid == cid && l.accepted then { l with next := l.total, pending := [], sig := 0 } else l) }
  let s := ((s.wgs.filter (fun w => w.cid == cid)).map (·.id)).foldl killWg s
  let s := (((s.ctx? cid).map (·.saved)).getD []).foldl (fun s v => killSaved s cid v) s
  ((s.launches.filter (fun l => l.cid == cid && !l.phase)).map (·.id)).foldl testLaunch s

end Sys2Proof.Machine
end

