-- ==== Sys2Proof/Machine/EvCtx.lean ====
section
/-! DEFINITION. Kills and the life of a context (R309, R317, R318, R335). -/

namespace Sys2Proof.Machine

/-- KILL (R309, R310, R335): a workgroup, with it the whole gang if the gang is saved (log entry 28); or a context. -/
def execKill (cid : Nat) (w : Option Nat) (s : State) : Out :=
  match w with
  | none => .next (killCtx s cid)
  | some n =>
    match ((s.ctx? cid).map (·.saved)).bind (fun vs => vs.find? (fun v => v.wgs.any (fun x => x.id == n))) with
    | some v => .next (killSaved s cid v)
    | none => due (((s.wg? n).map (fun x => x.cid == cid)).getD false) s (.next (killWg s n))

/-- CONTEXT_CREATE (R317, R318, R362): the descriptor is read and checked, and the context is IDLE, all of it new (R266, R280,
R381), its event queue's header at reset (R319). -/
def execContextCreate (cid : Nat) (s : State) : Out :=
  let s := { s with cfg := { s.cfg with ccid := BitVec.ofNat 6 cid } }
  due (cid < 64 && (s.ctx? cid).isNone) s
    (tableRead s (s.cfg.cdtab.toNat + 128 * cid) 128 (fun bs s =>
      if cdescOk s bs then
        let firmware := Config.shake256 (bytesLE 8 1 ++ Config.shake256 [])
        let s := setCtxState { s with ctxs := s.ctxs ++ [Ctx.create cid (CDesc.ofBytes bs) firmware] } cid .idle
        .next (devPut s cid (CDesc.ofBytes bs).evq (bytesLE 64 0))
      else .next s))

/-- What every core holds of a context goes: lines written back and invalidated, translations, words, images, records, and the
claim on what the scratchpads hold (R317). -/
def cleanCores (s : State) (cid : Nat) : State :=
  let s := (s.cores.map (·.num)).foldl (fun s n => writeBackAll s n (fun e => e.cid == cid) true) s
  let s := { s with l2 := vmap (fun (l : List TlbEnt) => l.filter (fun e => e.cid != cid)) s.l2 }
  { s with cores := s.cores.map (fun (c : Core) =>
    { c with
      tlb := c.tlb.filter (fun e => e.cid != cid), icache := c.icache.filter (fun e => e.cid != cid)
      store := c.store.filter (fun e => e.cid != cid), front := c.front.filter (fun e => e.cid != cid)
      states := c.states.filter (fun e => e.1 != cid), todo := c.todo.filter (fun e => e.1 != cid)
      owner := c.owner.map (fun o => if o.2.2 = cid then (o.1, o.2.1, 64) else o) }) }

/-- A context is destroyed (R317): what is placed is killed and taken off its cores, what it recorded stays in its archive
area. -/
def destroyCtx (s : State) (cid : Nat) : State :=
  match s.ctx? cid with
  | none => s
  | some c =>
    let s := killCtx s cid
    let s := (ctxGangs s cid).foldl dropGang s
    let s := cleanCores s cid
    let s := setCtxState s cid .free
    { s with
      rounds := s.rounds.map (fun (r : Round) =>
        { r with lastQ := r.lastQ.filter (fun x => x.1 != cid), defs := r.defs.filter (fun x => x.1 != cid) })
      ctxs := s.ctxs.filter (fun x => x.cid != cid), launches := s.launches.filter (fun l => l.cid != cid)
      archives := if c.dbg.amode = 1 then (c.dbg.arch, c.arch) :: s.archives.filter (fun a => a.1 != c.dbg.arch) else s.archives }

/-- CONTEXT_DESTROY (R317, R362). -/
def execContextDestroy (cid : Nat) (s : State) : Out :=
  let s := { s with cfg := { s.cfg with ccid := BitVec.ofNat 6 cid } }
  .next (destroyCtx s cid)

/-- CONTEXT_SELECT (R317, R342): a curator makes a context RUNNING. -/
def execContextSelect (cid : Nat) (s : State) : Out :=
  due (ctxState s cid == .idle || ctxState s cid == .saved) s (enterRunning s cid (fun s => .next s))

end Sys2Proof.Machine
end

