-- ==== Sys2Proof/Machine/ChunkOps.lean ====
section
/-! DEFINITION. The spill region of a worklist (R292, R297): where a chunk lies, what the device finds there, a chunk that is
lost; and pops and pushes at the die unit's gate in a replay (R348, R349, R351). -/

namespace Sys2Proof.Machine

/-- The arbiter of a core's die worklist unit (R348). -/
def dieArb (core : Nat) : Nat := 0x400 + core / Config.coresPerDie

/-- Bytes of a spill chunk (R292). -/
def chunkBytes : Nat := 4096
/-- Records of a spill chunk (R292). -/
def chunkRecs : Nat := 256
/-- Where chunk n lies; the layout of the region is not architectural (R292). -/
def chunkAddr (w : Worklist) (n : Nat) : Nat := w.spill + chunkBytes * n

/-- What the device finds at a chunk (R297): its place, no page yet, or what makes the worklist FAULTED. -/
inductive ChunkAt
  | ok (key : Nat)
  | absent
  | bad (cause : BitVec 9)
deriving DecidableEq, Repr

/-- Look for a chunk's place; no right is asked (log entry 15). A page that can never be used counts as unresolvable. -/
def chunkAt (s : State) (cid : Nat) (w : Worklist) (n : Nat) (read : Bool) : ChunkAt :=
  let va := chunkAddr w n
  if 72057594037927936 ≤ va then .bad cPAGE
  else
    match walk s cid va with
    | .leaf ent level =>
      (match leafKey s ent level va 0 with
        | .ok key => if read && !isSys key && s.poisoned key chunkBytes then .bad cMEMERR else .ok key
        | .prot _ | .absent | .memerr | .hole _ => .bad cPAGE)
    | .absent => .absent
    | .memerr => .bad cMEMERR
    | .bad _ | .hole _ => .bad cPAGE

/-- What parked pops of a saved gang are to get at the restore (R297, R335). -/
def notePops (s : State) (cid : Nat) (wl : Fin 4) (a : Option (BitVec 9 × W64)) : State :=
  let on (t : Thread) : Bool := match t.wait with | .wlpop l _ _ _ => l == wl && !t.exited | _ => false
  s.onCtx cid (fun c =>
    { c with saved := c.saved.map (fun (v : Saved) =>
      { v with pops := v.pops ++ ((v.threads.filter (fun t => on t && !v.pops.any (fun p => p.1 == t.ref))).map (fun t => (t.ref, a))) }) })

/-- A chunk is lost: the worklist is FAULTED, event 2 is posted, parked pops trap and waiting pushes issue again (R297). -/
def chunkFault (s : State) (cid : Nat) (wl : Fin 4) (n : Nat) (cause : BitVec 9) : State :=
  match s.wl? cid wl with
  | none => s
  | some w =>
    let a := BitVec.ofNat 64 (chunkAddr w n)
    let s := s.onWl cid wl (fun w =>
      { w with
        st := .faulted, flt := some (cause, a)
        units := vmap (fun u => { u with chunks := u.chunks.filter (fun c => c.1 != n) }) w.units })
    let s := postEvent s cid 2 a.toNat wl.val
    let s := notePops s cid wl (some (cause, a))
    let s := (parkedOn s cid wl).foldl (fun s t => askTrap s t cause a (info306 0 1)) s
    let again (t : Thread) : Thread :=
      match t.wait with
      | .wlpush l _ _ _ => if t.cid == cid && l == wl then { t with wait := .none } else t
      | _ => t
    (s.onAll again).onCtx cid (fun c =>
      { c with saved := c.saved.map (fun (v : Saved) => { v with threads := v.threads.map again }) })

/-- The chunk a record of a die unit lies in, if it is spilled. -/
def chunkOf (w : Worklist) (core : Nat) (r : WRec) : Option Nat :=
  ((w.units[dieOf core]).chunks.find? (fun c => c.2.contains r)).map (·.1)

/-- What taking a record comes to: taken, its chunk's page asked for, or its chunk lost (R292, R297). -/
inductive TakeRes
  | ok
  | page (rid : Nat) (s : State)
  | lost (s : State)

/-- The die unit reads a spilled record's chunk before a pop returns it. -/
def reachRec (s : State) (cid core : Nat) (wl : Fin 4) (w : Worklist) (r : WRec) : TakeRes :=
  if (frontOf s core cid wl).contains r then .ok
  else
    match chunkOf w core r with
    | none => .ok
    | some n =>
      match chunkAt s cid w n true with
      | .ok _ => .ok
      | .absent =>
        let x := pageRequest s cid (chunkAddr w n) 1 (.chunk wl.val (dieOf core).val n)
        .page x.1 x.2
      | .bad c => .lost (chunkFault s cid wl n c)

/-- One of the records that a pop may return; which is not architectural (R289). -/
def pickRec (s : State) : List WRec → Option WRec
  | [] => none
  | [r] => some r
  | r :: q :: l => some (((r :: q :: l)[Config.freeChoice s.fresh % (l.length + 2)]?).getD r)

/-- The record a WLPOP value chunk names (R349). -/
def namedRec (v : W64) (r : WRec) : Bool := agentVal r.core r.slot r.num == bits v.toNat 0 48

/-- Every reachable record that the pop's bound allows. -/
def reachable (s : State) (core cid : Nat) (wl : Fin 4) (w : Worklist) : List WRec :=
  let u := w.units[dieOf core]
  (frontOf s core cid wl ++ u.recs ++ u.chunks.flatMap (·.2)).filter (fun r => eligible w u.fseen (bucket w r.key))

/-- What a pop finds: nothing reachable, held at the gate, or a record with the state past the gate. -/
inductive PopRes
  | none
  | hold
  | found (r : WRec) (s : State)

/-- The code of a WLPOP result chunk (R349). -/
def popCode : Nat := 0xFFFB

/-- The record that a pop of a thread returns (R289); in a replay the one that the log names (R351). -/
def popFind (s : State) (t : Thread) (wl : Fin 4) (w : Worklist) : PopRes :=
  let cs := popChoices s t.core t.cid wl w
  if replaying s t.cid then
    (match gateTake s t.cid (dieArb t.core) t.core t.slot popCode with
      | some (s', v) =>
        (match (reachable s t.core t.cid wl w).find? (namedRec (v.getD 0)) with
          | some r => .found r s'
          | none => .hold)
      | none => if cs.isEmpty then .none else .hold)
  else
    match pickRec s cs with
    | some r => .found r { s with fresh := s.fresh + 1 }
    | none => .none

/-- Place a waiting thread's record at its die unit's gate (R288, R348): none while a replay holds it. -/
def pushAtGate (s : State) (t : Thread) (wl : Fin 4) (words : List W32) (entry : Option Nat) : Option State :=
  (gateTake s t.cid (dieArb t.core) t.core t.slot 0).map (fun x => wlPlace x.1 t wl words entry)

end Sys2Proof.Machine
end

