-- ==== Sys2Proof/Machine/Faults.lean ====
section
/-! DEFINITION. What a rejected page or a fault of an engine does to those that waited (R244, R256, R297, R310, R315, R316). -/

namespace Sys2Proof.Machine

/-- The matrix unit's fault terminates the workgroup, SOURCE 2, with the MRP (R256, R310). -/
def matrixFault (s : State) (w : Wg) (cause : BitVec 9) (va info : W64) : State :=
  terminate s w { source := 2, cause := cause.toNat, cmderr := 0, tpc := 0, taddr := va, tinfo := info, ring := 0, ch := 0, tid := 0,
                  aux := mrp w, entry := [] }

/-- What the report of a copy entry says of it (R244, R310). -/
structure CopyErr where
  cause : BitVec 9
  cmderr : Nat
  va : W64
  info : W64
deriving DecidableEq, Repr

/-- A copy entry's fault terminates the publishing workgroup, SOURCE 1 (R244, R310). -/
def copyFault (s : State) (w : Wg) (ch : Fin 4) (idx tid : Nat) (raw : List Byte) (e : CopyErr) : State :=
  terminate s w { source := 1, cause := e.cause.toNat, cmderr := e.cmderr, tpc := 0, taddr := e.va, tinfo := e.info
                  ring := idx % 65536, ch := ch.val, tid, aux := (w.chwp[ch]).toNat, entry := raw }

/-- A command error is ILLEGAL with its code (R243, R310). -/
def cmdErr (code : Nat) : CopyErr := { cause := cILLEGAL, cmderr := code, va := 0, info := 0 }

/-- The workgroup of a requester. -/
def PWho.wg : PWho → Option Nat
  | .thread t => refWg t
  | .matrix w | .refill w _ => some w
  | .chunk _ _ _ => none

/-- A rejection reaches a requester (R315): a thread takes PAGE when it tries again, an engine's workgroup is terminated, a
worklist is FAULTED. -/
def rejectOne (s : State) (cid va kind : Nat) (who : PWho) : State :=
  let a := BitVec.ofNat 64 va
  match who with
  | .thread t => s.onThread t (fun x => { x with rej := some a })
  | .matrix w =>
    (match s.wg? w with
      | some x => if x.term then s else matrixFault s x cPAGE a (info306 0 kind)
      | none => s)
  | .refill w r =>
    (match s.wg? w with
      | some x => (match s.lrecOf x with
          | some l => if x.term then s else spillFault s x l r cPAGE (info306 0 kind)
          | none => s)
      | none => s)
  | .chunk wl _ n => chunkFault s cid (Fin.ofNat 4 wl) n cPAGE

/-- Is a workgroup saved in a slot of a context. -/
def savedIn (v : Saved) (w : Nat) : Bool := v.wgs.any (fun x => x.id == w)

/-- A rejection for a saved requester is applied at its restore (R316). -/
def rejectWho (s : State) (cid va kind : Nat) (who : PWho) : State :=
  match who.wg with
  | none => rejectOne s cid va kind who
  | some w =>
    if ((s.ctx? cid).map (fun c => c.saved.any (fun v => savedIn v w))).getD false then
      s.onCtx cid (fun c =>
        { c with saved := updFirst (fun v => savedIn v w) (fun v => { v with rejected := v.rejected ++ [(who, va, kind)] }) c.saved })
    else rejectOne s cid va kind who

/-- A thread that waits for a page waits for the request that takes its place (R320). -/
def renameWait (old new : Nat) (t : Thread) : Thread := if t.wait = .page old then { t with wait := .page new } else t

/-- The same in a workgroup's matrix queue. -/
def renameSusp (old new : Nat) (w : Wg) : Wg :=
  { w with mq := w.mq.map (fun e => if e.susp = some old then { e with susp := some new } else e) }

/-- A second absent page sends a new request under a new RID (R320). -/
def reRequest (s : State) (cid old : Nat) : State :=
  let new := s.uid
  let s := s.onAll (renameWait old new)
  let s := { s with wgs := s.wgs.map (renameSusp old new), uid := s.uid + 1 }
  s.onCtx cid (fun c =>
    { c with
      preqs := updFirst (fun r => r.rid == old) (fun r => { r with rid := new, posted := false }) c.preqs
      saved := c.saved.map (fun (v : Saved) =>
        { v with threads := v.threads.map (renameWait old new), wgs := v.wgs.map (renameSusp old new) }) })

end Sys2Proof.Machine
end

