-- ==== Sys2Proof/Machine/EvPreempt.lean ====
section
/-! DEFINITION. Pre-emption, saves, restores and gang switches (R323-R335). -/

namespace Sys2Proof.Machine

/-- Does a placed gang hold priority inheritance (R295). -/
def gangInherits (s : State) (g : Gang) : Bool :=
  match s.ctx? g.cid with
  | none => false
  | some c => g.members.any (fun w => c.wls.toList.any (fun l =>
      l.tasks.any (fun t => refWg t.1 == some w && (match l.fseen with | some f => bucket l t.2 ≤ f | none => false))))

/-- The gangs that a launch of PRIO p may displace, in the order they are taken (R322): those without inheritance first, the
lowest PRIO first, the most recently placed first. -/
def victims (s : State) (p : Nat) : List Gang :=
  let prio (g : Gang) : Nat := ((s.ctx? g.cid).map (·.desc.prio)).getD 0
  let key (g : Gang) : Nat := ((if gangInherits s g then 8 else 0) + prio g) * (s.uid + 1) + (s.uid - g.id)
  sortBy key (s.gangs.filter (fun g => g.way == .run && g.endTick.isNone && prio g < p))

/-- A launch that cannot be placed asks for a priority pre-emption of these gangs (R322): its context. -/
def priorityAsks (s : State) (gids : List Nat) : Option Nat :=
  (s.ctxs.find? (fun c => !(readyLaunches s c).isEmpty && !couldPlace s c
    && gids == ((victims s c.desc.prio).take gids.length).map (·.id))).map (·.cid)

/-- System software asks for all gangs of a RUNNING context: it is to be SAVED (R317, log entry 98). -/
def askSaved (s : State) (gids : List Nat) : State :=
  { s with ctxs := s.ctxs.map (fun (c : Ctx) =>
    let gs := ctxGangs s c.cid
    if c.st == .running && !gs.isEmpty && gs.all (fun g => gids.contains g.id) then { c with leaving := true } else c) }

/-- PREEMPT_REQUEST (R322, R323, R325): each gang named decides once; `bound` is in ticks, none for a priority request. -/
def execPreemptRequest (gids : List Nat) (bound : Option Nat) (s : State) : Out :=
  match bound with
  | some n => .next (gids.foldl (fun s g => preempt s g (some n) none) (askSaved s gids))
  | none =>
    match priorityAsks s gids with
    | none => .next s
    | some c => .next (gids.foldl (fun s g => preempt s g none (some c)) s)

/-- DRAIN_EXPIRE (R326): a draining gang that has not ended by its bound is saved. -/
def execDrainExpire (gid : Nat) (s : State) : Out :=
  match s.gang? gid with
  | none => .next s
  | some g =>
    match g.way with
    | .drain (some d) => due (d ≤ s.tick && g.endTick.isNone) s (.next (s.onGang gid (fun g => { g with way := .save })))
    | .run | .drain none | .save => .next s

/-! ## The save (R327-R329) -/

/-- The threads of a gang, restoration threads too. -/
def gangThreads (s : State) (g : Gang) : List Thread := (membersOf s g).flatMap (fun w => threadsOf s w.id)

/-- What of a thread's accesses a save waits for: in a replay not a request that its gate holds, nor what follows it (R327, R351). -/
def toSettle (s : State) (t : Thread) : List Mop :=
  if replaying s t.cid then
    t.mops.takeWhile (fun m => !(isOrderPoint m && (gateTake s t.cid (accessArb s t m) t.core t.slot 0).isNone))
  else t.mops

/-- Is a member settled (R327): its loads and stores performed, its tokens and taken copies complete, its evaluations done. What waits
for a request that a replay's gate holds goes on after the restore (R351). -/
def memberSettled (s : State) (w : Wg) : Bool :=
  (threadsOf s w.id).all (fun t =>
    (toSettle s t).isEmpty && (!t.mops.isEmpty
      || (t.toks.isEmpty && t.fence.all (fun f => f.scope == 2 && (gateTake s t.cid t.core t.core t.slot 0).isNone))))
    && w.chans.toList.all (·.isEmpty)
    && w.mq.all (fun e => !(e.begun && !e.done && e.susp.isNone && (match e.op with | .mdrain _ _ _ _ => true | _ => false)))
    && !(s.core w.core).evals.any (fun e => e.w == w.id)

/-- A context's front-buffer records of a core drain to the die unit (R295); one that finds no room there stays (R292, log entry
100). -/
def drainFront (s : State) (core cid : Nat) : State :=
  ((s.core core).front.filter (fun r => r.cid == cid)).foldl
    (fun s r => if dieHeld s (dieOf core) < unitRoom then sendRec s core r else s) s

/-- A gang as a save takes it: running restoration threads are abandoned and their entries return (R274, R327). -/
def savedOf (s : State) (g : Gang) : Saved :=
  let ws := membersOf s g
  let ts := gangThreads s g
  { slot := g.slot, bytes := most (ws.map (memberBytes s)), gang := g
    wgs := ws.map (fun (w : Wg) => { w with spent := elapsed s w })
    threads := ts.filter (fun t => t.rest.isNone)
    rests := ws.flatMap (fun w => (s.core w.core).restq.filter (fun e => e.w == w.id)) ++ ts.filterMap (·.rest)
    tick := s.tick, rejected := [], pops := []
    allots := ws.map (fun w => readBytes s.mem (scratchKey w.core w.base) w.size) }

/-- Settle each member, release at device scope, and write the slot (R327, R329). -/
def writeGang (s : State) (g : Gang) (la : Launch) : Saved × State :=
  let ws := membersOf s g
  let s := ws.foldl (fun s w => drainFront (release s w.core g.cid 5) w.core g.cid) s
  let v := savedOf s g
  (v, writeSlot s la.lrec la.addr v (most (ws.map (elapsed s))))

/-- A save completes (R322, R327): the gang leaves its cores. -/
def saveGang (s : State) (g : Gang) (la : Launch) : State :=
  let n := unchargedTicks s (membersOf s g)
  let x := writeGang s g la
  let s := chargeMove (charge (dropGang x.2 g) g.cid n) g.by' x.1.bytes
  testIdle (s.onCtx g.cid (fun c => { c with saved := c.saved ++ [x.1] })) g.cid

/-- GANG_SAVE (R327): speculations are undone first; once every member is settled the slot is written. -/
def execGangSave (gid : Nat) (s : State) : Out :=
  match s.gang? gid with
  | none => .next s
  | some g =>
    due (g.way == .save && g.endTick.isNone) s
      (let spec := (gangThreads s g).filter (fun t => (t.fence.map (fun f => !f.rolled)).getD false)
       if !spec.isEmpty then .next (spec.foldl (fun s t => rollBack s t.ref) s)
       else
         match s.launch? g.launch with
         | none => .next s
         | some la => due ((membersOf s g).all (memberSettled s)) s (.next (saveGang s g la)))

/-! ## The restore (R331, R332) -/

/-- The switch that brings a context in, if one has begun (R333). -/
def switchIn (s : State) (cid : Nat) : Bool := s.switches.any (fun w => w.begun && w.inc == some cid)

/-- A gang of an incoming context cannot be restored: the context stays SAVED, and what was restored of it is saved again (R333). -/
def switchFail (s : State) (cid : Nat) : State :=
  if switchIn s cid then
    setCtxState { s with gangs := s.gangs.map (fun (g : Gang) => if g.cid == cid && !g.ready then { g with way := .save } else g) } cid .saved
  else s

/-- Does a saved gang hold a task at or below Fseen: it inherits its context's highest priority (R295). -/
def inherits (c : Ctx) (v : Saved) : Bool :=
  v.threads.any (fun t => c.wls.toList.any (fun w =>
    match wlHeld w t.ref with
    | some k => (match w.fseen with | some f => bucket w k ≤ f | none => false)
    | none => false))

/-- An outstanding access to a member's allotment goes to where that member now is. -/
def rekey (moved : List (Wg × Nat × Nat)) (m : Mop) : Mop :=
  match moved.find? (fun x => scratchKey x.1.core x.1.base ≤ m.key && m.key < scratchKey x.1.core x.1.base + x.1.size) with
  | some x => { m with key := scratchKey x.2.1 x.2.2 + (m.key - scratchKey x.1.core x.1.base) }
  | none => m

/-- A member comes back on its new core: its allotment, registers, accumulators, scale memory and restoration entries (R331). -/
def restoreMember (v : Saved) (la : Launch) (first : Nat) (moved : List (Wg × Nat × Nat)) (s : State) (x : (Wg × List Byte) × (List Nat × Nat)) : State :=
  let w := x.1.1
  let l := la.lrec
  let core := first + w.member
  let base := v.slot + memberOff l w.member
  let back (t : Thread) : Thread :=
    { readThread s w.cid l w base t with core, slot := 64 * (x.2.1[t.tid / 64]?).getD 0 + t.tid % 64, age := 0, board := [], mops := t.mops.map (rekey moved) }
  let ts := (v.threadsOf w.id).map back
  let bytes := (devGet s w.cid (base + sectionOff l 3) w.size).getD x.1.2
  let w' : Wg := { readWg s l v.slot w with core, rows := x.2.1, base := x.2.2, placed := s.tick }
  let s := { s with mem := writeBytes s.mem (scratchKey core x.2.2) bytes, wgs := s.wgs ++ [w'], threads := s.threads ++ ts }
  let s := s.onCore core (fun c => { c with restq := c.restq ++ v.rests.filter (fun e => e.w == w.id) })
  acquire s core w.cid 5

/-- What a pop that was saved parked is given at the restore (R297, R335). -/
def givePop (s : State) (p : TRef × Option (BitVec 9 × W64)) : State :=
  match s.thread? p.1 with
  | none => s
  | some t =>
    match t.wait, p.2 with
    | .wlpop wl xa ps _, none => popEnded s t wl xa ps 2
    | .wlpop _ _ _ _, some f => askTrap s t f.1 f.2 (info306 0 1)
    | _, _ => s

/-- A saved gang is restored (R316, R331, R335): all members in one step; then the answers that came meanwhile. -/
def restoreGang (s : State) (cid die cluster : Nat) (v : Saved) (la : Launch) (places : List (List Nat × Nat)) : State :=
  let first := die * Config.coresPerDie + cluster * 8 + v.gang.first
  let s := { s with gangs := s.gangs ++ [{ v.gang with die, cluster, way := .run, ready := !switchIn s cid, by' := none }] }
  let moved := (v.wgs.zip places).map (fun x => (x.1, first + x.1.member, x.2.2))
  let s := ((v.wgs.zip v.allots).zip places).foldl (restoreMember v la first moved) (chargeMove s v.gang.by' v.bytes)
  let s := s.onCtx cid (fun c => { c with saved := c.saved.filter (fun x => x.slot != v.slot) })
  v.pops.foldl givePop (v.rejected.foldl (fun s r => rejectOne s cid r.2.1 r.2.2 r.1) s)

/-- GANG_RESTORE (R331, R332, R351): once the places named are free; a replay restores where the gang was recorded. -/
def execGangRestore (slot die cluster : Nat) (rows : List (List Nat)) (bases : List Nat) (s : State) : Out :=
  let s := refreshDescs s
  match s.ctxs.find? (fun c => c.saved.any (fun v => v.slot == slot)) with
  | none => .next s
  | some c =>
    match c.saved.find? (fun v => v.slot == slot) with
    | none => .next s
    | some v =>
      match s.launch? v.gang.launch with
      | none => .next s
      | some la =>
        if c.st ≠ .running ∨ c.leaving then .next s
        else if !(List.range 48).any (fun i => clusterOk s c.desc.part (i / 12) (i % 12)) then
          .next (switchFail (postEvent s c.cid 3 v.gang.g la.addr.toNat) c.cid)
        else
          let first := die * Config.coresPerDie + cluster * 8 + v.gang.first
          let places := rows.zip bases
          let recorded : Bool := !replaying s c.cid
            || ((v.wgs.zip places).all (fun x => x.1.core == first + x.1.member && x.1.rows == x.2.1))
          let ok : Bool := die < 4 && cluster < 12 && clusterOk s c.desc.part die cluster && rows.length == v.wgs.length
            && bases.length == v.wgs.length && recorded
            && (v.wgs.zip places).all (fun x => memberFits s (first + x.1.member) la.lrec x.2.1 x.2.2)
            && (inherits c v || !c.saved.any (inherits c)) && notOutranked s c
            && v.wgs.all (fun w => !(s.core (first + w.member)).todo.any (fun x => x.1 == c.cid))
          due ok s
            (if headerOk ((devGet s c.cid slot 256).getD []) la.addr then .next (restoreGang s c.cid die cluster v la places)
             else .next (switchFail (killSaved (postEvent s c.cid 5 v.gang.g slot) c.cid v) c.cid))

/-! ## Switches (R333) -/

/-- At T the outgoing contexts stop issuing and their gangs are saved, ended ones apart. -/
def switchOut (by' : Option Nat) (s : State) (cid : Nat) : State :=
  if ctxState s cid = .running then
    let s := { s with gangs := s.gangs.map (fun (g : Gang) => if g.cid == cid && g.endTick.isNone then
        { g with way := .save, by' := if g.by'.isSome then g.by' else by' } else g) }
    setCtxState s cid .saved
  else s

/-- SWITCH_TICK (R333): the agreed tick has come. -/
def execSwitchTick (s : State) : Out :=
  match s.switches.find? (fun w => !w.begun && w.when ≤ s.tick) with
  | none => .next s
  | some w =>
    let s := { s with switches := updFirst (fun x => x == w) (fun x => { x with begun := true }) s.switches }
    let s := w.out.foldl (switchOut (some w.by')) s
    match w.inc with
    | some c => if ctxState s c = .idle ∨ ctxState s c = .saved then enterRunning s c (fun s => .next s) else .next s
    | none => .next s

/-- Everything that a switch waits for has happened (R333). -/
def switchDone (s : State) (w : Switch) : Bool :=
  w.begun && w.out.all (fun c => ctxState s c == .running || (ctxGangs s c).isEmpty)
    && (match w.inc with
        | none => true
        | some c => ctxState s c != .running || (((s.ctx? c).map (fun x => x.saved.isEmpty)).getD true))

/-- An outgoing context at the end of a switch: IDLE with nothing saved, else SAVED with its counters blocks written (R263,
R333). -/
def switchLeave (s : State) (cid : Nat) : State :=
  match s.ctx? cid with
  | none => s
  | some c =>
    if c.st ≠ .saved then s
    else if c.saved.isEmpty then setCtxState s cid .idle
    else (c.agg.map (·.region)).foldl (fun s r => writeBlock s cid r) s

/-- SWITCH_COMPLETE (R333, R319): the incoming gangs may issue, and event 4 is posted to each context concerned. -/
def execSwitchComplete (s : State) : Out :=
  match s.switches.find? (switchDone s) with
  | none => .next s
  | some w =>
    let s := w.out.foldl switchLeave s
    let s := (match w.inc with
      | some c => if ctxState s c = .running then { s with gangs := s.gangs.map (fun (g : Gang) => if g.cid == c then { g with ready := true } else g) } else s
      | none => s)
    let arg := w.inc.getD 64
    let s := (w.out ++ w.inc.toList).foldl (fun s c => postEvent s c 4 arg w.when) s
    .next { s with switches := s.switches.filter (fun x => x != w) }

end Sys2Proof.Machine
end

