-- ==== Sys2Proof/Machine/Verify.lean ====
section
/-! DEFINITION. The verifier of queue programs (R374). -/

namespace Sys2Proof.Machine

/-- An instruction of a program: its place in words, its main word, what it decodes to. -/
structure VIns where
  pos : Nat
  w : Nat
  row : Row
deriving DecidableEq, Repr

/-- The instructions of a program one after another; none where one does not decode or runs past the end. -/
def parseProg : Nat → Nat → List Nat → Option (List VIns)
  | 0, _, _ => some []
  | _, _, [] => some []
  | f + 1, pos, w :: rest =>
    match decodeRow w ((rest[0]?).getD 0) ((rest[1]?).getD 0) with
    | .err _ => none
    | .ok row =>
      if rest.length + 1 < rowLen row then none
      else (parseProg f (pos + rowLen row) ((w :: rest).drop (rowLen row))).map (fun l => { pos, w, row } :: l)

/-- VERR 1: the majors and functions a program may use. -/
def verAllowed (w : Nat) : Bool :=
  let m := fld w 25 6
  let i := fld w 0 15
  if bit w 31 then
    m ≤ 0x20 || m == 0x2E || ((m == 0x2A || m == 0x2B) && (i == 0x20 || (0x100 ≤ i && i ≤ 0x1FF)))
      || (m == 0x3F && 4 ≤ i && i ≤ 11)
  else (1 ≤ m && m ≤ 0x2C) || (0x30 ≤ m && m ≤ 0x3E)

/-- VERR 2: the base register of a memory access is x60-x63. -/
def verBase (w : Nat) : Bool :=
  let m := fld w 25 6
  if bit w 31 then !(m == 0x1E || m == 0x1F) || 60 ≤ fld w 9 6 else m < 0x30 || 60 ≤ fld w 7 6

/-- The x registers an allowed instruction writes. -/
def xWrites (row : Row) : List XReg :=
  (rowDst row).filterMap (fun r => match r with | .x n => some n | _ => none)
    ++ (match row with
        | .early (.wld _ t _ _) => [t]
        | .early (.srd _ d _) => [d]
        | .qlaunch _ a => [a]
        | .wlcfg _ a => [a]
        | _ => [])

/-- Does an allowed instruction write a predicate. -/
def pWrites (row : Row) (p : PReg) : Bool :=
  match row with
  | .early (.icmp _ d _ _ _) | .early (.ncmp _ d _ _ _) | .early (.fcmp _ d _ _ _) | .early (.plop _ d _ _ _)
  | .early (.wcmp _ d _ _ _) | .early (.wncmp _ d _ _ _) | .early (.dcmp _ d _ _ _) => d == p
  | .early (.vtop _ _) => true
  | _ => false

/-- The displacement of a BRA, with its guard. -/
def braOf (row : Row) : Option (Guard × Int) :=
  match row with
  | .early (.bra g d) => some (g, d.toInt)
  | _ => none

/-- The value of a B9 constant. -/
def constB9 : SrcB9 → Option W64
  | .imm i => some (i.signExtend 64)
  | .lit32 w => some (w.signExtend 64)
  | .lit64 w => some w
  | .zero => some 0
  | .x _ => none

/-- Is a row an unguarded `WAND xc, xc, n`, and its n. -/
def isWand (row : Row) (c : XReg) : Option W64 :=
  match row with
  | .early (.wand none d a b) => if d = c ∧ a = c then constB9 b else none
  | _ => none

/-- The same of WADD. -/
def isWadd (row : Row) (c : XReg) : Option W64 :=
  match row with
  | .early (.wadd none d a b) => if d = c ∧ a = c then constB9 b else none
  | _ => none

/-- An unguarded `WSUB xc, xc, 1`: c. -/
def isCountdown (row : Row) : Option XReg :=
  match row with
  | .early (.wsub none d a b) => if d = a ∧ constB9 b = some 1 then some d else none
  | _ => none

/-- An unguarded `WCMP.ne pN, xc, 0`. -/
def isLoopTest (row : Row) (p : PReg) (c : XReg) : Bool :=
  match row with
  | .early (.wcmp none d .ne a (.imm n)) => d == p && a == c && n.val == 0
  | _ => false

/-- The counted loop that a backward BRA at place i of the program closes, from the place of L to that of the BRA (R374). -/
def countedLoop (l : List VIns) (i : Nat) (tgt : Int) : Option (Nat × Nat) :=
  match l.findIdx? (fun x => (x.pos : Int) == tgt), l[i]? with
  | some j, some br =>
    (match (braOf br.row).bind (·.1), l[i - 2]?.bind (fun x => isCountdown x.row), l[i - 1]?, l[j - 2]?, l[j - 1]?, l[j]? with
      | some p, some c, some test, some wand, some wadd, some first =>
        let n := ((isWadd wadd.row c).map (·.toNat)).getD 0
        if 2 ≤ j ∧ j + 2 ≤ i ∧ isWand wand.row c = some 0 ∧ 1 ≤ n ∧ n ≤ 256 ∧ isLoopTest test.row p c
            ∧ ((l.drop j).take (i - 2 - j)).all (fun x => !(xWrites x.row).contains c && !pWrites x.row p) then
          some (first.pos, br.pos)
        else none
      | _, _, _, _, _, _ => none)
  | _, _ => none

/-- The branches of a program: index, place, target. -/
def branches (l : List VIns) : List (Nat × Nat × Int) :=
  l.zipIdx.filterMap (fun x => (braOf x.1.row).map (fun b => (x.2, x.1.pos, (x.1.pos : Int) + b.2)))

/-- VERR 5: every backward branch closes a counted loop, no branch enters a loop but at L, loops nest or are disjoint. -/
def verLoops (l : List VIns) : Bool :=
  let bs := branches l
  let back := (bs.filter (fun b => b.2.2 ≤ b.2.1)).map (fun b => countedLoop l b.1 b.2.2)
  let loops := back.filterMap id
  back.all (·.isSome)
    && loops.all (fun o => bs.all (fun b => (o.1 ≤ b.2.1 && b.2.1 ≤ o.2) || !((o.1 : Int) < b.2.2 && b.2.2 ≤ o.2))
      && loops.all (fun x => !(o.1 < x.1 && x.1 ≤ o.2 && o.2 < x.2)))

/-- VERR 6: the last instruction is QDONE or an unguarded BRA. -/
def verEnd (l : List VIns) : Bool :=
  match l.getLast? with
  | some x => (match x.row with
    | .qdone _ => true
    | .early (.bra none _) => true
    | _ => false)
  | none => false

/-- VERR of a program: the first rule of the table that it breaks, 0 if it is accepted (R374). -/
def verify (ws : List W32) : Nat :=
  match parseProg ws.length 0 (ws.map (·.toNat)) with
  | none => 1
  | some l =>
    if !l.all (fun x => verAllowed x.w) then 1
    else if !l.all (fun x => verBase x.w) then 2
    else if l.any (fun x => (xWrites x.row).any (fun r => 60 ≤ r.val)) then 3
    else if (branches l).any (fun b => b.2.2 < 0 || (ws.length : Int) ≤ b.2.2) then 4
    else if !verLoops l then 5
    else if !verEnd l then 6
    else 0

end Sys2Proof.Machine
end

