-- ==== Sys2Proof/Machine/EvQueue.lean ====
section
/-! DEFINITION. Queues and curators (R371-R379): enabling, notifying, the next packet, the resumption of a QWAITSIG. -/

namespace Sys2Proof.Machine

/-! ## Enabling (R371, R374, R379, R381) -/

/-- The rules of a queue descriptor's fields (R371). -/
def qdescOk (bs : List Byte) : Bool :=
  let d := dword bs 8
  bits d 39 25 == 0 && bits d 20 12 == 0 && bits d 6 5 == 0 && dword bs 0 % 64 == 0 && bits d 32 7 ≤ 64 && 4 ≤ bits d 16 4
    && dword bs 0x10 % 4 == 0 && 1 ≤ dword bs 0x18 && dword bs 0x18 ≤ 1024
    && [0x20, 0x28, 0x30].all (fun o => dword bs o % 64 == 0) && bits (dword bs 0x38) 48 16 == 0
    && [0x60, 0x68, 0x70, 0x78].all (fun o => dword bs o == 0)

/-- The words of a program's bytes. -/
def wordsOf : List Byte → List W32
  | a :: b :: c :: d :: l => BitVec.ofNat 32 (ofBytes [a, b, c, d]) :: wordsOf l
  | _ => []

/-- A queue of a descriptor, with its program; `verr` from the verifier. -/
def Queue.ofBytes (q : Nat) (bs : List Byte) (words : List W32) (verr : Nat) : Queue :=
  let d := dword bs 8
  let h := dword bs 0x40
  let z := dword bs 0x38
  { q, ring := dword bs 0, vf := bits d 32 7, log2e := bits d 16 4, cur := bits d 12 4, sw := bits d 11 1 == 1, cid := bits d 0 6
    prog := dword bs 0x10, words
    wins := [(dword bs 0x20, 64 * bits z 0 16), (dword bs 0x28, 64 * bits z 16 16), (dword bs 0x30, 64 * bits z 32 16)]
    phase := BitVec.ofNat 32 (bits h 32 32), head := BitVec.ofNat 32 (bits h 0 32), tail := BitVec.ofNat 32 (bits h 0 32), verr
    st := if verr ≠ 0 then .disabled else if dword bs 0x50 ≠ 0 then .waiting else .enabled
    waddr := BitVec.ofNat 64 (dword bs 0x50), wthr := BitVec.ofNat 64 (dword bs 0x58), fresh := true, launches := [], quiesce := false
    paused := none }

/-- Does a curator run a packet of a queue. -/
def runsPacket (s : State) (q : Nat) : Bool := s.curators.any (fun k => k.q == q)

/-- May system software enable a queue: it is DISABLED or FAULTED, and no packet of it runs. -/
def mayEnable (s : State) (q : Nat) : Bool :=
  ((s.queue? q).map (fun x => x.st == .disabled || x.st == .faulted)).getD true && !runsPacket s q

/-- Note the queue that a QOP names (R362). -/
def nameQueue (s : State) (q : Nat) : State := { s with cfg := { s.cfg with qid := BitVec.ofNat 12 q } }

/-- QUEUE_ENABLE (R371, R374, R379, R381): the program is copied, verified and measured; a descriptor out of its rules, a CID
without a context or a program that is not in memory enables nothing. -/
def execQueueEnable (q : Nat) (s : State) : Out :=
  let s := nameQueue s q
  due (q < 4096 && mayEnable s q) s
    (tableRead s (s.cfg.qdtab.toNat + 128 * q) 128 (fun bs s =>
      let cid := bits (dword bs 8) 0 6
      if !qdescOk bs || (s.ctx? cid).isNone then .next s
      else
        match devGet s cid (dword bs 0x10) (4 * dword bs 0x18) with
        | none => .next s
        | some prog =>
          let words := wordsOf prog
          let x := Queue.ofBytes q bs words (verify words)
          let s := measure s cid 2 prog
          .next (syncQueue { s with queues := s.queues.filter (fun y => y.q != q) ++ [x] } q)))

/-! ## Disabling (R371, R378, R379) -/

/-- A curator that runs a packet of a queue stops at the instruction boundary; a launch not yet decided goes with it. -/
def stopPacket (s : State) (q : Nat) : State :=
  (s.curators.filter (fun k => k.q == q)).foldl
    (fun s k => { endPacket (dropThread s (.cur k.c)) k.c with launches := s.launches.filter (fun l => !(l.q == q && !l.accepted)) }) s

/-- QUEUE_DISABLE (R371): notify writes are ignored from now on. -/
def execQueueDisable (q : Nat) (s : State) : Out :=
  let s := nameQueue s q
  due (s.queue? q).isSome s
    (.next ((stopPacket s q).setQueue q (fun x => { x with st := .disabled, quiesce := false, paused := none, tail := x.head })))

/-- QUEUE_QUIESCE (R379, R384): at the next packet boundary, or in QWAITSIG; WADDR and WTHR keep the wait. -/
def execQueueQuiesce (q : Nat) (s : State) : Out :=
  let s := nameQueue s q
  match s.queue? q with
  | none => .next s
  | some _ =>
    if runsPacket s q then .next (s.onQueue q (fun x => { x with quiesce := true }))
    else .next (s.setQueue q (fun x => { x with st := .disabled, paused := none, tail := x.head }))

/-- QUEUE_NOTIFY (R369, R371): function f writes TAIL to the queue's notify page. -/
def execQueueNotify (f q : Nat) (tail : BitVec 32) (s : State) : Out :=
  match s.queue? q with
  | none => .next s
  | some x => due ((f == 0 || x.vf == f) && (x.st == .enabled || x.st == .waiting)) s (.next (s.onQueue q (fun x => { x with tail })))

/-! ## The next packet (R372) -/

/-- The ready queues of a curator (R372). -/
def readyQueues (s : State) (c : Nat) : List Queue :=
  s.queues.filter (fun x => x.cur == c && x.st == .enabled && x.paused.isNone && x.head != x.tail && (s.ctx? x.cid).isSome)

/-- PRIO of a context. -/
def prioOf (s : State) (cid : Nat) : Nat := ((s.ctx? cid).map (·.desc.prio)).getD 0

/-- The place of a context in a curator's round: the one being served first, then CID order, wrapping round (R372). -/
def curRank (r : Round) (cid : Nat) : Nat := if r.last = cid ∧ 0 < r.deficit cid then 0 else (cid + 63 - r.last) % 64 + 1

/-- The place of a queue in its context's turns: increasing queue number, wrapping round (R372). -/
def turnRank (r : Round) (x : Queue) : Nat :=
  (x.q + 4095 - ((r.lastQ.find? (fun y => y.1 == x.cid)).map (·.2)).getD 4095) % 4096

/-- Is a queue the one its curator serves next (R372). -/
def servedQueue (s : State) (c : Nat) (x : Queue) : Bool :=
  let r := s.round c
  let rs := readyQueues s c
  rs.any (fun y => y.q == x.q)
    && rs.all (fun y =>
      prioOf s y.cid < prioOf s x.cid
        || (prioOf s y.cid == prioOf s x.cid
          && (if y.cid = x.cid then turnRank r x ≤ turnRank r y else curRank r x.cid < curRank r y.cid)))

/-- The thread that starts on a packet (R372). -/
def curatorThread (c : Nat) (x : Queue) : Thread :=
  let pkt := x.ring + 64 * (x.head.toNat % 2 ^ x.log2e)
  let w (i : Nat) : W64 := BitVec.ofNat 64 (((x.wins[i]?).map (·.1)).getD 0)
  let r := { Regs.start with pc := BitVec.ofNat 64 x.prog }
  let r := (((r.setX 60 (BitVec.ofNat 64 pkt)).setX 61 (w 0)).setX 62 (w 1)).setX 63 (w 2)
  { Thread.idle with ref := .cur c, cid := x.cid, core := Config.cores + c, r }

/-- PACKET_START (R318, R372): the queue whose turn it is; a visit that leaves the curator deficit at 0 or below only passes on. -/
def execPacketStart (c q : Nat) (s : State) : Out :=
  let s := refreshDescs s
  match s.queue? q with
  | none => .next s
  | some x =>
    due (c < 16 && (s.curator? c).isNone && servedQueue s c x) s
      (let r := s.round c
       let weight := ((s.ctx? x.cid).map (·.desc.weight)).getD 0
       let r := if r.last = x.cid ∧ 0 < r.deficit x.cid then r
         else { r.setDeficit x.cid (min (r.deficit x.cid + weight * 4096) 1099511627776) with last := x.cid }
       if r.deficit x.cid ≤ 0 then .next (s.setRound r)
       else
         let s := s.setRound { r with lastQ := (x.cid, q) :: r.lastQ.filter (fun y => y.1 != x.cid) }
         let pkt := x.ring + 64 * (x.head.toNat % 2 ^ x.log2e)
         .next { s with
           curators := s.curators ++ [{ c, q, left := 4096, wins := (pkt, 64) :: x.wins }]
           threads := s.threads ++ [curatorThread c x] })

/-! ## QWAITSIG (R375, R379, R384) -/

/-- A wait's word cannot be read: the queue is FAULTED, PC at the QWAITSIG (R372, R375). -/
def waitFault (s : State) (x : Queue) (cause : BitVec 9) : State :=
  let pc := (x.paused.map (fun t => (t.r.pc - 4).toNat)).getD x.prog
  postEvent (s.setQueue x.q (fun y => { y with st := .faulted, paused := none })) x.cid 12 (x.q + cause.toNat * 65536) pc

/-- The queue goes on: its packet where it waited, or, after a migration, from the packet's start. -/
def resumeQueue (s : State) (x : Queue) : State :=
  let s := s.setQueue x.q (fun y => { y with st := .enabled, waddr := 0, wthr := 0, paused := none })
  let s := acquire s (Config.cores + x.cur) x.cid 6
  match x.paused with
  | none => s
  | some t =>
    let pkt := x.ring + 64 * (x.head.toNat % 2 ^ x.log2e)
    let r := s.round x.cur
    let s := s.setRound (r.setDeficit x.cid (r.deficit x.cid + t.issues))
    { s with
      curators := s.curators ++ [{ c := x.cur, q := x.q, left := 4096 - t.issues, wins := (pkt, 64) :: x.wins }]
      threads := s.threads ++ [{ t with wait := .none }] }

/-- QWAITSIG_RESUME (R375, R379, R384): the word has reached WTHR and the curator is free; a SAVED context's queue keeps waiting. -/
def execQwaitsigResume (q : Nat) (s : State) : Out :=
  match s.queue? q with
  | none => .next s
  | some x =>
    due (x.st == .waiting && ctxState s x.cid != .saved && (s.curator? x.cur).isNone) s
      (match xlate s (Config.cores + x.cur) x.cid x.waddr.toNat 1 with
       | (.ok key, s) =>
         if !isSys key && s.poisoned key 8 then .next (waitFault s x cMEMERR)
         else
           let r := s.take key 8
           .next (if x.wthr.toNat ≤ ofBytes r.1 then resumeQueue r.2 x else r.2)
       | (.prot _, s) => .next (waitFault s x cPROT)
       | (.memerr, s) => .next (waitFault s x cMEMERR)
       | (.absent, s) => .next s
       | (.hole pa, _) => .fault (.noSuchMemory pa))

end Sys2Proof.Machine
end

