-- ==== Sys2Proof/Machine/DeviceOps.lean ====
section
/-! DEFINITION. The device's registers (R362, R382), ingress (R364, R370), failures (R382), collectives that move and end (R334,
R367, R368). -/

namespace Sys2Proof.Machine

/-! ## Registers (R362, R382) -/

/-- HEALTH (R382). -/
def health (s : State) : W64 :=
  let clout := s.outClusters.length
  BitVec.ofNat 64
    ((if 4 < clout ∨ 8 < s.hbmRet then 2 ^ 63 else 0) + s.hbmRet % 256 * 2 ^ 40 + s.vbRet % 65536 * 2 ^ 24 + s.spares.length % 256 * 2 ^ 16
      + clout % 128 * 2 ^ 9 + (384 - 8 * clout) % 512)

/-- What a read of a register answers (R362); a read of CCID gives the CID's STATE. -/
def readRegister (s : State) (off : Nat) : W64 :=
  let c := s.cfg
  if off = 0 then c.cdtab else if off = 8 then c.dbgtab else if off = 0x10 then c.qdtab else if off = 0x18 then c.coltab
  else if off = 0x20 then BitVec.ofNat 64 (ctxState s c.ccid.toNat).code
  else if off = 0x28 then c.qid.setWidth 64
  else if off = 0x30 then c.vmode.extractLsb' 0 64 else if off = 0x38 then c.vmode.extractLsb' 64 64
  else if off = 0x40 then c.vmode.extractLsb' 128 64
  else if off = 0x48 then c.tickstop else if off = 0x50 then BitVec.ofNat 64 s.tick else if off = 0x58 then health s
  else if off = 0x60 then c.devnum.setWidth 64 else if off = 0x68 then c.pcap.setWidth 64
  else if 0x100 ≤ off ∧ off < 0x308 ∧ off % 8 = 0 then ((c.functx[(off - 0x100) / 8]?).map (fun x => x.setWidth 64)).getD 0
  else 0

/-- Write a register that has no behaviour of its own (R362). Reserved bits and read-only registers keep their values; DEVNUM
only while no link is up. -/
def writeRegister (c : Cfg) (links : Bool) (off : Nat) (v : W64) : Cfg :=
  if off = 0 then { c with cdtab := v } else if off = 8 then { c with dbgtab := v } else if off = 0x10 then { c with qdtab := v }
  else if off = 0x18 then { c with coltab := v }
  else if off = 0x28 then (if bits v.toNat 12 3 = 0 then { c with qid := v.setWidth 12 } else c)
  else if off = 0x60 then (if links then c else { c with devnum := v.setWidth 10 })
  else if off = 0x68 then { c with pcap := v.setWidth 12 }
  else if 0x100 ≤ off ∧ off < 0x308 ∧ off % 8 = 0 then
    { c with functx := Vector.ofFn (fun i : Fin 65 => if i.val = (off - 0x100) / 8 then BitVec.ofNat 9 (bits v.toNat 8 1 * 256 + bits v.toNat 0 6) else c.functx[i]) }
  else c

/-! ## Ingress (R364, R370) -/

/-- The pieces of n bytes from an address, none of which crosses a 32-byte sector (R349). -/
def sectorPieces (va n : Nat) : List (Nat × Nat) :=
  if n = 0 then []
  else
    (List.range ((va + n - 1) / 32 + 1 - va / 32)).map (fun i =>
      let b := 32 * (va / 32 + i)
      let lo := max va b
      (lo, min (va + n) (b + 32) - lo))

/-- The places of pieces for the hub (R370): none if one of them faults or lacks the right. -/
def hubPlaces (s : State) (cid kind : Nat) (ps : List (Nat × Nat)) : Option (List (Nat × Nat × Nat)) :=
  ps.mapM (fun p =>
    match walk s cid p.1 with
    | .leaf ent level =>
      (match leafKey s ent level p.1 kind with
        | .ok key => some (key, p.1, p.2)
        | .prot _ | .absent | .memerr | .hole _ => none)
    | .bad _ | .absent | .memerr | .hole _ => none)

/-- The context bound to a function (R362): its CID, if the binding is valid. -/
def boundCtx (s : State) (f : Nat) : Option Nat :=
  (s.cfg.functx[f]?).bind (fun x => if x.getLsbD 8 then some (x.toNat % 64) else none)

/-- An ingress fault (R370): TYPE 11 to the context that the function names. -/
def ingressFault (s : State) (f va : Nat) : State :=
  postEvent s (((s.cfg.functx[f]?).map (fun x => x.toNat % 64)).getD 64) 11 va f

/-- Note an ingress write in a recording: the order chunk and the data (R348, R349). -/
def noteIngress (s : State) (cid port va key : Nat) (bs : List Byte) : State :=
  (logWin s cid (homeArb key) 511 port).onCtx cid (fun c =>
    if c.dbg.amode = 1 && c.arch.on then { c with arch := { c.arch with ingress := c.arch.ingress ++ [(port, va, bs)] } } else c)

/-- Write pieces at their homes in order. -/
def ingressPieces (cid port : Nat) : List (Nat × Nat × Nat) → List Byte → State → State
  | [], _, s => s
  | p :: ps, bs, s =>
    let s := noteIngress (s.put .none p.1 (bs.take p.2.2)) cid port p.2.1 p.1 (bs.take p.2.2)
    ingressPieces cid port ps (bs.drop p.2.2) s

/-- The contexts that record or replay, with the address at which each maps a place. -/
def archMapped (s : State) (mode key : Nat) : List (Nat × Nat) :=
  (s.ctxs.filter (fun c => c.dbg.amode == mode && c.arch.on)).filterMap (fun c => (vaIn (leavesOf s c.cid) key).map (fun va => (c.cid, va)))

/-- A peer's write of one sector's bytes at its home (R200, R349, R351, R364). -/
def peerPiece (port : Nat) (poison : Bool) (s : State) (key : Nat) (bs : List Byte) : State :=
  if !(archMapped s 2 key).isEmpty then s
  else
    let s := s.put .none key bs
    let s := if poison && !s.poison.contains (secOf key) then { s with poison := s.poison ++ [secOf key] } else s
    (archMapped s 1 key).foldl (fun s x => noteIngress s x.1 port x.2 key bs) s

/-- A peer's write, sector by sector. -/
def peerWrite (port : Nat) (poison : Bool) : List (Nat × Nat) → List Byte → State → State
  | [], _, s => s
  | p :: ps, bs, s => peerWrite port poison ps (bs.drop p.2) (peerPiece port poison s p.1 (bs.take p.2))

/-- What a read of n bytes at a home completes with. -/
def readAnswer (s : State) (key n : Nat) : Answer :=
  if s.poisoned key n then .poisoned (readBytes s.mem key n) else .data (readBytes s.mem key n)

/-! ## Failures (R382) -/

/-- The report of a workgroup whose core has failed. -/
def coreReport : Report :=
  { source := 5, cause := cMEMERR.toNat, cmderr := 0, tpc := 0, taddr := 0, tinfo := 0, ring := 0, ch := 0, tid := 0, aux := 0, entry := [] }

/-- The workgroups on a core are terminated. -/
def failWgs (s : State) (core : Nat) : State :=
  ((wgsOn s core).map (·.id)).foldl
    (fun s w => match s.wg? w with
      | some x => if x.term || x.ended then s else terminate s x coreReport
      | none => s) s

/-- What becomes of a failed core's dirty bytes is not said: their homes hold free values. -/
def loseL1 (s : State) (core : Nat) : State :=
  (s.core core).l1.foldl
    (fun s x => (List.range 32).foldl
      (fun s i => if x.dirty.getLsbD i then { s.put .none (32 * x.sec + i) [Config.freeByte s.fresh] with fresh := s.fresh + 1 } else s) s) s

/-- The core's own stores are empty after a failure; its front-buffer records go to the die unit, what it has to apply stays. -/
def emptyCore (s : State) (core : Nat) : State :=
  let s := (s.ctxs.map (·.cid)).foldl (fun s cid => drainFront s core cid) (loseL1 s core)
  s.onCore core (fun c =>
    { Core.init c.num with states := c.states, todo := c.todo, restq := c.restq, owner := c.owner, samp := c.samp, spare := true })

/-! ## Collectives (R334, R367, R368) -/

/-- A collective of a context. -/
def collOf (s : State) (cid g k : Nat) : Option Coll := (s.ctx? cid).bind (fun c => c.colls.find? (fun x => x.g == g && x.k == k))

/-- Take a collective out of those in flight: its tokens are complete (R368). -/
def dropColl (s : State) (cid g k : Nat) : State :=
  s.onCtx cid (fun c => { c with colls := c.colls.filter (fun x => !(x.g == g && x.k == k)) })

/-- A collective ends unfinished (R368): its receive bytes are undefined, TYPE 10 is posted. -/
def collFail (s : State) (cid : Nat) (x : Coll) (n : Nat) : State :=
  let r := recvBytes x.cop n x.b
  let bs := (List.range r).map (fun i => Config.collByte (s.fresh + i))
  let s := devPut { s with fresh := s.fresh + r } cid x.recv bs
  postEvent (dropColl s cid x.g x.k) cid 10 x.g x.k

/-- The group entry of a collective, as its table has it now. -/
def groupAt (s : State) (cid g : Nat) : Option GroupEnt :=
  GroupEnt.ofBytes (readBytes s.mem (collTable s cid + 4096 + 32 * g) 32)

/-- Members of a collective's group. -/
def groupSize (s : State) (cid g : Nat) : Nat := ((groupAt s cid g).map (·.n)).getD 1

/-- Every collective with other members ends (R368, R384). -/
def failAll (s : State) : State :=
  (s.ctxs.flatMap (fun c => c.colls.map (fun x => (c.cid, x)))).foldl
    (fun s y => if 1 < groupSize s y.1 y.2.g then collFail s y.1 y.2 (groupSize s y.1 y.2.g) else s) s

end Sys2Proof.Machine
end

