-- ==== Sys2Proof/Machine/EvColl.lean ====
section
/-! DEFINITION. The collective engine: chunks and completion (R334, R366-R368). -/

namespace Sys2Proof.Machine

/-- Bytes of a chunk (R334, R368). -/
def collChunkBytes : Nat := 65536

/-- The rank and the place in its send buffer that give receive byte o of a rank, for what is not a reduction (R366). -/
def collSource (cop n b r o : Nat) : Nat × Nat :=
  if cop = 2 then (o / b % n, o % b) else if cop = 3 then (0, o) else (o / b % n, r * b + o % b)

/-- Combine two elements (R367). -/
def collCombine (ty : DType) (op : ROp) (x y : Nat) : Nat :=
  let float (f : Fmt) : Nat :=
    match op with
    | .min => (f.minmax false x y).1
    | .max => (f.minmax true x y).1
    | .sum | .and | .or | .xor => (f.out ((f.dec x).add (f.dec y))).1
  let int (w : Nat) (signed : Bool) : Nat :=
    let a := BitVec.ofNat w x
    let c := BitVec.ofNat w y
    (match op with
      | .sum => a + c
      | .and => a &&& c
      | .or => a ||| c
      | .xor => a ^^^ c
      | .min => if (if signed then a.slt c else a.ult c) then a else c
      | .max => if (if signed then a.slt c else a.ult c) then c else a).toNat
  match ty with
  | .f32 => float .f32 | .f16 => float .f16 | .bf16 => float .bf16 | .f64 => float .f64 | .e4m3 => float .e4m3 | .e5m2 => float .e5m2
  | .s32 => int 32 true | .n32 => int 32 false | .s64 => int 64 true | .n64 => int 64 false

/-- Reduce elements pairwise, in an order that is not architectural (R367): each time two of them, freely chosen. -/
def collReduce (ty : DType) (op : ROp) : Nat → Nat → List Nat → Nat
  | 0, _, l => l.headD 0
  | n + 1, seed, l =>
    match l with
    | [] => 0
    | [x] => x
    | l =>
      let i := Config.freeChoice seed % l.length
      let a := (l[i]?).getD 0
      let l := l.eraseIdx i
      let j := Config.freeChoice (seed + 1) % l.length
      let b := (l[j]?).getD 0
      collReduce ty op n (seed + 2) (collCombine ty op a b :: l.eraseIdx j)

/-- The bytes of a chunk: `parts` are what each rank gives for its positions. -/
def collResult (x : Coll) (n r o : Nat) (len : Nat) (parts : List (List Byte)) (seed : Nat) : List Byte :=
  if x.cop ≤ 1 then
    let w := dtSize x.ty
    (List.range (len / w)).flatMap (fun i =>
      bytesLE w (collReduce x.ty x.op n (seed + 2 * n * i) (parts.map (fun p => ofBytes ((p.drop (w * i)).take w)))))
  else (List.range len).map (fun i => ((parts[(collSource x.cop n x.b r (o + i)).1]?).bind (fun p => p[i]?)).getD 0)

/-- What this device's rank gives for the positions of a chunk: its own send bytes. -/
def ownPart (s : State) (cid : Nat) (x : Coll) (n r o len : Nat) : Option (List Byte) :=
  if x.cop = 0 then devGet s cid (x.send + o) len
  else if x.cop = 1 then devGet s cid (x.send + r * x.b + o) len
  else
    (List.range len).mapM (fun i =>
      let src := collSource x.cop n x.b r (o + i)
      if src.1 = r then (devGet s cid (x.send + src.2) 1).map (fun b => b.headD 0) else some 0)

/-- COLL_CHUNK (R334, R366, R367): the engine moves the chunk that every participant has agreed to start; `peers` is what the
ranks give for its positions, this device's own entry aside. -/
def execCollChunk (cid g k : Nat) (peers : List (List (BitVec 8))) (s : State) : Out :=
  match collOf s cid g k, groupAt s cid g with
  | some x, some e =>
    let total := recvBytes x.cop e.n x.b
    let o := collChunkBytes * x.next
    let len := min collChunkBytes (total - o)
    due (ctxState s cid == .running && o < total && peers.length == e.n && peers.all (fun p => p.length == len)) s
      (match ownPart s cid x e.n e.rank o len with
       | none => .next s
       | some own =>
         let parts := peers.set e.rank own
         let bs := collResult x e.n e.rank o len parts s.fresh
         let s := devPut { s with fresh := s.fresh + 2 * e.n * len } cid (x.recv + o) bs
         .next (s.onCtx cid (fun c =>
           { c with colls := updFirst (fun y => y.g == g && y.k == k) (fun y => { y with next := y.next + 1 }) c.colls })))
  | _, _ => .next s

/-- COLLECTIVE_COMPLETE (R368): all chunks are done; or the members disagree or one is unreachable, and it ends unfinished. -/
def execCollectiveComplete (cid g k : Nat) (ok : Bool) (s : State) : Out :=
  match collOf s cid g k with
  | none => .next s
  | some x =>
    let n := groupSize s cid g
    if ok then due (recvBytes x.cop n x.b ≤ collChunkBytes * x.next) s (.next (dropColl s cid g k))
    else due (1 < n) s (.next (collFail s cid x n))

end Sys2Proof.Machine
end

