-- ==== Sys2Proof/Machine/TBarOps.lean ====
section
/-! DEFINITION. Transaction barriers (R237-R242): the object, its test after every update, and where it lies. -/

namespace Sys2Proof.Machine

/-- A transaction barrier (R238). -/
structure TBar where
  phase : Nat
  pendarr : Nat
  reload : Nat
  pendsec : Int
  poison : Bool
deriving DecidableEq, Repr

/-- Read a barrier from its 128 bits. -/
def TBar.ofNat (w : Nat) : TBar :=
  { phase := bits w 0 4, pendarr := bits w 4 16, reload := bits w 20 16, pendsec := (BitVec.ofNat 32 (bits w 36 32)).toInt,
    poison := bits w 68 1 == 1 }

/-- The 128 bits of a barrier; reserved bits are zero. -/
def TBar.toNat (b : TBar) : Nat :=
  b.phase + b.pendarr * 2 ^ 4 + b.reload * 2 ^ 20 + (BitVec.ofInt 32 b.pendsec).toNat * 2 ^ 36 + (if b.poison then 2 ^ 68 else 0)

/-- The test after an update (R238). -/
def TBar.test (b : TBar) : TBar :=
  if !b.poison && b.pendarr == 0 && b.pendsec == 0 then
    { b with phase := (b.phase + 1) % 16, pendarr := b.reload, pendsec := 0 }
  else b

/-- Update the barrier at a place and test it (R238). -/
def updateBar (s : State) (who : TRef) (key : Nat) (f : TBar → TBar) : State :=
  s.putN who key 16 (f (TBar.ofNat (s.get key 16))).test.toNat

/-- Where a thread's barrier lies, and its scope: workgroup in the thread's own allotment, else cluster (R239, R240). A
global address is one that the instruction does not accept: REASON 7 (log entry 20). -/
def barPlace (s : State) (t : Thread) (addr : W64) (kind : Nat) : Except TrapInfo (Nat × Nat) :=
  let a := addr.toNat
  if a % 32 ≠ 0 then .error (cALIGN, addr, info306 0 kind)
  else if !(inLocal a || inCluster a) then
    .error (cPROT, addr, info306 (if a < 72057594037927936 then 7 else 1) kind)
  else
    match (resolve s (s.wgOf t) t.core t.cid a 16 kind).1 with
    | .ok key =>
      let own : Bool := match s.wgOf t with
        | some w => scratchKey w.core w.base ≤ key && key < scratchKey w.core (w.base + w.size)
        | none => false
      .ok (key, if own then 1 else 3)
    | .prot r => .error (cPROT, addr, info306 r kind)
    | .absent | .memerr | .hole _ => .error (cPROT, addr, info306 1 kind)

/-- A barrier instruction of one word: REGION in region mode, after a pending fence, an earlier acquire and the thread's own accesses
to the barrier (R130, R205), at its barrier's place (R239). -/
def onBar (g : Guard) (addr : W64) (kind : Nat) (s : State) (k : Nat → Nat → TBar → Out) : Out :=
  guarded g 1 s
    (outside s (settled s (orTrap s (barPlace s s.cur addr kind) (fun p =>
      if blocked s.cur p.1 16 true then waitAt s .drain else k p.1 p.2 (TBar.ofNat (s.get p.1 16))))))

/-- TBPOISON at a barrier (R240, R305). -/
def tbPoison (s : State) (addr : W64) : Out := trap s cTBPOISON addr 0

/-- The count register of a TBAR (R240): 63 is the constant 1. -/
def tbCount (t : Thread) : TbCnt → W64
  | none => 1
  | some n => t.r.getX (Fin.castLE (by decide) n)

end Sys2Proof.Machine
end

