-- ==== Sys2Proof/Machine/EvCopy.lean ====
section
/-! DEFINITION. The copy engine (R229-R245): taking entries from a ring, command errors, and the channels' work, one sector of
the destination at a time. -/

namespace Sys2Proof.Machine

/-! ## Commands -/

/-- A command entry (R232). -/
structure Cmd where
  opc : Nat
  ch : Fin 4
  conv : Nat
  rows : Nat
  rb : Nat
  src : Nat
  dst : Nat
  sstr : Nat
  dstr : Nat
deriving DecidableEq, Repr

/-- Read a command from its 32 bytes (R232). -/
def Cmd.ofBytes (bs : List Byte) : Cmd :=
  let d := dword bs 0
  let e := dword bs 24
  { opc := bits d 0 8, ch := Fin.ofNat 4 (bits d 8 2), conv := bits d 10 6, rows := bits d 16 16, rb := bits d 32 16, src := dword bs 8
    dst := dword bs 16, sstr := bits e 0 32, dstr := bits e 32 32 }

/-- R, the bytes of a source row (R233). -/
def Cmd.r (c : Cmd) : Nat := 16 * c.rb
/-- z, the canonical element size (R234). -/
def Cmd.z (c : Cmd) : Nat := 2 ^ bits c.conv 0 2
/-- Is there a transpose (R234). -/
def Cmd.trans (c : Cmd) : Bool := bits c.conv 2 1 == 1
/-- The numeric conversion (R234). -/
def Cmd.num (c : Cmd) : Nat := bits c.conv 3 3
/-- Is it CONVERT or CONVERTOUT. -/
def Cmd.isConv (c : Cmd) : Bool := c.opc == 3 || c.opc == 4
/-- s, the source element size (R234). -/
def Cmd.s (c : Cmd) : Nat := if c.opc = 3 ∧ c.num ≠ 0 then 4 else c.z
/-- t, the destination element size (R234). -/
def Cmd.t (c : Cmd) : Nat := if c.opc = 4 ∧ c.num ≠ 0 then 4 else c.z
/-- Destination rows (R233, R234). -/
def Cmd.drows (c : Cmd) : Nat := if c.isConv && c.trans then c.r / c.s else c.rows
/-- Destination row bytes (R233, R234). -/
def Cmd.drb (c : Cmd) : Nat := if c.isConv then (if c.trans then c.rows * c.t else c.r / c.s * c.t) else c.r
/-- Destination bytes of the entry. -/
def Cmd.total (c : Cmd) : Nat := c.drows * c.drb
/-- The address of byte p of the destination's sequence. -/
def Cmd.dstAt (c : Cmd) (p : Nat) : Nat := (c.dst + p / c.drb * c.dstr + p % c.drb) % 2 ^ 64

/-- Command errors that the entry alone shows, least code first (R243); a FILL's SRC is a pattern (log entry 29). -/
def Cmd.error (c : Cmd) : Option Nat :=
  let zBad : Bool := 5 ≤ c.num || ((c.num == 1 || c.num == 2) && c.z != 2) || ((c.num == 3 || c.num == 4) && c.z != 1)
  if c.opc = 0 ∨ 6 ≤ c.opc then some 1
  else if c.rb = 0 ∨ c.rows = 0 then some 2
  else if (if c.isConv then zBad || c.r % c.s != 0 || c.drb % 16 != 0 else c.conv != 0) then some 3
  else if c.dst % 16 ≠ 0 ∨ c.sstr % 16 ≠ 0 ∨ c.dstr % 16 ≠ 0 ∨ (c.opc ≠ 5 ∧ c.src % 16 ≠ 0) ∨ ((c.opc = 2 ∨ c.opc = 5) ∧ c.sstr ≠ 0)
      ∨ (c.opc = 5 ∧ 2 ^ 32 ≤ c.src) then some 4
  else if 1 < c.drows ∧ c.dstr < c.drb then some 5
  else none

/-- The row addresses of a GATHER (R233). -/
def rowAddrs (bs : List Byte) (n : Nat) : List Nat := (List.range n).map (fun i => dword bs (8 * i))

/-- The fault that an engine's access of a KIND answered, if any (R306). -/
def rdErr (kind : Nat) (r : Rd) : Option CopyErr :=
  match r with
  | .ok _ => none
  | .bad cause va info => some { cause, cmderr := 0, va, info }
  | .absent va => some { cause := cPAGE, cmderr := 0, va := BitVec.ofNat 64 va, info := info306 0 kind }
  | .hole pa => some { cause := cMEMERR, cmderr := 0, va := BitVec.ofNat 64 pa, info := 0 }

/-! ## Taking an entry (R231) -/

/-- The publisher of ring entry i: the first store to TAIL that covers it (R231, R244). -/
def publisher (w : Wg) (i : Nat) : Nat :=
  ((w.pubs.find? (fun p => (p.2 + 4294967296 - (i + 1) % 4294967296) % 4294967296 < 2147483648)).map (·.1)).getD 0

/-- The errors an entry shows when it is taken, and the faults of a GATHER's table (R243, R244). -/
def takeErr (s : State) (w : Wg) (raw : List Byte) : Option CopyErr × State :=
  let c := Cmd.ofBytes raw
  match c.error with
  | some n => (some (cmdErr n), s)
  | none =>
    let bar : Bool := (copyBar s w raw).isNone
    if c.opc = 2 then
      match engineRead s (some w) w.core w.cid [] c.src (8 * c.rows) 1 with
      | (.ok bs, s) =>
        (if (rowAddrs bs c.rows).any (fun a => a % 16 != 0) then some (cmdErr 4) else if bar then some (cmdErr 6) else none, s)
      | (r, s) => (if bar then some (cmdErr 6) else rdErr 1 r, s)
    else (if bar then some (cmdErr 6) else none, s)

/-- HEAD advances, in the header too, which holds it modulo 2^32 (R230, R231). -/
def setHead (s : State) (w : Wg) (ring head : Nat) : State :=
  (s.putN .none (ring + 4) 4 head).onWg w.id (fun x =>
    { x with head, pubs := x.pubs.filter (fun p => (p.2 + 4294967296 - (head + 1) % 4294967296) % 4294967296 < 2147483648) })

/-- COPY_TAKE_ENTRY (R231, R243): a store to TAIL has woken the engine, which reads TAIL with an acquire and takes the next
entry; while the gang is being saved only one that an incomplete token covers (R327). -/
def execCopyTakeEntry (w : Nat) (s : State) : Out :=
  match s.wg? w with
  | none => .next s
  | some x =>
    match s.lrecOf x with
    | none => .next s
    | some l =>
      let ring := scratchKey x.core (x.base + l.ringOff)
      let tail := if x.woken then s.get ring 4 else x.tail
      let n := (tail + 4294967296 - x.head % 4294967296) % 4294967296
      due (l.ringEnt != 0 && !x.copyStop && (x.woken || n != 0) && engineGoes s x (tokenOn s w (fun k => k.kinds.getLsbD 4 && x.head < k.ring))) s
        (let s := (acquire s x.core x.cid 2).onWg w (fun y => { y with tail, woken := false })
         let raw := readBytes s.mem (ring + 64 + 32 * (x.head % 4294967296 % l.ringEnt)) 32
         let c := Cmd.ofBytes raw
         let pub := publisher x x.head
         if l.ringEnt < n then .next (copyFault s x c.ch x.head pub raw (cmdErr 7))
         else if n = 0 then .next s
         else
           match takeErr s x raw with
           | (some e, s) => .next (copyFault s x c.ch x.head pub raw e)
           | (none, s) =>
             let s := setHead s x ring (x.head + 1)
             let e : CopyEnt := { idx := x.head, raw, pub, done := 0, was := [], coin := s.fresh }
             let s := { s with fresh := s.fresh + 8 * c.total }
             .next (s.onWg w (fun y => { y with chans := y.chans.set c.ch.val (y.chans[c.ch] ++ [e]) c.ch.isLt })))

/-! ## The work of a channel -/

/-- The floating format of a numeric conversion (R234). -/
def convFmt (n : Nat) : Fmt := if n = 1 then Fmt.bf16 else if n = 2 then Fmt.f16 else if n = 3 then Fmt.e4m3 else Fmt.e5m2

/-- Convert one element (R234): narrowing by Round, widening exactly. -/
def Cmd.convert (c : Cmd) (v : Nat) : Nat :=
  if c.num = 0 then v
  else if c.opc = 3 then ((convFmt c.num).round (Fmt.f32.dec v)).1
  else (Fmt.f32.round ((convFmt c.num).dec v)).1

/-- One address for a byte of the workgroup's own allotment, which the cluster window shows too (R155). -/
def ownAddr (w : Wg) (a : Nat) : Nat :=
  if inCluster a && (a - clusterBase) / 16777216 == w.member then localBase + (a - clusterBase) % 16777216 else a

/-- The number of the destination byte that an entry writes at an address. -/
def Cmd.posOf (c : Cmd) (w : Wg) (a : Nat) : Option Nat :=
  let o := (ownAddr w a + 2 ^ 64 - ownAddr w c.dst % 2 ^ 64) % 2 ^ 64
  if c.drows ≤ 1 then (if o < c.drb then some o else none)
  else if o / c.dstr < c.drows ∧ o % c.dstr < c.drb then some (o / c.dstr * c.drb + o % c.dstr) else none

/-- A byte that an entry reads (R233): where its destination overlaps its source, old or new by a free choice; the new byte is the one it
writes there, `ahead` of its turn if need be. `b` is what memory holds. -/
def overlapByte (w : Wg) (c : Cmd) (e : CopyEnt) (ahead : Nat → Option (List Byte)) (i a : Nat) (b : Byte) : Byte :=
  match c.posOf w a with
  | none => b
  | some p =>
    let new : Bool := Config.freeChoice (e.coin + i) % 2 == 1
    if p < e.done then (if new then b else ((e.was.find? (fun x => x.1 == p)).map (·.2)).getD b)
    else if new then ((ahead (p / 16 * 16)).bind (fun l => l[p % 16]?)).getD b
    else b

/-- Read n source bytes, the i-th byte of the entry's reads on. -/
def readSrc (w : Wg) (c : Cmd) (e : CopyEnt) (ahead : State → Nat → Option (List Byte)) (i : Nat) (s : State) (va n : Nat) : Rd × State :=
  match readPiece s (some w) w.core w.cid [] 1 (va % 2 ^ 64) n with
  | (.ok bs, s') => (.ok (bs.zipIdx.map (fun x => overlapByte w c e (ahead s) (i + x.2) ((va + x.2) % 2 ^ 64) x.1)), s')
  | (r, s') => (r, s')

/-- The elements of a destination piece of 16 bytes at byte `off` of row `dr`, read from `i` on (R234). -/
def convElems (c : Cmd) (read : Nat → State → Nat → Nat → Rd × State) (dr off : Nat) : Nat → Nat → List Byte → State → Rd × State
  | 0, _, acc, s => (.ok acc, s)
  | n + 1, i, acc, s =>
    let k := off / c.t + i
    let p := if c.trans then (k, dr) else (dr, k)
    match read (i * c.s) s ((c.src + p.1 * c.sstr + p.2 * c.s) % 2 ^ 64) c.s with
    | (.ok bs, s) => convElems c read dr off n (i + 1) (acc ++ bytesLE c.t (c.convert (ofBytes bs))) s
    | (r, s) => (r, s)

/-- The 16 bytes that go to byte p of the destination's sequence (R233, R234), with a way to read source bytes. -/
def pieceFrom (c : Cmd) (read : Nat → State → Nat → Nat → Rd × State) (plain : State → Nat → Nat → Rd × State) (p : Nat) (s : State) :
    Rd × State :=
  let row := p / c.drb
  let off := p % c.drb
  if c.opc = 1 then read 0 s (c.src + row * c.sstr + off) 16
  else if c.opc = 2 then
    (match plain s (c.src + 8 * row) 8 with
      | (.ok bs, s) => read 0 s (ofBytes bs + off) 16
      | (r, s) => (r, s))
  else if c.opc = 5 then (.ok ((List.range 16).map (fun i => BitVec.ofNat 8 (c.src / 256 ^ (i % 4)))), s)
  else convElems c read row off (16 / c.t) 0 [] s

/-- The bytes of a piece, looking ahead through at most n pieces that are not written yet (R233). -/
def pieceAhead (w : Wg) (c : Cmd) (e : CopyEnt) : Nat → Nat → State → Rd × State
  | 0, p, s => pieceFrom c (fun i s va n => readSrc w c e (fun _ _ => none) (8 * p + i) s va n)
      (fun s va n => readPiece s (some w) w.core w.cid [] 1 (va % 2 ^ 64) n) p s
  | n + 1, p, s =>
    pieceFrom c (fun i s va k => readSrc w c e (fun s q => match (pieceAhead w c e n q s).1 with | .ok bs => some bs | _ => none) (8 * p + i) s va k)
      (fun s va n => readPiece s (some w) w.core w.cid [] 1 (va % 2 ^ 64) n) p s

/-- The bytes that an entry writes at p of its destination's sequence. -/
def pieceBytes (s : State) (w : Wg) (c : Cmd) (e : CopyEnt) (p : Nat) : Rd × State := pieceAhead w c e (c.total / 16) p s

/-- May an entry's destination overlap its source? A GATHER's rows may lie anywhere. -/
def Cmd.mayOverlap (c : Cmd) (w : Wg) : Bool :=
  let a := ownAddr w c.src
  let b := ownAddr w c.dst
  c.opc == 2 || (c.opc != 5 && a < b + ((c.drows - 1) * c.dstr + c.drb) && b < a + ((c.rows - 1) * c.sstr + c.r))

/-- The oldest entry of a channel. -/
def headEnt (s : State) (w : Nat) (ch : Fin 4) (e : CopyEnt) : CopyEnt := (((s.wg? w).bind (fun x => x.chans[ch].head?)).getD e)

/-- Change the oldest entry of a channel. -/
def onHeadEnt (s : State) (w : Nat) (ch : Fin 4) (f : CopyEnt → CopyEnt) : State :=
  s.onWg w (fun x => { x with chans := x.chans.set ch.val (match x.chans[ch] with | [] => [] | e :: es => f e :: es) ch.isLt })

/-- Keep what the destination bytes from p on hold, if the entry may read them (R233). -/
def keepOld (s : State) (w : Wg) (c : Cmd) (p : Nat) : State :=
  if c.mayOverlap w then
    (match readPiece s (some w) w.core w.cid [] 2 (c.dstAt p) 16 with
      | (.ok bs, s) => onHeadEnt s w.id c.ch (fun e => { e with was := bs.zipIdx.map (fun b => (p + b.2, b.1)) ++ e.was })
      | (_, s) => s)
  else s

/-- What moving a piece comes to. -/
inductive Moved
  | ok (s : State)
  | err (e : CopyErr) (s : State)

/-- Move the 16 bytes at p of the destination's sequence; CHWP counts them (R235, R236). -/
def movePiece (s : State) (w : Wg) (c : Cmd) (e : CopyEnt) (p : Nat) : Moved :=
  match pieceBytes s w c e p with
  | (.ok bs, s) =>
    (match writePiece (keepOld s w c p) (some w) w.core w.cid (c.dstAt p) bs with
      | (.ok _, s) =>
        .ok (onHeadEnt (s.onWg w.id (fun x => { x with chwp := x.chwp.set c.ch.val (x.chwp[c.ch] + 16) c.ch.isLt })) w.id c.ch
          (fun e => { e with done := p + 16 }))
      | (r, s) => .err ((rdErr 2 r).getD (cmdErr 0)) s)
  | (r, s) => .err ((rdErr 1 r).getD (cmdErr 0)) s

/-- One sector is counted at the entry's barrier (R237, R238). -/
def countSector (s : State) (w : Wg) (raw : List Byte) : State :=
  match copyBar s w raw with
  | some (_, key) => updateBar s .none key (fun b => { b with pendsec := b.pendsec - 1 })
  | none => s

/-- An entry that has written everything leaves its channel. -/
def finishCopy (s : State) (w : Nat) (ch : Fin 4) : State :=
  s.onWg w (fun x => { x with chans := x.chans.set ch.val (x.chans[ch].drop 1) ch.isLt })

/-- Move up to 32 bytes of the oldest entry of a channel (R235-R237). -/
def moveSector (s : State) (w : Wg) (ch : Fin 4) (e : CopyEnt) : State :=
  let c := Cmd.ofBytes e.raw
  let fail (s : State) (err : CopyErr) : State := copyFault s ((s.wg? w.id).getD w) ch e.idx e.pub e.raw err
  let done (s : State) (upto : Nat) : State :=
    let s := countSector s w e.raw
    if c.total ≤ upto then finishCopy s w.id ch else s
  match movePiece s w c e e.done with
  | .err x s => fail s x
  | .ok s =>
    if c.total ≤ e.done + 16 then done s (e.done + 16)
    else
      match movePiece s w c (headEnt s w.id ch e) (e.done + 16) with
      | .err x s => fail s x
      | .ok s => done s (e.done + 32)

/-- The oldest entry of a channel runs, if it has the opcode (R235). -/
def runChannel (opc w : Nat) (ch : Fin 4) (s : State) : Out :=
  match s.wg? w with
  | none => .next s
  | some x =>
    match x.chans[ch] with
    | [] => .next s
    | e :: _ => due ((Cmd.ofBytes e.raw).opc == opc && !x.copyStop) s (.next (moveSector s x ch e))

/-- COPY (R233, R235-R237). -/
def execCopy (w : Nat) (ch : Fin 4) (s : State) : Out := runChannel 1 w ch s

/-- GATHER (R233, R235-R237). -/
def execGather (w : Nat) (ch : Fin 4) (s : State) : Out := runChannel 2 w ch s

/-- FILL (R233, R235-R237). -/
def execFill (w : Nat) (ch : Fin 4) (s : State) : Out := runChannel 5 w ch s

/-- CONVERT (R234-R237). -/
def execConvert (w : Nat) (ch : Fin 4) (s : State) : Out := runChannel 3 w ch s

/-- CONVERTOUT (R234-R237). -/
def execConvertout (w : Nat) (ch : Fin 4) (s : State) : Out := runChannel 4 w ch s

end Sys2Proof.Machine
end

