-- ==== Sys2Proof/Machine/Replica.lean ====
section
/-! DEFINITION. The RSUR instructions (R261-R271). -/

namespace Sys2Proof.Machine

/-- Threads of the sheaf that still issue with the selected one and whose guard holds (R266). -/
def sheafNext (s : State) (g : Guard) : List Thread :=
  s.sheaf.filterMap (fun r => (s.thread? r).bind (fun t => if t.r.holds g then some t else none))

/-- Their number. -/
def sheafRest (s : State) (g : Guard) : Nat := (sheafNext s g).length

/-- Has a thread of this sheaf already been made to wait for all of it (R266)? -/
def sheafHeld (s : State) : Bool :=
  s.threads.any (fun t => t.core == s.cur.core && t.picked && t.cid == s.cur.cid && t.r.pc == s.cur.r.pc && !t.exited && t.wait == .fence)

/-- May the whole sheaf issue its calls: no thread of it has a pending fence, and the restoration queue has an entry free for each
(R266)? -/
def sheafGoes (s : State) (g : Guard) (used : Nat) : Bool :=
  !sheafHeld s && (s.cur :: sheafNext s g).all (fun t => t.fence.isNone) && used + 1 + sheafRest s g ≤ Config.restEntries

/-- Restoration entries that a core holds or may yet make. -/
def restUse (c : Core) : Nat := c.restq.length + (c.evals.filter (fun e => !e.sonly)).length

/-- The queue entry of a call (R267). -/
def restEntry (s : State) (kind : RestKind) (t : Thread) (w region : Nat) (d : RDesc) (args : List W32) (resv : VReg) : RestEntry :=
  { uid := s.uid, upto := t.nmop, kind, caller := t.ref, w, cid := t.cid, region, args, xs := (List.range 8).map (fun i => t.r.getX (Fin.ofNat 64 i))
    resv := resv.val, resc := d.resc, call := s.uid, exactpc := BitVec.ofNat 64 d.exactpc, metric := d.metric
    qb := BitVec.ofNat 32 d.qb, floor := BitVec.ofNat 32 d.floor }

/-- A call that issues (R266): the result registers become pending; an exact entry, or an evaluation. -/
def callGo (s : State) (w : Wg) (mode region : Nat) (res : Resident) (argv resv : VReg) : State :=
  let s := sideOn s
  let t := s.cur
  let d := RDesc.ofBytes res.desc
  let args := t.r.range argv.val d.argc
  let call := s.uid
  let exact := mode = 1 ∨ d.kind = 0 ∨ (mode = 0 ∧ appliedState s t.core t.cid region = 2)
  let e := restEntry s .exact t w.id region d args resv
  let c := countOf s t.core t.cid region
  let s := s.onCore t.core (fun k => { k with store := res :: k.store.erase res })
  let s :=
    if exact then (bump s t.cid region 4).onCore t.core (fun k => { k with restq := k.restq ++ [e] })
    else
      let s := if mode = 0 then setCount s t.core t.cid region (c + 1) else s
      s.onCore t.core (fun k =>
        { k with evals := k.evals ++ [{ uid := call, upto := t.nmop, sonly := mode == 2, c := c.toNat, caller := t.ref, w := w.id, cid := t.cid, region,
                                        desc := res.desc, image := res.image, args, xs := e.xs, resv := resv.val, resc := d.resc, call }] })
  let s := { s with uid := s.uid + 1 }
  (s.onCur (fun t => { t with rpend := t.rpend ++ [{ call, resv := resv.val, resc := d.resc, failed := none }] })).adv 2

/-- RCALL with its mode (R266): ILLEGAL, then PAGE and MEMERR of the load; then the sheaf issues as one or waits as one. The caller's
earlier accesses come before the restoration thread's, which starts after them (R267). -/
def rcall (mode : Nat) (g : Guard) (region : Fin 1024) (argv resv : VReg) (argc resc : Fin 8) (s : State) : Out :=
  guarded g 2 s
    (outside s (settled s
      (match s.wgOf s.cur with
       | none => illegal8 s
       | some w =>
         let rs : Nat := ((s.lrecOf w).map (·.rslots)).getD 0
         let wrong (d : RDesc) : Bool := d.argc != argc.val + 1 || d.resc != resc.val + 1 || (mode == 2 && d.kind == 0)
         if mode ≠ 2 ∧ rs = 0 then illegal8 s
         else
           (match residentOf s s.cur.core s.cur.cid region.val with
            | none => withLoad s region.val wrong (fun _ _ _ s => waitAt s (.region region.val))
            | some res =>
              if wrong (RDesc.ofBytes res.desc) then illegal8 s
              else if !sheafGoes s g (restUse (s.core s.cur.core)) then waitAt s .fence
              else orderPoint s s.cur.core (fun s => .next (callGo s w mode region.val res argv resv))))))

/-- The restoration thread's results reach its caller (R269); a merge into a thread that has ended is discarded. -/
def merge (s : State) (e : RestEntry) (ye : List W32) : State :=
  match s.thread? e.caller with
  | none => s
  | some c =>
    if c.exited || !c.rpend.any (fun p => p.call == e.call) then s
    else
      let s := match e.kind with
        | .sample ys accepted =>
          let err := metricErr e.metric e.floor.toNat ys ye
          let v := Fmt.f64.dec err
          let s := if v.isNan then s else onAgg s e.cid e.region (fun a =>
            let sum := (Fmt.f64.round ((Fmt.f64.dec a.c[5].toNat).add v).1).1
            let top := if (Fmt.f64.dec a.c[6].toNat).lt v then err else a.c[6].toNat
            { a with c := (a.c.set 5 (BitVec.ofNat 64 sum)).set 6 (BitVec.ofNat 64 top) })
          if accepted && (v.isNan || (f32v e.qb.toNat).lt v) then { s with viol := s.viol ++ [(c.core, e.cid, e.region)] } else s
        | .exact | .fallback => s
      s.onThread e.caller (fun c =>
        { c.late (fun r => r.setRange e.resv ye) with rpend := c.rpend.filter (fun p => p.call != e.call) })

/-- The region number in an x register: bits [63:10] must be zero (R271). -/
def regionArg (x : W64) : Option Nat := if x.toNat < 1024 then some x.toNat else none

/-- A violation reaches the aggregator; the one that makes VIOLATIONS equal to THRESH disables the region (R272). -/
def countViolation (s : State) (cid region : Nat) : State :=
  let s := bump s cid region 3
  let thresh : Nat := match descVa s cid region with | some va => devNum s cid (va + 40) 4 | none => 0
  let count : Nat := ((aggOf s cid region).map (fun a => a.c[(3 : Fin 8)].toNat)).getD 0
  if thresh ≠ 0 ∧ count = thresh then disableRegion s cid region else s

/-- A core's counts of a region reach the aggregator (R271). -/
def sendCounts (s : State) (core cid region : Nat) : State :=
  let mine (v : Nat × Nat × Nat) : Bool := v.1 == core && v.2.1 == cid && v.2.2 == region
  (s.viol.filter mine).foldl (fun s v => countViolation s v.2.1 v.2.2) { s with viol := s.viol.filter (fun v => !mine v) }

/-- Bytes of the pinned images of a core. -/
def pinned (c : Core) : Nat := ((c.store.filter (·.pin)).map (fun r => r.image.length)).sum

/-- RCTL (R271): the operation is x[XB]; EVICT waits for the evaluations that use the image. -/
def rctl (g : Guard) (xa xb : XReg) (s : State) : Out :=
  guarded g 1 s
    (outside s
      (match regionArg (s.cur.r.getX xa) with
       | none => illegal8 s
       | some n =>
         let core := s.cur.core
         let cid := s.cur.cid
         let op := (s.cur.r.getX xb).toNat
         let mine (r : Resident) : Bool := r.cid == cid && r.region == n
         if op = 0 then
           if (s.core core).store.any (fun r => mine r && inUse (s.core core) r) then waitAt s .drain
           else .next (((sideOn s).onCore core (fun c => { c with store := c.store.filter (fun r => !mine r) })).adv 1)
         else if op = 1 then
           (match residentOf s core cid n with
            | some r =>
              if !r.pin && Config.pinBytes < pinned (s.core core) + r.image.length then illegal8 s
              else .next (((sideOn s).onCore core (fun c => { c with store := updFirst mine (fun r => { r with pin := true }) c.store })).adv 1)
            | none =>
              withLoad s n (fun _ => false) (fun d desc im s =>
                if Config.pinBytes < pinned (s.core core) + im.length then illegal8 s
                else if !storeRoom (s.core core) cid n im.length then waitAt s .drain
                else .next ((makeResident (sideOn s) core cid n d desc im true).adv 1)))
         else if op = 2 then
           .next (((sideOn s).onCore core (fun c => { c with store := updFirst mine (fun r => { r with pin := false }) c.store })).adv 1)
         else if op = 3 then .next ((writeBlock (sendCounts (sideOn s) core cid n) cid n).adv 1)
         else illegal8 s))

/-- RCTR's value, with what reading the descriptor and the block comes to; this core's counts go to the aggregator first (R271). -/
def rctr (s : State) (n idx : Nat) (k : W64 → State → Out) : Out :=
  let s := sendCounts s s.cur.core s.cur.cid n
  let t := s.cur
  match descVa s t.cid n with
  | none => illegal8 s
  | some va =>
    match engineRead s (s.wgOf t) t.core t.cid t.mops va 64 6 with
    | (.ok desc, s) =>
      let d := RDesc.ofBytes desc
      if !(d.state == 1 || d.state == 2) then illegal8 s
      else
        (match aggOf s t.cid n with
          | some a => k (a.c[(Fin.ofNat 8 idx)]) s
          | none =>
            (match engineRead s (s.wgOf t) t.core t.cid t.mops d.ctrs 64 6 with
              | (.ok _, s) =>
                let s := takeUp s t.cid n d.ctrs d.state
                k (((aggOf s t.cid n).map (fun a => a.c[(Fin.ofNat 8 idx)])).getD 0) s
              | (r, s) => loadTrap s (.rd r)))
    | (r, s) => loadTrap s (.rd r)

/-- RINFO's value (R271). -/
def rinfoValue (s : State) (t : Thread) (n : Nat) : W64 :=
  let c := s.core t.core
  let res := residentOf s t.core t.cid n
  let running := (s.all.filter (fun x => x.core == t.core && (x.rest.map (fun e => e.cid == t.cid && e.region == n)).getD false)).length
  let queued := (c.restq.filter (fun e => e.cid == t.cid && e.region == n)).length
  BitVec.ofNat 64
    ((countOf s t.core t.cid n).toNat * 2 ^ 32 + (queued + running) % 65536 * 2 ^ 16
      + (if (res.map (·.pin)).getD false then 8 else 0) + (if res.isSome then 4 else 0) + appliedState s t.core t.cid n % 4)

/-- RCALL (R266). -/
def execRcall (g : Guard) (region : Fin 1024) (argv resv : VReg) (argc resc : Fin 8) (s : State) : Out :=
  rcall 0 g region argv resv argc resc s

/-- RCALL.exact (R266). -/
def execRcallExact (g : Guard) (region : Fin 1024) (argv resv : VReg) (argc resc : Fin 8) (s : State) : Out :=
  rcall 1 g region argv resv argc resc s

/-- RCALL.sonly (R266). -/
def execRcallSonly (g : Guard) (region : Fin 1024) (argv resv : VReg) (argc resc : Fin 8) (s : State) : Out :=
  rcall 2 g region argv resv argc resc s

/-- RRET ends the restoration thread and merges (R269). -/
def execRret (g : Guard) (s : State) : Out :=
  guarded g 1 s
    (match s.cur.rest with
     | none => illegal8 s
     | some e => drained s (.next (merge { s with cur := Thread.idle } e (s.cur.r.range 0 e.resc))))

/-- RLOAD takes the load's traps and does not wait (R262, R271). -/
def execRload (g : Guard) (xb : XReg) (s : State) : Out :=
  guarded g 1 s
    (outside s
      (match regionArg (s.cur.r.getX xb) with
       | none => illegal8 s
       | some n =>
         (match residentOf s s.cur.core s.cur.cid n with
          | some _ => .next ((sideOn s).adv 1)
          | none =>
            withLoad s n (fun _ => false) (fun d desc im s =>
              .next ((if storeRoom (s.core s.cur.core) s.cur.cid n im.length then
                makeResident (sideOn s) s.cur.core s.cur.cid n d desc im false else sideOn s).adv 1)))))

/-- RCTL EVICT: x[XB] is 0 (R271). -/
def execRctlEvict (g : Guard) (xa xb : XReg) (s : State) : Out :=
  rctl g xa xb s

/-- RCTL PIN: x[XB] is 1 (R271). -/
def execRctlPin (g : Guard) (xa xb : XReg) (s : State) : Out :=
  rctl g xa xb s

/-- RCTL UNPIN: x[XB] is 2 (R271). -/
def execRctlUnpin (g : Guard) (xa xb : XReg) (s : State) : Out :=
  rctl g xa xb s

/-- RCTL FLUSH: x[XB] is 3 (R271). -/
def execRctlFlush (g : Guard) (xa xb : XReg) (s : State) : Out :=
  rctl g xa xb s

/-- RCTR (R271). -/
def execRctr (g : Guard) (xa xb : XReg) (s : State) : Out :=
  guarded g 1 s
    (let x := (s.cur.r.getX xb).toNat
     if bits x 10 6 ≠ 0 ∨ bits x 19 45 ≠ 0 then illegal8 s
     else
       acquired s
         (match s.cur.rej with
          | some a => trap s cPAGE a (info306 0 6)
          | none => rctr s (bits x 0 10) (bits x 16 3) (fun v s => .next (s.onRegs (fun r => (r.setX xa v).adv 1)))))

/-- RINFO (R271). -/
def execRinfo (g : Guard) (xa xb : XReg) (s : State) : Out :=
  guarded g 1 s
    (match regionArg (s.cur.r.getX xb) with
     | none => illegal8 s
     | some n => .next (s.onRegs (fun r => (r.setX xa (rinfoValue s s.cur n)).adv 1)))

end Sys2Proof.Machine
end

