-- ==== Sys2Proof/Machine/Ready.lean ====
section
/-! DEFINITION. Which threads are ready (R158) and what a pick selects (R159, R161). -/

namespace Sys2Proof.Machine

/-- May a waiting thread issue its instruction again: the wait's condition holds. A wait that another agent's completion ends
is never met here. -/
def waitMet (s : State) (t : Thread) : Bool :=
  match t.wait with
  | .none => true
  | .page rid => !((s.ctx? t.cid).map (fun c => c.preqs.any (fun r => r.rid == rid))).getD false
  | .tbwait addr ph =>
    (match barPlace s t addr 1 with
      | .ok p => let b := TBar.ofNat (s.get p.1 16); b.poison || b.phase != ph
      | .error _ => true)
  | .fwait tok => fwaitTest s t tok != .pending
  | .waitc loads stores copies tiles => waitcMet s t loads stores copies tiles
  | .ftok => t.toks.length < 8
  | .region n => (residentOf s t.core t.cid n).isSome && restUse (s.core t.core) < Config.restEntries
  | .coll => ((s.ctx? t.cid).map (fun c => decide (c.colls.length < 64))).getD true
  | .spill r => !((s.wgOf t).map (fun w => isSpilled w r)).getD false
  | .fence => t.fence.isNone
  | .drain => t.mops.isEmpty
  | .bar _ _ | .sign _ _ | .wlpop _ _ _ _ | .wlpush _ _ _ _ | .mstat _ | .hold _ _ | .gate _ _ | .qlaunch _ | .qsig => false

/-- Waits that end by issuing the instruction again; the instruction has not issued yet. -/
def polled : Wait → Bool
  | .page _ | .tbwait _ _ | .fwait _ | .waitc _ _ _ _ | .ftok | .region _ | .coll | .spill _ | .gate _ _ | .fence | .drain => true
  | .none | .bar _ _ | .sign _ _ | .wlpop _ _ _ _ | .wlpush _ _ _ _ | .mstat _ | .hold _ _ | .qlaunch _ | .qsig => false

/-- Have as many workgroups of a WGID ended on a core as the closing header lists: what runs there now is not one of them (R357). -/
def endedAll (c : Ctx) (h : Checkpoint) (core wgid : Nat) : Bool :=
  let n (l : List (Nat × Nat × W32)) : Nat := (l.filter (fun e => e.1 == core && e.2.1 == wgid)).length
  n h.ended ≤ n c.arch.ended

/-- A replayed thread that has issued the count of instructions which the closing header records for it stops there (R357). -/
def replayHeld (c : Ctx) (w : Wg) (t : Thread) : Bool :=
  c.dbg.amode == 2 && c.arch.on && (c.arch.want.head?.map (fun h => endedAll c h t.core w.wgid && h.gangs.any (fun v => v.wgs.any (fun x =>
    x.wgid == w.wgid && v.threads.any (fun y =>
      refWg y.ref == some x.id && y.tid == t.tid && y.core == t.core && y.slot == t.slot && y.issues ≤ t.issues))))).getD false

/-- The gang of a thread issues: it is not being saved, its context runs (R317, R326, R333), no checkpoint settles it (R347), and a
replay has not held it (R357). -/
def gangIssues (s : State) (t : Thread) : Bool :=
  match s.wgOf t with
  | none => true
  | some w =>
    ((s.gang? w.gang).map (fun g => g.way != .save && g.ready)).getD false
      && ((s.ctx? t.cid).map (fun c => c.st == .running && !c.arch.settling && !replayHeld c w t)).getD false

/-- Has a thread a trap to take first. -/
def trapDue (s : State) (t : Thread) : Bool := s.trapq.any (fun x => x.ref == t.ref)

/-- The registers that an outstanding access writes (R131). -/
def Mop.regs (m : Mop) : List RegName :=
  (match m.dst with
    | .none => []
    | .z32 d | .s32 d => dst8R d
    | .pair v => rangeR v 2
    | .quad v => rangeR v 4
    | .x n => [.x n]) ++ (if m.lrw then [.lr] else [])

/-- A register that an access or a surrogate call has pending (R131, R266). -/
def pendingBy (t : Thread) (r : RegName) : Bool :=
  t.mops.any (fun m => m.regs.contains r)
    || t.rpend.any (fun p =>
      p.failed.isNone && (match r with | .v n => p.resv ≤ n.val && n.val < p.resv + p.resc | .x _ | .o _ | .lr | .p _ => false))

/-- Does a row read its destination as a third source (R78, R82, R99)? -/
def readsDst : Row → Bool
  | .early (.imad _ _ _ _) | .early (.isad _ _ _ _) | .early (.ffma _ _ _ _) | .early (.hfma2 _ _ _ _) | .early (.bfma2 _ _ _ _)
  | .early (.dfma _ _ _ _) => true
  | _ => false

/-- The registers a row reads: those it names, but for one naming of a destination that it has a pipe write and does not read; the
latch, last in `rowDst` of a lane row, is not named. -/
def rowReads (row : Row) : List RegName :=
  let d := rowDst row
  if readsDst row then rowRegs row
  else (if d.getLast? = some .lr then d.dropLast else d).foldl (fun l r => l.erase r) (rowRegs row)

/-- Is an operand of the row not ready (R19, R131): a pending register read or written, or a result on its way read. -/
def stalled (t : Thread) (row : Row) : Bool :=
  (rowRegs row).any (pendingBy t) || (rowReads row).any (fun r => t.board.any (fun b => b.reg == r))

/-- May a thread issue, but for what its next instruction needs (R158). -/
def able (s : State) (t : Thread) : Bool :=
  !t.exited && !t.halted && !t.haltReq && waitMet s t && gangIssues s t && !trapDue s t

/-- Ready threads (R158): the words are fetched, no operand is pending and none is spilled. -/
def ready (s : State) (t : Thread) : Bool :=
  able s t
    && (match nextFetched s t with
        | some (_, .ok row) => !stalled t row && (spilledReg s t row).isNone
        | some (_, .err _) => true
        | none => false)

/-- TICK, a count of 64 bits, advances: what happened in the tick before is over (R159, R340, R344, R345). -/
def tickUp (s : State) : State :=
  { s.onAll (fun t => { t with issued := false, picked := false, trapped := false }) with tick := (s.tick + 1) % 18446744073709551616 }

/-- Of two threads, the one a pick prefers: the greater age, then the lower slot (R159). -/
def prefers (a b : Thread) : Bool := b.age < a.age || (a.age == b.age && a.slot < b.slot)

/-- The thread a pick prefers among several. -/
def preferred : List Thread → Option Thread
  | [] => none
  | t :: ts =>
    match preferred ts with
    | none => some t
    | some u => if prefers u t then some u else some t

/-- The threads that issue with t0: from each other home lane the preferred ready thread at its PC (R159). -/
def sheafWith (rs : List Thread) (t0 : Thread) : List Thread :=
  (List.range 64).filterMap (fun l =>
    if l = t0.lane then none
    else preferred (rs.filter (fun t => t.cid == t0.cid && t.r.pc == t0.r.pc && t.lane == l)))

/-- Select the next thread of a sheaf, one that is still there. -/
def selectNext : List TRef → State → State
  | [], s => { s with sheaf := [] }
  | r :: rs, s =>
    match s.threads.find? (fun t => t.ref == r) with
    | none => selectNext rs s
    | some t => { s with cur := t, sheaf := rs, threads := s.threads.filter (fun x => x.ref != r) }

/-- The order in which the threads of a sheaf issue: by slot, so that what one tick's signings, arrivals and pops do is done in slot
order (R175, R178, R185, R238, R298); surrogate calls go by home lane (R266, R274). -/
def sheafOrder (w : Nat) (ts : List Thread) : List Thread :=
  sortBy (fun t => if bit w 31 && fld w 25 6 == 0x3D then t.lane else t.slot) ts

end Sys2Proof.Machine
end

