-- ==== Sys2Proof/Machine/EvMem.lean ====
section
/-! DEFINITION. Accesses that are performed (R130, R131, R200, R203), eviction (R191), fences and tokens that complete (R209,
R211). -/

namespace Sys2Proof.Machine

/-- A check or ECC error marks the sectors of an access poisoned, at the home and in the core's copy (R200). -/
def poisonAt (s : State) (core cid key n : Nat) : State :=
  if isScratch key || isSys key then s
  else
    let secs := sectors key n
    let s := { s with poison := s.poison ++ secs.filter (fun x => !s.poison.contains x) }
    s.onCore core (fun c => { c with l1 := c.l1.map (fun x => if x.cid == cid && secs.contains x.sec then { x with poison := true } else x) })

/-- What performing came to: poison met is MEMERR, TPC the access's own instruction (R200, R305). -/
def afterPerform (t : Thread) (m : Mop) (p : Perf) : Out :=
  match p with
  | .done s => .next s
  | .poison s va pc =>
    .next { s with trapq := s.trapq ++ [{ ref := t.ref, cause := cMEMERR, tpc := pc, taddr := va, tinfo := info306 0 m.kind.code
                                          spec := (t.fence.map (fun f => decide (f.upto ≤ m.id))).getD false }] }

/-- Is an access a request at a replay's gate; a halted thread's is not made (R351, R355). -/
def gated (s : State) (t : Thread) (m : Mop) : Bool := isOrderPoint m && replaying s t.cid

/-- Does an access write a register that is spilled: it comes back first (R172)? -/
def spilledDst (s : State) (t : Thread) (m : Mop) : Bool :=
  match s.wgOf t with
  | none => false
  | some w => m.regs.any (fun r => match r with | .v n => isSpilled w (.v n) | .x n => isSpilled w (.x n) | .o _ | .lr | .p _ => false)

/-- Perform an outstanding access of a thread if the order allows it (R130, R204, R205) and, in a replay, the gate does
(R351). -/
def performMop (s : State) (ref : TRef) (id : Nat) (p : Mop → Bool) (prep : Thread → Mop → State → State) : Out :=
  match s.thread? ref with
  | none => .next s
  | some t =>
    match t.mops.find? (fun m => m.id == id) with
    | none => .next s
    | some m =>
      due (p m && mayPerform t.mops (actual s t m) && !spilledDst s t m && !(t.halted && gated s t m)) s
        (if isOrderPoint m then
          (match gateTake s t.cid (accessArb s t m) t.core t.slot 0 with
            | some (s, _) => afterPerform t m (perform (prep t m s) t m)
            | none => .next s)
         else afterPerform t m (perform (prep t m s) t m))

/-- An access that answers: a load or an atomic that returns its old value. -/
def returns (m : Mop) : Bool := m.isLoad || (match m.kind with | .atom op _ => op != .fadda | .load | .store => false)

/-- LOAD_RETURN (R131, R200): access n of a thread is performed and writes its destination; `ecc`: its sector has met an
error. -/
def execLoadReturn (t : TRef) (n : Nat) (ecc : Bool) (s : State) : Out :=
  performMop s t n returns (fun x m s => if ecc then poisonAt s x.core x.cid m.key m.size else s)

/-- STORE_PERFORMED (R131, R190, R191): a store, or a FADDA, is performed. -/
def execStorePerformed (t : TRef) (n : Nat) (s : State) : Out :=
  performMop s t n (fun m => !returns m) (fun _ _ s => s)

/-- At the hop from an L1 a sector of a line may fail its check, or have an uncorrectable ECC error: it is poisoned (R199, R200; log
entry 105). -/
def hopError (s : State) (core cid line : Nat) : State :=
  let s' := { s with fresh := s.fresh + 1 }
  match Config.hopError s.fresh with
  | some q => if keyOk (128 * line + 32 * q.val) then poisonAt s' core cid (128 * line + 32 * q.val) 32 else s'
  | none => s'

/-- L1_EVICTION (R191, R193): a 128-byte line leaves, its dirty bytes going home; a keep line makes room for another keep line only
(R135). -/
def execL1Eviction (core cid line : Nat) (s : State) : Out :=
  let keep := (s.core core).l1.filter (fun x => x.hint == .keep)
  let out : Bool := keep.any (fun x => x.line == (cid, line)) && !keep.any (fun x => x.line != (cid, line))
  due (!out) s (.next (writeBackAll (hopError s core cid line) core (fun x => x.line == (cid, line)) true))

/-- Every access that a pending fence covers is performed. -/
def fenceReady (t : Thread) (f : Fence) : Bool := coveredDone t (f.kinds.setWidth 6) f.upto && !(f.hit && !f.rolled)

/-- FENCE_COMPLETE (R208-R210, R348): the release half is done; held stores go on. A halted thread makes no request at a gate (R355). -/
def execFenceComplete (t : TRef) (s : State) : Out :=
  match s.thread? t with
  | none => .next s
  | some x =>
    match x.fence with
    | none => .next s
    | some f =>
      due (fenceReady x f && !(x.halted && f.scope == 2 && replaying s x.cid)) s
        (if f.scope = 2 then
          (match gateTake s x.cid x.core x.core x.slot 0 with
            | some (s, _) => .next (finishFence (logWin s x.cid x.core x.core x.slot) t)
            | none => .next s)
         else .next (finishFence s t))

/-- FENCE_ROLLBACK (R209): another agent's store met a watched sector. -/
def execFenceRollback (t : TRef) (s : State) : Out :=
  match (s.thread? t).bind (·.fence) with
  | none => .next s
  | some f => due (f.hit && !f.rolled) s (.next (rollBack s t))

/-- A token completes: its stores are visible within its scope (R204, R211). -/
def finishToken (s : State) (t : Thread) (k : Token) : State :=
  let s := release s t.core t.cid k.scope
  s.onThread t.ref (fun x => { x with toks := x.toks.filter (fun y => y.seq != k.seq) })

/-- TOKEN_COMPLETE (R211). -/
def execTokenComplete (t : TRef) (seq : Nat) (s : State) : Out :=
  match s.thread? t with
  | none => .next s
  | some x =>
    match x.toks.find? (fun k => k.seq == seq) with
    | none => .next s
    | some k => due (tokenMet s x k) s (.next (finishToken s x k))

end Sys2Proof.Machine
end

