-- ==== Sys2Proof/Machine/DebugOps.lean ====
section
/-! DEFINITION. What samples (R343-R345), the archive unit (R347, R352) and the replay (R351-R357) share. -/

namespace Sys2Proof.Machine

/-! ## Samples (R344, R345) -/

/-- The number of a register, for the order of R345: v, o, lr, x, p. -/
def regNum : RegName → Nat
  | .v n => n.val
  | .o n => 128 + n.val
  | .lr => 136
  | .x n => 256 + n.val
  | .p n => 512 + n.val

/-- The decoded instruction at a thread's PC, if its words are there. -/
def rowAt (s : State) (t : Thread) : Option Row :=
  match fetchInstr s t with
  | (.ok (_, .ok row), _) => some row
  | _ => none

/-- The PC of the producer that a thread waits on: of its lowest-numbered register on its way (R345). -/
def blameOf (t : Thread) (row : Row) : Option W64 :=
  let rs := sortBy regNum ((rowReads row).filter (fun r => t.board.any (fun b => b.reg == r)))
  rs.head?.bind (fun r => (t.board.find? (fun b => b.reg == r)).map (·.pc))

/-- Does an instruction name a register that a surrogate call has pending (R266). -/
def readsReplica (t : Thread) (row : Row) : Bool := (rowRegs row).any (fun r => pendingBy { t with mops := [] } r)

/-- Does an instruction name a register that an access has pending (R131). -/
def readsMem (t : Thread) (row : Row) : Bool := (rowRegs row).any (fun r => pendingBy { t with rpend := [] } r)

/-- The word that a thread waits for at PC (R345): the first of its next instruction that has not been fetched. -/
def fetchTarget (s : State) (t : Thread) : W64 :=
  t.r.pc + 4 * BitVec.ofNat 64 (((List.range 3).find? (fun n => !wordsHeld s t (n + 1))).getD 0)

/-- The trapping instruction (R304, R305): TRAP leaves the next word's address in TPC. -/
def trappedAt (t : Thread) : W64 := if 256 ≤ t.tcause.toNat then t.tpc - 4 else t.tpc

/-- REASON and the PC reported (R345): the first of the table that fits. A wait whose condition holds is over (R158). -/
def sampleReason (s : State) (t : Thread) : Nat × W64 :=
  let pc := t.r.pc
  let free : Bool := waitMet s t
  let page : Bool := match t.wait with | .page _ => true | _ => false
  let row := rowAt s t
  let on (p : Thread → Row → Bool) : Bool := free && (row.map (p t)).getD false
  if t.trapped then (7, trappedAt t)
  else if t.exited then (6, pc)
  else if (free || page) && (nextFetched s t).isNone then (5, fetchTarget s t)
  else if (!free && (match t.wait with | .spill _ => true | _ => false)) || on (fun t r => (spilledReg s t r).isSome) then (8, pc)
  else if on readsReplica then (4, pc)
  else if on (fun t r => (blameOf t r).isSome) then (1, pc)
  else if (!free && page) || on readsMem then (2, pc)
  else if !free then (3, pc)
  else (0, if t.issued then t.ipc else pc)

/-- A sample record (R344). -/
def sampleBytes (s : State) (t : Thread) : List Byte :=
  let r := sampleReason s t
  let wgid := ((s.wgOf t).map (·.wgid)).getD 0
  let blame : Nat := if r.1 = 1 then (((rowAt s t).bind (blameOf t)).map (·.toNat)).getD 0 else 0
  bytesLE 8 s.tick
    ++ bytesLE 8 (r.1 * 2 ^ 60 + t.cid * 2 ^ 54 + t.core * 2 ^ 45 + t.slot * 2 ^ 33 + (if t.tmode then 2 ^ 32 else 0) + wgid % 2 ^ 32)
    ++ bytesLE 8 (r.2.toNat / 4 * 4 + (if t.issued then 2 else 0) + (if t.rb then 1 else 0)) ++ bytesLE 8 blame

/-- Does a context sample at this tick (R343). -/
def samplesNow (s : State) (cid : Nat) : Bool :=
  ((s.ctx? cid).map (fun c => c.dbg.sen && s.tick % 2 ^ c.dbg.sn == 0)).getD false

/-- The threads that a core's sampler may take (R343). -/
def sampleable (s : State) (core : Nat) : List Thread :=
  s.all.filter (fun t =>
    t.core == core && !t.halted && t.rest.isNone && samplesNow s t.cid && (!t.exited || ((s.wgOf t).map (fun w => !w.ended)).getD false))

/-! ## Checkpoints (R347, R352) -/

/-- The combined hash of some threads (R352). -/
def xorHash (l : List Thread) : W32 := l.foldl (fun h t => h ^^^ hashOf t) 0

/-- The combined hashes of a context's workgroups that have not ended, placed or saved, as (core, WGID, hash). -/
def liveHashes (s : State) (c : Ctx) : List (Nat × Nat × W32) :=
  ((s.wgs.filter (fun w => w.cid == c.cid && !w.ended)).map (fun w => (w.core, w.wgid, xorHash (s.all.filter (isMember w.id)))))
    ++ c.saved.flatMap (fun v => v.wgs.map (fun w => (w.core, w.wgid, xorHash (v.threadsOf w.id))))

/-- The hashes start at 0 again (R352). -/
def resetHashes (s : State) (cid : Nat) : State :=
  let zero (t : Thread) : Thread := if t.cid == cid && (refWg t.ref).isSome then { t with hash := 0 } else t
  (s.onAll zero).onCtx cid (fun c =>
    { c with saved := c.saved.map (fun (v : Saved) => { v with threads := v.threads.map (fun (t : Thread) => { t with hash := 0 }) }) })

/-- The bytes of a context's writable pages, by address (R347). -/
def writableImage (s : State) (cid : Nat) : List (Nat × Byte) :=
  let ls := (leavesOf s cid).filter (fun l => l.ent.getLsbD 3)
  s.mem.filterMap (fun x => (vaIn ls x.1).map (fun va => (va, x.2)))

/-- 64 KiB pages that differ between two images (log entry 94). -/
def changedPages (a b : List (Nat × Byte)) : Nat :=
  (((a.filter (fun x => !b.contains x)) ++ (b.filter (fun x => !a.contains x))).map (fun x => x.1 / 65536)).eraseDups.length

/-- 64 KiB pages that a context can write, all of which the first checkpoint copies (R347). -/
def writablePages (s : State) (cid : Nat) : Nat :=
  (((leavesOf s cid).filter (fun l => l.ent.getLsbD 3)).map (fun l =>
    if l.level = 0 then 1 else if l.level = 1 then 32 else if l.level = 2 then 16384 else 1073741824)).sum

/-- Bytes a checkpoint takes in the archive area; its layout is not architectural (R347). -/
def checkpointBytes (slots logChunks pages : Nat) : Nat := roundUp (4096 + slots + 8 * logChunks + 65536 * pages) 4096

/-- Main-clock ticks of a millisecond (R347). -/
def ticksPerMs : Nat := 1500000

/-- Is a checkpoint due (R347): the first, after T, or when the log fills. -/
def checkpointDue (s : State) (c : Ctx) : Bool :=
  !c.arch.on || c.arch.since + c.dbg.tms * ticksPerMs ≤ s.tick || c.dbg.logbytes < 8 * (c.arch.log.length + 2)

/-- A checkpoint begins: issue stops. The next one falls due T after this one did, not after it is complete (R347). -/
def beginCheckpoint (tick : Nat) (c : Ctx) : Arch :=
  let t := c.arch.since + c.dbg.tms * ticksPerMs
  if c.arch.settling then c.arch
  else { c.arch with settling := true, since := if !c.arch.on then c.arch.since else if t ≤ tick then t else tick }

/-- Running restoration threads of a gang are abandoned, and their entries return to the queue (R274, R327). -/
def abandonRests (s : State) (g : Gang) : State :=
  (gangThreads s g).foldl
    (fun s t =>
      match t.rest with
      | some e => (dropThread s t.ref).onCore t.core (fun c => { c with restq := c.restq ++ [e] })
      | none => s) s

/-- A gang settled for a checkpoint without being retired (R327, R347). -/
def settleGang (s : State) (g : Gang) : State :=
  (membersOf s g).foldl (fun s w => drainFront (release s w.core g.cid 5) w.core g.cid) (abandonRests s g)

/-- The area is full: recording stops, and TYPE 8 is posted (R347). With no checkpoint completed the sequence number is free. -/
def archiveFull (s : State) (c : Ctx) : State :=
  let s := s.onCtx c.cid (fun c => { c with arch := { c.arch with on := false, full := true, settling := false } })
  if c.arch.done.isEmpty then
    { postEvent s c.cid 8 (Config.freeChoice s.fresh) c.arch.used with fresh := s.fresh + 1 }
  else postEvent s c.cid 8 (c.arch.seq - 1) c.arch.used

/-- The log with its boundary chunk (R349). -/
def closeLog (seq : Nat) (log : List W64) : List W64 := if seq = 0 then [] else log ++ [BitVec.ofNat 64 (0xFFFC * 2 ^ 48 + seq % 2 ^ 32)]

/-- A checkpoint of a settled context (R347, R349, R352, R356). -/
def takeCheckpoint (s : State) (cid : Nat) : State :=
  let s := (ctxGangs s cid).foldl settleGang s
  match s.ctx? cid with
  | none => s
  | some c =>
    let gangs := c.saved ++ (ctxGangs s cid).map (savedOf s)
    let img := writableImage s cid
    let slots := ((s.launches.filter (fun l => gangs.any (fun v => v.gang.launch == l.id))).map (fun l => slotBytes l.lrec)).sum
    let pages := if c.arch.done.isEmpty then writablePages s cid else changedPages img c.arch.img
    let n := checkpointBytes slots c.arch.log.length pages
    if c.dbg.archbytes < c.arch.used + n then archiveFull s c
    else
      let cp : Checkpoint :=
        { tick := s.tick, seq := c.arch.seq, ended := c.arch.ended, live := liveHashes s c, log := closeLog c.arch.seq c.arch.log
          placed := c.arch.placed, ingress := c.arch.ingress, gangs, launches := s.launches.filter (fun l => l.cid == cid), wls := c.wls, counts := c.counts, img }
      let s := putFree s cid (c.dbg.arch + c.arch.used) n
      resetHashes (s.onCtx cid (fun c =>
        { c with arch :=
            { c.arch with
              on := true, seq := c.arch.seq + 1, log := [], used := c.arch.used + n, done := c.arch.done ++ [cp]
              ended := [], img, placed := [], ingress := [], settling := false } })) cid

/-! ## Replay (R351-R357) -/

/-- Replay stops with DIVERGE (R353): issue stops, the gates open, the gangs are saved, TYPE 7 is posted. -/
def diverge (s : State) (cid case core wgid : Nat) : State :=
  let s := { s with gangs := s.gangs.map (fun (g : Gang) => if g.cid == cid && g.endTick.isNone then { g with way := .save } else g) }
  let s := s.onCtx cid (fun c => { c with arch := { c.arch with on := false } })
  let none_ : Bool := (ctxGangs s cid).all (fun g => g.endTick.isSome) && ((s.ctx? cid).map (·.saved.isEmpty)).getD true
  postEvent (setCtxState s cid (if none_ then .idle else .saved)) cid 7 s.tick (case * 2 ^ 62 + core * 2 ^ 32 + wgid)

/-- DIVERGE on a request of a thread. -/
def divergeAt (s : State) (t : Thread) (case : Nat) : State :=
  diverge s t.cid case t.core (((s.wgOf t).map (·.wgid)).getD 0)

/-- The agent that the first chunk of an arbiter names, as (core, slot). -/
def namedAgent (left : List W64) (arb : Nat) : Option (Nat × Nat) :=
  (left.find? (fun c => c.toNat / 2 ^ 48 == arb)).map (fun c => (bits c.toNat 39 9, bits c.toNat 27 12))

/-- Could a slot of a workgroup that has not ended still run a restoration thread (R156, R267)? -/
def restSlot (s : State) (w : Wg) (core slot : Nat) : Bool :=
  match s.lrecOf w with
  | none => false
  | some l => w.core == core && !w.ended && (List.range l.rslots).any (fun r =>
      64 * (w.rows[(l.wgsize + r) / 64]?).getD 0 + (l.wgsize + r) % 64 == slot)

/-- Can the agent at a core and slot make a request no more (R353): nothing there, nor to come in this interval, that has not
exited; a slot for restoration threads while its workgroup has not ended. -/
def agentGone (s : State) (c : Ctx) (core slot : Nat) : Bool :=
  let here (t : Thread) : Bool := t.cid == c.cid && t.core == core && t.slot == slot
  core != 511 && slot != 4095
    && !s.all.any (fun t => here t && (!t.exited || !t.mops.isEmpty))
    && !(s.wgs.any (fun w => w.cid == c.cid && restSlot s w core slot))
    && !c.saved.any (fun v => v.threads.any (fun t => here t && !t.exited) || v.wgs.any (fun w => restSlot s w core slot))
    && !c.arch.placed.any (fun p => p.core ≤ core && core < p.core + p.rows.length && ((p.rows[core - p.core]?).getD []).contains (slot / 64))

/-- The first chunk of some arbiter that names an agent which is gone, as (core, slot) (R353). -/
def goneAgent (s : State) (c : Ctx) : Option (Nat × Nat) :=
  ((c.arch.left.map (fun x => x.toNat / 2 ^ 48)).eraseDups.filter (· < 65520)).findSome? (fun arb =>
    (namedAgent c.arch.left arb).bind (fun a => if agentGone s c a.1 a.2 then some a else none))

/-- DIVERGE as an agent is gone (R353), with its workgroup: that of its exited thread, else the last that ended on its core; none
known leaves WGID free (log entry 95). -/
def divergeGone (s : State) (c : Ctx) (core slot : Nat) : State :=
  let t := s.all.find? (fun t => t.cid == c.cid && t.core == core && t.slot == slot)
  let wgid := match (t.bind (s.wgOf ·)).map (·.wgid) with
    | some n => some n
    | none => ((c.arch.ended.filter (fun e => e.1 == core)).getLast?).map (·.2.1)
  match wgid with
  | some n => diverge s c.cid 2 core n
  | none => diverge { s with fresh := s.fresh + 1 } c.cid 2 core (Config.freeChoice s.fresh % 2 ^ 32)

/-- Does the chunk a pop is named by not fit (R353): its record is not present, and its pusher has pushed it, or is gone. -/
def popMisfit (s : State) (c : Ctx) (wl : Fin 4) (w : Worklist) (v : W64) : Bool :=
  let core := bits v.toNat 39 9
  let slot := bits v.toNat 27 12
  let num := bits v.toNat 0 24
  !(present s c.cid wl w).any (namedRec v)
    && !s.all.any (fun t => t.cid == c.cid && t.core == core && t.slot == slot && !t.exited && t.pushes ≤ num)
    && !c.arch.placed.any (fun p => p.core ≤ core && core < p.core + p.rows.length)

/-- What a replay's gate does with a request that is not let through: nothing yet, or DIVERGE (R353). -/
def gateCase (s : State) (c : Ctx) (t : Thread) (arb code : Nat) : Option Nat :=
  match gateOf s c.cid arb t.core t.slot with
  | .exhausted => some 1
  | .hold => none
  | .pass _ v =>
    if !chunkFits code v then some 3
    else if code = popCode ∧ (List.finRange 4).all (fun wl => (c.wls[wl]).st != .active || popMisfit s c wl c.wls[wl] (v.getD 0)) then some 3
    else none

/-- The requests that a thread of a replayed context has at gates, as (arbiter, code): the one it waits with, a parked pop, its
outstanding order points, a fence at cluster scope whose release half is done. -/
def gateRequests (s : State) (t : Thread) : List (Nat × Nat) :=
  (match t.wait with
    | .gate arb code => [(arb, code)]
    | .wlpush _ _ _ true => [(dieArb t.core, 0)]
    | _ => [])
    ++ ((t.mops.filter (fun m => isOrderPoint m && mayPerform t.mops (actual s t m))).map (fun m => (accessArb s t m, 0)))
    ++ (match t.fence with | some f => if f.scope == 2 && fenceReady t f then [(t.core, 0)] else [] | none => [])

/-- Write a piece of an ingress write at its home (R370). -/
def ingressPut (s : State) (key : Nat) (bs : List Byte) : State := s.put .none key bs

/-- The next ingress write of a replay that the gates let through (R349, R351). -/
def ingressNext (s : State) (c : Ctx) : Option State :=
  c.arch.ingress.zipIdx.findSome? (fun x =>
    match walk s c.cid x.1.2.1 with
    | .leaf ent level =>
      (match leafKey s ent level x.1.2.1 2 with
        | .ok key =>
          (gateTake s c.cid (homeArb key) 511 x.1.1 0).map (fun g =>
            (ingressPut g.1 key x.1.2.2).onCtx c.cid (fun c => { c with arch := { c.arch with ingress := c.arch.ingress.eraseIdx x.2 } }))
        | _ => none)
    | _ => none)

/-- Is a log exhausted: only its boundary chunk is left (R357). -/
def logDone (left : List W64) : Bool := left.all (fun c => c.toNat / 2 ^ 48 == 0xFFFC)

/-- A context's threads with the WGIDs of their workgroups, on cores and saved. -/
def threadsWg (s : State) (c : Ctx) : List (Thread × Nat) :=
  (s.all.filterMap (fun t => if t.cid == c.cid then (s.wgOf t).map (fun w => (t, w.wgid)) else none))
    ++ c.saved.flatMap (fun v => v.wgs.flatMap (fun w => (v.threadsOf w.id).map (fun t => (t, w.wgid))))

/-- Has the replay reached the checkpoint that closes its interval (R357): a thread is the one the header lists when it has its core,
slot, TID and WGID. -/
def intervalDone (s : State) (c : Ctx) (h : Checkpoint) : Bool :=
  logDone c.arch.left && h.ended.all (fun e => endedAll c h e.1 e.2.1)
    && h.gangs.all (fun v => v.wgs.all (fun w => (v.threadsOf w.id).all (fun y =>
      (threadsWg s c).any (fun t => t.1.core == y.core && t.1.slot == y.slot && t.1.tid == y.tid && t.2 == w.wgid && t.1.issues == y.issues))))

/-- The entries of one list that another does not match, one for one. -/
def unmatched : List (Nat × Nat × W32) → List (Nat × Nat × W32) → List (Nat × Nat × W32)
  | [], _ => []
  | e :: es, l => if l.contains e then unmatched es (l.erase e) else e :: unmatched es l

/-- The workgroup of lowest WGID whose combined hash differs from the header's, as (core, WGID) (R353, R357). -/
def hashMismatch (s : State) (c : Ctx) (h : Checkpoint) : Option (Nat × Nat) :=
  (sortBy (fun e => e.2.1) (unmatched (h.ended ++ h.live) (c.arch.ended ++ liveHashes s c))).head?.map (fun e => (e.1, e.2.1))

/-- The replay is complete (R357): TYPE 9; the context has no gang and is IDLE. -/
def replayEnd (s : State) (cid seq : Nat) : State :=
  let s := (ctxGangs s cid).foldl dropGang s
  let s := { s with launches := s.launches.filter (fun l => l.cid != cid) }
  let s := s.onCtx cid (fun c => { c with saved := [], slots := [], arch := { c.arch with on := false, want := [], left := [] } })
  setCtxState (postEvent s cid 9 seq 0) cid .idle

/-- An interval closes (R357). -/
def closeInterval (s : State) (c : Ctx) (h : Checkpoint) (rest : List Checkpoint) : State :=
  match hashMismatch s c h with
  | some m => diverge s c.cid 0 m.1 m.2
  | none =>
    if rest.isEmpty then replayEnd s c.cid h.seq
    else resetHashes (s.onCtx c.cid (fun c => { c with arch := openInterval { c.arch with want := rest, seq := h.seq } h.tick })) c.cid

end Sys2Proof.Machine
end

