-- ==== Sys2Proof/Machine/EvDebug.lean ====
section
/-! DEFINITION. Halts (R346), samples (R343), the archive unit's checkpoints (R347) and the replay's gates and intervals (R351,
R357). -/

namespace Sys2Proof.Machine

/-- HALT_REQUEST (R346): system software asks threads to halt, saved ones too. -/
def execHaltRequest (ts : List TRef) (s : State) : Out :=
  .next ((ts.foldl (fun s r => s.onThread r Thread.askHalt) s).onSaved (fun t => if ts.contains t.ref then t.askHalt else t))

/-- THREAD_HALT (R311, R346): a thread halts at its instruction boundary, and TYPE 6 is posted. -/
def execThreadHalt (t : TRef) (s : State) : Out :=
  match s.thread? t with
  | none => .next (haltSaved s t)
  | some x => due (x.haltReq && !x.exited) s (.next (haltThread s t false))

/-- A halted thread goes on; a BKPT that halted it completes as a NOP (R346). -/
def resumed (t : Thread) : Thread :=
  if t.halted then { t with halted := false, bkpt := false, r := if t.bkpt then t.r.adv 1 else t.r } else { t with haltReq := false }

/-- RESUME_REQUEST (R346): threads on cores and saved ones. -/
def execResumeRequest (ts : List TRef) (s : State) : Out :=
  let s := ts.foldl (fun s r => s.onThread r resumed) s
  .next (s.onSaved (fun t => if ts.contains t.ref then resumed t else t))

/-- SAMPLE (R343-R345): the core's sampler takes the next slot that qualifies, once in a tick. -/
def execSample (core : Nat) (s : State) : Out :=
  let k := s.core core
  due (core < Config.cores && k.sampAt != some s.tick) s
    (match (sortBy (fun t => (t.slot + 4096 - k.samp) % 4096) (sampleable s core)).head? with
     | none => .next s
     | some t =>
       let d := ((s.ctx? t.cid).map (·.dbg)).getD DDesc.zero
       let s' := ringPost s t.cid d.sring d.srent 32 (sampleBytes s t)
       let s' := s'.onCore core (fun c => { c with samp := (t.slot + 1) % 4096, sampAt := some s.tick })
       .next (s'.onThread t.ref (fun x => { x with rb := false })))

/-- CHECKPOINT (R347, R355): the gangs' issue stops and they settle; once they have, the checkpoint is written and they issue
again. -/
def execCheckpoint (cid : Nat) (s : State) : Out :=
  match s.ctx? cid with
  | none => .next s
  | some c =>
    due (c.dbg.amode == 1 && !c.arch.full && (c.arch.on || c.st == .running) && (c.arch.settling || checkpointDue s c)) s
      (let gs := ctxGangs s cid
       let spec := (gs.flatMap (gangThreads s)).filter (fun t => (t.fence.map (fun f => !f.rolled)).getD false)
       if !c.arch.settling || !spec.isEmpty then
         .next (spec.foldl (fun s t => rollBack s t.ref) (s.onCtx cid (fun c => { c with arch := beginCheckpoint s.tick c })))
       else due (gs.all (fun g => (membersOf s g).all (memberSettled s))) s (.next (takeCheckpoint s cid)))

/-- GATE_PASS (R351, R353): a held request that its arbiter's log names goes on; one that the log can never name stops the replay
with DIVERGE. No thread named: a chunk of a replayed context whose agent is gone stops the replay, or its next ingress write is
made. -/
def execGatePass (t : TRef) (s : State) : Out :=
  match s.thread? t with
  | none =>
    .next ((s.ctxs.findSome? (fun c =>
      if replaying s c.cid then (match goneAgent s c with | some a => some (divergeGone s c a.1 a.2) | none => ingressNext s c)
      else none)).getD s)
  | some x =>
    match s.ctx? x.cid with
    | none => .next s
    | some c =>
      due (replaying s x.cid && !x.halted && !x.exited) s
        (match (gateRequests s x).findSome? (fun q => gateCase s c x q.1 q.2) with
         | some n => .next (divergeAt s x n)
         | none =>
           (match x.wait with
             | .gate arb code =>
               if (gateTake s x.cid arb x.core x.slot code).isSome then .next (s.onThread t (fun y => { y with wait := .none })) else .next s
             | _ => .next s))

/-- INTERVAL_CLOSE (R357): the hashes are compared; the next interval opens, or the replay is complete. -/
def execIntervalClose (cid : Nat) (s : State) : Out :=
  match s.ctx? cid with
  | none => .next s
  | some c =>
    match c.arch.want with
    | [] => .next s
    | h :: rest => due (replaying s cid && intervalDone s c h) s (.next (closeInterval s c h rest))

end Sys2Proof.Machine
end

