-- ==== Sys2Proof/Machine/EvHost.lean ====
section
/-! DEFINITION. What the host, the fabric and failures do to the device (R196, R340, R341, R362-R364, R370, R378, R381, R382). -/

namespace Sys2Proof.Machine

/-- TICKSTOP_WRITE (R341): a tick at or below the current one is ignored. -/
def execTickstopWrite (v : BitVec 64) (s : State) : Out :=
  due (s.tick < v.toNat) s (.next { s with cfg := { s.cfg with tickstop := v } })

/-- TICK_STOP (R341): at the armed tick every clock domain is gated; only module reset goes on from there. -/
def execTickStop (s : State) : Out :=
  due (s.cfg.tickstop != 0 && s.cfg.tickstop.toNat ≤ s.tick) s (.next { s with stopped := true })

/-- REGISTER_WRITE (R362). -/
def execRegisterWrite (off : Nat) (v : BitVec 64) (s : State) : Out :=
  .next { s with cfg := writeRegister s.cfg (s.links != 0) off v }

/-- INGRESS_WRITE (R351, R370): through the bound context, in order; a fault, a missing right, no binding or a replay drops it. -/
def execIngressWrite (f va : Nat) (bytes : List (BitVec 8)) (s : State) : Out :=
  due (f ≤ 64 && va + bytes.length ≤ 2 ^ 40) s
    (match boundCtx s f with
     | none => .next (ingressFault s f va)
     | some cid =>
       (match hubPlaces s cid 2 (sectorPieces va bytes.length) with
         | some ps => if replaying s cid then .next (ingressFault s f va) else .next (ingressPieces cid 0 ps bytes s).drainEgress
         | none => .next (ingressFault s f va)))

/-- INGRESS_READ (R200, R370): the completion, or Unsupported Request. -/
def execIngressRead (f va n : Nat) (s : State) : Out :=
  due (f ≤ 64 && va + n ≤ 2 ^ 40) s
    (let deny := fun (s : State) => { ingressFault s f va with answers := s.answers ++ [.unsupported] }
     match boundCtx s f with
     | none => .next (deny s)
     | some cid =>
       (match hubPlaces s cid 1 (sectorPieces va n) with
         | none => .next (deny s)
         | some ps =>
           if replaying s cid then .next (deny s)
           else
             let bad := ps.any (fun p => !isSys p.1 && s.poisoned p.1 p.2.2)
             let r := ps.foldl (fun (x : List Byte × State) p => let y := x.2.take p.1 p.2.2; (x.1 ++ y.1, y.2)) ([], s)
             .next { r.2 with answers := r.2.answers ++ [if bad then .poisoned r.1 else .data r.1] }))

/-- FUNCTION_LEVEL_RESET (R378, R384): the function's queues, its curators, the contexts of its launches and those bound to it. -/
def execFunctionLevelReset (f : Nat) (s : State) : Out :=
  let mine := s.queues.filter (fun q => q.vf == f)
  let cids := (s.launches.filter (fun l => mine.any (fun q => q.q == l.q))).map (·.cid)
  let s := mine.foldl
    (fun s q => (stopPacket s q.q).setQueue q.q (fun x => { x with st := .disabled, quiesce := false, paused := none, head := 0, tail := 0 })) s
  let s := cids.foldl killCtx s
  .next ((boundCtx s f).toList.foldl destroyCtx s)

/-- CORE_FAILURE (R382): the cluster's spare takes the place of its first failing core; the second failure takes the cluster out of
service. -/
def execCoreFailure (core : Nat) (s : State) : Out :=
  let k := core / 8
  due (core < Config.cores && !s.outClusters.contains k) s
    (if s.spares.contains k then
       let s := { s with outClusters := s.outClusters ++ [k] }
       .next ((List.range 8).foldl (fun s i => emptyCore (failWgs s (8 * k + i)) (8 * k + i)) s)
     else .next (emptyCore (failWgs { s with spares := s.spares ++ [k] } core) core))

/-- MEMORY_RETIRE (R382): n more HBM channels or vault banks are retired, their data moved first. -/
def execMemoryRetire (hbm : Bool) (n : Nat) (s : State) : Out :=
  .next (if hbm then { s with hbmRet := s.hbmRet + n } else { s with vbRet := s.vbRet + n })

/-- MODULE_RESET (R340, R362, R382). Free values and names stay fresh; what comes next is not the module's. -/
def execModuleReset (s : State) : Out :=
  .next { State.reset with agenda := s.agenda, fresh := s.fresh, uid := s.uid }

/-- ATTESTATION_QUOTE (R381): M, the log's length and the nonce, signed. -/
def execAttestationQuote (cid : Nat) (nonce : List (BitVec 8)) (s : State) : Out :=
  match s.ctx? cid with
  | none => .next s
  | some c =>
    due (nonce.length == 32) s
      (let body := c.measure ++ bytesLE 8 c.attest.length ++ nonce
       .next { s with quote := s.quote ++ [body ++ Config.falconSign body] })

/-- LINK_FAILURE (R363): routed around while another path exists. -/
def execLinkFailure (port : Fin 36) (s : State) : Out :=
  let links := s.links &&& ~~~(1#36 <<< port.val)
  .next (if links = 0 ∧ s.links ≠ 0 then failAll { s with links } else { s with links })

/-- FLIT_RETRY (R363): invisible apart from timing. -/
def execFlitRetry (_port : Fin 36) (s : State) : Out := .next s

/-- POD_LEAVE (R363, R384): the device leaves the pod's switches, and the collectives it shares end. -/
def execPodLeave (s : State) : Out := due s.inPod s (.next (failAll { s with inPod := false }))

/-- LINK_UP (R363). -/
def execLinkUp (port : Fin 36) (s : State) : Out := .next { s with links := s.links ||| (1#36 <<< port.val) }

/-- NGURIL_INGRESS (R200, R351, R364): a peer's access is performed at its home on this device. -/
def execNgurilIngress (port : Fin 36) (pa : Nat) (acc : PeerAcc) (s : State) : Out :=
  due (s.links.getLsbD port.val && pa < 2 ^ 44) s
    (match acc with
     | .write bytes poison =>
       if keyOk pa && keyOk (pa + bytes.length - 1) then .next (peerWrite (port.val + 1) poison (sectorPieces pa bytes.length) bytes s)
       else .fault (.noSuchMemory pa)
     | .read n =>
       if keyOk pa && keyOk (pa + n - 1) then .next { s with answers := s.answers ++ [readAnswer s pa n] } else .fault (.noSuchMemory pa))

/-- The vault quarters that contexts map pages to (R196). -/
def mappedQuarters (s : State) : List Nat :=
  s.ctxs.flatMap (fun c => ((leavesOf s c.cid).filter (fun l => bits l.ent.toNat 5 2 == 2)).map (fun l => bits l.ent.toNat 56 8))

/-- VMODE_WRITE (R196): a quarter that a context maps a page to keeps its mode. A quarter in cache mode is part of the home and
holds nothing that the home does not. -/
def execVmodeWrite (v : BitVec 192) (s : State) : Out :=
  let held := mappedQuarters s
  let m : BitVec 192 := held.foldl (fun m q => m ||| (1#192 <<< q)) 0
  .next { s with cfg := { s.cfg with vmode := (v &&& ~~~m) ||| (s.cfg.vmode &&& m) } }

end Sys2Proof.Machine
end

