-- ==== Sys2Proof/Machine/Signing.lean ====
section
/-! DEFINITION. Signing a convergence register (R175, R176), explicitly or on a K field. -/

namespace Sys2Proof.Machine

/-- What a signing brings: operation, words with the guard bits cleared, set-wide values, the mask of a KSIGN, the number
of words, operands and destination. -/
structure Signing where
  op : SignOp
  words : List Nat
  sw : List W64
  mask : Option W64
  len : Nat
  a : W32
  i : W32
  dst : Dst8
deriving DecidableEq, Repr

/-- A signing without operands of its own. -/
def Signing.plain (op : SignOp) (words : List Nat) (sw : List W64) (len : Nat) : Signing :=
  { op, words, sw, mask := none, len, a := 0, i := 0, dst := .zero }

/-- The bits, from base on, of the live threads of a scope (R175). -/
def liveMask (s : State) (w : Wg) (cluster : Bool) (base : Nat) : W64 :=
  (scopeLive s w cluster).foldl
    (fun m t =>
      match s.wgOf t with
      | none => m
      | some x =>
        let i := setIndex s x cluster t
        if base ≤ i && i < base + 64 then m ||| (1#64 <<< (i - base)) else m) 0

/-- The round that a first signing opens (R175 steps 3 and 4). -/
def openRound (s : State) (w : Wg) (cluster : Bool) (kr : KReg) (g : Signing) : KReg :=
  { kr with
    st := .gathering, op := g.op, words := g.words, sw := g.sw, signs := []
    mask := (g.mask.getD (BitVec.allOnes 64)) &&& liveMask s w cluster kr.val.toNat
    expect := min kr.val.toNat (scopeLive s w cluster).length }

/-- How a signing disagrees with its round, if it does (R176). -/
def disagrees (kr : KReg) (g : Signing) (idx : Nat) : Option Nat :=
  let off := idx - kr.val.toNat
  if g.words ≠ kr.words then some 1
  else if g.sw ≠ kr.sw then some 2
  else if kr.maskMode && !(kr.val.toNat ≤ idx && off < 64 && kr.mask.getLsbD off) then some 3
  else none

/-- The selected thread signs and waits; the last signer completes the round (R175). -/
def signRound (s : State) (cluster : Bool) (k : Fin 8) (g : Signing) : Out :=
  match s.wgOf s.cur with
  | none => illegal8 s
  | some w =>
    let kr := getK s w cluster k
    match kr.st with
    | .undeclared => illegal8 s
    | .faulted => trap s cMEMBER 0 (memberInfo 1 k.val cluster)
    | .armed | .gathering =>
      let idx := setIndex s w cluster s.cur
      let kr := if kr.st = .armed then openRound s w cluster kr g else kr
      match disagrees kr g idx with
      | some r => trap (memberFault s w cluster k kr r) cMEMBER 0 (memberInfo r k.val cluster)
      | none =>
        orderPoint s s.cur.core (fun s =>
          let s := release s s.cur.core s.cur.cid (if cluster then 3 else 1)
          let s := setK s w cluster k
            { kr with signs := kr.signs ++ [{ ref := s.cur.ref, idx, a := g.a, i := g.i, dst := g.dst, words := g.len }] }
          let s := s.onCur (fun t => { t with wait := .sign cluster k.val })
          .next (testRound s ((s.wg? w.id).getD w) cluster k))

/-- An explicit signing: ILLEGAL reason 8 on a restoration thread (R175). -/
def signExplicit (g : Guard) (n : Nat) (cluster : Bool) (k : Fin 8) (x : Signing) (s : State) : Out :=
  guarded g n s
    (match s.cur.rest with
     | some _ => illegal8 s
     | none => settled s (drained s (signRound s cluster k x)))

end Sys2Proof.Machine
end

