-- ==== Sys2Proof/Machine/Matrix.lean ====
section
/-! DEFINITION. The matrix unit's instructions (R246-R258). -/

namespace Sys2Proof.Machine

/-- KIND of a format (R250). -/
def kindOf : MFmt → AKind
  | .e4m3 | .e5m2 | .lns6 | .f16 | .bf16 => .float
  | .int8 => .int
  | .f64 => .f64

/-- The slots an operation of a format on a slot takes: an F64 one takes the pair (R246). -/
def slotsOf (f64 : Bool) (slot : Nat) : List Nat := if f64 then [slot / 2 * 2, slot / 2 * 2 + 1] else [slot]

/-- Give a KIND to slots. -/
def setKinds (ks : List AKind) (ids : List Nat) (k : AKind) : List AKind := ks.zipIdx.map (fun x => if ids.contains x.2 then k else x.1)

/-- The KINDs after an entry (R251, R258). -/
def kindsAfter (ks : List AKind) (e : MEnt) : List AKind :=
  match e.op with
  | .mma _ _ _ c _ =>
    let k := kindOf c.afmt
    if c.zero || ks[c.slot.val]? == some .empty then setKinds ks (slotsOf (k == .f64) c.slot.val) k else ks
  | .mzero sl => setKinds ks (slotsOf (ks[sl]? == some .f64) sl) .empty
  | .mdrain _ _ _ _ | .mldsc _ _ _ | .mstat _ _ _ => ks

/-- The KINDs as of the matrix queue's tail (R250). -/
def tailKinds (w : Wg) : List AKind := (w.mq.filter (fun e => !e.done)).foldl kindsAfter (w.slots.map (·.kind))

/-- KIND of a slot as of the queue's tail; one outside the allotment reads EMPTY. -/
def tailKind (w : Wg) (slot : Nat) : AKind := ((tailKinds w)[slot]?).getD .empty

/-- The ALIGN of two operands that must be multiples of 16 (R250, R257). -/
def align16 (a b : W64) (kind : Nat) : Option TrapInfo :=
  if a.toNat % 16 ≠ 0 then some (cALIGN, a, info306 0 kind)
  else if b.toNat % 16 ≠ 0 then some (cALIGN, b, info306 0 kind)
  else none

/-- The checks of an MMA before it signs (R250). -/
def mmaCheck (w : Wg) (xa xb xc : W64) (c : MmaCtl) : Option TrapInfo :=
  let n := Split.num c.split
  let kk := bits xc.toNat 32 16
  let mm := 64 * (c.m.val + 1)
  let nn := 64 * (c.n.val + 1)
  let kd := kindOf c.afmt
  let tk := tailKind w c.slot.val
  let al := w.slots.length
  if kk = 0 ∨ kk % (if kd = .f64 then 8 else 32) ≠ 0 ∨ (n ≠ 1 ∧ c.kcl = false) ∨ nn / n % 64 ≠ 0
      ∨ (c.zero = false ∧ tk ≠ .empty ∧ tk ≠ kd) then some (cILLEGAL, 0, 8)
  else if al ≤ c.slot.val ∨ (kd = .f64 ∧ al ≤ c.slot.val + 1) then some (cSLOT, 0, 1)
  else if c.scale ∧ 8192 * al < bits xc.toNat 48 16 + mm / 32 + nn / 32 then some (cSLOT, 0, 2)
  else if (align16 xa xb 1).isSome then align16 xa xb 1
  else if n ≠ 1 ∧ inLocal xa.toNat then some (cPROT, xa, info306 7 1)
  else if n ≠ 1 ∧ inLocal xb.toNat then some (cPROT, xb, info306 7 1)
  else none

/-- The checks of an MDRAIN before it signs (R257). -/
def mdrainCheck (w : Wg) (xa xb : W64) (c : DrainCtl) : Option TrapInfo :=
  if tailKind w c.slot.val = .f64 ∧ c.slot.val % 2 = 1 then some (cILLEGAL, 0, 8)
  else if w.slots.length ≤ c.slot.val then some (cSLOT, 0, 1)
  else align16 xa xb 2

/-- The checks of MLDSC at issue (R258). -/
def mldscCheck (w : Wg) (x src : W64) : Option TrapInfo :=
  let cnt := bits x.toNat 0 17
  let didx := bits x.toNat 32 16
  if cnt = 0 ∨ bits x.toNat 17 15 ≠ 0 ∨ bits x.toNat 48 16 ≠ 0 then some (cILLEGAL, 0, 8)
  else if 8192 * w.slots.length < didx + cnt then some (cSLOT, 0, 2)
  else if !inLocal src.toNat then some (cPROT, src, info306 7 1)
  else if w.size < src.toNat - localBase + cnt then some (cPROT, src, info306 2 1)
  else none

/-- An instruction of the matrix unit: REGION in region mode, after a pending fence, on a launched thread (R252, R258). -/
def onMatrix (g : Guard) (n : Nat) (s : State) (k : Wg → Out) : Out :=
  guarded g n s
    (outside s (settled s
      (match s.wgOf s.cur with
       | some w => k w
       | none => illegal8 s)))

/-- Take the trap of a check, or go on. -/
def unlessTrap (s : State) (x : Option TrapInfo) (k : Out) : Out :=
  match x with
  | some e => trapOf s e
  | none => k

/-- MMA checks, then signs (R250). -/
def execMma (g : Guard) (xa xb xc : XReg) (c : MmaCtl) (s : State) : Out :=
  onMatrix g 2 s (fun w =>
    let a := s.cur.r.getX xa
    let b := s.cur.r.getX xb
    let x := s.cur.r.getX xc
    unlessTrap s (mmaCheck w a b x c)
      (drained s (signRound s c.kcl c.k (Signing.plain (.mma c) (encode (.mma none xa xb xc c)) [a, b, x] 2))))

/-- MDRAIN checks, then signs (R257). -/
def execMdrain (g : Guard) (xa xb xc : XReg) (c : DrainCtl) (s : State) : Out :=
  onMatrix g 2 s (fun w =>
    let a := s.cur.r.getX xa
    let b := s.cur.r.getX xb
    let x := s.cur.r.getX xc
    unlessTrap s (mdrainCheck w a b c)
      (drained s (signRound (if inLocal a.toNat && inLocal (a + BitVec.ofNat 64 (64 * c.m.val + 63) * b).toNat then s else sideOn s) c.kcl c.k (Signing.plain (.mdrain c) (encode (.mdrain none xa xb xc c)) [a, b, x] 2))))

/-- MZERO enters the matrix queue (R253, R258). -/
def execMzero (g : Guard) (slot : Fin 8) (s : State) : Out :=
  onMatrix g 1 s (fun w =>
    if w.slots.length ≤ slot.val then trap s cSLOT 0 1 else .next ((enqueue s w.id (.mzero slot.val)).2.adv 1))

/-- MLDSC enters the matrix queue, and its entry reads the bytes (R253, R258): what the thread has stored there is performed first, as is
an earlier acquire (R205, R254). -/
def execMldsc (g : Guard) (d a : XReg) (s : State) : Out :=
  onMatrix g 1 s (fun w =>
    let x := s.cur.r.getX d
    let src := s.cur.r.getX a
    unlessTrap s (mldscCheck w x src)
      (let cnt := bits x.toNat 0 17
       if blocked s.cur (scratchKey w.core (w.base + (src.toNat - localBase))) cnt true then waitAt s .drain
       else .next ((enqueue s w.id (.mldsc src.toNat cnt (bits x.toNat 32 16))).2.adv 1)))

/-- MSTAT enters the matrix queue and waits until its entry runs (R258). -/
def execMstat (g : Guard) (d : XReg) (slot : Fin 8) (s : State) : Out :=
  onMatrix g 1 s (fun w =>
    if w.slots.length ≤ slot.val then trap s cSLOT 0 1
    else
      let r := enqueue s w.id (.mstat slot.val s.cur.ref d)
      waitAt r.2 (.mstat r.1))

end Sys2Proof.Machine
end

