-- ==== Sys2Proof/Machine/EvMatrix.lean ====
section
/-! DEFINITION. The matrix unit's entries (R246-R258, R71-R76): K-steps, drains, MCTL, suspension and completion. -/

namespace Sys2Proof.Machine

/-! ## Cells -/

/-- The cells of a slot as a grid of 256 rows. -/
def gridOf (cells : List (Nat × W64)) : Array W64 := cells.foldl (fun g c => g.set! c.1 c.2) (Array.replicate 65536 0)

/-- The cells that are not 0, in order. -/
def cellsOf (g : Array W64) : List (Nat × W64) := (g.toList.zipIdx.filter (fun x => x.1 != 0)).map (fun x => (x.2, x.1))

/-- Is a cell among the first m rows and n columns. -/
def inRegion (m n key : Nat) : Bool := key / 256 < m && key % 256 < n

/-- Make cells of a region +0 (R251, R257). -/
def zeroRegion (m n : Nat) (cells : List (Nat × W64)) : List (Nat × W64) := cells.filter (fun c => !inRegion m n c.1)

/-- Change an accumulator slot of a workgroup. -/
def onSlot (s : State) (w i : Nat) (f : Acc → Acc) : State :=
  s.onWg w (fun x => { x with slots := x.slots.zipIdx.map (fun a => if a.2 = i then f a.1 else a.1) })

/-- The slot whose list holds the cells of a chain: the even one of a pair for F64 (R246). -/
def cellSlot (k : AKind) (slot : Nat) : Nat := if k = .f64 then slot / 2 * 2 else slot

/-- The accumulator slot i of a workgroup. -/
def slotAt (w : Wg) (i : Nat) : Acc := (w.slots[i]?).getD Acc.init

/-! ## Products and K-steps (R71-R74) -/

/-- Element size in bytes (R249). -/
def mfmtBytes : MFmt → Nat
  | .e4m3 | .e5m2 | .lns6 | .int8 => 1
  | .f16 | .bf16 => 2
  | .f64 => 8

/-- K-step size (R74). -/
def mfmtStep : MFmt → Nat
  | .e4m3 | .e5m2 | .int8 => 4
  | .lns6 => 8
  | .f16 | .bf16 => 2
  | .f64 => 1

/-- The value of an element. -/
def mfmtVal (f : MFmt) (x : Nat) : Val :=
  match f with
  | .e4m3 => Fmt.e4m3.dec x
  | .e5m2 => Fmt.e5m2.dec x
  | .f16 => Fmt.f16.dec x
  | .bf16 => Fmt.bf16.dec x
  | .f64 => Fmt.f64.dec x
  | .lns6 => lnsDec x
  | .int8 => .ofInt x

/-- A floating product (R71, R74). -/
def fprod (c : MmaCtl) (a b : Nat) : Val :=
  match c.afmt with
  | .lns6 => lnsMul a b
  | .e4m3 | .e5m2 | .int8 | .f16 | .bf16 | .f64 => ((mfmtVal c.afmt a).mul (mfmtVal c.bfmt b)).1

/-- An INT8 operand (R72). -/
def int8 (signed : Bool) (x : Nat) : Int := if signed then (BitVec.ofNat 8 x).toInt else x

/-- A 40-bit cell as an integer (R72). -/
def int40 (w : W64) : Int := (w.setWidth 40).toInt

/-- One K-step of one cell: the new cell, and INT8 overflow (R72, R74). -/
def kstep (c : MmaCtl) (cell : W64) (abs : List (Nat × Nat)) : W64 × Bool :=
  match c.afmt with
  | .int8 =>
    let t := int40 cell + (abs.map (fun p => int8 c.asgn p.1 * int8 c.bsgn p.2)).sum
    (((BitVec.ofInt 40 t).setWidth 64), decide (t < -549755813888 ∨ 549755813887 < t))
  | .f64 =>
    (match abs with
      | p :: _ => (BitVec.ofNat 64 (Fmt.f64.round (((Fmt.f64.dec p.1).fma (Fmt.f64.dec p.2) (Fmt.f64.dec cell.toNat)).1)).1, false)
      | [] => (cell, false))
  | .e4m3 | .e5m2 | .lns6 | .f16 | .bf16 =>
    (match abs.map (fun p => fprod c p.1 p.2) with
      | v :: vs =>
        let sum := vs.foldl (fun a b => (a.add b).1) v
        (BitVec.ofNat 64 (Fmt.xf40.round ((Fmt.xf40.dec cell.toNat).add sum).1).1, false)
      | [] => (cell, false))

/-- The ks elements from k on of row i of an operand at `base` with row stride 16·st (R249). -/
def readRow (s : State) (w : Wg) (f : MFmt) (base st i k : Nat) : Rd × State :=
  readPiece s (some w) w.core w.cid [] 1 ((base + 16 * st * i + mfmtBytes f * k) % 2 ^ 64) (mfmtStep f * mfmtBytes f)

/-- Split bytes into elements. -/
def elems (z : Nat) : Nat → List Byte → List Nat
  | 0, _ => []
  | n + 1, bs => ofBytes (bs.take z) :: elems z n (bs.drop z)

/-- The rows of an operand from `i` on, latest first in `acc`. -/
def readRows (w : Wg) (f : MFmt) (base st k : Nat) : Nat → Nat → State → List (List Nat) → (Rd × List (List Nat)) × State
  | 0, _, s, acc => ((.ok [], acc.reverse), s)
  | n + 1, i, s, acc =>
    match readRow s w f base st i k with
    | (.ok bs, s) => readRows w f base st k n (i + 1) s (elems (mfmtBytes f) (mfmtStep f) bs :: acc)
    | (r, s) => ((r, []), s)

/-- M of a control word. -/
def ctlM (m : Fin 4) : Nat := 64 * (m.val + 1)

/-- All cells of a step. -/
def stepGrid (c : MmaCtl) (as bs : List (List Nat)) (g : Array W64) : Array W64 × Bool :=
  as.zipIdx.foldl
    (fun x a =>
      bs.zipIdx.foldl
        (fun x b =>
          let key := a.2 * 256 + b.2
          let r := kstep c (x.1.getD key 0) (a.1.zip b.1)
          (x.1.set! key r.1, x.2 || r.2)) x) (g, false)

/-! ## An MMA entry (R251, R256) -/

/-- Cells that a change to or from F64 leaves without a stated value are free (log entry 30): `z` bits of each. -/
def openCells (s : State) (m n z : Nat) : List (Nat × W64) :=
  ((List.range 65536).filter (fun k => !inRegion m n k)).filterMap (fun k =>
    let v := Config.freeChoice (s.fresh + k) % 2 ^ z
    if v = 0 then none else some (k, BitVec.ofNat 64 v))

/-- What an MMA does before its first K-step (R251). -/
def beginMma (s : State) (w : Wg) (xc : W64) (c : MmaCtl) (rank : Nat) : State :=
  let slot := c.slot.val
  let nc := ctlM c.n / Split.num c.split
  let m := ctlM c.m
  let kd := kindOf c.afmt
  let old := (slotAt w slot).kind
  let cross : Bool := (old == .f64) != (kd == .f64) && old != .empty
  let ids := slotsOf (kd == .f64) slot
  let kinds (s : State) : State := ids.foldl (fun s i => onSlot s w.id i (fun a => { a with kind := kd })) s
  let s := if c.zero then
      let s := kinds s
      let s := onSlot s w.id (cellSlot kd slot) (fun a => { a with cells := if cross then openCells s m nc (if kd = .f64 then 64 else 40) else zeroRegion m nc a.cells })
      let s := if cross then { s with fresh := s.fresh + 65536 } else s
      onSlot s w.id slot (fun a =>
        { a with ovf := false, latch := if c.scale then a.latch else Vector.replicate 16 0x38, lv := if c.scale then a.lv else false })
    else if old = .empty then kinds s else s
  if c.scale then
    let idx := bits xc.toNat 48 16
    let sa (i : Nat) : Byte := scaleByte w (idx + i)
    let sb (i : Nat) : Byte := scaleByte w (idx + m / 32 + rank * nc / 32 + i)
    onSlot s w.id slot (fun a =>
      { a with
        lv := true
        latch := Vector.ofFn (fun i : Fin 16 =>
          if i.val < 8 then (if i.val < m / 32 then sa i.val else a.latch[i])
          else if i.val - 8 < nc / 32 then sb (i.val - 8) else a.latch[i]) })
  else s

/-- Change the oldest entry of a workgroup's matrix queue. -/
def onHead (s : State) (w : Nat) (f : MEnt → MEnt) : State :=
  s.onWg w (fun x => { x with mq := match x.mq with | [] => [] | e :: es => f e :: es })

/-- An access of the matrix unit failed: the entry suspends on a page, or the workgroup is terminated (R256). -/
def matrixErr (s : State) (w : Wg) (kind : Nat) (r : Rd) : Out :=
  match r with
  | .ok _ => .next s
  | .bad c a i => .next (matrixFault s ((s.wg? w.id).getD w) c a i)
  | .absent va =>
    let x := pageRequest s w.cid va kind (.matrix w.id)
    .next (onHead x.2 w.id (fun e => { e with susp := some x.1 }))
  | .hole pa => .fault (.noSuchMemory pa)

/-- One K-step of an MMA (R74, R251). -/
def mmaStep (s : State) (w : Wg) (xa xb xc : W64) (c : MmaCtl) (rank : Nat) : Out :=
  let q := w.mstep
  let ks := mfmtStep c.afmt
  let nc := ctlM c.n / Split.num c.split
  match readRows w c.afmt xa.toNat (bits xc.toNat 0 16) (q * ks) (ctlM c.m) 0 s [] with
  | ((.ok _, as), s) =>
    (match readRows w c.bfmt xb.toNat (bits xc.toNat 16 16) (q * ks) nc (rank * nc) s [] with
      | ((.ok _, bs), s) =>
        let slot := cellSlot (kindOf c.afmt) c.slot.val
        let r := stepGrid c as bs (gridOf (slotAt ((s.wg? w.id).getD w) slot).cells)
        let s := onSlot s w.id slot (fun a => { a with cells := cellsOf r.1 })
        let s := onSlot s w.id c.slot.val (fun a => { a with ovf := a.ovf || r.2 })
        .next (s.onWg w.id (fun x => { x with mstep := q + 1 }))
      | ((r, _), s) => matrixErr s w 1 r)
  | ((r, _), s) => matrixErr s w 1 r

/-- Does a save wait for a matrix entry: a drain under way, or one that an incomplete token covers (R260, R327). -/
def entryMust (s : State) (w : Nat) (e : MEnt) : Bool :=
  (e.begun && (match e.op with | .mdrain _ _ _ _ => true | .mma _ _ _ _ _ | .mzero _ | .mldsc _ _ _ | .mstat _ _ _ => false))
    || tokenOn s w (fun k => k.kinds.getLsbD 5 && e.uid < k.mx)

/-- The oldest entry of a workgroup's matrix queue runs, unless it is suspended; while the gang is being saved only one that the save
waits for (R253, R260, R327). -/
def onEntry (w : Nat) (s : State) (k : Wg → MEnt → Out) : Out :=
  match s.wg? w with
  | none => .next s
  | some x =>
    match x.mq with
    | [] => .next s
    | e :: _ => due (e.susp.isNone && engineGoes s x (entryMust s w e)) s (k x e)

/-- K-steps of an MMA. -/
def mmaSteps (xc : W64) (c : MmaCtl) : Nat := bits xc.toNat 32 16 / mfmtStep c.afmt

/-- MMA_ENTRY (R251): the entry begins, and runs its next K-step. -/
def execMmaEntry (w : Nat) (s : State) : Out :=
  onEntry w s (fun x e =>
    match e.op with
    | .mma xa xb xc c rank =>
      let s := if e.begun then s else onHead (beginMma s x xc c rank) w (fun e => { e with begun := true })
      due (x.mstep < mmaSteps xc c) s (mmaStep s ((s.wg? w).getD x) xa xb xc c rank)
    | .mdrain _ _ _ _ | .mzero _ | .mldsc _ _ _ | .mstat _ _ _ => .next s)

/-! ## A drain (R76, R257) -/

/-- Bytes per element of a DFMT (R257). -/
def dfmtBytes : DFmt → Nat
  | .f32 | .s32 => 4
  | .f16 | .bf16 => 2
  | .e4m3 | .e5m2 | .lns6 | .s8 => 1
  | .f64 | .xf40 => 8

/-- A destination element as a value (R76). -/
def dfmtVal (f : DFmt) (x : Nat) : Val :=
  match f with
  | .f32 => Fmt.f32.dec x
  | .f16 => Fmt.f16.dec x
  | .bf16 => Fmt.bf16.dec x
  | .e4m3 => Fmt.e4m3.dec x
  | .e5m2 => Fmt.e5m2.dec x
  | .lns6 => lnsDec x
  | .s8 => .ofInt (BitVec.ofNat 8 x).toInt
  | .s32 => .ofInt (BitVec.ofNat 32 x).toInt
  | .f64 => Fmt.f64.dec x
  | .xf40 => Fmt.xf40.dec x

/-- RoundTo (R76). -/
def dfmtOut (f : DFmt) (v : Val) : Nat :=
  match f with
  | .f32 => (Fmt.f32.round v).1
  | .f16 => (Fmt.f16.round v).1
  | .bf16 => (Fmt.bf16.round v).1
  | .e4m3 => (Fmt.e4m3.round v).1
  | .e5m2 => (Fmt.e5m2.round v).1
  | .lns6 => (lnsRound v).1
  | .s8 => (BitVec.ofInt 8 (v.toInt .nearest (-128) 127).1).toNat
  | .s32 => (BitVec.ofInt 32 (v.toInt .nearest (-2147483648) 2147483647).1).toNat
  | .f64 => (Fmt.f64.round v).1
  | .xf40 => (Fmt.xf40.round v).1

/-- The value of an accumulated cell (R76, R257). -/
def cellVal (k : AKind) (cell : W64) : Val :=
  match k with
  | .empty | .float => Fmt.xf40.dec (cell.toNat % 2 ^ 40)
  | .int => .ofInt (int40 cell)
  | .f64 => Fmt.f64.dec cell.toNat

/-- The bits that one cell drains to (R76). -/
def drainCell (a : Acc) (k : AKind) (c : DrainCtl) (xc : W64) (i j : Nat) (cell : W64) (old : Nat) : Nat :=
  match c.dfmt with
  | .xf40 => cell.toNat
  | .f32 | .f16 | .bf16 | .e4m3 | .e5m2 | .lns6 | .s8 | .s32 | .f64 =>
    let by' (v x : Val) : Val := (v.mul x).1
    let v := by' (by' (cellVal k cell) (Fmt.f32.dec (bits xc.toNat 0 32))) (Fmt.f32.dec (bits xc.toNat 32 32))
    let v := if a.lv && c.scale then
        by' (by' v (Fmt.e4m3.dec ((a.latch[(Fin.ofNat 16 (i / 32))]).toNat))) (Fmt.e4m3.dec ((a.latch[(Fin.ofNat 16 (8 + j / 32))]).toNat))
      else v
    let v := if c.add then (v.add (dfmtVal c.dfmt old)).1 else v
    dfmtOut c.dfmt v

/-- Do the pieces of a span resolve for a KIND (R256): the first failure, if any. -/
def spanErr (w : Wg) (kind : Nat) : List (Nat × Nat) → State → Option Rd × State
  | [], s => (none, s)
  | p :: ps, s =>
    let x := resolve s (some w) w.core w.cid p.1 p.2 kind
    let a := BitVec.ofNat 64 p.1
    match x.1 with
    | .ok _ => spanErr w kind ps x.2
    | .prot r => (some (.bad cPROT a (info306 r kind)), x.2)
    | .memerr => (some (.bad cMEMERR a (info306 0 7)), x.2)
    | .absent => (some (.absent p.1), x.2)
    | .hole pa => (some (.hole pa), x.2)

/-- One row of a drain (R257): nothing of it is written unless all of it can be. -/
def drainRow (s : State) (w : Wg) (e : MEnt) (xa xb xc : W64) (c : DrainCtl) : Out :=
  let i := e.row
  let n := ctlM c.n
  let z := dfmtBytes c.dfmt
  let kind := if c.add then 3 else 2
  let base := (xa.toNat + i * xb.toNat) % 2 ^ 64
  match spanErr w kind (pieces base (n * z)) s with
  | (some r, s) => matrixErr s w kind r
  | (none, s) =>
    match (if c.add then engineRead s (some w) w.core w.cid [] base (n * z) 1 else (.ok [], s)) with
    | (.ok old, s) =>
      let a := slotAt w c.slot.val
      let g := gridOf (slotAt w (cellSlot a.kind c.slot.val)).cells
      let bytes := (List.range n).flatMap (fun j =>
        bytesLE z (drainCell a a.kind c xc i j (g.getD (i * 256 + j) 0) (ofBytes ((old.drop (j * z)).take z))))
      (match engineWrite s (some w) w.core w.cid base bytes with
        | ((.ok _, _), s) =>
          let s := onHead s w.id (fun e => { e with row := i + 1 })
          if i + 1 < ctlM c.m ∨ c.keep then .next s
          else .next (onSlot s w.id (cellSlot a.kind c.slot.val) (fun a => { a with cells := zeroRegion (ctlM c.m) n a.cells }))
        | ((r, _), s) => matrixErr s w kind r)
    | (r, s) => matrixErr s w 1 r

/-- MDRAIN_ENTRY (R257): the entry drains its next row. -/
def execMdrainEntry (w : Nat) (s : State) : Out :=
  onEntry w s (fun x e =>
    match e.op with
    | .mdrain xa xb xc c => due (e.row < ctlM c.m) s (drainRow (onHead s w (fun e => { e with begun := true })) x e xa xb xc c)
    | .mma _ _ _ _ _ | .mzero _ | .mldsc _ _ _ | .mstat _ _ _ => .next s)

/-! ## MCTL entries and completion -/

/-- The slot a MZERO clears, or the pair (R258). -/
def zeroSlots (s : State) (w : Wg) (slot : Nat) : State :=
  (slotsOf ((slotAt w slot).kind == .f64) slot).foldl (fun s i => onSlot s w.id i (fun _ => Acc.init)) s

/-- MCTL_ENTRY (R258): MZERO clears, MLDSC copies the bytes of the window as they then are (R253), MSTAT answers its thread and then
clears OVF. -/
def execMctlEntry (w : Nat) (s : State) : Out :=
  onEntry w s (fun x e =>
    due (!e.begun) s
      (let s' := onHead s w (fun e => { e with begun := true })
       match e.op with
       | .mzero slot => .next (zeroSlots s' x slot)
       | .mldsc src cnt didx =>
         let bytes := readBytes s.mem (scratchKey x.core (x.base + (src - localBase))) cnt
         .next (s'.onWg w (fun x =>
           { x with scale := (bytes.zipIdx.map (fun b => (didx + b.2, b.1))) ++ x.scale.filter (fun b => b.1 < didx || didx + cnt ≤ b.1) }))
       | .mstat slot t d =>
         let v := BitVec.ofNat 64 (mrp x)
         let s' := (match s.thread? t with
           | some th => if th.wait = .mstat e.uid then wake s' t 1 (fun r => r.setX d v) else s'
           | none => s')
         .next (onSlot s' w slot (fun a => { a with ovf := false }))
       | .mma _ _ _ _ _ | .mdrain _ _ _ _ => .next s))

/-- Has an entry done all it does. -/
def entryOver (w : Wg) (e : MEnt) : Bool :=
  match e.op with
  | .mma _ _ xc c _ => e.begun && mmaSteps xc c ≤ w.mstep
  | .mdrain _ _ _ c => ctlM c.m ≤ e.row
  | .mzero _ | .mldsc _ _ _ | .mstat _ _ _ => e.begun

/-- MATRIX_ENTRY_COMPLETE (R253, R255): the oldest entry leaves the queue and the tiles counter; STEP is 0 again. -/
def execMatrixEntryComplete (w : Nat) (s : State) : Out :=
  onEntry w s (fun x e => due (entryOver x e) s (.next (s.onWg w (fun x => { x with mq := x.mq.drop 1, mstep := 0 }))))

/-- MMA_RESUME (R256): the fault is serviced, and the entry goes on at STEP. -/
def execMmaResume (w : Nat) (s : State) : Out :=
  match s.wg? w with
  | none => .next s
  | some x =>
    match x.mq.head?.bind (·.susp) with
    | none => .next s
    | some rid =>
      due (!((s.ctx? x.cid).map (fun c => c.preqs.any (fun r => r.rid == rid))).getD false) s
        (.next (onHead s w (fun e => { e with susp := none })))

end Sys2Proof.Machine
end

