-- ==== Sys2Proof/Machine/EvPage.lean ====
section
/-! DEFINITION. Walks (R314) and the pager's rings (R320). -/

namespace Sys2Proof.Machine

/-- PAGE_WALK (R314): after a miss in the core's TLB and its die's second level, a walk's leaf is held in both. -/
def execPageWalk (core cid va : Nat) (s : State) : Out :=
  due (hasL1 core && va < 72057594037927936 && (tlbFind (s.core core).tlb cid va).isNone) s (.next (xlate s core cid va 0).2)

/-- The context that a request belongs to. -/
def reqOf (s : State) (rid : Nat) : Option (Ctx × PReq) :=
  (s.ctxs.flatMap (fun c => (c.preqs.filter (fun r => r.rid == rid)).map (fun r => (c, r)))).head?

/-- Requests that the pager's ring holds (R320). -/
def pagerRequests : Nat := 62
/-- Responses that the pager's ring holds (R320). -/
def pagerResponses : Nat := 124

/-- The 32 bytes of a request (R320). -/
def requestBytes (s : State) (cid : Nat) (r : PReq) : List Byte :=
  bytesLE 8 r.va ++ bytesLE 8 (r.kind + cid * 2 ^ 16 + r.rid % 2 ^ 32 * 2 ^ 32) ++ bytesLE 8 s.tick ++ bytesLE 8 0

/-- PAGE_REQUEST (R315, R320): the request is written and TAIL advanced; with the ring full it waits. -/
def execPageRequest (rid : Nat) (s : State) : Out :=
  match reqOf s rid with
  | none => .next s
  | some (c, r) =>
    let pager := c.desc.pager
    let tail := devNum s c.cid pager 4
    let head := devNum s c.cid (pager + 4) 4
    due (!r.posted && (tail + 4294967296 - head) % 4294967296 < pagerRequests) s
      (let s := devPut s c.cid (pager + 0x40 + 32 * (tail % pagerRequests)) (requestBytes s c.cid r)
       let s := devPut s.drainEgress c.cid pager (bytesLE 4 (tail + 1))
       .next (s.onCtx c.cid (fun c => { c with preqs := updFirst (fun x => x.rid == rid) (fun x => { x with posted := true }) c.preqs })))

/-- The request is answered: nobody waits for it any more. -/
def dropReq (s : State) (cid rid : Nat) : State := s.onCtx cid (fun c => { c with preqs := c.preqs.filter (fun r => r.rid != rid) })

/-- The pager's answer to a request (R315, R320). -/
def answerReq (s : State) (cid : Nat) (r : PReq) (resolve : Bool) : State :=
  if resolve then
    match walk s cid r.va with
    | .absent => reRequest s cid r.rid
    | .leaf _ _ | .bad _ | .memerr | .hole _ => dropReq s cid r.rid
  else r.who.foldl (fun s who => rejectWho s cid r.va r.kind who) (dropReq s cid r.rid)

/-- PAGER_RESPONSE (R320): the next answer of the response ring; one that names no pending request is ignored. -/
def execPagerResponse (cid : Nat) (s : State) : Out :=
  match s.ctx? cid with
  | none => .next s
  | some c =>
    let ring := c.desc.pager + 0x800
    let tail := devNum s cid ring 4
    let head := devNum s cid (ring + 4) 4
    due (tail != head) s
      (let w := devNum s cid (ring + 0x40 + 16 * (head % pagerResponses)) 8
       let s := devPut s cid (ring + 4) (bytesLE 4 (head + 1))
       .next (match c.preqs.find? (fun r => r.posted && r.rid % 2 ^ 32 == bits w 0 32) with
         | some r => answerReq s cid r (bits w 32 1 == 1)
         | none => s))

end Sys2Proof.Machine
end

