-- ==== Sys2Proof/Machine/Pipes.lean ====
section
/-! DEFINITION. The issue pipes of a core (R79, R100, R101, R160). -/

namespace Sys2Proof.Machine

/-- FRCP, FRSQ, FSQRT and the functions, which run on L1 alone at 16 lanes a tick (R79). -/
def slowUnary (w : Nat) : Bool := !bit w 31 && fld w 25 6 == 0x20 && 2 ≤ fld w 0 5 && fld w 0 5 ≤ 10

/-- The pipes that an instruction may issue to, from its main word (R79, R101, R160). -/
def pipesOf (w : Nat) : List Pipe :=
  let op := fld w 25 6
  if bit w 31 then
    if op == 0x3C then (if fld w 6 3 == 2 || fld w 6 3 == 6 then [.k] else [.m])
    else if op == 0x3D then (if fld w 3 3 == 1 then [.k] else [.m])
    else if op == 0x1E || op == 0x1F || (0x38 ≤ op && op ≤ 0x3E) then [.m]
    else if (1 ≤ op && op ≤ 0x1D) || op == 0x2C then [.g]
    else [.k]
  else if 0x2D ≤ op then [.m]
  else if slowUnary w then [.l1] else [.l0, .l1]

/-- Does an instruction ask the memory path for something (R160, R198)? -/
def usesPath (w : Nat) : Bool :=
  let op := fld w 25 6
  pipesOf w == [.m] && (!bit w 31 || op ≤ 0x1F || op == 0x3C)

/-- n / k, rounded up. -/
def ceilDiv (n k : Nat) : Nat := (n + k - 1) / k

/-- Do the tags of a row's sources allow the compact form (R100)? Literals and immediates are the same in every thread. -/
def compactTags (tag : RegName → Nat) (row : Row) : Bool :=
  match row with
  | .early (.wadd _ _ a b) | .early (.wsub _ _ a b) => (.x a :: b9R b).all (fun r => tag r ≤ 1)
  | .early (.wmul _ _ a b) => (.x a :: b9R b).all (fun r => tag r ≤ 1) && decide (((RegName.x a :: b9R b).filter (fun r => tag r == 1)).length ≤ 1)
  | .early (.wshl _ _ a b) => tag (.x a) ≤ 1 && (b9R b).all (fun r => tag r == 0)
  | .early (.wmov _ _ a) | .early (.wnot _ _ a) | .early (.wneg _ _ a) | .early (.x2v _ _ a) => tag (.x a) ≤ 1
  | .early (.v2x _ _ a) | .early (.v2xs _ _ a) => (src8R a).all (fun r => tag r ≤ 1)
  | row => (rowReads row).all (fun r => tag r == 0)

/-- Rows that never run compact (R100). -/
def neverCompact : Row → Bool
  | .early (.wsel g _ _ _) => g.isSome
  | .early (.v2x _ _ a) | .early (.v2xs _ _ a) => (match a with | .o _ | .lr | .tid | .lane => true | .v _ | .x _ | .lit _ | .zero => false)
  | .early (.tagof _ _ _) | .early (.fmtof _ _ _) => true
  | _ => false

/-- The tag of a v or x register; what has no tag counts as U (R100, R166). -/
def regTag (s : State) (t : Thread) : RegName → Nat
  | .v n => tagOf s t (.v n)
  | .x n => tagOf s t (.x n)
  | .o _ | .lr | .p _ => 0

/-- V2X and V2XS keep an affine source only where the value does not wrap across the live threads (R100). -/
def keepsSlope (s : State) (t : Thread) : Row → Bool
  | .early (.v2x _ _ (.v n)) =>
    tagOfVals ((tagGroup s t).map (fun x => (x.tid, (x.r.getV n).setWidth 64))) ≤ 1
  | .early (.v2xs _ _ (.v n)) =>
    tagOfVals ((tagGroup s t).map (fun x => (x.tid, (x.r.getV n).signExtend 64))) ≤ 1
  | _ => true

/-- Does an instruction of G run compact for one workgroup's threads in a sheaf (R100)? -/
def compact (s : State) (w : Nat) (row : Row) (ts : List Thread) : Bool :=
  match ts with
  | [] => true
  | t :: us =>
    us.all (fun u => u.r.holds (guardOf w) == t.r.holds (guardOf w)) && !neverCompact row && keepsSlope s t row
      && compactTags (regTag s t) row

/-- Ticks for which a sheaf holds G: for each workgroup one, or its threads over the lanes of a tick (R100, R101). -/
def holdG (s : State) (w : Nat) (row : Row) (ts : List Thread) : Nat :=
  let lanes := match row with | .early (.dsqrt _ _ _) | .early (.drcp _ _ _) => 4 | _ => 16
  (((ts.map (fun t => refWg t.ref)).eraseDups).map (fun g =>
    let us := ts.filter (fun t => refWg t.ref == g)
    if compact s w row us then 1 else ceilDiv us.length lanes)).sum

/-- Ticks for which a sheaf holds its pipe (R160). -/
def holdOf (s : State) (p : Pipe) (f : Fetched) (ts : List Thread) : Nat :=
  match p with
  | .l1 => if slowUnary f.1 then ceilDiv ts.length 16 else 1
  | .g => (match f.2 with | .ok row => holdG s f.1 row ts | .err _ => 1)
  | .l0 | .m | .k => 1

/-- Is a pipe of a core free in this tick (R160)? -/
def pipeFree (s : State) (c : Core) (p : Pipe) : Bool := c.pipes.all (fun x => !(x.1 == p) || x.2 ≤ s.tick)

/-- Requests that a core's memory path has outstanding (R160, R198). -/
def pathUse (s : State) (core : Nat) : Nat := ((s.all.filter (fun t => t.core == core)).map (fun t => t.mops.length)).sum

/-- The pipe that a thread's instruction can issue to now with its sheaf: a free one, and for memory room in the path (R159, R160). -/
def canIssue (s : State) (core : Nat) (rs : List Thread) (t : Thread) : Option (Pipe × Fetched) :=
  match nextFetched s t with
  | none => none
  | some f =>
    match (pipesOf f.1).find? (pipeFree s (s.core core)) with
    | none => none
    | some p =>
      if usesPath f.1 && Config.coreRequests < pathUse s core + (sheafWith rs t).length + 1 then none else some (p, f)

end Sys2Proof.Machine
end

