-- ==== Sys2Proof/Machine/EvPick.lean ====
section
/-! DEFINITION. The picker (R158-R163), fetch ahead of issue (R158, R194) and results that become ready (R19). -/

namespace Sys2Proof.Machine

/-- The picks a core has made in this tick (R159). -/
def picksMade (s : State) (core : Nat) : Nat := if (s.core core).picks.1 = s.tick then (s.core core).picks.2 else 0

/-- Has a tick no place for another pick of a core: it has made two, or a core of a higher number has picked already, so that the
picks of one tick come in the order of the cores (R159; log entry 5). -/
def tickFull (s : State) (core : Nat) : Bool :=
  2 ≤ picksMade s core || s.cores.any (fun c => core < c.num && 0 < picksMade s c.num)

/-- The thread that a pick takes, with its pipe: the reserved thread of R161, else the oldest that can issue (R159). -/
def firstOf (s : State) (core : Nat) (rs : List Thread) : Option (Thread × Pipe × Fetched) :=
  let can := rs.filter (fun t => (canIssue s core rs t).isSome)
  let t0 := match (s.core core).urgent.bind (fun u => can.find? (fun t => t.ref == u)) with
    | some t => some t
    | none => preferred can
  t0.bind (fun t => (canIssue s core rs t).map (fun p => (t, p)))

/-- PICK (R159-R161): one of the two picks of a core in a tick. The sheaf issues in order; every other ready thread ages, on an empty
pick too. -/
def execPick (core : Nat) (s : State) : Out :=
  let s := if tickFull s core then tickUp s else s
  let n := picksMade s core + 1
  let rs := s.threads.filter (fun t => t.core == core && !t.picked && ready s t)
  let s0 := s.onCore core (fun c => { c with picks := (s.tick, n) })
  let older (out : List TRef) (t : Thread) : Thread :=
    if out.contains t.ref then { t with age := 0, picked := true }
    else if rs.any (fun x => x.ref == t.ref) then { t with age := t.age + 1 } else t
  match firstOf s core rs with
  | none => .next { s0 with threads := s0.threads.map (older []) }
  | some (t0, p, f) =>
    let ts := sheafOrder f.1 (t0 :: sheafWith rs t0)
    let out := ts.map (·.ref)
    let s1 := s0.onCore core (fun c =>
      { c with
        urgent := if c.urgent == some t0.ref then none else c.urgent
        pipes := (p, s.tick + holdOf s p f ts) :: c.pipes.filter (fun x => x.1 != p) })
    .next (selectNext out { s1 with threads := s1.threads.map (older out) })

/-- AGE_CAP (R161): a ready thread of age 4,096 has its pipe reserved. -/
def execAgeCap (t : TRef) (s : State) : Out :=
  match s.threads.find? (fun x => x.ref == t) with
  | none => .next s
  | some x =>
    due (Config.ageCap ≤ x.age && ready s x && (s.core x.core).urgent.isNone) s
      (.next (s.onCore x.core (fun c => { c with urgent := some t })))

/-- The threads of a workgroup held at a BRD target, and the tick of the first (R163). -/
def heldAt (s : State) (w : Nat) (target : W64) : List (TRef × Nat) :=
  (liveOf s w).filterMap (fun t => match t.wait with | .hold a n => if a == target then some (t.ref, n) else none | _ => none)

/-- Is every live thread of the workgroup held, or not ready for a reason other than a pending operand (R163)? -/
def allGathered (s : State) (w : Nat) : Bool :=
  (liveOf s w).all (fun t =>
    t.halted || !waitMet s t || (match t.wait with | .hold _ _ => true | _ => false)
      || (match nextFetched s t with
          | some (_, .ok row) => (rowRegs row).any (pendingBy { t with mops := [] }) || (spilledReg s t row).isSome
          | some (_, .err _) | none => false))

/-- REGROUP_RELEASE (R163): the window has passed since the first arrived, or every live thread is gathered. -/
def execRegroupRelease (w : Nat) (target : W64) (s : State) : Out :=
  let hs := heldAt s w target
  let win := (((s.wg? w).bind s.lrecOf).map (·.regroup)).getD 0
  let first := (least (hs.map (·.2))).getD s.tick
  due (hs != [] && (first + win ≤ s.tick || allGathered s w)) s
    (.next (hs.foldl (fun s h => s.onThread h.1 (fun t => { t with wait := .none })) s))

/-- Which words at a thread's PC the instruction cache has given up since they were fetched is not architectural: each of them is read
again, or is the old word, decided independently for each (R194; log entry 7). -/
def iDrop (s : State) (t : Thread) : State :=
  let pc := t.r.pc.toNat
  let c := Config.freeChoice s.fresh
  { s with fresh := s.fresh + 1 }.onCore t.core (fun x =>
    { x with icache := x.icache.filter (fun e => !(e.cid == t.cid && pc ≤ e.va && e.va < pc + 12 && c.testBit ((e.va - pc) / 4))) })

/-- INSTRUCTION_FETCH (R14, R158, R194, R315): the words at PC come into the instruction cache, or the fetch traps, or the
thread parks on a page request; inside a speculation it waits for the fence (R210). -/
def execInstructionFetch (t : TRef) (s : State) : Out :=
  match s.threads.find? (fun x => x.ref == t) with
  | none => .next s
  | some x =>
    due (!x.exited && x.wait == .none && !x.halted) s
      (match fetchInstr (iDrop s x) x with
       | (.ok _, s) => .next s
       | (.trap c a i, s) => .next (takeTrap s t c x.r.pc a i)
       | (.hole pa, _) => .fault (.noSuchMemory pa)
       | (.absent va, s) =>
         let a := BitVec.ofNat 64 va
         if x.fence.isSome then .next (s.onThread t (fun y => { y with wait := .fence }))
         else if rejected x va then .next (takeTrap s t cPAGE x.r.pc a (info306 0 4))
         else
           let r := pageRequest s x.cid va 4 (.thread t)
           .next (r.2.onThread t (fun y => { y with wait := .page r.1 })))

/-- RESULT_WRITEBACK (R19): a pipe's result is ready, and what stalled on it may issue. -/
def execResultWriteback (t : TRef) (r : RegName) (s : State) : Out :=
  .next (s.onThread t (fun x => { x with board := x.board.filter (fun b => b.reg != r) }))

end Sys2Proof.Machine
end

