-- ==== Sys2Proof/Machine/EvReplica.lean ====
section
/-! DEFINITION. What the replica engines and the aggregator do by themselves (R262-R274). -/

namespace Sys2Proof.Machine

/-- A thread of a context that waits for a region on a core (R266). -/
def regionWaiter (s : State) (core cid region : Nat) : Option Thread :=
  s.all.find? (fun t => t.core == core && t.cid == cid && t.wait == .region region)

/-- REGION_LOAD (R262): the region is loaded as loads of a waiting thread; one that fails makes the thread issue again, and the
call takes the trap or parks. -/
def execRegionLoad (core cid region : Nat) (s : State) : Out :=
  match regionWaiter s core cid region with
  | none => .next s
  | some t =>
    due ((residentOf s core cid region).isNone && !t.mops.any (fun m => m.acq || m.isAtom)) s
      (match fetchRegion s t region (fun _ => false) with
       | (.ok d desc im, s') =>
         if storeRoom (s'.core core) cid region im.length then .next (makeResident s' core cid region d desc im false) else .next s
       | (_, s') => .next (s'.onThread t.ref (fun x => { x with wait := .none })))

/-- A call's result registers are written, unless the caller has ended (R165, R266). -/
def giveResults (s : State) (caller : TRef) (call resv : Nat) (ys : List W32) : State :=
  s.onThread caller (fun c =>
    if c.exited || !c.rpend.any (fun p => p.call == call) then c
    else { c.late (fun r => r.setRange resv ys) with rpend := c.rpend.filter (fun p => p.call != call) })

/-- The restoration entry of an evaluation (R266, R267). -/
def evalEntry (d : RDesc) (v : Eval) (kind : RestKind) : RestEntry :=
  { uid := v.uid, upto := v.upto, kind, caller := v.caller, w := v.w, cid := v.cid, region := v.region, args := v.args, xs := v.xs, resv := v.resv
    resc := v.resc, call := v.call, exactpc := BitVec.ofNat 64 d.exactpc, metric := d.metric, qb := BitVec.ofNat 32 d.qb
    floor := BitVec.ofNat 32 d.floor }

/-- Is a call sampled (R266). -/
def isSampled (d : RDesc) (c : Nat) : Bool := d.k != 31 && (c + d.phase) % 2 ^ d.k == 0

/-- Is the surrogate's answer rejected (R266). -/
def isRejected (d : RDesc) (e : Nat) : Bool := (f32v e).isNan || (f32v d.qb).lt (f32v e)

/-- An evaluation's outcome (R266): counts, and the answer, a sample entry or a fallback entry. -/
def finishEval (s : State) (core : Nat) (v : Eval) : State :=
  let d := RDesc.ofBytes v.desc
  let r := surrogate d v.image (v.args.map (·.toNat))
  let ys : List W32 := r.1.map (BitVec.ofNat 32)
  let s := bump s v.cid v.region 0
  let gone : Bool := ((s.thread? v.caller).map (·.exited)).getD true
  let queue (s : State) (k : RestKind) : State := if gone then s else s.onCore core (fun c => { c with restq := c.restq ++ [evalEntry d v k] })
  if v.sonly then giveResults s v.caller v.call v.resv ys
  else
    let reject := isRejected d r.2
    let s := if reject then bump s v.cid v.region 1 else s
    if isSampled d v.c then queue (bump s v.cid v.region 2) (.sample ys (!reject))
    else if reject then queue s .fallback
    else giveResults s v.caller v.call v.resv ys

/-- SURROGATE_EVALUATION (R265, R266): evaluation n of a core completes. -/
def execSurrogateEvaluation (core n : Nat) (s : State) : Out :=
  match (s.core core).evals[n]? with
  | none => .next s
  | some v => .next (finishEval (s.onCore core (fun c => { c with evals := c.evals.eraseIdx n })) core v)

/-- A free restoration slot of a workgroup (R156, R267). -/
def freeRest (s : State) (w : Wg) (l : LRec) : Option Nat :=
  (List.range l.rslots).find? (fun r => !s.all.any (fun t => t.ref == .rest w.id r))

/-- A restoration thread at its start (R267). -/
def restThread (s : State) (w : Wg) (l : LRec) (r : Nat) (e : RestEntry) : Thread :=
  let pos := l.wgsize + r
  { Thread.idle with
    ref := .rest w.id r, cid := w.cid, core := w.core, slot := 64 * (w.rows[pos / 64]?).getD 0 + pos % 64
    tid := ((s.thread? e.caller).map (·.tid)).getD 0, rest := some e
    r := { (Regs.start.setRange 0 e.args) with
      x := Vector.ofFn (fun i : Fin 64 => if i.val < 8 then (e.xs[i.val]?).getD 0 else 0), pc := e.exactpc } }

/-- RESTORATION_START (R267): entry n of a core's queue starts in a free restoration slot of its workgroup, after the accesses that the
caller made before the call. -/
def execRestorationStart (core n : Nat) (s : State) : Out :=
  match (s.core core).restq[n]? with
  | none => .next s
  | some e =>
    match s.wg? e.w with
    | none => .next s
    | some w =>
      match s.lrecOf w with
      | none => .next s
      | some l =>
        due (((s.gang? w.gang).map (fun g => g.way != .save)).getD false
            && ((s.thread? e.caller).map (fun t => t.mops.all (fun m => e.upto ≤ m.id))).getD true) s
          (match freeRest s w l with
           | none => .next s
           | some r =>
             let t := restThread s w l r e
             let s := s.onCore core (fun c => { c with restq := c.restq.eraseIdx n })
             .next { s with threads := s.threads ++ [t] })

/-- VIOLATION_REPORT (R272): violation n reaches the aggregator. -/
def execViolationReport (n : Nat) (s : State) : Out :=
  match s.viol[n]? with
  | none => .next s
  | some v => .next (countViolation { s with viol := s.viol.eraseIdx n } v.2.1 v.2.2)

/-- A core applies the oldest broadcast it has for a region, at its gate in a replay (R272, R273, R348, R351). -/
def applyBroadcast (disable : Bool) (core cid region : Nat) (s : State) : Out :=
  match (s.core core).todo.find? (fun x => x.1 == cid && x.2.1 == region) with
  | none => .next s
  | some b =>
    due (b.2.2 == disable) s
      (match gateTake s cid core core 0xFFF 0 with
       | none => .next s
       | some (s, _) =>
         .next ((logWin s cid core core 0xFFF).onCore core (fun c =>
           { c with
             todo := c.todo.erase b
             states := (cid, region, if disable then 2 else 1) :: c.states.filter (fun x => !(x.1 == cid && x.2.1 == region))
             store := if disable then c.store else c.store.filter (fun r => !(r.cid == cid && r.region == region)) })))

/-- DISABLE_APPLY (R272). -/
def execDisableApply (core cid region : Nat) (s : State) : Out := applyBroadcast true core cid region s

/-- ENABLE_APPLY (R273): the resident copy is discarded. -/
def execEnableApply (core cid region : Nat) (s : State) : Out := applyBroadcast false core cid region s

/-- COUNTER_BLOCK_WRITE (R263). -/
def execCounterBlockWrite (cid region : Nat) (s : State) : Out := .next (writeBlock s cid region)

end Sys2Proof.Machine
end

