-- ==== Sys2Proof/Machine/EvSpill.lean ====
section
/-! DEFINITION. The refill of a spilled register (R172). -/

namespace Sys2Proof.Machine

/-- SPILL_REFILL (R172): a spilled register that an instruction names comes back. -/
def execSpillRefill (w : Nat) (r : VXReg) (s : State) : Out :=
  match s.wg? w with
  | none => .next s
  | some x =>
    match x.spilled.find? (fun y => y.1 == r) with
    | none => .next s
    | some y => .next (refill s x r y.2)

end Sys2Proof.Machine
end

