-- ==== Sys2Proof/Machine/EvWorklist.lean ====
section
/-! DEFINITION. What the worklists' units do on their own: refreshes and termination (R284, R294), pushes and pops that
waited (R288, R289), the records' moves and spills (R292, R293, R297). -/

namespace Sys2Proof.Machine

/-! ## Refreshes (R284) and termination (R294) -/

/-- Is a participant parked in WLPOP, one of a saved context as it was at the save (R294). -/
def partParked (s : State) (cid : Nat) (wl : Fin 4) (t : TRef) : Bool :=
  let saved := ((s.ctx? cid).map (fun c => c.saved.flatMap (·.threads))).getD []
  (s.all ++ saved).any (fun x => x.ref == t && (match x.wait with | .wlpop l _ _ _ => l == wl | _ => false))

/-- The conditions of R294 at one refresh, but for the unchanged counts. -/
def wlIdle (s : State) (cid : Nat) (wl : Fin 4) (w : Worklist) : Bool :=
  (present s cid wl w).isEmpty && w.tasks.isEmpty && w.join ≤ w.joined && w.parts.all (partParked s cid wl) && w.peersReady

/-- Termination (R294): every parked WLPOP returns status 2, one that is saved at its restore (R335). -/
def wlTerminate (s : State) (cid : Nat) (wl : Fin 4) : State :=
  let s := notePops s cid wl none
  let s := s.onWl cid wl (fun w => { w with st := .terminated, fseen := none, units := vmap (fun u => { u with fseen := none }) w.units })
  (parkedOn s cid wl).foldl
    (fun s t => match t.wait with
      | .wlpop _ xa ps _ => popEnded s t wl xa ps 2
      | _ => s) s

/-- A refresh gives Fseen its value on every unit; the second one in turn that finds the list idle with its counts unchanged
terminates it (R284, R294). -/
def wlRefresh (s : State) (cid : Nat) (wl : Fin 4) (w : Worklist) (fseen : Option Nat) (idle : Bool) : State :=
  if idle && w.last == some w.counts then wlTerminate s cid wl
  else
    s.onWl cid wl (fun w =>
      { w with fseen, refreshed := some s.tick, units := vmap (fun u => { u with fseen }) w.units, last := if idle then some w.counts else none })

/-- Is the next refresh due, `n` ticks after the last (R284)? -/
def refreshDue (s : State) (w : Worklist) (n : Nat) : Bool := match w.refreshed with | none => true | some t => t + n ≤ s.tick

/-- FLOOR_REFRESH (R284, R294): every 64 ticks. For system scope Fseen waits for the hubs' exchange. -/
def execFloorRefresh (cid : Nat) (wl : Fin 4) (s : State) : Out :=
  match s.wl? cid wl with
  | none => .next s
  | some w =>
    due (w.st == .active && !w.sys && refreshDue s w 64) s
      (.next (wlRefresh s cid wl w (floorOf s cid wl w) (wlIdle s cid wl w)))

/-- The lesser of two floors, none infinite. -/
def minFloor : Option Nat → Option Nat → Option Nat
  | none, b => b
  | a, none => a
  | some a, some b => some (min a b)

/-- GROUP_FLOOR_REFRESH (R283, R284, R294): every 1,024 ticks the hubs of a system-scope group exchange floors; `peer` is the least of the others',
`quiet` says that they all have configured the list and found it idle with their counts unchanged. -/
def execGroupFloorRefresh (cid : Nat) (wl : Fin 4) (peer : Option Nat) (quiet : Bool) (s : State) : Out :=
  match s.wl? cid wl with
  | none => .next s
  | some w =>
    due (w.st == .active && w.sys && refreshDue s w 1024) s
      (let w := { w with peersReady := w.peersReady || quiet }
       let s := s.onWl cid wl (fun _ => w)
       .next (wlRefresh s cid wl w (minFloor (floorOf s cid wl w) peer) (quiet && wlIdle s cid wl w)))

/-! ## Pushes and pops that waited (R288, R289) -/

/-- Place a waiting push if an entry is free and the floor allows it (R288, R292); in a replay not for a halted thread (R355). -/
def placeWaiting (s : State) (t : Thread) (wl : Fin 4) (words : List W32) (dep : Nat) : State :=
  match s.wl? t.cid wl with
  | none => s
  | some w =>
    if belowSeen w (bucket w (words.headD 0)) || (t.halted && replaying s t.cid) then s
    else
      let s := sendFull s t.core
      match frontRoom (s.core t.core) dep with
      | none => s
      | some e =>
        (match pushAtGate s t wl words e with
          | some s => wake s t.ref 2 id
          | none => s)

/-- FLOOR_DROP_ACK (R284, R288): every unit holds the lower Fseen; the push completes if an entry is free. -/
def execFloorDropAck (t : TRef) (s : State) : Out :=
  match s.thread? t with
  | none => .next s
  | some x =>
    match x.wait with
    | .wlpush wl words dep _ =>
      let s := s.onWl x.cid wl (fun w => floorDrop w (bucket w (words.headD 0)))
      let x := { x with wait := .wlpush wl words dep true }
      .next (placeWaiting (s.onThread t (fun _ => x)) x wl words dep)
    | _ => .next s

/-- WLPUSH_PLACE (R288, R292): an entry is free for a waiting push. -/
def execWlpushPlace (t : TRef) (s : State) : Out :=
  match s.thread? t with
  | none => .next s
  | some x =>
    match x.wait with
    | .wlpush wl words dep true => .next (placeWaiting s x wl words dep)
    | _ => .next s

/-- The record a parked pop is given: choice n of those of the lowest eligible bucket, in a replay the logged one (R289, R351). -/
def serveFind (s : State) (t : Thread) (wl : Fin 4) (w : Worklist) (n : Nat) : PopRes :=
  if replaying s t.cid then popFind s t wl w
  else
    match (popChoices s t.core t.cid wl w)[n]? with
    | some r => .found r s
    | none => .none

/-- Serve a parked pop of an ACTIVE worklist, if it can be (R289, R292). -/
def serve (s : State) (x : Thread) (wl : Fin 4) (xa : XReg) (ps : PReg) (v : VReg) (w : Worklist) (n : Nat) : Out :=
  match serveFind s x wl w n with
  | .none | .hold => .next s
  | .found r s' =>
    (match reachRec s x.cid x.core wl w r with
      | .ok => .next (popGive s' x wl xa ps v 2 r)
      | .page _ s => .next s
      | .lost s => .next s)

/-- Is a parked pop the first of its front buffer, in slot order (R298); in a replay the log says (R351). -/
def firstPop (s : State) (x : Thread) (wl : Fin 4) : Bool :=
  replaying s x.cid || !(parkedOn s x.cid wl).any (fun u => u.core == x.core && u.slot < x.slot && gangIssues s u && !u.halted)

/-- WLPOP_SERVE (R289, R293, R298): a record is reachable for a parked pop. -/
def execWlpopServe (t : TRef) (n : Nat) (s : State) : Out :=
  match s.thread? t with
  | none => .next s
  | some x =>
    match x.wait with
    | .wlpop wl xa ps v =>
      (match s.wl? x.cid wl with
        | none => .next s
        | some w =>
          due (gangIssues s x && !x.halted && firstPop s x wl) s
            (match w.st with
             | .terminated => .next (popEnded s x wl xa ps 2)
             | .faulted =>
               (match w.flt with
                 | some f => .next (askTrap s x f.1 f.2 (info306 0 1))
                 | none => .next s)
             | .unconfigured => .next s
             | .active => serve s x wl xa ps v w n))
    | _ => .next s

/-! ## Where records live (R292, R293) -/

/-- Change the part of a worklist on one die. -/
def onUnit (s : State) (cid : Nat) (wl : Fin 4) (die : Fin 4) (f : WUnit → WUnit) : State :=
  s.onWl cid wl (fun w => { w with units := w.units.set die.val (f w.units[die]) die.isLt })

/-- Records without those taken away. -/
def dropRecs (l rs : List WRec) : List WRec := rs.foldl (fun l r => l.erase r) l

/-- FRONT_BUFFER_SEND (R292): record n of a core's front buffer moves to its die unit, if that has room. -/
def execFrontBufferSend (core n : Nat) (s : State) : Out :=
  match (s.core core).front[n]? with
  | none => .next s
  | some r => due (dieHeld s (dieOf core) < unitRoom) s (.next (sendRec s core r))

/-- Is a bucket beyond the 64 of the unit's window (R292). -/
def isFar (u : WUnit) (b : Nat) : Bool := match u.fseen with | none => false | some f => f + 64 ≤ b

/-- The lowest chunk of the spill region that no unit uses. -/
def freeChunk (w : Worklist) : Option Nat :=
  (List.range (w.spillbytes / chunkBytes)).find? (fun n => !w.units.toList.any (fun u => u.chunks.any (fun c => c.1 == n)))

/-- CHUNK_SPILL (R292, R297): up to 256 records of one bucket leave the unit, far ones or overflow. -/
def execChunkSpill (cid : Nat) (wl : Fin 4) (die : Nat) (b : Nat) (s : State) : Out :=
  match s.wl? cid wl with
  | none => .next s
  | some w =>
    let d : Fin 4 := Fin.ofNat 4 die
    let u := w.units[d]
    let rs := (u.recs.filter (fun r => bucket w r.key == b)).take chunkRecs
    due (w.st == .active && !rs.isEmpty && (isFar u b || unitRoom ≤ dieHeld s d)) s
      (match freeChunk w with
       | none => .next s
       | some n =>
         let keep := fun (u : WUnit) => { u with recs := dropRecs u.recs rs }
         (match chunkAt s cid w n false with
           | .ok key =>
             let x := freeBytes s chunkBytes
             let s := onUnit (x.2.put .none key x.1) cid wl d keep
             .next (onUnit s cid wl d (fun u => { u with chunks := u.chunks ++ [(n, rs)] }))
           | .absent => .next (pageRequest s cid (chunkAddr w n) 2 (.chunk wl.val d.val n)).2
           | .bad c => .next (chunkFault (onUnit s cid wl d keep) cid wl n c)))

/-- CHUNK_READ_BACK (R292, R297): a chunk whose bucket has entered the window comes back on chip. -/
def execChunkReadBack (cid : Nat) (wl : Fin 4) (die n : Nat) (s : State) : Out :=
  match s.wl? cid wl with
  | none => .next s
  | some w =>
    let d : Fin 4 := Fin.ofNat 4 die
    let u := w.units[d]
    match u.chunks.find? (fun c => c.1 == n) with
    | none => .next s
    | some c =>
      due (w.st == .active && !c.2.any (fun r => isFar u (bucket w r.key)) && dieHeld s d + c.2.length ≤ unitRoom) s
        (match chunkAt s cid w n true with
         | .ok _ => .next (onUnit s cid wl d (fun u => { u with recs := u.recs ++ c.2, chunks := u.chunks.filter (fun x => x.1 != n) }))
         | .absent => .next (pageRequest s cid (chunkAddr w n) 1 (.chunk wl.val d.val n)).2
         | .bad e => .next (chunkFault s cid wl n e))

/-- The eligible records a die unit holds on chip. -/
def unitEligible (w : Worklist) (d : Fin 4) : List WRec := (w.units[d]).recs.filter (fun r => eligible w (w.units[d]).fseen (bucket w r.key))

/-- Has a die parked pops of the worklist. -/
def dieParked (s : State) (cid : Nat) (wl : Fin 4) (d : Fin 4) : Bool := (parkedOn s cid wl).any (fun t => dieOf t.core == d)

/-- Has a die unit, on chip or in its spill, an eligible record. -/
def dieEligible (w : Worklist) (d : Fin 4) : Bool :=
  let u := w.units[d]
  (u.recs ++ u.chunks.flatMap (·.2)).any (fun r => eligible w u.fseen (bucket w r.key))

/-- The first records of a unit by bucket, as many as a chunk and the room allow. -/
def chunkOut (w : Worklist) (a : Fin 4) (n : Nat) : List WRec := (sortBy (fun r => bucket w r.key) (unitEligible w a)).take (min n chunkRecs)

/-- Record i of a chunk that arrives from a peer device: what it holds is free, but its bucket is eligible and not below the floor
(R284, R293; log entry 97). -/
def peerRec (s : State) (cid : Nat) (wl : Fin 4) (w : Worklist) (f i : Nat) : WRec :=
  let c (k : Nat) : Nat := Config.freeChoice (s.fresh + 7 * i + k)
  let b := min (f + c 0 % (w.delta + 1)) (bucket w (BitVec.allOnes 32))
  let key := (b * 2 ^ w.shift + c 1 % 2 ^ w.shift) % 2 ^ 32
  { cid, wl := wl.val, words := [BitVec.ofNat 32 key, BitVec.ofNat 32 (c 2), BitVec.ofNat 32 (c 3), BitVec.ofNat 32 (c 4)]
    core := c 5 % Config.cores, slot := c 6 % 4096, num := c 5 / Config.cores, resv := none }

/-- Balancing between the units of a device (R293): a unit with parked pops and no eligible record takes up to 256 records of the lowest
eligible buckets from the unit that holds most of them. -/
def migrateDies (s : State) (cid : Nat) (wl : Fin 4) (w : Worklist) (a b : Fin 4) (n : Nat) : Out :=
  let held := fun (d : Fin 4) => (unitEligible w d).length
  due (w.st == .active && w.dbal && a != b && dieParked s cid wl b && !dieEligible w b && (List.finRange 4).all (fun d => held d ≤ held a)) s
    (let rs := chunkOut w a n
     let s := onUnit s cid wl a (fun u => { u with recs := dropRecs u.recs rs })
     .next (onUnit s cid wl b (fun u => { u with recs := u.recs ++ rs })))

/-- Balancing between the devices of a group, at an exchange of floors (R293): a chunk leaves for a peer that asks for it. -/
def migrateOut (s : State) (cid : Nat) (wl : Fin 4) (w : Worklist) (a : Fin 4) (n : Nat) : Out :=
  due (w.st == .active && w.sys && w.xbal) s (.next (onUnit s cid wl a (fun u => { u with recs := dropRecs u.recs (chunkOut w a n) })))

/-- A chunk arrives from a peer for a unit with parked pops on a device that has no eligible record (R293). -/
def migrateIn (s : State) (cid : Nat) (wl : Fin 4) (w : Worklist) (b : Fin 4) (n : Nat) : Out :=
  match w.fseen with
  | none => .next s
  | some f =>
    due (w.st == .active && w.sys && w.xbal && dieParked s cid wl b && (List.finRange 4).all (fun d => !dieEligible w d)) s
      (let rs := (List.range (min n chunkRecs)).map (peerRec s cid wl w f)
       .next (onUnit { s with fresh := s.fresh + 7 * rs.length } cid wl b (fun u => { u with recs := u.recs ++ rs })))

/-- CHUNK_MIGRATE (R293): up to `count` records move to a unit that has room for them; `src` or `dst` of 4 or more is a peer
device. -/
def execChunkMigrate (cid : Nat) (wl : Fin 4) (src dst count : Nat) (s : State) : Out :=
  match s.wl? cid wl with
  | none => .next s
  | some w =>
    let a : Fin 4 := Fin.ofNat 4 src
    let b : Fin 4 := Fin.ofNat 4 dst
    let n := min count (unitRoom - dieHeld s b)
    if 4 ≤ src ∧ 4 ≤ dst then .next s
    else if 4 ≤ dst then migrateOut s cid wl w a count
    else if 4 ≤ src then migrateIn s cid wl w b n
    else migrateDies s cid wl w a b n

end Sys2Proof.Machine
end

