-- ==== Sys2Proof/Machine/Frames.lean ====
section
/-! DEFINITION. Private and shared frames (R139-R148, R182-R186). -/

namespace Sys2Proof.Machine

/-- The place of a trap in the order of R63. -/
def trapRank (c : BitVec 9) : Nat :=
  if c = cFRAME then 5 else if c = cSTACK then 6 else if c = cSLOT then 7 else if c = cALIGN then 8 else if c = cPROT then 9
  else if c = cPAGE then 10 else if c = cMEMERR then 11 else 4

/-- The trap of two checks that R63 takes first. -/
def firstTrap {α β : Type} (x : Except TrapInfo α) (y : Except TrapInfo β) : Except TrapInfo (α × β) :=
  match x, y with
  | .ok a, .ok b => .ok (a, b)
  | .error e, .ok _ => .error e
  | .ok _, .error e => .error e
  | .error e, .error f => if trapRank f.1 < trapRank e.1 then .error f else .error e

/-- FENTER of n slots (R144). -/
def enterFrame (s : State) (dep : Fin 8) (n : Nat) : Out :=
  let t := s.cur
  let fb := frameBytes n
  let top := t.r.sp - 8
  let base := (top - BitVec.ofNat 64 fb) &&& ~~~15
  orTrap s (pushCheck s t top.toNat base.toNat) (fun key =>
    let hd : Hdr := { refc := 1, size := n, depth := dep.val, scope := 0, live := true,
                      pad := (top.toNat - fb - base.toNat) / 8, gen := t.r.fgc.toNat, retain := 0 }
    let h := handle 0 t.r.fgc.toNat (base.toNat - localBase)
    let s := pushMop s top key 8 ((t.r.getD dep).setWidth 128)
    let s := pushMop s base (key - (top.toNat - base.toNat)) 16 (BitVec.ofNat 128 hd.toNat)
    .next (s.onRegs (fun r =>
      ({ r with sp := base, fgc := BitVec.ofNat 13 (nextGen r.fgc.toNat) }.setD dep h).adv 1)))

/-- FLEAVE of a thread frame (R145). -/
def leaveThread (s : State) (dep : Fin 8) (key : Nat) (d : Hdr) : Out :=
  let t := s.cur
  let a := hAddr (t.r.getD dep)
  if a ≠ t.r.sp.toNat then trap s cFRAME (BitVec.ofNat 64 a) 5
  else if d.retain ≠ 0 then trap s cFRAME (BitVec.ofNat 64 a) 6
  else
    let top := a + frameBytes d.size + 8 * d.pad
    popAt s (BitVec.ofNat 64 top) (fun v s =>
      let s := pushMop s (BitVec.ofNat 64 a) key 16 (BitVec.ofNat 128 { d with live := false, gen := nextGen d.gen }.toNat)
      .next (s.onRegs (fun r => ({ r with sp := BitVec.ofNat 64 (top + 8) }.setD dep v).adv 1)))

/-- Take the most recent entry equal to a handle out of a hold list (R185). -/
def dropHold (l : List W64) (h : W64) : List W64 := (l.reverse.erase h).reverse

/-- FLEAVE of a shared frame (R185). -/
def leaveShared (s : State) (dep : Fin 8) : Out :=
  let t := s.cur
  let h := t.r.getD dep
  if !t.hold.contains h then trap s cFRAME (BitVec.ofNat 64 (hAddr h)) 11
  else
    popAt s t.r.sp (fun v s =>
      drained s
        (let s := release s t.core t.cid (hScope h)
         let s := s.onCur (fun t =>
           { t with hold := dropHold t.hold h, r := ({ t.r with sp := t.r.sp + 8 }.setD dep v).adv 1 })
         .next (match s.wgOf t with | some w => releaseHold s w h | none => s)))

/-- Change a frame's header (R146): a thread frame's by the thread's own store, a shared frame's at its home. -/
def setHeader (s : State) (h : W64) (key : Nat) (d : Hdr) : State :=
  if hScope h = 0 then pushMop s (BitVec.ofNat 64 (hAddr h)) key 16 (BitVec.ofNat 128 d.toNat) else s.putN s.cur.ref key 16 d.toNat

/-- The slots of a frame have no access of the thread outstanding (R186). -/
def slotsDone (t : Thread) (key size : Nat) : Bool := !t.mops.any (fun m => key + 16 < m.key + m.size && m.key < key + 16 + 4 * size)

/-- FENTER (R144, R148). -/
def execFenter (g : Guard) (dep : Fin 8) (a : XReg) (s : State) : Out :=
  guarded g 1 s
    (outside s
      (let n := (s.cur.r.getX a).toNat
       if n = 0 ∨ 1024 < n then illegal8 s else enterFrame s dep n))

/-- FLEAVE (R145, R185). -/
def execFleave (g : Guard) (dep : Fin 8) (s : State) : Out :=
  guarded g 1 s
    (outside s (settled s
      (withFrame s (s.cur.r.getD dep) 3 (fun h =>
        if hScope (s.cur.r.getD dep) = 0 then leaveThread s dep h.1 h.2 else leaveShared s dep))))

/-- FOPEN signs; x[A] is a set-wide operand (R182, R183). -/
def execFopen (g : Guard) (cluster : Bool) (dep : Fin 8) (a : XReg) (k : Fin 8) (s : State) : Out :=
  guarded g 1 s
    (outside s (settled s (drained s
      (signRound (if cluster then sideOn s else s) cluster k
        (Signing.plain (.fopen dep.val) (encode (.fopen none cluster dep a k)) [s.cur.r.getX a] 1)))))

/-- FLINK (R147). -/
def execFlink (g : Guard) (dep : Fin 8) (a : XReg) (s : State) : Out :=
  guarded g 1 s
    (outside s
      (let h := s.cur.r.getX a
       let sp := s.cur.r.sp - 8
       if headerBusy s h 1 then waitAt s .drain
       else orTrap s (firstTrap (frameCheck s s.cur h 1) (pushCheck s s.cur sp.toNat sp.toNat)) (fun _ =>
         pushThen s (s.cur.r.getD dep) (fun s => .next (s.onRegs (fun r => (r.setD dep h).adv 1))))))

/-- FHND (R146); a RETAIN of 4,294,967,295 becomes 0 (log entry 82). -/
def execFhnd (g : Guard) (d : XReg) (dep : Fin 8) (s : State) : Out :=
  guarded g 1 s
    (outside s (settled s
      (let h := s.cur.r.getD dep
       withFrame s h 3 (fun f =>
         .next ((setHeader s h f.1 { f.2 with retain := (f.2.retain + 1) % 4294967296 }).onRegs (fun r => (r.setX d h).adv 1))))))

/-- FDROP frees a shared frame that has neither a holder nor a retention (R146, R185). -/
def execFdrop (g : Guard) (a : XReg) (s : State) : Out :=
  guarded g 1 s
    (outside s (settled s
      (let h := s.cur.r.getX a
       withFrame s h 3 (fun f =>
         if f.2.retain = 0 then trap s cFRAME (BitVec.ofNat 64 (hAddr h)) 7
         else
           let d := { f.2 with retain := f.2.retain - 1 }
           let s' := match s.wgOf s.cur with
             | some w => if d.retain = 0 ∧ d.refc = 0 then freeFrame s w h f.1 d else setHeader s h f.1 d
             | none => setHeader s h f.1 d
           .next (s'.adv 1)))))

/-- FSYNC waits for the thread's accesses to the frame's slots; the scratchpad is their point of coherence (R186). -/
def execFsync (g : Guard) (dep : Fin 8) (s : State) : Out :=
  guarded g 1 s
    (outside s
      (withFrame s (s.cur.r.getD dep) 1 (fun f =>
        if slotsDone s.cur f.1 f.2.size then .next (s.adv 1) else waitAt s .drain)))

/-- FUNLINK (R147). -/
def execFunlink (g : Guard) (dep : Fin 8) (s : State) : Out :=
  guarded g 1 s
    (outside s (popThen s (fun v s => .next (s.onRegs (fun r => (r.setD dep v).adv 1)))))

end Sys2Proof.Machine
end

