-- ==== Sys2Proof/Machine/LaneCvt.lean ====
section
/-! DEFINITION. Conversions of the lane set (R94). -/

namespace Sys2Proof.Machine

/-- An integer converted to a format (R94). -/
def cvtFromInt (f : Fmt) (i : Int) : Nat × Fl := f.round (.ofInt i)

/-- From one format to another with Round; a signalling NaN sets IV (R94, R65). -/
def cvtFmt (f g : Fmt) (a : Nat) : Nat × Fl := g.out (f.dec a, (f.dec a).sigFl)

/-- From a format to an integer of n bits, delivered in two's complement (R68, R94). -/
def cvtToInt (f : Fmt) (md : IMode) (lo hi : Int) (n a : Nat) : Nat × Fl :=
  let r := (f.dec a).toInt md lo hi
  ((BitVec.ofInt n r.1).toNat, r.2)

/-- RoundLNS6 of a binary32 (R70, R94). -/
def lnsCvt (a : Nat) : Nat × Fl :=
  let r := lnsRound (Fmt.f32.dec a)
  (r.1, r.2 ||| (Fmt.f32.dec a).sigFl)

/-- CVT_F32_S32 (R94). -/
def execCvtF32S32 (g : Guard) (d : Dst8) (a : Src8) (s : State) : Out :=
  laneUnFl (fun x => cvtFromInt .f32 (BitVec.ofNat 32 x).toInt) g d a s

/-- CVT_F32_N32 (R94). -/
def execCvtF32N32 (g : Guard) (d : Dst8) (a : Src8) (s : State) : Out :=
  laneUnFl (fun x => cvtFromInt .f32 x) g d a s

/-- CVT_S32_F32 (R94). -/
def execCvtS32F32 (g : Guard) (d : Dst8) (a : Src8) (s : State) : Out :=
  laneUnFl (fun x => cvtToInt .f32 .trunc (-2147483648) 2147483647 32 x) g d a s

/-- CVT_N32_F32 (R94). -/
def execCvtN32F32 (g : Guard) (d : Dst8) (a : Src8) (s : State) : Out :=
  laneUnFl (fun x => cvtToInt .f32 .trunc 0 4294967295 32 x) g d a s

/-- CVT_S32_F32_RN (R94). -/
def execCvtS32F32Rn (g : Guard) (d : Dst8) (a : Src8) (s : State) : Out :=
  laneUnFl (fun x => cvtToInt .f32 .nearest (-2147483648) 2147483647 32 x) g d a s

/-- CVT_F16_F32 (R94). -/
def execCvtF16F32 (g : Guard) (d : Dst8) (a : Src8) (s : State) : Out :=
  laneUnFl (fun x => cvtFmt .f32 .f16 x) g d a s

/-- CVT_F32_F16L (R94). -/
def execCvtF32F16l (g : Guard) (d : Dst8) (a : Src8) (s : State) : Out :=
  laneUnFl (fun x => cvtFmt .f16 .f32 (x % 65536)) g d a s

/-- CVT_F32_F16H (R94). -/
def execCvtF32F16h (g : Guard) (d : Dst8) (a : Src8) (s : State) : Out :=
  laneUnFl (fun x => cvtFmt .f16 .f32 (x / 65536)) g d a s

/-- CVT_BF16_F32 (R94). -/
def execCvtBf16F32 (g : Guard) (d : Dst8) (a : Src8) (s : State) : Out :=
  laneUnFl (fun x => cvtFmt .f32 .bf16 x) g d a s

/-- CVT_F32_BF16L (R94). -/
def execCvtF32Bf16l (g : Guard) (d : Dst8) (a : Src8) (s : State) : Out :=
  laneUnFl (fun x => cvtFmt .bf16 .f32 (x % 65536)) g d a s

/-- CVT_F32_BF16H (R94). -/
def execCvtF32Bf16h (g : Guard) (d : Dst8) (a : Src8) (s : State) : Out :=
  laneUnFl (fun x => cvtFmt .bf16 .f32 (x / 65536)) g d a s

/-- CVT_E4M3_F32 (R94). -/
def execCvtE4m3F32 (g : Guard) (d : Dst8) (a : Src8) (s : State) : Out :=
  laneUnFl (fun x => cvtFmt .f32 .e4m3 x) g d a s

/-- CVT_E5M2_F32 (R94). -/
def execCvtE5m2F32 (g : Guard) (d : Dst8) (a : Src8) (s : State) : Out :=
  laneUnFl (fun x => cvtFmt .f32 .e5m2 x) g d a s

/-- CVT_F32_E4M3 (R94). -/
def execCvtF32E4m3 (g : Guard) (d : Dst8) (a : Src8) (s : State) : Out :=
  laneUnFl (fun x => cvtFmt .e4m3 .f32 (x % 256)) g d a s

/-- CVT_F32_E5M2 (R94). -/
def execCvtF32E5m2 (g : Guard) (d : Dst8) (a : Src8) (s : State) : Out :=
  laneUnFl (fun x => cvtFmt .e5m2 .f32 (x % 256)) g d a s

/-- CVT_LNS6_F32 (R94). -/
def execCvtLns6F32 (g : Guard) (d : Dst8) (a : Src8) (s : State) : Out :=
  laneUnFl (fun x => lnsCvt x) g d a s

/-- CVT_F32_LNS6 (R94). -/
def execCvtF32Lns6 (g : Guard) (d : Dst8) (a : Src8) (s : State) : Out :=
  laneUnFl (fun x => (((Fmt.f32.round (lnsDec (x % 64))).1, 0) : Nat × Fl)) g d a s

/-- CVT_S8_F32 (R94). -/
def execCvtS8F32 (g : Guard) (d : Dst8) (a : Src8) (s : State) : Out :=
  laneUnFl (fun x => cvtToInt .f32 .nearest (-128) 127 32 x) g d a s

/-- CVT_N8_F32 (R94). -/
def execCvtN8F32 (g : Guard) (d : Dst8) (a : Src8) (s : State) : Out :=
  laneUnFl (fun x => cvtToInt .f32 .nearest 0 255 32 x) g d a s

end Sys2Proof.Machine
end

