-- ==== Sys2Proof/Machine/LanePred.lean ====
section
/-! DEFINITION. Comparisons and predicates of the lane set (R95-R98). -/

namespace Sys2Proof.Machine

/-- An integer condition over three-way comparison results (R50). -/
def icond (cc : ICond) (lt eq : Bool) : Bool :=
  match cc with
  | .eq => eq
  | .ne => !eq
  | .lt => lt
  | .le => lt || eq
  | .gt => !lt && !eq
  | .ge => !lt

/-- A floating condition over two values, and IV (R50, R96). -/
def fcond (cc : FCond) (a b : Val) : Bool × Fl :=
  let un := a.isNan || b.isNan
  let lt := a.lt b
  let gt := b.lt a
  let eq := a.eqv b
  match cc with
  | .eq => (eq, 0)
  | .ne => (!eq, 0)
  | .lt => (lt, flIf un flIV)
  | .le => (lt || eq, flIf un flIV)
  | .gt => (gt, flIf un flIV)
  | .ge => (gt || eq, flIf un flIV)
  | .un => (un, 0)
  | .ord => (!un, 0)
  | .ltu => (un || lt, 0)
  | .leu => (un || lt || eq, 0)
  | .gtu => (un || gt, 0)
  | .geu => (un || gt || eq, 0)
  | .equ => (un || eq, 0)

/-- ICMP (R95). -/
def execIcmp (g : Guard) (pd : PReg) (cc : ICond) (a : Src8) (b : Src5) (s : State) : Out :=
  let x := s.cur.src8 a
  let y := s.cur.src5 b
  predWrite g pd (1 + a.lits + b.lits) (icond cc (BitVec.slt x y) (x == y)) 0 s

/-- NCMP (R95). -/
def execNcmp (g : Guard) (pd : PReg) (cc : ICond) (a : Src8) (b : Src5) (s : State) : Out :=
  let x := s.cur.src8 a
  let y := s.cur.src5 b
  predWrite g pd (1 + a.lits + b.lits) (icond cc (BitVec.ult x y) (x == y)) 0 s

/-- FCMP (R96). -/
def execFcmp (g : Guard) (pd : PReg) (cc : FCond) (a : Src8) (b : Src5) (s : State) : Out :=
  let r := fcond cc (Fmt.f32.dec (s.cur.src8 a).toNat) (Fmt.f32.dec (s.cur.src5 b).toNat)
  predWrite g pd (1 + a.lits + b.lits) r.1 r.2 s

/-- PLOP (R97). -/
def execPlop (g : Guard) (pd pa pb : PReg) (tt : BitVec 4) (s : State) : Out :=
  let i := (if s.cur.r.getP pa then 2 else 0) + (if s.cur.r.getP pb then 1 else 0)
  predWrite g pd 1 (tt.getLsbD i) 0 s

/-- PTOV (R98). -/
def execPtov (g : Guard) (d : Dst8) (s : State) : Out :=
  laneWrite g d 1 (s.cur.r.p.setWidth 32) s

/-- VTOP writes no lr (R98). -/
def execVtop (g : Guard) (a : Src8) (s : State) : Out :=
  guarded g (1 + a.lits) s (.next (s.onRegs (fun r => { r with p := (s.cur.src8 a).setWidth 12 }.adv (1 + a.lits))))

end Sys2Proof.Machine
end

