-- ==== Sys2Proof/Machine/GroupFloat.lean ====
section
/-! DEFINITION. Binary64 instructions of the group set (R108-R112). -/

namespace Sys2Proof.Machine

/-- The binary32 word of a lit32 widened to binary64; a NaN keeps its sign and its quiet bit (R108). -/
def widen (w : W32) : Nat :=
  match Fmt.f32.dec w.toNat with
  | .nan _ => w.toNat / 2147483648 * 9223372036854775808 + 0x7FF0000000000000 + w.toNat % 8388608 * 536870912
  | .inf n => (Fmt.f64.round (.inf n)).1
  | .fin n m e => (Fmt.f64.round (.fin n m e)).1

/-- A B9 operand as binary64 bits (R108). -/
def b9d (t : Thread) : SrcB9 → Nat
  | .imm i => (Fmt.f64.round (.ofInt i.toInt)).1
  | .x n => (t.r.getX n).toNat
  | .lit32 w => widen w
  | .lit64 w => w.toNat
  | .zero => 0

/-- A B7 operand as binary64 bits (R108). -/
def b7d (t : Thread) : SrcB7 → Nat
  | .x n => (t.r.getX n).toNat
  | .imm n => (Fmt.f64.round (.ofInt n.val)).1

/-- A GA instruction on binary64 (R109). -/
def groupBinFl (f : Nat → Nat → Nat × Fl) (g : Guard) (d a : XReg) (b : SrcB9) (s : State) : Out :=
  groupFl g d (1 + b.lits) (f (s.cur.r.getX a).toNat (b9d s.cur b)) s

/-- A GU instruction with flags (R110, R112). -/
def groupUnFl (f : Nat → Nat × Fl) (g : Guard) (d a : XReg) (s : State) : Out := groupFl g d 1 (f (s.cur.r.getX a).toNat) s

/-- DADD (R109). -/
def execDadd (g : Guard) (d a : XReg) (b : SrcB9) (s : State) : Out :=
  groupBinFl (valBin .f64 Val.add) g d a b s

/-- DSUB (R109). -/
def execDsub (g : Guard) (d a : XReg) (b : SrcB9) (s : State) : Out :=
  groupBinFl (valBin .f64 (fun x y => x.add y.neg)) g d a b s

/-- DMUL (R109). -/
def execDmul (g : Guard) (d a : XReg) (b : SrcB9) (s : State) : Out :=
  groupBinFl (valBin .f64 Val.mul) g d a b s

/-- DFMA: x[D] is the addend (R109). -/
def execDfma (g : Guard) (d a : XReg) (b : SrcB9) (s : State) : Out :=
  groupBinFl (valFma .f64 (s.cur.r.getX d).toNat) g d a b s

/-- DMIN (R109, R89). -/
def execDmin (g : Guard) (d a : XReg) (b : SrcB9) (s : State) : Out :=
  groupBinFl (Fmt.f64.minmax false) g d a b s

/-- DMAX (R109, R89). -/
def execDmax (g : Guard) (d a : XReg) (b : SrcB9) (s : State) : Out :=
  groupBinFl (Fmt.f64.minmax true) g d a b s

/-- DABS (R110). -/
def execDabs (g : Guard) (d a : XReg) (s : State) : Out :=
  groupUnFl (valSign .f64 Val.abs) g d a s

/-- DNEG (R110). -/
def execDneg (g : Guard) (d a : XReg) (s : State) : Out :=
  groupUnFl (valSign .f64 Val.neg) g d a s

/-- DSQRT (R110). -/
def execDsqrt (g : Guard) (d a : XReg) (s : State) : Out :=
  groupUnFl (valUn .f64 Val.sqrt) g d a s

/-- DRCP (R110). -/
def execDrcp (g : Guard) (d a : XReg) (s : State) : Out :=
  groupUnFl (valUn .f64 Val.recip) g d a s

/-- DFLOOR (R110). -/
def execDfloor (g : Guard) (d a : XReg) (s : State) : Out :=
  groupUnFl (valIntegral .f64 .floor) g d a s

/-- DCEIL (R110). -/
def execDceil (g : Guard) (d a : XReg) (s : State) : Out :=
  groupUnFl (valIntegral .f64 .ceil) g d a s

/-- DTRUNC (R110). -/
def execDtrunc (g : Guard) (d a : XReg) (s : State) : Out :=
  groupUnFl (valIntegral .f64 .trunc) g d a s

/-- DRINT (R110). -/
def execDrint (g : Guard) (d a : XReg) (s : State) : Out :=
  groupUnFl (valIntegral .f64 .rint) g d a s

/-- DCLASS (R110, R92). -/
def execDclass (g : Guard) (d a : XReg) (s : State) : Out :=
  groupUnFl (fun x => (Fmt.f64.cls x, 0)) g d a s

/-- DCMP (R111). -/
def execDcmp (g : Guard) (pd : PReg) (cc : FCond) (a : XReg) (b : SrcB7) (s : State) : Out :=
  let r := fcond cc (Fmt.f64.dec (s.cur.r.getX a).toNat) (Fmt.f64.dec (b7d s.cur b))
  predWrite g pd 1 r.1 r.2 s

/-- DCVT_D_S64 (R112). -/
def execDcvtDS64 (g : Guard) (d a : XReg) (s : State) : Out :=
  groupUnFl (fun x => cvtFromInt .f64 (BitVec.ofNat 64 x).toInt) g d a s

/-- DCVT_D_N64 (R112). -/
def execDcvtDN64 (g : Guard) (d a : XReg) (s : State) : Out :=
  groupUnFl (fun x => cvtFromInt .f64 x) g d a s

/-- DCVT_S64_D (R112). -/
def execDcvtS64D (g : Guard) (d a : XReg) (s : State) : Out :=
  groupUnFl (fun x => cvtToInt .f64 .trunc (-9223372036854775808) 9223372036854775807 64 x) g d a s

/-- DCVT_N64_D (R112). -/
def execDcvtN64D (g : Guard) (d a : XReg) (s : State) : Out :=
  groupUnFl (fun x => cvtToInt .f64 .trunc 0 18446744073709551615 64 x) g d a s

/-- DCVT_D_F32L (R112). -/
def execDcvtDF32l (g : Guard) (d a : XReg) (s : State) : Out :=
  groupUnFl (fun x => cvtFmt .f32 .f64 (x % 4294967296)) g d a s

/-- DCVT_F32_D (R112). -/
def execDcvtF32D (g : Guard) (d a : XReg) (s : State) : Out :=
  groupUnFl (fun x => cvtFmt .f64 .f32 x) g d a s

/-- DCVT_D_S32 (R112). -/
def execDcvtDS32 (g : Guard) (d a : XReg) (s : State) : Out :=
  groupUnFl (fun x => cvtFromInt .f64 (BitVec.ofNat 32 x).toInt) g d a s

/-- DCVT_S32_D (R112). -/
def execDcvtS32D (g : Guard) (d a : XReg) (s : State) : Out :=
  groupUnFl (fun x => cvtToInt .f64 .trunc (-2147483648) 2147483647 64 x) g d a s

end Sys2Proof.Machine
end

