-- ==== Sys2Proof/Machine/GroupInt.lean ====
section
/-! DEFINITION. 64-bit integer instructions of the group set (R103-R107) and the moves between v and x (R113). -/

namespace Sys2Proof.Machine

/-- An instruction of the GA format on 64-bit integers (R99). -/
def groupBin (f : W64 → W64 → W64) (g : Guard) (d a : XReg) (b : SrcB9) (s : State) : Out :=
  groupWrite g d (1 + b.lits) (f (s.cur.r.getX a) (s.cur.b9 b)) s

/-- An instruction of the GU format on 64-bit integers (R99). -/
def groupUn (f : W64 → W64) (g : Guard) (d a : XReg) (s : State) : Out := groupWrite g d 1 (f (s.cur.r.getX a)) s

/-- WSAR (R104). -/
def wsarW (a b : W64) : W64 := if b.toNat < 64 then a.sshiftRight b.toNat else if a.msb then BitVec.allOnes 64 else 0

/-- WADD (R103). -/
def execWadd (g : Guard) (d a : XReg) (b : SrcB9) (s : State) : Out :=
  groupBin (fun a b => a + b) g d a b s

/-- WSUB (R103). -/
def execWsub (g : Guard) (d a : XReg) (b : SrcB9) (s : State) : Out :=
  groupBin (fun a b => a - b) g d a b s

/-- WMUL (R103). -/
def execWmul (g : Guard) (d a : XReg) (b : SrcB9) (s : State) : Out :=
  groupBin (fun a b => a * b) g d a b s

/-- WMULHS (R103). -/
def execWmulhs (g : Guard) (d a : XReg) (b : SrcB9) (s : State) : Out :=
  groupBin (fun a b => BitVec.ofInt 64 (a.toInt * b.toInt / 18446744073709551616)) g d a b s

/-- WMULHN (R103). -/
def execWmulhn (g : Guard) (d a : XReg) (b : SrcB9) (s : State) : Out :=
  groupBin (fun a b => BitVec.ofNat 64 (a.toNat * b.toNat / 18446744073709551616)) g d a b s

/-- WAND (R103). -/
def execWand (g : Guard) (d a : XReg) (b : SrcB9) (s : State) : Out :=
  groupBin (fun a b => a &&& b) g d a b s

/-- WOR (R103). -/
def execWor (g : Guard) (d a : XReg) (b : SrcB9) (s : State) : Out :=
  groupBin (fun a b => a ||| b) g d a b s

/-- WXOR (R103). -/
def execWxor (g : Guard) (d a : XReg) (b : SrcB9) (s : State) : Out :=
  groupBin (fun a b => a ^^^ b) g d a b s

/-- WSHL (R104). -/
def execWshl (g : Guard) (d a : XReg) (b : SrcB9) (s : State) : Out :=
  groupBin (fun a b => if b.toNat < 64 then a <<< b.toNat else 0) g d a b s

/-- WSHR (R104). -/
def execWshr (g : Guard) (d a : XReg) (b : SrcB9) (s : State) : Out :=
  groupBin (fun a b => if b.toNat < 64 then a >>> b.toNat else 0) g d a b s

/-- WSAR (R104). -/
def execWsar (g : Guard) (d a : XReg) (b : SrcB9) (s : State) : Out :=
  groupBin (fun a b => wsarW a b) g d a b s

/-- WMIN (R103). -/
def execWmin (g : Guard) (d a : XReg) (b : SrcB9) (s : State) : Out :=
  groupBin (fun a b => if BitVec.slt b a then b else a) g d a b s

/-- WMAX (R103). -/
def execWmax (g : Guard) (d a : XReg) (b : SrcB9) (s : State) : Out :=
  groupBin (fun a b => if BitVec.slt a b then b else a) g d a b s

/-- WNMIN (R103). -/
def execWnmin (g : Guard) (d a : XReg) (b : SrcB9) (s : State) : Out :=
  groupBin (fun a b => if BitVec.ult b a then b else a) g d a b s

/-- WNMAX (R103). -/
def execWnmax (g : Guard) (d a : XReg) (b : SrcB9) (s : State) : Out :=
  groupBin (fun a b => if BitVec.ult a b then b else a) g d a b s

/-- WCMP (R107). -/
def execWcmp (g : Guard) (pd : PReg) (cc : ICond) (a : XReg) (b : SrcB7) (s : State) : Out :=
  let x := s.cur.r.getX a
  let y := s.cur.b7 b
  predWrite g pd 1 (icond cc (BitVec.slt x y) (x == y)) 0 s

/-- WNCMP (R107). -/
def execWncmp (g : Guard) (pd : PReg) (cc : ICond) (a : XReg) (b : SrcB7) (s : State) : Out :=
  let x := s.cur.r.getX a
  let y := s.cur.b7 b
  predWrite g pd 1 (icond cc (BitVec.ult x y) (x == y)) 0 s

/-- WSEL executes whatever the guard; the guard selects (R105, R29). -/
def execWsel (g : Guard) (d a : XReg) (b : SrcB9) (s : State) : Out :=
  groupBin (fun a b => if s.cur.r.sel g then a else b) none d a b s

/-- WMOV (R106). -/
def execWmov (g : Guard) (d a : XReg) (s : State) : Out :=
  groupUn (fun a => a) g d a s

/-- WNOT (R106). -/
def execWnot (g : Guard) (d a : XReg) (s : State) : Out :=
  groupUn (fun a => ~~~a) g d a s

/-- WNEG (R106). -/
def execWneg (g : Guard) (d a : XReg) (s : State) : Out :=
  groupUn (fun a => -a) g d a s

/-- WABS (R106). -/
def execWabs (g : Guard) (d a : XReg) (s : State) : Out :=
  groupUn (fun a => if a.msb then -a else a) g d a s

/-- WPOPC (R106). -/
def execWpopc (g : Guard) (d a : XReg) (s : State) : Out :=
  groupUn (fun a => BitVec.ofNat 64 (popcount a)) g d a s

/-- WCLZ (R106). -/
def execWclz (g : Guard) (d a : XReg) (s : State) : Out :=
  groupUn (fun a => BitVec.ofNat 64 (clzW a)) g d a s

/-- WCTZ (R106). -/
def execWctz (g : Guard) (d a : XReg) (s : State) : Out :=
  groupUn (fun a => BitVec.ofNat 64 (ctzW a)) g d a s

/-- WBREV (R106). -/
def execWbrev (g : Guard) (d a : XReg) (s : State) : Out :=
  groupUn (fun a => a.reverse) g d a s

/-- WBSWAP (R106). -/
def execWbswap (g : Guard) (d a : XReg) (s : State) : Out :=
  groupUn (fun a => bswapW a) g d a s

/-- WSEXT32 (R106). -/
def execWsext32 (g : Guard) (d a : XReg) (s : State) : Out :=
  groupUn (fun a => (a.setWidth 32).signExtend 64) g d a s

/-- WZEXT32 (R106). -/
def execWzext32 (g : Guard) (d a : XReg) (s : State) : Out :=
  groupUn (fun a => (a.setWidth 32).setWidth 64) g d a s

/-- V2X (R113). -/
def execV2x (g : Guard) (d : XReg) (a : Src8) (s : State) : Out :=
  groupWrite g d (1 + a.lits) ((s.cur.src8 a).setWidth 64) s

/-- V2XS (R113). -/
def execV2xs (g : Guard) (d : XReg) (a : Src8) (s : State) : Out :=
  groupWrite g d (1 + a.lits) ((s.cur.src8 a).signExtend 64) s

/-- VP2X (R113). -/
def execVp2x (g : Guard) (d : XReg) (v : VReg) (s : State) : Out :=
  groupWrite g d 1 (s.cur.r.pair v) s

/-- X2V: lr only if the destination names it (R113). -/
def execX2v (g : Guard) (d : Dst8) (a : XReg) (s : State) : Out :=
  guarded g 1 s (.next (s.onRegs (fun r => (r.put8 d ((r.getX a).setWidth 32)).adv 1)))

/-- X2VH: lr only if the destination names it (R113). -/
def execX2vh (g : Guard) (d : Dst8) (a : XReg) (s : State) : Out :=
  guarded g 1 s (.next (s.onRegs (fun r => (r.put8 d ((r.getX a).extractLsb' 32 32)).adv 1)))

/-- X2VP (R113). -/
def execX2vp (g : Guard) (v : VReg) (a : XReg) (s : State) : Out :=
  guarded g 1 s (.next (s.onRegs (fun r => (r.setPair v (r.getX a)).adv 1)))

end Sys2Proof.Machine
end

