-- ==== Sys2Proof/Machine/MemFrame.lean ====
section
/-! DEFINITION. Frame slot accesses (R143). -/

namespace Sys2Proof.Machine

/-- An access to a slot of the frame that d[DEPTH] names (R142, R143). -/
def slotAccess (g : Guard) (n : Nat) (dep : Fin 8) (slot : Fin 1024) (kind : MopKind) (mk : MReq → MReq) (s : State) : Out :=
  guarded g n s
    (outside s (withFrame s (s.cur.r.getD dep) kind.code (fun h =>
      let base := hAddr (s.cur.r.getD dep)
      if h.2.size ≤ slot.val then trap s cFRAME (BitVec.ofNat 64 base) 4
      else
        issue s (mk { MReq.plain kind (BitVec.ofNat 64 (base + 16 + 4 * slot.val)) 4 none with frame := true })
          (fun s => s.adv n))))

/-- FLD (R143). -/
def execFld (g : Guard) (d : Dst8) (dep : Fin 8) (slot : Fin 1024) (s : State) : Out :=
  slotAccess g 1 dep slot .load (fun q => { q with dst := .z32 d, lrw := true }) s

/-- FST (R143). -/
def execFst (g : Guard) (a : Src8) (dep : Fin 8) (slot : Fin 1024) (s : State) : Out :=
  slotAccess g (1 + a.lits) dep slot .store (fun q => { q with data := (s.cur.src8 a).setWidth 128 }) s

/-- FADDA: atomic at the frame's scope, returning nothing (R143). -/
def execFadda (g : Guard) (a : Src8) (dep : Fin 8) (slot : Fin 1024) (s : State) : Out :=
  guarded g (1 + a.lits) s
    (outside s (settled s
      (slotAccess none (1 + a.lits) dep slot (.atom .fadda .n32) (fun q => { q with data := (s.cur.src8 a).setWidth 128 }) s)))

end Sys2Proof.Machine
end

