-- ==== Sys2Proof/Machine/MemLane.lean ====
section
/-! DEFINITION. Loads and stores (R127-R135, R138). -/

namespace Sys2Proof.Machine

/-- An access at an LM memory operand, made of its address; the instruction has n words (R31, R127). -/
def lmAccess (g : Guard) (n : Nat) (m : MemArg) (size : Nat) (mk : W64 → MReq) (s : State) : Out :=
  guarded g n s (issue s (mk (lmAddr s.cur m size)) (fun s => s.adv n))

/-- A plain load of the LM format (R127). -/
def plainLoad (g : Guard) (dst : LdDst) (lrw : Bool) (size : Nat) (m : MemArg) (s : State) : Out :=
  lmAccess g (1 + m.lits) m size (fun a => { MReq.plain .load a size (some m.xb) with dst, lrw }) s

/-- A plain store of the LM format, `l` literals in T (R127). -/
def plainStore (g : Guard) (data : BitVec 128) (l size : Nat) (m : MemArg) (s : State) : Out :=
  guarded g (1 + l + m.lits) s
    (outside s (lmAccess none (1 + l + m.lits) m size (fun a => { MReq.plain .store a size (some m.xb) with data }) s))

/-- Size, destination and latch write of LDX (R133). -/
def ldxPlan : LdxT → Nat × LdDst × Bool
  | .b1 d => (1, .z32 d, true)
  | .b2 d => (2, .z32 d, true)
  | .b4 d => (4, .z32 d, true)
  | .b8 v => (8, .pair v, false)
  | .b16 v => (16, .quad v, false)

/-- Size and data of STX (R133). -/
def stxPlan (t : Thread) : StxT → Nat × BitVec 128
  | .b1 a => (1, (t.src8 a).setWidth 128)
  | .b2 a => (2, (t.src8 a).setWidth 128)
  | .b4 a => (4, (t.src8 a).setWidth 128)
  | .b8 v => (8, (t.r.pair v).setWidth 128)
  | .b16 v => (16, t.r.quad v)

/-- The address of WLD and WST (R34, R138). -/
def gmAddr (t : Thread) (b : XReg) (imm : BitVec 9) : W64 := t.r.getX b + imm.signExtend 64 * 8

/-- LDB (R127, R128). -/
def execLdb (g : Guard) (t : Dst8) (m : MemArg) (s : State) : Out :=
  plainLoad g (.z32 t) true 1 m s

/-- LDBS (R127, R128). -/
def execLdbs (g : Guard) (t : Dst8) (m : MemArg) (s : State) : Out :=
  plainLoad g (.s32 t) true 1 m s

/-- LDH (R127, R128). -/
def execLdh (g : Guard) (t : Dst8) (m : MemArg) (s : State) : Out :=
  plainLoad g (.z32 t) true 2 m s

/-- LDHS (R127, R128). -/
def execLdhs (g : Guard) (t : Dst8) (m : MemArg) (s : State) : Out :=
  plainLoad g (.s32 t) true 2 m s

/-- LDW (R127, R128). -/
def execLdw (g : Guard) (t : Dst8) (m : MemArg) (s : State) : Out :=
  plainLoad g (.z32 t) true 4 m s

/-- LDD (R127, R128). -/
def execLdd (g : Guard) (t : VReg) (m : MemArg) (s : State) : Out :=
  plainLoad g (.pair t) false 8 m s

/-- LDQ (R127, R128). -/
def execLdq (g : Guard) (t : VReg) (m : MemArg) (s : State) : Out :=
  plainLoad g (.quad t) false 16 m s

/-- LDX (R133, R135). -/
def execLdx (g : Guard) (t : LdxT) (m : MemArg) (scope : Scope) (acq : Bool) (hint : Hint) (s : State) : Out :=
  let p := ldxPlan t
  lmAccess g (2 + m.lits) m p.1
    (fun a =>
      { MReq.plain .load a p.1 (some m.xb) with
        dst := p.2.1, lrw := p.2.2, scope := scope.code, acq, hint, named := true }) s

/-- STB (R127, R128). -/
def execStb (g : Guard) (t : Src8) (m : MemArg) (s : State) : Out :=
  plainStore g ((s.cur.src8 t).setWidth 128) t.lits 1 m s

/-- STH (R127, R128). -/
def execSth (g : Guard) (t : Src8) (m : MemArg) (s : State) : Out :=
  plainStore g ((s.cur.src8 t).setWidth 128) t.lits 2 m s

/-- STW (R127, R128). -/
def execStw (g : Guard) (t : Src8) (m : MemArg) (s : State) : Out :=
  plainStore g ((s.cur.src8 t).setWidth 128) t.lits 4 m s

/-- STD (R127, R128). -/
def execStd (g : Guard) (t : VReg) (m : MemArg) (s : State) : Out :=
  plainStore g ((s.cur.r.pair t).setWidth 128) 0 8 m s

/-- STQ (R127, R128). -/
def execStq (g : Guard) (t : VReg) (m : MemArg) (s : State) : Out :=
  plainStore g (s.cur.r.quad t) 0 16 m s

/-- STX (R133, R135). -/
def execStx (g : Guard) (t : StxT) (m : MemArg) (scope : Scope) (rel : Bool) (hint : Hint) (s : State) : Out :=
  let p := stxPlan s.cur t
  let k : Out := lmAccess none (2 + t.lits + m.lits) m p.1
    (fun a =>
      { MReq.plain .store a p.1 (some m.xb) with data := p.2, scope := scope.code, rel, hint, named := true }) s
  guarded g (2 + t.lits + m.lits) s (outside s (if scope = .system then settled s k else k))

/-- WLD (R138). -/
def execWld (g : Guard) (t b : XReg) (imm : BitVec 9) (s : State) : Out :=
  guarded g 1 s (issue s { MReq.plain .load (gmAddr s.cur b imm) 8 (some b) with dst := .x t, named := true } (fun s => s.adv 1))

/-- WST (R138). -/
def execWst (g : Guard) (t b : XReg) (imm : BitVec 9) (s : State) : Out :=
  guarded g 1 s
    (outside s (issue s { MReq.plain .store (gmAddr s.cur b imm) 8 (some b) with data := (s.cur.r.getX t).setWidth 128, named := true } (fun s => s.adv 1)))

end Sys2Proof.Machine
end

