-- ==== Sys2Proof/Machine/Sync.lean ====
section
/-! DEFINITION. Barriers, convergence registers and the explicit signings (R174-R181). -/

namespace Sys2Proof.Machine

/-- A BAR arrival with count c (R181). -/
def arrive (s : State) (cluster : Bool) (id : Fin 16) (c : Nat) : Out :=
  match s.wgOf s.cur with
  | none => illegal8 s
  | some w =>
    let b := getBar s w cluster id
    if c = 0 then illegal8 s
    else if b.arr ≠ [] ∧ c ≠ b.c then
      let info := memberInfo 5 id.val cluster
      let s := setBar s w cluster id ⟨b.c, []⟩
      let s := b.arr.foldl
        (fun s a =>
          match s.thread? a.1 with
          | some t => askTrap (s.onThread t.ref (fun x => { x with wait := .none })) t cMEMBER 0 info
          | none => s) s
      trap s cMEMBER 0 info
    else
      orderPoint s s.cur.core (fun s =>
        let s := release s s.cur.core s.cur.cid (if cluster then 3 else 1)
        let s := setBar s w cluster id ⟨c, b.arr ++ [(s.cur.ref, 1)]⟩
        let s := s.onCur (fun t => { t with wait := .bar cluster id.val })
        .next (testBar s ((s.wg? w.id).getD w) cluster id))

/-- KSET with its mode (R174). -/
def kset (g : Guard) (k : Fin 8) (cluster maskMode : Bool) (a : XReg) (s : State) : Out :=
  guarded g 1 s
    (match s.cur.rest, s.wgOf s.cur with
     | some _, _ | none, none => illegal8 s
     | none, some w =>
       settled s
         (let v := s.cur.r.getX a
          let n := scopeCount s w cluster
          let kr := getK s w cluster k
          if (if maskMode then n ≤ v.toNat else v = 0 ∨ n < v.toNat) then illegal8 s
          else if kr.st = .gathering then
            (if kr.maskMode = maskMode ∧ kr.val = v then .next (s.adv 1)
             else trap (memberFault s w cluster k kr 4) cMEMBER 0 (memberInfo 4 k.val cluster))
          else .next ((setK s w cluster k { KReg.init with st := .armed, maskMode, val := v }).adv 1)))

/-- KXCH with its mode (R178). -/
def kxch (pos : Bool) (words : List Nat) (g : Guard) (k : Fin 8) (cluster : Bool) (d : Dst8) (a i : Src8) (s : State) : Out :=
  signExplicit g (2 + a.lits + i.lits) cluster k
    { Signing.plain (.kxch pos) words [] (2 + a.lits + i.lits) with a := s.cur.src8 a, i := s.cur.src8 i, dst := d } s

/-- KRED with its operation (R179). -/
def kred (op : Nat) (words : List Nat) (g : Guard) (k : Fin 8) (cluster : Bool) (d : Dst8) (a : Src8) (s : State) : Out :=
  signExplicit g (2 + a.lits) cluster k
    { Signing.plain (.kred op) words [] (2 + a.lits) with a := s.cur.src8 a, dst := d } s

/-- BAR (R181); ILLEGAL reason 8 on a restoration thread (R175). -/
def execBar (g : Guard) (cluster : Bool) (id : Fin 16) (cnt : Option (Fin 63)) (s : State) : Out :=
  guarded g 1 s
    (match s.cur.rest with
     | some _ => illegal8 s
     | none =>
       settled s (drained s
         (arrive s cluster id
           (match cnt with
            | some n => (s.cur.r.getX (Fin.castLE (by decide) n)).toNat
            | none => ((s.wgOf s.cur).map (fun w => scopeCount s w cluster)).getD 0))))

/-- KSET.COUNT (R174). -/
def execKsetCount (g : Guard) (k : Fin 8) (cluster : Bool) (a : XReg) (s : State) : Out :=
  kset g k cluster false a s

/-- KSET.MASK (R174). -/
def execKsetMask (g : Guard) (k : Fin 8) (cluster : Bool) (a : XReg) (s : State) : Out :=
  kset g k cluster true a s

/-- KSIGN: in MASK mode x[A] is the mask and a set-wide operand (R177). -/
def execKsign (g : Guard) (k : Fin 8) (cluster : Bool) (a : XReg) (s : State) : Out :=
  let inMask : Bool := ((s.wgOf s.cur).map (fun w => (getK s w cluster k).maskMode)).getD false
  let x := s.cur.r.getX a
  signExplicit g 1 cluster k
    { Signing.plain .ksign (encode (.ksign none k cluster a)) (if inMask then [x] else []) 1 with
      mask := if inMask then some x else none } s

/-- KXCH.TID (R178). -/
def execKxchTid (g : Guard) (k : Fin 8) (cluster : Bool) (d : Dst8) (a i : Src8) (s : State) : Out :=
  kxch false (encode (.kxchTid none k cluster d a i)) g k cluster d a i s

/-- KXCH.POS (R178). -/
def execKxchPos (g : Guard) (k : Fin 8) (cluster : Bool) (d : Dst8) (a i : Src8) (s : State) : Out :=
  kxch true (encode (.kxchPos none k cluster d a i)) g k cluster d a i s

/-- KRED.ADD.N32 (R179). -/
def execKredAddN32 (g : Guard) (k : Fin 8) (cluster : Bool) (d : Dst8) (a : Src8) (s : State) : Out :=
  kred 0 (encode (.kredAddN32 none k cluster d a)) g k cluster d a s

/-- KRED.ADD.F32 (R179). -/
def execKredAddF32 (g : Guard) (k : Fin 8) (cluster : Bool) (d : Dst8) (a : Src8) (s : State) : Out :=
  kred 1 (encode (.kredAddF32 none k cluster d a)) g k cluster d a s

/-- KRED.MIN.S32 (R179). -/
def execKredMinS32 (g : Guard) (k : Fin 8) (cluster : Bool) (d : Dst8) (a : Src8) (s : State) : Out :=
  kred 2 (encode (.kredMinS32 none k cluster d a)) g k cluster d a s

/-- KRED.MAX.S32 (R179). -/
def execKredMaxS32 (g : Guard) (k : Fin 8) (cluster : Bool) (d : Dst8) (a : Src8) (s : State) : Out :=
  kred 3 (encode (.kredMaxS32 none k cluster d a)) g k cluster d a s

/-- KRED.MIN.F32 (R179). -/
def execKredMinF32 (g : Guard) (k : Fin 8) (cluster : Bool) (d : Dst8) (a : Src8) (s : State) : Out :=
  kred 4 (encode (.kredMinF32 none k cluster d a)) g k cluster d a s

/-- KRED.MAX.F32 (R179). -/
def execKredMaxF32 (g : Guard) (k : Fin 8) (cluster : Bool) (d : Dst8) (a : Src8) (s : State) : Out :=
  kred 5 (encode (.kredMaxF32 none k cluster d a)) g k cluster d a s

/-- KRED.AND (R179). -/
def execKredAnd (g : Guard) (k : Fin 8) (cluster : Bool) (d : Dst8) (a : Src8) (s : State) : Out :=
  kred 6 (encode (.kredAnd none k cluster d a)) g k cluster d a s

/-- KRED.OR (R179). -/
def execKredOr (g : Guard) (k : Fin 8) (cluster : Bool) (d : Dst8) (a : Src8) (s : State) : Out :=
  kred 7 (encode (.kredOr none k cluster d a)) g k cluster d a s

/-- KRED.XOR (R179). -/
def execKredXor (g : Guard) (k : Fin 8) (cluster : Bool) (d : Dst8) (a : Src8) (s : State) : Out :=
  kred 8 (encode (.kredXor none k cluster d a)) g k cluster d a s

/-- KRED.NZ (R179). -/
def execKredNz (g : Guard) (k : Fin 8) (cluster : Bool) (d : Dst8) (a : Src8) (s : State) : Out :=
  kred 9 (encode (.kredNz none k cluster d a)) g k cluster d a s

end Sys2Proof.Machine
end

