-- ==== Sys2Proof/Machine/TBar.lean ====
section
/-! DEFINITION. TBAR and TBWAIT (R239-R241). -/

namespace Sys2Proof.Machine

/-- TBINIT: a count out of range is ILLEGAL reason 8, taken first (R63, R240). -/
def execTbinit (g : Guard) (a : XReg) (c : TbCnt) (s : State) : Out :=
  let n := tbCount s.cur c
  guarded g 1 s
    (outside s (settled s
      (if n = 0 ∨ 65535 < n.toNat then illegal8 s
       else
         onBar none (s.cur.r.getX a) 2 s (fun key _ _ =>
           .next ((s.putN s.cur.ref key 16
             ({ phase := 0, pendarr := n.toNat, reload := n.toNat, pendsec := 0, poison := false } : TBar).toNat).adv 1)))))

/-- TBARRIVE is a release at the barrier's scope (R240). -/
def execTbarrive (g : Guard) (d a : XReg) (c : TbCnt) (s : State) : Out :=
  let n := (tbCount s.cur c).toNat
  onBar g (s.cur.r.getX a) 3 s (fun key sc b =>
    if b.pendarr < n then illegal8 s
    else if b.poison then tbPoison s (s.cur.r.getX a)
    else
      drained s
        (let s := release s s.cur.core s.cur.cid sc
         let s := updateBar s s.cur.ref key (fun b => { b with pendarr := b.pendarr - n })
         .next (s.onRegs (fun r => (r.setX d (BitVec.ofNat 64 b.phase)).adv 1))))

/-- TBEXPECT: a count out of range is ILLEGAL reason 8, taken first (R63, R240). -/
def execTbexpect (g : Guard) (a : XReg) (c : TbCnt) (s : State) : Out :=
  let n := (tbCount s.cur c).toNat
  guarded g 1 s
    (outside s (settled s
      (if 2147483648 ≤ n then illegal8 s
       else
         onBar none (s.cur.r.getX a) 3 s (fun key _ b =>
           if 2147483648 ≤ b.pendsec + n then illegal8 s
           else if b.poison then tbPoison s (s.cur.r.getX a)
           else .next ((updateBar s s.cur.ref key (fun b => { b with pendsec := b.pendsec + n })).adv 1)))))

/-- TBTEST: 1 is an acquire at the barrier's scope (R240). -/
def execTbtest (g : Guard) (d a : XReg) (c : TbCnt) (s : State) : Out :=
  let x := (tbCount s.cur c).toNat % 16
  onBar g (s.cur.r.getX a) 1 s (fun _ sc b =>
    if b.poison then tbPoison s (s.cur.r.getX a)
    else
      let hit := b.phase != x
      let s := if hit then acquire s s.cur.core s.cur.cid sc else s
      .next (s.onRegs (fun r => (r.setX d (if hit then 1 else 0)).adv 1)))

/-- TBWAIT (R241). -/
def execTbwait (g : Guard) (a p : XReg) (s : State) : Out :=
  let ph := (s.cur.r.getX p).toNat % 16
  onBar g (s.cur.r.getX a) 1 s (fun _ sc b =>
    if b.poison then tbPoison s (s.cur.r.getX a)
    else if b.phase ≠ ph then .next ((acquire s s.cur.core s.cur.cid sc).adv 1)
    else waitAt s (.tbwait (s.cur.r.getX a) ph))

end Sys2Proof.Machine
end

