-- ==== Sys2Proof/Machine/Worklist.lean ====
section
/-! DEFINITION. The WLIST instructions (R284-R291). -/

namespace Sys2Proof.Machine

/-- A WLIST function of two words (R287): REGION, a pending fence, then what the worklist's state traps; `push` is WLPUSH. -/
def onList (g : Guard) (wl : Fin 4) (push : Bool) (s : State) (k : Worklist → Out) : Out :=
  guarded g 2 s
    (outside s (settled s
      (match s.wl? s.cur.cid wl with
       | none => illegal8 s
       | some w =>
         (match w.st with
          | .unconfigured => illegal8 s
          | .terminated => if push then illegal8 s else k w
          | .faulted =>
            (match w.flt with
             | some f => trap s f.1 f.2 (info306 0 1)
             | none => trap s cMEMERR 0 (info306 0 1))
          | .active => k w))))

/-- Retire the task held and join (R289). -/
def popStart (s : State) (wl : Fin 4) : State :=
  (wlDone s s.cur wl).onWl s.cur.cid wl (fun w => wlJoin w s.cur.ref)

/-- WLPOP and WLTRY (R289); `park` is what happens when nothing is reachable. -/
def popRun (s : State) (wl : Fin 4) (xa : XReg) (ps : PReg) (v : VReg) (park : State → State) : Out :=
  drained s
    (let s := popStart s wl
     match s.wl? s.cur.cid wl with
     | none => .next s
     | some w =>
       if w.st = .terminated then .next (popEnded s s.cur wl xa ps 2)
       else
         match popFind s s.cur wl w with
         | .none => .next (park s)
         | .hold => waitAt s (.gate (dieArb s.cur.core) popCode)
         | .found r s' =>
           (match reachRec s s.cur.cid s.cur.core wl w r with
            | .ok => .next (popGive s' s.cur wl xa ps v 2 r)
            | .page rid s => waitAt s (.page rid)
            | .lost s => .next s))

/-- WLSTAT's value (R291). -/
def wlstatValue (s : State) (t : Thread) (wl : Fin 4) : W64 :=
  match s.wl? t.cid wl with
  | none => 0
  | some w =>
    let st : Nat := match w.st with | .unconfigured => 0 | .active => 1 | .terminated => 2 | .faulted => 3
    if st = 0 then 0
    else
      let parked := ((parkedOn s t.cid wl).filter (fun x => dieOf x.core == dieOf t.core && w.parts.contains x.ref)).length
      let flight := (w.tasks.filter (fun k => ((s.thread? k.1).map (fun x => x.core == t.core)).getD false)).length
      BitVec.ofNat 64
        (st * 2 ^ 62 + w.delta * 2 ^ 56 + (if (wlHeld w t.ref).isSome then 2 ^ 55 else 0)
          + (if w.parts.contains t.ref then 2 ^ 54 else 0) + min parked 65535 * 2 ^ 32
          + (frontOf s t.core t.cid wl).length % 65536 * 2 ^ 16 + flight % 65536)

/-- WLPUSH: a floor drop and a full buffer wait (R284, R288). -/
def execWlpush (g : Guard) (wl : Fin 4) (v : VReg) (dep : Fin 8) (s : State) : Out :=
  onList g wl true s (fun w =>
    drained s
      (let rec4 := s.cur.r.range v.val 4
       let s := (sideOn s).onWl s.cur.cid wl (fun w => wlJoin w s.cur.ref)
       if belowSeen w (bucket w (rec4.headD 0)) then waitAt s (.wlpush wl rec4 dep.val false)
       else
         let s := sendFull s s.cur.core
         match frontRoom (s.core s.cur.core) dep.val with
         | some e =>
           (match pushAtGate s s.cur wl rec4 e with
            | some s => .next (s.adv 2)
            | none => waitAt s (.gate (dieArb s.cur.core) 0))
         | none => waitAt s (.wlpush wl rec4 dep.val true)))

/-- WLPOP parks while nothing is reachable (R289). -/
def execWlpop (g : Guard) (xa : XReg) (ps : PReg) (wl : Fin 4) (v : VReg) (s : State) : Out :=
  onList g wl false s (fun _ =>
    popRun s wl xa ps v (fun s => s.onCur (fun t => { t with wait := .wlpop wl xa ps v })))

/-- WLTRY answers status 1 where nothing is reachable (R289). -/
def execWltry (g : Guard) (xa : XReg) (ps : PReg) (wl : Fin 4) (v : VReg) (s : State) : Out :=
  onList g wl false s (fun _ => popRun s wl xa ps v (fun s => popStatus s s.cur xa ps 2 1))

/-- WLDONE: with no task held it does nothing (R290). -/
def execWldone (g : Guard) (wl : Fin 4) (s : State) : Out :=
  onList g wl false s (fun w =>
    if (wlHeld w s.cur.ref).isSome then drained s (.next ((wlDone s s.cur wl).adv 2)) else .next (s.adv 2))

/-- WLFLOOR (R291). -/
def execWlfloor (g : Guard) (xa : XReg) (wl : Fin 4) (s : State) : Out :=
  onList g wl false s (fun w =>
    let f := (w.units[dieOf s.cur.core]).fseen
    .next (s.onRegs (fun r => (r.setX xa ((f.map (BitVec.ofNat 64)).getD (BitVec.allOnes 64))).adv 2)))

/-- WLSTAT raises none of the worklist's traps (R287, R291). -/
def execWlstat (g : Guard) (xa : XReg) (wl : Fin 4) (s : State) : Out :=
  guarded g 2 s
    (outside s (settled s (.next (s.onRegs (fun r => (r.setX xa (wlstatValue s s.cur wl)).adv 2)))))

end Sys2Proof.Machine
end

