-- ==== Sys2Proof/Machine/Dispatch.lean ====
section
/-! DEFINITION. One arm for each constructor of Instr: a direct call of its meaning. -/

namespace Sys2Proof.Machine

/-- What each instruction and event does. -/
def exec (i : Instr) (s : State) : Host.Outcome State Fault Refusal :=
  match i with
  | .iadd g d a b => Sys2Proof.Machine.execIadd g d a b s
  | .isub g d a b => Sys2Proof.Machine.execIsub g d a b s
  | .imul g d a b => Sys2Proof.Machine.execImul g d a b s
  | .imulhs g d a b => Sys2Proof.Machine.execImulhs g d a b s
  | .imulhn g d a b => Sys2Proof.Machine.execImulhn g d a b s
  | .imad g d a b => Sys2Proof.Machine.execImad g d a b s
  | .isad g d a b => Sys2Proof.Machine.execIsad g d a b s
  | .imin g d a b => Sys2Proof.Machine.execImin g d a b s
  | .imax g d a b => Sys2Proof.Machine.execImax g d a b s
  | .nmin g d a b => Sys2Proof.Machine.execNmin g d a b s
  | .nmax g d a b => Sys2Proof.Machine.execNmax g d a b s
  | .and g d a b => Sys2Proof.Machine.execAnd g d a b s
  | .or g d a b => Sys2Proof.Machine.execOr g d a b s
  | .xor g d a b => Sys2Proof.Machine.execXor g d a b s
  | .andn g d a b => Sys2Proof.Machine.execAndn g d a b s
  | .shl g d a b => Sys2Proof.Machine.execShl g d a b s
  | .shr g d a b => Sys2Proof.Machine.execShr g d a b s
  | .sar g d a b => Sys2Proof.Machine.execSar g d a b s
  | .bfen g d a b => Sys2Proof.Machine.execBfen g d a b s
  | .bfes g d a b => Sys2Proof.Machine.execBfes g d a b s
  | .bfi g d a b => Sys2Proof.Machine.execBfi g d a b s
  | .prmt g d a b => Sys2Proof.Machine.execPrmt g d a b s
  | .csel g d a b => Sys2Proof.Machine.execCsel g d a b s
  | .mov g d a => Sys2Proof.Machine.execMov g d a s
  | .not g d a => Sys2Proof.Machine.execNot g d a s
  | .ineg g d a => Sys2Proof.Machine.execIneg g d a s
  | .iabs g d a => Sys2Proof.Machine.execIabs g d a s
  | .popc g d a => Sys2Proof.Machine.execPopc g d a s
  | .clz g d a => Sys2Proof.Machine.execClz g d a s
  | .ctz g d a => Sys2Proof.Machine.execCtz g d a s
  | .brev g d a => Sys2Proof.Machine.execBrev g d a s
  | .bswap g d a => Sys2Proof.Machine.execBswap g d a s
  | .sext8 g d a => Sys2Proof.Machine.execSext8 g d a s
  | .sext16 g d a => Sys2Proof.Machine.execSext16 g d a s
  | .zext8 g d a => Sys2Proof.Machine.execZext8 g d a s
  | .zext16 g d a => Sys2Proof.Machine.execZext16 g d a s
  | .fadd g d a b => Sys2Proof.Machine.execFadd g d a b s
  | .fsub g d a b => Sys2Proof.Machine.execFsub g d a b s
  | .fmul g d a b => Sys2Proof.Machine.execFmul g d a b s
  | .ffma g d a b => Sys2Proof.Machine.execFfma g d a b s
  | .fmin g d a b => Sys2Proof.Machine.execFmin g d a b s
  | .fmax g d a b => Sys2Proof.Machine.execFmax g d a b s
  | .fscale g d a b => Sys2Proof.Machine.execFscale g d a b s
  | .fabs g d a => Sys2Proof.Machine.execFabs g d a s
  | .fneg g d a => Sys2Proof.Machine.execFneg g d a s
  | .frcp g d a => Sys2Proof.Machine.execFrcp g d a s
  | .frsq g d a => Sys2Proof.Machine.execFrsq g d a s
  | .fsqrt g d a => Sys2Proof.Machine.execFsqrt g d a s
  | .fexp2 g d a => Sys2Proof.Machine.execFexp2 g d a s
  | .flog2 g d a => Sys2Proof.Machine.execFlog2 g d a s
  | .fsinr g d a => Sys2Proof.Machine.execFsinr g d a s
  | .fcosr g d a => Sys2Proof.Machine.execFcosr g d a s
  | .ftanh g d a => Sys2Proof.Machine.execFtanh g d a s
  | .fsigm g d a => Sys2Proof.Machine.execFsigm g d a s
  | .ffloor g d a => Sys2Proof.Machine.execFfloor g d a s
  | .fceil g d a => Sys2Proof.Machine.execFceil g d a s
  | .ftrunc g d a => Sys2Proof.Machine.execFtrunc g d a s
  | .frint g d a => Sys2Proof.Machine.execFrint g d a s
  | .ffrac g d a => Sys2Proof.Machine.execFfrac g d a s
  | .fsat g d a => Sys2Proof.Machine.execFsat g d a s
  | .fclass g d a => Sys2Proof.Machine.execFclass g d a s
  | .hadd2 g d a b => Sys2Proof.Machine.execHadd2 g d a b s
  | .hmul2 g d a b => Sys2Proof.Machine.execHmul2 g d a b s
  | .hfma2 g d a b => Sys2Proof.Machine.execHfma2 g d a b s
  | .bfma2 g d a b => Sys2Proof.Machine.execBfma2 g d a b s
  | .hmin2 g d a b => Sys2Proof.Machine.execHmin2 g d a b s
  | .hmax2 g d a b => Sys2Proof.Machine.execHmax2 g d a b s
  | .cvtF32S32 g d a => Sys2Proof.Machine.execCvtF32S32 g d a s
  | .cvtF32N32 g d a => Sys2Proof.Machine.execCvtF32N32 g d a s
  | .cvtS32F32 g d a => Sys2Proof.Machine.execCvtS32F32 g d a s
  | .cvtN32F32 g d a => Sys2Proof.Machine.execCvtN32F32 g d a s
  | .cvtS32F32Rn g d a => Sys2Proof.Machine.execCvtS32F32Rn g d a s
  | .cvtF16F32 g d a => Sys2Proof.Machine.execCvtF16F32 g d a s
  | .cvtF32F16l g d a => Sys2Proof.Machine.execCvtF32F16l g d a s
  | .cvtF32F16h g d a => Sys2Proof.Machine.execCvtF32F16h g d a s
  | .cvtBf16F32 g d a => Sys2Proof.Machine.execCvtBf16F32 g d a s
  | .cvtF32Bf16l g d a => Sys2Proof.Machine.execCvtF32Bf16l g d a s
  | .cvtF32Bf16h g d a => Sys2Proof.Machine.execCvtF32Bf16h g d a s
  | .cvtE4m3F32 g d a => Sys2Proof.Machine.execCvtE4m3F32 g d a s
  | .cvtE5m2F32 g d a => Sys2Proof.Machine.execCvtE5m2F32 g d a s
  | .cvtF32E4m3 g d a => Sys2Proof.Machine.execCvtF32E4m3 g d a s
  | .cvtF32E5m2 g d a => Sys2Proof.Machine.execCvtF32E5m2 g d a s
  | .cvtLns6F32 g d a => Sys2Proof.Machine.execCvtLns6F32 g d a s
  | .cvtF32Lns6 g d a => Sys2Proof.Machine.execCvtF32Lns6 g d a s
  | .cvtS8F32 g d a => Sys2Proof.Machine.execCvtS8F32 g d a s
  | .cvtN8F32 g d a => Sys2Proof.Machine.execCvtN8F32 g d a s
  | .icmp g pd cc a b => Sys2Proof.Machine.execIcmp g pd cc a b s
  | .ncmp g pd cc a b => Sys2Proof.Machine.execNcmp g pd cc a b s
  | .fcmp g pd cc a b => Sys2Proof.Machine.execFcmp g pd cc a b s
  | .plop g pd pa pb tt => Sys2Proof.Machine.execPlop g pd pa pb tt s
  | .ptov g d => Sys2Proof.Machine.execPtov g d s
  | .vtop g a => Sys2Proof.Machine.execVtop g a s
  | .fld g d dep slot => Sys2Proof.Machine.execFld g d dep slot s
  | .fst g a dep slot => Sys2Proof.Machine.execFst g a dep slot s
  | .fadda g a dep slot => Sys2Proof.Machine.execFadda g a dep slot s
  | .ldb g t m => Sys2Proof.Machine.execLdb g t m s
  | .ldbs g t m => Sys2Proof.Machine.execLdbs g t m s
  | .ldh g t m => Sys2Proof.Machine.execLdh g t m s
  | .ldhs g t m => Sys2Proof.Machine.execLdhs g t m s
  | .ldw g t m => Sys2Proof.Machine.execLdw g t m s
  | .ldd g t m => Sys2Proof.Machine.execLdd g t m s
  | .ldq g t m => Sys2Proof.Machine.execLdq g t m s
  | .ldx g t m scope acq hint => Sys2Proof.Machine.execLdx g t m scope acq hint s
  | .stb g t m => Sys2Proof.Machine.execStb g t m s
  | .sth g t m => Sys2Proof.Machine.execSth g t m s
  | .stw g t m => Sys2Proof.Machine.execStw g t m s
  | .std g t m => Sys2Proof.Machine.execStd g t m s
  | .stq g t m => Sys2Proof.Machine.execStq g t m s
  | .stx g t m scope rel hint => Sys2Proof.Machine.execStx g t m scope rel hint s
  | .atomAdd g t m oa => Sys2Proof.Machine.execAtomAdd g t m oa s
  | .atomMin g t m oa => Sys2Proof.Machine.execAtomMin g t m oa s
  | .atomMax g t m oa => Sys2Proof.Machine.execAtomMax g t m oa s
  | .atomAnd g t m oa => Sys2Proof.Machine.execAtomAnd g t m oa s
  | .atomOr g t m oa => Sys2Proof.Machine.execAtomOr g t m oa s
  | .atomXor g t m oa => Sys2Proof.Machine.execAtomXor g t m oa s
  | .atomExch g t m oa => Sys2Proof.Machine.execAtomExch g t m oa s
  | .atomCas g t m oa c => Sys2Proof.Machine.execAtomCas g t m oa c s
  | .atomIncw g t m oa => Sys2Proof.Machine.execAtomIncw g t m oa s
  | .atomFadd g t m oa => Sys2Proof.Machine.execAtomFadd g t m oa s
  | .atomHadd2 g t m oa => Sys2Proof.Machine.execAtomHadd2 g t m oa s
  | .nop bits => Sys2Proof.Machine.execNop bits s
  | .wadd g d a b => Sys2Proof.Machine.execWadd g d a b s
  | .wsub g d a b => Sys2Proof.Machine.execWsub g d a b s
  | .wmul g d a b => Sys2Proof.Machine.execWmul g d a b s
  | .wmulhs g d a b => Sys2Proof.Machine.execWmulhs g d a b s
  | .wmulhn g d a b => Sys2Proof.Machine.execWmulhn g d a b s
  | .wand g d a b => Sys2Proof.Machine.execWand g d a b s
  | .wor g d a b => Sys2Proof.Machine.execWor g d a b s
  | .wxor g d a b => Sys2Proof.Machine.execWxor g d a b s
  | .wshl g d a b => Sys2Proof.Machine.execWshl g d a b s
  | .wshr g d a b => Sys2Proof.Machine.execWshr g d a b s
  | .wsar g d a b => Sys2Proof.Machine.execWsar g d a b s
  | .wmin g d a b => Sys2Proof.Machine.execWmin g d a b s
  | .wmax g d a b => Sys2Proof.Machine.execWmax g d a b s
  | .wnmin g d a b => Sys2Proof.Machine.execWnmin g d a b s
  | .wnmax g d a b => Sys2Proof.Machine.execWnmax g d a b s
  | .wcmp g pd cc a b => Sys2Proof.Machine.execWcmp g pd cc a b s
  | .wncmp g pd cc a b => Sys2Proof.Machine.execWncmp g pd cc a b s
  | .wsel g d a b => Sys2Proof.Machine.execWsel g d a b s
  | .wmov g d a => Sys2Proof.Machine.execWmov g d a s
  | .wnot g d a => Sys2Proof.Machine.execWnot g d a s
  | .wneg g d a => Sys2Proof.Machine.execWneg g d a s
  | .wabs g d a => Sys2Proof.Machine.execWabs g d a s
  | .wpopc g d a => Sys2Proof.Machine.execWpopc g d a s
  | .wclz g d a => Sys2Proof.Machine.execWclz g d a s
  | .wctz g d a => Sys2Proof.Machine.execWctz g d a s
  | .wbrev g d a => Sys2Proof.Machine.execWbrev g d a s
  | .wbswap g d a => Sys2Proof.Machine.execWbswap g d a s
  | .wsext32 g d a => Sys2Proof.Machine.execWsext32 g d a s
  | .wzext32 g d a => Sys2Proof.Machine.execWzext32 g d a s
  | .dadd g d a b => Sys2Proof.Machine.execDadd g d a b s
  | .dsub g d a b => Sys2Proof.Machine.execDsub g d a b s
  | .dmul g d a b => Sys2Proof.Machine.execDmul g d a b s
  | .dfma g d a b => Sys2Proof.Machine.execDfma g d a b s
  | .dmin g d a b => Sys2Proof.Machine.execDmin g d a b s
  | .dmax g d a b => Sys2Proof.Machine.execDmax g d a b s
  | .dabs g d a => Sys2Proof.Machine.execDabs g d a s
  | .dneg g d a => Sys2Proof.Machine.execDneg g d a s
  | .dsqrt g d a => Sys2Proof.Machine.execDsqrt g d a s
  | .drcp g d a => Sys2Proof.Machine.execDrcp g d a s
  | .dfloor g d a => Sys2Proof.Machine.execDfloor g d a s
  | .dceil g d a => Sys2Proof.Machine.execDceil g d a s
  | .dtrunc g d a => Sys2Proof.Machine.execDtrunc g d a s
  | .drint g d a => Sys2Proof.Machine.execDrint g d a s
  | .dclass g d a => Sys2Proof.Machine.execDclass g d a s
  | .dcmp g pd cc a b => Sys2Proof.Machine.execDcmp g pd cc a b s
  | .dcvtDS64 g d a => Sys2Proof.Machine.execDcvtDS64 g d a s
  | .dcvtDN64 g d a => Sys2Proof.Machine.execDcvtDN64 g d a s
  | .dcvtS64D g d a => Sys2Proof.Machine.execDcvtS64D g d a s
  | .dcvtN64D g d a => Sys2Proof.Machine.execDcvtN64D g d a s
  | .dcvtDF32l g d a => Sys2Proof.Machine.execDcvtDF32l g d a s
  | .dcvtF32D g d a => Sys2Proof.Machine.execDcvtF32D g d a s
  | .dcvtDS32 g d a => Sys2Proof.Machine.execDcvtDS32 g d a s
  | .dcvtS32D g d a => Sys2Proof.Machine.execDcvtS32D g d a s
  | .v2x g d a => Sys2Proof.Machine.execV2x g d a s
  | .v2xs g d a => Sys2Proof.Machine.execV2xs g d a s
  | .vp2x g d v => Sys2Proof.Machine.execVp2x g d v s
  | .x2v g d a => Sys2Proof.Machine.execX2v g d a s
  | .x2vh g d a => Sys2Proof.Machine.execX2vh g d a s
  | .x2vp g v a => Sys2Proof.Machine.execX2vp g v a s
  | .wld g t b imm => Sys2Proof.Machine.execWld g t b imm s
  | .wst g t b imm => Sys2Proof.Machine.execWst g t b imm s
  | .bra g disp => Sys2Proof.Machine.execBra g disp s
  | .brd g disp => Sys2Proof.Machine.execBrd g disp s
  | .call g disp => Sys2Proof.Machine.execCall g disp s
  | .callr g a => Sys2Proof.Machine.execCallr g a s
  | .ret g => Sys2Proof.Machine.execRet g s
  | .jmp g a => Sys2Proof.Machine.execJmp g a s
  | .exit g => Sys2Proof.Machine.execExit g s
  | .yield g => Sys2Proof.Machine.execYield g s
  | .trap g n => Sys2Proof.Machine.execTrap g n s
  | .tret g => Sys2Proof.Machine.execTret g s
  | .srd g d idx => Sys2Proof.Machine.execSrd g d idx s
  | .swr g t idx => Sys2Proof.Machine.execSwr g t idx s
  | .tagof g d r => Sys2Proof.Machine.execTagof g d r s
  | .fmtof g d r => Sys2Proof.Machine.execFmtof g d r s
  | .waitc g loads stores copies tiles => Sys2Proof.Machine.execWaitc g loads stores copies tiles s
  | .fence g scope kinds => Sys2Proof.Machine.execFence g scope kinds s
  | .ftok g d scope kinds => Sys2Proof.Machine.execFtok g d scope kinds s
  | .fwait g a => Sys2Proof.Machine.execFwait g a s
  | .bar g cluster id cnt => Sys2Proof.Machine.execBar g cluster id cnt s
  | .ksetCount g k cluster a => Sys2Proof.Machine.execKsetCount g k cluster a s
  | .ksetMask g k cluster a => Sys2Proof.Machine.execKsetMask g k cluster a s
  | .ksign g k cluster a => Sys2Proof.Machine.execKsign g k cluster a s
  | .kxchTid g k cluster d a j => Sys2Proof.Machine.execKxchTid g k cluster d a j s
  | .kxchPos g k cluster d a j => Sys2Proof.Machine.execKxchPos g k cluster d a j s
  | .kredAddN32 g k cluster d a => Sys2Proof.Machine.execKredAddN32 g k cluster d a s
  | .kredAddF32 g k cluster d a => Sys2Proof.Machine.execKredAddF32 g k cluster d a s
  | .kredMinS32 g k cluster d a => Sys2Proof.Machine.execKredMinS32 g k cluster d a s
  | .kredMaxS32 g k cluster d a => Sys2Proof.Machine.execKredMaxS32 g k cluster d a s
  | .kredMinF32 g k cluster d a => Sys2Proof.Machine.execKredMinF32 g k cluster d a s
  | .kredMaxF32 g k cluster d a => Sys2Proof.Machine.execKredMaxF32 g k cluster d a s
  | .kredAnd g k cluster d a => Sys2Proof.Machine.execKredAnd g k cluster d a s
  | .kredOr g k cluster d a => Sys2Proof.Machine.execKredOr g k cluster d a s
  | .kredXor g k cluster d a => Sys2Proof.Machine.execKredXor g k cluster d a s
  | .kredNz g k cluster d a => Sys2Proof.Machine.execKredNz g k cluster d a s
  | .mma g xa xb xc c => Sys2Proof.Machine.execMma g xa xb xc c s
  | .mdrain g xa xb xc c => Sys2Proof.Machine.execMdrain g xa xb xc c s
  | .mzero g slot => Sys2Proof.Machine.execMzero g slot s
  | .mldsc g d a => Sys2Proof.Machine.execMldsc g d a s
  | .mstat g d slot => Sys2Proof.Machine.execMstat g d slot s
  | .tbinit g a c => Sys2Proof.Machine.execTbinit g a c s
  | .tbarrive g d a c => Sys2Proof.Machine.execTbarrive g d a c s
  | .tbexpect g a c => Sys2Proof.Machine.execTbexpect g a c s
  | .tbtest g d a c => Sys2Proof.Machine.execTbtest g d a c s
  | .tbwait g a p => Sys2Proof.Machine.execTbwait g a p s
  | .wlpush g wl v dep => Sys2Proof.Machine.execWlpush g wl v dep s
  | .wlpop g xa ps wl v => Sys2Proof.Machine.execWlpop g xa ps wl v s
  | .wltry g xa ps wl v => Sys2Proof.Machine.execWltry g xa ps wl v s
  | .wldone g wl => Sys2Proof.Machine.execWldone g wl s
  | .wlfloor g xa wl => Sys2Proof.Machine.execWlfloor g xa wl s
  | .wlstat g xa wl => Sys2Proof.Machine.execWlstat g xa wl s
  | .fenter g dep a => Sys2Proof.Machine.execFenter g dep a s
  | .fleave g dep => Sys2Proof.Machine.execFleave g dep s
  | .fopen g cluster dep a k => Sys2Proof.Machine.execFopen g cluster dep a k s
  | .flink g dep a => Sys2Proof.Machine.execFlink g dep a s
  | .fhnd g d dep => Sys2Proof.Machine.execFhnd g d dep s
  | .fdrop g a => Sys2Proof.Machine.execFdrop g a s
  | .fsync g dep => Sys2Proof.Machine.execFsync g dep s
  | .funlink g dep => Sys2Proof.Machine.execFunlink g dep s
  | .rcall g region argv resv argc resc => Sys2Proof.Machine.execRcall g region argv resv argc resc s
  | .rcallExact g region argv resv argc resc => Sys2Proof.Machine.execRcallExact g region argv resv argc resc s
  | .rcallSonly g region argv resv argc resc => Sys2Proof.Machine.execRcallSonly g region argv resv argc resc s
  | .rret g => Sys2Proof.Machine.execRret g s
  | .rload g xb => Sys2Proof.Machine.execRload g xb s
  | .rctlEvict g xa xb => Sys2Proof.Machine.execRctlEvict g xa xb s
  | .rctlPin g xa xb => Sys2Proof.Machine.execRctlPin g xa xb s
  | .rctlUnpin g xa xb => Sys2Proof.Machine.execRctlUnpin g xa xb s
  | .rctlFlush g xa xb => Sys2Proof.Machine.execRctlFlush g xa xb s
  | .rctr g xa xb => Sys2Proof.Machine.execRctr g xa xb s
  | .rinfo g xa xb => Sys2Proof.Machine.execRinfo g xa xb s
  | .collAllreduce g xa xb xc send recv ty op => Sys2Proof.Machine.execCollAllreduce g xa xb xc send recv ty op s
  | .collReducescatter g xa xb xc send recv ty op => Sys2Proof.Machine.execCollReducescatter g xa xb xc send recv ty op s
  | .collAllgather g xa xb xc send recv ty => Sys2Proof.Machine.execCollAllgather g xa xb xc send recv ty s
  | .collBroadcast g xa xb xc send recv ty => Sys2Proof.Machine.execCollBroadcast g xa xb xc send recv ty s
  | .collAlltoall g xa xb xc send recv ty => Sys2Proof.Machine.execCollAlltoall g xa xb xc send recv ty s
  | .bkpt g => Sys2Proof.Machine.execBkpt g s
  | .tlbinv g a => Sys2Proof.Machine.execTlbinv g a s
  | .l1clean g a => Sys2Proof.Machine.execL1clean g a s
  | .archive g a => Sys2Proof.Machine.execArchive g a s
  | .qlaunch g a => Sys2Proof.Machine.execQlaunch g a s
  | .qsignal g a => Sys2Proof.Machine.execQsignal g a s
  | .qwaitsig g a => Sys2Proof.Machine.execQwaitsig g a s
  | .qswitch g a => Sys2Proof.Machine.execQswitch g a s
  | .qphase g a => Sys2Proof.Machine.execQphase g a s
  | .qdone g => Sys2Proof.Machine.execQdone g s
  | .renable g a => Sys2Proof.Machine.execRenable g a s
  | .wlcfg g a => Sys2Proof.Machine.execWlcfg g a s
  | .launchDecision l => Sys2Proof.Machine.execLaunchDecision l s
  | .gangPlacement l gi die cluster first rows bases zap => Sys2Proof.Machine.execGangPlacement l gi die cluster first rows bases zap s
  | .phaseClean l => Sys2Proof.Machine.execPhaseClean l s
  | .workgroupEnd w => Sys2Proof.Machine.execWorkgroupEnd w s
  | .gangRetire gid => Sys2Proof.Machine.execGangRetire gid s
  | .pick core => Sys2Proof.Machine.execPick core s
  | .ageCap t => Sys2Proof.Machine.execAgeCap t s
  | .regroupRelease w target => Sys2Proof.Machine.execRegroupRelease w target s
  | .loadReturn t n ecc => Sys2Proof.Machine.execLoadReturn t n ecc s
  | .storePerformed t n => Sys2Proof.Machine.execStorePerformed t n s
  | .l1Eviction core cid line => Sys2Proof.Machine.execL1Eviction core cid line s
  | .fenceComplete t => Sys2Proof.Machine.execFenceComplete t s
  | .fenceRollback t => Sys2Proof.Machine.execFenceRollback t s
  | .tokenComplete t seq => Sys2Proof.Machine.execTokenComplete t seq s
  | .pageWalk core cid va => Sys2Proof.Machine.execPageWalk core cid va s
  | .pageRequest rid => Sys2Proof.Machine.execPageRequest rid s
  | .pagerResponse cid => Sys2Proof.Machine.execPagerResponse cid s
  | .kill cid w => Sys2Proof.Machine.execKill cid w s
  | .copyTakeEntry w => Sys2Proof.Machine.execCopyTakeEntry w s
  | .copy w ch => Sys2Proof.Machine.execCopy w ch s
  | .gather w ch => Sys2Proof.Machine.execGather w ch s
  | .fill w ch => Sys2Proof.Machine.execFill w ch s
  | .convert w ch => Sys2Proof.Machine.execConvert w ch s
  | .convertout w ch => Sys2Proof.Machine.execConvertout w ch s
  | .mmaEntry w => Sys2Proof.Machine.execMmaEntry w s
  | .mdrainEntry w => Sys2Proof.Machine.execMdrainEntry w s
  | .mctlEntry w => Sys2Proof.Machine.execMctlEntry w s
  | .matrixEntryComplete w => Sys2Proof.Machine.execMatrixEntryComplete w s
  | .mmaResume w => Sys2Proof.Machine.execMmaResume w s
  | .regionLoad core cid region => Sys2Proof.Machine.execRegionLoad core cid region s
  | .surrogateEvaluation core n => Sys2Proof.Machine.execSurrogateEvaluation core n s
  | .restorationStart core n => Sys2Proof.Machine.execRestorationStart core n s
  | .violationReport n => Sys2Proof.Machine.execViolationReport n s
  | .disableApply core cid region => Sys2Proof.Machine.execDisableApply core cid region s
  | .enableApply core cid region => Sys2Proof.Machine.execEnableApply core cid region s
  | .counterBlockWrite cid region => Sys2Proof.Machine.execCounterBlockWrite cid region s
  | .floorRefresh cid wl => Sys2Proof.Machine.execFloorRefresh cid wl s
  | .groupFloorRefresh cid wl peer quiet => Sys2Proof.Machine.execGroupFloorRefresh cid wl peer quiet s
  | .floorDropAck t => Sys2Proof.Machine.execFloorDropAck t s
  | .wlpushPlace t => Sys2Proof.Machine.execWlpushPlace t s
  | .wlpopServe t n => Sys2Proof.Machine.execWlpopServe t n s
  | .frontBufferSend core n => Sys2Proof.Machine.execFrontBufferSend core n s
  | .chunkSpill cid wl die bucket => Sys2Proof.Machine.execChunkSpill cid wl die bucket s
  | .chunkReadBack cid wl die n => Sys2Proof.Machine.execChunkReadBack cid wl die n s
  | .chunkMigrate cid wl src dst count => Sys2Proof.Machine.execChunkMigrate cid wl src dst count s
  | .spillRefill w r => Sys2Proof.Machine.execSpillRefill w r s
  | .contextCreate cid => Sys2Proof.Machine.execContextCreate cid s
  | .contextDestroy cid => Sys2Proof.Machine.execContextDestroy cid s
  | .contextSelect cid => Sys2Proof.Machine.execContextSelect cid s
  | .queueEnable q => Sys2Proof.Machine.execQueueEnable q s
  | .queueDisable q => Sys2Proof.Machine.execQueueDisable q s
  | .queueQuiesce q => Sys2Proof.Machine.execQueueQuiesce q s
  | .queueNotify f q tail => Sys2Proof.Machine.execQueueNotify f q tail s
  | .packetStart c q => Sys2Proof.Machine.execPacketStart c q s
  | .qwaitsigResume q => Sys2Proof.Machine.execQwaitsigResume q s
  | .tickstopWrite v => Sys2Proof.Machine.execTickstopWrite v s
  | .tickStop => Sys2Proof.Machine.execTickStop s
  | .registerWrite off v => Sys2Proof.Machine.execRegisterWrite off v s
  | .preemptRequest gids bound => Sys2Proof.Machine.execPreemptRequest gids bound s
  | .drainExpire gid => Sys2Proof.Machine.execDrainExpire gid s
  | .gangSave gid => Sys2Proof.Machine.execGangSave gid s
  | .gangRestore slot die cluster rows bases => Sys2Proof.Machine.execGangRestore slot die cluster rows bases s
  | .switchTick => Sys2Proof.Machine.execSwitchTick s
  | .switchComplete => Sys2Proof.Machine.execSwitchComplete s
  | .haltRequest ts => Sys2Proof.Machine.execHaltRequest ts s
  | .threadHalt t => Sys2Proof.Machine.execThreadHalt t s
  | .resumeRequest ts => Sys2Proof.Machine.execResumeRequest ts s
  | .sample core => Sys2Proof.Machine.execSample core s
  | .checkpoint cid => Sys2Proof.Machine.execCheckpoint cid s
  | .gatePass t => Sys2Proof.Machine.execGatePass t s
  | .intervalClose cid => Sys2Proof.Machine.execIntervalClose cid s
  | .collChunk cid g k peers => Sys2Proof.Machine.execCollChunk cid g k peers s
  | .collectiveComplete cid g k ok => Sys2Proof.Machine.execCollectiveComplete cid g k ok s
  | .ingressWrite f va bytes => Sys2Proof.Machine.execIngressWrite f va bytes s
  | .ingressRead f va n => Sys2Proof.Machine.execIngressRead f va n s
  | .functionLevelReset f => Sys2Proof.Machine.execFunctionLevelReset f s
  | .coreFailure core => Sys2Proof.Machine.execCoreFailure core s
  | .memoryRetire hbm n => Sys2Proof.Machine.execMemoryRetire hbm n s
  | .moduleReset => Sys2Proof.Machine.execModuleReset s
  | .attestationQuote cid nonce => Sys2Proof.Machine.execAttestationQuote cid nonce s
  | .linkFailure port => Sys2Proof.Machine.execLinkFailure port s
  | .flitRetry port => Sys2Proof.Machine.execFlitRetry port s
  | .podLeave => Sys2Proof.Machine.execPodLeave s
  | .linkUp port => Sys2Proof.Machine.execLinkUp port s
  | .ngurilIngress port pa acc => Sys2Proof.Machine.execNgurilIngress port pa acc s
  | .vmodeWrite v => Sys2Proof.Machine.execVmodeWrite v s
  | .instructionFetch t => Sys2Proof.Machine.execInstructionFetch t s
  | .resultWriteback t r => Sys2Proof.Machine.execResultWriteback t r s

end Sys2Proof.Machine
end

