-- ==== Sys2Proof/Machine/Pool.lean ====
section
/-! DEFINITION. Register use, and eviction while the pool is full (R168, R169). -/

namespace Sys2Proof.Machine

/-- Note at which tick a workgroup's registers were used. -/
def noteUse (s : State) (t : Thread) (row : Row) : State :=
  match t.ref with
  | .thr w _ =>
    if ((s.wg? w).map (spills s)).getD false then
      let rs := rowVX row
      s.onWg w (fun x => { x with use := rs.map (fun r => (r, s.tick)) ++ x.use.filter (fun u => !rs.contains u.1) })
    else s
  | .none | .rest _ _ | .cur _ => s

/-- A register's name among those an instruction names. -/
def regName : VXReg → RegName
  | .v n => .v n | .x n => .x n

/-- Does a register hold a value that a rollback would undo (R207, R209)? -/
def speculative (t : Thread) (r : VXReg) : Bool :=
  match t.fence with
  | none => false
  | some f => (match r with | .v n => f.snap.getV n != t.r.getV n | .x n => f.snap.getX n != t.r.getX n)

/-- The registers of a workgroup that a victim may be: resident, none that the current instruction of a thread reads or writes (R169),
none into which a merge is pending (R266), none with a value that may be undone (log entry 87). -/
def victims169 (s : State) (w : Wg) (l : LRec) : List VXReg :=
  let ts := liveOf s w.id
  let cur := ts.flatMap (currentRegs s)
  (declared l).filter (fun r => !isSpilled w r && !cur.contains (regName r) && !ts.any (fun t => pendingBy { t with mops := [] } (regName r) || speculative t r))

/-- The tick at which a register was last used. -/
def lastUse (w : Wg) (r : VXReg) : Nat := ((w.use.find? (fun u => u.1 == r)).map (·.2)).getD 0

/-- The register the spill engine evicts next on a core (R169, R171): the least recently used, of a workgroup with no ready
thread if there is one. Of several used in the same tick it takes the first by workgroup, v before x, by number (log entry 88). -/
def pickVictim (s : State) (core : Nat) : Option (Wg × VXReg) :=
  let ws := (wgsOn s core).filter (spills s)
  let of (ws : List Wg) : List (Wg × VXReg) :=
    ws.flatMap (fun w => match s.lrecOf w with | some l => (victims169 s w l).map (fun r => (w, r)) | none => [])
  let idle := of (ws.filter (fun w => !(liveOf s w.id).any (ready s)))
  let all := if idle.isEmpty then of ws else idle
  (sortBy (fun x => lastUse x.1 x.2) all).head?

/-- Pool bytes in use and kept on a core (R168). -/
def poolHeld (s : State) (core : Nat) : Nat := ((wgsOn s core).map (poolUse s)).sum + standing s core

/-- Evict until the pool holds what it must (R169); a missing page ends the attempt, and the next write makes another. -/
def evictLoop : Nat → Nat → State → State
  | 0, _, s => s
  | n + 1, core, s =>
    if poolHeld s core ≤ Config.poolBytes then s
    else
      match pickVictim s core with
      | none => s
      | some (w, r) =>
        let s := evict s w r
        if ((s.wg? w.id).map (fun x => isSpilled x r)).getD false then evictLoop n core s else s

/-- Make room in a core's pool after a write (R169): nothing is evicted where no workgroup has a spill area (R171). -/
def makeRoom (s : State) (core : Nat) : State := if (wgsOn s core).any (spills s) then evictLoop 6144 core s else s

/-- Make room on every core after an instruction or event, which may have written registers on several (R169). -/
def makeRooms (s : State) : State := ((s.wgs.filter (spills s)).map (·.core)).eraseDups.foldl makeRoom s

end Sys2Proof.Machine
end

