-- ==== Sys2Proof/Machine/Issue.lean ====
section
/-! DEFINITION. One instruction of the selected thread (R158, R159): fetch, decode faults (R16, R20-R23, R61), what makes it
wait, its meaning, and what issuing it counts. -/

namespace Sys2Proof.Machine

/-! ## The meaning of a row -/

/-- Run a fetched row: the meaning of its instruction. -/
noncomputable def execRow (r : Row) (s : State) : Out := exec r.instr s

/-- The same without building the instruction: Lean compiles no constructor past the 245th. -/
def execRowFast (r : Row) (s : State) : Out :=
  match r with
  | .early i => exec i s
  | .rload g xb => execRload g xb s
  | .rctlEvict g xa xb => execRctlEvict g xa xb s
  | .rctlPin g xa xb => execRctlPin g xa xb s
  | .rctlUnpin g xa xb => execRctlUnpin g xa xb s
  | .rctlFlush g xa xb => execRctlFlush g xa xb s
  | .rctr g xa xb => execRctr g xa xb s
  | .rinfo g xa xb => execRinfo g xa xb s
  | .collAllreduce g xa xb xc o f ty op => execCollAllreduce g xa xb xc o f ty op s
  | .collReducescatter g xa xb xc o f ty op => execCollReducescatter g xa xb xc o f ty op s
  | .collAllgather g xa xb xc o f ty => execCollAllgather g xa xb xc o f ty s
  | .collBroadcast g xa xb xc o f ty => execCollBroadcast g xa xb xc o f ty s
  | .collAlltoall g xa xb xc o f ty => execCollAlltoall g xa xb xc o f ty s
  | .bkpt g => execBkpt g s
  | .tlbinv g a => execTlbinv g a s
  | .l1clean g a => execL1clean g a s
  | .archive g a => execArchive g a s
  | .qlaunch g a => execQlaunch g a s
  | .qsignal g a => execQsignal g a s
  | .qwaitsig g a => execQwaitsig g a s
  | .qswitch g a => execQswitch g a s
  | .qphase g a => execQphase g a s
  | .qdone g => execQdone g s
  | .renable g a => execRenable g a s
  | .wlcfg g a => execWlcfg g a s

@[csimp] theorem execRow_eq_fast : @execRow = @execRowFast := by
  funext r s
  cases r <;> rfl

/-! ## What makes a row fault or wait -/

/-- The ILLEGAL that a decoded row has in the selected thread (R16, R61). -/
def rowFault (s : State) (row : Row) : Option Nat := rowFaultOf s s.cur row

/-- Does a row take effect in a thread: under its guard, or as a selection, which has none (R29, R86, R105)? -/
def executes (t : Thread) (w : Nat) : Row → Bool
  | .early (.csel _ _ _ _) | .early (.wsel _ _ _ _) => true
  | _ => t.r.holds (guardOf w)

/-- A failed surrogate call whose result the row names (R266, R268); a guard-false row reads and writes nothing (R29). -/
def failedCall (t : Thread) (w : Nat) (row : Row) : Option (RPend × W64 × W64) :=
  if !executes t w row then none
  else
  match t.rpend.find? (fun p => p.failed.isSome
      && (rowRegs row).any (fun r => match r with | .v n => p.resv ≤ n.val && n.val < p.resv + p.resc | .x _ | .o _ | .lr | .p _ => false)) with
  | none => none
  | some p => p.failed.map (fun f => (p, f.1, f.2))

/-- The instructions past a speculative fence have reached their limit (R209). -/
def fenceFull (t : Thread) : Bool := (t.fence.map (fun f => decide (32 ≤ f.count))).getD false

/-- A curator whose budget is used up (R372). -/
def budgetOut (s : State) (t : Thread) : Bool :=
  match t.ref with
  | .cur c => ((s.curator? c).map (fun k => k.left == 0)).getD false
  | .none | .thr _ _ | .rest _ _ => false

/-! ## What issuing counts -/

/-- One instruction more for the thread, one less for a curator's packet (R357, R372). -/
def countIssue (s : State) : State :=
  let s := s.onCur (fun t => { t with issues := t.issues + 1 })
  match s.cur.ref with
  | .cur c => { s with curators := updFirst (fun k => k.c == c) (fun k => { k with left := k.left - 1 }) s.curators }
  | .none | .thr _ _ | .rest _ _ => s

/-- An instruction that waits has not issued. -/
def uncountIssue (s : State) : State :=
  let s := s.onCur (fun t => { t with issues := t.issues - 1 })
  match s.cur.ref with
  | .cur c => { s with curators := updFirst (fun k => k.c == c) (fun k => { k with left := k.left + 1 }) s.curators }
  | .none | .thr _ _ | .rest _ _ => s

/-- The latch writes of older loads are cancelled by a later write (R131). -/
def cancelLatch (t : Thread) (before : Nat) : Thread :=
  { t with mops := t.mops.map (fun (m : Mop) => if m.id < before then { m with lrw := false } else m) }

/-- What a v or x register holds, as others see it until a pipe's result is written (R167). -/
def Regs.seen (r : Regs) : RegName → W64
  | .v n => (r.getV n).setWidth 64
  | .x n => r.getX n
  | .o _ | .lr | .p _ => 0

/-- What an issued instruction leaves behind in its thread: age 0, the PC for samples, results on their way (R19), the latch
(R131), the count behind a fence (R209). `t0` is the thread before it. -/
def noteIssue (t0 : Thread) (w : Nat) (row : Row) (t : Thread) : Thread :=
  let wr := executes t0 w row
  let t := if (wr && (rowDst row).contains .lr) || t.mops.any (fun m => t0.nmop ≤ m.id && m.lrw) then cancelLatch t t0.nmop else t
  { t with
    age := 0, issued := true, ipc := t0.r.pc
    rej := (match t.wait with | .page _ => t.rej | _ => none)
    board := if wr && !t.exited then ((rowDst row).map (fun r => ({ reg := r, pc := t0.r.pc, old := t0.r.seen r } : OnWay))) ++ t.board else t.board
    fence := if t0.fence.isSome then t.fence.map (fun f => { f with count := f.count + 1 }) else t.fence }

/-! ## The instruction -/

/-- After the meaning: an instruction that waits to issue again has not issued (R158). -/
def afterExec (t0 : Thread) (w : Nat) (row : Row) (s : State) : State :=
  if s.cur.ref != t0.ref then makeRooms s
  else if polled s.cur.wait then uncountIssue s
  else makeRooms (noteUse (s.onCur (noteIssue t0 w row)) t0 row)

/-- Run a row that may issue. -/
def runRow (w : Nat) (row : Row) (s : State) : Out :=
  match execRow row (countIssue s) with
  | .next s' => .next (afterExec s.cur w row s')
  | .fault f => .fault f
  | .refused r => .refused r

/-- Has a curator's own trap made its queue FAULTED (R372)? -/
def faultsQueue (s s' : State) : Bool :=
  match s.cur.ref with
  | .cur c => (((s.curator? c).bind (fun k => s'.queue? k.q)).map (fun q => q.st == .faulted)).getD false
  | .none | .thr _ _ | .rest _ _ => false

/-- One instruction past a packet's budget (R373): a cause of its own, or a page to wait for, comes before QBUDGET (R63). -/
def overBudget (row : Row) (s : State) : Out :=
  match execRow row s with
  | .next s' =>
    if faultsQueue s s' || (match s'.cur.wait with | .page _ => true | _ => false) then .next s' else trap s cQBUDGET 0 0
  | .fault f => .fault f
  | .refused r => .refused r

/-- A decoded row of the selected thread: decode faults, then what makes it wait, then its meaning. -/
def tryRow (w : Nat) (row : Row) (s : State) : Out :=
  match rowFault s row with
  | some r => trap s cILLEGAL 0 (BitVec.ofNat 64 r)
  | none =>
    match spilledReg s s.cur row with
    | some r => waitAt s (.spill r)
    | none =>
      match failedCall s.cur w row with
      | some (p, a, i) => trap (s.onCur (fun t => { t with rpend := t.rpend.erase p })) cREGION a i
      | none =>
        if stalled s.cur row then .next s
        else if fenceFull s.cur then waitAt s .fence
        else if budgetOut s s.cur then overBudget row s
        else runRow w row s

/-- The selected thread's page is missing at a fetch (R315): it parks, or takes PAGE once the pager has rejected it; inside a
speculation it waits for the fence (R210). -/
def fetchAbsent (s : State) (va : Nat) : Out :=
  if s.cur.fence.isSome then waitAt s .fence
  else if rejected s.cur va then trap s cPAGE (BitVec.ofNat 64 va) (info306 0 4)
  else
    let r := pageRequest s s.cur.cid va 4 (.thread s.cur.ref)
    waitAt r.2 (.page r.1)

/-- The selected thread issues its instruction (R158): one that may not do so has no effect. -/
def issueCur (s : State) : Out :=
  if !able s s.cur then .next s
  else
    let s := s.onCur (fun t => { t with wait := .none })
    match fetchInstr s s.cur with
    | (.trap c a i, s) => trap s c a i
    | (.hole pa, _) => .fault (.noSuchMemory pa)
    | (.absent va, s) => fetchAbsent s va
    | (.ok (w, d), s) =>
      match d with
      | .err r => trap s cILLEGAL 0 (BitVec.ofNat 64 r)
      | .ok row => tryRow w row s

end Sys2Proof.Machine
end

