-- ==== Sys2Proof/WellFormed.lean ====
section
/-! DEFINITION. Well-formed instructions: what R21, R51, R53-R59 and R60 ask of the operands beyond their types. -/

namespace Sys2Proof

/-- T and the type of an integer ATOM (R53). -/
def AtomT.intOk : AtomT → Bool
  | .n32 _ | .s32 _ => true
  | .n64 v | .s64 v => v.val % 2 == 0
  | .f32 _ | .f16x2 _ => false

/-- T of any ATOM (R53). -/
def AtomT.anyOk : AtomT → Bool
  | .n32 _ | .s32 _ | .f32 _ | .f16x2 _ => true
  | .n64 v | .s64 v => v.val % 2 == 0

/-- A 64-bit type of ATOM. -/
def AtomT.is64 : AtomT → Bool
  | .n64 _ | .s64 _ => true
  | .n32 _ | .s32 _ | .f32 _ | .f16x2 _ => false

/-- C fits T of a CAS (R53). -/
def CasC.fits (c : CasC) (t : AtomT) : Bool :=
  match c with
  | .w32 _ => !t.is64
  | .w64 v => t.is64 && v.val % 2 == 0

/-- Pairs and quads of LDX (R53). -/
def LdxT.ok : LdxT → Bool
  | .b1 _ | .b2 _ | .b4 _ => true
  | .b8 v => v.val % 2 == 0
  | .b16 v => v.val % 4 == 0

/-- Pairs and quads of STX (R53). -/
def StxT.ok : StxT → Bool
  | .b1 _ | .b2 _ | .b4 _ => true
  | .b8 v => v.val % 2 == 0
  | .b16 v => v.val % 4 == 0

/-- What the encoding asks of an instruction's operands (R60); an event has no encoding and nothing to check. -/
def Instr.wf : Instr → Bool
  | .iadd _ _ a b => a.lits + b.lits ≤ 1
  | .isub _ _ a b => a.lits + b.lits ≤ 1
  | .imul _ _ a b => a.lits + b.lits ≤ 1
  | .imulhs _ _ a b => a.lits + b.lits ≤ 1
  | .imulhn _ _ a b => a.lits + b.lits ≤ 1
  | .imad _ _ a b => a.lits + b.lits ≤ 1
  | .isad _ _ a b => a.lits + b.lits ≤ 1
  | .imin _ _ a b => a.lits + b.lits ≤ 1
  | .imax _ _ a b => a.lits + b.lits ≤ 1
  | .nmin _ _ a b => a.lits + b.lits ≤ 1
  | .nmax _ _ a b => a.lits + b.lits ≤ 1
  | .and _ _ a b => a.lits + b.lits ≤ 1
  | .or _ _ a b => a.lits + b.lits ≤ 1
  | .xor _ _ a b => a.lits + b.lits ≤ 1
  | .andn _ _ a b => a.lits + b.lits ≤ 1
  | .shl _ _ a b => a.lits + b.lits ≤ 1
  | .shr _ _ a b => a.lits + b.lits ≤ 1
  | .sar _ _ a b => a.lits + b.lits ≤ 1
  | .bfen _ _ a b => a.lits + b.lits ≤ 1
  | .bfes _ _ a b => a.lits + b.lits ≤ 1
  | .bfi _ _ a b => a.lits + b.lits ≤ 1
  | .prmt _ _ a b => a.lits + b.lits ≤ 1
  | .csel _ _ a b => a.lits + b.lits ≤ 1
  | .fadd _ _ a b => a.lits + b.lits ≤ 1
  | .fsub _ _ a b => a.lits + b.lits ≤ 1
  | .fmul _ _ a b => a.lits + b.lits ≤ 1
  | .ffma _ _ a b => a.lits + b.lits ≤ 1
  | .fmin _ _ a b => a.lits + b.lits ≤ 1
  | .fmax _ _ a b => a.lits + b.lits ≤ 1
  | .fscale _ _ a b => a.lits + b.lits ≤ 1
  | .hadd2 _ _ a b => a.lits + b.lits ≤ 1
  | .hmul2 _ _ a b => a.lits + b.lits ≤ 1
  | .hfma2 _ _ a b => a.lits + b.lits ≤ 1
  | .bfma2 _ _ a b => a.lits + b.lits ≤ 1
  | .hmin2 _ _ a b => a.lits + b.lits ≤ 1
  | .hmax2 _ _ a b => a.lits + b.lits ≤ 1
  | .icmp _ _ _ a b => a.lits + b.lits ≤ 1
  | .ncmp _ _ _ a b => a.lits + b.lits ≤ 1
  | .fcmp _ _ _ a b => a.lits + b.lits ≤ 1
  | .ldd _ t _ => t.val % 2 == 0
  | .ldq _ t _ => t.val % 4 == 0
  | .ldx _ t _ _ _ _ => t.ok
  | .stb _ t m => t.lits + m.lits ≤ 1
  | .sth _ t m => t.lits + m.lits ≤ 1
  | .stw _ t m => t.lits + m.lits ≤ 1
  | .std _ t _ => t.val % 2 == 0
  | .stq _ t _ => t.val % 4 == 0
  | .stx _ t m _ _ _ => t.ok && t.lits + m.lits ≤ 1
  | .atomAdd _ t _ _ => t.intOk
  | .atomMin _ t _ _ => t.intOk
  | .atomMax _ t _ _ => t.intOk
  | .atomAnd _ t _ _ => t.intOk
  | .atomOr _ t _ _ => t.intOk
  | .atomXor _ t _ _ => t.intOk
  | .atomExch _ t _ _ => t.anyOk
  | .atomCas _ t m _ c => t.anyOk && c.fits t && m.lits + c.lits ≤ 1
  | .vp2x _ _ v => v.val % 2 == 0
  | .x2vp _ v _ => v.val % 2 == 0
  | .fence _ _ kinds => kinds != 0
  | .ftok _ _ _ kinds => kinds != 0
  | .kxchTid _ _ _ _ a i => a.lits + i.lits ≤ 1
  | .kxchPos _ _ _ _ a i => a.lits + i.lits ≤ 1
  | .mma _ _ _ _ c => c.ok
  | .mdrain _ _ _ _ c => c.ok
  | .wlpush _ _ v _ => v.val % 4 == 0
  | .wlpop _ _ _ _ v => v.val % 4 == 0
  | .wltry _ _ _ _ v => v.val % 4 == 0
  | .rcall _ _ argv resv argc resc => argv.val + argc.val ≤ 127 && resv.val + resc.val ≤ 127
  | .rcallExact _ _ argv resv argc resc => argv.val + argc.val ≤ 127 && resv.val + resc.val ≤ 127
  | .rcallSonly _ _ argv resv argc resc => argv.val + argc.val ≤ 127 && resv.val + resc.val ≤ 127
  | .collAllreduce _ _ _ _ _ _ ty op => op == .sum || op == .min || op == .max || ty.isInt
  | .collReducescatter _ _ _ _ _ _ ty op => op == .sum || op == .min || op == .max || ty.isInt
  | .mov _ _ _ | .not _ _ _ | .ineg _ _ _ | .iabs _ _ _
  | .popc _ _ _ | .clz _ _ _ | .ctz _ _ _ | .brev _ _ _
  | .bswap _ _ _ | .sext8 _ _ _ | .sext16 _ _ _ | .zext8 _ _ _
  | .zext16 _ _ _ | .fabs _ _ _ | .fneg _ _ _ | .frcp _ _ _
  | .frsq _ _ _ | .fsqrt _ _ _ | .fexp2 _ _ _ | .flog2 _ _ _
  | .fsinr _ _ _ | .fcosr _ _ _ | .ftanh _ _ _ | .fsigm _ _ _
  | .ffloor _ _ _ | .fceil _ _ _ | .ftrunc _ _ _ | .frint _ _ _
  | .ffrac _ _ _ | .fsat _ _ _ | .fclass _ _ _ | .cvtF32S32 _ _ _
  | .cvtF32N32 _ _ _ | .cvtS32F32 _ _ _ | .cvtN32F32 _ _ _ | .cvtS32F32Rn _ _ _
  | .cvtF16F32 _ _ _ | .cvtF32F16l _ _ _ | .cvtF32F16h _ _ _ | .cvtBf16F32 _ _ _
  | .cvtF32Bf16l _ _ _ | .cvtF32Bf16h _ _ _ | .cvtE4m3F32 _ _ _ | .cvtE5m2F32 _ _ _
  | .cvtF32E4m3 _ _ _ | .cvtF32E5m2 _ _ _ | .cvtLns6F32 _ _ _ | .cvtF32Lns6 _ _ _
  | .cvtS8F32 _ _ _ | .cvtN8F32 _ _ _ | .plop _ _ _ _ _ | .ptov _ _
  | .vtop _ _ | .fld _ _ _ _ | .fst _ _ _ _ | .fadda _ _ _ _
  | .ldb _ _ _ | .ldbs _ _ _ | .ldh _ _ _ | .ldhs _ _ _
  | .ldw _ _ _ | .atomIncw _ _ _ _ | .atomFadd _ _ _ _ | .atomHadd2 _ _ _ _
  | .nop _ | .wadd _ _ _ _ | .wsub _ _ _ _ | .wmul _ _ _ _
  | .wmulhs _ _ _ _ | .wmulhn _ _ _ _ | .wand _ _ _ _ | .wor _ _ _ _
  | .wxor _ _ _ _ | .wshl _ _ _ _ | .wshr _ _ _ _ | .wsar _ _ _ _
  | .wmin _ _ _ _ | .wmax _ _ _ _ | .wnmin _ _ _ _ | .wnmax _ _ _ _
  | .wcmp _ _ _ _ _ | .wncmp _ _ _ _ _ | .wsel _ _ _ _ | .wmov _ _ _
  | .wnot _ _ _ | .wneg _ _ _ | .wabs _ _ _ | .wpopc _ _ _
  | .wclz _ _ _ | .wctz _ _ _ | .wbrev _ _ _ | .wbswap _ _ _
  | .wsext32 _ _ _ | .wzext32 _ _ _ | .dadd _ _ _ _ | .dsub _ _ _ _
  | .dmul _ _ _ _ | .dfma _ _ _ _ | .dmin _ _ _ _ | .dmax _ _ _ _
  | .dabs _ _ _ | .dneg _ _ _ | .dsqrt _ _ _ | .drcp _ _ _
  | .dfloor _ _ _ | .dceil _ _ _ | .dtrunc _ _ _ | .drint _ _ _
  | .dclass _ _ _ | .dcmp _ _ _ _ _ | .dcvtDS64 _ _ _ | .dcvtDN64 _ _ _
  | .dcvtS64D _ _ _ | .dcvtN64D _ _ _ | .dcvtDF32l _ _ _ | .dcvtF32D _ _ _
  | .dcvtDS32 _ _ _ | .dcvtS32D _ _ _ | .v2x _ _ _ | .v2xs _ _ _
  | .x2v _ _ _ | .x2vh _ _ _ | .wld _ _ _ _ | .wst _ _ _ _
  | .bra _ _ | .brd _ _ | .call _ _ | .callr _ _
  | .ret _ | .jmp _ _ | .exit _ | .yield _
  | .trap _ _ | .tret _ | .srd _ _ _ | .swr _ _ _
  | .tagof _ _ _ | .fmtof _ _ _ | .waitc _ _ _ _ _ | .fwait _ _
  | .bar _ _ _ _ | .ksetCount _ _ _ _ | .ksetMask _ _ _ _ | .ksign _ _ _ _
  | .kredAddN32 _ _ _ _ _ | .kredAddF32 _ _ _ _ _ | .kredMinS32 _ _ _ _ _ | .kredMaxS32 _ _ _ _ _
  | .kredMinF32 _ _ _ _ _ | .kredMaxF32 _ _ _ _ _ | .kredAnd _ _ _ _ _ | .kredOr _ _ _ _ _
  | .kredXor _ _ _ _ _ | .kredNz _ _ _ _ _ | .mzero _ _ | .mldsc _ _ _
  | .mstat _ _ _ | .tbinit _ _ _ | .tbarrive _ _ _ _ | .tbexpect _ _ _
  | .tbtest _ _ _ _ | .tbwait _ _ _ | .wldone _ _ | .wlfloor _ _ _
  | .wlstat _ _ _ | .fenter _ _ _ | .fleave _ _ | .fopen _ _ _ _ _
  | .flink _ _ _ | .fhnd _ _ _ | .fdrop _ _ | .fsync _ _
  | .funlink _ _ | .rret _ | .rload _ _ | .rctlEvict _ _ _
  | .rctlPin _ _ _ | .rctlUnpin _ _ _ | .rctlFlush _ _ _ | .rctr _ _ _
  | .rinfo _ _ _ | .collAllgather _ _ _ _ _ _ _ | .collBroadcast _ _ _ _ _ _ _ | .collAlltoall _ _ _ _ _ _ _
  | .bkpt _ | .tlbinv _ _ | .l1clean _ _ | .archive _ _
  | .qlaunch _ _ | .qsignal _ _ | .qwaitsig _ _ | .qswitch _ _
  | .qphase _ _ | .qdone _ | .renable _ _ | .wlcfg _ _
  | .launchDecision _ | .gangPlacement _ _ _ _ _ _ _ _ | .phaseClean _ | .workgroupEnd _
  | .gangRetire _ | .pick _ | .ageCap _ | .regroupRelease _ _
  | .loadReturn _ _ _ | .storePerformed _ _ | .l1Eviction _ _ _ | .fenceComplete _
  | .fenceRollback _ | .tokenComplete _ _ | .pageWalk _ _ _ | .pageRequest _
  | .pagerResponse _ | .kill _ _ | .copyTakeEntry _ | .copy _ _
  | .gather _ _ | .fill _ _ | .convert _ _ | .convertout _ _
  | .mmaEntry _ | .mdrainEntry _ | .mctlEntry _ | .matrixEntryComplete _
  | .mmaResume _ | .regionLoad _ _ _ | .surrogateEvaluation _ _ | .restorationStart _ _
  | .violationReport _ | .disableApply _ _ _ | .enableApply _ _ _ | .counterBlockWrite _ _
  | .floorRefresh _ _ | .groupFloorRefresh _ _ _ _ | .floorDropAck _ | .wlpushPlace _
  | .wlpopServe _ _ | .frontBufferSend _ _ | .chunkSpill _ _ _ _ | .chunkReadBack _ _ _ _
  | .chunkMigrate _ _ _ _ _ | .spillRefill _ _ | .contextCreate _ | .contextDestroy _
  | .contextSelect _ | .queueEnable _ | .queueDisable _ | .queueQuiesce _
  | .queueNotify _ _ _ | .packetStart _ _ | .qwaitsigResume _ | .tickstopWrite _
  | .tickStop | .registerWrite _ _ | .preemptRequest _ _ | .drainExpire _
  | .gangSave _ | .gangRestore _ _ _ _ _ | .switchTick | .switchComplete
  | .haltRequest _ | .threadHalt _ | .resumeRequest _ | .sample _
  | .checkpoint _ | .gatePass _ | .intervalClose _ | .collChunk _ _ _ _
  | .collectiveComplete _ _ _ _ | .ingressWrite _ _ _ | .ingressRead _ _ _ | .functionLevelReset _
  | .coreFailure _ | .memoryRetire _ _ | .moduleReset | .attestationQuote _ _
  | .linkFailure _ | .flitRetry _ | .podLeave | .linkUp _
  | .ngurilIngress _ _ _ | .vmodeWrite _ | .instructionFetch _ | .resultWriteback _ _ => true

/-- An event of rows 268-355 of the opcode table: it has no encoding. -/
def Instr.isEvent (i : Instr) : Bool := (encode i).isEmpty

/-- The RCTL operations whose words decode to `rctlEvict`: x[XB] chooses among the four (R271). -/
def Instr.isRctlTwin : Instr → Bool
  | .rctlPin _ _ _ | .rctlUnpin _ _ _ | .rctlFlush _ _ _ => true
  | .iadd _ _ _ _ | .isub _ _ _ _ | .imul _ _ _ _ | .imulhs _ _ _ _
  | .imulhn _ _ _ _ | .imad _ _ _ _ | .isad _ _ _ _ | .imin _ _ _ _
  | .imax _ _ _ _ | .nmin _ _ _ _ | .nmax _ _ _ _ | .and _ _ _ _
  | .or _ _ _ _ | .xor _ _ _ _ | .andn _ _ _ _ | .shl _ _ _ _
  | .shr _ _ _ _ | .sar _ _ _ _ | .bfen _ _ _ _ | .bfes _ _ _ _
  | .bfi _ _ _ _ | .prmt _ _ _ _ | .csel _ _ _ _ | .mov _ _ _
  | .not _ _ _ | .ineg _ _ _ | .iabs _ _ _ | .popc _ _ _
  | .clz _ _ _ | .ctz _ _ _ | .brev _ _ _ | .bswap _ _ _
  | .sext8 _ _ _ | .sext16 _ _ _ | .zext8 _ _ _ | .zext16 _ _ _
  | .fadd _ _ _ _ | .fsub _ _ _ _ | .fmul _ _ _ _ | .ffma _ _ _ _
  | .fmin _ _ _ _ | .fmax _ _ _ _ | .fscale _ _ _ _ | .fabs _ _ _
  | .fneg _ _ _ | .frcp _ _ _ | .frsq _ _ _ | .fsqrt _ _ _
  | .fexp2 _ _ _ | .flog2 _ _ _ | .fsinr _ _ _ | .fcosr _ _ _
  | .ftanh _ _ _ | .fsigm _ _ _ | .ffloor _ _ _ | .fceil _ _ _
  | .ftrunc _ _ _ | .frint _ _ _ | .ffrac _ _ _ | .fsat _ _ _
  | .fclass _ _ _ | .hadd2 _ _ _ _ | .hmul2 _ _ _ _ | .hfma2 _ _ _ _
  | .bfma2 _ _ _ _ | .hmin2 _ _ _ _ | .hmax2 _ _ _ _ | .cvtF32S32 _ _ _
  | .cvtF32N32 _ _ _ | .cvtS32F32 _ _ _ | .cvtN32F32 _ _ _ | .cvtS32F32Rn _ _ _
  | .cvtF16F32 _ _ _ | .cvtF32F16l _ _ _ | .cvtF32F16h _ _ _ | .cvtBf16F32 _ _ _
  | .cvtF32Bf16l _ _ _ | .cvtF32Bf16h _ _ _ | .cvtE4m3F32 _ _ _ | .cvtE5m2F32 _ _ _
  | .cvtF32E4m3 _ _ _ | .cvtF32E5m2 _ _ _ | .cvtLns6F32 _ _ _ | .cvtF32Lns6 _ _ _
  | .cvtS8F32 _ _ _ | .cvtN8F32 _ _ _ | .icmp _ _ _ _ _ | .ncmp _ _ _ _ _
  | .fcmp _ _ _ _ _ | .plop _ _ _ _ _ | .ptov _ _ | .vtop _ _
  | .fld _ _ _ _ | .fst _ _ _ _ | .fadda _ _ _ _ | .ldb _ _ _
  | .ldbs _ _ _ | .ldh _ _ _ | .ldhs _ _ _ | .ldw _ _ _
  | .ldd _ _ _ | .ldq _ _ _ | .ldx _ _ _ _ _ _ | .stb _ _ _
  | .sth _ _ _ | .stw _ _ _ | .std _ _ _ | .stq _ _ _
  | .stx _ _ _ _ _ _ | .atomAdd _ _ _ _ | .atomMin _ _ _ _ | .atomMax _ _ _ _
  | .atomAnd _ _ _ _ | .atomOr _ _ _ _ | .atomXor _ _ _ _ | .atomExch _ _ _ _
  | .atomCas _ _ _ _ _ | .atomIncw _ _ _ _ | .atomFadd _ _ _ _ | .atomHadd2 _ _ _ _
  | .nop _ | .wadd _ _ _ _ | .wsub _ _ _ _ | .wmul _ _ _ _
  | .wmulhs _ _ _ _ | .wmulhn _ _ _ _ | .wand _ _ _ _ | .wor _ _ _ _
  | .wxor _ _ _ _ | .wshl _ _ _ _ | .wshr _ _ _ _ | .wsar _ _ _ _
  | .wmin _ _ _ _ | .wmax _ _ _ _ | .wnmin _ _ _ _ | .wnmax _ _ _ _
  | .wcmp _ _ _ _ _ | .wncmp _ _ _ _ _ | .wsel _ _ _ _ | .wmov _ _ _
  | .wnot _ _ _ | .wneg _ _ _ | .wabs _ _ _ | .wpopc _ _ _
  | .wclz _ _ _ | .wctz _ _ _ | .wbrev _ _ _ | .wbswap _ _ _
  | .wsext32 _ _ _ | .wzext32 _ _ _ | .dadd _ _ _ _ | .dsub _ _ _ _
  | .dmul _ _ _ _ | .dfma _ _ _ _ | .dmin _ _ _ _ | .dmax _ _ _ _
  | .dabs _ _ _ | .dneg _ _ _ | .dsqrt _ _ _ | .drcp _ _ _
  | .dfloor _ _ _ | .dceil _ _ _ | .dtrunc _ _ _ | .drint _ _ _
  | .dclass _ _ _ | .dcmp _ _ _ _ _ | .dcvtDS64 _ _ _ | .dcvtDN64 _ _ _
  | .dcvtS64D _ _ _ | .dcvtN64D _ _ _ | .dcvtDF32l _ _ _ | .dcvtF32D _ _ _
  | .dcvtDS32 _ _ _ | .dcvtS32D _ _ _ | .v2x _ _ _ | .v2xs _ _ _
  | .vp2x _ _ _ | .x2v _ _ _ | .x2vh _ _ _ | .x2vp _ _ _
  | .wld _ _ _ _ | .wst _ _ _ _ | .bra _ _ | .brd _ _
  | .call _ _ | .callr _ _ | .ret _ | .jmp _ _
  | .exit _ | .yield _ | .trap _ _ | .tret _
  | .srd _ _ _ | .swr _ _ _ | .tagof _ _ _ | .fmtof _ _ _
  | .waitc _ _ _ _ _ | .fence _ _ _ | .ftok _ _ _ _ | .fwait _ _
  | .bar _ _ _ _ | .ksetCount _ _ _ _ | .ksetMask _ _ _ _ | .ksign _ _ _ _
  | .kxchTid _ _ _ _ _ _ | .kxchPos _ _ _ _ _ _ | .kredAddN32 _ _ _ _ _ | .kredAddF32 _ _ _ _ _
  | .kredMinS32 _ _ _ _ _ | .kredMaxS32 _ _ _ _ _ | .kredMinF32 _ _ _ _ _ | .kredMaxF32 _ _ _ _ _
  | .kredAnd _ _ _ _ _ | .kredOr _ _ _ _ _ | .kredXor _ _ _ _ _ | .kredNz _ _ _ _ _
  | .mma _ _ _ _ _ | .mdrain _ _ _ _ _ | .mzero _ _ | .mldsc _ _ _
  | .mstat _ _ _ | .tbinit _ _ _ | .tbarrive _ _ _ _ | .tbexpect _ _ _
  | .tbtest _ _ _ _ | .tbwait _ _ _ | .wlpush _ _ _ _ | .wlpop _ _ _ _ _
  | .wltry _ _ _ _ _ | .wldone _ _ | .wlfloor _ _ _ | .wlstat _ _ _
  | .fenter _ _ _ | .fleave _ _ | .fopen _ _ _ _ _ | .flink _ _ _
  | .fhnd _ _ _ | .fdrop _ _ | .fsync _ _ | .funlink _ _
  | .rcall _ _ _ _ _ _ | .rcallExact _ _ _ _ _ _ | .rcallSonly _ _ _ _ _ _ | .rret _
  | .rload _ _ | .rctlEvict _ _ _ | .rctr _ _ _ | .rinfo _ _ _
  | .collAllreduce _ _ _ _ _ _ _ _ | .collReducescatter _ _ _ _ _ _ _ _ | .collAllgather _ _ _ _ _ _ _ | .collBroadcast _ _ _ _ _ _ _
  | .collAlltoall _ _ _ _ _ _ _ | .bkpt _ | .tlbinv _ _ | .l1clean _ _
  | .archive _ _ | .qlaunch _ _ | .qsignal _ _ | .qwaitsig _ _
  | .qswitch _ _ | .qphase _ _ | .qdone _ | .renable _ _
  | .wlcfg _ _ | .launchDecision _ | .gangPlacement _ _ _ _ _ _ _ _ | .phaseClean _
  | .workgroupEnd _ | .gangRetire _ | .pick _ | .ageCap _
  | .regroupRelease _ _ | .loadReturn _ _ _ | .storePerformed _ _ | .l1Eviction _ _ _
  | .fenceComplete _ | .fenceRollback _ | .tokenComplete _ _ | .pageWalk _ _ _
  | .pageRequest _ | .pagerResponse _ | .kill _ _ | .copyTakeEntry _
  | .copy _ _ | .gather _ _ | .fill _ _ | .convert _ _
  | .convertout _ _ | .mmaEntry _ | .mdrainEntry _ | .mctlEntry _
  | .matrixEntryComplete _ | .mmaResume _ | .regionLoad _ _ _ | .surrogateEvaluation _ _
  | .restorationStart _ _ | .violationReport _ | .disableApply _ _ _ | .enableApply _ _ _
  | .counterBlockWrite _ _ | .floorRefresh _ _ | .groupFloorRefresh _ _ _ _ | .floorDropAck _
  | .wlpushPlace _ | .wlpopServe _ _ | .frontBufferSend _ _ | .chunkSpill _ _ _ _
  | .chunkReadBack _ _ _ _ | .chunkMigrate _ _ _ _ _ | .spillRefill _ _ | .contextCreate _
  | .contextDestroy _ | .contextSelect _ | .queueEnable _ | .queueDisable _
  | .queueQuiesce _ | .queueNotify _ _ _ | .packetStart _ _ | .qwaitsigResume _
  | .tickstopWrite _ | .tickStop | .registerWrite _ _ | .preemptRequest _ _
  | .drainExpire _ | .gangSave _ | .gangRestore _ _ _ _ _ | .switchTick
  | .switchComplete | .haltRequest _ | .threadHalt _ | .resumeRequest _
  | .sample _ | .checkpoint _ | .gatePass _ | .intervalClose _
  | .collChunk _ _ _ _ | .collectiveComplete _ _ _ _ | .ingressWrite _ _ _ | .ingressRead _ _ _
  | .functionLevelReset _ | .coreFailure _ | .memoryRetire _ _ | .moduleReset
  | .attestationQuote _ _ | .linkFailure _ | .flitRetry _ | .podLeave
  | .linkUp _ | .ngurilIngress _ _ _ | .vmodeWrite _ | .instructionFetch _
  | .resultWriteback _ _ => false

end Sys2Proof
end

