-- ==== Sys2Proof/Machine/Step.lean ====
section
/-! DEFINITION. The step: one thing happens (log entry 2). In this order: a device that is stopped (R341), or in recovery
(R380), waits for module reset; a tick stop that is due (R341); a trap that a thread has to take (R176, R183, R242); the selected
thread's instruction (R158, R159); the next event of the agenda; with nothing to do, a tick (R340). -/

namespace Sys2Proof.Machine

/-- The first pending trap that can be taken: not inside a speculation (R210); one whose thread is gone is dropped. -/
def nextTrap (s : State) : Option TrapReq :=
  s.trapq.find? (fun x => match s.thread? x.ref with | none => true | some t => t.exited || t.fence.isNone)

/-- Take a pending trap. -/
def stepTrap (s : State) (x : TrapReq) : State :=
  let s := { s with trapq := s.trapq.erase x }
  match s.thread? x.ref with
  | none => s
  | some t => if t.exited then s else takeTrap s x.ref x.cause x.tpc x.taddr x.tinfo

/-- The selected thread has issued: it goes back, and the next of its sheaf is selected (R159). -/
def rotate (s : State) : State :=
  let s := if s.cur.ref == .none then s else { s with threads := s.threads ++ [s.cur], cur := Thread.idle }
  selectNext s.sheaf s

/-- An event of the agenda happens, and what it wrote finds room in the pools (R169); an instruction is none. -/
def stepEvent (e : Instr) (s : State) : Out :=
  if e.isEvent then
    match exec e s with
    | .next s => .next (makeRooms s)
    | .fault f => .fault f
    | .refused r => .refused r
  else .next s

/-- A stopped device, or one whose images failed verification and are not run: only module reset has an effect (R341, R380; log
entry 8). -/
def stepStopped (s : State) : Out :=
  match s.agenda with
  | [] => .next s
  | e :: es =>
    let s := { s with agenda := es }
    match e with
    | .moduleReset => exec e s
    | _ => .next s

/-- One step. -/
def step (s : State) : Host.Outcome State Fault Refusal :=
  if s.stopped || s.recovery then stepStopped s
  else if s.cfg.tickstop != 0 && s.cfg.tickstop.toNat ≤ s.tick then execTickStop s
  else
    match nextTrap s with
    | some x => .next (stepTrap s x)
    | none =>
      if s.cur.ref != .none then
        match issueCur s with
        | .next s => .next (rotate s)
        | .fault f => .fault f
        | .refused r => .refused r
      else
        match s.agenda with
        | [] => .next (tickUp s)
        | e :: es => stepEvent e { s with agenda := es }

/-! ## A program from outside (log entry 31) -/

/-- The launch record of the loaded program: one thread, every register, an allotment of 8 KiB. -/
def hostLRec (pc : W64) : LRec :=
  { entry := pc, handler := 0, noflush := false, zlocal := false, wgsize := 1, levels := [⟨0, 0, 1⟩], regroup := 0, rslots := 0
    gang := 1, aslots := 1, xregs := 64, vregs := 128, stack := 256, loc := 4096, ringOff := 0, ringEnt := 0, spill := 0
    wgHeapOff := 0, wgHeapSz := 0, clHeapOff := 0, clHeapSz := 0, cycles := 0, latency := 0, args := 0 }

/-- The context of the loaded program: CID 0, RUNNING. -/
def hostCtx : Ctx :=
  { cid := 0, st := .running
    desc := { troot := 0, rtab := 0, evq := 0, evqent := 16, save := 0, savebytes := 0, pager := 0, part := 0, prio := 0, weight := 1,
              syssw := false }
    dbg := { sring := 0, srent := 0, bken := false, sen := false, sn := 0, tms := 0, amode := 0, arch := 0, archbytes := 0, logbytes := 0 }
    deficit := 0, wls := Vector.replicate 4 Worklist.init, agg := [], counts := [], attest := [], measure := [], measured := [], preqs := []
    collK := [], colls := [], slots := [], saved := [], leaving := false, arch := Arch.init }

/-- The loaded program's launch. -/
def hostLaunch (pc : W64) : Launch :=
  { id := 0, cid := 0, addr := 0, raw := [], lrec := hostLRec pc, q := 0, sig := 0, accepted := true, phase := false, a := 0, next := 1
    total := 1, pending := [], live := 1, units := [] }

/-- Its gang, of one member on core 0. -/
def hostGang : Gang :=
  { id := 0, cid := 0, launch := 0, g := 0, die := 0, cluster := 0, first := 0, members := [0], k := Vector.replicate 8 KReg.init
    bars := Vector.replicate 16 ⟨0, []⟩, exits := 0, heap := { off := 0, size := 0, runs := [], hgc := 1 }, way := .run, slot := 0
    endTick := none, ready := true, by' := none }

/-- The page of the program: 64 KiB at 0x10000, read, written and fetched at the same physical address. -/
def hostPage : TlbEnt := { cid := 0, va := 65536, size := 65536, ent := 65567 }

/-- Load the instruction of nbits bits w where the next step fetches: a thread of a RUNNING context at core 0, selected to issue, its
PC at 0x10000, the words at the home of that address, higher words zero. -/
def State.withFetchWord (s : State) (nbits w : Nat) : State :=
  let pc : W64 := 65536
  let wg := { startWg s 0 0 0 0 0 0 0 (hostLRec pc) [0] 0 0 with size := 8192 }
  { s with
    trapq := [], stopped := false, recovery := false, cfg := { s.cfg with tickstop := 0 }
    cur := { startThread wg (hostLRec pc) 0 with r := { (startThread wg (hostLRec pc) 0).r with pc } }, sheaf := []
    threads := s.threads.filter (fun t => t.ref != .thr 0 0)
    wgs := wg :: s.wgs.filter (fun x => x.id != 0)
    gangs := hostGang :: s.gangs.filter (fun x => x.id != 0)
    launches := hostLaunch pc :: s.launches.filter (fun x => x.id != 0)
    ctxs := hostCtx :: s.ctxs.filter (fun x => x.cid != 0)
    cores := { Core.init 0 with tlb := [hostPage] } :: s.cores.filter (fun x => x.num != 0)
    mem := writeLE s.mem 65536 16 (w % 2 ^ nbits), poison := s.poison.filter (fun x => x != 2048)
    uid := max s.uid 1 }

end Sys2Proof.Machine
end

