-- ==== Sys2Proof/Safety.lean ====
section
/-! DEFINITION. The words in which the statements speak: what a completed instruction leaves behind, and what it leaves alone. -/

namespace Sys2Proof.Machine

/-! ## Instructions that only write registers -/

/-- Nothing but the selected thread's registers differs, and every byte of memory reads as before. -/
structure OnlyRegs (s t : State) : Prop where
  state : t = { s with cur := { s.cur with r := t.cur.r } }
  mem : ∀ a, memGet t.mem a = memGet s.mem a

/-- The registers after a lane instruction of n words with destination d, result w and flags f (R8, R14, R17, R78): the
destination and the latch are w, the flags are added, PC moves past the words, every other register stays. -/
structure LaneRegs (r r' : Regs) (d : Dst8) (n : Nat) (w : W32) (f : Fl) : Prop where
  pc : r'.pc = r.pc + BitVec.ofNat 64 (4 * n)
  lr : r'.lr = w
  v : ∀ k : VReg, r'.getV k = if d = .v k then w else r.getV k
  o : ∀ k : Fin 8, r'.o[k] = if d = .o k then w else r.o[k]
  fsr : r'.fsr = r.fsr ||| f
  rest : r' = { r with pc := r'.pc, lr := r'.lr, v := r'.v, o := r'.o, fsr := r'.fsr }

/-- A lane instruction has completed. -/
structure LaneDone (s t : State) (d : Dst8) (n : Nat) (w : W32) (f : Fl) : Prop where
  only : OnlyRegs s t
  regs : LaneRegs s.cur.r t.cur.r d n w f

/-- A lane instruction has completed with a result and flags. -/
def LaneDoneFl (s t : State) (d : Dst8) (n : Nat) (w : Nat × Fl) : Prop := LaneDone s t d n (BitVec.ofNat 32 w.1) w.2

/-- A move of one word to an F8 destination has completed (R113): the latch changes only where the destination names it. -/
structure MoveDone (s t : State) (d : Dst8) (w : W32) : Prop where
  only : OnlyRegs s t
  pc : t.cur.r.pc = s.cur.r.pc + 4
  lr : t.cur.r.lr = if d = .lr then w else s.cur.r.lr
  v : ∀ k : VReg, t.cur.r.getV k = if d = .v k then w else s.cur.r.getV k
  o : ∀ k : Fin 8, t.cur.r.o[k] = if d = .o k then w else s.cur.r.o[k]
  rest : t.cur.r = { s.cur.r with pc := t.cur.r.pc, lr := t.cur.r.lr, v := t.cur.r.v, o := t.cur.r.o }

/-- The registers after a group instruction of n words with destination d, result w and flags f (R99): no latch write. -/
structure GroupRegs (r r' : Regs) (d : XReg) (n : Nat) (w : W64) (f : Fl) : Prop where
  pc : r'.pc = r.pc + BitVec.ofNat 64 (4 * n)
  x : ∀ k : XReg, r'.getX k = if k = d then w else r.getX k
  fsr : r'.fsr = r.fsr ||| f
  rest : r' = { r with pc := r'.pc, x := r'.x, fsr := r'.fsr }

/-- A group instruction has completed. -/
structure GroupDone (s t : State) (d : XReg) (n : Nat) (w : W64) (f : Fl) : Prop where
  only : OnlyRegs s t
  regs : GroupRegs s.cur.r t.cur.r d n w f

/-- A group instruction has completed with a result and flags. -/
def GroupDoneFl (s t : State) (d : XReg) (n : Nat) (w : Nat × Fl) : Prop := GroupDone s t d n (BitVec.ofNat 64 w.1) w.2

/-- The registers after a comparison of n words (R8, R95): one predicate, the flags, PC; no latch write. -/
structure PredRegs (r r' : Regs) (pd : PReg) (n : Nat) (b : Bool) (f : Fl) : Prop where
  pc : r'.pc = r.pc + BitVec.ofNat 64 (4 * n)
  p : ∀ k : PReg, r'.getP k = if k = pd then b else r.getP k
  fsr : r'.fsr = r.fsr ||| f
  rest : r' = { r with pc := r'.pc, p := r'.p, fsr := r'.fsr }

/-- A comparison has completed. -/
structure PredDone (s t : State) (pd : PReg) (n : Nat) (b : Bool) (f : Fl) : Prop where
  only : OnlyRegs s t
  regs : PredRegs s.cur.r t.cur.r pd n b f

/-! ## What a program cannot change -/

/-- The parts of the state that no instruction of a program changes: the device's registers, its clock, its failures and spares,
its links, what comes next from outside; and memory stays in its canonical form. -/
structure Keeps (s t : State) : Prop where
  wf : Memory.wf s.mem = true → Memory.wf t.mem = true
  agenda : t.agenda = s.agenda
  cfg : t.cfg = s.cfg
  tick : t.tick = s.tick
  stopped : t.stopped = s.stopped
  recovery : t.recovery = s.recovery
  spares : t.spares = s.spares
  outClusters : t.outClusters = s.outClusters
  retired : t.hbmRet = s.hbmRet ∧ t.vbRet = s.vbRet
  links : t.links = s.links ∧ t.inPod = s.inPod

/-! ## Accesses -/

/-- Nothing but the cores' TLBs and the second-level TLBs differs: what a translation may change (R314). -/
structure OnlyTlbs (s t : State) : Prop where
  state : t = { s with cores := t.cores, l2 := t.l2 }
  cores : ∀ n, { t.core n with tlb := [] } = { s.core n with tlb := [] }

/-- A plain access of the selected thread as it stands among the outstanding ones (R129, R130, R208): in program order, with
its kind bit; a store behind a pending fence is held. -/
def plainMop (s : State) (kind : MopKind) (va : W64) (key size cov : Nat) : Mop :=
  { id := s.cur.nmop, kind, va, key, size, scope := 0, acq := false, rel := false, hint := .default, data := 0, cmp := 0
    dst := .none, lrw := false, lrs := false, cov
    held := s.cur.fence.isSome && (match kind with | .store => true | .load | .atom _ _ => false), push := false, pc := s.cur.r.pc }

/-- An access m has issued and PC has moved past n words: nothing is read or written yet, no register but PC changes, and nothing
else differs but TLBs and, for a store or an atomic, the side-effect bit of the workgroup (R129, R131, R314, R324). -/
structure Issued (s t : State) (n : Nat) (m : Mop) : Prop where
  cur : t.cur = { s.cur with
    mops := s.cur.mops ++ [m], nmop := s.cur.nmop + 1, r := { s.cur.r with pc := s.cur.r.pc + BitVec.ofNat 64 (4 * n) } }
  state : t = { s with cur := t.cur, cores := t.cores, l2 := t.l2, wgs := t.wgs }
  cores : ∀ k, { t.core k with tlb := [] } = { s.core k with tlb := [] }
  wgs : if m.kind = .load then t.wgs = s.wgs
    else t.wgs.map (fun (w : Wg) => { w with side := true }) = s.wgs.map (fun (w : Wg) => { w with side := true })
  mem : ∀ a, memGet t.mem a = memGet s.mem a

/-- The selected thread may access n bytes at va with a kind, its base register given: aligned, inside a curator's windows, and at
a place that the windows and the translation give (R129, R315, R373). -/
structure Reaches (s s' : State) (kind : MopKind) (va : W64) (n : Nat) (xb : Option XReg) (key : Nat) : Prop where
  aligned : va.toNat % n = 0
  window : curatorReason s (MReq.plain kind va n xb) = none
  place : resolve s (s.wgOf s.cur) s.cur.core s.cur.cid va.toNat n kind.code = (.ok key, s')
  tail : s.cur.fence = none ∨ tailOf s' key n = none ∨ kind = .load
  known : s.cur.rej = none

/-- The kind bit of a plain load (0) or store (1): 3 for what is not a global address (R208). -/
def covBit (va : W64) (global : Nat) : Nat := if va.toNat < 2 ^ 56 then global else 3

/-- An ATOM of n words issues (R53, R136, R137): operation, type, operand, compare value, scope, order and hint. -/
def AtomIssues (s s' : State) (i : Instr) (op : AtomOp) (ty : AtomT) (m : MemArg) (oa : OrdArg) (n : Nat) (cmp : W64) (key : Nat) : Prop :=
  let p : AtomTy × Nat × W64 × LdDst × Bool := match ty with
    | .n32 d => (.n32, 4, BitVec.ofNat 64 (s.cur.dst8 d).toNat, .z32 d, true)
    | .s32 d => (.s32, 4, BitVec.ofNat 64 (s.cur.dst8 d).toNat, .z32 d, true)
    | .f32 d => (.f32, 4, BitVec.ofNat 64 (s.cur.dst8 d).toNat, .z32 d, true)
    | .f16x2 d => (.f16x2, 4, BitVec.ofNat 64 (s.cur.dst8 d).toNat, .z32 d, true)
    | .n64 v => (.n64, 8, s.cur.r.pair v, .pair v, false)
    | .s64 v => (.s64, 8, s.cur.r.pair v, .pair v, false)
  let va := lmAddr s.cur m p.2.1
  Reaches s s' (.atom op p.1) va p.2.1 (some m.xb) key →
    ∃ t, exec i s = .next t ∧
      Issued s t n { plainMop s (.atom op p.1) va key p.2.1 1 with
        data := BitVec.ofNat 128 p.2.2.1.toNat, cmp, dst := p.2.2.2.1, lrw := p.2.2.2.2, lrs := p.2.2.2.2, scope := oa.scope.code
        acq := oa.order == .acquire || oa.order == .acqRel, rel := oa.order == .release || oa.order == .acqRel
        hint := oa.hint }

/-! ## Signing -/

/-- The round of a convergence register once the selected thread has signed too (R175): opened if it is the first, its signing
last. -/
def signedRound (s : State) (w : Wg) (cluster : Bool) (k : Fin 8) (g : Signing) : KReg :=
  let kr := getK s w cluster k
  let kr := if kr.st = .armed then openRound s w cluster kr g else kr
  { kr with signs := kr.signs ++ [{ ref := s.cur.ref, idx := setIndex s w cluster s.cur, a := g.a, i := g.i, dst := g.dst, words := g.len }] }

/-- The selected thread may sign, agrees with the round (R176), and is the last of the expected group (R175): its earlier accesses
are performed, no fence of it is pending, and its context does not replay. -/
structure LastSigner (s : State) (w : Wg) (cluster : Bool) (k : Fin 8) (g : Signing) : Prop where
  own : s.wgOf s.cur = some w
  thread : s.cur.ref ≠ .none ∧ s.cur.rest = none
  idle : s.cur.fence = none ∧ s.cur.mops = []
  live : replaying s s.cur.cid = false
  declared : (getK s w cluster k).st = .armed ∨ (getK s w cluster k).st = .gathering
  op : (signedRound s w cluster k g).op = g.op
  words : g.words = (signedRound s w cluster k g).words
  wide : g.sw = (signedRound s w cluster k g).sw
  member : (getK s w cluster k).maskMode = true →
    let base := (getK s w cluster k).val.toNat
    let i := setIndex s w cluster s.cur
    base ≤ i ∧ i < base + 64 ∧ (signedRound s w cluster k g).mask.getLsbD (i - base) = true
  full : roundFull (signedRound s w cluster k g) = true
  others : ∀ x ∈ (getK s w cluster k).signs, (getK s w cluster k).st = .gathering → x.ref ≠ s.cur.ref

/-- The round has completed: the selected thread goes on with its registers changed by f, and the register is ARMED again with its
declaration kept (R175). -/
structure RoundDone (s t : State) (w : Wg) (cluster : Bool) (k : Fin 8) (f : Regs → Regs) (n : Nat) : Prop where
  keeps : Keeps s t
  goes : t.cur.wait = .none
  regs : t.cur.r = (f s.cur.r).adv n
  same : t.cur = { s.cur with wait := t.cur.wait, age := t.cur.age, r := t.cur.r, lastMx := t.cur.lastMx }
  armed : ∃ w', t.wg? w.id = some w' ∧ (getK t w' cluster k).st = .armed ∧ (getK t w' cluster k).signs = [] ∧
    (getK t w' cluster k).maskMode = (getK s w cluster k).maskMode ∧ (getK t w' cluster k).val = (getK s w cluster k).val

/-- The result of a KRED over the A values of its signers (R179). -/
def KredResult (op : Nat) (as : List W32) (v : W32) : Prop :=
  match op with
  | 0 => v = BitVec.ofNat 32 (as.map BitVec.toNat).sum
  | 1 => v = BitVec.ofNat 32 (Fmt.f32.round (as.foldl (fun a x => (a.add (Fmt.f32.dec x.toNat)).1) (.fin true 0 0))).1
  | 2 => v ∈ as ∧ ∀ a ∈ as, v.toInt ≤ a.toInt
  | 3 => v ∈ as ∧ ∀ a ∈ as, a.toInt ≤ v.toInt
  | 6 => ∀ i < 32, v.getLsbD i = as.all (fun a => a.getLsbD i)
  | 7 => ∀ i < 32, v.getLsbD i = as.any (fun a => a.getLsbD i)
  | 8 => v = as.foldl (· ^^^ ·) 0
  | 9 => v = BitVec.ofNat 32 (as.countP (· != 0))
  | _ => v = kredValue op as

end Sys2Proof.Machine
end

