-- ==== Sys2Proof/Certificates/Slice0/Obligations.lean ====
section
/-! DEFINITION. The statements for the provers, from the numbered rules of the specification. -/

open Sys2Proof Sys2Proof.Machine

/-- After module reset: TICK 0, every context FREE, the registers of R362 at their reset values, no failures (R340, R317, R362, R382). -/
def Obligations.ResetState : Prop :=
  State.reset.tick = 0 ∧ State.reset.stopped = false ∧
    (∀ cid, ctxState State.reset cid = .free) ∧
    (∀ off ∈ [0x00, 0x08, 0x10, 0x18, 0x20, 0x28, 0x48, 0x50, 0x60], readRegister State.reset off = 0) ∧
    (∀ f < 65, readRegister State.reset (0x100 + 8 * f) = 0) ∧
    (∀ off ∈ [0x30, 0x38, 0x40], readRegister State.reset off = BitVec.allOnes 64) ∧
    readRegister State.reset 0x68 = 3600 ∧ readRegister State.reset 0x58 = 384 ∧
    State.reset.cur.ref = .none ∧ State.reset.threads = [] ∧ State.reset.wgs = [] ∧ State.reset.gangs = [] ∧ State.reset.launches = [] ∧
    State.reset.queues = [] ∧ State.reset.curators = [] ∧ (∀ n, (State.reset.core n).l1 = [] ∧ (State.reset.core n).tlb = []) ∧
    State.reset.poison = [] ∧ Memory.wf State.reset.mem = true

/-- A step fetches and decodes at PC, and is the execution of the decoded instruction, then the turn of the next thread (R20, R21, R22, R158, R159, R194). -/
def Obligations.StepRunsDecoded : Prop :=
  (∀ (s sf : State) (w : Nat) (row : Row), s.stopped = false → s.recovery = false → (s.cfg.tickstop = 0 ∨ s.tick < s.cfg.tickstop.toNat) → nextTrap s = none →
      s.cur.ref ≠ .none → able s s.cur = true →
      let s0 := s.onCur (fun t => { t with wait := .none })
      fetchInstr s0 s0.cur = (.ok (w, .ok row), sf) →
      rowFault sf row = none → spilledReg sf sf.cur row = none → failedCall sf.cur w row = none → stalled sf.cur row = false →
      fenceFull sf.cur = false → budgetOut sf sf.cur = false →
      step s = match exec row.instr (countIssue sf) with
        | .next t => .next (rotate (afterExec sf.cur w row t))
        | .fault f => .fault f
        | .refused r => .refused r) ∧
    (∀ (s : State) (t : Thread) (ws : List W32) (row : Row), (∀ c, t.ref ≠ .cur c) → t.rej = none → t.r.pc.toNat % 4 = 0 →
      t.r.pc.toNat + 4 * ws.length ≤ 2 ^ 56 → ws.length = rowLen row →
      (∀ k, k < ws.length → iFind (s.core t.core) t.cid (t.r.pc.toNat + 4 * k) = ws[k]?) →
      let word := fun k => ((ws[k]?).map BitVec.toNat).getD 0
      (if hasCtl (word 0) then 2 else 1) ≤ ws.length →
      decodeRow (word 0) (if hasCtl (word 0) then word 1 else 0) 0 = .ok row →
      fetchInstr s t = (.ok (word 0, decodeRow (word 0) (word 1) (word 2)), s)) ∧
    (∀ (s s1 : State) (t : Thread) (va key : Nat), (∀ c, t.ref ≠ .cur c) → t.rej = none → va % 4 = 0 → va < 2 ^ 56 →
      iFind (s.core t.core) t.cid va = none → xlate s t.core t.cid va 4 = (.ok key, s1) →
      isSys key = false → s1.poisoned key 4 = false →
      ∃ u, fetchWord s t va = (.ok (BitVec.ofNat 32 (ofBytes (s1.take key 4).1)), u) ∧
        iFind (u.core t.core) t.cid va = some (BitVec.ofNat 32 (ofBytes (s1.take key 4).1))) ∧
    (∀ w l l2 i, decode w l l2 = .ok i ↔ ∃ row, decodeRow w l l2 = .ok row ∧ row.instr = i)

/-- Worked words of the specification decode to the instructions and to the fates that it prints (R29, R30, R33, R52, R53, R59, R61). -/
def Obligations.DecodeWords : Prop :=
  decode 0x02006069 0x3E8 0 = .ok (.iadd none (.v 3) (.v 3) (.lit 1000)) ∧
    decode 0x02802040 0 0 = .ok (.iadd (some 3) (.v 1) (.v 2) (.o 0)) ∧
    decode 0x4000B044 0 0 = .ok (.fsqrt none (.v 5) (.o 2)) ∧
    decode 0x540440E8 0 0 = .ok (.fcmp none 2 .lt (.v 7) .lr) ∧
    decode 0x56062500 0 0 = .ok (.plop none 3 1 2 8) ∧
    decode 0x68012213 0 0 = .ok (.ldw none (.v 9) ⟨4, .o 1, 3⟩) ∧
    decode 0x74004370 0x1000 0 = .ok (.stw none (.v 2) ⟨6, .lit 4096, 0⟩) ∧
    decode 0x5A00C811 0 0 = .ok (.fld none (.v 6) 2 17) ∧
    decode 0xAC020841 0x9999999A 0x3FB99999 = .ok (.dmul none 4 4 (.lit64 0x3FB999999999999A)) ∧
    decode 0xC21FFFFA 0 0 = .ok (.brd none (-6)) ∧
    decode 0xF0028840 0 0 = .ok (.mldsc none 5 4) ∧
    decode 0xFC030E28 0x00403000 0 = .ok (.collAllreduce none 6 7 5 3 4 .f32 .sum) ∧
    decode 0xFE020004 0 0 = .ok (.qlaunch none 4) ∧
    decode 0x80123456 0 0 = .ok (.nop 0x123456) ∧
    decode 0x00000000 0 0 = .err 1 ∧
    decode 0x7E000000 0 0 = .err 1 ∧
    decode 0x3000204D 0 0 = .err 2 ∧
    decode 0x5000C02B 0 0 = .err 2 ∧
    decode 0x03A02040 0 0 = .err 3 ∧
    decode 0x02112040 0 0 = .err 3 ∧
    decode 0x02013129 0 0 = .err 5 ∧
    decode 0x6A006260 0 0 = .err 6 ∧
    decode 0xFE00000C 0 0 = .err 2

/-- Decoding an encoded instruction gives it back, whatever words follow, and its length is that of R20 (R20, R21, R24, R25, R26, R27, R28, R29, R30, R33, R36, R53). -/
def Obligations.DecodeEncode : Prop :=
  (∀ i : Instr, i.wf = true → i.isEvent = false → i.isRctlTwin = false → ∀ tail : List Nat,
      decode ((encode i ++ tail).getD 0 0) ((encode i ++ tail).getD 1 0) ((encode i ++ tail).getD 2 0) = .ok i ∧
        (encode i).length = 1 + i.ctls + i.lits) ∧
    (∀ (g : Guard) (xa xb : XReg) (l l2 : Nat), ∀ i ∈ [Instr.rctlPin g xa xb, .rctlUnpin g xa xb, .rctlFlush g xa xb],
      decode ((encode i).getD 0 0) l l2 = .ok (.rctlEvict g xa xb))

/-- Every step keeps memory in its canonical form (R2). -/
def Obligations.StepKeepsMemoryForm : Prop :=
  ∀ s t : State, Memory.wf s.mem = true → step s = .next t → Memory.wf t.mem = true

/-- Under a false guard every instruction but CSEL, WSEL and NOP only moves PC past its words (R29, R23, R60). -/
def Obligations.FalseGuardSkips : Prop :=
  (∀ (i : Instr) (s : State), i.wf = true → i.isEvent = false → (∀ g d a b, i ≠ .csel g d a b) → (∀ g d a b, i ≠ .wsel g d a b) →
      (∀ bits, i ≠ .nop bits) → (∀ g x idx, i = .srd g x idx ∨ i = .swr g x idx → srBad s idx.toNat = false) →
      s.cur.r.holds (guardOf ((encode i).getD 0 0)) = false → exec i s = .next (s.adv (encode i).length)) ∧
    (∀ w l l2 : Nat, 13 ≤ fld w 21 4 → (bit w 31 = true → fld w 25 6 ≠ 0) → ∃ r, decode w l l2 = .err r ∧ r ≤ 3)

/-- The thirteen two-operand integer instructions write the results of R81, and nothing else (R81, R78). -/
def Obligations.LaneIntegerResults : Prop :=
  ∀ (g : Guard) (d : Dst8) (a : Src8) (b : Src5) (s : State), s.cur.r.holds g = true →
    let x := s.cur.src8 a
    let y := s.cur.src5 b
    let n := 1 + a.lits + b.lits
    (∃ t, exec (.iadd g d a b) s = .next t ∧ LaneDone s t d n (x + y) 0) ∧
    (∃ t, exec (.isub g d a b) s = .next t ∧ LaneDone s t d n (x - y) 0) ∧
    (∃ t, exec (.imul g d a b) s = .next t ∧ LaneDone s t d n (x * y) 0) ∧
    (∃ t, exec (.imulhs g d a b) s = .next t ∧ LaneDone s t d n ((x.signExtend 64 * y.signExtend 64).extractLsb' 32 32) 0) ∧
    (∃ t, exec (.imulhn g d a b) s = .next t ∧ LaneDone s t d n ((x.setWidth 64 * y.setWidth 64).extractLsb' 32 32) 0) ∧
    (∃ t, exec (.imin g d a b) s = .next t ∧ LaneDone s t d n (if x.toInt ≤ y.toInt then x else y) 0) ∧
    (∃ t, exec (.imax g d a b) s = .next t ∧ LaneDone s t d n (if y.toInt ≤ x.toInt then x else y) 0) ∧
    (∃ t, exec (.nmin g d a b) s = .next t ∧ LaneDone s t d n (if x.toNat ≤ y.toNat then x else y) 0) ∧
    (∃ t, exec (.nmax g d a b) s = .next t ∧ LaneDone s t d n (if y.toNat ≤ x.toNat then x else y) 0) ∧
    (∃ t, exec (.and g d a b) s = .next t ∧ LaneDone s t d n (x &&& y) 0) ∧
    (∃ t, exec (.or g d a b) s = .next t ∧ LaneDone s t d n (x ||| y) 0) ∧
    (∃ t, exec (.xor g d a b) s = .next t ∧ LaneDone s t d n (x ^^^ y) 0) ∧
    (∃ t, exec (.andn g d a b) s = .next t ∧ LaneDone s t d n (x &&& ~~~y) 0)

/-- IMAD and ISAD read their destination as a third source (R82). -/
def Obligations.LaneThirdSourceResults : Prop :=
  ∀ (g : Guard) (d : Dst8) (a : Src8) (b : Src5) (s : State), s.cur.r.holds g = true →
    let x := s.cur.src8 a
    let y := s.cur.src5 b
    let n := 1 + a.lits + b.lits
    let z := s.cur.dst8 d
    (∃ t, exec (.imad g d a b) s = .next t ∧ LaneDone s t d n (x * y + z) 0) ∧
    (∃ t, exec (.isad g d a b) s = .next t ∧ LaneDone s t d n (BitVec.ofInt 32 ((x.toInt - y.toInt).natAbs + z.toNat)) 0)

/-- The lane shifts never reduce their count modulo 32 (R83). -/
def Obligations.LaneShiftResults : Prop :=
  ∀ (g : Guard) (d : Dst8) (a : Src8) (b : Src5) (s : State), s.cur.r.holds g = true →
    let x := s.cur.src8 a
    let y := s.cur.src5 b
    let n := 1 + a.lits + b.lits
    (∃ t, exec (.shl g d a b) s = .next t ∧ LaneDone s t d n (BitVec.ofNat 32 (x.toNat * 2 ^ y.toNat)) 0) ∧
    (∃ t, exec (.shr g d a b) s = .next t ∧ LaneDone s t d n (BitVec.ofNat 32 (x.toNat / 2 ^ y.toNat)) 0) ∧
    (∃ t, exec (.sar g d a b) s = .next t ∧ LaneDone s t d n (BitVec.ofInt 32 (x.toInt / 2 ^ y.toNat)) 0)

/-- BFEN, BFES and BFI act on the clipped field, bit by bit (R84). -/
def Obligations.LaneFieldResults : Prop :=
  ∀ (g : Guard) (d : Dst8) (a : Src8) (b : Src5) (s : State), s.cur.r.holds g = true →
    let x := s.cur.src8 a
    let y := s.cur.src5 b
    let n := 1 + a.lits + b.lits
    let p := min (y.toNat % 256) 32
    let w := min (y.toNat / 256 % 256) (32 - p)
    (∃ t r, exec (.bfen g d a b) s = .next t ∧ LaneDone s t d n r 0 ∧
      ∀ i, i < 32 → r.getLsbD i = (decide (i < w) && x.getLsbD (p + i))) ∧
    (∃ t r, exec (.bfes g d a b) s = .next t ∧ LaneDone s t d n r 0 ∧
      ∀ i, i < 32 → r.getLsbD i = (decide (0 < w) && x.getLsbD (p + min i (w - 1)))) ∧
    (∃ t r, exec (.bfi g d a b) s = .next t ∧ LaneDone s t d n r 0 ∧
      ∀ i, i < 32 → r.getLsbD i = if p ≤ i ∧ i < p + w then s.cur.r.lr.getLsbD (i - p) else x.getLsbD i)

/-- PRMT assembles its bytes by selector nibbles; CSEL always executes and its guard selects (R85, R86). -/
def Obligations.LaneSelectResults : Prop :=
  ∀ (g : Guard) (d : Dst8) (a : Src8) (b : Src5) (s : State),
    let x := s.cur.src8 a
    let y := s.cur.src5 b
    let n := 1 + a.lits + b.lits
    (s.cur.r.holds g = true → ∃ t r, exec (.prmt g d a b) s = .next t ∧ LaneDone s t d n r 0 ∧
      ∀ i, i < 4 →
        let byte := x.extractLsb' (8 * (y.extractLsb' (4 * i) 2).toNat) 8
        r.extractLsb' (8 * i) 8 =
          if y.getLsbD (4 * i + 2) then 0 else if y.getLsbD (4 * i + 3) then (if byte.getLsbD 7 then 0xFF else 0) else byte) ∧
    (∃ t, exec (.csel g d a b) s = .next t ∧
      LaneDone s t d n (match g with | none => x | some p => if s.cur.r.getP p then x else y) 0)

/-- The thirteen IUNARY functions write the results of R87 (R87). -/
def Obligations.LaneUnaryResults : Prop :=
  ∀ (g : Guard) (d : Dst8) (a : Src8) (s : State), s.cur.r.holds g = true →
    let x := s.cur.src8 a
    let n := 1 + a.lits
    (∃ t, exec (.mov g d a) s = .next t ∧ LaneDone s t d n x 0) ∧
    (∃ t, exec (.not g d a) s = .next t ∧ LaneDone s t d n (x ^^^ 0xFFFFFFFF) 0) ∧
    (∃ t, exec (.ineg g d a) s = .next t ∧ LaneDone s t d n (0 - x) 0) ∧
    (∃ t, exec (.iabs g d a) s = .next t ∧ LaneDone s t d n (BitVec.ofInt 32 x.toInt.natAbs) 0) ∧
    (∃ t, exec (.popc g d a) s = .next t ∧ LaneDone s t d n (BitVec.ofNat 32 ((List.range 32).countP (fun i => x.getLsbD i))) 0) ∧
    (∃ t c, exec (.clz g d a) s = .next t ∧ LaneDone s t d n (BitVec.ofNat 32 c) 0 ∧ c ≤ 32 ∧
      (∀ j, j < c → x.getLsbD (31 - j) = false) ∧ (c < 32 → x.getLsbD (31 - c) = true)) ∧
    (∃ t c, exec (.ctz g d a) s = .next t ∧ LaneDone s t d n (BitVec.ofNat 32 c) 0 ∧ c ≤ 32 ∧
      (∀ j, j < c → x.getLsbD j = false) ∧ (c < 32 → x.getLsbD c = true)) ∧
    (∃ t r, exec (.brev g d a) s = .next t ∧ LaneDone s t d n r 0 ∧ ∀ i, i < 32 → r.getLsbD i = x.getLsbD (31 - i)) ∧
    (∃ t r, exec (.bswap g d a) s = .next t ∧ LaneDone s t d n r 0 ∧
      ∀ i, i < 4 → r.extractLsb' (8 * i) 8 = x.extractLsb' (8 * (3 - i)) 8) ∧
    (∃ t, exec (.sext8 g d a) s = .next t ∧ LaneDone s t d n (BitVec.ofInt 32 (x.setWidth 8).toInt) 0) ∧
    (∃ t, exec (.sext16 g d a) s = .next t ∧ LaneDone s t d n (BitVec.ofInt 32 (x.setWidth 16).toInt) 0) ∧
    (∃ t, exec (.zext8 g d a) s = .next t ∧ LaneDone s t d n (x &&& 0xFF) 0) ∧
    (∃ t, exec (.zext16 g d a) s = .next t ∧ LaneDone s t d n (x &&& 0xFFFF) 0)

/-- FADD, FSUB, FMUL, FFMA, FSCALE, FMIN and FMAX complete with one rounding of the exact value (R88, R89, R66). -/
def Obligations.LaneFloatArithmetic : Prop :=
  ∀ (g : Guard) (d : Dst8) (a : Src8) (b : Src5) (s : State), s.cur.r.holds g = true →
    let x := s.cur.src8 a
    let y := s.cur.src5 b
    let n := 1 + a.lits + b.lits
    (∃ t, exec (.fadd g d a b) s = .next t ∧ LaneDoneFl s t d n (Fmt.f32.out ((Fmt.f32.dec x.toNat).add (Fmt.f32.dec y.toNat)))) ∧
    (∃ t, exec (.fsub g d a b) s = .next t ∧ LaneDoneFl s t d n (Fmt.f32.out ((Fmt.f32.dec x.toNat).add (Fmt.f32.dec y.toNat).neg))) ∧
    (∃ t, exec (.fmul g d a b) s = .next t ∧ LaneDoneFl s t d n (Fmt.f32.out ((Fmt.f32.dec x.toNat).mul (Fmt.f32.dec y.toNat)))) ∧
    (∃ t, exec (.ffma g d a b) s = .next t ∧ LaneDoneFl s t d n (Fmt.f32.out ((Fmt.f32.dec x.toNat).fma (Fmt.f32.dec y.toNat) (Fmt.f32.dec (s.cur.dst8 d).toNat)))) ∧
    (∃ t, exec (.fscale g d a b) s = .next t ∧ LaneDoneFl s t d n (match (Fmt.f32.dec x.toNat) with
      | .nan q => (0x7FC00000, (Val.nan q).sigFl)
      | .inf k => (Fmt.f32.inf k, 0)
      | .fin k 0 e => Fmt.f32.round (.fin k 0 e)
      | .fin k m e => Fmt.f32.round (.fin k m (e + y.toInt)))) ∧
    (∃ t, exec (.fmin g d a b) s = .next t ∧ LaneDoneFl s t d n (if (Fmt.f32.dec x.toNat).isNan ∧ (Fmt.f32.dec y.toNat).isNan then 0x7FC00000 else if (Fmt.f32.dec x.toNat).isNan then y.toNat
        else if (Fmt.f32.dec y.toNat).isNan ∨ (Fmt.f32.dec x.toNat).below (Fmt.f32.dec y.toNat) then x.toNat else y.toNat, (Fmt.f32.dec x.toNat).sigFl ||| (Fmt.f32.dec y.toNat).sigFl)) ∧
    (∃ t, exec (.fmax g d a b) s = .next t ∧ LaneDoneFl s t d n (if (Fmt.f32.dec x.toNat).isNan ∧ (Fmt.f32.dec y.toNat).isNan then 0x7FC00000 else if (Fmt.f32.dec x.toNat).isNan then y.toNat
        else if (Fmt.f32.dec y.toNat).isNan ∨ (Fmt.f32.dec y.toNat).below (Fmt.f32.dec x.toNat) then x.toNat else y.toNat, (Fmt.f32.dec x.toNat).sigFl ||| (Fmt.f32.dec y.toNat).sigFl))

/-- The eighteen FUNARY functions complete with the rounded or exact value of their function (R90, R91, R92, R77). -/
def Obligations.LaneFloatFunctions : Prop :=
  ∀ (g : Guard) (d : Dst8) (a : Src8) (s : State), s.cur.r.holds g = true →
    let x := s.cur.src8 a
    let n := 1 + a.lits
    (∃ t, exec (.frcp g d a) s = .next t ∧ LaneDoneFl s t d n (Fmt.f32.out (Fmt.f32.dec x.toNat).recip)) ∧
    (∃ t, exec (.frsq g d a) s = .next t ∧ LaneDoneFl s t d n (Fmt.f32.out (Fmt.f32.dec x.toNat).rsqrt)) ∧
    (∃ t, exec (.fsqrt g d a) s = .next t ∧ LaneDoneFl s t d n (Fmt.f32.out (Fmt.f32.dec x.toNat).sqrt)) ∧
    (∃ t, exec (.fexp2 g d a) s = .next t ∧ LaneDoneFl s t d n (Fmt.f32.out (Fmt.f32.dec x.toNat).exp2)) ∧
    (∃ t, exec (.flog2 g d a) s = .next t ∧ LaneDoneFl s t d n (Fmt.f32.out (Fmt.f32.dec x.toNat).log2)) ∧
    (∃ t, exec (.fsinr g d a) s = .next t ∧ LaneDoneFl s t d n (Fmt.f32.out ((Fmt.f32.dec x.toNat).turn false))) ∧
    (∃ t, exec (.fcosr g d a) s = .next t ∧ LaneDoneFl s t d n (Fmt.f32.out ((Fmt.f32.dec x.toNat).turn true))) ∧
    (∃ t, exec (.ftanh g d a) s = .next t ∧ LaneDoneFl s t d n (Fmt.f32.out (Fmt.f32.dec x.toNat).tanh)) ∧
    (∃ t, exec (.fsigm g d a) s = .next t ∧ LaneDoneFl s t d n (Fmt.f32.out (Fmt.f32.dec x.toNat).sigm)) ∧
    (∃ t, exec (.fabs g d a) s = .next t ∧ LaneDoneFl s t d n (Fmt.f32.out ((Fmt.f32.dec x.toNat).abs, (Fmt.f32.dec x.toNat).sigFl))) ∧
    (∃ t, exec (.fneg g d a) s = .next t ∧ LaneDoneFl s t d n (Fmt.f32.out ((Fmt.f32.dec x.toNat).neg, (Fmt.f32.dec x.toNat).sigFl))) ∧
    (∃ t, exec (.ffloor g d a) s = .next t ∧ LaneDoneFl s t d n (Fmt.f32.out ((Fmt.f32.dec x.toNat).integral .floor, (Fmt.f32.dec x.toNat).sigFl))) ∧
    (∃ t, exec (.fceil g d a) s = .next t ∧ LaneDoneFl s t d n (Fmt.f32.out ((Fmt.f32.dec x.toNat).integral .ceil, (Fmt.f32.dec x.toNat).sigFl))) ∧
    (∃ t, exec (.ftrunc g d a) s = .next t ∧ LaneDoneFl s t d n (Fmt.f32.out ((Fmt.f32.dec x.toNat).integral .trunc, (Fmt.f32.dec x.toNat).sigFl))) ∧
    (∃ t, exec (.frint g d a) s = .next t ∧ LaneDoneFl s t d n (Fmt.f32.out ((Fmt.f32.dec x.toNat).integral .rint, (Fmt.f32.dec x.toNat).sigFl))) ∧
    (∃ t, exec (.ffrac g d a) s = .next t ∧ LaneDoneFl s t d n (Fmt.f32.frac x.toNat)) ∧
    (∃ t, exec (.fsat g d a) s = .next t ∧ LaneDoneFl s t d n (Fmt.f32.sat x.toNat)) ∧
    (∃ t, exec (.fclass g d a) s = .next t ∧ LaneDoneFl s t d n (match (Fmt.f32.dec x.toNat) with
      | .inf k => if k then 1 else 128
      | .nan q => if q then 256 else 512
      | .fin k m _ => if m = 0 then (if k then 8 else 16) else if m < 2 ^ 23 then (if k then 4 else 32) else (if k then 2 else 64), 0))

/-- The packed instructions compute their two halves independently and OR their flags (R93). -/
def Obligations.LanePackedResults : Prop :=
  ∀ (g : Guard) (d : Dst8) (a : Src8) (b : Src5) (s : State), s.cur.r.holds g = true →
    let x := s.cur.src8 a
    let y := s.cur.src5 b
    let n := 1 + a.lits + b.lits
    let z := s.cur.dst8 d
    (∃ t, exec (.hadd2 g d a b) s = .next t ∧
      let l := (Fmt.f16.out ((Fmt.f16.dec (x.extractLsb' 0 16).toNat).add (Fmt.f16.dec (y.extractLsb' 0 16).toNat)))
      let h := (Fmt.f16.out ((Fmt.f16.dec (x.extractLsb' 16 16).toNat).add (Fmt.f16.dec (y.extractLsb' 16 16).toNat)))
      LaneDoneFl s t d n (h.1 * 65536 + l.1, h.2 ||| l.2)) ∧
    (∃ t, exec (.hmul2 g d a b) s = .next t ∧
      let l := (Fmt.f16.out ((Fmt.f16.dec (x.extractLsb' 0 16).toNat).mul (Fmt.f16.dec (y.extractLsb' 0 16).toNat)))
      let h := (Fmt.f16.out ((Fmt.f16.dec (x.extractLsb' 16 16).toNat).mul (Fmt.f16.dec (y.extractLsb' 16 16).toNat)))
      LaneDoneFl s t d n (h.1 * 65536 + l.1, h.2 ||| l.2)) ∧
    (∃ t, exec (.hfma2 g d a b) s = .next t ∧
      let l := (Fmt.f16.out ((Fmt.f16.dec (x.extractLsb' 0 16).toNat).fma (Fmt.f16.dec (y.extractLsb' 0 16).toNat) (Fmt.f16.dec (z.extractLsb' 0 16).toNat)))
      let h := (Fmt.f16.out ((Fmt.f16.dec (x.extractLsb' 16 16).toNat).fma (Fmt.f16.dec (y.extractLsb' 16 16).toNat) (Fmt.f16.dec (z.extractLsb' 16 16).toNat)))
      LaneDoneFl s t d n (h.1 * 65536 + l.1, h.2 ||| l.2)) ∧
    (∃ t, exec (.bfma2 g d a b) s = .next t ∧
      let l := (Fmt.bf16.out ((Fmt.bf16.dec (x.extractLsb' 0 16).toNat).fma (Fmt.bf16.dec (y.extractLsb' 0 16).toNat) (Fmt.bf16.dec (z.extractLsb' 0 16).toNat)))
      let h := (Fmt.bf16.out ((Fmt.bf16.dec (x.extractLsb' 16 16).toNat).fma (Fmt.bf16.dec (y.extractLsb' 16 16).toNat) (Fmt.bf16.dec (z.extractLsb' 16 16).toNat)))
      LaneDoneFl s t d n (h.1 * 65536 + l.1, h.2 ||| l.2)) ∧
    (∃ t, exec (.hmin2 g d a b) s = .next t ∧
      let l := (Fmt.f16.minmax false (x.extractLsb' 0 16).toNat (y.extractLsb' 0 16).toNat)
      let h := (Fmt.f16.minmax false (x.extractLsb' 16 16).toNat (y.extractLsb' 16 16).toNat)
      LaneDoneFl s t d n (h.1 * 65536 + l.1, h.2 ||| l.2)) ∧
    (∃ t, exec (.hmax2 g d a b) s = .next t ∧
      let l := (Fmt.f16.minmax true (x.extractLsb' 0 16).toNat (y.extractLsb' 0 16).toNat)
      let h := (Fmt.f16.minmax true (x.extractLsb' 16 16).toNat (y.extractLsb' 16 16).toNat)
      LaneDoneFl s t d n (h.1 * 65536 + l.1, h.2 ||| l.2))

/-- The nineteen CVT forms complete with the converted value of the bits they read (R94, R68, R70). -/
def Obligations.ConversionResults : Prop :=
  ∀ (g : Guard) (d : Dst8) (a : Src8) (s : State), s.cur.r.holds g = true →
    let x := s.cur.src8 a
    let n := 1 + a.lits
    (∃ t, exec (.cvtF32S32 g d a) s = .next t ∧ LaneDoneFl s t d n (Fmt.f32.round (.ofInt x.toInt))) ∧
    (∃ t, exec (.cvtF32N32 g d a) s = .next t ∧ LaneDoneFl s t d n (Fmt.f32.round (.ofInt x.toNat))) ∧
    (∃ t, exec (.cvtS32F32 g d a) s = .next t ∧
      let v := (Fmt.f32.dec x.toNat).toInt .trunc (-2147483648) 2147483647
      LaneDone s t d n (BitVec.ofInt 32 v.1) v.2) ∧
    (∃ t, exec (.cvtN32F32 g d a) s = .next t ∧
      let v := (Fmt.f32.dec x.toNat).toInt .trunc (0) 4294967295
      LaneDone s t d n (BitVec.ofInt 32 v.1) v.2) ∧
    (∃ t, exec (.cvtS32F32Rn g d a) s = .next t ∧
      let v := (Fmt.f32.dec x.toNat).toInt .nearest (-2147483648) 2147483647
      LaneDone s t d n (BitVec.ofInt 32 v.1) v.2) ∧
    (∃ t, exec (.cvtF16F32 g d a) s = .next t ∧ LaneDoneFl s t d n (Fmt.f16.out ((Fmt.f32.dec x.toNat), (Fmt.f32.dec x.toNat).sigFl))) ∧
    (∃ t, exec (.cvtF32F16l g d a) s = .next t ∧
      let v := Fmt.f16.dec (x.extractLsb' 0 16).toNat
      LaneDoneFl s t d n (Fmt.f32.out (v, v.sigFl))) ∧
    (∃ t, exec (.cvtF32F16h g d a) s = .next t ∧
      let v := Fmt.f16.dec (x.extractLsb' 16 16).toNat
      LaneDoneFl s t d n (Fmt.f32.out (v, v.sigFl))) ∧
    (∃ t, exec (.cvtBf16F32 g d a) s = .next t ∧ LaneDoneFl s t d n (Fmt.bf16.out ((Fmt.f32.dec x.toNat), (Fmt.f32.dec x.toNat).sigFl))) ∧
    (∃ t, exec (.cvtF32Bf16l g d a) s = .next t ∧
      let v := Fmt.bf16.dec (x.extractLsb' 0 16).toNat
      LaneDoneFl s t d n (Fmt.f32.out (v, v.sigFl))) ∧
    (∃ t, exec (.cvtF32Bf16h g d a) s = .next t ∧
      let v := Fmt.bf16.dec (x.extractLsb' 16 16).toNat
      LaneDoneFl s t d n (Fmt.f32.out (v, v.sigFl))) ∧
    (∃ t, exec (.cvtE4m3F32 g d a) s = .next t ∧ LaneDoneFl s t d n (Fmt.e4m3.out ((Fmt.f32.dec x.toNat), (Fmt.f32.dec x.toNat).sigFl))) ∧
    (∃ t, exec (.cvtE5m2F32 g d a) s = .next t ∧ LaneDoneFl s t d n (Fmt.e5m2.out ((Fmt.f32.dec x.toNat), (Fmt.f32.dec x.toNat).sigFl))) ∧
    (∃ t, exec (.cvtF32E4m3 g d a) s = .next t ∧
      let v := Fmt.e4m3.dec (x.extractLsb' 0 8).toNat
      LaneDoneFl s t d n (Fmt.f32.out (v, v.sigFl))) ∧
    (∃ t, exec (.cvtF32E5m2 g d a) s = .next t ∧
      let v := Fmt.e5m2.dec (x.extractLsb' 0 8).toNat
      LaneDoneFl s t d n (Fmt.f32.out (v, v.sigFl))) ∧
    (∃ t, exec (.cvtLns6F32 g d a) s = .next t ∧ LaneDoneFl s t d n ((lnsRound (Fmt.f32.dec x.toNat)).1, (lnsRound (Fmt.f32.dec x.toNat)).2 ||| (Fmt.f32.dec x.toNat).sigFl)) ∧
    (∃ t, exec (.cvtF32Lns6 g d a) s = .next t ∧ LaneDoneFl s t d n ((Fmt.f32.round (lnsDec (x.extractLsb' 0 6).toNat)).1, 0)) ∧
    (∃ t, exec (.cvtS8F32 g d a) s = .next t ∧
      let v := (Fmt.f32.dec x.toNat).toInt .nearest (-128) 127
      LaneDone s t d n (BitVec.ofInt 32 v.1) v.2) ∧
    (∃ t, exec (.cvtN8F32 g d a) s = .next t ∧
      let v := (Fmt.f32.dec x.toNat).toInt .nearest (0) 255
      LaneDone s t d n (BitVec.ofInt 32 v.1) v.2)

/-- Comparisons, PLOP and VTOP write predicates only; PTOV writes the twelve predicates to a register (R95, R96, R97, R98, R50). -/
def Obligations.PredicateResults : Prop :=
  ∀ (g : Guard) (d : Dst8) (pd pa pb : PReg) (tt : BitVec 4) (ic : ICond) (fc : FCond) (a : Src8) (b : Src5) (s : State),
    s.cur.r.holds g = true →
    let x := s.cur.src8 a
    let y := s.cur.src5 b
    let n := 1 + a.lits + b.lits
    let cond (lt eq : Prop) : Prop := match ic with | .eq => eq | .ne => ¬eq | .lt => lt | .le => lt ∨ eq | .gt => ¬(lt ∨ eq) | .ge => ¬lt
    (∃ t z, exec (.icmp g pd ic a b) s = .next t ∧ PredDone s t pd n z 0 ∧ (z = true ↔ cond (x.toInt < y.toInt) (x.toInt = y.toInt))) ∧
    (∃ t z, exec (.ncmp g pd ic a b) s = .next t ∧ PredDone s t pd n z 0 ∧ (z = true ↔ cond (x.toNat < y.toNat) (x.toNat = y.toNat))) ∧
    (∃ t z fl, exec (.fcmp g pd fc a b) s = .next t ∧ PredDone s t pd n z fl ∧
      let u := Fmt.f32.dec x.toNat
      let v := Fmt.f32.dec y.toNat
      (if u.isNan ∨ v.isNan then
        (z = true ↔ fc ∈ [.ne, .un, .ltu, .leu, .gtu, .geu, .equ]) ∧ fl = if fc ∈ [.lt, .le, .gt, .ge] then flIV else 0
       else fl = 0 ∧ (z = true ↔ match fc with
         | .eq | .equ => u.lt v = false ∧ v.lt u = false
         | .ne => u.lt v = true ∨ v.lt u = true
         | .lt | .ltu => u.lt v = true
         | .le | .leu => v.lt u = false
         | .gt | .gtu => v.lt u = true
         | .ge | .geu => u.lt v = false
         | .un => False
         | .ord => True))) ∧
    (∃ t, exec (.plop g pd pa pb tt) s = .next t ∧
      PredDone s t pd 1 (tt.getLsbD ((if s.cur.r.getP pa then 2 else 0) + if s.cur.r.getP pb then 1 else 0)) 0) ∧
    (∃ t, exec (.vtop g a) s = .next t ∧ OnlyRegs s t ∧ (∀ k : PReg, t.cur.r.getP k = x.getLsbD k.val) ∧
      t.cur.r = { s.cur.r with p := t.cur.r.p, pc := s.cur.r.pc + BitVec.ofNat 64 (4 * (1 + a.lits)) }) ∧
    (∃ t, exec (.ptov g d) s = .next t ∧ LaneDone s t d 1 (BitVec.ofNat 32 s.cur.r.p.toNat) 0)

/-- The 64-bit integer instructions write the results of R103 and R104 to one x register (R103, R104, R105, R99). -/
def Obligations.GroupIntegerResults : Prop :=
  ∀ (g : Guard) (d a : XReg) (b : SrcB9) (s : State),
    let x := s.cur.r.getX a
    let y := s.cur.b9 b
    let n := 1 + b.lits
    (s.cur.r.holds g = true →
    (∃ t, exec (.wadd g d a b) s = .next t ∧ GroupDone s t d n (x + y) 0) ∧
    (∃ t, exec (.wsub g d a b) s = .next t ∧ GroupDone s t d n (x - y) 0) ∧
    (∃ t, exec (.wmul g d a b) s = .next t ∧ GroupDone s t d n (x * y) 0) ∧
    (∃ t, exec (.wmulhs g d a b) s = .next t ∧ GroupDone s t d n ((x.signExtend 128 * y.signExtend 128).extractLsb' 64 64) 0) ∧
    (∃ t, exec (.wmulhn g d a b) s = .next t ∧ GroupDone s t d n ((x.setWidth 128 * y.setWidth 128).extractLsb' 64 64) 0) ∧
    (∃ t, exec (.wand g d a b) s = .next t ∧ GroupDone s t d n (x &&& y) 0) ∧
    (∃ t, exec (.wor g d a b) s = .next t ∧ GroupDone s t d n (x ||| y) 0) ∧
    (∃ t, exec (.wxor g d a b) s = .next t ∧ GroupDone s t d n (x ^^^ y) 0) ∧
    (∃ t, exec (.wmin g d a b) s = .next t ∧ GroupDone s t d n (if x.toInt ≤ y.toInt then x else y) 0) ∧
    (∃ t, exec (.wmax g d a b) s = .next t ∧ GroupDone s t d n (if y.toInt ≤ x.toInt then x else y) 0) ∧
    (∃ t, exec (.wnmin g d a b) s = .next t ∧ GroupDone s t d n (if x.toNat ≤ y.toNat then x else y) 0) ∧
    (∃ t, exec (.wnmax g d a b) s = .next t ∧ GroupDone s t d n (if y.toNat ≤ x.toNat then x else y) 0) ∧
    (∃ t, exec (.wshl g d a b) s = .next t ∧ GroupDone s t d n (BitVec.ofNat 64 (x.toNat * 2 ^ y.toNat)) 0) ∧
    (∃ t, exec (.wshr g d a b) s = .next t ∧ GroupDone s t d n (BitVec.ofNat 64 (x.toNat / 2 ^ y.toNat)) 0) ∧
    (∃ t, exec (.wsar g d a b) s = .next t ∧ GroupDone s t d n (BitVec.ofInt 64 (x.toInt / 2 ^ y.toNat)) 0)) ∧
    (∃ t, exec (.wsel g d a b) s = .next t ∧
      GroupDone s t d n (match g with | none => x | some p => if s.cur.r.getP p then x else y) 0)

/-- The WUNARY functions and the moves between v and x write what R106 and R113 say (R106, R113). -/
def Obligations.GroupUnaryResults : Prop :=
  ∀ (g : Guard) (d a : XReg) (e : Dst8) (b : Src8) (v : VReg) (s : State), s.cur.r.holds g = true →
    let x := s.cur.r.getX a
    let y := s.cur.src8 b
    (∃ t, exec (.wmov g d a) s = .next t ∧ GroupDone s t d 1 x 0) ∧
    (∃ t, exec (.wnot g d a) s = .next t ∧ GroupDone s t d 1 (x ^^^ BitVec.allOnes 64) 0) ∧
    (∃ t, exec (.wneg g d a) s = .next t ∧ GroupDone s t d 1 (0 - x) 0) ∧
    (∃ t, exec (.wabs g d a) s = .next t ∧ GroupDone s t d 1 (BitVec.ofInt 64 x.toInt.natAbs) 0) ∧
    (∃ t, exec (.wpopc g d a) s = .next t ∧ GroupDone s t d 1 (BitVec.ofNat 64 ((List.range 64).countP (fun i => x.getLsbD i))) 0) ∧
    (∃ t c, exec (.wclz g d a) s = .next t ∧ GroupDone s t d 1 (BitVec.ofNat 64 c) 0 ∧ c ≤ 64 ∧
      (∀ j, j < c → x.getLsbD (63 - j) = false) ∧ (c < 64 → x.getLsbD (63 - c) = true)) ∧
    (∃ t c, exec (.wctz g d a) s = .next t ∧ GroupDone s t d 1 (BitVec.ofNat 64 c) 0 ∧ c ≤ 64 ∧
      (∀ j, j < c → x.getLsbD j = false) ∧ (c < 64 → x.getLsbD c = true)) ∧
    (∃ t r, exec (.wbrev g d a) s = .next t ∧ GroupDone s t d 1 r 0 ∧ ∀ i, i < 64 → r.getLsbD i = x.getLsbD (63 - i)) ∧
    (∃ t r, exec (.wbswap g d a) s = .next t ∧ GroupDone s t d 1 r 0 ∧
      ∀ i, i < 8 → r.extractLsb' (8 * i) 8 = x.extractLsb' (8 * (7 - i)) 8) ∧
    (∃ t, exec (.wsext32 g d a) s = .next t ∧ GroupDone s t d 1 (BitVec.ofInt 64 (x.setWidth 32).toInt) 0) ∧
    (∃ t, exec (.wzext32 g d a) s = .next t ∧ GroupDone s t d 1 (x &&& 0xFFFFFFFF) 0) ∧
    (∃ t, exec (.v2x g d b) s = .next t ∧ GroupDone s t d (1 + b.lits) (BitVec.ofNat 64 y.toNat) 0) ∧
    (∃ t, exec (.v2xs g d b) s = .next t ∧ GroupDone s t d (1 + b.lits) (BitVec.ofInt 64 y.toInt) 0) ∧
    (∃ t, exec (.vp2x g d v) s = .next t ∧ GroupDone s t d 1 (BitVec.ofNat 64 ((s.cur.r.vAt (v.val + 1)).toNat * 2 ^ 32 + (s.cur.r.getV v).toNat)) 0) ∧
    (∃ t, exec (.x2v g e a) s = .next t ∧ MoveDone s t e (x.extractLsb' 0 32)) ∧
    (∃ t, exec (.x2vh g e a) s = .next t ∧ MoveDone s t e (x.extractLsb' 32 32)) ∧
    (∃ t, exec (.x2vp g v a) s = .next t ∧ OnlyRegs s t ∧
      t.cur.r = { s.cur.r with v := t.cur.r.v, pc := s.cur.r.pc + 4 } ∧
      ∀ k : VReg, t.cur.r.getV k =
        if k = Fin.ofNat 128 (v.val + 1) then x.extractLsb' 32 32 else if k = v then x.extractLsb' 0 32 else s.cur.r.getV k)

/-- DADD, DSUB, DMUL, DFMA, DMIN and DMAX complete with one rounding of the exact binary64 value (R109, R89, R108). -/
def Obligations.GroupFloatArithmetic : Prop :=
  ∀ (g : Guard) (d a : XReg) (b : SrcB9) (s : State), s.cur.r.holds g = true →
    let n := 1 + b.lits
    (∃ t, exec (.dadd g d a b) s = .next t ∧ GroupDoneFl s t d n (Fmt.f64.out ((Fmt.f64.dec (s.cur.r.getX a).toNat).add (Fmt.f64.dec (b9d s.cur b))))) ∧
    (∃ t, exec (.dsub g d a b) s = .next t ∧ GroupDoneFl s t d n (Fmt.f64.out ((Fmt.f64.dec (s.cur.r.getX a).toNat).add (Fmt.f64.dec (b9d s.cur b)).neg))) ∧
    (∃ t, exec (.dmul g d a b) s = .next t ∧ GroupDoneFl s t d n (Fmt.f64.out ((Fmt.f64.dec (s.cur.r.getX a).toNat).mul (Fmt.f64.dec (b9d s.cur b))))) ∧
    (∃ t, exec (.dfma g d a b) s = .next t ∧ GroupDoneFl s t d n (Fmt.f64.out ((Fmt.f64.dec (s.cur.r.getX a).toNat).fma (Fmt.f64.dec (b9d s.cur b)) (Fmt.f64.dec (s.cur.r.getX d).toNat)))) ∧
    (∃ t, exec (.dmin g d a b) s = .next t ∧ GroupDoneFl s t d n (Fmt.f64.minmax false (s.cur.r.getX a).toNat (b9d s.cur b))) ∧
    (∃ t, exec (.dmax g d a b) s = .next t ∧ GroupDoneFl s t d n (Fmt.f64.minmax true (s.cur.r.getX a).toNat (b9d s.cur b)))

/-- The DUNARY and DCVT functions and DCMP complete with the values of R110 to R112 (R110, R111, R112). -/
def Obligations.GroupFloatFunctions : Prop :=
  ∀ (g : Guard) (d a : XReg) (pd : PReg) (fc : FCond) (b : SrcB7) (s : State), s.cur.r.holds g = true →
    let x := s.cur.r.getX a
    (∃ t, exec (.dabs g d a) s = .next t ∧ GroupDoneFl s t d 1 (Fmt.f64.out ((Fmt.f64.dec (s.cur.r.getX a).toNat).abs, (Fmt.f64.dec (s.cur.r.getX a).toNat).sigFl))) ∧
    (∃ t, exec (.dneg g d a) s = .next t ∧ GroupDoneFl s t d 1 (Fmt.f64.out ((Fmt.f64.dec (s.cur.r.getX a).toNat).neg, (Fmt.f64.dec (s.cur.r.getX a).toNat).sigFl))) ∧
    (∃ t, exec (.dsqrt g d a) s = .next t ∧ GroupDoneFl s t d 1 (Fmt.f64.out (Fmt.f64.dec (s.cur.r.getX a).toNat).sqrt)) ∧
    (∃ t, exec (.drcp g d a) s = .next t ∧ GroupDoneFl s t d 1 (Fmt.f64.out (Fmt.f64.dec (s.cur.r.getX a).toNat).recip)) ∧
    (∃ t, exec (.dfloor g d a) s = .next t ∧ GroupDoneFl s t d 1 (Fmt.f64.out ((Fmt.f64.dec (s.cur.r.getX a).toNat).integral .floor, (Fmt.f64.dec (s.cur.r.getX a).toNat).sigFl))) ∧
    (∃ t, exec (.dceil g d a) s = .next t ∧ GroupDoneFl s t d 1 (Fmt.f64.out ((Fmt.f64.dec (s.cur.r.getX a).toNat).integral .ceil, (Fmt.f64.dec (s.cur.r.getX a).toNat).sigFl))) ∧
    (∃ t, exec (.dtrunc g d a) s = .next t ∧ GroupDoneFl s t d 1 (Fmt.f64.out ((Fmt.f64.dec (s.cur.r.getX a).toNat).integral .trunc, (Fmt.f64.dec (s.cur.r.getX a).toNat).sigFl))) ∧
    (∃ t, exec (.drint g d a) s = .next t ∧ GroupDoneFl s t d 1 (Fmt.f64.out ((Fmt.f64.dec (s.cur.r.getX a).toNat).integral .rint, (Fmt.f64.dec (s.cur.r.getX a).toNat).sigFl))) ∧
    (∃ t, exec (.dclass g d a) s = .next t ∧ GroupDoneFl s t d 1 (match (Fmt.f64.dec (s.cur.r.getX a).toNat) with
      | .inf k => if k then 1 else 128
      | .nan q => if q then 256 else 512
      | .fin k m _ => if m = 0 then (if k then 8 else 16) else if m < 2 ^ 52 then (if k then 4 else 32) else (if k then 2 else 64), 0)) ∧
    (∃ t, exec (.dcvtDS64 g d a) s = .next t ∧ GroupDoneFl s t d 1 (Fmt.f64.round (.ofInt x.toInt))) ∧
    (∃ t, exec (.dcvtDN64 g d a) s = .next t ∧ GroupDoneFl s t d 1 (Fmt.f64.round (.ofInt x.toNat))) ∧
    (∃ t, exec (.dcvtS64D g d a) s = .next t ∧
      let v := (Fmt.f64.dec (s.cur.r.getX a).toNat).toInt .trunc (-9223372036854775808) 9223372036854775807
      GroupDone s t d 1 (BitVec.ofInt 64 v.1) v.2) ∧
    (∃ t, exec (.dcvtN64D g d a) s = .next t ∧
      let v := (Fmt.f64.dec (s.cur.r.getX a).toNat).toInt .trunc (0) 18446744073709551615
      GroupDone s t d 1 (BitVec.ofInt 64 v.1) v.2) ∧
    (∃ t, exec (.dcvtDF32l g d a) s = .next t ∧
      let v := Fmt.f32.dec (x.extractLsb' 0 32).toNat
      GroupDoneFl s t d 1 (Fmt.f64.out (v, v.sigFl))) ∧
    (∃ t, exec (.dcvtF32D g d a) s = .next t ∧ GroupDoneFl s t d 1 (Fmt.f32.out ((Fmt.f64.dec (s.cur.r.getX a).toNat), (Fmt.f64.dec (s.cur.r.getX a).toNat).sigFl))) ∧
    (∃ t, exec (.dcvtDS32 g d a) s = .next t ∧ GroupDoneFl s t d 1 (Fmt.f64.round (.ofInt (x.extractLsb' 0 32).toInt))) ∧
    (∃ t, exec (.dcvtS32D g d a) s = .next t ∧
      let v := (Fmt.f64.dec (s.cur.r.getX a).toNat).toInt .trunc (-2147483648) 2147483647
      GroupDone s t d 1 (BitVec.ofInt 64 v.1) v.2) ∧
    (∃ t z fl, exec (.dcmp g pd fc a b) s = .next t ∧ PredDone s t pd 1 z fl ∧
      let u := Fmt.f64.dec x.toNat
      let v := Fmt.f64.dec (b7d s.cur b)
      (if u.isNan ∨ v.isNan then
        (z = true ↔ fc ∈ [.ne, .un, .ltu, .leu, .gtu, .geu, .equ]) ∧ fl = if fc ∈ [.lt, .le, .gt, .ge] then flIV else 0
       else fl = 0 ∧ (z = true ↔ match fc with
         | .eq | .equ => u.lt v = false ∧ v.lt u = false
         | .ne => u.lt v = true ∨ v.lt u = true
         | .lt | .ltu => u.lt v = true
         | .le | .leu => v.lt u = false
         | .gt | .gtu => v.lt u = true
         | .ge | .geu => u.lt v = false
         | .un => False
         | .ord => True)))

/-- WCMP and WNCMP write one predicate from the 64-bit comparison (R107, R50). -/
def Obligations.GroupComparisons : Prop :=
  ∀ (g : Guard) (pd : PReg) (ic : ICond) (a : XReg) (b : SrcB7) (s : State), s.cur.r.holds g = true →
    let x := s.cur.r.getX a
    let y := s.cur.b7 b
    let cond (lt eq : Prop) : Prop := match ic with | .eq => eq | .ne => ¬eq | .lt => lt | .le => lt ∨ eq | .gt => ¬(lt ∨ eq) | .ge => ¬lt
    (∃ t z, exec (.wcmp g pd ic a b) s = .next t ∧ PredDone s t pd 1 z 0 ∧ (z = true ↔ cond (x.toInt < y.toInt) (x.toInt = y.toInt))) ∧
    (∃ t z, exec (.wncmp g pd ic a b) s = .next t ∧ PredDone s t pd 1 z 0 ∧ (z = true ↔ cond (x.toNat < y.toNat) (x.toNat = y.toNat)))

/-- Every load issues: its access stands among the outstanding ones, and nothing is written yet (R127, R129, R131, R133, R138, R31). -/
def Obligations.LoadsIssue : Prop :=
  ∀ (g : Guard) (d : Dst8) (v : VReg) (x b : XReg) (imm : BitVec 9) (m : MemArg) (lt : LdxT) (sc : Scope) (acq : Bool) (hint : Hint)
    (s : State), s.cur.r.holds g = true →
    (∀ s' key, Reaches s s' .load (lmAddr s.cur m 1) 1 (some m.xb) key → ∃ t, exec (.ldb g d m) s = .next t ∧
      Issued s t (1 + m.lits) { plainMop s .load (lmAddr s.cur m 1) key 1 (covBit (lmAddr s.cur m 1) 0) with dst := .z32 d, lrw := true, lrs := true }) ∧
    (∀ s' key, Reaches s s' .load (lmAddr s.cur m 1) 1 (some m.xb) key → ∃ t, exec (.ldbs g d m) s = .next t ∧
      Issued s t (1 + m.lits) { plainMop s .load (lmAddr s.cur m 1) key 1 (covBit (lmAddr s.cur m 1) 0) with dst := .s32 d, lrw := true, lrs := true }) ∧
    (∀ s' key, Reaches s s' .load (lmAddr s.cur m 2) 2 (some m.xb) key → ∃ t, exec (.ldh g d m) s = .next t ∧
      Issued s t (1 + m.lits) { plainMop s .load (lmAddr s.cur m 2) key 2 (covBit (lmAddr s.cur m 2) 0) with dst := .z32 d, lrw := true, lrs := true }) ∧
    (∀ s' key, Reaches s s' .load (lmAddr s.cur m 2) 2 (some m.xb) key → ∃ t, exec (.ldhs g d m) s = .next t ∧
      Issued s t (1 + m.lits) { plainMop s .load (lmAddr s.cur m 2) key 2 (covBit (lmAddr s.cur m 2) 0) with dst := .s32 d, lrw := true, lrs := true }) ∧
    (∀ s' key, Reaches s s' .load (lmAddr s.cur m 4) 4 (some m.xb) key → ∃ t, exec (.ldw g d m) s = .next t ∧
      Issued s t (1 + m.lits) { plainMop s .load (lmAddr s.cur m 4) key 4 (covBit (lmAddr s.cur m 4) 0) with dst := .z32 d, lrw := true, lrs := true }) ∧
    (∀ s' key, Reaches s s' .load (lmAddr s.cur m 8) 8 (some m.xb) key → ∃ t, exec (.ldd g v m) s = .next t ∧
      Issued s t (1 + m.lits) { plainMop s .load (lmAddr s.cur m 8) key 8 (covBit (lmAddr s.cur m 8) 0) with dst := .pair v, lrw := false, lrs := false }) ∧
    (∀ s' key, Reaches s s' .load (lmAddr s.cur m 16) 16 (some m.xb) key → ∃ t, exec (.ldq g v m) s = .next t ∧
      Issued s t (1 + m.lits) { plainMop s .load (lmAddr s.cur m 16) key 16 (covBit (lmAddr s.cur m 16) 0) with dst := .quad v, lrw := false, lrs := false }) ∧
    (∀ s' key,
      let p : Nat × LdDst × Bool := match lt with
        | .b1 d => (1, .z32 d, true) | .b2 d => (2, .z32 d, true) | .b4 d => (4, .z32 d, true)
        | .b8 v => (8, .pair v, false) | .b16 v => (16, .quad v, false)
      Reaches s s' .load (lmAddr s.cur m p.1) p.1 (some m.xb) key → ∃ t, exec (.ldx g lt m sc acq hint) s = .next t ∧
      Issued s t (2 + m.lits) { plainMop s .load (lmAddr s.cur m p.1) key p.1 (covBit (lmAddr s.cur m p.1) 0) with
        dst := p.2.1, lrw := p.2.2, lrs := p.2.2, scope := sc.code, acq, hint, cov := 0 }) ∧
    (∀ s' key, Reaches s s' .load (s.cur.r.getX b + imm.signExtend 64 * 8) 8 (some b) key → ∃ t, exec (.wld g x b imm) s = .next t ∧
      Issued s t 1 { plainMop s .load (s.cur.r.getX b + imm.signExtend 64 * 8) key 8 (covBit (s.cur.r.getX b + imm.signExtend 64 * 8) 0) with dst := .x x, lrw := false, lrs := false, cov := 0 })

/-- Every store issues: its access stands among the outstanding ones with its data, and memory does not change yet (R127, R129, R133, R138, R268, R324). -/
def Obligations.StoresIssue : Prop :=
  ∀ (g : Guard) (a : Src8) (v : VReg) (x b : XReg) (imm : BitVec 9) (m : MemArg) (st : StxT) (sc : Scope) (rel : Bool) (hint : Hint)
    (s : State), s.cur.r.holds g = true → s.cur.rest = none →
    (∀ s' key, Reaches s s' .store (lmAddr s.cur m 1) 1 (some m.xb) key → ∃ t, exec (.stb g a m) s = .next t ∧
      Issued s t (1 + a.lits + m.lits) { plainMop s .store (lmAddr s.cur m 1) key 1 (covBit (lmAddr s.cur m 1) 1) with data := (s.cur.src8 a).setWidth 128 }) ∧
    (∀ s' key, Reaches s s' .store (lmAddr s.cur m 2) 2 (some m.xb) key → ∃ t, exec (.sth g a m) s = .next t ∧
      Issued s t (1 + a.lits + m.lits) { plainMop s .store (lmAddr s.cur m 2) key 2 (covBit (lmAddr s.cur m 2) 1) with data := (s.cur.src8 a).setWidth 128 }) ∧
    (∀ s' key, Reaches s s' .store (lmAddr s.cur m 4) 4 (some m.xb) key → ∃ t, exec (.stw g a m) s = .next t ∧
      Issued s t (1 + a.lits + m.lits) { plainMop s .store (lmAddr s.cur m 4) key 4 (covBit (lmAddr s.cur m 4) 1) with data := (s.cur.src8 a).setWidth 128 }) ∧
    (∀ s' key, Reaches s s' .store (lmAddr s.cur m 8) 8 (some m.xb) key → ∃ t, exec (.std g v m) s = .next t ∧
      Issued s t (1 + m.lits) { plainMop s .store (lmAddr s.cur m 8) key 8 (covBit (lmAddr s.cur m 8) 1) with data := (s.cur.r.pair v).setWidth 128 }) ∧
    (∀ s' key, Reaches s s' .store (lmAddr s.cur m 16) 16 (some m.xb) key → ∃ t, exec (.stq g v m) s = .next t ∧
      Issued s t (1 + m.lits) { plainMop s .store (lmAddr s.cur m 16) key 16 (covBit (lmAddr s.cur m 16) 1) with data := s.cur.r.quad v }) ∧
    (∀ s' key, (sc = .system → s.cur.fence = none) →
      let p : Nat × BitVec 128 := match st with
        | .b1 a => (1, (s.cur.src8 a).setWidth 128) | .b2 a => (2, (s.cur.src8 a).setWidth 128)
        | .b4 a => (4, (s.cur.src8 a).setWidth 128) | .b8 v => (8, (s.cur.r.pair v).setWidth 128) | .b16 v => (16, s.cur.r.quad v)
      Reaches s s' .store (lmAddr s.cur m p.1) p.1 (some m.xb) key → ∃ t, exec (.stx g st m sc rel hint) s = .next t ∧
      Issued s t (2 + st.lits + m.lits) { plainMop s .store (lmAddr s.cur m p.1) key p.1 (covBit (lmAddr s.cur m p.1) 1) with
        data := p.2, scope := sc.code, rel, hint, cov := 1 }) ∧
    (∀ s' key, Reaches s s' .store (s.cur.r.getX b + imm.signExtend 64 * 8) 8 (some b) key → ∃ t, exec (.wst g x b imm) s = .next t ∧
      Issued s t 1 { plainMop s .store (s.cur.r.getX b + imm.signExtend 64 * 8) key 8 (covBit (s.cur.r.getX b + imm.signExtend 64 * 8) 1) with data := (s.cur.r.getX x).setWidth 128, cov := 1 })

/-- Every ATOM issues with its operand, its compare value, its scope and its order (R136, R137, R129, R53). -/
def Obligations.AtomicsIssue : Prop :=
  ∀ (g : Guard) (t : AtomT) (d : Dst8) (m : MemArg) (oa : OrdArg) (c : CasC) (s : State),
    s.cur.r.holds g = true → s.cur.rest = none → s.cur.fence = none →
    let cmp : W64 := match c with | .w32 a => (s.cur.src8 a).setWidth 64 | .w64 v => s.cur.r.pair v
    (∀ s' key, AtomIssues s s' (.atomAdd g t m oa) .add t m oa (2 + m.lits) 0 key) ∧
    (∀ s' key, AtomIssues s s' (.atomMin g t m oa) .min t m oa (2 + m.lits) 0 key) ∧
    (∀ s' key, AtomIssues s s' (.atomMax g t m oa) .max t m oa (2 + m.lits) 0 key) ∧
    (∀ s' key, AtomIssues s s' (.atomAnd g t m oa) .and t m oa (2 + m.lits) 0 key) ∧
    (∀ s' key, AtomIssues s s' (.atomOr g t m oa) .or t m oa (2 + m.lits) 0 key) ∧
    (∀ s' key, AtomIssues s s' (.atomXor g t m oa) .xor t m oa (2 + m.lits) 0 key) ∧
    (∀ s' key, AtomIssues s s' (.atomExch g t m oa) .exch t m oa (2 + m.lits) 0 key) ∧
    (∀ s' key, AtomIssues s s' (.atomCas g t m oa c) .cas t m oa (2 + m.lits + c.lits) cmp key) ∧
    (∀ s' key, AtomIssues s s' (.atomIncw g d m oa) .incw (.n32 d) m oa (2 + m.lits) 0 key) ∧
    (∀ s' key, AtomIssues s s' (.atomFadd g d m oa) .fadd (.f32 d) m oa (2 + m.lits) 0 key) ∧
    (∀ s' key, AtomIssues s s' (.atomHadd2 g d m oa) .hadd2 (.f16x2 d) m oa (2 + m.lits) 0 key)

/-- FLD, FST and FADDA issue at the slot of the frame that d[DEPTH] names (R142, R143). -/
def Obligations.FrameSlotAccessesIssue : Prop :=
  ∀ (g : Guard) (d : Dst8) (a : Src8) (dep : Fin 8) (slot : Fin 1024) (f : Nat × Hdr) (s s' : State) (key : Nat),
    s.cur.r.holds g = true → s.cur.rest = none →
    let va : W64 := BitVec.ofNat 64 (hAddr (s.cur.r.getD dep) + 16 + 4 * slot.val)
    (headerBusy s (s.cur.r.getD dep) 1 = false → frameCheck s s.cur (s.cur.r.getD dep) 1 = .ok f → slot.val < f.2.size → Reaches s s' .load va 4 none key →
      ∃ t, exec (.fld g d dep slot) s = .next t ∧
        Issued s t 1 { plainMop s .load va key 4 2 with dst := .z32 d, lrw := true, lrs := true }) ∧
    (headerBusy s (s.cur.r.getD dep) 2 = false → frameCheck s s.cur (s.cur.r.getD dep) 2 = .ok f → slot.val < f.2.size → Reaches s s' .store va 4 none key →
      ∃ t, exec (.fst g a dep slot) s = .next t ∧
        Issued s t (1 + a.lits) { plainMop s .store va key 4 2 with data := (s.cur.src8 a).setWidth 128 }) ∧
    (s.cur.fence = none → headerBusy s (s.cur.r.getD dep) 3 = false → frameCheck s s.cur (s.cur.r.getD dep) 3 = .ok f → slot.val < f.2.size →
      Reaches s s' (.atom .fadda .n32) va 4 none key →
      ∃ t, exec (.fadda g a dep slot) s = .next t ∧
        Issued s t (1 + a.lits) { plainMop s (.atom .fadda .n32) va key 4 2 with data := (s.cur.src8 a).setWidth 128 })

/-- NOP, BRA, BRD and JMP move PC as R115, R116, R123 and R163 say, and change nothing else (R34, R115, R116, R123, R163). -/
def Obligations.BranchesAndJumps : Prop :=
  ∀ (g : Guard) (disp : BitVec 21) (a : XReg) (bits : BitVec 25) (s : State),
    let tgt : W64 := s.cur.r.pc + 4 * disp.signExtend 64
    exec (.nop bits) s = .next { s with cur := { s.cur with r := { s.cur.r with pc := s.cur.r.pc + 4 } } } ∧
    (s.cur.r.holds g = true →
      exec (.bra g disp) s = .next { s with cur := { s.cur with r := { s.cur.r with pc := tgt } } } ∧
      (regroupOf s = 0 → exec (.brd g disp) s = .next { s with cur := { s.cur with r := { s.cur.r with pc := tgt } } }) ∧
      (regroupOf s ≠ 0 → exec (.brd g disp) s = .next { s with cur := { s.cur with r := { s.cur.r with pc := tgt }, wait := .hold tgt s.tick } }) ∧
      ((s.cur.r.getX a).toNat % 4 = 0 → exec (.jmp g a) s = .next { s with cur := { s.cur with r := { s.cur.r with pc := s.cur.r.getX a } } }))

/-- CALL and CALLR push the return address; RET pops its target (R12, R13, R115, R116). -/
def Obligations.CallsAndReturns : Prop :=
  ∀ (g : Guard) (disp : BitVec 21) (x : XReg) (s : State) (key : Nat), s.cur.r.holds g = true → s.cur.rest = none →
    let a : W64 := s.cur.r.sp - 8
    (pushCheck s s.cur a.toNat a.toNat = .ok key →
      exec (.call g disp) s = .next { s with cur := { s.cur with
        mops := s.cur.mops ++ [{ plainMop s .store a key 8 (covBit a 1) with data := (s.cur.r.pc + 4).setWidth 128, push := true }], nmop := s.cur.nmop + 1
        r := { s.cur.r with sp := a, pc := s.cur.r.pc + 4 * disp.signExtend 64 } } } ∧
      ((s.cur.r.getX x).toNat % 4 = 0 → exec (.callr g x) s = .next { s with cur := { s.cur with
        mops := s.cur.mops ++ [{ plainMop s .store a key 8 (covBit a 1) with data := (s.cur.r.pc + 4).setWidth 128, push := true }], nmop := s.cur.nmop + 1
        r := { s.cur.r with sp := a, pc := s.cur.r.getX x } } })) ∧
    (2 ^ 56 ≤ s.cur.r.sp.toNat → popCheck s s.cur s.cur.r.sp.toNat = .ok key → blocked s.cur key 8 false = false →
      viewN s s.cur key 8 % 4 = 0 →
      exec (.ret g) s = .next { s with cur := { addWatch s.cur ((MReq.plain .load s.cur.r.sp 8 none).mop s.cur key) with
        r := { s.cur.r with sp := s.cur.r.sp + 8, pc := BitVec.ofNat 64 (viewN s s.cur key 8) } } }) ∧
    (∀ s', s.cur.r.sp.toNat < 2 ^ 56 → s.cur.r.sp.toNat % 8 = 0 → s.cur.rej = none → s.cur.fence = none →
      resolve s (s.wgOf s.cur) s.cur.core s.cur.cid s.cur.r.sp.toNat 8 5 = (.ok key, s') → blocked s.cur key 8 false = false →
      let x := agentRead s' s.cur.core s.cur.cid 0 .default key 8
      let v := ofBytes (overlay s.cur.mops key x.1.1)
      x.1.2 = false → v % 4 = 0 → ∃ t, exec (.ret g) s = .next t ∧ Keeps s t ∧
        t.cur = { s.cur with r := { s.cur.r with sp := s.cur.r.sp + 8, pc := BitVec.ofNat 64 v } })

/-- A trap of a launched thread goes to its handler, or ends its workgroup with DOUBLE or with the cause (R62, R115, R119, R129, R304, R305, R306). -/
def Obligations.TrapEntry : Prop :=
  ∀ (g : Guard) (n : BitVec 8) (d : Dst8) (b : Src8) (x y : XReg) (imm : BitVec 9) (m : MemArg) (oa : OrdArg) (w : Wg) (i : Nat)
    (s : State), s.cur.r.holds g = true → s.cur.ref = .thr w.id i → s.cur.rest = none →
    s.cur.fence = none → s.wgOf s.cur = some w →
    let h : W64 := ((s.lrecOf w).map (·.handler)).getD 0
    let entered (c : BitVec 9) (tpc a info : W64) : State :=
      { s with cur := { s.cur with tcause := c, tpc, taddr := a, tinfo := info, wait := .none, rej := none, trapped := true } }
    let takes (i : Instr) (c : BitVec 9) (tpc a info : W64) : Prop :=
      exec i s =
        if s.cur.tmode then .next (terminate (entered c tpc a info) w (Report.trap cDOUBLE tpc a (BitVec.ofNat 64 c.toNat) s.cur.tid))
        else if h = 0 then .next (terminate (entered c tpc a info) w (Report.trap c tpc a info s.cur.tid))
        else .next { s with cur := { (entered c tpc a info).cur with tmode := true, r := { s.cur.r with pc := h } } }
    takes (.trap g n) (BitVec.ofNat 9 (256 + n.toNat)) (s.cur.r.pc + 4) 0 (n.setWidth 64) ∧
    (s.cur.tmode = false → takes (.tret g) 1 s.cur.r.pc 0 8) ∧
    ((lmAddr s.cur m 4).toNat % 4 ≠ 0 →
      takes (.ldw g d m) 3 s.cur.r.pc (lmAddr s.cur m 4) 1 ∧ takes (.stw g b m) 3 s.cur.r.pc (lmAddr s.cur m 4) 2 ∧
      takes (.atomAdd g (.n32 d) m oa) 3 s.cur.r.pc (lmAddr s.cur m 4) 3) ∧
    ((s.cur.r.getX y + imm.signExtend 64 * 8).toNat % 8 ≠ 0 →
      takes (.wld g x y imm) 3 s.cur.r.pc (s.cur.r.getX y + imm.signExtend 64 * 8) 1) ∧
    ((s.cur.r.getX x).toNat % 4 ≠ 0 → takes (.jmp g x) 3 s.cur.r.pc (s.cur.r.getX x) 4)

/-- TRET leaves trap mode, goes to TPC and clears the trap registers (R120, R307). -/
def Obligations.TrapReturn : Prop :=
  ∀ (g : Guard) (s : State), s.cur.r.holds g = true → s.cur.fence = none → s.cur.tmode = true →
    exec (.tret g) s = .next { s with cur := { s.cur with
      r := { s.cur.r with pc := s.cur.tpc }, tmode := false, tcause := 0, tpc := 0, taddr := 0, tinfo := 0 } }

/-- EXIT ends the thread for good (R117, R165). -/
def Obligations.ExitCompletes : Prop :=
  ∀ (g : Guard) (w i : Nat) (s : State), s.cur.r.holds g = true → s.cur.ref = .thr w i → s.cur.rest = none → s.cur.fence = none →
    ∃ t, exec (.exit g) s = .next t ∧ Keeps s t ∧ ∃ u, t.thread? s.cur.ref = some u ∧ u.exited = true

/-- What a launched thread may not do takes PRIV: curator functions, curator registers, read-only registers (R15, R16, R52, R121). -/
def Obligations.PrivilegedForms : Prop :=
  ∀ (g : Guard) (a : XReg) (idx : BitVec 15) (w i : Nat) (s : State), s.cur.r.holds g = true → s.cur.ref = .thr w i → s.cur.rest = none →
    s.cur.fence = none →
    let priv : Out := .next (takeTrap s s.cur.ref 2 s.cur.r.pc 0 0)
    exec (.qlaunch g a) s = priv ∧ exec (.qsignal g a) s = priv ∧ exec (.qwaitsig g a) s = priv ∧ exec (.qswitch g a) s = priv ∧
    exec (.qphase g a) s = priv ∧ exec (.qdone g) s = priv ∧ exec (.renable g a) s = priv ∧ exec (.wlcfg g a) s = priv ∧
    (256 ≤ idx.toNat → idx.toNat ≤ 511 → exec (.srd g a idx) s = priv) ∧
    (srListed idx.toNat = true → idx.toNat ≠ 33 → idx.toNat ≠ 34 → idx.toNat ≠ 49 → exec (.swr g a idx) s = priv)

/-- SRD gives the value of every special register; SWR writes SP, clears bits of FSR, and writes TPC (R15, R121). -/
def Obligations.SpecialRegisters : Prop :=
  ∀ (g : Guard) (d : XReg) (idx : BitVec 15) (s : State), s.cur.r.holds g = true →
    (srBad s idx.toNat = false → (256 ≤ idx.toNat → ∃ c, s.cur.ref = .cur c) → idx.toNat ≠ 32 →
      ∃ t, exec (.srd g d idx) s = .next t ∧ GroupDone s t d 1 (srValue s idx.toNat) 0) ∧
    (replaying s s.cur.cid = false → ∃ t, exec (.srd g d 32) s = .next t ∧
      GroupRegs s.cur.r t.cur.r d 1 (BitVec.ofNat 64 s.tick) 0 ∧
      t = { s with cur := { s.cur with r := t.cur.r }, ctxs := t.ctxs } ∧ ∀ a, memGet t.mem a = memGet s.mem a) ∧
    (s.cur.rest = none → s.cur.fence = none →
      exec (.swr g d 33) s = .next { s with cur := { s.cur with r := { s.cur.r with sp := s.cur.r.getX d, pc := s.cur.r.pc + 4 } } } ∧
      exec (.swr g d 34) s = .next { s with cur := { s.cur with r := { s.cur.r with
        fsr := s.cur.r.fsr &&& ~~~((s.cur.r.getX d).setWidth 5), pc := s.cur.r.pc + 4 } } } ∧
      exec (.swr g d 49) s = .next { s with cur := { s.cur with tpc := s.cur.r.getX d, r := { s.cur.r with pc := s.cur.r.pc + 4 } } })

/-- TAGOF gives the tag that the live threads' contents define; FMTOF gives the spill format (R114, R166). -/
def Obligations.ShapeQueries : Prop :=
  ∀ (g : Guard) (d : XReg) (v : VReg) (x : XReg) (q : VXReg) (w i : Nat) (s : State), s.cur.r.holds g = true → s.cur.ref = .thr w i →
    let ls := liveOf s w
    let vv (a : Thread) : W32 := if a.ref = s.cur.ref then a.r.getV v else seenV a v
    let xx (a : Thread) : W64 := if a.ref = s.cur.ref then a.r.getX x else seenX a x
    (∃ t n, exec (.tagof g d (.v v)) s = .next t ∧ GroupDone s t d 1 n 0 ∧
      ((∀ a ∈ ls, ∀ b ∈ ls, vv a = vv b) → n = 0) ∧
      ((¬ ∀ a ∈ ls, ∀ b ∈ ls, vv a = vv b) →
        ((∃ b m : W32, ∀ a ∈ ls, vv a = b + m * BitVec.ofNat 32 a.tid) → n = 1) ∧
        ((¬ ∃ b m : W32, ∀ a ∈ ls, vv a = b + m * BitVec.ofNat 32 a.tid) → n = 2))) ∧
    (∃ t n, exec (.tagof g d (.x x)) s = .next t ∧ GroupDone s t d 1 n 0 ∧
      ((∀ a ∈ ls, ∀ b ∈ ls, xx a = xx b) → n = 0) ∧
      ((¬ ∀ a ∈ ls, ∀ b ∈ ls, xx a = xx b) →
        ((∃ b m : W64, ∀ a ∈ ls, xx a = b + m * BitVec.ofNat 64 a.tid) → n = 1) ∧
        ((¬ ∃ b m : W64, ∀ a ∈ ls, xx a = b + m * BitVec.ofNat 64 a.tid) → n = 2))) ∧
    (∃ t, exec (.fmtof g d q) s = .next t ∧ GroupDone s t d 1 (BitVec.ofNat 64 (fmtOf s s.cur q)) 0)

/-- WAITC, YIELD, FENCE, FTOK and FWAIT complete when what they wait for is done (R118, R122, R208, R209, R211, R212, R368). -/
def Obligations.OrderingCompletes : Prop :=
  ∀ (g : Guard) (lo : BitVec 6) (st co ti : BitVec 5) (sc : Scope) (k4 : BitVec 4) (k6 : BitVec 6) (d a : XReg) (s : State),
    s.cur.r.holds g = true →
    let w := s.wgOf s.cur
    let met (n field ones : Nat) : Prop := field = ones ∨ n ≤ field
    (met (loadsOut s.cur) lo.toNat 63 → met (storesOut s.cur) st.toNat 31 → met ((w.map (copiesOut s)).getD 0) co.toNat 31 →
      met ((w.map tilesOut).getD 0) ti.toNat 31 → exec (.waitc g lo st co ti) s = .next { s with cur := { s.cur with r := { s.cur.r with pc := s.cur.r.pc + 4 } } }) ∧
    (s.cur.fence = none →
      exec (.yield g) s = .next { s with cur := { s.cur with age := 0, r := { s.cur.r with pc := s.cur.r.pc + 4 } } } ∧
      (sc.code ≤ 4 → ∃ ms f, exec (.fence g sc k4) s =
          .next { s with cur := { s.cur with mops := ms, fence := some f, r := { s.cur.r with pc := s.cur.r.pc + 4 } } } ∧
        ms.map (fun (m : Mop) => { m with lrs := m.lrw }) = s.cur.mops.map (fun (m : Mop) => { m with lrs := m.lrw }) ∧
        f.scope = sc.code ∧ f.kinds = k4 ∧ f.upto = s.cur.nmop ∧ f.snap = { s.cur.r with pc := s.cur.r.pc + 4 } ∧
        f.count = 0 ∧ f.watch = [] ∧ f.hit = false ∧ f.rolled = false) ∧
      (5 ≤ sc.code → s.cur.toks.length < 8 → (∀ m ∈ s.cur.mops, m.id < s.cur.nmop → covers (k4.setWidth 6) m = false) →
        ∃ t, exec (.fence g sc k4) s = .next t ∧ Keeps s t ∧ t.cur = { s.cur with r := { s.cur.r with pc := s.cur.r.pc + 4 } } ∧
          (s.cur.core < 384 → ∀ x ∈ (t.core s.cur.core).l1, x.cid = s.cur.cid → x.dirty ≠ 0)) ∧
      (s.cur.toks.length < 8 → (sc.code = 2 → replaying s s.cur.cid = false) →
        ∃ t, exec (.ftok g d sc k6) s = .next t ∧ t = { s with cur := t.cur, ctxs := t.ctxs } ∧ t.cur = { s.cur with
          seq := s.cur.seq + 1
          toks := s.cur.toks ++ [{ seq := s.cur.seq + 1, scope := sc.code, kinds := k6, upto := s.cur.nmop, ring := publishedRing s s.cur, mx := s.cur.lastMx }]
          r := (s.cur.r.setX d (BitVec.ofNat 64 (2 ^ 56 + s.cur.tid * 2 ^ 44 + sc.code * 2 ^ 41 + k6.toNat * 2 ^ 35 + (s.cur.seq + 1) % 2 ^ 35))).adv 1 }) ∧
      (let tok := (s.cur.r.getX a).toNat
       let done (n : Nat) : Prop := ∃ t, exec (.fwait g a) s = .next t ∧ Keeps s t ∧
         t.cur = { s.cur with r := { s.cur.r with pc := s.cur.r.pc + 4 } } ∧ (3 ≤ n → s.cur.core < 384 → ∀ x ∈ (t.core s.cur.core).l1, x.cid = s.cur.cid → x.dirty ≠ 0)
       (bits tok 56 8 = 1 → bits tok 44 12 = s.cur.tid → bits tok 0 35 ≠ 0 → bits tok 0 35 ≤ s.cur.seq →
          (∀ k ∈ s.cur.toks, k.seq ≠ bits tok 0 35) → done (bits tok 41 3)) ∧
       (bits tok 56 8 = 2 → ∀ c, s.ctx? s.cur.cid = some c → bits tok 0 40 ≤ lastColl c (bits tok 46 10) →
          (∀ x ∈ c.colls, x.g = bits tok 46 10 → x.k ≠ bits tok 0 40) → done 6)))

/-- The arrival that a BAR's phase still needs completes it (R181). -/
def Obligations.BarrierCompletes : Prop :=
  ∀ (g : Guard) (cl : Bool) (id : Fin 16) (cnt : Option (Fin 63)) (w : Wg) (s : State), s.cur.r.holds g = true →
    s.cur.rest = none → s.cur.ref ≠ .none → s.cur.fence = none → s.cur.mops = [] → replaying s s.cur.cid = false →
    s.wgOf s.cur = some w → (cl = true → ∃ x, s.gang? w.gang = some x) →
    let c : Nat := match cnt with | some n => (s.cur.r.getX (Fin.castLE (by decide) n)).toNat | none => scopeCount s w cl
    let b := getBar s w cl id
    c ≠ 0 → (b.arr ≠ [] → c = b.c) → c - exitsOf s w cl ≤ b.arr.length + 1 → (∀ x ∈ b.arr, x.1 ≠ s.cur.ref) →
    ∃ t, exec (.bar g cl id cnt) s = .next t ∧ Keeps s t ∧
      t.cur = { s.cur with wait := .none, age := 0, r := { s.cur.r with pc := s.cur.r.pc + 4 } } ∧
      ∃ w', t.wg? w.id = some w' ∧ getBar t w' cl id = ⟨c, []⟩

/-- KSET declares a register that no round uses, and repeats a declaration without effect (R173, R174). -/
def Obligations.SetDeclarations : Prop :=
  ∀ (g : Guard) (k : Fin 8) (cl : Bool) (a : XReg) (w : Wg) (s : State), s.cur.r.holds g = true → s.cur.rest = none →
    s.cur.fence = none → s.wgOf s.cur = some w →
    let v := s.cur.r.getX a
    let kr := getK s w cl k
    let n := scopeCount s w cl
    let declares (i : Instr) (mask : Bool) : Prop :=
      (kr.st ≠ .gathering → exec i s = .next { setK s w cl k { KReg.init with st := .armed, maskMode := mask, val := v } with
        cur := { s.cur with r := { s.cur.r with pc := s.cur.r.pc + 4 } } }) ∧
      (kr.st = .gathering → kr.maskMode = mask → kr.val = v → exec i s = .next { s with cur := { s.cur with r := { s.cur.r with pc := s.cur.r.pc + 4 } } })
    (1 ≤ v.toNat → v.toNat ≤ n → declares (.ksetCount g k cl a) false) ∧ (v.toNat < n → declares (.ksetMask g k cl a) true)

/-- The last signer of a round completes it: KSIGN, KXCH and KRED go on with the result the rule gives (R175, R177, R178, R179). -/
def Obligations.SigningCompletes : Prop :=
  ∀ (g : Guard) (k : Fin 8) (cl : Bool) (d : Dst8) (a i : Src8) (x : XReg) (s : State) (w : Wg), s.cur.r.holds g = true →
    let ends (n : Instr) (sg : Signing) (f : Regs → Regs) : Prop :=
      LastSigner s w cl k sg → ∃ t, exec n s = .next t ∧ RoundDone s t w cl k f sg.len
    let mm := (getK s w cl k).maskMode
    let X := s.cur.r.getX x
    let A := s.cur.src8 a
    let I := s.cur.src8 i
    let xch (pos : Bool) (n : Instr) : Signing :=
      { Signing.plain (.kxch pos) (encode n) [] (2 + a.lits + i.lits) with a := A, i := I, dst := d }
    let reduces (op : Nat) (n n0 : Instr) : Prop :=
      let sg : Signing := { Signing.plain (.kred op) (encode n0) [] (2 + a.lits) with a := A, dst := d }
      LastSigner s w cl k sg → ∃ v, KredResult op ((signedRound s w cl k sg).signs.map (·.a)) v ∧
        ∃ t, exec n s = .next t ∧ RoundDone s t w cl k (fun r => r.put8 d v) sg.len
    ends (.ksign g k cl x) { Signing.plain .ksign (encode (.ksign none k cl x)) (if mm then [X] else []) 1 with mask := if mm then some X else none } id ∧
    (let sg := xch false (.kxchTid none k cl d a i)
     ends (.kxchTid g k cl d a i) sg
       (fun r => r.put8 d ((((signedRound s w cl k sg).signs.find? (fun y => y.idx == I.toNat)).map (·.a)).getD A))) ∧
    (let sg := xch true (.kxchPos none k cl d a i)
     let signs := (signedRound s w cl k sg).signs
     ends (.kxchPos g k cl d a i) sg
       (fun r => r.put8 d ((((if mm then sortBy (·.idx) signs else signs)[I.toNat]?).map (·.a)).getD A))) ∧
    reduces 0 (.kredAddN32 g k cl d a) (.kredAddN32 none k cl d a) ∧
    reduces 1 (.kredAddF32 g k cl d a) (.kredAddF32 none k cl d a) ∧
    reduces 2 (.kredMinS32 g k cl d a) (.kredMinS32 none k cl d a) ∧
    reduces 3 (.kredMaxS32 g k cl d a) (.kredMaxS32 none k cl d a) ∧
    reduces 4 (.kredMinF32 g k cl d a) (.kredMinF32 none k cl d a) ∧
    reduces 5 (.kredMaxF32 g k cl d a) (.kredMaxF32 none k cl d a) ∧
    reduces 6 (.kredAnd g k cl d a) (.kredAnd none k cl d a) ∧
    reduces 7 (.kredOr g k cl d a) (.kredOr none k cl d a) ∧
    reduces 8 (.kredXor g k cl d a) (.kredXor none k cl d a) ∧
    reduces 9 (.kredNz g k cl d a) (.kredNz none k cl d a)

/-- The last signer of an MMA or MDRAIN puts the operation into the matrix queue of every participant (R175, R250, R253, R257). -/
def Obligations.MatrixRoundsEnter : Prop :=
  ∀ (g : Guard) (xa xb xc : XReg) (c : MmaCtl) (e : DrainCtl) (v w : Wg) (s : State), s.cur.r.holds g = true → s.wgOf s.cur = some v →
    s.cur.rest = none → s.cur.fence = none → s.cur.mops = [] →
    let a := s.cur.r.getX xa
    let b := s.cur.r.getX xb
    let x := s.cur.r.getX xc
    let entered (s0 t : State) (cl : Bool) (k : Fin 8) (sg : Signing) (op : Wg → MOp) : Prop :=
      RoundDone s0 t w cl k id 2 ∧ ∀ p ∈ participants s0 w cl (signedRound s0 w cl k sg),
        ∃ q, t.wg? p.id = some q ∧ ∃ y ∈ q.mq, y.op = op p ∧ y.begun = false ∧ y.done = false
    (mmaCheck v a b x c = none →
      let sg := Signing.plain (.mma c) (encode (.mma none xa xb xc c)) [a, b, x] 2
      let ps := participants s w c.kcl (signedRound s w c.kcl c.k sg)
      let m0 := (ps.head?.map (·.member)).getD 0
      let n := Split.num c.split
      LastSigner s w c.kcl c.k sg → (n ≠ 1 → ps.length = n ∧ m0 % n = 0 ∧ ∀ p ∈ ps, p.member < m0 + n) →
      ∃ t, exec (.mma g xa xb xc c) s = .next t ∧
        entered s t c.kcl c.k sg (fun p => .mma a b x c (if n = 1 then 0 else p.member - m0))) ∧
    (mdrainCheck v a b e = none →
      let sg := Signing.plain (.mdrain e) (encode (.mdrain none xa xb xc e)) [a, b, x] 2
      let s0 := if inLocal a.toNat && inLocal (a + BitVec.ofNat 64 (64 * e.m.val + 63) * b).toNat then s else sideOn s
      LastSigner s0 w e.kcl e.k sg →
      ∃ t, exec (.mdrain g xa xb xc e) s = .next t ∧ entered s0 t e.kcl e.k sg (fun _ => .mdrain a b x e))

/-- TBINIT, TBARRIVE, TBEXPECT, TBTEST and TBWAIT act on the barrier as R240 and R241 say, and each update is tested (R238, R240, R241). -/
def Obligations.TransactionBarriers : Prop :=
  ∀ (g : Guard) (d a p : XReg) (c : TbCnt) (s : State) (key sc : Nat), s.cur.r.holds g = true → s.cur.rest = none →
    s.cur.fence = none → Memory.wf s.mem = true →
    let A := s.cur.r.getX a
    let n := (tbCount s.cur c).toNat
    let b := TBar.ofNat (s.get key 16)
    let tested (b : TBar) : TBar :=
      if b.poison = false ∧ b.pendarr = 0 ∧ b.pendsec = 0 then { b with phase := (b.phase + 1) % 16, pendarr := b.reload } else b
    let goes (i : Instr) (f : Regs → Regs) (P : State → Prop) : Prop :=
      ∃ t, exec i s = .next t ∧ Keeps s t ∧ t.cur = { s.cur with r := (f s.cur.r).adv 1 } ∧ P t
    let holds (b' : TBar) (t : State) : Prop := TBar.ofNat (t.get key 16) = b'
    let only (t : State) : Prop := ∀ x, x < key ∨ key + 16 ≤ x → memGet t.mem x = memGet s.mem x
    (barPlace s s.cur A 2 = .ok (key, sc) → blocked s.cur key 16 true = false → 1 ≤ n → n ≤ 65535 →
      goes (.tbinit g a c) id (fun t => holds { phase := 0, pendarr := n, reload := n, pendsec := 0, poison := false } t ∧ only t)) ∧
    (barPlace s s.cur A 3 = .ok (key, sc) → blocked s.cur key 16 true = false → b.poison = false →
      (n ≤ b.pendarr → s.cur.mops = [] → goes (.tbarrive g d a c) (fun r => r.setX d (BitVec.ofNat 64 b.phase))
        (fun t =>
          (let b' := TBar.ofNat ((release s s.cur.core s.cur.cid sc).get key 16)
           holds (tested { b' with pendarr := b'.pendarr - n }) t) ∧
          (sc = 1 → holds (tested { b with pendarr := b.pendarr - n }) t ∧ only t))) ∧
      (n < 2147483648 → b.pendsec + n < 2147483648 → goes (.tbexpect g a c) id
        (fun t => holds (tested { b with pendsec := b.pendsec + n }) t ∧ only t))) ∧
    (barPlace s s.cur A 1 = .ok (key, sc) → blocked s.cur key 16 true = false → b.poison = false →
      goes (.tbtest g d a c) (fun r => r.setX d (if b.phase = n % 16 then 0 else 1)) (fun t => ∀ x, memGet t.mem x = memGet s.mem x) ∧
      (b.phase ≠ (s.cur.r.getX p).toNat % 16 → goes (.tbwait g a p) id (fun t => ∀ x, memGet t.mem x = memGet s.mem x)))

/-- MZERO, MLDSC and MSTAT enter the matrix queue; the entry of an MSTAT then answers its thread (R247, R253, R258). -/
def Obligations.MatrixQueueEntries : Prop :=
  ∀ (g : Guard) (slot : Fin 8) (d a : XReg) (w : Wg) (s : State),
    (s.cur.r.holds g = true → s.cur.rest = none → s.cur.fence = none → s.wgOf s.cur = some w →
      let x := s.cur.r.getX d
      let src := s.cur.r.getX a
      let enters (i : Instr) (op : MOp) (cur : Thread) : Prop := ∃ t q, exec i s = .next t ∧
        t = { s with cur, wgs := t.wgs, uid := s.uid + 1 } ∧ t.wg? w.id = some q ∧
        q = { w with mq := w.mq ++ [{ uid := s.uid, op, begun := false, done := false, susp := none, row := 0 }] }
      (slot.val < w.slots.length →
        enters (.mzero g slot) (.mzero slot.val) { s.cur with r := { s.cur.r with pc := s.cur.r.pc + 4 } } ∧
        enters (.mstat g d slot) (.mstat slot.val s.cur.ref d) { s.cur with wait := .mstat s.uid }) ∧
      (mldscCheck w x src = none →
        blocked s.cur (scratchKey w.core (w.base + (src.toNat - localBase))) (bits x.toNat 0 17) true = false →
        enters (.mldsc g d a) (.mldsc src.toNat (bits x.toNat 0 17) (bits x.toNat 32 16)) { s.cur with r := { s.cur.r with pc := s.cur.r.pc + 4 } })) ∧
    (∀ e es m, s.wg? w.id = some w → w.mq = e :: es → e.begun = false → e.susp = none → s.gang? w.gang = some m → m.way ≠ .save →
      ∃ t q, exec (.mctlEntry w.id) s = .next t ∧ t.wg? w.id = some q ∧
        (∀ sl, e.op = .mzero sl → ∀ i v, w.slots[i]? = some v →
          q.slots[i]? = some (if i ∈ slotsOf ((slotAt w sl).kind == .f64) sl then Acc.init else v)) ∧
        (∀ y cnt didx, e.op = .mldsc y cnt didx → ∀ i,
          scaleByte q i = if didx ≤ i ∧ i < didx + cnt then memGet s.mem (scratchKey w.core (w.base + (y - localBase)) + (i - didx))
            else scaleByte w i) ∧
        (∀ sl ref d, e.op = .mstat sl ref d →
          (∀ i v, w.slots[i]? = some v → q.slots[i]? = some (if i = sl then { v with ovf := false } else v)) ∧
          ∀ th, s.thread? ref = some th → th.wait = .mstat e.uid → ref ≠ .none → ∃ th', t.thread? ref = some th' ∧
            th'.wait = .none ∧ th'.r = (th.r.setX d (BitVec.ofNat 64 (mrp w))).adv 1))

/-- FOPEN completes for its last signer: the handle of the new frame in d[D], one push deeper, one hold more (R182, R183, R184).
The pushes are tested in the state that the signing's release leaves: an SP in global memory is translated by the tables there. -/
def Obligations.SharedFrameOpens : Prop :=
  ∀ (g : Guard) (cl : Bool) (dep : Fin 8) (a : XReg) (k : Fin 8) (w : Wg) (s : State) (o : Nat), s.cur.r.holds g = true →
    let s0 := if cl then sideOn s else s
    let s1 := release s0 s.cur.core s.cur.cid (if cl then 3 else 1)
    let n := (s.cur.r.getX a).toNat
    let sg := Signing.plain (.fopen dep.val) (encode (.fopen none cl dep a k)) [s.cur.r.getX a] 1
    let hp := getHeap s0 w cl
    1 ≤ n → n ≤ 1024 → LastSigner s0 w cl k sg →
    (∀ x ∈ (signedRound s0 w cl k sg).signs, ∀ th, s1.thread? x.ref = some th →
      th.hold.length < 8 ∧ ∃ key, pushCheck s1 th (th.r.sp - 8).toNat (th.r.sp - 8).toNat = .ok key) →
    hp.off + hp.size ≤ 16777216 → heapAlloc hp (frameBytes n) = some o →
    ∃ t h w', exec (.fopen g cl dep a k) s = .next t ∧ Keeps s t ∧
      t.cur = { s.cur with wait := .none, age := 0, hold := s.cur.hold ++ [h]
                           r := ({ s.cur.r with sp := s.cur.r.sp - 8 }.setD dep h).adv 1 } ∧
      hScope h = (if cl then 3 else 1) ∧ hGen h = hp.hgc.toNat % 8192 ∧
      t.wg? w.id = some w' ∧ (getHeap t w' cl).runs = hp.runs ++ [(o, frameBytes n)] ∧ (getK t w' cl k).st = .armed

/-- FENTER makes a thread frame on the stack and FLEAVE takes it away (R12, R13, R140, R141, R144, R145). -/
def Obligations.PrivateFrames : Prop :=
  ∀ (g : Guard) (dep : Fin 8) (a : XReg) (s : State) (key : Nat), s.cur.r.holds g = true → s.cur.rest = none →
    let n := (s.cur.r.getX a).toNat
    let fb := 16 * ((16 + 4 * n + 15) / 16)
    let top := s.cur.r.sp - 8
    let base := (top - BitVec.ofNat 64 fb) &&& ~~~15
    let gen := s.cur.r.fgc.toNat
    (1 ≤ n → n ≤ 1024 → pushCheck s s.cur top.toNat base.toNat = .ok key →
      let pad := (top.toNat - fb - base.toNat) / 8
      let hd : Nat := Hdr.toNat { refc := 1, size := n, depth := dep.val, scope := 0, live := true, pad, gen, retain := 0 }
      exec (.fenter g dep a) s = .next { s with cur := { s.cur with
        mops := (s.cur.mops ++ [{ plainMop s .store (top) (key) 8 (covBit top 1) with id := s.cur.nmop, data := (s.cur.r.getD dep).setWidth 128, push := true }])
          ++ [{ plainMop s .store (base) (key - (top.toNat - base.toNat)) 16 (covBit base 1) with id := s.cur.nmop + 1, data := BitVec.ofNat 128 hd, push := true }]
        nmop := s.cur.nmop + 1 + 1
        r := ({ s.cur.r with sp := base, fgc := BitVec.ofNat 13 (if 8191 ≤ gen then 1 else gen + 1) }.setD dep
          (handle 0 gen (base.toNat - localBase))).adv 1 } }) ∧
    (∀ (h : Hdr) (pk : Nat), s.cur.fence = none →
      let f := s.cur.r.getD dep
      let at' := hAddr f
      let up : W64 := BitVec.ofNat 64 (at' + frameBytes h.size + 8 * h.pad)
      headerBusy s f 3 = false → frameCheck s s.cur f 3 = .ok (key, h) → hScope f = 0 → at' = s.cur.r.sp.toNat → h.retain = 0 → 2 ^ 56 ≤ up.toNat → popCheck s s.cur up.toNat = .ok pk →
      blocked s.cur pk 8 false = false →
      exec (.fleave g dep) s = .next { s with cur := { s.cur with
        mops := s.cur.mops ++ [{ plainMop s .store (BitVec.ofNat 64 at') (key) 16 (covBit (BitVec.ofNat 64 at') 1) with id := s.cur.nmop, data := BitVec.ofNat 128 (Hdr.toNat { h with live := false, gen := nextGen h.gen }), push := true }]
        nmop := s.cur.nmop + 1
        r := ({ s.cur.r with sp := BitVec.ofNat 64 (at' + frameBytes h.size + 8 * h.pad + 8) }.setD dep (BitVec.ofNat 64 (viewN s s.cur pk 8))).adv 1 } })

/-- FLINK, FUNLINK, FHND, FDROP, FSYNC and FLEAVE of a shared frame act on the handle they name (R142, R145, R146, R147, R185, R186). -/
def Obligations.FrameHandles : Prop :=
  ∀ (g : Guard) (dep : Fin 8) (d a : XReg) (s : State) (key kp : Nat) (hd : Hdr), s.cur.r.holds g = true → s.cur.rest = none →
    let h := s.cur.r.getD dep
    let x := s.cur.r.getX a
    let sp := s.cur.r.sp - 8
    let retains (i : Instr) (h : W64) (n : Nat) (f : Regs → Regs) : Prop :=
      let hd' : Nat := Hdr.toNat { hd with retain := n }
      ∃ t, exec i s = .next t ∧ Keeps s t ∧ t.cur.r = (f s.cur.r).adv 1 ∧
        (hScope h = 0 → t.mem = s.mem ∧ t.cur.mops = s.cur.mops ++
          [{ plainMop s .store (BitVec.ofNat 64 (hAddr h)) key 16 (covBit (BitVec.ofNat 64 (hAddr h)) 1) with data := BitVec.ofNat 128 hd', push := true }]) ∧
        (hScope h ≠ 0 → Memory.wf s.mem = true → isSys key = false → readLE t.mem key 16 = hd' % 2 ^ 128 ∧ t.cur.mops = s.cur.mops ∧
          ∀ b, b < key ∨ key + 16 ≤ b → memGet t.mem b = memGet s.mem b)
    (headerBusy s x 1 = false → frameCheck s s.cur x 1 = .ok (key, hd) → pushCheck s s.cur sp.toNat sp.toNat = .ok kp →
      exec (.flink g dep a) s = .next { s with cur := { s.cur with
        mops := s.cur.mops ++ [{ plainMop s .store sp kp 8 (covBit sp 1) with data := h.setWidth 128, push := true }], nmop := s.cur.nmop + 1
        r := ({ s.cur.r with sp }.setD dep x).adv 1 } }) ∧
    (2 ^ 56 ≤ s.cur.r.sp.toNat → popCheck s s.cur s.cur.r.sp.toNat = .ok kp → blocked s.cur kp 8 false = false →
      exec (.funlink g dep) s = .next { s with cur := { addWatch s.cur ((MReq.plain .load s.cur.r.sp 8 none).mop s.cur kp) with
        r := ({ s.cur.r with sp := s.cur.r.sp + 8 }.setD dep (BitVec.ofNat 64 (viewN s s.cur kp 8))).adv 1 } }) ∧
    (headerBusy s h 1 = false → frameCheck s s.cur h 1 = .ok (key, hd) → slotsDone s.cur key hd.size = true → exec (.fsync g dep) s = .next { s with cur := { s.cur with r := { s.cur.r with pc := s.cur.r.pc + 4 } } }) ∧
    (s.cur.fence = none →
      (headerBusy s h 3 = false → frameCheck s s.cur h 3 = .ok (key, hd) → retains (.fhnd g d dep) h ((hd.retain + 1) % 2 ^ 32) (fun r => r.setX d h)) ∧
      (headerBusy s x 3 = false → frameCheck s s.cur x 3 = .ok (key, hd) → hd.retain ≠ 0 →
        (∃ t, exec (.fdrop g a) s = .next t ∧ Keeps s t ∧ t.cur.r = s.cur.r.adv 1) ∧
        (hd.retain ≠ 1 → retains (.fdrop g a) x (hd.retain - 1) id)) ∧
      (headerBusy s h 3 = false → frameCheck s s.cur h 3 = .ok (key, hd) → hScope h ≠ 0 → h ∈ s.cur.hold → 2 ^ 56 ≤ s.cur.r.sp.toNat → popCheck s s.cur s.cur.r.sp.toNat = .ok kp →
        s.cur.mops = [] →
        ∃ t, exec (.fleave g dep) s = .next t ∧ Keeps s t ∧ t.cur = { s.cur with
          hold := (s.cur.hold.reverse.erase h).reverse
          r := ({ s.cur.r with sp := s.cur.r.sp + 8 }.setD dep
            (BitVec.ofNat 64 (viewN s s.cur kp 8))).adv 1 }))

/-- WLPUSH, WLPOP, WLTRY, WLDONE, WLFLOOR and WLSTAT complete on a worklist in the states that let them (R287, R288, R289, R290, R291). -/
def Obligations.WorklistCalls : Prop :=
  ∀ (g : Guard) (wl : Fin 4) (v : VReg) (dep : Fin 8) (xa : XReg) (ps : PReg) (w : Worklist) (s : State), s.cur.r.holds g = true →
    s.cur.ref ≠ .none → s.cur.rest = none → s.cur.fence = none → replaying s s.cur.cid = false → s.wl? s.cur.cid wl = some w →
    let core := s.cur.core
    let c := s.core core
    let u := w.units[dieOf core]
    let held := (wlHeld w s.cur.ref).isSome
    let left := w.tasks.filter (fun x => x.1 != s.cur.ref)
    (w.delta < 64 → ∃ x : W64, exec (.wlstat g xa wl) s = .next (s.onRegs (fun r => (r.setX xa (x)).adv 2)) ∧ (w.st = .unconfigured → x = 0) ∧
      (w.st ≠ .unconfigured →
        bits x.toNat 62 2 = (match w.st with | .unconfigured => 0 | .active => 1 | .terminated => 2 | .faulted => 3) ∧
        bits x.toNat 56 6 = w.delta ∧ bits x.toNat 55 1 = (if held then 1 else 0) ∧
        bits x.toNat 54 1 = (if w.parts.contains s.cur.ref then 1 else 0))) ∧
    (w.st = .active ∨ w.st = .terminated →
      exec (.wlfloor g xa wl) s = .next (s.onRegs (fun r => (r.setX xa ((u.fseen.map (BitVec.ofNat 64)).getD (BitVec.allOnes 64))).adv 2)) ∧
      (held = false ∨ s.cur.mops = [] →
        ∃ t w', exec (.wldone g wl) s = .next t ∧ Keeps s t ∧ t.cur.r = (s.cur.r).adv 2 ∧ t.wl? s.cur.cid wl = some w' ∧
        w'.tasks = left ∧
        w'.counts = (w.counts.1, w.counts.2.1, w.counts.2.2.1 + (if held then 1 else 0), w.counts.2.2.2))) ∧
    (s.cur.mops = [] → w.st = .terminated → ∀ i ∈ [Instr.wlpop g xa ps wl v, Instr.wltry g xa ps wl v],
        ∃ t w', exec (i) s = .next t ∧ Keeps s t ∧ t.cur.r = ((s.cur.r.setX xa 2).setP ps false).adv 2 ∧ t.wl? s.cur.cid wl = some w' ∧
        w'.tasks = left) ∧
    (s.cur.mops = [] → w.st = .active → u.chunks.flatMap (·.2) = [] →
      let may (r : WRec) : Prop := r ∈ frontOf s core s.cur.cid wl ++ u.recs ∧ eligible w u.fseen (bucket w r.key) = true
      ((∃ r, may r) → ∀ i ∈ [Instr.wlpop g xa ps wl v, Instr.wltry g xa ps wl v],
        ∃ r, may r ∧ (∀ q, may q → bucket w r.key ≤ bucket w q.key) ∧
        ∃ t w', exec (i) s = .next t ∧ Keeps s t ∧ t.cur.r = (((s.cur.r.setRange v.val r.words).setX xa 0).setP ps true).adv 2 ∧ t.wl? s.cur.cid wl = some w' ∧
        w'.tasks = left ++ [(s.cur.ref, r.key)]) ∧
      ((¬∃ r, may r) →
        ∃ t w', exec (.wltry g xa ps wl v) s = .next t ∧ Keeps s t ∧ t.cur.r = ((s.cur.r.setX xa 1).setP ps false).adv 2 ∧ t.wl? s.cur.cid wl = some w' ∧
        w'.tasks = left ∧
        ∃ t w', exec (.wlpop g xa ps wl v) s = .next t ∧ Keeps s t ∧ t.cur.r = s.cur.r ∧ t.cur.wait = .wlpop wl xa ps v ∧ t.wl? s.cur.cid wl = some w' ∧
        w'.tasks = left)) ∧
    (s.cur.mops = [] → w.st = .active →
      let rec4 := s.cur.r.range v.val 4
      let room := dieHeld s (dieOf core) < unitRoom
      belowSeen w (bucket w (rec4.headD 0)) = false → ∀ (e : Option Nat) (old : List WRec),
      (generalUsed c < 256 ∧ e = none ∧ old = c.front) ∨
      (256 ≤ generalUsed c ∧ ¬room ∧ c.front.any (fun r => r.resv == some dep.val) = false ∧ e = some dep.val ∧ old = c.front) ∨
      (generalUsed c = 256 ∧ room ∧ e = none ∧ ∃ r, c.front.find? (fun r => r.resv.isNone) = some r ∧ old = c.front.erase r) →
        ∃ t w', exec (.wlpush g wl v dep) s = .next t ∧ Keeps s t ∧ t.cur.r = (s.cur.r).adv 2 ∧ t.wl? s.cur.cid wl = some w' ∧
        s.cur.ref ∈ w'.parts ∧ w'.counts.1 = w.counts.1 + 1 ∧ (t.core core).front = old ++
          [{ cid := s.cur.cid, wl := wl.val, words := rec4, core, slot := s.cur.slot, num := s.cur.pushes, resv := e }])

/-- RCALL, RCALL.exact and RCALL.sonly issue their call, and RRET hands its results to the caller and ends its thread (R266, R267, R269). -/
def Obligations.RegionCalls : Prop :=
  ∀ (g : Guard) (region : Fin 1024) (argv resv : VReg) (argc resc : Fin 8) (w : Wg) (res : Resident) (s : State),
    s.cur.r.holds g = true → s.cur.fence = none →
    (s.cur.rest = none → replaying s s.cur.cid = false → s.wgOf s.cur = some w → (s.ctx? s.cur.cid).isSome = true →
      residentOf s s.cur.core s.cur.cid region.val = some res → sheafGoes s g (restUse (s.core s.cur.core)) = true →
      let core := s.cur.core
      let d := RDesc.ofBytes res.desc
      let args := s.cur.r.range argv.val (argc.val + 1)
      let rs := ((s.lrecOf w).map (·.rslots)).getD 0
      let issued (t : State) : Prop := t.uid = s.uid + 1 ∧ t.cur = { s.cur with
          rpend := s.cur.rpend ++ [{ call := s.uid, resv := resv.val, resc := resc.val + 1, failed := none }], r := s.cur.r.adv 2 }
      let exact (t : State) : Prop := (t.core core).evals = (s.core core).evals ∧
        ∃ e, (t.core core).restq = (s.core core).restq ++ [e] ∧ e.kind = .exact ∧ e.caller = s.cur.ref ∧ e.region = region.val ∧
          e.args = args ∧ e.exactpc = BitVec.ofNat 64 d.exactpc ∧ e.resv = resv.val ∧ e.resc = resc.val + 1 ∧ e.call = s.uid
      let guessed (sonly : Bool) (t : State) : Prop := (t.core core).restq = (s.core core).restq ∧
        ∃ e, (t.core core).evals = (s.core core).evals ++ [e] ∧ e.sonly = sonly ∧ e.caller = s.cur.ref ∧ e.region = region.val ∧
          e.args = args ∧ e.c = (countOf s core s.cur.cid region.val).toNat ∧ e.resv = resv.val ∧ e.resc = resc.val + 1 ∧ e.call = s.uid
      let applied := appliedState s core s.cur.cid region.val
      let n (t : State) := countOf t core s.cur.cid region.val
      d.argc = argc.val + 1 → d.resc = resc.val + 1 →
      (rs ≠ 0 → ∃ t, exec (.rcallExact g region argv resv argc resc) s = .next t ∧ Keeps s t ∧ issued t ∧ exact t ∧ n t = n s) ∧
      (rs ≠ 0 → d.kind = 0 ∨ applied = 2 → ∃ t, exec (.rcall g region argv resv argc resc) s = .next t ∧ Keeps s t ∧ issued t ∧ exact t ∧ n t = n s) ∧
      (rs ≠ 0 → d.kind ≠ 0 → applied ≠ 2 → ∃ t, exec (.rcall g region argv resv argc resc) s = .next t ∧ Keeps s t ∧ issued t ∧ guessed false t ∧ n t = n s + 1) ∧
      (d.kind ≠ 0 → ∃ t, exec (.rcallSonly g region argv resv argc resc) s = .next t ∧ Keeps s t ∧ issued t ∧ guessed true t ∧ n t = n s)) ∧
    (∀ e, s.cur.mops = [] → s.cur.rest = some e → e.caller ≠ .none → e.caller ≠ s.cur.ref →
      ∃ t, exec (.rret g) s = .next t ∧ Keeps s t ∧ t.cur = Thread.idle ∧
      ∀ c, s.thread? e.caller = some c → c.exited = false → c.rpend.any (fun p => p.call == e.call) = true →
        ∃ c', t.thread? e.caller = some c' ∧ c'.r = c.r.setRange e.resv (s.cur.r.range 0 e.resc) ∧
          c'.rpend = c.rpend.filter (fun p => p.call != e.call))

/-- RLOAD, RCTL EVICT, PIN, UNPIN and FLUSH, RCTR and RINFO complete on a region below 1,024 (R262, R263, R271). -/
def Obligations.RegionControl : Prop :=
  ∀ (g : Guard) (xa xb : XReg) (n : Nat) (s : State), s.cur.r.holds g = true → s.cur.rest = none → s.cur.rej = none →
    s.cur.mops.any (fun m => m.acq || m.isAtom) = false → n < 1024 →
    let core := s.cur.core
    let cid := s.cur.cid
    let mine (t : State) := residentOf t core cid n
    ((s.cur.r.getX xb).toNat = n →
      (∀ r, mine s = some r → ∃ t, exec (.rload g xb) s = .next t ∧ Keeps s t ∧ t.cur.r = s.cur.r.adv 1 ∧ t.cores = s.cores) ∧
      (∀ d desc im s', mine s = none → fetchRegion s s.cur n (fun _ => false) = (.ok d desc im, s') →
        storeRoom (s'.core core) cid n im.length = true →
        ∃ t, exec (.rload g xb) s = .next t ∧ Keeps s t ∧ t.cur.r = s.cur.r.adv 1 ∧ mine t = some { cid, region := n, pin := false, desc, image := im }) ∧
      ∃ x : W64, exec (.rinfo g xa xb) s = .next (s.onRegs (fun r => (r.setX xa (x)).adv 1)) ∧ bits x.toNat 0 2 = appliedState s core cid n % 4 ∧
        bits x.toNat 2 1 = (if (mine s).isSome then 1 else 0) ∧ bits x.toNat 3 1 = (if ((mine s).map (·.pin)).getD false then 1 else 0) ∧
        bits x.toNat 32 32 = (countOf s core cid n).toNat) ∧
    ((s.cur.r.getX xa).toNat = n →
      ∀ i ∈ [Instr.rctlEvict g xa xb, Instr.rctlPin g xa xb, Instr.rctlUnpin g xa xb, Instr.rctlFlush g xa xb],
        (s.cur.r.getX xb = 0 → (s.core core).evals.any (fun e => e.cid == cid && e.region == n) = false →
          ∃ t, exec (i) s = .next t ∧ Keeps s t ∧ t.cur.r = s.cur.r.adv 1 ∧ mine t = none) ∧
        (∀ r, s.cur.r.getX xb = 1 → mine s = some r → r.pin = true ∨ pinned (s.core core) + r.image.length ≤ Config.pinBytes →
          ∃ t, exec (i) s = .next t ∧ Keeps s t ∧ t.cur.r = s.cur.r.adv 1 ∧ mine t = some { r with pin := true }) ∧
        (∀ d desc im s', s.cur.r.getX xb = 1 → mine s = none → fetchRegion s s.cur n (fun _ => false) = (.ok d desc im, s') →
          pinned (s'.core core) + im.length ≤ Config.pinBytes → storeRoom (s'.core core) cid n im.length = true →
          ∃ t, exec (i) s = .next t ∧ Keeps s t ∧ t.cur.r = s.cur.r.adv 1 ∧ mine t = some { cid, region := n, pin := true, desc, image := im }) ∧
        (∀ r, s.cur.r.getX xb = 2 → mine s = some r → ∃ t, exec (i) s = .next t ∧ Keeps s t ∧ t.cur.r = s.cur.r.adv 1 ∧ mine t = some { r with pin := false }) ∧
        (s.cur.r.getX xb = 3 → s.viol.any (fun v => v.1 == core && v.2.1 == cid && v.2.2 == n) = false →
          exec i s = .next ((writeBlock (sideOn s) cid n).adv 1))) ∧
    (∀ (k : Fin 8) (va : Nat) (desc : List Byte) (s' : State) (a : Agg), (s.cur.r.getX xb).toNat = n + 65536 * k.val →
      let s1 := sendCounts s core cid n
      descVa s1 cid n = some va → engineRead s1 (s1.wgOf s.cur) core cid s.cur.mops va 64 6 = (.ok desc, s') →
      (RDesc.ofBytes desc).state = 1 ∨ (RDesc.ofBytes desc).state = 2 → aggOf s' cid n = some a →
      ∃ t, exec (.rctr g xa xb) s = .next t ∧ t = s'.onRegs (fun r => (r.setX xa a.c[k]).adv 1))

/-- The five COLL instructions number a collective, hand it over and answer its token (R365, R366, R368). -/
def Obligations.CollectivesIssue : Prop :=
  ∀ (g : Guard) (xa xb xc : XReg) (send recv : BitVec 8) (ty : DType) (op : ROp) (c : Ctx) (e : GroupEnt) (sb rb : Nat × Nat) (s : State),
    s.cur.r.holds g = true → s.cur.rest = none → s.cur.fence = none → s.cur.mops = [] → s.ctx? s.cur.cid = some c → c.colls.length < 64 →
    let grp := (s.cur.r.getX xa).toNat
    let b := (s.cur.r.getX xb).toNat
    let tab := s.cfg.coltab.toNat + 65536 * c.cid
    let there (a n : Nat) : Prop := keyOk a = true ∧ keyOk (a + n - 1) = true
    let r1 := s.take (tab + 4096 + 32 * grp) 32
    let r2 := r1.2.take (tab + 16 * send.toNat) 16
    let r3 := r2.2.take (tab + 16 * recv.toNat) 16
    grp < 1024 → b ≠ 0 → b % dtSize ty = 0 → there (tab + 4096 + 32 * grp) 32 → there (tab + 16 * send.toNat) 16 →
    there (tab + 16 * recv.toNat) 16 → GroupEnt.ofBytes r1.1 = some e → bufOf r2.1 = some sb → bufOf r3.1 = some rb →
    let k := lastColl c grp + 1
    let made (t : State) (c' : Ctx) (cop : Nat) (op : ROp) : Prop := Keeps s t ∧ t.ctx? s.cur.cid = some c' ∧
        t.cur.r = (s.cur.r.setX xc (BitVec.ofNat 64 (2 * 2 ^ 56 + grp * 2 ^ 46 + k % 2 ^ 40))).adv 2 ∧ lastColl c' grp = k ∧
        c'.colls = c.colls ++
          [{ g := grp, k, cop, ty, op, b, send := sb.1, sendLen := sb.2, recv := rb.1, recvLen := rb.2, next := 0 }]
    (b ≤ sb.2 → b ≤ rb.2 → ∃ t c', exec (.collAllreduce g xa xb xc send recv ty op) s = .next t ∧ made t c' 0 op) ∧
    (e.n * b ≤ sb.2 → b ≤ rb.2 → ∃ t c', exec (.collReducescatter g xa xb xc send recv ty op) s = .next t ∧ made t c' 1 op) ∧
    (b ≤ sb.2 → e.n * b ≤ rb.2 → ∃ t c', exec (.collAllgather g xa xb xc send recv ty) s = .next t ∧ made t c' 2 .sum) ∧
    (b ≤ sb.2 → b ≤ rb.2 → ∃ t c', exec (.collBroadcast g xa xb xc send recv ty) s = .next t ∧ made t c' 3 .sum) ∧
    (e.n * b ≤ sb.2 → e.n * b ≤ rb.2 → ∃ t c', exec (.collAlltoall g xa xb xc send recv ty) s = .next t ∧ made t c' 4 .sum)

/-- BKPT, TLBINV, L1CLEAN and ARCHIVE complete where their thread may run them (R124, R125, R126, R350). -/
def Obligations.SystemFunctions : Prop :=
  ∀ (g : Guard) (a : XReg) (s : State), s.cur.r.holds g = true → s.cur.rest = none → s.cur.fence = none →
    let x := (s.cur.r.getX a).toNat
    let core := s.cur.core
    let d := dieOf core
    let named (e : TlbEnt) : Bool := (bits x 63 1 == 1 || e.cid == bits x 56 6) && (bits x 62 1 == 1 || (e.va ≤ bits x 0 56 && bits x 0 56 < e.va + e.size))
    let scope (l : Sector) : Prop := bits x 6 1 = 1 ∨ l.cid = bits x 0 6
    let bken := ((s.ctx? s.cur.cid).map (·.dbg.bken)).getD false
    (privileged s = true →
      ∃ t, exec (.tlbinv g a) s = .next t ∧ t = { s with cur := { s.cur with r := s.cur.r.adv 1 }, wgs := t.wgs, cores := t.cores, l2 := t.l2 } ∧
        (t.core core).tlb = (s.core core).tlb.filter (fun e => !named e) ∧ t.l2[d] = (s.l2[d]).filter (fun e => !named e) ∧
        ∀ k, (k ≠ core → t.core k = s.core k) ∧ { t.core k with tlb := [] } = { s.core k with tlb := [] }) ∧
    (privileged s = true → x < 256 → ∃ t, exec (.l1clean g a) s = .next t ∧ Keeps s t ∧ t.cur.r = s.cur.r.adv 1 ∧
        (bits x 7 1 = 1 → ∀ l ∈ (t.core core).l1, ¬scope l)) ∧
    (bken = false → exec (.bkpt g) s = .next (s.adv 1)) ∧
    (bken = true → s.cur.ref ≠ .none → s.cur.exited = false → s.cur.halted = false →
      ∃ t u, exec (.bkpt g) s = .next t ∧ t.thread? s.cur.ref = some u ∧ u.halted = true ∧ u.bkpt = true ∧ u.r = s.cur.r) ∧
    (replaying s s.cur.cid = false → ∃ t, exec (.archive g a) s = .next t ∧ Keeps s t ∧ t.cur = { s.cur with r := s.cur.r.adv 1 })

/-- QLAUNCH, QSIGNAL, QWAITSIG, QSWITCH, QPHASE, QDONE, RENABLE and WLCFG complete on a curator (R273, R283, R333, R375). The pc's advance of QSWITCH is
said where no gang it pre-empts takes the way flush: a flush exits threads, and that may complete a round. -/
def Obligations.CuratorFunctions : Prop :=
  ∀ (g : Guard) (a : XReg) (c : Nat) (k : Curator) (q : Queue) (s : State), s.cur.r.holds g = true → s.cur.ref = .cur c →
    s.curator? c = some k → s.queue? k.q = some q → s.cur.fence = none → s.cur.rej = none →
    let x := s.cur.r.getX a
    let x2 := s.cur.r.getX (Fin.ofNat 64 (a.val + 1))
    let pair : Prop := a.val % 2 = 0 ∧ a.val ≤ 58
    let at' (n kind key : Nat) (s' : State) : Prop := resolve s (s.wgOf s.cur) s.cur.core s.cur.cid x.toNat n kind = (.ok key, s')
    let reads (s : State) (va : Nat) (n : Nat) (bs : List Byte) (s' : State) : Prop :=
      engineRead s none s.cur.core s.cur.cid s.cur.mops va n 1 = (.ok bs, s')
    let block (n : Nat) (bs : List Byte) (s' : State) : Prop := (∃ w ∈ k.wins, w.1 ≤ x.toNat ∧ x.toNat + n ≤ w.1 + w.2) ∧ reads s x.toNat n bs s'
    (x.toNat < 2 ^ 32 →
      ∃ t, exec (.qphase g a) s = .next t ∧ Keeps s t ∧ t.cur.r = (s.cur.r).adv 1 ∧ t.queue? k.q = some { q with phase := x.setWidth 32, fresh := q.fresh || q.phase != x.setWidth 32 }) ∧
    (s.cur.mops = [] →
      ∃ t, exec (.qdone g) s = .next t ∧ Keeps s t ∧ t.cur = Thread.idle ∧ t.curator? c = none ∧ t.queue? k.q = some { q with head := q.head + 1, st := (if q.quiesce then .disabled else q.st), quiesce := false }) ∧
    (pair → x.toNat % 8 = 0 → ∀ key s', at' 8 3 key s' → s.cur.mops = [] → s'.poisoned key 8 = false →
      ∃ t, exec (.qsignal g a) s = .next t ∧ Keeps s t ∧ t.cur.r = (s.cur.r).adv 1 ∧ (Memory.wf s.mem = true → isSys key = false → hasL1 s.cur.core = false →
        t.get key 8 = (s.get key 8 + x2.toNat) % 2 ^ 64)) ∧
    (pair → x.toNat % 8 = 0 → q.quiesce = false → ∀ key s', at' 8 1 key s' →
      ∃ t, exec (.qwaitsig g a) s = .next t ∧ Keeps s t ∧ t.cur = Thread.idle ∧ t.curator? c = none ∧ t.queue? k.q = some { q with st := .waiting, waddr := x, wthr := x2, paused := some { s.cur with wait := .qsig, r := s.cur.r.adv 1 } }) ∧
    (pair → x.toNat % 256 = 0 → ∀ raw s', reads s x.toNat 256 raw s' → ∃ t l, exec (.qlaunch g a) s = .next t ∧ Keeps s t ∧
      t.launches = s'.launches ++ [l] ∧ l.cid = q.cid ∧ l.raw = raw ∧ l.sig = x2 ∧ l.q = q.q ∧ l.accepted = false) ∧
    (q.sw = true → x.toNat % 8 = 0 → ∀ bs s', block 32 bs s' →
      let d := dword bs 8
      let inc : Option Nat := if bits d 63 1 = 1 then none else some (bits d 0 6)
      bits d 6 57 = 0 → dword bs 24 = 0 → (∀ i, inc = some i → (dword bs 0).testBit i = false) →
      ∃ t, exec (.qswitch g a) s = .next t ∧ Keeps s t ∧
        ((∀ g1 ∈ s'.gangs, (dword bs 0).testBit g1.cid = true → ∀ h l b, s'.gang? g1.id = some h → gangWay s' h l b ≠ .flush) →
          t.cur.r = (s.cur.r).adv 1) ∧
        ∃ w ∈ t.switches, w.inc = inc ∧ w.when = max (dword bs 16) (s'.tick + 16384) ∧
        w.out = (List.range 64).filter (fun i => (dword bs 0).testBit i)) ∧
    (∀ va desc s1 cb s2, x.toNat < 1024 → descVa s q.cid x.toNat = some va → va < 2 ^ 64 → reads s va 64 desc s1 →
      (RDesc.ofBytes desc).state = 1 ∨ (RDesc.ofBytes desc).state = 2 → reads s1 (RDesc.ofBytes desc).ctrs 64 cb s2 → (s.ctx? q.cid).isSome = true →
      ∃ t, exec (.renable g a) s = .next t ∧ Keeps s t ∧ t.cur.r = (s.cur.r).adv 1 ∧ ∃ z, aggOf t q.cid x.toNat = some z ∧ z.state = 1 ∧ z.c[3] = 0 ∧ z.c[7] = 0) ∧
    (∀ bs s' w, x.toNat % 64 = 0 → block 64 bs s' → s'.wl? q.cid (Fin.ofNat 4 (bits (dword bs 0) 0 2)) = some w →
      (w.st = .active → ∃ t, exec (.wlcfg g a) s = .next t ∧ Keeps s t ∧ t.cur.r = (s.cur.r.setX a 1).adv 1 ∧ t.cur = { s'.cur with r := t.cur.r }) ∧
      (w.st ≠ .active → wlBlockOk bs = true → bits (dword bs 0) 24 1 = 0 →
        ∃ t, exec (.wlcfg g a) s = .next t ∧ Keeps s t ∧ t.cur.r = (s.cur.r.setX a 0).adv 1 ∧ t.wl? q.cid (Fin.ofNat 4 (bits (dword bs 0) 0 2)) =
          some (wlConfigured bs (Vector.replicate 4 ⟨none, [], []⟩) none)))

/-- LAUNCH_DECISION, GANG_PLACEMENT, PHASE_CLEAN, WORKGROUP_END and GANG_RETIRE complete when they are due (R150, R153, R156, R157, R322, R356, R375, R377). -/
def Obligations.DispatcherEvents : Prop :=
  ∀ (s : State),
    (∀ l x th c, s.launch? l = some x → launchWaiter s l = some th → s.thread? th.ref = some th → th.ref ≠ .none → s.ctx? x.cid = some c →
      x.accepted = false →
      (∀ off, launchError s c.desc x.raw = some off → ∃ t u, exec (.launchDecision l) s = .next t ∧ t.launch? l = none ∧
        t.thread? th.ref = some u ∧ u.wait = .none ∧ u.r = (th.r.setX x.a (BitVec.ofNat 64 (2 ^ 63 + off))).adv 1) ∧
      (launchError s c.desc x.raw = none → ∃ t y u, exec (.launchDecision l) s = .next t ∧ t.launch? l = some y ∧ y.accepted = true ∧
        y.lrec = LRec.ofBytes x.raw ∧ y.total = gangCount y.lrec ∧ t.thread? th.ref = some u ∧
        if x.phase = true then u.wait = th.wait ∧ u.r = th.r.setX x.a 0 else u.wait = .none ∧ u.r = (th.r.setX x.a 0).adv 1)) ∧
    (∀ l gi die cluster first rows bases zap x c slot,
      let s0 := refreshDescs s
      let r := x.lrec
      let core := die * Config.coresPerDie + cluster * 8 + first
      let free : Bool := (rows.zip bases).zipIdx.all (fun y => memberFits s0 (core + y.2) r y.1.1 y.1.2)
      s0.launch? l = some x → s0.ctx? x.cid = some c → s0.gang? s0.uid = none → x.accepted = true → x.phase = false →
      gangNext s0 x gi = true → c.st = .running → die < 4 → cluster < 12 → clusterOk s0 c.desc.part die cluster = true → first + r.gang ≤ 8 →
      rows.length = r.gang → bases.length = r.gang → free = true → unitsAgree x.units (unitKeys r gi die cluster) = true →
      placedRight s0 x.cid { addr := x.addr, g := gi, core, rows } = true → mayPlace c = true → servedNow s0 c = true →
      findSlot c (slotBytes r) = some slot → 0 < (visit s0.turn c).deficit →
      ∃ t g, exec (.gangPlacement l gi die cluster first rows bases zap) s = .next t ∧ t.turn = x.cid ∧ g ∈ t.gangs ∧ g.id = s0.uid ∧
        g.cid = x.cid ∧ g.launch = l ∧ g.g = gi ∧ g.die = die ∧ g.cluster = cluster ∧ g.slot = slot ∧ g.members.length = r.gang ∧
        ∀ m ∈ g.members, ∃ w ∈ t.wgs, w.id = m ∧ w.gang = g.id ∧
          ∀ i < r.wgsize, ∃ th ∈ t.threads, th.ref = .thr m i ∧ th.cid = x.cid ∧ th.core = w.core ∧ th.r.pc = r.entry) ∧
    (∀ l x, s.launch? l = some x → x.accepted = true → x.phase = true → (∀ y ∈ s.launches, y.q = x.q → l ≤ y.id) →
      ∃ t, exec (.phaseClean l) s = .next t ∧ ∀ n, (∀ e ∈ (t.core n).l1, e.cid ≠ x.cid) ∧ (∀ e ∈ (t.core n).icache, e.cid ≠ x.cid) ∧
        (∀ e ∈ (t.core n).store, e.cid ≠ x.cid) ∧ ∀ e ∈ (t.core n).states, e.1 ≠ x.cid) ∧
    (∀ w x, s.wg? w = some x → x.ended = false → wgDone s x = true →
      ∃ t, exec (.workgroupEnd w) s = .next t ∧ t.wg? w = some { x with ended := true }) ∧
    (∀ i g k, s.gang? i = some g → g.endTick = some k → k < s.tick → ∃ t, exec (.gangRetire i) s = .next t ∧ t.gang? i = none)

/-- PICK, AGE_CAP, REGROUP_RELEASE, INSTRUCTION_FETCH and RESULT_WRITEBACK complete (R19, R158, R159, R161, R163). -/
def Obligations.PickerEvents : Prop :=
  ∀ (s : State),
    (∀ core,
      let s1 := if tickFull s core then tickUp s else s
      let rs := s1.threads.filter (fun t => t.core == core && !t.picked && ready s1 t)
      let can := rs.filter (fun t => (canIssue s1 core rs t).isSome)
      let urgent := (s1.core core).urgent
      ∃ t, exec (.pick core) s = .next t ∧ t.tick = s1.tick ∧ (can = [] → t.cur = s1.cur) ∧
        (can ≠ [] → ∃ x ∈ can, ∃ p f, canIssue s1 core rs x = some (p, f) ∧
          (∀ u, urgent = some u → (∃ y ∈ can, y.ref = u) → x.ref = u) ∧
          ((∀ u, urgent = some u → ∀ y ∈ can, y.ref ≠ u) → ∀ y ∈ can, y.age < x.age ∨ y.age = x.age ∧ x.slot ≤ y.slot) ∧
          (sheafOrder f.1 (x :: sheafWith rs x)).head?.map (·.ref) = some t.cur.ref ∧ t.cur.age = 0 ∧ t.cur.picked = true)) ∧
    (∀ r x, s.threads.find? (fun y => y.ref == r) = some x → Config.ageCap ≤ x.age → ready s x = true → (s.core x.core).urgent = none →
      ∃ t, exec (.ageCap r) s = .next t ∧ (t.core x.core).urgent = some r) ∧
    (∀ w target, heldAt s w target ≠ [] →
      (least ((heldAt s w target).map (·.2))).getD s.tick + (((s.wg? w).bind s.lrecOf).map (·.regroup)).getD 0 ≤ s.tick ∨ allGathered s w = true →
      ∃ t, exec (.regroupRelease w target) s = .next t ∧ ∀ h ∈ heldAt s w target, ∃ u, t.thread? h.1 = some u ∧ u.wait = .none) ∧
    (∀ r x words t, s.threads.find? (fun y => y.ref == r) = some x → x.exited = false → x.wait = .none → x.halted = false →
      fetchInstr (iDrop s x) x = (.ok words, t) → exec (.instructionFetch r) s = .next t ∧ t.threads = s.threads) ∧
    (∀ r x n, r ≠ .none → s.thread? r = some x → ∃ t u, exec (.resultWriteback r n) s = .next t ∧ t.thread? r = some u ∧ u.r = x.r ∧
      u.board = x.board.filter (fun b => b.reg != n))

/-- Accesses, evictions, fences, tokens, walks, page requests, the pager's answers and kills complete (R130, R131, R135, R191, R208, R209, R211, R309, R314, R320). -/
def Obligations.AccessEvents : Prop :=
  ∀ (s : State),
    (∀ r n x m, r ≠ .none → s.thread? r = some x → x.fence = none → x.mops.find? (fun m => m.id == n) = some m → mayPerform x.mops m = true →
      isScratch m.key = true → m.acq = false → m.rel = false → spilledDst s x m = false →
      (m.kind = .load → ∃ t u, exec (.loadReturn r n false) s = .next t ∧ t.mem = s.mem ∧ t.thread? r = some u ∧
        u.mops = x.mops.filter (fun m => m.id != n) ∧
        u.r = deliver x.r m.dst m.lrw m.size (ofBytes (overlay (before x.mops n) m.key (readBytes s.mem m.key m.size)))) ∧
      (m.kind = .store → Memory.wf s.mem = true → ∃ t u, exec (.storePerformed r n) s = .next t ∧ t.thread? r = some u ∧
        u.mops = x.mops.filter (fun m => m.id != n) ∧ u.r = x.r ∧
        ∀ a, memGet t.mem a = if m.key ≤ a ∧ a < m.key + m.size then BitVec.ofNat 8 (m.data.toNat / 256 ^ (a - m.key)) else memGet s.mem a)) ∧
    (∀ core cid line,
      let keep := (s.core core).l1.filter (fun e => e.hint == .keep)
      ((∃ e ∈ keep, e.line = (cid, line)) → ∃ e ∈ keep, e.line ≠ (cid, line)) →
      ∃ t, exec (.l1Eviction core cid line) s = .next t ∧ ∀ e ∈ (t.core core).l1, e.line ≠ (cid, line)) ∧
    (∀ r x f, r ≠ .none → s.thread? r = some x → x.fence = some f →
      (fenceReady x f = true → f.scope ≠ 2 ∨ replaying s x.cid = false → ∃ t u, exec (.fenceComplete r) s = .next t ∧ t.thread? r = some u ∧
        u.fence = none ∧ u.r = x.r ∧ u.mops = x.mops.map (fun m => { m with held := false })) ∧
      (f.hit = true → f.rolled = false → ∃ t u, exec (.fenceRollback r) s = .next t ∧ t.thread? r = some u ∧ u.r = f.snap ∧ u.wait = .fence ∧
        t.mem = s.mem)) ∧
    (∀ r x n k, r ≠ .none → s.thread? r = some x → x.toks.find? (fun k => k.seq == n) = some k → tokenMet s x k = true →
      ∃ t u, exec (.tokenComplete r n) s = .next t ∧ t.thread? r = some u ∧ u.toks = x.toks.filter (fun k => k.seq != n) ∧ u.r = x.r) ∧
    (∀ core cid va ent level, hasL1 core = true → va < 2 ^ 56 → tlbFind (s.core core).tlb cid va = none → walk s cid va = .leaf ent level →
      ∃ t, exec (.pageWalk core cid va) s = .next t ∧ OnlyTlbs s t ∧ (tlbFind (t.core core).tlb cid va).isSome = true) ∧
    (∀ rid c r, reqOf s rid = some (c, r) → s.ctx? c.cid = some c → r.posted = false →
      (devNum s c.cid c.desc.pager 4 + 4294967296 - devNum s c.cid (c.desc.pager + 4) 4) % 4294967296 < 62 →
      ∃ t d, exec (.pageRequest rid) s = .next t ∧ t.ctx? c.cid = some d ∧ d.preqs = updFirst (fun x => x.rid == rid) (fun x => { x with posted := true }) c.preqs) ∧
    (∀ cid c r, s.ctx? cid = some c →
      let ring := c.desc.pager + 0x800
      let head := devNum s cid (ring + 4) 4
      let w := devNum s cid (ring + 0x40 + 16 * (head % 124)) 8
      let s1 := devPut s cid (ring + 4) (bytesLE 4 (head + 1))
      devNum s cid ring 4 ≠ head → c.preqs.find? (fun r => r.posted && r.rid % 2 ^ 32 == bits w 0 32) = some r → bits w 32 1 = 1 →
      walk s1 cid r.va ≠ .absent →
      ∃ t d, exec (.pagerResponse cid) s = .next t ∧ t.ctx? cid = some d ∧ d.preqs = c.preqs.filter (fun x => x.rid != r.rid)) ∧
    (∀ cid, (∀ n x, s.wg? n = some x → x.cid = cid → x.term = false → x.ended = false → (∀ c, s.ctx? cid = some c → c.saved = []) →
        exec (.kill cid (some n)) s = .next (terminate s x killReport)) ∧
      (∀ n c v, s.ctx? cid = some c → c.saved.find? (fun v => v.wgs.any (fun x => x.id == n)) = some v →
        exec (.kill cid (some n)) s = .next (killSaved s cid v)) ∧
      exec (.kill cid none) s = .next (killCtx s cid))

/-- COPY_TAKE_ENTRY, COPY, GATHER, FILL, CONVERT and CONVERTOUT complete (R231, R233, R235, R236, R237). -/
def Obligations.CopyEvents : Prop :=
  ∀ (s : State),
    (∀ w x l, s.wg? w = some x → s.lrecOf x = some l →
      let ring := scratchKey x.core (x.base + l.ringOff)
      let tail := if x.woken then s.get ring 4 else x.tail
      let n := (tail + 4294967296 - x.head % 4294967296) % 4294967296
      let s1 := s.onWg w (fun y => { y with tail, woken := false })
      let raw := readBytes s.mem (ring + 64 + 32 * (x.head % 4294967296 % l.ringEnt)) 32
      let ch := (Cmd.ofBytes raw).ch
      ∀ s2, l.ringEnt ≠ 0 → x.copyStop = false → engineGoes s x (tokenOn s w (fun k => k.kinds.getLsbD 4 && x.head < k.ring)) = true →
        n ≠ 0 → n ≤ l.ringEnt → takeErr s1 x raw = (none, s2) →
        ∃ t y e, exec (.copyTakeEntry w) s = .next t ∧ t.wg? w = some y ∧ y.head = x.head + 1 ∧ y.chans[ch] = x.chans[ch] ++ [e] ∧
          e.idx = x.head ∧ e.raw = raw ∧ e.pub = publisher x x.head ∧ e.done = 0 ∧ e.was = []) ∧
    (∀ w x ch e es s1 s2, s.wg? w = some x → x.chans[ch] = e :: es → x.copyStop = false →
      let c := Cmd.ofBytes e.raw
      let n := if c.total ≤ e.done + 16 then 16 else 32
      c.ch = ch → movePiece s x c e e.done = .ok s1 → (n = 32 → movePiece s1 x c (headEnt s1 w ch e) (e.done + 16) = .ok s2) →
      let moved (y : Wg) : Prop := y.chwp[ch] = x.chwp[ch] + BitVec.ofNat 64 n ∧
        if c.total ≤ e.done + n then y.chans[ch] = es
        else ∃ e', y.chans[ch] = e' :: es ∧ e'.idx = e.idx ∧ e'.raw = e.raw ∧ e'.done = e.done + n
      (c.opc = 1 → ∃ t y, exec (.copy w ch) s = .next t ∧ t.wg? w = some y ∧ moved y) ∧
      (c.opc = 2 → ∃ t y, exec (.gather w ch) s = .next t ∧ t.wg? w = some y ∧ moved y) ∧
      (c.opc = 5 → ∃ t y, exec (.fill w ch) s = .next t ∧ t.wg? w = some y ∧ moved y) ∧
      (c.opc = 3 → ∃ t y, exec (.convert w ch) s = .next t ∧ t.wg? w = some y ∧ moved y) ∧
      (c.opc = 4 → ∃ t y, exec (.convertout w ch) s = .next t ∧ t.wg? w = some y ∧ moved y))

/-- MMA_ENTRY, MDRAIN_ENTRY, MATRIX_ENTRY_COMPLETE and MMA_RESUME complete (R74, R251, R253, R256, R257, R327). -/
def Obligations.MatrixEvents : Prop :=
  ∀ (s : State),
    (∀ w x e es, s.wg? w = some x → x.mq = e :: es → e.susp = none → engineGoes s x (entryMust s w e) = true →
      (∀ xa xb xc c rank y p q as bs s2 s3 z, e.op = .mma xa xb xc c rank → x.mstep < mmaSteps xc c →
        let s1 := if e.begun then s else onHead (beginMma s x xc c rank) w (fun e => { e with begun := true })
        let nc := ctlM c.n / Split.num c.split
        let k := y.mstep * mfmtStep c.afmt
        let slot := cellSlot (kindOf c.afmt) c.slot.val
        s1.wg? w = some y → readRows y c.afmt xa.toNat (bits xc.toNat 0 16) k (ctlM c.m) 0 s1 [] = ((.ok p, as), s2) →
        readRows y c.bfmt xb.toNat (bits xc.toNat 16 16) k nc (rank * nc) s2 [] = ((.ok q, bs), s3) → s3.wg? w = some z →
        slot < z.slots.length →
        ∃ t v, exec (.mmaEntry w) s = .next t ∧ t.wg? w = some v ∧ v.mstep = y.mstep + 1 ∧
          (slotAt v slot).cells = cellsOf (stepGrid c as bs (gridOf (slotAt z slot).cells)).1) ∧
      (∀ xa xb xc c old s2 s3 bytes k r, e.op = .mdrain xa xb xc c → e.row < ctlM c.m →
        let s1 := onHead s w (fun e => { e with begun := true })
        let base := (xa.toNat + e.row * xb.toNat) % 2 ^ 64
        let n := ctlM c.n * dfmtBytes c.dfmt
        let a := slotAt x c.slot.val
        let g := gridOf (slotAt x (cellSlot a.kind c.slot.val)).cells
        spanErr x (if c.add then 3 else 2) (pieces base n) s1 = (none, s2) →
        (if c.add then engineRead s2 (some x) x.core x.cid [] base n 1 else (.ok [], s2)) = (.ok old, s3) →
        bytes = (List.range (ctlM c.n)).flatMap (fun j => bytesLE (dfmtBytes c.dfmt) (drainCell a a.kind c xc e.row j (g.getD (e.row * 256 + j) 0)
          (ofBytes ((old.drop (j * dfmtBytes c.dfmt)).take (dfmtBytes c.dfmt))))) →
        engineWrite s3 (some x) x.core x.cid base bytes = ((.ok [], k), r) →
        ∃ t v, exec (.mdrainEntry w) s = .next t ∧ t.wg? w = some v ∧ v.mq = { e with begun := true, row := e.row + 1 } :: es) ∧
      (entryOver x e = true → ∃ t, exec (.matrixEntryComplete w) s = .next t ∧ t.wg? w = some { x with mq := es, mstep := 0 })) ∧
    (∀ w x e es rid, s.wg? w = some x → x.mq = e :: es → e.susp = some rid →
      ((s.ctx? x.cid).map (fun c => c.preqs.any (fun r => r.rid == rid))).getD false = false →
      ∃ t, exec (.mmaResume w) s = .next t ∧ t.wg? w = some { x with mq := { e with susp := none } :: es })

/-- REGION_LOAD, evaluations, restorations, violations, broadcasts and counter blocks complete (R262, R263, R266, R267, R272, R273). -/
def Obligations.ReplicaEvents : Prop :=
  ∀ (s : State),
    (∀ core cid region th d desc im s1, regionWaiter s core cid region = some th → residentOf s core cid region = none →
      th.mops.any (fun m => m.acq || m.isAtom) = false → fetchRegion s th region (fun _ => false) = (.ok d desc im, s1) →
      storeRoom (s1.core core) cid region im.length = true → ∃ t, exec (.regionLoad core cid region) s = .next t ∧
        residentOf t core cid region = some { cid, region, pin := false, desc, image := im }) ∧
    (∀ core n v, (s.core core).evals[n]? = some v →
      let d := RDesc.ofBytes v.desc
      let r := surrogate d v.image (v.args.map (·.toNat))
      let ys : List W32 := r.1.map (BitVec.ofNat 32)
      let stands : Bool := v.sonly || (!isSampled d v.c && !isRejected d r.2)
      ∃ t, exec (.surrogateEvaluation core n) s = .next t ∧ (t.core core).evals = (s.core core).evals.eraseIdx n ∧
        ∀ c, s.thread? v.caller = some c → c.exited = false → v.caller ≠ .none →
          (stands = true → c.rpend.any (fun p => p.call == v.call) = true → ∃ c', t.thread? v.caller = some c' ∧ c'.r = c.r.setRange v.resv ys ∧
            c'.rpend = c.rpend.filter (fun p => p.call != v.call)) ∧
          (stands = false → ∃ e, (t.core core).restq = (s.core core).restq ++ [e] ∧ e.call = v.call ∧ e.args = v.args ∧
            e.exactpc = BitVec.ofNat 64 d.exactpc ∧ e.kind = (if isSampled d v.c then .sample ys (!isRejected d r.2) else .fallback))) ∧
    (∀ core n e w l r, (s.core core).restq[n]? = some e → s.wg? e.w = some w → s.lrecOf w = some l →
      ((s.gang? w.gang).map (fun g => g.way != .save)).getD false = true → freeRest s w l = some r →
      (∀ c, s.thread? e.caller = some c → ∀ m ∈ c.mops, e.upto ≤ m.id) →
      ∃ t th, exec (.restorationStart core n) s = .next t ∧ th ∈ t.threads ∧ th.ref = .rest w.id r ∧ th.rest = some e ∧ th.r.pc = e.exactpc ∧
        (t.core core).restq = (s.core core).restq.eraseIdx n) ∧
    (∀ n core cid region a, s.viol[n]? = some (core, cid, region) → aggOf s cid region = some a → ∃ t b, exec (.violationReport n) s = .next t ∧
      t.viol = s.viol.eraseIdx n ∧ aggOf t cid region = some b ∧ b.c[3] = a.c[3] + 1) ∧
    (∀ core cid region b, (s.core core).todo.find? (fun x => x.1 == cid && x.2.1 == region) = some b → replaying s cid = false →
      (b.2.2 = true → ∃ t, exec (.disableApply core cid region) s = .next t ∧ appliedState t core cid region = 2) ∧
      (b.2.2 = false → ∃ t, exec (.enableApply core cid region) s = .next t ∧ appliedState t core cid region = 1 ∧ residentOf t core cid region = none)) ∧
    (∀ cid region, exec (.counterBlockWrite cid region) s = .next (writeBlock s cid region))

/-- Refreshes, waiting pushes, parked pops, sends, spills, read backs, migrations and refills complete (R172, R284, R288, R289, R292, R293, R294, R298). -/
def Obligations.WorklistEvents : Prop :=
  ∀ (s : State),
    (∀ cid wl w, s.wl? cid wl = some w → w.st = .active →
      (w.sys = false → refreshDue s w 64 = true →
        (wlIdle s cid wl w = false → ∃ t w', exec (.floorRefresh cid wl) s = .next t ∧ t.wl? cid wl = some w' ∧ w'.st = .active ∧
          w'.refreshed = some s.tick ∧ w'.fseen = floorOf s cid wl w ∧ ∀ d : Fin 4, (w'.units[d]).fseen = floorOf s cid wl w) ∧
        (wlIdle s cid wl w = true → w.last = some w.counts → ∃ t w', exec (.floorRefresh cid wl) s = .next t ∧ t.wl? cid wl = some w' ∧
          w'.st = .terminated)) ∧
      (w.sys = true → refreshDue s w 1024 = true → ∀ peer quiet,
        let w1 := { w with peersReady := w.peersReady || quiet }
        let idle := quiet && wlIdle (s.onWl cid wl (fun _ => w1)) cid wl w1
        (idle = false → ∃ t w', exec (.groupFloorRefresh cid wl peer quiet) s = .next t ∧ t.wl? cid wl = some w' ∧ w'.st = .active ∧
          w'.refreshed = some s.tick ∧ w'.fseen = minFloor (floorOf s cid wl w) peer ∧
          ∀ d : Fin 4, (w'.units[d]).fseen = minFloor (floorOf s cid wl w) peer) ∧
        (idle = true → w.last = some w.counts → ∃ t w', exec (.groupFloorRefresh cid wl peer quiet) s = .next t ∧ t.wl? cid wl = some w' ∧
          w'.st = .terminated))) ∧
    (∀ r x wl words dep w go, r ≠ .none → s.thread? r = some x → x.wait = .wlpush wl words dep go → s.wl? x.cid wl = some w →
      replaying s x.cid = false →
      (∃ t w', exec (.floorDropAck r) s = .next t ∧ t.wl? x.cid wl = some w' ∧ belowSeen w' (bucket w (words.headD 0)) = false) ∧
      (generalUsed (s.core x.core) < 256 → ∃ t u, exec (.floorDropAck r) s = .next t ∧ t.thread? r = some u ∧ u.wait = .none ∧ u.r = x.r.adv 2 ∧
        (t.core x.core).front = (s.core x.core).front ++
          [{ cid := x.cid, wl := wl.val, words, core := x.core, slot := x.slot, num := x.pushes, resv := none }]) ∧
      (∀ e, go = true → belowSeen w (bucket w (words.headD 0)) = false → frontRoom ((sendFull s x.core).core x.core) dep = some e →
        ∃ t u, exec (.wlpushPlace r) s = .next t ∧ t.thread? r = some u ∧ u.wait = .none ∧ u.r = x.r.adv 2 ∧
          (t.core x.core).front = ((sendFull s x.core).core x.core).front ++
            [{ cid := x.cid, wl := wl.val, words, core := x.core, slot := x.slot, num := x.pushes, resv := e }])) ∧
    (∀ r x wl xa ps v w n rec4, r ≠ .none → s.thread? r = some x → x.wait = .wlpop wl xa ps v → s.wl? x.cid wl = some w → w.st = .active →
      gangIssues s x = true → x.halted = false → replaying s x.cid = false → firstPop s x wl = true →
      (popChoices s x.core x.cid wl w)[n]? = some rec4 → (frontOf s x.core x.cid wl).contains rec4 = true →
      ∃ t u, exec (.wlpopServe r n) s = .next t ∧ t.thread? r = some u ∧ u.wait = .none ∧
        u.r = (((x.r.setRange v.val rec4.words).setX xa 0).setP ps true).adv 2) ∧
    (∀ core n r w, (s.core core).front[n]? = some r → s.wl? r.cid (Fin.ofNat 4 r.wl) = some w → dieHeld s (dieOf core) < unitRoom →
      ∃ t w', exec (.frontBufferSend core n) s = .next t ∧ (t.core core).front = (s.core core).front.erase r ∧
        t.wl? r.cid (Fin.ofNat 4 r.wl) = some w' ∧ (w'.units[dieOf core]).recs = (w.units[dieOf core]).recs ++ [{ r with resv := none }]) ∧
    (∀ cid wl (d : Fin 4) w, s.wl? cid wl = some w → w.st = .active →
      let u := w.units[d]
      (∀ b n key,
        let rs := (u.recs.filter (fun r => bucket w r.key == b)).take 256
        rs ≠ [] → isFar u b = true ∨ unitRoom ≤ dieHeld s d → freeChunk w = some n → chunkAt s cid w n false = .ok key →
        ∃ t w', exec (.chunkSpill cid wl d.val b) s = .next t ∧ t.wl? cid wl = some w' ∧ (w'.units[d]).recs = dropRecs u.recs rs ∧
          (w'.units[d]).chunks = u.chunks ++ [(n, rs)]) ∧
      (∀ n c key, u.chunks.find? (fun c => c.1 == n) = some c → c.2.any (fun r => isFar u (bucket w r.key)) = false →
        dieHeld s d + c.2.length ≤ unitRoom → chunkAt s cid w n true = .ok key →
        ∃ t w', exec (.chunkReadBack cid wl d.val n) s = .next t ∧ t.wl? cid wl = some w' ∧ (w'.units[d]).recs = u.recs ++ c.2 ∧
          (w'.units[d]).chunks = u.chunks.filter (fun c => c.1 != n)) ∧
      (∀ (b : Fin 4) n, w.dbal = true → d ≠ b → dieParked s cid wl b = true → dieEligible w b = false →
        (∀ k : Fin 4, (unitEligible w k).length ≤ (unitEligible w d).length) →
        let rs := chunkOut w d (min n (unitRoom - dieHeld s b))
        ∃ t w', exec (.chunkMigrate cid wl d.val b.val n) s = .next t ∧ t.wl? cid wl = some w' ∧ (w'.units[d]).recs = dropRecs u.recs rs ∧
          (w'.units[b]).recs = (w.units[b]).recs ++ rs) ∧
      (∀ peer n, 4 ≤ peer → w.sys = true → w.xbal = true →
        (∃ t w', exec (.chunkMigrate cid wl d.val peer n) s = .next t ∧ t.wl? cid wl = some w' ∧
          (w'.units[d]).recs = dropRecs u.recs (chunkOut w d n)) ∧
        (∀ f, w.fseen = some f → dieParked s cid wl d = true → (∀ k : Fin 4, dieEligible w k = false) →
          ∃ t w', exec (.chunkMigrate cid wl peer d.val n) s = .next t ∧ t.wl? cid wl = some w' ∧
            (w'.units[d]).recs = u.recs ++ (List.range (min (min n (unitRoom - dieHeld s d)) 256)).map (peerRec s cid wl w f)))) ∧
    (∀ w x r y l data s1, s.wg? w = some x → x.spilled.find? (fun z => z.1 == r) = some y → s.lrecOf x = some l →
      engineRead s (some x) x.core x.cid [] (recordAddr l r + 16) (fmtBytes y.2 (regWidth r) l.wgsize) 1 = (.ok data, s1) →
      ∃ t z, exec (.spillRefill w r) s = .next t ∧ t.wg? w = some z ∧ isSpilled z r = false)

/-- Contexts' creation, destruction and selection, queue operations, packets and register writes complete (R317, R318, R341, R342, R362, R371, R372, R374, R375, R379). -/
def Obligations.ContextAndQueueEvents : Prop :=
  ∀ (s : State),
    (∀ cid, let s1 : State := { s with cfg := { s.cfg with ccid := BitVec.ofNat 6 cid } }
      let pa := s.cfg.cdtab.toNat + 128 * cid
      let r := s1.take pa 128
      (cid < 64 → s.ctx? cid = none → keyOk pa = true → keyOk (pa + 127) = true → cdescOk r.2 r.1 = true →
        ∃ t c, exec (.contextCreate cid) s = .next t ∧ t.ctx? cid = some c ∧ c.st = .idle ∧ c.desc = CDesc.ofBytes r.1 ∧
          ∀ wl : Fin 4, c.wls[wl] = Worklist.init) ∧
      ∃ t, exec (.contextDestroy cid) s = .next t ∧ t.ctx? cid = none) ∧
    (∀ cid, let pa := s.cfg.dbgtab.toNat + 64 * cid
      let r := s.take pa 64
      ctxState s cid = .idle ∨ ctxState s cid = .saved → runningCount s < 8 → keyOk pa = true → keyOk (pa + 63) = true → ddescBad r.1 = none →
      (DDesc.ofBytes r.1).amode ≠ 2 →
      ∃ t c, exec (.contextSelect cid) s = .next t ∧ t.ctx? cid = some c ∧ c.st = .running ∧ c.dbg = DDesc.ofBytes r.1 ∧ c.leaving = false) ∧
    (∀ q, let pa := s.cfg.qdtab.toNat + 128 * q
      let r := (nameQueue s q).take pa 128
      let cid := bits (dword r.1 8) 0 6
      (∀ prog, q < 4096 → mayEnable s q = true → keyOk pa = true → keyOk (pa + 127) = true → qdescOk r.1 = true → (s.ctx? cid).isSome = true →
        devGet r.2 cid (dword r.1 0x10) (4 * dword r.1 0x18) = some prog →
        ∃ t, exec (.queueEnable q) s = .next t ∧ t.queue? q = some (Queue.ofBytes q r.1 (wordsOf prog) (verify (wordsOf prog)))) ∧
      (∀ x, s.queue? q = some x →
        (∃ t, exec (.queueDisable q) s = .next t ∧ t.queue? q = some { x with st := .disabled, quiesce := false, paused := none, tail := x.head }) ∧
        (∃ t, exec (.queueQuiesce q) s = .next t ∧ t.queue? q = some (if runsPacket s q then { x with quiesce := true }
          else { x with st := .disabled, paused := none, tail := x.head })) ∧
        (∀ f v, f = 0 ∨ x.vf = f → x.st = .enabled ∨ x.st = .waiting →
          ∃ t, exec (.queueNotify f q v) s = .next t ∧ t.queue? q = some { x with tail := v }))) ∧
    (∀ c q x, let s0 := refreshDescs s
      let r := s0.round c
      let r' := if r.last = x.cid ∧ 0 < r.deficit x.cid then r
        else { r.setDeficit x.cid (min (r.deficit x.cid + ((s0.ctx? x.cid).map (·.desc.weight)).getD 0 * 4096) 1099511627776) with last := x.cid }
      let pkt := x.ring + 64 * (x.head.toNat % 2 ^ x.log2e)
      s0.queue? q = some x → c < 16 → s0.curator? c = none → servedQueue s0 c x = true → 0 < r'.deficit x.cid →
      ∃ t k th, exec (.packetStart c q) s = .next t ∧ t.curator? c = some k ∧ k.q = q ∧ k.left = 4096 ∧ th ∈ t.threads ∧ th.ref = .cur c ∧
        th.cid = x.cid ∧ th.r.pc = BitVec.ofNat 64 x.prog ∧ th.r.getX 60 = BitVec.ofNat 64 pkt) ∧
    (∀ q x th key s1, s.queue? q = some x → x.st = .waiting → ctxState s x.cid ≠ .saved → s.curator? x.cur = none → x.paused = some th →
      xlate s (Config.cores + x.cur) x.cid x.waddr.toNat 1 = (.ok key, s1) → isSys key = false → s1.poisoned key 8 = false →
      x.wthr.toNat ≤ ofBytes (readBytes s1.mem key 8) →
      ∃ t, exec (.qwaitsigResume q) s = .next t ∧ t.queue? q = some { x with st := .enabled, waddr := 0, wthr := 0, paused := none } ∧
        { th with wait := .none } ∈ t.threads ∧ ∃ k, t.curator? x.cur = some k ∧ k.q = q) ∧
    (∀ off (v : W64), (s.tick < v.toNat → exec (.tickstopWrite v) s = .next { s with cfg := { s.cfg with tickstop := v } }) ∧
      (s.cfg.tickstop ≠ 0 → s.cfg.tickstop.toNat ≤ s.tick → exec .tickStop s = .next { s with stopped := true }) ∧
      exec (.registerWrite off v) s = .next { s with cfg := writeRegister s.cfg (s.links != 0) off v })

/-- Pre-emption, drains, saves, restores, switches, halts, resumptions, samples and archive steps complete (R322, R325, R326, R327, R331, R333, R343, R346, R347, R351, R357). -/
def Obligations.PreemptAndDebugEvents : Prop :=
  ∀ (s : State),
    (∀ i g l br asks, s.gang? i = some g → (s.launch? g.launch).map (·.lrec) = some l → g.way = .run → g.endTick = none →
      (br = none → priorityAsks s [i] = asks ∧ asks ≠ none) → (br ≠ none → asks = none) →
      let b := gangBound br l.latency
      ∃ t, exec (.preemptRequest [i] br) s = .next t ∧
        match gangWay s g l b with
        | .drain => t.gang? i = some { g with way := .drain (b.map (fun n => s.tick + n)), by' := asks }
        | .save => t.gang? i = some { g with way := .save, by' := asks }
        | .flush => t.gang? i = none) ∧
    (∀ i g d, s.gang? i = some g → g.way = .drain (some d) → d ≤ s.tick → g.endTick = none →
      ∃ t, exec (.drainExpire i) s = .next t ∧ t.gang? i = some { g with way := .save }) ∧
    (∀ i g la c, s.gang? i = some g → g.way = .save → g.endTick = none → s.launch? g.launch = some la → s.ctx? g.cid = some c →
      (∀ t ∈ gangThreads s g, ∀ f, t.fence = some f → f.rolled = true) → (membersOf s g).all (memberSettled s) = true →
      ∃ t d v, exec (.gangSave i) s = .next t ∧ t.gang? i = none ∧ t.ctx? g.cid = some d ∧
        d.saved = c.saved ++ [v] ∧ v.gang = g ∧ v.slot = g.slot) ∧
    (∀ slot die cluster rows bases c v la,
      let s0 := refreshDescs s
      let first := die * Config.coresPerDie + cluster * 8 + v.gang.first
      let fits : Bool := (v.wgs.zip (rows.zip bases)).all (fun x => memberFits s0 (first + x.1.member) la.lrec x.2.1 x.2.2)
      let quiet : Bool := v.wgs.all (fun w => !(s0.core (first + w.member)).todo.any (fun x => x.1 == c.cid))
      s0.ctxs.find? (fun c => c.saved.any (fun v => v.slot == slot)) = some c → c.saved.find? (fun v => v.slot == slot) = some v →
      s0.launch? v.gang.launch = some la → c.st = .running → c.leaving = false → v.rejected = [] → v.pops = [] →
      die < 4 → cluster < 12 → clusterOk s0 c.desc.part die cluster = true → rows.length = v.wgs.length → bases.length = v.wgs.length →
      replaying s0 c.cid = false → fits = true → inherits c v = true ∨ c.saved.any (inherits c) = false → notOutranked s0 c = true → quiet = true →
      headerOk ((devGet s0 c.cid slot 256).getD []) la.addr = true →
      ∃ t g, exec (.gangRestore slot die cluster rows bases) s = .next t ∧ g ∈ t.gangs ∧ g.id = v.gang.id ∧ g.die = die ∧ g.cluster = cluster ∧
        g.way = .run) ∧
    (∀ w, (s.switches.find? (fun w => !w.begun && w.when ≤ s.tick) = some w → w.inc = none →
        ∃ t, exec .switchTick s = .next t ∧ ∀ c ∈ w.out, ctxState t c ≠ .running) ∧
      (s.switches.find? (switchDone s) = some w → ∃ t, exec .switchComplete s = .next t ∧ t.switches = s.switches.filter (fun x => x != w))) ∧
    (∀ r x, r ≠ .none → s.thread? r = some x → x.exited = false →
      (x.halted = false → (refWg r).isSome = true →
        ∃ t, exec (.haltRequest [r]) s = .next t ∧ t.thread? r = some { x with haltReq := true }) ∧
      (x.halted = false → x.haltReq = true → x.fence = none →
        ∃ t u, exec (.threadHalt r) s = .next t ∧ t.thread? r = some u ∧ u.halted = true ∧ u.haltReq = false ∧ u.r = x.r) ∧
      (x.halted = true → ∃ t u, exec (.resumeRequest [r]) s = .next t ∧ t.thread? r = some u ∧ u.halted = false ∧
        u.r = if x.bkpt then x.r.adv 1 else x.r) ∧
      (∀ arb code g, replaying s x.cid = true → x.halted = false → x.wait = .gate arb code →
        (∀ c, s.ctx? x.cid = some c → (gateRequests s x).findSome? (fun q => gateCase s c x q.1 q.2) = none) →
        gateTake s x.cid arb x.core x.slot code = some g → ∃ t, exec (.gatePass r) s = .next t ∧ t.thread? r = some { x with wait := .none })) ∧
    (∀ core th, core < 384 → (s.core core).sampAt ≠ some s.tick →
      (sortBy (fun t => (t.slot + 4096 - (s.core core).samp) % 4096) (sampleable s core)).head? = some th →
      ∃ t, exec (.sample core) s = .next t ∧ (t.core core).samp = (th.slot + 1) % 4096 ∧ (t.core core).sampAt = some s.tick) ∧
    (∀ cid c, s.ctx? cid = some c →
      (c.dbg.amode = 1 → c.arch.full = false → c.arch.on = true ∨ c.st = .running →
        (c.arch.settling = false → checkpointDue s c = true →
          ∃ t d, exec (.checkpoint cid) s = .next t ∧ t.ctx? cid = some d ∧ d.arch = beginCheckpoint s.tick c ∧ d.arch.settling = true) ∧
        (c.arch.settling = true → (∀ g ∈ ctxGangs s cid, ∀ t ∈ gangThreads s g, ∀ f, t.fence = some f → f.rolled = true) →
          (ctxGangs s cid).all (fun g => (membersOf s g).all (memberSettled s)) = true →
          exec (.checkpoint cid) s = .next (takeCheckpoint s cid))) ∧
      (∀ h hs, c.arch.want = h :: hs → replaying s cid = true → intervalDone s c h = true → hashMismatch s c h = none →
        ∃ t d, exec (.intervalClose cid) s = .next t ∧ t.ctx? cid = some d ∧ d.arch.want = hs ∧ (hs = [] → d.st = .idle)))

/-- Collectives, ingress, resets, failures, quotes, links, peers' accesses and VMODE writes complete (R196, R334, R340, R362, R363, R364, R368, R370, R378, R381, R382). -/
def Obligations.HostAndFabricEvents : Prop :=
  ∀ (s : State),
    (∀ cid g k x, collOf s cid g k = some x →
      (∀ e peers own, groupAt s cid g = some e → ctxState s cid = .running →
        let o := 65536 * x.next
        let len := min 65536 (recvBytes x.cop e.n x.b - o)
        o < recvBytes x.cop e.n x.b → peers.length = e.n → (∀ p ∈ peers, p.length = len) → ownPart s cid x e.n e.rank o len = some own →
        ∃ t, exec (.collChunk cid g k peers) s = .next t ∧ collOf t cid g k = some { x with next := x.next + 1 }) ∧
      (recvBytes x.cop (groupSize s cid g) x.b ≤ 65536 * x.next →
        ∃ t, exec (.collectiveComplete cid g k true) s = .next t ∧ collOf t cid g k = none)) ∧
    (∀ f va, f ≤ 64 →
      (boundCtx s f = none →
        (∀ bytes, va + bytes.length ≤ 2 ^ 40 → exec (.ingressWrite f va bytes) s = .next (ingressFault s f va)) ∧
        (∀ n, va + n ≤ 2 ^ 40 → ∃ t, exec (.ingressRead f va n) s = .next t ∧ t.answers = s.answers ++ [.unsupported])) ∧
      (∀ cid key, boundCtx s f = some cid → replaying s cid = false → isSys key = false →
        (∀ bytes, va + bytes.length ≤ 2 ^ 40 → sectorPieces va bytes.length = [(va, bytes.length)] →
          hubPlaces s cid 2 [(va, bytes.length)] = some [(key, va, bytes.length)] → Memory.wf s.mem = true →
          ∃ t, exec (.ingressWrite f va bytes) s = .next t ∧
            ∀ a, memGet t.mem a = if key ≤ a ∧ a < key + bytes.length then bytes.getD (a - key) 0 else memGet s.mem a) ∧
        (∀ n, va + n ≤ 2 ^ 40 → sectorPieces va n = [(va, n)] → hubPlaces s cid 1 [(va, n)] = some [(key, va, n)] → s.poisoned key n = false →
          ∃ t, exec (.ingressRead f va n) s = .next t ∧ t.answers = s.answers ++ [.data (readBytes s.mem key n)]))) ∧
    (∀ f, ∃ t, exec (.functionLevelReset f) s = .next t ∧
      ∀ q x, s.queue? q = some x → x.vf = f → ∃ y, t.queue? q = some y ∧ y.st = .disabled ∧ y.head = 0 ∧ y.tail = 0) ∧
    (∀ core, core < 384 → s.outClusters.contains (core / 8) = false → ∃ t, exec (.coreFailure core) s = .next t ∧
      (if s.spares.contains (core / 8) then t.spares = s.spares ∧ t.outClusters = s.outClusters ++ [core / 8]
       else t.spares = s.spares ++ [core / 8] ∧ t.outClusters = s.outClusters)) ∧
    (∀ n, exec (.memoryRetire true n) s = .next { s with hbmRet := s.hbmRet + n } ∧ exec (.memoryRetire false n) s = .next { s with vbRet := s.vbRet + n } ∧
      exec .moduleReset s = .next { State.reset with agenda := s.agenda, fresh := s.fresh, uid := s.uid }) ∧
    (∀ cid c nonce, s.ctx? cid = some c → nonce.length = 32 →
      let body := c.measure ++ bytesLE 8 c.attest.length ++ nonce
      exec (.attestationQuote cid nonce) s = .next { s with quote := s.quote ++ [body ++ Config.falconSign body] }) ∧
    (∀ (p : Fin 36), (∃ t, exec (.linkFailure p) s = .next t ∧ ∀ i : Fin 36, t.links.getLsbD i = (s.links.getLsbD i && i != p)) ∧
      (∃ t, exec (.linkUp p) s = .next t ∧ ∀ i : Fin 36, t.links.getLsbD i = (s.links.getLsbD i || i == p)) ∧ exec (.flitRetry p) s = .next s ∧
      (s.inPod = true → ∃ t, exec .podLeave s = .next t ∧ t.inPod = false) ∧
      (∀ pa, s.links.getLsbD p = true → pa < 2 ^ 44 → keyOk pa = true →
        (∀ n, keyOk (pa + n - 1) = true → exec (.ngurilIngress p pa (.read n)) s = .next { s with answers := s.answers ++ [readAnswer s pa n] }) ∧
        (∀ bytes, keyOk (pa + bytes.length - 1) = true → sectorPieces pa bytes.length = [(pa, bytes.length)] → isSys pa = false →
          archMapped s 2 pa = [] → Memory.wf s.mem = true → ∃ t, exec (.ngurilIngress p pa (.write bytes false)) s = .next t ∧
            ∀ a, memGet t.mem a = if pa ≤ a ∧ a < pa + bytes.length then bytes.getD (a - pa) 0 else memGet s.mem a))) ∧
    (∀ v, ∃ t, exec (.vmodeWrite v) s = .next t ∧
      ∀ i < 192, t.cfg.vmode.getLsbD i = if i ∈ mappedQuarters s then s.cfg.vmode.getLsbD i else v.getLsbD i)
end

