-- ==== Sys2Proof/Laws/Encoding.lean ====
section
/-! SUPPORT. The encoder read back by the decoder, part by part: each operand field, then each format. -/

set_option Elab.async false

namespace Sys2Proof.Laws

/-- The decoder reads an instruction back from its words, whatever words follow, and its length is what R20 says. -/
structure Reads (i : Instr) : Prop where
  back : ∀ tail : List Nat, decode ((encode i ++ tail).getD 0 0) ((encode i ++ tail).getD 1 0) ((encode i ++ tail).getD 2 0) = .ok i
  len : (encode i).length = i.words

theorem Reads.of {i : Instr} {w : Nat} {rest : List Nat} (he : encode i = w :: rest) (hl : i.words = 1 + rest.length)
    (h : ∀ tail, decode w ((rest ++ tail).getD 0 0) ((rest ++ tail).getD 1 0) = .ok i) : Reads i :=
  ⟨fun tail => by rw [he]; exact h tail, by rw [he, hl]; simp; omega⟩

theorem dec_lane {w l l2 : Nat} {i : Instr} (hb : bit w 31 = false) (h : decodeLane w l l2 = .ok i) : decode w l l2 = .ok i := by
  simp [decode, decodeRow, hb, h, Dec.map, Row.instr]

theorem dec_group {w l l2 : Nat} {i : Instr} (r : Row) (hb : bit w 31 = true) (h : decodeGroup w l l2 = .ok r) (hr : r.instr = i) :
    decode w l l2 = .ok i := by
  simp [decode, decodeRow, hb, h, Dec.map, hr]

/-! ## Operand fields -/

theorem encG_lt (g : Guard) : encG g < 16 := by
  cases g with
  | none => decide
  | some n => simp only [encG]; omega

theorem guard_enc (g : Guard) : guardF (encG g) = .ok g := by
  cases g with
  | none => rfl
  | some n => simp [guardF, encG, show n.val + 1 ≤ 12 by omega]

theorem src8_lt (a : Src8) : a.code < 256 := by cases a <;> simp only [Src8.code] <;> omega
theorem dst8_lt (d : Dst8) : d.code < 256 := by cases d <;> simp only [Dst8.code] <;> omega
theorem src5_lt (b : Src5) : b.code < 32 := by cases b <;> simp only [Src5.code] <;> omega
theorem b9_lt (b : SrcB9) : b.code < 512 := by cases b <;> simp only [SrcB9.code] <;> omega
theorem b7_lt (b : SrcB7) : b.code < 128 := by cases b <;> simp only [SrcB7.code] <;> omega
theorem vx_lt (b : VXReg) : b.code < 256 := by cases b <;> simp only [VXReg.code] <;> omega
theorem off_lt (o : OffSel) : o.code < 8 := by cases o <;> simp only [OffSel.code] <;> omega
theorem mem_lt (m : MemArg) : m.code < 8192 := by have := off_lt m.os; unfold MemArg.code; omega
theorem icond_lt (c : ICond) : c.code < 16 := by cases c <;> decide
theorem fcond_lt (c : FCond) : c.code < 16 := by cases c <;> decide
theorem scope_lt (c : Scope) : c.code < 8 := by cases c <;> decide
theorem hint_lt (c : Hint) : c.code < 4 := by cases c <;> decide
theorem order_lt (c : Order) : c.code < 4 := by cases c <;> decide
theorem mfmt_lt (c : MFmt) : c.code < 8 := by cases c <;> decide
theorem split_lt (c : Split) : c.code < 4 := by cases c <;> decide
theorem dfmt_lt (c : DFmt) : c.code < 16 := by cases c <;> decide
theorem dtype_lt (c : DType) : c.code < 16 := by cases c <;> decide
theorem rop_lt (c : ROp) : c.code < 16 := by cases c <;> decide
theorem b1_lt (b : Bool) : b1 b < 2 := by cases b <;> decide
theorem c63_lt (c : Option (Fin 63)) : encC63 c < 64 := by cases c <;> simp only [encC63] <;> omega

theorem src8_enc (a : Src8) (l : Nat) (h : ∀ w, a = .lit w → l = w.toNat) : src8F a.code l = .ok a := by
  cases a with
  | v n => simp [src8F, Src8.code, vr]
  | o n => simp [src8F, Src8.code, f8, show 128 + n.val < 136 by omega]
  | lit w => simp [src8F, Src8.code, h w rfl]
  | x n =>
    simp [src8F, Src8.code, xr, show ¬192 + n.val < 128 by omega, show ¬192 + n.val < 136 by omega, show ¬192 + n.val = 136 by omega,
      show ¬192 + n.val = 137 by omega, show ¬192 + n.val = 138 by omega, show ¬192 + n.val = 139 by omega,
      show ¬192 + n.val = 140 by omega]
  | _ => rfl

theorem dst8_enc (d : Dst8) : dst8F d.code = .ok d := by
  cases d with
  | v n => simp [dst8F, Dst8.code, vr]
  | o n => simp [dst8F, Dst8.code, f8, show 128 + n.val < 136 by omega]
  | _ => rfl

theorem src5_enc (a : Src5) (l : Nat) (h : ∀ w, a = .lit w → l = w.toNat) : src5F a.code l = .ok a := by
  cases a with
  | o n => simp [src5F, Src5.code, f8]
  | lit w => simp [src5F, Src5.code, h w rfl]
  | x n =>
    simp [src5F, Src5.code, show ¬16 + n.val < 8 by omega, show ¬16 + n.val = 8 by omega, show ¬16 + n.val = 9 by omega,
      show ¬16 + n.val = 10 by omega, show ¬16 + n.val = 11 by omega, show ¬16 + n.val = 12 by omega, show ¬16 + n.val = 13 by omega,
      show ¬16 + n.val = 14 by omega, show ¬16 + n.val = 15 by omega]
  | _ => rfl

theorem b9_enc (b : SrcB9) (l0 l1 : Nat) (h : ∀ w, b = .lit32 w → l0 = w.toNat)
    (h' : ∀ w, b = .lit64 w → l0 = w.toNat % 4294967296 ∧ l1 = w.toNat / 4294967296) : b9F b.code l0 l1 = .ok b := by
  cases b with
  | imm i => simp [b9F, SrcB9.code]; apply BitVec.eq_of_toNat_eq; simp; omega
  | x n => simp [b9F, SrcB9.code, xr]; omega
  | lit32 w => simp [b9F, SrcB9.code, h w rfl]
  | lit64 w =>
    have := h' w rfl
    have e : l1 * 4294967296 + l0 = w.toNat := by omega
    simp [b9F, SrcB9.code, e]
  | zero => rfl

theorem b7_enc (b : SrcB7) : b7F b.code = .ok b := by cases b <;> simp [b7F, SrcB7.code, xr]
theorem pred_enc (p : PReg) : predF p.val = .ok p := by simp [predF]
theorem xr_enc (a : XReg) : xr a.val = a := by simp [xr]
theorem vr_enc (a : VReg) : vr a.val = a := by simp [vr]
theorem f8_enc (a : Fin 8) : f8 a.val = a := by simp [f8]
theorem icond_enc (c : ICond) : icondF c.code = .ok c := by cases c <;> rfl
theorem fcond_enc (c : FCond) : fcondF c.code = .ok c := by cases c <;> rfl
theorem scope_enc (c : Scope) : scopeF c.code = .ok c := by cases c <;> rfl
theorem hint_enc (c : Hint) : hintF c.code = c := by cases c <;> rfl
theorem order_enc (c : Order) : orderF c.code = c := by cases c <;> rfl
theorem mfmt_enc (c : MFmt) : mfmtF c.code = .ok c := by cases c <;> rfl
theorem split_enc (c : Split) : splitF c.code = .ok c := by cases c <;> rfl
theorem dfmt_enc (c : DFmt) : dfmtF c.code = .ok c := by cases c <;> rfl
theorem dtype_enc (c : DType) : dtypeF c.code = .ok c := by cases c <;> rfl
theorem rop_enc (c : ROp) : ropF c.code = .ok c := by cases c <;> rfl
theorem c63_enc (c : Option (Fin 63)) : tbCntF (encC63 c) = c := by
  cases c with
  | none => rfl
  | some n => simp [tbCntF, encC63, show ¬n.val = 63 by omega]
theorem vx_enc (r : VXReg) : vxF r.code = .ok r := by
  cases r with
  | v n => simp [vxF, VXReg.code, vr]
  | x n => simp [vxF, VXReg.code, xr]; omega
theorem pair_enc (v : VReg) (h : v.val % 2 = 0) : pairF v.val = .ok v := by simp [pairF, h, vr]
theorem quad_enc (v : VReg) (h : v.val % 4 = 0) : quadF v.val = .ok v := by simp [quadF, h, vr]
theorem off_enc (o : OffSel) (l : Nat) (h : ∀ w, o = .lit w → l = w.toNat) : offF o.code l = o := by
  cases o with
  | o n => simp [offF, OffSel.code]
  | none => rfl
  | lit w => simp [offF, OffSel.code, h w rfl]

theorem mem_enc (m : MemArg) (w l : Nat) (h7 : fld w 7 6 = m.xb.val) (h4 : fld w 4 3 = m.os.code) (h0 : fld w 0 4 = m.k.toNat)
    (h : ∀ w, m.os = .lit w → l = w.toNat) : memF w l = m := by
  obtain ⟨xb, os, k⟩ := m
  simp only [memF, h7, h4, h0, xr_enc, off_enc os l h, BitVec.ofNat_toNat, BitVec.setWidth_eq]

/-! ## Literal words -/

theorem src8_len (a : Src8) : a.litw.length = a.lits := by cases a <;> rfl
theorem src5_len (a : Src5) : a.litw.length = a.lits := by cases a <;> rfl
theorem b9_len (a : SrcB9) : a.litw.length = a.lits := by cases a <;> rfl
theorem mem_len (m : MemArg) : m.os.litw.length = m.lits := by obtain ⟨xb, os, k⟩ := m; cases os <;> rfl
theorem stx_len (t : StxT) : t.litw.length = t.lits := by
  cases t <;> simp only [StxT.litw, StxT.lits, src8_len] <;> rfl
theorem cas_len (t : CasC) : t.litw.length = t.lits := by cases t <;> (simp only [CasC.litw, CasC.lits, src8_len]; try rfl)

theorem src8_lit (a : Src8) (r : List Nat) : ∀ w, a = .lit w → (a.litw ++ r).getD 0 0 = w.toNat := by rintro w rfl; rfl
theorem src5_lit (b : Src5) (r : List Nat) : ∀ w, b = .lit w → (b.litw ++ r).getD 0 0 = w.toNat := by rintro w rfl; rfl
theorem off_lit (o : OffSel) (r : List Nat) : ∀ w, o = .lit w → (o.litw ++ r).getD 0 0 = w.toNat := by rintro w rfl; rfl
theorem src5_lit2 (a : Src8) (b : Src5) (r : List Nat) (h : a.lits + b.lits ≤ 1) :
    ∀ w, b = .lit w → ((a.litw ++ b.litw) ++ r).getD 0 0 = w.toNat := by
  rintro w rfl
  cases a <;> first | rfl | simp [Src8.lits, Src5.lits] at h
theorem src8_lit2 (a b : Src8) (r : List Nat) (h : a.lits + b.lits ≤ 1) :
    ∀ w, b = .lit w → ((a.litw ++ b.litw) ++ r).getD 0 0 = w.toNat := by
  rintro w rfl
  cases a <;> first | rfl | simp [Src8.lits] at h
theorem off_lit2 (a : List Nat) (m : MemArg) (r : List Nat) (h : a.length + m.lits ≤ 1) :
    ∀ w, m.os = .lit w → ((a ++ m.os.litw) ++ r).getD 0 0 = w.toNat := by
  obtain ⟨xb, os, k⟩ := m
  rintro w e
  simp only at e
  subst e
  cases a with
  | nil => rfl
  | cons x t => simp [MemArg.lits] at h
theorem src8_137 (a : Src8) (h : a.code = 137) : a.lits = 1 := by
  cases a with
  | lit w => rfl
  | v n => simp only [Src8.code] at h; omega
  | o n => simp only [Src8.code] at h; omega
  | x n => simp only [Src8.code] at h; omega
  | _ => simp [Src8.code] at h
theorem src5_9 (a : Src5) (h : a.code = 9) : a.lits = 1 := by
  cases a with
  | lit w => rfl
  | o n => simp only [Src5.code] at h; omega
  | x n => simp only [Src5.code] at h; omega
  | _ => simp [Src5.code] at h
theorem off_7 (m : MemArg) (h : m.os.code = 7) : m.lits = 1 := by
  obtain ⟨xb, os, k⟩ := m
  cases os with
  | lit w => rfl
  | o n => simp only [OffSel.code] at h; omega
  | none => simp [OffSel.code] at h

theorem bit_of (w lo : Nat) (b : Bool) (h : w / 2 ^ lo % 2 = b1 b) : bit w lo = b := by cases b <;> simp [bit, h, b1]
theorem ap_ok {α β : Type} (f : α → β) (x : α) : Dec.ap (.ok f) (.ok x) = .ok (f x) := by unfold Dec.ap; rfl
theorem map_ok {α β : Type} (f : α → β) (x : α) : Dec.map f (.ok x) = .ok (f x) := by unfold Dec.map; rfl
theorem need_ok {α : Type} (a : α) (r : Nat) : Dec.need (.ok a) true r = .ok a := by unfold Dec.need; rfl
theorem chk_ok {α : Type} (a : α) (p : α → Bool) (h : p a = true) : Dec.chk (.ok a) p = .ok a := by simp [Dec.chk, h]

end Sys2Proof.Laws
end

