-- ==== Sys2Proof/Laws/Formats.lean ====
section
/-! SUPPORT. Each instruction format of R30-R36 and R51-R59 read back by the decoder. -/

set_option Elab.async false

namespace Sys2Proof.Laws

set_option linter.unusedSimpArgs false

theorem mem_lits (m : MemArg) : m.lits ≤ 1 := by obtain ⟨xb, os, k⟩ := m; cases os <;> simp [MemArg.lits]

theorem reads_LA {c : Guard → Dst8 → Src8 → Src5 → Instr} {op : Nat} {g : Guard} {d : Dst8} {a : Src8} {b : Src5} (ho : op < 64)
    (he : encode (c g d a b) = encLA op g d a b)
    (hw : (c g d a b).words = 1 + (a.lits + b.lits))
    (hd : ∀ w l l2, fld w 25 6 = op → decodeLane w l l2 = decLA c w l)
    (hl : a.lits + b.lits ≤ 1) : Reads (c g d a b) := by
  have h0 := encG_lt g; have h1 := dst8_lt d; have h2 := src8_lt a; have h3 := src5_lt b
  refine Reads.of (he.trans rfl) (by simp [hw, src8_len, src5_len]) fun tail =>
      dec_lane (by simp only [bit, laneW, beq_eq_false_iff_ne]; omega) ?_
  rw [hd _ _ _ (by simp only [fld, laneW]; omega)]
  have e1 : fld (laneW op g (d.code * 8192 + a.code * 32 + b.code)) 21 4 = encG g := by simp only [fld, laneW]; omega
  have e2 : fld (laneW op g (d.code * 8192 + a.code * 32 + b.code)) 13 8 = d.code := by simp only [fld, laneW]; omega
  have e3 : fld (laneW op g (d.code * 8192 + a.code * 32 + b.code)) 5 8 = a.code := by simp only [fld, laneW]; omega
  have e4 : fld (laneW op g (d.code * 8192 + a.code * 32 + b.code)) 0 5 = b.code := by simp only [fld, laneW]; omega
  have n : (!(a.code == 137 && b.code == 9)) = true := by
    simp only [Bool.not_eq_true', Bool.and_eq_false_iff, beq_eq_false_iff_ne]
    by_cases q : a.code = 137
    · have := src8_137 a q; exact .inr fun q' => by have := src5_9 b q'; omega
    · exact .inl q
  have la : src8F a.code ((a.litw ++ b.litw ++ tail).getD 0 0) = .ok a := src8_enc a _ (by rw [List.append_assoc]; exact src8_lit a _)
  have lb : src5F b.code ((a.litw ++ b.litw ++ tail).getD 0 0) = .ok b := src5_enc b _ (src5_lit2 a b _ hl)
  simp only [e1, e2, e3, e4, decLA, guard_enc, dst8_enc, la, lb, n, ap_ok]
  rfl

theorem reads_LU {c : Guard → Dst8 → Src8 → Instr} {op fn : Nat} {g : Guard} {d : Dst8} {a : Src8} (hf : fn < 32) (ho : op < 64)
    (he : encode (c g d a) = encLU op fn g d a)
    (hw : (c g d a).words = 1 + a.lits)
    (hd : ∀ w l l2, fld w 25 6 = op → fld w 0 5 = fn → decodeLane w l l2 = decLU c w l) : Reads (c g d a) := by
  have h0 := encG_lt g; have h1 := dst8_lt d; have h2 := src8_lt a
  refine Reads.of (he.trans rfl) (by simp [hw, src8_len, src5_len]) fun tail =>
      dec_lane (by simp only [bit, laneW, beq_eq_false_iff_ne]; omega) ?_
  have e1 : fld (laneW op g (d.code * 8192 + a.code * 32 + fn)) 21 4 = encG g := by simp only [fld, laneW]; omega
  have e2 : fld (laneW op g (d.code * 8192 + a.code * 32 + fn)) 13 8 = d.code := by simp only [fld, laneW]; omega
  have e3 : fld (laneW op g (d.code * 8192 + a.code * 32 + fn)) 5 8 = a.code := by simp only [fld, laneW]; omega
  rw [hd _ _ _ (by simp only [fld, laneW]; omega) (by simp only [fld, laneW]; omega)]
  have la : src8F a.code ((a.litw ++ tail).getD 0 0) = .ok a := src8_enc a _ (src8_lit a _)
  simp only [e1, e2, e3, decLU, guard_enc, dst8_enc, la, ap_ok]

theorem reads_LPI {c : Guard → PReg → ICond → Src8 → Src5 → Instr} {op : Nat} {g : Guard} {p : PReg} {cc : ICond} {a : Src8} {b : Src5} (ho : op < 64)
    (he : encode (c g p cc a b) = encLP op g p cc.code a b)
    (hw : (c g p cc a b).words = 1 + (a.lits + b.lits))
    (hd : ∀ w l l2, fld w 25 6 = op → decodeLane w l l2 = decLPI c w l)
    (hl : a.lits + b.lits ≤ 1) : Reads (c g p cc a b) := by
  have h0 := encG_lt g; have h1 := icond_lt cc; have h2 := src8_lt a; have h3 := src5_lt b
  refine Reads.of (he.trans rfl) (by simp [hw, src8_len, src5_len]) fun tail =>
      dec_lane (by simp only [bit, laneW, beq_eq_false_iff_ne]; omega) ?_
  rw [hd _ _ _ (by simp only [fld, laneW]; omega)]
  have e1 : fld (laneW op g (p.val * 131072 + cc.code * 8192 + a.code * 32 + b.code)) 21 4 = encG g := by simp only [fld, laneW]; omega
  have e2 : fld (laneW op g (p.val * 131072 + cc.code * 8192 + a.code * 32 + b.code)) 17 4 = p.val := by simp only [fld, laneW]; omega
  have e3 : fld (laneW op g (p.val * 131072 + cc.code * 8192 + a.code * 32 + b.code)) 13 4 = cc.code := by simp only [fld, laneW]; omega
  have e4 : fld (laneW op g (p.val * 131072 + cc.code * 8192 + a.code * 32 + b.code)) 5 8 = a.code := by simp only [fld, laneW]; omega
  have e5 : fld (laneW op g (p.val * 131072 + cc.code * 8192 + a.code * 32 + b.code)) 0 5 = b.code := by simp only [fld, laneW]; omega
  have n : (!(a.code == 137 && b.code == 9)) = true := by
    simp only [Bool.not_eq_true', Bool.and_eq_false_iff, beq_eq_false_iff_ne]
    by_cases q : a.code = 137
    · have := src8_137 a q; exact .inr fun q' => by have := src5_9 b q'; omega
    · exact .inl q
  have la : src8F a.code ((a.litw ++ b.litw ++ tail).getD 0 0) = .ok a := src8_enc a _ (by rw [List.append_assoc]; exact src8_lit a _)
  have lb : src5F b.code ((a.litw ++ b.litw ++ tail).getD 0 0) = .ok b := src5_enc b _ (src5_lit2 a b _ hl)
  simp only [e1, e2, e3, e4, e5, decLPI, guard_enc, pred_enc, icond_enc, la, lb, n, ap_ok]
  rfl

theorem reads_LPF {c : Guard → PReg → FCond → Src8 → Src5 → Instr} {op : Nat} {g : Guard} {p : PReg} {cc : FCond} {a : Src8} {b : Src5} (ho : op < 64)
    (he : encode (c g p cc a b) = encLP op g p cc.code a b)
    (hw : (c g p cc a b).words = 1 + (a.lits + b.lits))
    (hd : ∀ w l l2, fld w 25 6 = op → decodeLane w l l2 = decLPF c w l)
    (hl : a.lits + b.lits ≤ 1) : Reads (c g p cc a b) := by
  have h0 := encG_lt g; have h1 := fcond_lt cc; have h2 := src8_lt a; have h3 := src5_lt b
  refine Reads.of (he.trans rfl) (by simp [hw, src8_len, src5_len]) fun tail =>
      dec_lane (by simp only [bit, laneW, beq_eq_false_iff_ne]; omega) ?_
  rw [hd _ _ _ (by simp only [fld, laneW]; omega)]
  have e1 : fld (laneW op g (p.val * 131072 + cc.code * 8192 + a.code * 32 + b.code)) 21 4 = encG g := by simp only [fld, laneW]; omega
  have e2 : fld (laneW op g (p.val * 131072 + cc.code * 8192 + a.code * 32 + b.code)) 17 4 = p.val := by simp only [fld, laneW]; omega
  have e3 : fld (laneW op g (p.val * 131072 + cc.code * 8192 + a.code * 32 + b.code)) 13 4 = cc.code := by simp only [fld, laneW]; omega
  have e4 : fld (laneW op g (p.val * 131072 + cc.code * 8192 + a.code * 32 + b.code)) 5 8 = a.code := by simp only [fld, laneW]; omega
  have e5 : fld (laneW op g (p.val * 131072 + cc.code * 8192 + a.code * 32 + b.code)) 0 5 = b.code := by simp only [fld, laneW]; omega
  have n : (!(a.code == 137 && b.code == 9)) = true := by
    simp only [Bool.not_eq_true', Bool.and_eq_false_iff, beq_eq_false_iff_ne]
    by_cases q : a.code = 137
    · have := src8_137 a q; exact .inr fun q' => by have := src5_9 b q'; omega
    · exact .inl q
  have la : src8F a.code ((a.litw ++ b.litw ++ tail).getD 0 0) = .ok a := src8_enc a _ (by rw [List.append_assoc]; exact src8_lit a _)
  have lb : src5F b.code ((a.litw ++ b.litw ++ tail).getD 0 0) = .ok b := src5_enc b _ (src5_lit2 a b _ hl)
  simp only [e1, e2, e3, e4, e5, decLPF, guard_enc, pred_enc, fcond_enc, la, lb, n, ap_ok]
  rfl

theorem reads_LD {c : Guard → Dst8 → MemArg → Instr} {op : Nat} {g : Guard} {t : Dst8} {m : MemArg} (ho : op < 64)
    (he : encode (c g t m) = encLM op g t.code m [])
    (hw : (c g t m).words = 1 + m.lits)
    (hd : ∀ w l l2, fld w 25 6 = op → decodeLane w l l2 = decLoad c w l) : Reads (c g t m) := by
  have h0 := encG_lt g; have h1 := dst8_lt t; have h2 := off_lt m.os; have h3 := mem_lt m; have h4 := m.k.isLt; have h5 := m.xb.isLt
  refine Reads.of (he.trans rfl) (by simp [hw, mem_len]) fun tail => dec_lane (by simp only [bit, laneW, beq_eq_false_iff_ne]; omega) ?_
  rw [hd _ _ _ (by simp only [fld, laneW]; omega)]
  have e1 : fld (laneW op g (t.code * 8192 + m.code)) 21 4 = encG g := by simp only [fld, laneW]; omega
  have e2 : fld (laneW op g (t.code * 8192 + m.code)) 13 8 = t.code := by simp only [fld, laneW]; omega
  have lm : memF (laneW op g (t.code * 8192 + m.code)) (([] ++ m.os.litw ++ tail).getD 0 0) = m :=
    mem_enc m _ _ (by simp only [fld, laneW, MemArg.code]; omega) (by simp only [fld, laneW, MemArg.code]; omega)
        (by simp only [fld, laneW, MemArg.code]; omega)
      (off_lit2 [] m _ (by have := off_lt m.os; simpa using mem_lits m))
  simp only [e1, e2, decLoad, guard_enc, dst8_enc, lm, ap_ok]

theorem reads_PAIR {c : Guard → VReg → MemArg → Instr} {op : Nat} {g : Guard} {t : VReg} {m : MemArg} (hv : t.val % 2 = 0) (ho : op < 64)
    (he : encode (c g t m) = encLM op g t.val m [])
    (hw : (c g t m).words = 1 + m.lits)
    (hd : ∀ w l l2, fld w 25 6 = op → decodeLane w l l2 = decMulti pairF c w l) : Reads (c g t m) := by
  have h0 := encG_lt g; have h1 := off_lt m.os; have h2 := mem_lt m; have h3 := m.k.isLt; have h4 := m.xb.isLt
  refine Reads.of (he.trans rfl) (by simp [hw, mem_len]) fun tail => dec_lane (by simp only [bit, laneW, beq_eq_false_iff_ne]; omega) ?_
  rw [hd _ _ _ (by simp only [fld, laneW]; omega)]
  have e1 : fld (laneW op g (t.val * 8192 + m.code)) 21 4 = encG g := by simp only [fld, laneW]; omega
  have e2 : fld (laneW op g (t.val * 8192 + m.code)) 13 8 = t.val := by simp only [fld, laneW]; omega
  have lm : memF (laneW op g (t.val * 8192 + m.code)) (([] ++ m.os.litw ++ tail).getD 0 0) = m :=
    mem_enc m _ _ (by simp only [fld, laneW, MemArg.code]; omega) (by simp only [fld, laneW, MemArg.code]; omega)
        (by simp only [fld, laneW, MemArg.code]; omega)
      (off_lit2 [] m _ (by have := off_lt m.os; simpa using mem_lits m))
  have lv := pair_enc t hv
  simp only [e1, e2, decMulti, guard_enc, lv, lm, ap_ok]

theorem reads_QUAD {c : Guard → VReg → MemArg → Instr} {op : Nat} {g : Guard} {t : VReg} {m : MemArg} (hv : t.val % 4 = 0) (ho : op < 64)
    (he : encode (c g t m) = encLM op g t.val m [])
    (hw : (c g t m).words = 1 + m.lits)
    (hd : ∀ w l l2, fld w 25 6 = op → decodeLane w l l2 = decMulti quadF c w l) : Reads (c g t m) := by
  have h0 := encG_lt g; have h1 := off_lt m.os; have h2 := mem_lt m; have h3 := m.k.isLt; have h4 := m.xb.isLt
  refine Reads.of (he.trans rfl) (by simp [hw, mem_len]) fun tail => dec_lane (by simp only [bit, laneW, beq_eq_false_iff_ne]; omega) ?_
  rw [hd _ _ _ (by simp only [fld, laneW]; omega)]
  have e1 : fld (laneW op g (t.val * 8192 + m.code)) 21 4 = encG g := by simp only [fld, laneW]; omega
  have e2 : fld (laneW op g (t.val * 8192 + m.code)) 13 8 = t.val := by simp only [fld, laneW]; omega
  have lm : memF (laneW op g (t.val * 8192 + m.code)) (([] ++ m.os.litw ++ tail).getD 0 0) = m :=
    mem_enc m _ _ (by simp only [fld, laneW, MemArg.code]; omega) (by simp only [fld, laneW, MemArg.code]; omega)
        (by simp only [fld, laneW, MemArg.code]; omega)
      (off_lit2 [] m _ (by have := off_lt m.os; simpa using mem_lits m))
  have lv := quad_enc t hv
  simp only [e1, e2, decMulti, guard_enc, lv, lm, ap_ok]

theorem reads_ST {c : Guard → Src8 → MemArg → Instr} {op : Nat} {g : Guard} {t : Src8} {m : MemArg} (ho : op < 64)
    (he : encode (c g t m) = encLM op g t.code m t.litw)
    (hw : (c g t m).words = 1 + (t.lits + m.lits))
    (hd : ∀ w l l2, fld w 25 6 = op → decodeLane w l l2 = decStore c w l)
    (hl : t.lits + m.lits ≤ 1) : Reads (c g t m) := by
  have h0 := encG_lt g; have h1 := src8_lt t; have h2 := off_lt m.os; have h3 := mem_lt m; have h4 := m.k.isLt; have h5 := m.xb.isLt
  refine Reads.of (he.trans rfl) (by simp [hw, src8_len, mem_len]) fun tail =>
      dec_lane (by simp only [bit, laneW, beq_eq_false_iff_ne]; omega) ?_
  rw [hd _ _ _ (by simp only [fld, laneW]; omega)]
  have e1 : fld (laneW op g (t.code * 8192 + m.code)) 21 4 = encG g := by simp only [fld, laneW]; omega
  have e2 : fld (laneW op g (t.code * 8192 + m.code)) 13 8 = t.code := by simp only [fld, laneW]; omega
  have lm : memF (laneW op g (t.code * 8192 + m.code)) ((t.litw ++ m.os.litw ++ tail).getD 0 0) = m :=
    mem_enc m _ _ (by simp only [fld, laneW, MemArg.code]; omega) (by simp only [fld, laneW, MemArg.code]; omega)
        (by simp only [fld, laneW, MemArg.code]; omega)
      (off_lit2 t.litw m _ (by rw [src8_len]; exact hl))
  have e3 : fld (laneW op g (t.code * 8192 + m.code)) 4 3 = m.os.code := by simp only [fld, laneW, MemArg.code]; omega
  have lt : src8F t.code ((t.litw ++ m.os.litw ++ tail).getD 0 0) = .ok t := src8_enc t _ (by rw [List.append_assoc]; exact src8_lit t _)
  have n : (!(t.code == 137 && m.os.code == 7)) = true := by
    simp only [Bool.not_eq_true', Bool.and_eq_false_iff, beq_eq_false_iff_ne]
    by_cases q : t.code = 137
    · have := src8_137 t q; exact .inr fun q' => by have := off_7 m q'; omega
    · exact .inl q
  simp only [e1, e2, decStore, guard_enc, lt, lm, e3, n, ap_ok]
  rfl

theorem reads_FST {c : Guard → Src8 → Fin 8 → Fin 1024 → Instr} {op : Nat} {g : Guard} {t : Src8} {dep : Fin 8} {slot : Fin 1024} (ho : op < 64)
    (he : encode (c g t dep slot) = encLF op g t.code dep slot t.litw)
    (hw : (c g t dep slot).words = 1 + t.lits)
    (hd : ∀ w l l2, fld w 25 6 = op → decodeLane w l l2 = decFst c w l) : Reads (c g t dep slot) := by
  have h0 := encG_lt g; have h1 := src8_lt t
  refine Reads.of (he.trans rfl) (by simp [hw, src8_len]) fun tail => dec_lane (by simp only [bit, laneW, beq_eq_false_iff_ne]; omega) ?_
  rw [hd _ _ _ (by simp only [fld, laneW]; omega)]
  have e1 : fld (laneW op g (t.code * 8192 + dep.val * 1024 + slot.val)) 21 4 = encG g := by simp only [fld, laneW]; omega
  have e2 : fld (laneW op g (t.code * 8192 + dep.val * 1024 + slot.val)) 13 8 = t.code := by simp only [fld, laneW]; omega
  have e3 : fld (laneW op g (t.code * 8192 + dep.val * 1024 + slot.val)) 10 3 = dep.val := by simp only [fld, laneW]; omega
  have e4 : fld (laneW op g (t.code * 8192 + dep.val * 1024 + slot.val)) 0 10 = slot.val := by simp only [fld, laneW]; omega
  have la : src8F t.code ((t.litw ++ tail).getD 0 0) = .ok t := src8_enc t _ (src8_lit t _)
  simp only [e1, e2, e3, e4, decFst, guard_enc, la, f8_enc, Fin.ofNat_eq_cast, Fin.cast_val_eq_self, ap_ok]

theorem reads_plop {op : Nat} {g : Guard} {pd pa pb : PReg} {tt : BitVec 4} (ho : op < 64)
    (he : encode (Instr.plop g pd pa pb tt) = [laneW op g (pd.val * 131072 + pa.val * 8192 + pb.val * 512 + tt.toNat * 32)])
    (hw : (Instr.plop g pd pa pb tt).words = 1)
    (hd : ∀ w l l2, fld w 25 6 = op → decodeLane w l l2 = decPlop w) : Reads (Instr.plop g pd pa pb tt) := by
  have h0 := encG_lt g; have h1 := tt.isLt
  refine Reads.of (he.trans rfl) (by rw [hw]; simp only [List.length_cons, List.length_append, List.length_nil]; try omega) fun tail =>
      dec_lane (by simp only [bit, laneW, beq_eq_false_iff_ne]; omega) ?_
  rw [hd _ _ _ (by simp only [fld, laneW]; omega)]
  have e1 : fld (laneW op g (pd.val * 131072 + pa.val * 8192 + pb.val * 512 + tt.toNat * 32)) 21 4 = encG g := by
      simp only [fld, laneW]; omega
  have e2 : fld (laneW op g (pd.val * 131072 + pa.val * 8192 + pb.val * 512 + tt.toNat * 32)) 17 4 = pd.val := by
      simp only [fld, laneW]; omega
  have e3 : fld (laneW op g (pd.val * 131072 + pa.val * 8192 + pb.val * 512 + tt.toNat * 32)) 13 4 = pa.val := by
      simp only [fld, laneW]; omega
  have e4 : fld (laneW op g (pd.val * 131072 + pa.val * 8192 + pb.val * 512 + tt.toNat * 32)) 9 4 = pb.val := by
      simp only [fld, laneW]; omega
  have e5 : fld (laneW op g (pd.val * 131072 + pa.val * 8192 + pb.val * 512 + tt.toNat * 32)) 5 4 = tt.toNat := by
      simp only [fld, laneW]; omega
  have e6 : fld (laneW op g (pd.val * 131072 + pa.val * 8192 + pb.val * 512 + tt.toNat * 32)) 0 5 = 0 := by simp only [fld, laneW]; omega
  simp only [e1, e2, e3, e4, e5, e6, decPlop, guard_enc, pred_enc, BitVec.ofNat_toNat, BitVec.setWidth_eq, ap_ok]
  rfl

theorem reads_ptov {op : Nat} {g : Guard} {d : Dst8} (ho : op < 64)
    (he : encode (Instr.ptov g d) = [laneW op g (d.code * 8192)])
    (hw : (Instr.ptov g d).words = 1)
    (hd : ∀ w l l2, fld w 25 6 = op →
        decodeLane w l l2 = (match fld w 0 5 with | 0 => decPtov w | 1 => decVtop w l | _ => .err 2)) : Reads (Instr.ptov g d) := by
  have h0 := encG_lt g; have h1 := dst8_lt d
  refine Reads.of (he.trans rfl) (by rw [hw]; simp only [List.length_cons, List.length_append, List.length_nil]; try omega) fun tail =>
      dec_lane (by simp only [bit, laneW, beq_eq_false_iff_ne]; omega) ?_
  rw [hd _ _ _ (by simp only [fld, laneW]; omega)]
  have e1 : fld (laneW op g (d.code * 8192)) 21 4 = encG g := by simp only [fld, laneW]; omega
  have e2 : fld (laneW op g (d.code * 8192)) 13 8 = d.code := by simp only [fld, laneW]; omega
  have e3 : fld (laneW op g (d.code * 8192)) 5 8 = 0 := by simp only [fld, laneW]; omega
  have e4 : fld (laneW op g (d.code * 8192)) 0 5 = 0 := by simp only [fld, laneW]; omega
  simp only [e1, e2, e3, e4, decPtov, guard_enc, dst8_enc, ap_ok]
  rfl

theorem reads_vtop {op : Nat} {g : Guard} {a : Src8} (ho : op < 64)
    (he : encode (Instr.vtop g a) = laneW op g (a.code * 32 + 1) :: a.litw)
    (hw : (Instr.vtop g a).words = 1 + a.lits)
    (hd : ∀ w l l2, fld w 25 6 = op →
        decodeLane w l l2 = (match fld w 0 5 with | 0 => decPtov w | 1 => decVtop w l | _ => .err 2)) : Reads (Instr.vtop g a) := by
  have h0 := encG_lt g; have h1 := src8_lt a
  refine Reads.of (he.trans rfl)
      (by rw [hw]; simp only [List.length_cons, List.length_append, List.length_nil, src8_len]; try omega) fun tail =>
      dec_lane (by simp only [bit, laneW, beq_eq_false_iff_ne]; omega) ?_
  rw [hd _ _ _ (by simp only [fld, laneW]; omega)]
  have e1 : fld (laneW op g (a.code * 32 + 1)) 21 4 = encG g := by simp only [fld, laneW]; omega
  have e2 : fld (laneW op g (a.code * 32 + 1)) 13 8 = 0 := by simp only [fld, laneW]; omega
  have e3 : fld (laneW op g (a.code * 32 + 1)) 5 8 = a.code := by simp only [fld, laneW]; omega
  have e4 : fld (laneW op g (a.code * 32 + 1)) 0 5 = 1 := by simp only [fld, laneW]; omega
  have la : src8F a.code ((a.litw ++ tail).getD 0 0) = .ok a := src8_enc a _ (src8_lit a _)
  simp only [e1, e2, e3, e4, decVtop, guard_enc, la, ap_ok]
  rfl

theorem reads_fld {op : Nat} {g : Guard} {d : Dst8} {dep : Fin 8} {slot : Fin 1024} (ho : op < 64)
    (he : encode (Instr.fld g d dep slot) = [laneW op g (d.code * 8192 + dep.val * 1024 + slot.val)])
    (hw : (Instr.fld g d dep slot).words = 1)
    (hd : ∀ w l l2, fld w 25 6 = op → decodeLane w l l2 = decFld w) : Reads (Instr.fld g d dep slot) := by
  have h0 := encG_lt g; have h1 := dst8_lt d
  refine Reads.of (he.trans rfl) (by rw [hw]; simp only [List.length_cons, List.length_append, List.length_nil]; try omega) fun tail =>
      dec_lane (by simp only [bit, laneW, beq_eq_false_iff_ne]; omega) ?_
  rw [hd _ _ _ (by simp only [fld, laneW]; omega)]
  have e1 : fld (laneW op g (d.code * 8192 + dep.val * 1024 + slot.val)) 21 4 = encG g := by simp only [fld, laneW]; omega
  have e2 : fld (laneW op g (d.code * 8192 + dep.val * 1024 + slot.val)) 13 8 = d.code := by simp only [fld, laneW]; omega
  have e3 : fld (laneW op g (d.code * 8192 + dep.val * 1024 + slot.val)) 10 3 = dep.val := by simp only [fld, laneW]; omega
  have e4 : fld (laneW op g (d.code * 8192 + dep.val * 1024 + slot.val)) 0 10 = slot.val := by simp only [fld, laneW]; omega
  simp only [e1, e2, e3, e4, decFld, guard_enc, dst8_enc, f8_enc, Fin.ofNat_eq_cast, Fin.cast_val_eq_self, ap_ok]

theorem ldx_lt (t : LdxT) : t.code.1 < 5 ∧ t.code.2 < 256 := by
  cases t with
  | b1 d => exact ⟨by simp [LdxT.code], dst8_lt d⟩
  | b2 d => exact ⟨by simp [LdxT.code], dst8_lt d⟩
  | b4 d => exact ⟨by simp [LdxT.code], dst8_lt d⟩
  | b8 v => exact ⟨by simp [LdxT.code], by show v.val < 256; omega⟩
  | b16 v => exact ⟨by simp [LdxT.code], by show v.val < 256; omega⟩
theorem ldx_enc (t : LdxT) (h : t.ok = true) : ldxTF t.code.1 t.code.2 = .ok t := by
  cases t with
  | b1 d => simp only [LdxT.code, ldxTF, dst8_enc, ap_ok]
  | b2 d => simp only [LdxT.code, ldxTF, dst8_enc, ap_ok]
  | b4 d => simp only [LdxT.code, ldxTF, dst8_enc, ap_ok]
  | b8 v => simp only [LdxT.code, ldxTF, pair_enc v (by simpa [LdxT.ok] using h), ap_ok]
  | b16 v => simp only [LdxT.code, ldxTF, quad_enc v (by simpa [LdxT.ok] using h), ap_ok]
theorem stx_lt (t : StxT) : t.code.1 < 5 ∧ t.code.2 < 256 := by
  cases t with
  | b1 a => exact ⟨by simp [StxT.code], src8_lt a⟩
  | b2 a => exact ⟨by simp [StxT.code], src8_lt a⟩
  | b4 a => exact ⟨by simp [StxT.code], src8_lt a⟩
  | b8 v => exact ⟨by simp [StxT.code], by show v.val < 256; omega⟩
  | b16 v => exact ⟨by simp [StxT.code], by show v.val < 256; omega⟩
theorem stx_enc (t : StxT) (h : t.ok = true) (r : List Nat) : stxTF t.code.1 t.code.2 ((t.litw ++ r).getD 0 0) = .ok t := by
  cases t with
  | b1 a => simp only [StxT.code, stxTF, StxT.litw, src8_enc a _ (src8_lit a r), ap_ok]
  | b2 a => simp only [StxT.code, stxTF, StxT.litw, src8_enc a _ (src8_lit a r), ap_ok]
  | b4 a => simp only [StxT.code, stxTF, StxT.litw, src8_enc a _ (src8_lit a r), ap_ok]
  | b8 v => simp only [StxT.code, stxTF, pair_enc v (by simpa [StxT.ok] using h), ap_ok]
  | b16 v => simp only [StxT.code, stxTF, quad_enc v (by simpa [StxT.ok] using h), ap_ok]
theorem stx_one (t : StxT) (m : MemArg) (h : t.lits + m.lits ≤ 1) : (!(t.code.2 == 137 && decide (t.code.1 < 3) && m.os.code == 7)) = true := by
  simp only [Bool.not_eq_true', Bool.and_eq_false_iff, beq_eq_false_iff_ne, decide_eq_false_iff_not]
  by_cases q : m.os.code = 7
  · have := off_7 m q
    refine .inl ?_
    cases t with
    | b1 a => exact .inl fun e => by have := src8_137 a e; simp only [StxT.lits] at h; omega
    | b2 a => exact .inl fun e => by have := src8_137 a e; simp only [StxT.lits] at h; omega
    | b4 a => exact .inl fun e => by have := src8_137 a e; simp only [StxT.lits] at h; omega
    | b8 v => exact .inr (by simp [StxT.code])
    | b16 v => exact .inr (by simp [StxT.code])
  · exact .inr q
theorem atom_lt (t : AtomT) : t.code.1 < 6 ∧ t.code.2 < 256 := by
  cases t with
  | n32 d => exact ⟨by simp [AtomT.code], dst8_lt d⟩
  | s32 d => exact ⟨by simp [AtomT.code], dst8_lt d⟩
  | f32 d => exact ⟨by simp [AtomT.code], dst8_lt d⟩
  | f16x2 d => exact ⟨by simp [AtomT.code], dst8_lt d⟩
  | n64 v => exact ⟨by simp [AtomT.code], by show v.val < 256; omega⟩
  | s64 v => exact ⟨by simp [AtomT.code], by show v.val < 256; omega⟩
theorem atom_enc (t : AtomT) (h : t.anyOk = true) : atomTF t.code.1 t.code.2 = .ok t := by
  cases t with
  | n32 d => simp only [AtomT.code, atomTF, dst8_enc, ap_ok]
  | s32 d => simp only [AtomT.code, atomTF, dst8_enc, ap_ok]
  | f32 d => simp only [AtomT.code, atomTF, dst8_enc, ap_ok]
  | f16x2 d => simp only [AtomT.code, atomTF, dst8_enc, ap_ok]
  | n64 v => simp only [AtomT.code, atomTF, pair_enc v (by simpa [AtomT.anyOk] using h), ap_ok]
  | s64 v => simp only [AtomT.code, atomTF, pair_enc v (by simpa [AtomT.anyOk] using h), ap_ok]
theorem atom_int (t : AtomT) (h : t.intOk = true) : t.anyOk = true ∧ t.code.1 ≤ 3 := by
  cases t with
  | n32 d => exact ⟨rfl, by simp [AtomT.code]⟩
  | s32 d => exact ⟨rfl, by simp [AtomT.code]⟩
  | n64 v => exact ⟨h, by simp [AtomT.code]⟩
  | s64 v => exact ⟨h, by simp [AtomT.code]⟩
  | f32 d => exact absurd h (by simp [AtomT.intOk])
  | f16x2 d => exact absurd h (by simp [AtomT.intOk])
theorem cas_lt (c : CasC) : c.code < 256 := by
  cases c with
  | w32 a => exact src8_lt a
  | w64 v => show v.val < 256; omega
theorem cas_enc (t : AtomT) (c : CasC) (h : c.fits t = true) (r : List Nat) : casCF t.code.1 c.code ((c.litw ++ r).getD 0 0) = .ok c := by
  cases c with
  | w32 a =>
    have e : ¬(t.code.1 = 2 ∨ t.code.1 = 3) := by
        cases t <;> first | (simp [CasC.fits, AtomT.is64] at h; done) | (simp [AtomT.code]; done)
    simp only [casCF, if_neg e, CasC.code, CasC.litw, src8_enc a _ (src8_lit a r), ap_ok]
  | w64 v =>
    have e : t.code.1 = 2 ∨ t.code.1 = 3 := by cases t <;> first | (simp [AtomT.code]; done) | (simp [CasC.fits, AtomT.is64] at h; done)
    have q : v.val % 2 = 0 := by simp only [CasC.fits, Bool.and_eq_true, beq_iff_eq] at h; exact h.2
    simp only [casCF, if_pos e, CasC.code, pair_enc v q, ap_ok]
theorem cas_one (c : CasC) (m : MemArg) (h : c.lits + m.lits ≤ 1) : (!(c.code == 137 && m.os.code == 7)) = true := by
  simp only [Bool.not_eq_true', Bool.and_eq_false_iff, beq_eq_false_iff_ne]
  by_cases q : m.os.code = 7
  · have := off_7 m q
    refine .inl ?_
    cases c with
    | w32 a => exact fun e => by have := src8_137 a e; simp only [CasC.lits] at h; omega
    | w64 v => show ¬v.val = 137; omega
  · exact .inr q
theorem b1_1 (b : Bool) : (b1 b == 1) = b := by cases b <;> rfl
theorem b1_2 (b : Bool) : (2 * b1 b == 2) = b := by cases b <;> rfl
theorem b1_lt2 (b : Bool) : decide (b1 b < 2) = true := by cases b <;> rfl
theorem b1_even (b : Bool) : (2 * b1 b % 2 == 0) = true := by cases b <;> rfl

theorem reads_ldx {op : Nat} {g : Guard} {t : LdxT} {m : MemArg} {sc : Scope} {acq : Bool} {hint : Hint} (ho : op < 64)
    (he : encode (Instr.ldx g t m sc acq hint) = encLMX op g t.code.2 m (xCtlW 0 sc.code (b1 acq) t.code.1 0 hint.code) [])
    (hw : (Instr.ldx g t m sc acq hint).words = 2 + m.lits)
    (hd : ∀ w l l2, fld w 25 6 = op → decodeLane w l l2 = decLdx w l l2)
    (hl : t.ok = true) : Reads (Instr.ldx g t m sc acq hint) := by
  have h0 := encG_lt g; have h1 := off_lt m.os; have h2 := mem_lt m; have h3 := m.k.isLt; have h4 := m.xb.isLt; have h5 := scope_lt sc
  have h6 := hint_lt hint; have h7 := ldx_lt t; have h8 := b1_lt acq
  refine Reads.of (he.trans rfl)
      (by rw [hw]; simp only [List.length_cons, List.length_append, List.length_nil, mem_len]; try omega) fun tail =>
      dec_lane (by simp only [bit, laneW, beq_eq_false_iff_ne]; omega) ?_
  rw [hd _ _ _ (by simp only [fld, laneW]; omega)]
  simp only [List.cons_append, List.nil_append, List.getD_cons_zero, List.getD_cons_succ]
  have e1 : fld (laneW op g (t.code.2 * 8192 + m.code)) 21 4 = encG g := by simp only [fld, laneW]; omega
  have e2 : fld (laneW op g (t.code.2 * 8192 + m.code)) 13 8 = t.code.2 := by simp only [fld, laneW]; omega
  have e3 : fld (xCtlW 0 sc.code (b1 acq) t.code.1 0 hint.code) 28 4 = 0 := by simp only [fld, xCtlW]; omega
  have e4 : fld (xCtlW 0 sc.code (b1 acq) t.code.1 0 hint.code) 25 3 = sc.code := by simp only [fld, xCtlW]; omega
  have e5 : fld (xCtlW 0 sc.code (b1 acq) t.code.1 0 hint.code) 20 3 = t.code.1 := by simp only [fld, xCtlW]; omega
  have e6 : fld (xCtlW 0 sc.code (b1 acq) t.code.1 0 hint.code) 12 8 = 0 := by simp only [fld, xCtlW]; omega
  have e7 : fld (xCtlW 0 sc.code (b1 acq) t.code.1 0 hint.code) 10 2 = hint.code := by simp only [fld, xCtlW]; omega
  have e8 : fld (xCtlW 0 sc.code (b1 acq) t.code.1 0 hint.code) 0 10 = 0 := by simp only [fld, xCtlW]; omega
  have e9 : fld (xCtlW 0 sc.code (b1 acq) t.code.1 0 hint.code) 23 2 = b1 acq := by simp only [fld, xCtlW]; omega
  have lx := ldx_enc t hl
  have lm : memF (laneW op g (t.code.2 * 8192 + m.code)) ((m.os.litw ++ tail).getD 0 0) = m :=
    mem_enc m _ _ (by simp only [fld, laneW, MemArg.code]; omega) (by simp only [fld, laneW, MemArg.code]; omega)
        (by simp only [fld, laneW, MemArg.code]; omega)
      (off_lit m.os _)
  simp only [e1, e2, e3, e4, e5, e6, e7, e8, e9, decLdx, guard_enc, lx, lm, scope_enc, hint_enc, b1_1, Dec.xCtl, b1_lt2, ap_ok]
  rfl

theorem reads_stx {op : Nat} {g : Guard} {t : StxT} {m : MemArg} {sc : Scope} {rel : Bool} {hint : Hint} (ht : t.ok = true) (ho : op < 64)
    (he : encode (Instr.stx g t m sc rel hint) = encLMX op g t.code.2 m (xCtlW 0 sc.code (2 * b1 rel) t.code.1 0 hint.code) t.litw)
    (hw : (Instr.stx g t m sc rel hint).words = 2 + (t.lits + m.lits))
    (hd : ∀ w l l2, fld w 25 6 = op → decodeLane w l l2 = decStx w l l2)
    (hl : t.lits + m.lits ≤ 1) : Reads (Instr.stx g t m sc rel hint) := by
  have h0 := encG_lt g; have h1 := off_lt m.os; have h2 := mem_lt m; have h3 := m.k.isLt; have h4 := m.xb.isLt; have h5 := scope_lt sc
  have h6 := hint_lt hint; have h7 := stx_lt t; have h8 := b1_lt rel
  refine Reads.of (he.trans rfl)
      (by rw [hw]; simp only [List.length_cons, List.length_append, List.length_nil, stx_len, mem_len]; try omega) fun tail =>
      dec_lane (by simp only [bit, laneW, beq_eq_false_iff_ne]; omega) ?_
  rw [hd _ _ _ (by simp only [fld, laneW]; omega)]
  simp only [List.cons_append, List.nil_append, List.getD_cons_zero, List.getD_cons_succ]
  have e1 : fld (laneW op g (t.code.2 * 8192 + m.code)) 21 4 = encG g := by simp only [fld, laneW]; omega
  have e2 : fld (laneW op g (t.code.2 * 8192 + m.code)) 13 8 = t.code.2 := by simp only [fld, laneW]; omega
  have e3 : fld (xCtlW 0 sc.code (2 * b1 rel) t.code.1 0 hint.code) 28 4 = 0 := by simp only [fld, xCtlW]; omega
  have e4 : fld (xCtlW 0 sc.code (2 * b1 rel) t.code.1 0 hint.code) 25 3 = sc.code := by simp only [fld, xCtlW]; omega
  have e5 : fld (xCtlW 0 sc.code (2 * b1 rel) t.code.1 0 hint.code) 20 3 = t.code.1 := by simp only [fld, xCtlW]; omega
  have e6 : fld (xCtlW 0 sc.code (2 * b1 rel) t.code.1 0 hint.code) 12 8 = 0 := by simp only [fld, xCtlW]; omega
  have e7 : fld (xCtlW 0 sc.code (2 * b1 rel) t.code.1 0 hint.code) 10 2 = hint.code := by simp only [fld, xCtlW]; omega
  have e8 : fld (xCtlW 0 sc.code (2 * b1 rel) t.code.1 0 hint.code) 0 10 = 0 := by simp only [fld, xCtlW]; omega
  have e9 : fld (xCtlW 0 sc.code (2 * b1 rel) t.code.1 0 hint.code) 23 2 = 2 * b1 rel := by simp only [fld, xCtlW]; omega
  have lx : stxTF t.code.1 t.code.2 ((t.litw ++ m.os.litw ++ tail).getD 0 0) = .ok t := by rw [List.append_assoc]; exact stx_enc t ht _
  have n := stx_one t m hl
  have eo : fld (laneW op g (t.code.2 * 8192 + m.code)) 4 3 = m.os.code := by simp only [fld, laneW, MemArg.code]; omega
  have lm : memF (laneW op g (t.code.2 * 8192 + m.code)) ((t.litw ++ m.os.litw ++ tail).getD 0 0) = m :=
    mem_enc m _ _ (by simp only [fld, laneW, MemArg.code]; omega) (by simp only [fld, laneW, MemArg.code]; omega)
        (by simp only [fld, laneW, MemArg.code]; omega)
      (off_lit2 t.litw m _ (by rw [stx_len]; exact hl))
  simp only [e1, e2, e3, e4, e5, e6, e7, e8, e9, decStx, guard_enc, lx, lm, eo, scope_enc, hint_enc, b1_2, Dec.xCtl, b1_even, n, ap_ok]
  rfl

theorem reads_atom {c : Guard → AtomT → MemArg → OrdArg → Instr} {op : Nat} {g : Guard} {t : AtomT} {m : MemArg} {oa : OrdArg} {aop mx : Nat} (hp : aop < 16) (ho : op < 64)
    (he : encode (c g t m oa) = encLMX op g t.code.2 m (xCtlW aop oa.scope.code oa.order.code t.code.1 0 oa.hint.code) [])
    (hw : (c g t m oa).words = 2 + m.lits)
    (hd : ∀ w l l2, fld w 25 6 = op → decodeLane w l l2 = decodeAtom w l l2)
    (ha : ∀ w l l2, fld l 28 4 = aop → decodeAtom w l l2 = decAtom c mx w l l2)
    (hl : t.anyOk = true)
    (hm : t.code.1 ≤ mx) : Reads (c g t m oa) := by
  have h0 := encG_lt g; have h1 := off_lt m.os; have h2 := mem_lt m; have h3 := m.k.isLt; have h4 := m.xb.isLt
  have h5 := scope_lt oa.scope; have h6 := hint_lt oa.hint; have h7 := order_lt oa.order; have h8 := atom_lt t
  refine Reads.of (he.trans rfl)
      (by rw [hw]; simp only [List.length_cons, List.length_append, List.length_nil, mem_len]; try omega) fun tail =>
      dec_lane (by simp only [bit, laneW, beq_eq_false_iff_ne]; omega) ?_
  rw [hd _ _ _ (by simp only [fld, laneW]; omega)]
  simp only [List.cons_append, List.nil_append, List.getD_cons_zero, List.getD_cons_succ]
  have e1 : fld (laneW op g (t.code.2 * 8192 + m.code)) 21 4 = encG g := by simp only [fld, laneW]; omega
  have e2 : fld (laneW op g (t.code.2 * 8192 + m.code)) 13 8 = t.code.2 := by simp only [fld, laneW]; omega
  have e3 : fld (xCtlW aop oa.scope.code oa.order.code t.code.1 0 oa.hint.code) 28 4 = aop := by simp only [fld, xCtlW]; omega
  have e4 : fld (xCtlW aop oa.scope.code oa.order.code t.code.1 0 oa.hint.code) 25 3 = oa.scope.code := by simp only [fld, xCtlW]; omega
  have e5 : fld (xCtlW aop oa.scope.code oa.order.code t.code.1 0 oa.hint.code) 23 2 = oa.order.code := by simp only [fld, xCtlW]; omega
  have e6 : fld (xCtlW aop oa.scope.code oa.order.code t.code.1 0 oa.hint.code) 20 3 = t.code.1 := by simp only [fld, xCtlW]; omega
  have e7 : fld (xCtlW aop oa.scope.code oa.order.code t.code.1 0 oa.hint.code) 10 2 = oa.hint.code := by simp only [fld, xCtlW]; omega
  have e8 : fld (xCtlW aop oa.scope.code oa.order.code t.code.1 0 oa.hint.code) 0 10 = 0 := by simp only [fld, xCtlW]; omega
  have e9 : fld (xCtlW aop oa.scope.code oa.order.code t.code.1 0 oa.hint.code) 12 8 = 0 := by simp only [fld, xCtlW]; omega
  have lx := atom_enc t hl
  have n1 : decide (t.code.1 ≤ mx) = true := decide_eq_true hm
  have lo : ordArgF (xCtlW aop oa.scope.code oa.order.code t.code.1 0 oa.hint.code) = .ok oa := by
    simp only [ordArgF, e4, e5, e7, scope_enc, order_enc, hint_enc, ap_ok]
  have lm : memF (laneW op g (t.code.2 * 8192 + m.code)) ((m.os.litw ++ tail).getD 0 0) = m :=
    mem_enc m _ _ (by simp only [fld, laneW, MemArg.code]; omega) (by simp only [fld, laneW, MemArg.code]; omega)
        (by simp only [fld, laneW, MemArg.code]; omega)
      (off_lit m.os _)
  simp only [e1, e2, e3, e4, e5, e6, e7, e8, e9, ha _ _ _ e3, decAtom, guard_enc, lx, lm, lo, n1, ap_ok]
  rfl

theorem reads_cas {op : Nat} {g : Guard} {t : AtomT} {m : MemArg} {oa : OrdArg} {c : CasC} {aop : Nat} (hp : aop < 16) (ho : op < 64)
    (he : encode (Instr.atomCas g t m oa c) = encLMX op g t.code.2 m (xCtlW aop oa.scope.code oa.order.code t.code.1 c.code oa.hint.code) c.litw)
    (hw : (Instr.atomCas g t m oa c).words = 2 + (m.lits + c.lits))
    (hd : ∀ w l l2, fld w 25 6 = op → decodeLane w l l2 = decodeAtom w l l2)
    (ha : ∀ w l l2, fld l 28 4 = aop → decodeAtom w l l2 = decCas w l l2)
    (ht : t.anyOk = true)
    (hf : c.fits t = true)
    (hl : c.lits + m.lits ≤ 1) : Reads (Instr.atomCas g t m oa c) := by
  have h0 := encG_lt g; have h1 := off_lt m.os; have h2 := mem_lt m; have h3 := m.k.isLt; have h4 := m.xb.isLt
  have h5 := scope_lt oa.scope; have h6 := hint_lt oa.hint; have h7 := order_lt oa.order; have h8 := atom_lt t; have h9 := cas_lt c
  refine Reads.of (he.trans rfl)
      (by rw [hw]; simp only [List.length_cons, List.length_append, List.length_nil, cas_len, mem_len]; try omega) fun tail =>
      dec_lane (by simp only [bit, laneW, beq_eq_false_iff_ne]; omega) ?_
  rw [hd _ _ _ (by simp only [fld, laneW]; omega)]
  simp only [List.cons_append, List.nil_append, List.getD_cons_zero, List.getD_cons_succ]
  have e1 : fld (laneW op g (t.code.2 * 8192 + m.code)) 21 4 = encG g := by simp only [fld, laneW]; omega
  have e2 : fld (laneW op g (t.code.2 * 8192 + m.code)) 13 8 = t.code.2 := by simp only [fld, laneW]; omega
  have e3 : fld (xCtlW aop oa.scope.code oa.order.code t.code.1 c.code oa.hint.code) 28 4 = aop := by simp only [fld, xCtlW]; omega
  have e4 : fld (xCtlW aop oa.scope.code oa.order.code t.code.1 c.code oa.hint.code) 25 3 = oa.scope.code := by
      simp only [fld, xCtlW]; omega
  have e5 : fld (xCtlW aop oa.scope.code oa.order.code t.code.1 c.code oa.hint.code) 23 2 = oa.order.code := by
      simp only [fld, xCtlW]; omega
  have e6 : fld (xCtlW aop oa.scope.code oa.order.code t.code.1 c.code oa.hint.code) 20 3 = t.code.1 := by simp only [fld, xCtlW]; omega
  have e7 : fld (xCtlW aop oa.scope.code oa.order.code t.code.1 c.code oa.hint.code) 10 2 = oa.hint.code := by
      simp only [fld, xCtlW]; omega
  have e8 : fld (xCtlW aop oa.scope.code oa.order.code t.code.1 c.code oa.hint.code) 0 10 = 0 := by simp only [fld, xCtlW]; omega
  have e9 : fld (xCtlW aop oa.scope.code oa.order.code t.code.1 c.code oa.hint.code) 12 8 = c.code := by simp only [fld, xCtlW]; omega
  have lx := atom_enc t ht
  have lo : ordArgF (xCtlW aop oa.scope.code oa.order.code t.code.1 c.code oa.hint.code) = .ok oa := by
    simp only [ordArgF, e4, e5, e7, scope_enc, order_enc, hint_enc, ap_ok]
  have lc : casCF t.code.1 c.code ((c.litw ++ m.os.litw ++ tail).getD 0 0) = .ok c := by rw [List.append_assoc]; exact cas_enc t c hf _
  have n := cas_one c m hl
  have eo : fld (laneW op g (t.code.2 * 8192 + m.code)) 4 3 = m.os.code := by simp only [fld, laneW, MemArg.code]; omega
  have lm : memF (laneW op g (t.code.2 * 8192 + m.code)) ((c.litw ++ m.os.litw ++ tail).getD 0 0) = m :=
    mem_enc m _ _ (by simp only [fld, laneW, MemArg.code]; omega) (by simp only [fld, laneW, MemArg.code]; omega)
        (by simp only [fld, laneW, MemArg.code]; omega)
      (off_lit2 c.litw m _ (by rw [cas_len]; exact hl))
  simp only [e1, e2, e3, e4, e5, e6, e7, e8, e9, ha _ _ _ e3, decCas, guard_enc, lx, lm, lo, lc, eo, n, ap_ok]
  rfl

theorem reads_atom1 {c : Guard → Dst8 → MemArg → OrdArg → Instr} {op : Nat} {g : Guard} {t : Dst8} {m : MemArg} {oa : OrdArg} {aop ty : Nat} (hp : aop < 16) (hy : ty < 8) (ho : op < 64)
    (he : encode (c g t m oa) = encLMX op g t.code m (xCtlW aop oa.scope.code oa.order.code ty 0 oa.hint.code) [])
    (hw : (c g t m oa).words = 2 + m.lits)
    (hd : ∀ w l l2, fld w 25 6 = op → decodeLane w l l2 = decodeAtom w l l2)
    (ha : ∀ w l l2, fld l 28 4 = aop → decodeAtom w l l2 = decAtom1 c ty w l l2) : Reads (c g t m oa) := by
  have h0 := encG_lt g; have h1 := off_lt m.os; have h2 := mem_lt m; have h3 := m.k.isLt; have h4 := m.xb.isLt
  have h5 := scope_lt oa.scope; have h6 := hint_lt oa.hint; have h7 := order_lt oa.order; have h8 := dst8_lt t
  refine Reads.of (he.trans rfl)
      (by rw [hw]; simp only [List.length_cons, List.length_append, List.length_nil, mem_len]; try omega) fun tail =>
      dec_lane (by simp only [bit, laneW, beq_eq_false_iff_ne]; omega) ?_
  rw [hd _ _ _ (by simp only [fld, laneW]; omega)]
  simp only [List.cons_append, List.nil_append, List.getD_cons_zero, List.getD_cons_succ]
  have e1 : fld (laneW op g (t.code * 8192 + m.code)) 21 4 = encG g := by simp only [fld, laneW]; omega
  have e2 : fld (laneW op g (t.code * 8192 + m.code)) 13 8 = t.code := by simp only [fld, laneW]; omega
  have e3 : fld (xCtlW aop oa.scope.code oa.order.code ty 0 oa.hint.code) 28 4 = aop := by simp only [fld, xCtlW]; omega
  have e4 : fld (xCtlW aop oa.scope.code oa.order.code ty 0 oa.hint.code) 25 3 = oa.scope.code := by simp only [fld, xCtlW]; omega
  have e5 : fld (xCtlW aop oa.scope.code oa.order.code ty 0 oa.hint.code) 23 2 = oa.order.code := by simp only [fld, xCtlW]; omega
  have e6 : fld (xCtlW aop oa.scope.code oa.order.code ty 0 oa.hint.code) 20 3 = ty := by simp only [fld, xCtlW]; omega
  have e7 : fld (xCtlW aop oa.scope.code oa.order.code ty 0 oa.hint.code) 10 2 = oa.hint.code := by simp only [fld, xCtlW]; omega
  have e8 : fld (xCtlW aop oa.scope.code oa.order.code ty 0 oa.hint.code) 0 10 = 0 := by simp only [fld, xCtlW]; omega
  have e9 : fld (xCtlW aop oa.scope.code oa.order.code ty 0 oa.hint.code) 12 8 = 0 := by simp only [fld, xCtlW]; omega
  have lo : ordArgF (xCtlW aop oa.scope.code oa.order.code ty 0 oa.hint.code) = .ok oa := by
    simp only [ordArgF, e4, e5, e7, scope_enc, order_enc, hint_enc, ap_ok]
  have lm : memF (laneW op g (t.code * 8192 + m.code)) ((m.os.litw ++ tail).getD 0 0) = m :=
    mem_enc m _ _ (by simp only [fld, laneW, MemArg.code]; omega) (by simp only [fld, laneW, MemArg.code]; omega)
        (by simp only [fld, laneW, MemArg.code]; omega)
      (off_lit m.os _)
  simp only [e1, e2, e3, e4, e5, e6, e7, e8, e9, ha _ _ _ e3, decAtom1, guard_enc, dst8_enc, lm, lo, ap_ok]
  simp [Dec.need]

theorem reads_GA {c : Guard → XReg → XReg → SrcB9 → Instr} {op : Nat} {g : Guard} {d a : XReg} {b : SrcB9} (ho : op < 64)
    (he : encode (c g d a b) = groupW op g (d.val * 32768 + a.val * 512 + b.code) :: b.litw)
    (hw : (c g d a b).words = 1 + b.lits)
    (hd : ∀ w l l2, fld w 25 6 = op → decodeGroup w l l2 = (decGA c w l l2).map .early) : Reads (c g d a b) := by
  have h0 := encG_lt g; have h1 := b9_lt b
  refine Reads.of (he.trans rfl)
      (by rw [hw]; simp only [List.length_cons, List.length_append, List.length_nil, b9_len]; try omega) fun tail =>
      dec_group (.early (c g d a b)) (by simp only [bit, groupW, beq_iff_eq]; omega) ?_ rfl
  rw [hd _ _ _ (by simp only [fld, groupW]; omega)]
  have e1 : fld (groupW op g (d.val * 32768 + a.val * 512 + b.code)) 21 4 = encG g := by simp only [fld, groupW]; omega
  have e2 : fld (groupW op g (d.val * 32768 + a.val * 512 + b.code)) 15 6 = d.val := by simp only [fld, groupW]; omega
  have e3 : fld (groupW op g (d.val * 32768 + a.val * 512 + b.code)) 9 6 = a.val := by simp only [fld, groupW]; omega
  have e4 : fld (groupW op g (d.val * 32768 + a.val * 512 + b.code)) 0 9 = b.code := by simp only [fld, groupW]; omega
  have lb : b9F b.code ((b.litw ++ tail).getD 0 0) ((b.litw ++ tail).getD 1 0) = .ok b :=
    b9_enc b _ _ (by rintro w rfl; rfl) (by rintro w rfl; exact ⟨rfl, rfl⟩)
  simp only [e1, e2, e3, e4, decGA, guard_enc, xr_enc, lb, ap_ok, map_ok, need_ok, beq_self_eq_true, Bool.not_false]

theorem reads_GU {c : Guard → XReg → XReg → Instr} {op : Nat} {g : Guard} {d a : XReg} {fn : Nat} (hf : fn < 512) (ho : op < 64)
    (he : encode (c g d a) = [groupW op g (d.val * 32768 + a.val * 512 + fn)])
    (hw : (c g d a).words = 1)
    (hd : ∀ w l l2, fld w 25 6 = op → fld w 0 9 = fn → decodeGroup w l l2 = (decGU c w).map .early) : Reads (c g d a) := by
  have h0 := encG_lt g
  refine Reads.of (he.trans rfl) (by rw [hw]; simp only [List.length_cons, List.length_append, List.length_nil]; try omega) fun tail =>
      dec_group (.early (c g d a)) (by simp only [bit, groupW, beq_iff_eq]; omega) ?_ rfl
  have e1 : fld (groupW op g (d.val * 32768 + a.val * 512 + fn)) 21 4 = encG g := by simp only [fld, groupW]; omega
  have e2 : fld (groupW op g (d.val * 32768 + a.val * 512 + fn)) 15 6 = d.val := by simp only [fld, groupW]; omega
  have e3 : fld (groupW op g (d.val * 32768 + a.val * 512 + fn)) 9 6 = a.val := by simp only [fld, groupW]; omega
  have e4 : fld (groupW op g (d.val * 32768 + a.val * 512 + fn)) 0 9 = fn := by simp only [fld, groupW]; omega
  rw [hd _ _ _ (by simp only [fld, groupW]; omega) e4]
  simp only [e1, e2, e3, e4, decGU, guard_enc, xr_enc, ap_ok, map_ok, need_ok, beq_self_eq_true, Bool.not_false]

theorem reads_GPI {c : Guard → PReg → ICond → XReg → SrcB7 → Instr} {op : Nat} {g : Guard} {p : PReg} {cc : ICond} {a : XReg} {b : SrcB7} (ho : op < 64)
    (he : encode (c g p cc a b) = [groupW op g (p.val * 131072 + cc.code * 8192 + a.val * 128 + b.code)])
    (hw : (c g p cc a b).words = 1)
    (hd : ∀ w l l2, fld w 25 6 = op → decodeGroup w l l2 = (decGPI c w).map .early) : Reads (c g p cc a b) := by
  have h0 := encG_lt g; have h1 := icond_lt cc; have h2 := b7_lt b
  refine Reads.of (he.trans rfl) (by rw [hw]; simp only [List.length_cons, List.length_append, List.length_nil]; try omega) fun tail =>
      dec_group (.early (c g p cc a b)) (by simp only [bit, groupW, beq_iff_eq]; omega) ?_ rfl
  rw [hd _ _ _ (by simp only [fld, groupW]; omega)]
  have e1 : fld (groupW op g (p.val * 131072 + cc.code * 8192 + a.val * 128 + b.code)) 21 4 = encG g := by simp only [fld, groupW]; omega
  have e2 : fld (groupW op g (p.val * 131072 + cc.code * 8192 + a.val * 128 + b.code)) 17 4 = p.val := by simp only [fld, groupW]; omega
  have e3 : fld (groupW op g (p.val * 131072 + cc.code * 8192 + a.val * 128 + b.code)) 13 4 = cc.code := by simp only [fld, groupW]; omega
  have e4 : fld (groupW op g (p.val * 131072 + cc.code * 8192 + a.val * 128 + b.code)) 7 6 = a.val := by simp only [fld, groupW]; omega
  have e5 : fld (groupW op g (p.val * 131072 + cc.code * 8192 + a.val * 128 + b.code)) 0 7 = b.code := by simp only [fld, groupW]; omega
  simp only [e1, e2, e3, e4, e5, decGPI, guard_enc, pred_enc, icond_enc, xr_enc, b7_enc, ap_ok, map_ok, need_ok, beq_self_eq_true,
      Bool.not_false]

theorem reads_GPF {c : Guard → PReg → FCond → XReg → SrcB7 → Instr} {op : Nat} {g : Guard} {p : PReg} {cc : FCond} {a : XReg} {b : SrcB7} (ho : op < 64)
    (he : encode (c g p cc a b) = [groupW op g (p.val * 131072 + cc.code * 8192 + a.val * 128 + b.code)])
    (hw : (c g p cc a b).words = 1)
    (hd : ∀ w l l2, fld w 25 6 = op → decodeGroup w l l2 = (decGPF c w).map .early) : Reads (c g p cc a b) := by
  have h0 := encG_lt g; have h1 := fcond_lt cc; have h2 := b7_lt b
  refine Reads.of (he.trans rfl) (by rw [hw]; simp only [List.length_cons, List.length_append, List.length_nil]; try omega) fun tail =>
      dec_group (.early (c g p cc a b)) (by simp only [bit, groupW, beq_iff_eq]; omega) ?_ rfl
  rw [hd _ _ _ (by simp only [fld, groupW]; omega)]
  have e1 : fld (groupW op g (p.val * 131072 + cc.code * 8192 + a.val * 128 + b.code)) 21 4 = encG g := by simp only [fld, groupW]; omega
  have e2 : fld (groupW op g (p.val * 131072 + cc.code * 8192 + a.val * 128 + b.code)) 17 4 = p.val := by simp only [fld, groupW]; omega
  have e3 : fld (groupW op g (p.val * 131072 + cc.code * 8192 + a.val * 128 + b.code)) 13 4 = cc.code := by simp only [fld, groupW]; omega
  have e4 : fld (groupW op g (p.val * 131072 + cc.code * 8192 + a.val * 128 + b.code)) 7 6 = a.val := by simp only [fld, groupW]; omega
  have e5 : fld (groupW op g (p.val * 131072 + cc.code * 8192 + a.val * 128 + b.code)) 0 7 = b.code := by simp only [fld, groupW]; omega
  simp only [e1, e2, e3, e4, e5, decGPF, guard_enc, pred_enc, fcond_enc, xr_enc, b7_enc, ap_ok, map_ok, need_ok, beq_self_eq_true,
      Bool.not_false]

theorem reads_MVS {c : Guard → XReg → Src8 → Instr} {op : Nat} {g : Guard} {x : XReg} {a : Src8} {fn : Nat} (hf : fn < 128) (ho : op < 64)
    (he : encode (c g x a) = groupW op g (x.val * 32768 + a.code * 128 + fn) :: a.litw)
    (hw : (c g x a).words = 1 + a.lits)
    (hd : ∀ w l l2, fld w 25 6 = op → fld w 0 7 = fn →
        decodeGroup w l l2 = ((((Dec.ok c).ap (guardF (fld w 21 4))).ap (.ok (xr (fld w 15 6)))).ap (src8F (fld w 7 8) l)).map .early) : Reads (c g x a) := by
  have h0 := encG_lt g; have h1 := src8_lt a
  refine Reads.of (he.trans rfl)
      (by rw [hw]; simp only [List.length_cons, List.length_append, List.length_nil, src8_len]; try omega) fun tail =>
      dec_group (.early (c g x a)) (by simp only [bit, groupW, beq_iff_eq]; omega) ?_ rfl
  have e1 : fld (groupW op g (x.val * 32768 + a.code * 128 + fn)) 21 4 = encG g := by simp only [fld, groupW]; omega
  have e2 : fld (groupW op g (x.val * 32768 + a.code * 128 + fn)) 15 6 = x.val := by simp only [fld, groupW]; omega
  have e3 : fld (groupW op g (x.val * 32768 + a.code * 128 + fn)) 7 8 = a.code := by simp only [fld, groupW]; omega
  have e4 : fld (groupW op g (x.val * 32768 + a.code * 128 + fn)) 0 7 = fn := by simp only [fld, groupW]; omega
  rw [hd _ _ _ (by simp only [fld, groupW]; omega) e4]
  have la : src8F a.code ((a.litw ++ tail).getD 0 0) = .ok a := src8_enc a _ (src8_lit a _)
  simp only [e1, e2, e3, e4, guard_enc, xr_enc, la, ap_ok, map_ok, need_ok, beq_self_eq_true, Bool.not_false]

theorem reads_MVD {c : Guard → Dst8 → XReg → Instr} {op : Nat} {g : Guard} {x : XReg} {d : Dst8} {fn : Nat} (hf : fn < 128) (ho : op < 64)
    (he : encode (c g d x) = [groupW op g (x.val * 32768 + d.code * 128 + fn)])
    (hw : (c g d x).words = 1)
    (hd : ∀ w l l2, fld w 25 6 = op → fld w 0 7 = fn →
        decodeGroup w l l2 = ((((Dec.ok c).ap (guardF (fld w 21 4))).ap (dst8F (fld w 7 8))).ap (.ok (xr (fld w 15 6)))).map .early) : Reads (c g d x) := by
  have h0 := encG_lt g; have h1 := dst8_lt d
  refine Reads.of (he.trans rfl) (by rw [hw]; simp only [List.length_cons, List.length_append, List.length_nil]; try omega) fun tail =>
      dec_group (.early (c g d x)) (by simp only [bit, groupW, beq_iff_eq]; omega) ?_ rfl
  have e1 : fld (groupW op g (x.val * 32768 + d.code * 128 + fn)) 21 4 = encG g := by simp only [fld, groupW]; omega
  have e2 : fld (groupW op g (x.val * 32768 + d.code * 128 + fn)) 15 6 = x.val := by simp only [fld, groupW]; omega
  have e3 : fld (groupW op g (x.val * 32768 + d.code * 128 + fn)) 7 8 = d.code := by simp only [fld, groupW]; omega
  have e4 : fld (groupW op g (x.val * 32768 + d.code * 128 + fn)) 0 7 = fn := by simp only [fld, groupW]; omega
  rw [hd _ _ _ (by simp only [fld, groupW]; omega) e4]
  simp only [e1, e2, e3, e4, guard_enc, xr_enc, dst8_enc, ap_ok, map_ok, need_ok, beq_self_eq_true, Bool.not_false]

theorem reads_MVP {c : Guard → XReg → VReg → Instr} {op : Nat} {g : Guard} {x : XReg} {v : VReg} {fn : Nat} (hf : fn < 128) (ho : op < 64)
    (he : encode (c g x v) = [groupW op g (x.val * 32768 + v.val * 128 + fn)])
    (hw : (c g x v).words = 1)
    (hd : ∀ w l l2, fld w 25 6 = op → fld w 0 7 = fn →
        decodeGroup w l l2 = ((((Dec.ok c).ap (guardF (fld w 21 4))).ap (.ok (xr (fld w 15 6)))).ap (pairF (fld w 7 8))).map .early)
    (hl : v.val % 2 = 0) : Reads (c g x v) := by
  have h0 := encG_lt g
  refine Reads.of (he.trans rfl) (by rw [hw]; simp only [List.length_cons, List.length_append, List.length_nil]; try omega) fun tail =>
      dec_group (.early (c g x v)) (by simp only [bit, groupW, beq_iff_eq]; omega) ?_ rfl
  have e1 : fld (groupW op g (x.val * 32768 + v.val * 128 + fn)) 21 4 = encG g := by simp only [fld, groupW]; omega
  have e2 : fld (groupW op g (x.val * 32768 + v.val * 128 + fn)) 15 6 = x.val := by simp only [fld, groupW]; omega
  have e3 : fld (groupW op g (x.val * 32768 + v.val * 128 + fn)) 7 8 = v.val := by simp only [fld, groupW]; omega
  have e4 : fld (groupW op g (x.val * 32768 + v.val * 128 + fn)) 0 7 = fn := by simp only [fld, groupW]; omega
  rw [hd _ _ _ (by simp only [fld, groupW]; omega) e4]
  simp only [e1, e2, e3, e4, guard_enc, xr_enc, pair_enc v hl, ap_ok, map_ok, need_ok, beq_self_eq_true, Bool.not_false]

theorem reads_MVQ {c : Guard → VReg → XReg → Instr} {op : Nat} {g : Guard} {x : XReg} {v : VReg} {fn : Nat} (hf : fn < 128) (ho : op < 64)
    (he : encode (c g v x) = [groupW op g (x.val * 32768 + v.val * 128 + fn)])
    (hw : (c g v x).words = 1)
    (hd : ∀ w l l2, fld w 25 6 = op → fld w 0 7 = fn →
        decodeGroup w l l2 = ((((Dec.ok c).ap (guardF (fld w 21 4))).ap (pairF (fld w 7 8))).ap (.ok (xr (fld w 15 6)))).map .early)
    (hl : v.val % 2 = 0) : Reads (c g v x) := by
  have h0 := encG_lt g
  refine Reads.of (he.trans rfl) (by rw [hw]; simp only [List.length_cons, List.length_append, List.length_nil]; try omega) fun tail =>
      dec_group (.early (c g v x)) (by simp only [bit, groupW, beq_iff_eq]; omega) ?_ rfl
  have e1 : fld (groupW op g (x.val * 32768 + v.val * 128 + fn)) 21 4 = encG g := by simp only [fld, groupW]; omega
  have e2 : fld (groupW op g (x.val * 32768 + v.val * 128 + fn)) 15 6 = x.val := by simp only [fld, groupW]; omega
  have e3 : fld (groupW op g (x.val * 32768 + v.val * 128 + fn)) 7 8 = v.val := by simp only [fld, groupW]; omega
  have e4 : fld (groupW op g (x.val * 32768 + v.val * 128 + fn)) 0 7 = fn := by simp only [fld, groupW]; omega
  rw [hd _ _ _ (by simp only [fld, groupW]; omega) e4]
  simp only [e1, e2, e3, e4, guard_enc, xr_enc, pair_enc v hl, ap_ok, map_ok, need_ok, beq_self_eq_true, Bool.not_false]

theorem reads_GM {c : Guard → XReg → XReg → BitVec 9 → Instr} {op : Nat} {g : Guard} {d a : XReg} {k : BitVec 9} (ho : op < 64)
    (he : encode (c g d a k) = [groupW op g (d.val * 32768 + a.val * 512 + k.toNat)])
    (hw : (c g d a k).words = 1)
    (hd : ∀ w l l2, fld w 25 6 = op → decodeGroup w l l2 = (decGM c w).map .early) : Reads (c g d a k) := by
  have h0 := encG_lt g; have h1 := k.isLt
  refine Reads.of (he.trans rfl) (by rw [hw]; simp only [List.length_cons, List.length_append, List.length_nil]; try omega) fun tail =>
      dec_group (.early (c g d a k)) (by simp only [bit, groupW, beq_iff_eq]; omega) ?_ rfl
  rw [hd _ _ _ (by simp only [fld, groupW]; omega)]
  have e1 : fld (groupW op g (d.val * 32768 + a.val * 512 + k.toNat)) 21 4 = encG g := by simp only [fld, groupW]; omega
  have e2 : fld (groupW op g (d.val * 32768 + a.val * 512 + k.toNat)) 15 6 = d.val := by simp only [fld, groupW]; omega
  have e3 : fld (groupW op g (d.val * 32768 + a.val * 512 + k.toNat)) 9 6 = a.val := by simp only [fld, groupW]; omega
  have e4 : fld (groupW op g (d.val * 32768 + a.val * 512 + k.toNat)) 0 9 = k.toNat := by simp only [fld, groupW]; omega
  simp only [e1, e2, e3, e4, decGM, guard_enc, xr_enc, BitVec.ofNat_toNat, BitVec.setWidth_eq, ap_ok, map_ok, need_ok,
      beq_self_eq_true, Bool.not_false]

theorem reads_GB {c : Guard → BitVec 21 → Instr} {op : Nat} {g : Guard} {k : BitVec 21} (ho : op < 64)
    (he : encode (c g k) = [groupW op g (k.toNat)])
    (hw : (c g k).words = 1)
    (hd : ∀ w l l2, fld w 25 6 = op → decodeGroup w l l2 = (decGB c w).map .early) : Reads (c g k) := by
  have h0 := encG_lt g; have h1 := k.isLt
  refine Reads.of (he.trans rfl) (by rw [hw]; simp only [List.length_cons, List.length_append, List.length_nil]; try omega) fun tail =>
      dec_group (.early (c g k)) (by simp only [bit, groupW, beq_iff_eq]; omega) ?_ rfl
  rw [hd _ _ _ (by simp only [fld, groupW]; omega)]
  have e1 : fld (groupW op g (k.toNat)) 21 4 = encG g := by simp only [fld, groupW]; omega
  have e2 : fld (groupW op g (k.toNat)) 0 21 = k.toNat := by simp only [fld, groupW]; omega
  simp only [e1, e2, decGB, guard_enc, BitVec.ofNat_toNat, BitVec.setWidth_eq, ap_ok, map_ok, need_ok, beq_self_eq_true, Bool.not_false]

theorem reads_A {c : Guard → XReg → Instr} {op : Nat} {g : Guard} {a : XReg} (ho : op < 64)
    (he : encode (c g a) = [groupW op g (a.val * 512)])
    (hw : (c g a).words = 1)
    (hd : ∀ w l l2, fld w 25 6 = op → decodeGroup w l l2 = (decA c w).map .early) : Reads (c g a) := by
  have h0 := encG_lt g
  refine Reads.of (he.trans rfl) (by rw [hw]; simp only [List.length_cons, List.length_append, List.length_nil]; try omega) fun tail =>
      dec_group (.early (c g a)) (by simp only [bit, groupW, beq_iff_eq]; omega) ?_ rfl
  rw [hd _ _ _ (by simp only [fld, groupW]; omega)]
  have e1 : fld (groupW op g (a.val * 512)) 21 4 = encG g := by simp only [fld, groupW]; omega
  have e2 : fld (groupW op g (a.val * 512)) 9 6 = a.val := by simp only [fld, groupW]; omega
  have e3 : fld (groupW op g (a.val * 512)) 15 6 = 0 := by simp only [fld, groupW]; omega
  have e4 : fld (groupW op g (a.val * 512)) 0 9 = 0 := by simp only [fld, groupW]; omega
  simp only [e1, e2, e3, e4, decA, guard_enc, xr_enc, ap_ok, map_ok, need_ok, beq_self_eq_true, Bool.not_false]

theorem reads_G0 {c : Guard → Instr} {op : Nat} {g : Guard}  (ho : op < 64)
    (he : encode (c g) = [groupW op g (0)])
    (hw : (c g).words = 1)
    (hd : ∀ w l l2, fld w 25 6 = op → decodeGroup w l l2 = (decG0 c w).map .early) : Reads (c g) := by
  have h0 := encG_lt g
  refine Reads.of (he.trans rfl) (by rw [hw]; simp only [List.length_cons, List.length_append, List.length_nil]; try omega) fun tail =>
      dec_group (.early (c g)) (by simp only [bit, groupW, beq_iff_eq]; omega) ?_ rfl
  rw [hd _ _ _ (by simp only [fld, groupW]; omega)]
  have e1 : fld (groupW op g (0)) 21 4 = encG g := by simp only [fld, groupW]; omega
  have e2 : fld (groupW op g (0)) 0 21 = 0 := by simp only [fld, groupW]; omega
  simp only [e1, e2, decG0, guard_enc, ap_ok, map_ok, need_ok, beq_self_eq_true, Bool.not_false]

theorem reads_trap {op : Nat} {g : Guard} {n : BitVec 8} (ho : op < 64)
    (he : encode (Instr.trap g n) = [groupW op g (n.toNat)])
    (hw : (Instr.trap g n).words = 1)
    (hd : ∀ w l l2, fld w 25 6 = op → decodeGroup w l l2 = (decTrap w).map .early) : Reads (Instr.trap g n) := by
  have h0 := encG_lt g; have h1 := n.isLt
  refine Reads.of (he.trans rfl) (by rw [hw]; simp only [List.length_cons, List.length_append, List.length_nil]; try omega) fun tail =>
      dec_group (.early (Instr.trap g n)) (by simp only [bit, groupW, beq_iff_eq]; omega) ?_ rfl
  rw [hd _ _ _ (by simp only [fld, groupW]; omega)]
  have e1 : fld (groupW op g (n.toNat)) 21 4 = encG g := by simp only [fld, groupW]; omega
  have e2 : fld (groupW op g (n.toNat)) 0 8 = n.toNat := by simp only [fld, groupW]; omega
  have e3 : fld (groupW op g (n.toNat)) 0 15 = n.toNat := by simp only [fld, groupW]; omega
  have e4 : fld (groupW op g (n.toNat)) 15 6 = 0 := by simp only [fld, groupW]; omega
  have n1 : decide (n.toNat < 256) = true := decide_eq_true (by omega)
  simp only [e1, e2, e3, e4, decTrap, guard_enc, n1, BitVec.ofNat_toNat, BitVec.setWidth_eq, ap_ok, map_ok, need_ok, beq_self_eq_true,
      Bool.not_false]

theorem reads_GS {c : Guard → XReg → BitVec 15 → Instr} {op : Nat} {g : Guard} {d : XReg} {k : BitVec 15} (ho : op < 64)
    (he : encode (c g d k) = [groupW op g (d.val * 32768 + k.toNat)])
    (hw : (c g d k).words = 1)
    (hd : ∀ w l l2, fld w 25 6 = op → decodeGroup w l l2 = (decGS c w).map .early) : Reads (c g d k) := by
  have h0 := encG_lt g; have h1 := k.isLt
  refine Reads.of (he.trans rfl) (by rw [hw]; simp only [List.length_cons, List.length_append, List.length_nil]; try omega) fun tail =>
      dec_group (.early (c g d k)) (by simp only [bit, groupW, beq_iff_eq]; omega) ?_ rfl
  rw [hd _ _ _ (by simp only [fld, groupW]; omega)]
  have e1 : fld (groupW op g (d.val * 32768 + k.toNat)) 21 4 = encG g := by simp only [fld, groupW]; omega
  have e2 : fld (groupW op g (d.val * 32768 + k.toNat)) 15 6 = d.val := by simp only [fld, groupW]; omega
  have e3 : fld (groupW op g (d.val * 32768 + k.toNat)) 0 15 = k.toNat := by simp only [fld, groupW]; omega
  simp only [e1, e2, e3, decGS, guard_enc, xr_enc, BitVec.ofNat_toNat, BitVec.setWidth_eq, ap_ok, map_ok, need_ok, beq_self_eq_true,
      Bool.not_false]

theorem reads_shape {c : Guard → XReg → VXReg → Instr} {op : Nat} {g : Guard} {d : XReg} {r : VXReg} {fn : Nat} (hf : fn < 128) (ho : op < 64)
    (he : encode (c g d r) = [groupW op g (d.val * 32768 + r.code * 128 + fn)])
    (hw : (c g d r).words = 1)
    (hd : ∀ w l l2, fld w 25 6 = op → fld w 0 7 = fn →
        decodeGroup w l l2 = ((((Dec.ok c).ap (guardF (fld w 21 4))).ap (.ok (xr (fld w 15 6)))).ap (vxF (fld w 7 8))).map .early) : Reads (c g d r) := by
  have h0 := encG_lt g; have h1 := vx_lt r
  refine Reads.of (he.trans rfl) (by rw [hw]; simp only [List.length_cons, List.length_append, List.length_nil]; try omega) fun tail =>
      dec_group (.early (c g d r)) (by simp only [bit, groupW, beq_iff_eq]; omega) ?_ rfl
  have e1 : fld (groupW op g (d.val * 32768 + r.code * 128 + fn)) 21 4 = encG g := by simp only [fld, groupW]; omega
  have e2 : fld (groupW op g (d.val * 32768 + r.code * 128 + fn)) 15 6 = d.val := by simp only [fld, groupW]; omega
  have e3 : fld (groupW op g (d.val * 32768 + r.code * 128 + fn)) 7 8 = r.code := by simp only [fld, groupW]; omega
  have e4 : fld (groupW op g (d.val * 32768 + r.code * 128 + fn)) 0 7 = fn := by simp only [fld, groupW]; omega
  rw [hd _ _ _ (by simp only [fld, groupW]; omega) e4]
  simp only [e1, e2, e3, e4, guard_enc, xr_enc, vx_enc, ap_ok, map_ok, need_ok, beq_self_eq_true, Bool.not_false]

theorem reads_waitc {op : Nat} {g : Guard} {la : BitVec 6} {lb lc ld : BitVec 5} (ho : op < 64)
    (he : encode (Instr.waitc g la lb lc ld) = [groupW op g (la.toNat * 32768 + lb.toNat * 1024 + lc.toNat * 32 + ld.toNat)])
    (hw : (Instr.waitc g la lb lc ld).words = 1)
    (hd : ∀ w l l2, fld w 25 6 = op → decodeGroup w l l2 = (decWaitc w).map .early) : Reads (Instr.waitc g la lb lc ld) := by
  have h0 := encG_lt g; have h1 := la.isLt; have h2 := lb.isLt; have h3 := lc.isLt; have h4 := ld.isLt
  refine Reads.of (he.trans rfl) (by rw [hw]; simp only [List.length_cons, List.length_append, List.length_nil]; try omega) fun tail =>
      dec_group (.early (Instr.waitc g la lb lc ld)) (by simp only [bit, groupW, beq_iff_eq]; omega) ?_ rfl
  rw [hd _ _ _ (by simp only [fld, groupW]; omega)]
  have e1 : fld (groupW op g (la.toNat * 32768 + lb.toNat * 1024 + lc.toNat * 32 + ld.toNat)) 21 4 = encG g := by
      simp only [fld, groupW]; omega
  have e2 : fld (groupW op g (la.toNat * 32768 + lb.toNat * 1024 + lc.toNat * 32 + ld.toNat)) 15 6 = la.toNat := by
      simp only [fld, groupW]; omega
  have e3 : fld (groupW op g (la.toNat * 32768 + lb.toNat * 1024 + lc.toNat * 32 + ld.toNat)) 10 5 = lb.toNat := by
      simp only [fld, groupW]; omega
  have e4 : fld (groupW op g (la.toNat * 32768 + lb.toNat * 1024 + lc.toNat * 32 + ld.toNat)) 5 5 = lc.toNat := by
      simp only [fld, groupW]; omega
  have e5 : fld (groupW op g (la.toNat * 32768 + lb.toNat * 1024 + lc.toNat * 32 + ld.toNat)) 0 5 = ld.toNat := by
      simp only [fld, groupW]; omega
  simp only [e1, e2, e3, e4, e5, decWaitc, guard_enc, BitVec.ofNat_toNat, BitVec.setWidth_eq, ap_ok, map_ok, need_ok, beq_self_eq_true,
      Bool.not_false]

theorem reads_fence {op : Nat} {g : Guard} {sc : Scope} {k : BitVec 4} (ho : op < 64)
    (he : encode (Instr.fence g sc k) = [groupW op g (sc.code * 262144 + k.toNat * 16384)])
    (hw : (Instr.fence g sc k).words = 1)
    (hd : ∀ w l l2, fld w 25 6 = op → decodeGroup w l l2 = (decFence w).map .early)
    (hl : k ≠ 0) : Reads (Instr.fence g sc k) := by
  have h0 := encG_lt g; have h1 := scope_lt sc; have h2 := k.isLt
  refine Reads.of (he.trans rfl) (by rw [hw]; simp only [List.length_cons, List.length_append, List.length_nil]; try omega) fun tail =>
      dec_group (.early (Instr.fence g sc k)) (by simp only [bit, groupW, beq_iff_eq]; omega) ?_ rfl
  rw [hd _ _ _ (by simp only [fld, groupW]; omega)]
  have e1 : fld (groupW op g (sc.code * 262144 + k.toNat * 16384)) 21 4 = encG g := by simp only [fld, groupW]; omega
  have e2 : fld (groupW op g (sc.code * 262144 + k.toNat * 16384)) 18 3 = sc.code := by simp only [fld, groupW]; omega
  have e3 : fld (groupW op g (sc.code * 262144 + k.toNat * 16384)) 14 4 = k.toNat := by simp only [fld, groupW]; omega
  have e4 : fld (groupW op g (sc.code * 262144 + k.toNat * 16384)) 0 14 = 0 := by simp only [fld, groupW]; omega
  have n1 : (k.toNat != 0) = true := by
    simp only [bne_iff_ne, ne_eq]; intro e; exact hl (BitVec.eq_of_toNat_eq e)
  simp only [e1, e2, e3, e4, decFence, guard_enc, scope_enc, n1, BitVec.ofNat_toNat, BitVec.setWidth_eq, ap_ok, map_ok, need_ok,
      beq_self_eq_true, Bool.not_false]

theorem reads_ftok {op : Nat} {g : Guard} {d : XReg} {sc : Scope} {k : BitVec 6} (ho : op < 64)
    (he : encode (Instr.ftok g d sc k) = [groupW op g (d.val * 32768 + sc.code * 4096 + k.toNat * 64)])
    (hw : (Instr.ftok g d sc k).words = 1)
    (hd : ∀ w l l2, fld w 25 6 = op → decodeGroup w l l2 = (decFtok w).map .early)
    (hl : k ≠ 0) : Reads (Instr.ftok g d sc k) := by
  have h0 := encG_lt g; have h1 := scope_lt sc; have h2 := k.isLt
  refine Reads.of (he.trans rfl) (by rw [hw]; simp only [List.length_cons, List.length_append, List.length_nil]; try omega) fun tail =>
      dec_group (.early (Instr.ftok g d sc k)) (by simp only [bit, groupW, beq_iff_eq]; omega) ?_ rfl
  rw [hd _ _ _ (by simp only [fld, groupW]; omega)]
  have e1 : fld (groupW op g (d.val * 32768 + sc.code * 4096 + k.toNat * 64)) 21 4 = encG g := by simp only [fld, groupW]; omega
  have e2 : fld (groupW op g (d.val * 32768 + sc.code * 4096 + k.toNat * 64)) 15 6 = d.val := by simp only [fld, groupW]; omega
  have e3 : fld (groupW op g (d.val * 32768 + sc.code * 4096 + k.toNat * 64)) 12 3 = sc.code := by simp only [fld, groupW]; omega
  have e4 : fld (groupW op g (d.val * 32768 + sc.code * 4096 + k.toNat * 64)) 6 6 = k.toNat := by simp only [fld, groupW]; omega
  have e5 : fld (groupW op g (d.val * 32768 + sc.code * 4096 + k.toNat * 64)) 0 6 = 0 := by simp only [fld, groupW]; omega
  have n1 : (k.toNat != 0) = true := by
    simp only [bne_iff_ne, ne_eq]; intro e; exact hl (BitVec.eq_of_toNat_eq e)
  simp only [e1, e2, e3, e4, e5, decFtok, guard_enc, xr_enc, scope_enc, n1, BitVec.ofNat_toNat, BitVec.setWidth_eq, ap_ok, map_ok,
      need_ok, beq_self_eq_true, Bool.not_false]

theorem reads_bar {op : Nat} {g : Guard} {cl : Bool} {i : Fin 16} {k : Option (Fin 63)} (ho : op < 64)
    (he : encode (Instr.bar g cl i k) = [groupW op g ((1 + 2 * b1 cl) * 262144 + i.val * 16384 + encC63 k * 256)])
    (hw : (Instr.bar g cl i k).words = 1)
    (hd : ∀ w l l2, fld w 25 6 = op → decodeGroup w l l2 = (decBar w).map .early) : Reads (Instr.bar g cl i k) := by
  have h0 := encG_lt g; have h1 := b1_lt cl; have h2 := c63_lt k
  refine Reads.of (he.trans rfl) (by rw [hw]; simp only [List.length_cons, List.length_append, List.length_nil]; try omega) fun tail =>
      dec_group (.early (Instr.bar g cl i k)) (by simp only [bit, groupW, beq_iff_eq]; omega) ?_ rfl
  rw [hd _ _ _ (by simp only [fld, groupW]; omega)]
  have e1 : fld (groupW op g ((1 + 2 * b1 cl) * 262144 + i.val * 16384 + encC63 k * 256)) 21 4 = encG g := by
      simp only [fld, groupW]; omega
  have e2 : fld (groupW op g ((1 + 2 * b1 cl) * 262144 + i.val * 16384 + encC63 k * 256)) 18 3 = 1 + 2 * b1 cl := by
      simp only [fld, groupW]; omega
  have e3 : fld (groupW op g ((1 + 2 * b1 cl) * 262144 + i.val * 16384 + encC63 k * 256)) 14 4 = i.val := by
      simp only [fld, groupW]; omega
  have e4 : fld (groupW op g ((1 + 2 * b1 cl) * 262144 + i.val * 16384 + encC63 k * 256)) 8 6 = encC63 k := by
      simp only [fld, groupW]; omega
  have e5 : fld (groupW op g ((1 + 2 * b1 cl) * 262144 + i.val * 16384 + encC63 k * 256)) 0 8 = 0 := by simp only [fld, groupW]; omega
  have lk : (if encC63 k = 63 then none else some (Fin.ofNat 63 (encC63 k))) = k := c63_enc k
  have li : Fin.ofNat 16 i.val = i := by simp
  have n1 : (1 + 2 * b1 cl == 3) = cl := by cases cl <;> rfl
  have n2 : (1 + 2 * b1 cl == 1 || cl) = true := by cases cl <;> rfl
  simp only [e1, e2, e3, e4, e5, decBar, guard_enc, lk, li, n1, n2, ap_ok, map_ok, need_ok, beq_self_eq_true, Bool.not_false]

theorem reads_ksetCount {op : Nat} {g : Guard} {k : Fin 8} {cl : Bool} {a : XReg} (ho : op < 64)
    (he : encode (Instr.ksetCount g k cl a) = [groupW op g (k.val * 262144 + b1 cl * 131072 + a.val * 512)])
    (hw : (Instr.ksetCount g k cl a).words = 1)
    (hd : ∀ w l l2, fld w 25 6 = op → decodeGroup w l l2 = (decKset w).map .early) : Reads (Instr.ksetCount g k cl a) := by
  have h0 := encG_lt g; have h1 := b1_lt cl
  refine Reads.of (he.trans rfl) (by rw [hw]; simp only [List.length_cons, List.length_append, List.length_nil]; try omega) fun tail =>
      dec_group (.early (Instr.ksetCount g k cl a)) (by simp only [bit, groupW, beq_iff_eq]; omega) ?_ rfl
  rw [hd _ _ _ (by simp only [fld, groupW]; omega)]
  have e1 : fld (groupW op g (k.val * 262144 + b1 cl * 131072 + a.val * 512)) 21 4 = encG g := by simp only [fld, groupW]; omega
  have e2 : fld (groupW op g (k.val * 262144 + b1 cl * 131072 + a.val * 512)) 18 3 = k.val := by simp only [fld, groupW]; omega
  have e3 : bit (groupW op g (k.val * 262144 + b1 cl * 131072 + a.val * 512)) 17 = cl := bit_of _ _ _ (by simp only [groupW]; omega)
  have e4 : fld (groupW op g (k.val * 262144 + b1 cl * 131072 + a.val * 512)) 9 6 = a.val := by simp only [fld, groupW]; omega
  have e5 : fld (groupW op g (k.val * 262144 + b1 cl * 131072 + a.val * 512)) 0 9 = 0 := by simp only [fld, groupW]; omega
  have e6 : bit (groupW op g (k.val * 262144 + b1 cl * 131072 + a.val * 512)) 16 = false := by
      simp only [bit, groupW]; simp only [beq_eq_false_iff_ne]; omega
  have e7 : fld (groupW op g (k.val * 262144 + b1 cl * 131072 + a.val * 512)) 15 1 = 0 := by simp only [fld, groupW]; omega
  simp only [e1, e2, e3, e4, e5, e6, e7, decKset, guard_enc, xr_enc, f8_enc, if_false, Bool.false_eq_true, ap_ok, map_ok, need_ok,
      beq_self_eq_true, Bool.not_false]

theorem reads_ksetMask {op : Nat} {g : Guard} {k : Fin 8} {cl : Bool} {a : XReg} (ho : op < 64)
    (he : encode (Instr.ksetMask g k cl a) = [groupW op g (k.val * 262144 + b1 cl * 131072 + 65536 + a.val * 512)])
    (hw : (Instr.ksetMask g k cl a).words = 1)
    (hd : ∀ w l l2, fld w 25 6 = op → decodeGroup w l l2 = (decKset w).map .early) : Reads (Instr.ksetMask g k cl a) := by
  have h0 := encG_lt g; have h1 := b1_lt cl
  refine Reads.of (he.trans rfl) (by rw [hw]; simp only [List.length_cons, List.length_append, List.length_nil]; try omega) fun tail =>
      dec_group (.early (Instr.ksetMask g k cl a)) (by simp only [bit, groupW, beq_iff_eq]; omega) ?_ rfl
  rw [hd _ _ _ (by simp only [fld, groupW]; omega)]
  have e1 : fld (groupW op g (k.val * 262144 + b1 cl * 131072 + 65536 + a.val * 512)) 21 4 = encG g := by simp only [fld, groupW]; omega
  have e2 : fld (groupW op g (k.val * 262144 + b1 cl * 131072 + 65536 + a.val * 512)) 18 3 = k.val := by simp only [fld, groupW]; omega
  have e3 : bit (groupW op g (k.val * 262144 + b1 cl * 131072 + 65536 + a.val * 512)) 17 = cl := bit_of _ _ _
      (by simp only [groupW]; omega)
  have e4 : fld (groupW op g (k.val * 262144 + b1 cl * 131072 + 65536 + a.val * 512)) 9 6 = a.val := by simp only [fld, groupW]; omega
  have e5 : fld (groupW op g (k.val * 262144 + b1 cl * 131072 + 65536 + a.val * 512)) 0 9 = 0 := by simp only [fld, groupW]; omega
  have e6 : bit (groupW op g (k.val * 262144 + b1 cl * 131072 + 65536 + a.val * 512)) 16 = true := by
      simp only [bit, groupW]; simp only [beq_iff_eq]; omega
  have e7 : fld (groupW op g (k.val * 262144 + b1 cl * 131072 + 65536 + a.val * 512)) 15 1 = 0 := by simp only [fld, groupW]; omega
  simp only [e1, e2, e3, e4, e5, e6, e7, decKset, guard_enc, xr_enc, f8_enc, if_true, ap_ok, map_ok, need_ok, beq_self_eq_true,
      Bool.not_false]

theorem reads_ksign {op : Nat} {g : Guard} {k : Fin 8} {cl : Bool} {a : XReg} (ho : op < 64)
    (he : encode (Instr.ksign g k cl a) = [groupW op g (k.val * 262144 + b1 cl * 131072 + a.val * 512)])
    (hw : (Instr.ksign g k cl a).words = 1)
    (hd : ∀ w l l2, fld w 25 6 = op → decodeGroup w l l2 = (decKsign w).map .early) : Reads (Instr.ksign g k cl a) := by
  have h0 := encG_lt g; have h1 := b1_lt cl
  refine Reads.of (he.trans rfl) (by rw [hw]; simp only [List.length_cons, List.length_append, List.length_nil]; try omega) fun tail =>
      dec_group (.early (Instr.ksign g k cl a)) (by simp only [bit, groupW, beq_iff_eq]; omega) ?_ rfl
  rw [hd _ _ _ (by simp only [fld, groupW]; omega)]
  have e1 : fld (groupW op g (k.val * 262144 + b1 cl * 131072 + a.val * 512)) 21 4 = encG g := by simp only [fld, groupW]; omega
  have e2 : fld (groupW op g (k.val * 262144 + b1 cl * 131072 + a.val * 512)) 18 3 = k.val := by simp only [fld, groupW]; omega
  have e3 : bit (groupW op g (k.val * 262144 + b1 cl * 131072 + a.val * 512)) 17 = cl := bit_of _ _ _ (by simp only [groupW]; omega)
  have e4 : fld (groupW op g (k.val * 262144 + b1 cl * 131072 + a.val * 512)) 9 6 = a.val := by simp only [fld, groupW]; omega
  have e5 : fld (groupW op g (k.val * 262144 + b1 cl * 131072 + a.val * 512)) 0 9 = 0 := by simp only [fld, groupW]; omega
  have e6 : fld (groupW op g (k.val * 262144 + b1 cl * 131072 + a.val * 512)) 15 2 = 0 := by simp only [fld, groupW]; omega
  simp only [e1, e2, e3, e4, e5, e6, decKsign, guard_enc, xr_enc, f8_enc, ap_ok, map_ok, need_ok, beq_self_eq_true, Bool.not_false]

theorem reads_kxch {c : Guard → Fin 8 → Bool → Dst8 → Src8 → Src8 → Instr} {op : Nat} {g : Guard} {k : Fin 8} {cl : Bool} {d : Dst8} {a i : Src8} {mode : Nat} (hm : mode < 4) (ho : op < 64)
    (he : encode (c g k cl d a i) = groupW op g (0) :: (kxchCtl mode cl k i.code a.code d.code) :: (a.litw ++ i.litw))
    (hw : (c g k cl d a i).words = 2 + (a.lits + i.lits))
    (hd : ∀ w l l2, fld w 25 6 = op → fld l 28 2 = mode →
        decodeGroup w l l2 = ((((((((((Dec.ok c).ap (guardF (fld w 21 4))).ap (.ok (f8 (fld l 24 3)))).ap (.ok (bit l 27))).ap (dst8F (fld l 0 8))).ap (src8F (fld l 8 8) l2)).ap (src8F (fld l 16 8) l2)).need (fld w 0 21 == 0) 4).need (fld l 30 2 == 0) 4).need (!(fld l 8 8 == 137 && fld l 16 8 == 137)) 5).map .early)
    (hl : a.lits + i.lits ≤ 1) : Reads (c g k cl d a i) := by
  have h0 := encG_lt g; have h1 := b1_lt cl; have h2 := dst8_lt d; have h3 := src8_lt a; have h4 := src8_lt i
  refine Reads.of (he.trans rfl)
      (by rw [hw]; simp only [List.length_cons, List.length_append, List.length_nil, src8_len]; try omega) fun tail =>
      dec_group (.early (c g k cl d a i)) (by simp only [bit, groupW, beq_iff_eq]; omega) ?_ rfl
  simp only [List.cons_append, List.nil_append, List.getD_cons_zero, List.getD_cons_succ]
  have e1 : fld (groupW op g (0)) 21 4 = encG g := by simp only [fld, groupW]; omega
  have e2 : fld (groupW op g (0)) 0 21 = 0 := by simp only [fld, groupW]; omega
  have e3 : fld (kxchCtl mode cl k i.code a.code d.code) 28 2 = mode := by simp only [fld, kxchCtl]; omega
  have e4 : fld (kxchCtl mode cl k i.code a.code d.code) 24 3 = k.val := by simp only [fld, kxchCtl]; omega
  have e5 : bit (kxchCtl mode cl k i.code a.code d.code) 27 = cl := bit_of _ _ _ (by simp only [kxchCtl]; omega)
  have e6 : fld (kxchCtl mode cl k i.code a.code d.code) 0 8 = d.code := by simp only [fld, kxchCtl]; omega
  have e7 : fld (kxchCtl mode cl k i.code a.code d.code) 8 8 = a.code := by simp only [fld, kxchCtl]; omega
  have e8 : fld (kxchCtl mode cl k i.code a.code d.code) 16 8 = i.code := by simp only [fld, kxchCtl]; omega
  have e9 : fld (kxchCtl mode cl k i.code a.code d.code) 30 2 = 0 := by simp only [fld, kxchCtl]; omega
  rw [hd _ _ _ (by simp only [fld, groupW]; omega) e3]
  have la : src8F a.code ((a.litw ++ i.litw ++ tail).getD 0 0) = .ok a := src8_enc a _ (by rw [List.append_assoc]; exact src8_lit a _)
  have li : src8F i.code ((a.litw ++ i.litw ++ tail).getD 0 0) = .ok i := src8_enc i _ (src8_lit2 a i _ hl)
  have n1 : (!(a.code == 137 && i.code == 137)) = true := by
    simp only [Bool.not_eq_true', Bool.and_eq_false_iff, beq_eq_false_iff_ne]
    by_cases q : a.code = 137
    · have := src8_137 a q; exact .inr fun q' => by have := src8_137 i q'; omega
    · exact .inl q
  simp only [e1, e2, e3, e4, e5, e6, e7, e8, e9, guard_enc, f8_enc, dst8_enc, la, li, n1, ap_ok, map_ok, need_ok, beq_self_eq_true,
      Bool.not_false]

theorem reads_kred {c : Guard → Fin 8 → Bool → Dst8 → Src8 → Instr} {op : Nat} {g : Guard} {k : Fin 8} {cl : Bool} {d : Dst8} {a : Src8} {rop : Nat} (hm : rop < 16) (ho : op < 64)
    (he : encode (c g k cl d a) = groupW op g (0) :: (b1 cl * 8388608 + k.val * 1048576 + rop * 65536 + a.code * 256 + d.code) :: a.litw)
    (hw : (c g k cl d a).words = 2 + a.lits)
    (hd : ∀ w l l2, fld w 25 6 = op → fld l 16 4 = rop →
        decodeGroup w l l2 = ((((((((Dec.ok c).ap (guardF (fld w 21 4))).ap (.ok (f8 (fld l 20 3)))).ap (.ok (bit l 23))).ap (dst8F (fld l 0 8))).ap (src8F (fld l 8 8) l2)).need (fld w 0 21 == 0) 4).need (fld l 24 8 == 0) 4).map .early) : Reads (c g k cl d a) := by
  have h0 := encG_lt g; have h1 := b1_lt cl; have h2 := dst8_lt d; have h3 := src8_lt a
  refine Reads.of (he.trans rfl)
      (by rw [hw]; simp only [List.length_cons, List.length_append, List.length_nil, src8_len]; try omega) fun tail =>
      dec_group (.early (c g k cl d a)) (by simp only [bit, groupW, beq_iff_eq]; omega) ?_ rfl
  simp only [List.cons_append, List.nil_append, List.getD_cons_zero, List.getD_cons_succ]
  have e1 : fld (groupW op g (0)) 21 4 = encG g := by simp only [fld, groupW]; omega
  have e2 : fld (groupW op g (0)) 0 21 = 0 := by simp only [fld, groupW]; omega
  have e3 : fld (b1 cl * 8388608 + k.val * 1048576 + rop * 65536 + a.code * 256 + d.code) 16 4 = rop := by simp only [fld]; omega
  have e4 : fld (b1 cl * 8388608 + k.val * 1048576 + rop * 65536 + a.code * 256 + d.code) 20 3 = k.val := by simp only [fld]; omega
  have e5 : bit (b1 cl * 8388608 + k.val * 1048576 + rop * 65536 + a.code * 256 + d.code) 23 = cl := bit_of _ _ _ (by omega)
  have e6 : fld (b1 cl * 8388608 + k.val * 1048576 + rop * 65536 + a.code * 256 + d.code) 0 8 = d.code := by simp only [fld]; omega
  have e7 : fld (b1 cl * 8388608 + k.val * 1048576 + rop * 65536 + a.code * 256 + d.code) 8 8 = a.code := by simp only [fld]; omega
  have e8 : fld (b1 cl * 8388608 + k.val * 1048576 + rop * 65536 + a.code * 256 + d.code) 24 8 = 0 := by simp only [fld]; omega
  rw [hd _ _ _ (by simp only [fld, groupW]; omega) e3]
  have la : src8F a.code ((a.litw ++ tail).getD 0 0) = .ok a := src8_enc a _ (src8_lit a _)
  simp only [e1, e2, e3, e4, e5, e6, e7, e8, guard_enc, f8_enc, dst8_enc, la, ap_ok, map_ok, need_ok, beq_self_eq_true, Bool.not_false]

theorem mma_enc (c : MmaCtl) : mmaCtlF c.enc = .ok c ∧ fld c.enc 23 9 = 0 := by
  obtain ⟨kcl, k, sp, sc, z, n, m, sl, bs, as, bf, af⟩ := c
  have h0 := b1_lt kcl; have h1 := split_lt sp; have h2 := b1_lt sc; have h3 := b1_lt z; have h4 := b1_lt bs; have h5 := b1_lt as
  have h6 := mfmt_lt bf; have h7 := mfmt_lt af
  have e0 : bit (b1 kcl * 4194304 + k.val * 524288 + sp.code * 131072 + b1 sc * 65536 + b1 z * 32768 + n.val * 8192 + m.val * 2048 + sl.val * 256 + b1 bs * 128 + b1 as * 64 + bf.code * 8 + af.code) 22 = kcl := bit_of _ _ _ (by omega)
  have e1 : fld (b1 kcl * 4194304 + k.val * 524288 + sp.code * 131072 + b1 sc * 65536 + b1 z * 32768 + n.val * 8192 + m.val * 2048 + sl.val * 256 + b1 bs * 128 + b1 as * 64 + bf.code * 8 + af.code) 19 3 = k.val := by simp only [fld]; omega
  have e2 : bit (b1 kcl * 4194304 + k.val * 524288 + sp.code * 131072 + b1 sc * 65536 + b1 z * 32768 + n.val * 8192 + m.val * 2048 + sl.val * 256 + b1 bs * 128 + b1 as * 64 + bf.code * 8 + af.code) 16 = sc := bit_of _ _ _ (by omega)
  have e3 : bit (b1 kcl * 4194304 + k.val * 524288 + sp.code * 131072 + b1 sc * 65536 + b1 z * 32768 + n.val * 8192 + m.val * 2048 + sl.val * 256 + b1 bs * 128 + b1 as * 64 + bf.code * 8 + af.code) 15 = z := bit_of _ _ _ (by omega)
  have e4 : fld (b1 kcl * 4194304 + k.val * 524288 + sp.code * 131072 + b1 sc * 65536 + b1 z * 32768 + n.val * 8192 + m.val * 2048 + sl.val * 256 + b1 bs * 128 + b1 as * 64 + bf.code * 8 + af.code) 13 2 = n.val := by simp only [fld]; omega
  have e5 : fld (b1 kcl * 4194304 + k.val * 524288 + sp.code * 131072 + b1 sc * 65536 + b1 z * 32768 + n.val * 8192 + m.val * 2048 + sl.val * 256 + b1 bs * 128 + b1 as * 64 + bf.code * 8 + af.code) 11 2 = m.val := by simp only [fld]; omega
  have e6 : fld (b1 kcl * 4194304 + k.val * 524288 + sp.code * 131072 + b1 sc * 65536 + b1 z * 32768 + n.val * 8192 + m.val * 2048 + sl.val * 256 + b1 bs * 128 + b1 as * 64 + bf.code * 8 + af.code) 8 3 = sl.val := by simp only [fld]; omega
  have e7 : bit (b1 kcl * 4194304 + k.val * 524288 + sp.code * 131072 + b1 sc * 65536 + b1 z * 32768 + n.val * 8192 + m.val * 2048 + sl.val * 256 + b1 bs * 128 + b1 as * 64 + bf.code * 8 + af.code) 7 = bs := bit_of _ _ _ (by omega)
  have e8 : bit (b1 kcl * 4194304 + k.val * 524288 + sp.code * 131072 + b1 sc * 65536 + b1 z * 32768 + n.val * 8192 + m.val * 2048 + sl.val * 256 + b1 bs * 128 + b1 as * 64 + bf.code * 8 + af.code) 6 = as := bit_of _ _ _ (by omega)
  have e9 : fld (b1 kcl * 4194304 + k.val * 524288 + sp.code * 131072 + b1 sc * 65536 + b1 z * 32768 + n.val * 8192 + m.val * 2048 + sl.val * 256 + b1 bs * 128 + b1 as * 64 + bf.code * 8 + af.code) 17 2 = sp.code := by simp only [fld]; omega
  have e10 : fld (b1 kcl * 4194304 + k.val * 524288 + sp.code * 131072 + b1 sc * 65536 + b1 z * 32768 + n.val * 8192 + m.val * 2048 + sl.val * 256 + b1 bs * 128 + b1 as * 64 + bf.code * 8 + af.code) 3 3 = bf.code := by simp only [fld]; omega
  have e11 : fld (b1 kcl * 4194304 + k.val * 524288 + sp.code * 131072 + b1 sc * 65536 + b1 z * 32768 + n.val * 8192 + m.val * 2048 + sl.val * 256 + b1 bs * 128 + b1 as * 64 + bf.code * 8 + af.code) 0 3 = af.code := by simp only [fld]; omega
  have e12 : fld (b1 kcl * 4194304 + k.val * 524288 + sp.code * 131072 + b1 sc * 65536 + b1 z * 32768 + n.val * 8192 + m.val * 2048 + sl.val * 256 + b1 bs * 128 + b1 as * 64 + bf.code * 8 + af.code) 23 9 = 0 := by simp only [fld]; omega
  refine ⟨?_, e12⟩
  simp only [mmaCtlF, MmaCtl.enc, e0, e1, e2, e3, e4, e5, e6, e7, e8, e9, e10, e11, split_enc, mfmt_enc, f8_enc, ap_ok,
      Fin.ofNat_eq_cast, Fin.cast_val_eq_self]

theorem drain_enc (c : DrainCtl) : drainCtlF c.enc = .ok c ∧ fld c.enc 26 6 = 0 ∧ fld c.enc 0 8 = 0 := by
  obtain ⟨kcl, k, kp, sc, ad, df, n, m, sl⟩ := c
  have h0 := b1_lt kcl; have h1 := dfmt_lt df; have h2 := b1_lt sc; have h3 := b1_lt kp; have h4 := b1_lt ad
  have e0 : bit (b1 kcl * 33554432 + k.val * 4194304 + b1 kp * 2097152 + b1 sc * 1048576 + b1 ad * 524288 + df.code * 32768 + n.val * 8192 + m.val * 2048 + sl.val * 256) 25 = kcl := bit_of _ _ _ (by omega)
  have e1 : fld (b1 kcl * 33554432 + k.val * 4194304 + b1 kp * 2097152 + b1 sc * 1048576 + b1 ad * 524288 + df.code * 32768 + n.val * 8192 + m.val * 2048 + sl.val * 256) 22 3 = k.val := by simp only [fld]; omega
  have e2 : bit (b1 kcl * 33554432 + k.val * 4194304 + b1 kp * 2097152 + b1 sc * 1048576 + b1 ad * 524288 + df.code * 32768 + n.val * 8192 + m.val * 2048 + sl.val * 256) 21 = kp := bit_of _ _ _ (by omega)
  have e3 : bit (b1 kcl * 33554432 + k.val * 4194304 + b1 kp * 2097152 + b1 sc * 1048576 + b1 ad * 524288 + df.code * 32768 + n.val * 8192 + m.val * 2048 + sl.val * 256) 20 = sc := bit_of _ _ _ (by omega)
  have e4 : bit (b1 kcl * 33554432 + k.val * 4194304 + b1 kp * 2097152 + b1 sc * 1048576 + b1 ad * 524288 + df.code * 32768 + n.val * 8192 + m.val * 2048 + sl.val * 256) 19 = ad := bit_of _ _ _ (by omega)
  have e5 : fld (b1 kcl * 33554432 + k.val * 4194304 + b1 kp * 2097152 + b1 sc * 1048576 + b1 ad * 524288 + df.code * 32768 + n.val * 8192 + m.val * 2048 + sl.val * 256) 13 2 = n.val := by simp only [fld]; omega
  have e6 : fld (b1 kcl * 33554432 + k.val * 4194304 + b1 kp * 2097152 + b1 sc * 1048576 + b1 ad * 524288 + df.code * 32768 + n.val * 8192 + m.val * 2048 + sl.val * 256) 11 2 = m.val := by simp only [fld]; omega
  have e7 : fld (b1 kcl * 33554432 + k.val * 4194304 + b1 kp * 2097152 + b1 sc * 1048576 + b1 ad * 524288 + df.code * 32768 + n.val * 8192 + m.val * 2048 + sl.val * 256) 8 3 = sl.val := by simp only [fld]; omega
  have e8 : fld (b1 kcl * 33554432 + k.val * 4194304 + b1 kp * 2097152 + b1 sc * 1048576 + b1 ad * 524288 + df.code * 32768 + n.val * 8192 + m.val * 2048 + sl.val * 256) 15 4 = df.code := by simp only [fld]; omega
  have e9 : fld (b1 kcl * 33554432 + k.val * 4194304 + b1 kp * 2097152 + b1 sc * 1048576 + b1 ad * 524288 + df.code * 32768 + n.val * 8192 + m.val * 2048 + sl.val * 256) 26 6 = 0 := by simp only [fld]; omega
  have e10 : fld (b1 kcl * 33554432 + k.val * 4194304 + b1 kp * 2097152 + b1 sc * 1048576 + b1 ad * 524288 + df.code * 32768 + n.val * 8192 + m.val * 2048 + sl.val * 256) 0 8 = 0 := by simp only [fld]; omega
  refine ⟨?_, e9, e10⟩
  simp only [drainCtlF, DrainCtl.enc, e0, e1, e2, e3, e4, e5, e6, e7, e8, dfmt_enc, f8_enc, ap_ok, Fin.ofNat_eq_cast,
      Fin.cast_val_eq_self]

theorem reads_mma {op : Nat} {g : Guard} {xa xb xc : XReg} {c : MmaCtl} (ho : op < 64)
    (he : encode (Instr.mma g xa xb xc c) = [groupW op g (xa.val * 32768 + xb.val * 512 + xc.val * 8), c.enc])
    (hw : (Instr.mma g xa xb xc c).words = 2)
    (hd : ∀ w l l2, fld w 25 6 = op → decodeGroup w l l2 = (decMma w l).map .early)
    (hl : c.ok = true) : Reads (Instr.mma g xa xb xc c) := by
  have h0 := encG_lt g
  refine Reads.of (he.trans rfl) (by rw [hw]; simp only [List.length_cons, List.length_append, List.length_nil]; try omega) fun tail =>
      dec_group (.early (Instr.mma g xa xb xc c)) (by simp only [bit, groupW, beq_iff_eq]; omega) ?_ rfl
  rw [hd _ _ _ (by simp only [fld, groupW]; omega)]
  simp only [List.cons_append, List.nil_append, List.getD_cons_zero, List.getD_cons_succ]
  have e1 : fld (groupW op g (xa.val * 32768 + xb.val * 512 + xc.val * 8)) 21 4 = encG g := by simp only [fld, groupW]; omega
  have e2 : fld (groupW op g (xa.val * 32768 + xb.val * 512 + xc.val * 8)) 15 6 = xa.val := by simp only [fld, groupW]; omega
  have e3 : fld (groupW op g (xa.val * 32768 + xb.val * 512 + xc.val * 8)) 9 6 = xb.val := by simp only [fld, groupW]; omega
  have e4 : fld (groupW op g (xa.val * 32768 + xb.val * 512 + xc.val * 8)) 3 6 = xc.val := by simp only [fld, groupW]; omega
  have e5 : fld (groupW op g (xa.val * 32768 + xb.val * 512 + xc.val * 8)) 0 3 = 0 := by simp only [fld, groupW]; omega
  simp only [e1, e2, e3, e4, e5, decMma, guard_enc, xr_enc, (mma_enc c).1, (mma_enc c).2, chk_ok c MmaCtl.ok hl, ap_ok, map_ok,
      need_ok, beq_self_eq_true, Bool.not_false]

theorem reads_mdrain {op : Nat} {g : Guard} {xa xb xc : XReg} {c : DrainCtl} (ho : op < 64)
    (he : encode (Instr.mdrain g xa xb xc c) = [groupW op g (xa.val * 32768 + xb.val * 512 + xc.val * 8), c.enc])
    (hw : (Instr.mdrain g xa xb xc c).words = 2)
    (hd : ∀ w l l2, fld w 25 6 = op → decodeGroup w l l2 = (decMdrain w l).map .early)
    (hl : c.ok = true) : Reads (Instr.mdrain g xa xb xc c) := by
  have h0 := encG_lt g
  refine Reads.of (he.trans rfl) (by rw [hw]; simp only [List.length_cons, List.length_append, List.length_nil]; try omega) fun tail =>
      dec_group (.early (Instr.mdrain g xa xb xc c)) (by simp only [bit, groupW, beq_iff_eq]; omega) ?_ rfl
  rw [hd _ _ _ (by simp only [fld, groupW]; omega)]
  simp only [List.cons_append, List.nil_append, List.getD_cons_zero, List.getD_cons_succ]
  have e1 : fld (groupW op g (xa.val * 32768 + xb.val * 512 + xc.val * 8)) 21 4 = encG g := by simp only [fld, groupW]; omega
  have e2 : fld (groupW op g (xa.val * 32768 + xb.val * 512 + xc.val * 8)) 15 6 = xa.val := by simp only [fld, groupW]; omega
  have e3 : fld (groupW op g (xa.val * 32768 + xb.val * 512 + xc.val * 8)) 9 6 = xb.val := by simp only [fld, groupW]; omega
  have e4 : fld (groupW op g (xa.val * 32768 + xb.val * 512 + xc.val * 8)) 3 6 = xc.val := by simp only [fld, groupW]; omega
  have e5 : fld (groupW op g (xa.val * 32768 + xb.val * 512 + xc.val * 8)) 0 3 = 0 := by simp only [fld, groupW]; omega
  simp only [e1, e2, e3, e4, e5, decMdrain, guard_enc, xr_enc, (drain_enc c).1, (drain_enc c).2.1, (drain_enc c).2.2,
      chk_ok c DrainCtl.ok hl, ap_ok, map_ok, need_ok, beq_self_eq_true, Bool.not_false]

theorem reads_mzero {op : Nat} {g : Guard} {s : Fin 8} (ho : op < 64)
    (he : encode (Instr.mzero g s) = [groupW op g (s.val * 8)])
    (hw : (Instr.mzero g s).words = 1)
    (hd : ∀ w l l2, fld w 25 6 = op → decodeGroup w l l2 = (decMctl w).map .early) : Reads (Instr.mzero g s) := by
  have h0 := encG_lt g
  refine Reads.of (he.trans rfl) (by rw [hw]; simp only [List.length_cons, List.length_append, List.length_nil]; try omega) fun tail =>
      dec_group (.early (Instr.mzero g s)) (by simp only [bit, groupW, beq_iff_eq]; omega) ?_ rfl
  rw [hd _ _ _ (by simp only [fld, groupW]; omega)]
  have e1 : fld (groupW op g (s.val * 8)) 21 4 = encG g := by simp only [fld, groupW]; omega
  have e2 : fld (groupW op g (s.val * 8)) 0 3 = 0 := by simp only [fld, groupW]; omega
  have e3 : fld (groupW op g (s.val * 8)) 6 3 = 0 := by simp only [fld, groupW]; omega
  have e4 : fld (groupW op g (s.val * 8)) 3 3 = s.val := by simp only [fld, groupW]; omega
  have e5 : fld (groupW op g (s.val * 8)) 15 6 = 0 := by simp only [fld, groupW]; omega
  have e6 : fld (groupW op g (s.val * 8)) 9 6 = 0 := by simp only [fld, groupW]; omega
  simp only [e1, e2, e3, e4, e5, e6, decMctl, guard_enc, f8_enc, ap_ok, map_ok, need_ok, beq_self_eq_true, Bool.not_false]

theorem reads_mldsc {op : Nat} {g : Guard} {d a : XReg} (ho : op < 64)
    (he : encode (Instr.mldsc g d a) = [groupW op g (d.val * 32768 + a.val * 512 + 64)])
    (hw : (Instr.mldsc g d a).words = 1)
    (hd : ∀ w l l2, fld w 25 6 = op → decodeGroup w l l2 = (decMctl w).map .early) : Reads (Instr.mldsc g d a) := by
  have h0 := encG_lt g
  refine Reads.of (he.trans rfl) (by rw [hw]; simp only [List.length_cons, List.length_append, List.length_nil]; try omega) fun tail =>
      dec_group (.early (Instr.mldsc g d a)) (by simp only [bit, groupW, beq_iff_eq]; omega) ?_ rfl
  rw [hd _ _ _ (by simp only [fld, groupW]; omega)]
  have e1 : fld (groupW op g (d.val * 32768 + a.val * 512 + 64)) 21 4 = encG g := by simp only [fld, groupW]; omega
  have e2 : fld (groupW op g (d.val * 32768 + a.val * 512 + 64)) 0 3 = 0 := by simp only [fld, groupW]; omega
  have e3 : fld (groupW op g (d.val * 32768 + a.val * 512 + 64)) 6 3 = 1 := by simp only [fld, groupW]; omega
  have e4 : fld (groupW op g (d.val * 32768 + a.val * 512 + 64)) 3 3 = 0 := by simp only [fld, groupW]; omega
  have e5 : fld (groupW op g (d.val * 32768 + a.val * 512 + 64)) 15 6 = d.val := by simp only [fld, groupW]; omega
  have e6 : fld (groupW op g (d.val * 32768 + a.val * 512 + 64)) 9 6 = a.val := by simp only [fld, groupW]; omega
  simp only [e1, e2, e3, e4, e5, e6, decMctl, guard_enc, xr_enc, ap_ok, map_ok, need_ok, beq_self_eq_true, Bool.not_false]

theorem reads_mstat {op : Nat} {g : Guard} {d : XReg} {s : Fin 8} (ho : op < 64)
    (he : encode (Instr.mstat g d s) = [groupW op g (d.val * 32768 + 128 + s.val * 8)])
    (hw : (Instr.mstat g d s).words = 1)
    (hd : ∀ w l l2, fld w 25 6 = op → decodeGroup w l l2 = (decMctl w).map .early) : Reads (Instr.mstat g d s) := by
  have h0 := encG_lt g
  refine Reads.of (he.trans rfl) (by rw [hw]; simp only [List.length_cons, List.length_append, List.length_nil]; try omega) fun tail =>
      dec_group (.early (Instr.mstat g d s)) (by simp only [bit, groupW, beq_iff_eq]; omega) ?_ rfl
  rw [hd _ _ _ (by simp only [fld, groupW]; omega)]
  have e1 : fld (groupW op g (d.val * 32768 + 128 + s.val * 8)) 21 4 = encG g := by simp only [fld, groupW]; omega
  have e2 : fld (groupW op g (d.val * 32768 + 128 + s.val * 8)) 0 3 = 0 := by simp only [fld, groupW]; omega
  have e3 : fld (groupW op g (d.val * 32768 + 128 + s.val * 8)) 6 3 = 2 := by simp only [fld, groupW]; omega
  have e4 : fld (groupW op g (d.val * 32768 + 128 + s.val * 8)) 3 3 = s.val := by simp only [fld, groupW]; omega
  have e5 : fld (groupW op g (d.val * 32768 + 128 + s.val * 8)) 15 6 = d.val := by simp only [fld, groupW]; omega
  have e6 : fld (groupW op g (d.val * 32768 + 128 + s.val * 8)) 9 6 = 0 := by simp only [fld, groupW]; omega
  simp only [e1, e2, e3, e4, e5, e6, decMctl, guard_enc, xr_enc, f8_enc, ap_ok, map_ok, need_ok, beq_self_eq_true, Bool.not_false]

theorem reads_tbinit {op : Nat} {g : Guard} {a : XReg} {k : TbCnt} (ho : op < 64)
    (he : encode (Instr.tbinit g a k) = [groupW op g (a.val * 512 + encC63 k)])
    (hw : (Instr.tbinit g a k).words = 1)
    (hd : ∀ w l l2, fld w 25 6 = op → decodeGroup w l l2 = (decTbar w).map .early) : Reads (Instr.tbinit g a k) := by
  have h0 := encG_lt g; have h1 := c63_lt k
  refine Reads.of (he.trans rfl) (by rw [hw]; simp only [List.length_cons, List.length_append, List.length_nil]; try omega) fun tail =>
      dec_group (.early (Instr.tbinit g a k)) (by simp only [bit, groupW, beq_iff_eq]; omega) ?_ rfl
  rw [hd _ _ _ (by simp only [fld, groupW]; omega)]
  have e1 : fld (groupW op g (a.val * 512 + encC63 k)) 21 4 = encG g := by simp only [fld, groupW]; omega
  have e2 : fld (groupW op g (a.val * 512 + encC63 k)) 9 6 = a.val := by simp only [fld, groupW]; omega
  have e3 : fld (groupW op g (a.val * 512 + encC63 k)) 0 6 = encC63 k := by simp only [fld, groupW]; omega
  have e4 : fld (groupW op g (a.val * 512 + encC63 k)) 6 3 = 0 := by simp only [fld, groupW]; omega
  have e5 : fld (groupW op g (a.val * 512 + encC63 k)) 15 6 = 0 := by simp only [fld, groupW]; omega
  simp only [e1, e2, e3, e4, e5, decTbar, guard_enc, xr_enc, c63_enc, ap_ok, map_ok, need_ok, beq_self_eq_true, Bool.not_false]

theorem reads_tbarrive {op : Nat} {g : Guard} {d a : XReg} {k : TbCnt} (ho : op < 64)
    (he : encode (Instr.tbarrive g d a k) = [groupW op g (d.val * 32768 + a.val * 512 + 64 + encC63 k)])
    (hw : (Instr.tbarrive g d a k).words = 1)
    (hd : ∀ w l l2, fld w 25 6 = op → decodeGroup w l l2 = (decTbar w).map .early) : Reads (Instr.tbarrive g d a k) := by
  have h0 := encG_lt g; have h1 := c63_lt k
  refine Reads.of (he.trans rfl) (by rw [hw]; simp only [List.length_cons, List.length_append, List.length_nil]; try omega) fun tail =>
      dec_group (.early (Instr.tbarrive g d a k)) (by simp only [bit, groupW, beq_iff_eq]; omega) ?_ rfl
  rw [hd _ _ _ (by simp only [fld, groupW]; omega)]
  have e1 : fld (groupW op g (d.val * 32768 + a.val * 512 + 64 + encC63 k)) 21 4 = encG g := by simp only [fld, groupW]; omega
  have e2 : fld (groupW op g (d.val * 32768 + a.val * 512 + 64 + encC63 k)) 9 6 = a.val := by simp only [fld, groupW]; omega
  have e3 : fld (groupW op g (d.val * 32768 + a.val * 512 + 64 + encC63 k)) 0 6 = encC63 k := by simp only [fld, groupW]; omega
  have e4 : fld (groupW op g (d.val * 32768 + a.val * 512 + 64 + encC63 k)) 6 3 = 1 := by simp only [fld, groupW]; omega
  have e5 : fld (groupW op g (d.val * 32768 + a.val * 512 + 64 + encC63 k)) 15 6 = d.val := by simp only [fld, groupW]; omega
  simp only [e1, e2, e3, e4, e5, decTbar, guard_enc, xr_enc, c63_enc, ap_ok, map_ok, need_ok, beq_self_eq_true, Bool.not_false]

theorem reads_tbexpect {op : Nat} {g : Guard} {a : XReg} {k : TbCnt} (ho : op < 64)
    (he : encode (Instr.tbexpect g a k) = [groupW op g (a.val * 512 + 128 + encC63 k)])
    (hw : (Instr.tbexpect g a k).words = 1)
    (hd : ∀ w l l2, fld w 25 6 = op → decodeGroup w l l2 = (decTbar w).map .early) : Reads (Instr.tbexpect g a k) := by
  have h0 := encG_lt g; have h1 := c63_lt k
  refine Reads.of (he.trans rfl) (by rw [hw]; simp only [List.length_cons, List.length_append, List.length_nil]; try omega) fun tail =>
      dec_group (.early (Instr.tbexpect g a k)) (by simp only [bit, groupW, beq_iff_eq]; omega) ?_ rfl
  rw [hd _ _ _ (by simp only [fld, groupW]; omega)]
  have e1 : fld (groupW op g (a.val * 512 + 128 + encC63 k)) 21 4 = encG g := by simp only [fld, groupW]; omega
  have e2 : fld (groupW op g (a.val * 512 + 128 + encC63 k)) 9 6 = a.val := by simp only [fld, groupW]; omega
  have e3 : fld (groupW op g (a.val * 512 + 128 + encC63 k)) 0 6 = encC63 k := by simp only [fld, groupW]; omega
  have e4 : fld (groupW op g (a.val * 512 + 128 + encC63 k)) 6 3 = 2 := by simp only [fld, groupW]; omega
  have e5 : fld (groupW op g (a.val * 512 + 128 + encC63 k)) 15 6 = 0 := by simp only [fld, groupW]; omega
  simp only [e1, e2, e3, e4, e5, decTbar, guard_enc, xr_enc, c63_enc, ap_ok, map_ok, need_ok, beq_self_eq_true, Bool.not_false]

theorem reads_tbtest {op : Nat} {g : Guard} {d a : XReg} {k : TbCnt} (ho : op < 64)
    (he : encode (Instr.tbtest g d a k) = [groupW op g (d.val * 32768 + a.val * 512 + 192 + encC63 k)])
    (hw : (Instr.tbtest g d a k).words = 1)
    (hd : ∀ w l l2, fld w 25 6 = op → decodeGroup w l l2 = (decTbar w).map .early) : Reads (Instr.tbtest g d a k) := by
  have h0 := encG_lt g; have h1 := c63_lt k
  refine Reads.of (he.trans rfl) (by rw [hw]; simp only [List.length_cons, List.length_append, List.length_nil]; try omega) fun tail =>
      dec_group (.early (Instr.tbtest g d a k)) (by simp only [bit, groupW, beq_iff_eq]; omega) ?_ rfl
  rw [hd _ _ _ (by simp only [fld, groupW]; omega)]
  have e1 : fld (groupW op g (d.val * 32768 + a.val * 512 + 192 + encC63 k)) 21 4 = encG g := by simp only [fld, groupW]; omega
  have e2 : fld (groupW op g (d.val * 32768 + a.val * 512 + 192 + encC63 k)) 9 6 = a.val := by simp only [fld, groupW]; omega
  have e3 : fld (groupW op g (d.val * 32768 + a.val * 512 + 192 + encC63 k)) 0 6 = encC63 k := by simp only [fld, groupW]; omega
  have e4 : fld (groupW op g (d.val * 32768 + a.val * 512 + 192 + encC63 k)) 6 3 = 3 := by simp only [fld, groupW]; omega
  have e5 : fld (groupW op g (d.val * 32768 + a.val * 512 + 192 + encC63 k)) 15 6 = d.val := by simp only [fld, groupW]; omega
  simp only [e1, e2, e3, e4, e5, decTbar, guard_enc, xr_enc, c63_enc, ap_ok, map_ok, need_ok, beq_self_eq_true, Bool.not_false]

theorem reads_tbwait {op : Nat} {g : Guard} {a p : XReg} (ho : op < 64)
    (he : encode (Instr.tbwait g a p) = [groupW op g (a.val * 512 + p.val * 8)])
    (hw : (Instr.tbwait g a p).words = 1)
    (hd : ∀ w l l2, fld w 25 6 = op → decodeGroup w l l2 = (decTbwait w).map .early) : Reads (Instr.tbwait g a p) := by
  have h0 := encG_lt g
  refine Reads.of (he.trans rfl) (by rw [hw]; simp only [List.length_cons, List.length_append, List.length_nil]; try omega) fun tail =>
      dec_group (.early (Instr.tbwait g a p)) (by simp only [bit, groupW, beq_iff_eq]; omega) ?_ rfl
  rw [hd _ _ _ (by simp only [fld, groupW]; omega)]
  have e1 : fld (groupW op g (a.val * 512 + p.val * 8)) 21 4 = encG g := by simp only [fld, groupW]; omega
  have e2 : fld (groupW op g (a.val * 512 + p.val * 8)) 15 6 = 0 := by simp only [fld, groupW]; omega
  have e3 : fld (groupW op g (a.val * 512 + p.val * 8)) 9 6 = a.val := by simp only [fld, groupW]; omega
  have e4 : fld (groupW op g (a.val * 512 + p.val * 8)) 3 6 = p.val := by simp only [fld, groupW]; omega
  have e5 : fld (groupW op g (a.val * 512 + p.val * 8)) 0 3 = 0 := by simp only [fld, groupW]; omega
  simp only [e1, e2, e3, e4, e5, decTbwait, guard_enc, xr_enc, ap_ok, map_ok, need_ok, beq_self_eq_true, Bool.not_false]

theorem reads_wlpush {op : Nat} {g : Guard} {wl : Fin 4} {v : VReg} {dep : Fin 8} (ho : op < 64)
    (he : encode (Instr.wlpush g wl v dep) = [groupW op g (0 * 32768 + 0 * 512 + 0 * 8), wlCtl 0 dep.val v.val 0 wl])
    (hw : (Instr.wlpush g wl v dep).words = 2)
    (hd : ∀ w l l2, fld w 25 6 = op → decodeGroup w l l2 = (decWlist w l).map .early)
    (hl : v.val % 4 = 0) : Reads (Instr.wlpush g wl v dep) := by
  have h0 := encG_lt g
  refine Reads.of (he.trans rfl) (by rw [hw]; simp only [List.length_cons, List.length_append, List.length_nil]; try omega) fun tail =>
      dec_group (.early (Instr.wlpush g wl v dep)) (by simp only [bit, groupW, beq_iff_eq]; omega) ?_ rfl
  rw [hd _ _ _ (by simp only [fld, groupW]; omega)]
  simp only [List.cons_append, List.nil_append, List.getD_cons_zero, List.getD_cons_succ]
  have e1 : fld (groupW op g (0 * 32768 + 0 * 512 + 0 * 8)) 21 4 = encG g := by simp only [fld, groupW]; omega
  have e2 : fld (groupW op g (0 * 32768 + 0 * 512 + 0 * 8)) 15 6 = 0 := by simp only [fld, groupW]; omega
  have e3 : fld (groupW op g (0 * 32768 + 0 * 512 + 0 * 8)) 0 15 = 0 := by simp only [fld, groupW]; omega
  have e4 : fld (wlCtl 0 dep.val v.val 0 wl) 0 2 = wl.val := by simp only [fld, wlCtl]; omega
  have e5 : fld (wlCtl 0 dep.val v.val 0 wl) 2 3 = 0 := by simp only [fld, wlCtl]; omega
  have e6 : fld (wlCtl 0 dep.val v.val 0 wl) 5 7 = v.val := by simp only [fld, wlCtl]; omega
  have e7 : fld (wlCtl 0 dep.val v.val 0 wl) 12 3 = dep.val := by simp only [fld, wlCtl]; omega
  have e8 : fld (wlCtl 0 dep.val v.val 0 wl) 15 2 = 0 := by simp only [fld, wlCtl]; omega
  have e9 : fld (wlCtl 0 dep.val v.val 0 wl) 17 4 = 0 := by simp only [fld, wlCtl]; omega
  have e10 : fld (wlCtl 0 dep.val v.val 0 wl) 21 11 = 0 := by simp only [fld, wlCtl]; omega
  have lw : Fin.ofNat 4 wl.val = wl := by simp
  have dl : decide (0 < 12) = true := decide_eq_true (by omega)
  simp only [e1, e2, e3, e4, e5, e6, e7, e8, e9, e10, decWlist, Dec.wl, guard_enc, lw, dl, quad_enc v hl, f8_enc, ap_ok, map_ok,
      need_ok, beq_self_eq_true, Bool.not_false]

theorem reads_wlpop {op : Nat} {g : Guard} {xa : XReg} {ps : PReg} {wl : Fin 4} {v : VReg} (ho : op < 64)
    (he : encode (Instr.wlpop g xa ps wl v) = [groupW op g (xa.val * 32768 + 0 * 512 + 0 * 8), wlCtl ps.val 0 v.val 1 wl])
    (hw : (Instr.wlpop g xa ps wl v).words = 2)
    (hd : ∀ w l l2, fld w 25 6 = op → decodeGroup w l l2 = (decWlist w l).map .early)
    (hl : v.val % 4 = 0) : Reads (Instr.wlpop g xa ps wl v) := by
  have h0 := encG_lt g
  refine Reads.of (he.trans rfl) (by rw [hw]; simp only [List.length_cons, List.length_append, List.length_nil]; try omega) fun tail =>
      dec_group (.early (Instr.wlpop g xa ps wl v)) (by simp only [bit, groupW, beq_iff_eq]; omega) ?_ rfl
  rw [hd _ _ _ (by simp only [fld, groupW]; omega)]
  simp only [List.cons_append, List.nil_append, List.getD_cons_zero, List.getD_cons_succ]
  have e1 : fld (groupW op g (xa.val * 32768 + 0 * 512 + 0 * 8)) 21 4 = encG g := by simp only [fld, groupW]; omega
  have e2 : fld (groupW op g (xa.val * 32768 + 0 * 512 + 0 * 8)) 15 6 = xa.val := by simp only [fld, groupW]; omega
  have e3 : fld (groupW op g (xa.val * 32768 + 0 * 512 + 0 * 8)) 0 15 = 0 := by simp only [fld, groupW]; omega
  have e4 : fld (wlCtl ps.val 0 v.val 1 wl) 0 2 = wl.val := by simp only [fld, wlCtl]; omega
  have e5 : fld (wlCtl ps.val 0 v.val 1 wl) 2 3 = 1 := by simp only [fld, wlCtl]; omega
  have e6 : fld (wlCtl ps.val 0 v.val 1 wl) 5 7 = v.val := by simp only [fld, wlCtl]; omega
  have e7 : fld (wlCtl ps.val 0 v.val 1 wl) 12 3 = 0 := by simp only [fld, wlCtl]; omega
  have e8 : fld (wlCtl ps.val 0 v.val 1 wl) 15 2 = 0 := by simp only [fld, wlCtl]; omega
  have e9 : fld (wlCtl ps.val 0 v.val 1 wl) 17 4 = ps.val := by simp only [fld, wlCtl]; omega
  have e10 : fld (wlCtl ps.val 0 v.val 1 wl) 21 11 = 0 := by simp only [fld, wlCtl]; omega
  have lw : Fin.ofNat 4 wl.val = wl := by simp
  have dl : decide (ps.val < 12) = true := decide_eq_true (by omega)
  simp only [e1, e2, e3, e4, e5, e6, e7, e8, e9, e10, decWlist, Dec.wl, guard_enc, lw, dl, quad_enc v hl, xr_enc, pred_enc, ap_ok,
      map_ok, need_ok, beq_self_eq_true, Bool.not_false]

theorem reads_wltry {op : Nat} {g : Guard} {xa : XReg} {ps : PReg} {wl : Fin 4} {v : VReg} (ho : op < 64)
    (he : encode (Instr.wltry g xa ps wl v) = [groupW op g (xa.val * 32768 + 0 * 512 + 0 * 8), wlCtl ps.val 0 v.val 2 wl])
    (hw : (Instr.wltry g xa ps wl v).words = 2)
    (hd : ∀ w l l2, fld w 25 6 = op → decodeGroup w l l2 = (decWlist w l).map .early)
    (hl : v.val % 4 = 0) : Reads (Instr.wltry g xa ps wl v) := by
  have h0 := encG_lt g
  refine Reads.of (he.trans rfl) (by rw [hw]; simp only [List.length_cons, List.length_append, List.length_nil]; try omega) fun tail =>
      dec_group (.early (Instr.wltry g xa ps wl v)) (by simp only [bit, groupW, beq_iff_eq]; omega) ?_ rfl
  rw [hd _ _ _ (by simp only [fld, groupW]; omega)]
  simp only [List.cons_append, List.nil_append, List.getD_cons_zero, List.getD_cons_succ]
  have e1 : fld (groupW op g (xa.val * 32768 + 0 * 512 + 0 * 8)) 21 4 = encG g := by simp only [fld, groupW]; omega
  have e2 : fld (groupW op g (xa.val * 32768 + 0 * 512 + 0 * 8)) 15 6 = xa.val := by simp only [fld, groupW]; omega
  have e3 : fld (groupW op g (xa.val * 32768 + 0 * 512 + 0 * 8)) 0 15 = 0 := by simp only [fld, groupW]; omega
  have e4 : fld (wlCtl ps.val 0 v.val 2 wl) 0 2 = wl.val := by simp only [fld, wlCtl]; omega
  have e5 : fld (wlCtl ps.val 0 v.val 2 wl) 2 3 = 2 := by simp only [fld, wlCtl]; omega
  have e6 : fld (wlCtl ps.val 0 v.val 2 wl) 5 7 = v.val := by simp only [fld, wlCtl]; omega
  have e7 : fld (wlCtl ps.val 0 v.val 2 wl) 12 3 = 0 := by simp only [fld, wlCtl]; omega
  have e8 : fld (wlCtl ps.val 0 v.val 2 wl) 15 2 = 0 := by simp only [fld, wlCtl]; omega
  have e9 : fld (wlCtl ps.val 0 v.val 2 wl) 17 4 = ps.val := by simp only [fld, wlCtl]; omega
  have e10 : fld (wlCtl ps.val 0 v.val 2 wl) 21 11 = 0 := by simp only [fld, wlCtl]; omega
  have lw : Fin.ofNat 4 wl.val = wl := by simp
  have dl : decide (ps.val < 12) = true := decide_eq_true (by omega)
  simp only [e1, e2, e3, e4, e5, e6, e7, e8, e9, e10, decWlist, Dec.wl, guard_enc, lw, dl, quad_enc v hl, xr_enc, pred_enc, ap_ok,
      map_ok, need_ok, beq_self_eq_true, Bool.not_false]

theorem reads_wldone {op : Nat} {g : Guard} {wl : Fin 4} (ho : op < 64)
    (he : encode (Instr.wldone g wl) = [groupW op g (0 * 32768 + 0 * 512 + 0 * 8), wlCtl 0 0 0 3 wl])
    (hw : (Instr.wldone g wl).words = 2)
    (hd : ∀ w l l2, fld w 25 6 = op → decodeGroup w l l2 = (decWlist w l).map .early) : Reads (Instr.wldone g wl) := by
  have h0 := encG_lt g
  refine Reads.of (he.trans rfl) (by rw [hw]; simp only [List.length_cons, List.length_append, List.length_nil]; try omega) fun tail =>
      dec_group (.early (Instr.wldone g wl)) (by simp only [bit, groupW, beq_iff_eq]; omega) ?_ rfl
  rw [hd _ _ _ (by simp only [fld, groupW]; omega)]
  simp only [List.cons_append, List.nil_append, List.getD_cons_zero, List.getD_cons_succ]
  have e1 : fld (groupW op g (0 * 32768 + 0 * 512 + 0 * 8)) 21 4 = encG g := by simp only [fld, groupW]; omega
  have e2 : fld (groupW op g (0 * 32768 + 0 * 512 + 0 * 8)) 15 6 = 0 := by simp only [fld, groupW]; omega
  have e3 : fld (groupW op g (0 * 32768 + 0 * 512 + 0 * 8)) 0 15 = 0 := by simp only [fld, groupW]; omega
  have e4 : fld (wlCtl 0 0 0 3 wl) 0 2 = wl.val := by simp only [fld, wlCtl]; omega
  have e5 : fld (wlCtl 0 0 0 3 wl) 2 3 = 3 := by simp only [fld, wlCtl]; omega
  have e6 : fld (wlCtl 0 0 0 3 wl) 5 7 = 0 := by simp only [fld, wlCtl]; omega
  have e7 : fld (wlCtl 0 0 0 3 wl) 12 3 = 0 := by simp only [fld, wlCtl]; omega
  have e8 : fld (wlCtl 0 0 0 3 wl) 15 2 = 0 := by simp only [fld, wlCtl]; omega
  have e9 : fld (wlCtl 0 0 0 3 wl) 17 4 = 0 := by simp only [fld, wlCtl]; omega
  have e10 : fld (wlCtl 0 0 0 3 wl) 21 11 = 0 := by simp only [fld, wlCtl]; omega
  have lw : Fin.ofNat 4 wl.val = wl := by simp
  have dl : decide (0 < 12) = true := decide_eq_true (by omega)
  simp only [e1, e2, e3, e4, e5, e6, e7, e8, e9, e10, decWlist, Dec.wl, guard_enc, lw, dl, ap_ok, map_ok, need_ok, beq_self_eq_true,
      Bool.not_false]

theorem reads_wlfloor {op : Nat} {g : Guard} {xa : XReg} {wl : Fin 4} (ho : op < 64)
    (he : encode (Instr.wlfloor g xa wl) = [groupW op g (xa.val * 32768 + 0 * 512 + 0 * 8), wlCtl 0 0 0 4 wl])
    (hw : (Instr.wlfloor g xa wl).words = 2)
    (hd : ∀ w l l2, fld w 25 6 = op → decodeGroup w l l2 = (decWlist w l).map .early) : Reads (Instr.wlfloor g xa wl) := by
  have h0 := encG_lt g
  refine Reads.of (he.trans rfl) (by rw [hw]; simp only [List.length_cons, List.length_append, List.length_nil]; try omega) fun tail =>
      dec_group (.early (Instr.wlfloor g xa wl)) (by simp only [bit, groupW, beq_iff_eq]; omega) ?_ rfl
  rw [hd _ _ _ (by simp only [fld, groupW]; omega)]
  simp only [List.cons_append, List.nil_append, List.getD_cons_zero, List.getD_cons_succ]
  have e1 : fld (groupW op g (xa.val * 32768 + 0 * 512 + 0 * 8)) 21 4 = encG g := by simp only [fld, groupW]; omega
  have e2 : fld (groupW op g (xa.val * 32768 + 0 * 512 + 0 * 8)) 15 6 = xa.val := by simp only [fld, groupW]; omega
  have e3 : fld (groupW op g (xa.val * 32768 + 0 * 512 + 0 * 8)) 0 15 = 0 := by simp only [fld, groupW]; omega
  have e4 : fld (wlCtl 0 0 0 4 wl) 0 2 = wl.val := by simp only [fld, wlCtl]; omega
  have e5 : fld (wlCtl 0 0 0 4 wl) 2 3 = 4 := by simp only [fld, wlCtl]; omega
  have e6 : fld (wlCtl 0 0 0 4 wl) 5 7 = 0 := by simp only [fld, wlCtl]; omega
  have e7 : fld (wlCtl 0 0 0 4 wl) 12 3 = 0 := by simp only [fld, wlCtl]; omega
  have e8 : fld (wlCtl 0 0 0 4 wl) 15 2 = 0 := by simp only [fld, wlCtl]; omega
  have e9 : fld (wlCtl 0 0 0 4 wl) 17 4 = 0 := by simp only [fld, wlCtl]; omega
  have e10 : fld (wlCtl 0 0 0 4 wl) 21 11 = 0 := by simp only [fld, wlCtl]; omega
  have lw : Fin.ofNat 4 wl.val = wl := by simp
  have dl : decide (0 < 12) = true := decide_eq_true (by omega)
  simp only [e1, e2, e3, e4, e5, e6, e7, e8, e9, e10, decWlist, Dec.wl, guard_enc, lw, dl, xr_enc, ap_ok, map_ok, need_ok,
      beq_self_eq_true, Bool.not_false]

theorem reads_wlstat {op : Nat} {g : Guard} {xa : XReg} {wl : Fin 4} (ho : op < 64)
    (he : encode (Instr.wlstat g xa wl) = [groupW op g (xa.val * 32768 + 0 * 512 + 0 * 8), wlCtl 0 0 0 5 wl])
    (hw : (Instr.wlstat g xa wl).words = 2)
    (hd : ∀ w l l2, fld w 25 6 = op → decodeGroup w l l2 = (decWlist w l).map .early) : Reads (Instr.wlstat g xa wl) := by
  have h0 := encG_lt g
  refine Reads.of (he.trans rfl) (by rw [hw]; simp only [List.length_cons, List.length_append, List.length_nil]; try omega) fun tail =>
      dec_group (.early (Instr.wlstat g xa wl)) (by simp only [bit, groupW, beq_iff_eq]; omega) ?_ rfl
  rw [hd _ _ _ (by simp only [fld, groupW]; omega)]
  simp only [List.cons_append, List.nil_append, List.getD_cons_zero, List.getD_cons_succ]
  have e1 : fld (groupW op g (xa.val * 32768 + 0 * 512 + 0 * 8)) 21 4 = encG g := by simp only [fld, groupW]; omega
  have e2 : fld (groupW op g (xa.val * 32768 + 0 * 512 + 0 * 8)) 15 6 = xa.val := by simp only [fld, groupW]; omega
  have e3 : fld (groupW op g (xa.val * 32768 + 0 * 512 + 0 * 8)) 0 15 = 0 := by simp only [fld, groupW]; omega
  have e4 : fld (wlCtl 0 0 0 5 wl) 0 2 = wl.val := by simp only [fld, wlCtl]; omega
  have e5 : fld (wlCtl 0 0 0 5 wl) 2 3 = 5 := by simp only [fld, wlCtl]; omega
  have e6 : fld (wlCtl 0 0 0 5 wl) 5 7 = 0 := by simp only [fld, wlCtl]; omega
  have e7 : fld (wlCtl 0 0 0 5 wl) 12 3 = 0 := by simp only [fld, wlCtl]; omega
  have e8 : fld (wlCtl 0 0 0 5 wl) 15 2 = 0 := by simp only [fld, wlCtl]; omega
  have e9 : fld (wlCtl 0 0 0 5 wl) 17 4 = 0 := by simp only [fld, wlCtl]; omega
  have e10 : fld (wlCtl 0 0 0 5 wl) 21 11 = 0 := by simp only [fld, wlCtl]; omega
  have lw : Fin.ofNat 4 wl.val = wl := by simp
  have dl : decide (0 < 12) = true := decide_eq_true (by omega)
  simp only [e1, e2, e3, e4, e5, e6, e7, e8, e9, e10, decWlist, Dec.wl, guard_enc, lw, dl, xr_enc, ap_ok, map_ok, need_ok,
      beq_self_eq_true, Bool.not_false]

theorem reads_fenter {op : Nat} {g : Guard} {dep : Fin 8} {a : XReg} (ho : op < 64)
    (he : encode (Instr.fenter g dep a) = [groupW op g (0 * 32768 + a.val * 512 + 0 * 64 + dep.val * 8 + 0)])
    (hw : (Instr.fenter g dep a).words = 1)
    (hd : ∀ w l l2, fld w 25 6 = op → decodeGroup w l l2 = (decFrame w).map .early) : Reads (Instr.fenter g dep a) := by
  have h0 := encG_lt g
  refine Reads.of (he.trans rfl) (by rw [hw]; simp only [List.length_cons, List.length_append, List.length_nil]; try omega) fun tail =>
      dec_group (.early (Instr.fenter g dep a)) (by simp only [bit, groupW, beq_iff_eq]; omega) ?_ rfl
  rw [hd _ _ _ (by simp only [fld, groupW]; omega)]
  have e1 : fld (groupW op g (0 * 32768 + a.val * 512 + 0 * 64 + dep.val * 8 + 0)) 21 4 = encG g := by simp only [fld, groupW]; omega
  have e2 : fld (groupW op g (0 * 32768 + a.val * 512 + 0 * 64 + dep.val * 8 + 0)) 15 6 = 0 := by simp only [fld, groupW]; omega
  have e3 : fld (groupW op g (0 * 32768 + a.val * 512 + 0 * 64 + dep.val * 8 + 0)) 9 6 = a.val := by simp only [fld, groupW]; omega
  have e4 : fld (groupW op g (0 * 32768 + a.val * 512 + 0 * 64 + dep.val * 8 + 0)) 6 3 = 0 := by simp only [fld, groupW]; omega
  have e5 : fld (groupW op g (0 * 32768 + a.val * 512 + 0 * 64 + dep.val * 8 + 0)) 3 3 = dep.val := by simp only [fld, groupW]; omega
  have e6 : fld (groupW op g (0 * 32768 + a.val * 512 + 0 * 64 + dep.val * 8 + 0)) 0 3 = 0 := by simp only [fld, groupW]; omega
  simp only [e1, e2, e3, e4, e5, e6, decFrame, guard_enc, xr_enc, f8_enc, ap_ok, map_ok, need_ok, beq_self_eq_true, Bool.not_false]

theorem reads_fleave {op : Nat} {g : Guard} {dep : Fin 8} (ho : op < 64)
    (he : encode (Instr.fleave g dep) = [groupW op g (0 * 32768 + 0 * 512 + 1 * 64 + dep.val * 8 + 0)])
    (hw : (Instr.fleave g dep).words = 1)
    (hd : ∀ w l l2, fld w 25 6 = op → decodeGroup w l l2 = (decFrame w).map .early) : Reads (Instr.fleave g dep) := by
  have h0 := encG_lt g
  refine Reads.of (he.trans rfl) (by rw [hw]; simp only [List.length_cons, List.length_append, List.length_nil]; try omega) fun tail =>
      dec_group (.early (Instr.fleave g dep)) (by simp only [bit, groupW, beq_iff_eq]; omega) ?_ rfl
  rw [hd _ _ _ (by simp only [fld, groupW]; omega)]
  have e1 : fld (groupW op g (0 * 32768 + 0 * 512 + 1 * 64 + dep.val * 8 + 0)) 21 4 = encG g := by simp only [fld, groupW]; omega
  have e2 : fld (groupW op g (0 * 32768 + 0 * 512 + 1 * 64 + dep.val * 8 + 0)) 15 6 = 0 := by simp only [fld, groupW]; omega
  have e3 : fld (groupW op g (0 * 32768 + 0 * 512 + 1 * 64 + dep.val * 8 + 0)) 9 6 = 0 := by simp only [fld, groupW]; omega
  have e4 : fld (groupW op g (0 * 32768 + 0 * 512 + 1 * 64 + dep.val * 8 + 0)) 6 3 = 1 := by simp only [fld, groupW]; omega
  have e5 : fld (groupW op g (0 * 32768 + 0 * 512 + 1 * 64 + dep.val * 8 + 0)) 3 3 = dep.val := by simp only [fld, groupW]; omega
  have e6 : fld (groupW op g (0 * 32768 + 0 * 512 + 1 * 64 + dep.val * 8 + 0)) 0 3 = 0 := by simp only [fld, groupW]; omega
  simp only [e1, e2, e3, e4, e5, e6, decFrame, guard_enc, xr_enc, f8_enc, ap_ok, map_ok, need_ok, beq_self_eq_true, Bool.not_false]

theorem reads_fopen {op : Nat} {g : Guard} {cl : Bool} {dep : Fin 8} {a : XReg} {k : Fin 8} (ho : op < 64)
    (he : encode (Instr.fopen g cl dep a k) = [groupW op g (b1 cl * 32768 + a.val * 512 + 2 * 64 + dep.val * 8 + k.val)])
    (hw : (Instr.fopen g cl dep a k).words = 1)
    (hd : ∀ w l l2, fld w 25 6 = op → decodeGroup w l l2 = (decFrame w).map .early) : Reads (Instr.fopen g cl dep a k) := by
  have h0 := encG_lt g; have h1 := b1_lt cl
  refine Reads.of (he.trans rfl) (by rw [hw]; simp only [List.length_cons, List.length_append, List.length_nil]; try omega) fun tail =>
      dec_group (.early (Instr.fopen g cl dep a k)) (by simp only [bit, groupW, beq_iff_eq]; omega) ?_ rfl
  rw [hd _ _ _ (by simp only [fld, groupW]; omega)]
  have e1 : fld (groupW op g (b1 cl * 32768 + a.val * 512 + 2 * 64 + dep.val * 8 + k.val)) 21 4 = encG g := by
      simp only [fld, groupW]; omega
  have e2 : fld (groupW op g (b1 cl * 32768 + a.val * 512 + 2 * 64 + dep.val * 8 + k.val)) 15 6 = b1 cl := by
      simp only [fld, groupW]; omega
  have e3 : fld (groupW op g (b1 cl * 32768 + a.val * 512 + 2 * 64 + dep.val * 8 + k.val)) 9 6 = a.val := by
      simp only [fld, groupW]; omega
  have e4 : fld (groupW op g (b1 cl * 32768 + a.val * 512 + 2 * 64 + dep.val * 8 + k.val)) 6 3 = 2 := by simp only [fld, groupW]; omega
  have e5 : fld (groupW op g (b1 cl * 32768 + a.val * 512 + 2 * 64 + dep.val * 8 + k.val)) 3 3 = dep.val := by
      simp only [fld, groupW]; omega
  have e6 : fld (groupW op g (b1 cl * 32768 + a.val * 512 + 2 * 64 + dep.val * 8 + k.val)) 0 3 = k.val := by
      simp only [fld, groupW]; omega
  simp only [e1, e2, e3, e4, e5, e6, decFrame, guard_enc, xr_enc, f8_enc, b1_1, b1_lt2, ap_ok, map_ok, need_ok, beq_self_eq_true,
      Bool.not_false]

theorem reads_flink {op : Nat} {g : Guard} {dep : Fin 8} {a : XReg} (ho : op < 64)
    (he : encode (Instr.flink g dep a) = [groupW op g (0 * 32768 + a.val * 512 + 3 * 64 + dep.val * 8 + 0)])
    (hw : (Instr.flink g dep a).words = 1)
    (hd : ∀ w l l2, fld w 25 6 = op → decodeGroup w l l2 = (decFrame w).map .early) : Reads (Instr.flink g dep a) := by
  have h0 := encG_lt g
  refine Reads.of (he.trans rfl) (by rw [hw]; simp only [List.length_cons, List.length_append, List.length_nil]; try omega) fun tail =>
      dec_group (.early (Instr.flink g dep a)) (by simp only [bit, groupW, beq_iff_eq]; omega) ?_ rfl
  rw [hd _ _ _ (by simp only [fld, groupW]; omega)]
  have e1 : fld (groupW op g (0 * 32768 + a.val * 512 + 3 * 64 + dep.val * 8 + 0)) 21 4 = encG g := by simp only [fld, groupW]; omega
  have e2 : fld (groupW op g (0 * 32768 + a.val * 512 + 3 * 64 + dep.val * 8 + 0)) 15 6 = 0 := by simp only [fld, groupW]; omega
  have e3 : fld (groupW op g (0 * 32768 + a.val * 512 + 3 * 64 + dep.val * 8 + 0)) 9 6 = a.val := by simp only [fld, groupW]; omega
  have e4 : fld (groupW op g (0 * 32768 + a.val * 512 + 3 * 64 + dep.val * 8 + 0)) 6 3 = 3 := by simp only [fld, groupW]; omega
  have e5 : fld (groupW op g (0 * 32768 + a.val * 512 + 3 * 64 + dep.val * 8 + 0)) 3 3 = dep.val := by simp only [fld, groupW]; omega
  have e6 : fld (groupW op g (0 * 32768 + a.val * 512 + 3 * 64 + dep.val * 8 + 0)) 0 3 = 0 := by simp only [fld, groupW]; omega
  simp only [e1, e2, e3, e4, e5, e6, decFrame, guard_enc, xr_enc, f8_enc, ap_ok, map_ok, need_ok, beq_self_eq_true, Bool.not_false]

theorem reads_fhnd {op : Nat} {g : Guard} {x : XReg} {dep : Fin 8} (ho : op < 64)
    (he : encode (Instr.fhnd g x dep) = [groupW op g (x.val * 32768 + 0 * 512 + 4 * 64 + dep.val * 8 + 0)])
    (hw : (Instr.fhnd g x dep).words = 1)
    (hd : ∀ w l l2, fld w 25 6 = op → decodeGroup w l l2 = (decFrame w).map .early) : Reads (Instr.fhnd g x dep) := by
  have h0 := encG_lt g
  refine Reads.of (he.trans rfl) (by rw [hw]; simp only [List.length_cons, List.length_append, List.length_nil]; try omega) fun tail =>
      dec_group (.early (Instr.fhnd g x dep)) (by simp only [bit, groupW, beq_iff_eq]; omega) ?_ rfl
  rw [hd _ _ _ (by simp only [fld, groupW]; omega)]
  have e1 : fld (groupW op g (x.val * 32768 + 0 * 512 + 4 * 64 + dep.val * 8 + 0)) 21 4 = encG g := by simp only [fld, groupW]; omega
  have e2 : fld (groupW op g (x.val * 32768 + 0 * 512 + 4 * 64 + dep.val * 8 + 0)) 15 6 = x.val := by simp only [fld, groupW]; omega
  have e3 : fld (groupW op g (x.val * 32768 + 0 * 512 + 4 * 64 + dep.val * 8 + 0)) 9 6 = 0 := by simp only [fld, groupW]; omega
  have e4 : fld (groupW op g (x.val * 32768 + 0 * 512 + 4 * 64 + dep.val * 8 + 0)) 6 3 = 4 := by simp only [fld, groupW]; omega
  have e5 : fld (groupW op g (x.val * 32768 + 0 * 512 + 4 * 64 + dep.val * 8 + 0)) 3 3 = dep.val := by simp only [fld, groupW]; omega
  have e6 : fld (groupW op g (x.val * 32768 + 0 * 512 + 4 * 64 + dep.val * 8 + 0)) 0 3 = 0 := by simp only [fld, groupW]; omega
  simp only [e1, e2, e3, e4, e5, e6, decFrame, guard_enc, xr_enc, f8_enc, ap_ok, map_ok, need_ok, beq_self_eq_true, Bool.not_false]

theorem reads_fdrop {op : Nat} {g : Guard} {a : XReg} (ho : op < 64)
    (he : encode (Instr.fdrop g a) = [groupW op g (0 * 32768 + a.val * 512 + 5 * 64 + 0 * 8 + 0)])
    (hw : (Instr.fdrop g a).words = 1)
    (hd : ∀ w l l2, fld w 25 6 = op → decodeGroup w l l2 = (decFrame w).map .early) : Reads (Instr.fdrop g a) := by
  have h0 := encG_lt g
  refine Reads.of (he.trans rfl) (by rw [hw]; simp only [List.length_cons, List.length_append, List.length_nil]; try omega) fun tail =>
      dec_group (.early (Instr.fdrop g a)) (by simp only [bit, groupW, beq_iff_eq]; omega) ?_ rfl
  rw [hd _ _ _ (by simp only [fld, groupW]; omega)]
  have e1 : fld (groupW op g (0 * 32768 + a.val * 512 + 5 * 64 + 0 * 8 + 0)) 21 4 = encG g := by simp only [fld, groupW]; omega
  have e2 : fld (groupW op g (0 * 32768 + a.val * 512 + 5 * 64 + 0 * 8 + 0)) 15 6 = 0 := by simp only [fld, groupW]; omega
  have e3 : fld (groupW op g (0 * 32768 + a.val * 512 + 5 * 64 + 0 * 8 + 0)) 9 6 = a.val := by simp only [fld, groupW]; omega
  have e4 : fld (groupW op g (0 * 32768 + a.val * 512 + 5 * 64 + 0 * 8 + 0)) 6 3 = 5 := by simp only [fld, groupW]; omega
  have e5 : fld (groupW op g (0 * 32768 + a.val * 512 + 5 * 64 + 0 * 8 + 0)) 3 3 = 0 := by simp only [fld, groupW]; omega
  have e6 : fld (groupW op g (0 * 32768 + a.val * 512 + 5 * 64 + 0 * 8 + 0)) 0 3 = 0 := by simp only [fld, groupW]; omega
  simp only [e1, e2, e3, e4, e5, e6, decFrame, guard_enc, xr_enc, f8_enc, ap_ok, map_ok, need_ok, beq_self_eq_true, Bool.not_false]

theorem reads_fsync {op : Nat} {g : Guard} {dep : Fin 8} (ho : op < 64)
    (he : encode (Instr.fsync g dep) = [groupW op g (0 * 32768 + 0 * 512 + 6 * 64 + dep.val * 8 + 0)])
    (hw : (Instr.fsync g dep).words = 1)
    (hd : ∀ w l l2, fld w 25 6 = op → decodeGroup w l l2 = (decFrame w).map .early) : Reads (Instr.fsync g dep) := by
  have h0 := encG_lt g
  refine Reads.of (he.trans rfl) (by rw [hw]; simp only [List.length_cons, List.length_append, List.length_nil]; try omega) fun tail =>
      dec_group (.early (Instr.fsync g dep)) (by simp only [bit, groupW, beq_iff_eq]; omega) ?_ rfl
  rw [hd _ _ _ (by simp only [fld, groupW]; omega)]
  have e1 : fld (groupW op g (0 * 32768 + 0 * 512 + 6 * 64 + dep.val * 8 + 0)) 21 4 = encG g := by simp only [fld, groupW]; omega
  have e2 : fld (groupW op g (0 * 32768 + 0 * 512 + 6 * 64 + dep.val * 8 + 0)) 15 6 = 0 := by simp only [fld, groupW]; omega
  have e3 : fld (groupW op g (0 * 32768 + 0 * 512 + 6 * 64 + dep.val * 8 + 0)) 9 6 = 0 := by simp only [fld, groupW]; omega
  have e4 : fld (groupW op g (0 * 32768 + 0 * 512 + 6 * 64 + dep.val * 8 + 0)) 6 3 = 6 := by simp only [fld, groupW]; omega
  have e5 : fld (groupW op g (0 * 32768 + 0 * 512 + 6 * 64 + dep.val * 8 + 0)) 3 3 = dep.val := by simp only [fld, groupW]; omega
  have e6 : fld (groupW op g (0 * 32768 + 0 * 512 + 6 * 64 + dep.val * 8 + 0)) 0 3 = 0 := by simp only [fld, groupW]; omega
  simp only [e1, e2, e3, e4, e5, e6, decFrame, guard_enc, xr_enc, f8_enc, ap_ok, map_ok, need_ok, beq_self_eq_true, Bool.not_false]

theorem reads_funlink {op : Nat} {g : Guard} {dep : Fin 8} (ho : op < 64)
    (he : encode (Instr.funlink g dep) = [groupW op g (0 * 32768 + 0 * 512 + 7 * 64 + dep.val * 8 + 0)])
    (hw : (Instr.funlink g dep).words = 1)
    (hd : ∀ w l l2, fld w 25 6 = op → decodeGroup w l l2 = (decFrame w).map .early) : Reads (Instr.funlink g dep) := by
  have h0 := encG_lt g
  refine Reads.of (he.trans rfl) (by rw [hw]; simp only [List.length_cons, List.length_append, List.length_nil]; try omega) fun tail =>
      dec_group (.early (Instr.funlink g dep)) (by simp only [bit, groupW, beq_iff_eq]; omega) ?_ rfl
  rw [hd _ _ _ (by simp only [fld, groupW]; omega)]
  have e1 : fld (groupW op g (0 * 32768 + 0 * 512 + 7 * 64 + dep.val * 8 + 0)) 21 4 = encG g := by simp only [fld, groupW]; omega
  have e2 : fld (groupW op g (0 * 32768 + 0 * 512 + 7 * 64 + dep.val * 8 + 0)) 15 6 = 0 := by simp only [fld, groupW]; omega
  have e3 : fld (groupW op g (0 * 32768 + 0 * 512 + 7 * 64 + dep.val * 8 + 0)) 9 6 = 0 := by simp only [fld, groupW]; omega
  have e4 : fld (groupW op g (0 * 32768 + 0 * 512 + 7 * 64 + dep.val * 8 + 0)) 6 3 = 7 := by simp only [fld, groupW]; omega
  have e5 : fld (groupW op g (0 * 32768 + 0 * 512 + 7 * 64 + dep.val * 8 + 0)) 3 3 = dep.val := by simp only [fld, groupW]; omega
  have e6 : fld (groupW op g (0 * 32768 + 0 * 512 + 7 * 64 + dep.val * 8 + 0)) 0 3 = 0 := by simp only [fld, groupW]; omega
  simp only [e1, e2, e3, e4, e5, e6, decFrame, guard_enc, xr_enc, f8_enc, ap_ok, map_ok, need_ok, beq_self_eq_true, Bool.not_false]

theorem reads_rcall {c : Guard → Fin 1024 → VReg → VReg → Fin 8 → Fin 8 → Instr} {op : Nat} {g : Guard} {rg : Fin 1024} {av rv : VReg} {ac rc : Fin 8} {mode : Nat} (hm : mode < 4) (ho : op < 64)
    (he : encode (c g rg av rv ac rc) = [groupW op g (0),
        mode * 1073741824 + rc.val * 134217728 + rv.val * 1048576 + ac.val * 131072 + av.val * 1024 + rg.val])
    (hw : (c g rg av rv ac rc).words = 2)
    (hd : ∀ w l l2, fld w 25 6 = op → fld w 3 3 = 0 → fld l 30 2 = mode →
        decodeGroup w l l2 = ((((((((((Dec.ok c).ap (guardF (fld w 21 4))).ap (.ok (Fin.ofNat 1024 (fld l 0 10)))).ap (.ok (vr (fld l 10 7)))).ap (.ok (vr (fld l 20 7)))).ap (.ok (f8 (fld l 17 3)))).ap (.ok (f8 (fld l 27 3)))).need (fld l 10 7 + fld l 17 3 ≤ 127) 3).need (fld l 20 7 + fld l 27 3 ≤ 127) 3).need (fld w 6 15 == 0 && fld w 0 3 == 0) 4).map .early)
    (hl : av.val + ac.val ≤ 127 ∧ rv.val + rc.val ≤ 127) : Reads (c g rg av rv ac rc) := by
  have h0 := encG_lt g
  refine Reads.of (he.trans rfl) (by rw [hw]; simp only [List.length_cons, List.length_append, List.length_nil]; try omega) fun tail =>
      dec_group (.early (c g rg av rv ac rc)) (by simp only [bit, groupW, beq_iff_eq]; omega) ?_ rfl
  simp only [List.cons_append, List.nil_append, List.getD_cons_zero, List.getD_cons_succ]
  have e1 : fld (groupW op g (0)) 21 4 = encG g := by simp only [fld, groupW]; omega
  have e2 : fld (groupW op g (0)) 6 15 = 0 := by simp only [fld, groupW]; omega
  have e3 : fld (groupW op g (0)) 0 3 = 0 := by simp only [fld, groupW]; omega
  have e4 : fld (groupW op g (0)) 3 3 = 0 := by simp only [fld, groupW]; omega
  have e5 : fld (mode * 1073741824 + rc.val * 134217728 + rv.val * 1048576 + ac.val * 131072 + av.val * 1024 + rg.val) 30 2 = mode := by simp only [fld]; omega
  have e6 : fld (mode * 1073741824 + rc.val * 134217728 + rv.val * 1048576 + ac.val * 131072 + av.val * 1024 + rg.val) 0 10 = rg.val := by simp only [fld]; omega
  have e7 : fld (mode * 1073741824 + rc.val * 134217728 + rv.val * 1048576 + ac.val * 131072 + av.val * 1024 + rg.val) 10 7 = av.val := by simp only [fld]; omega
  have e8 : fld (mode * 1073741824 + rc.val * 134217728 + rv.val * 1048576 + ac.val * 131072 + av.val * 1024 + rg.val) 20 7 = rv.val := by simp only [fld]; omega
  have e9 : fld (mode * 1073741824 + rc.val * 134217728 + rv.val * 1048576 + ac.val * 131072 + av.val * 1024 + rg.val) 17 3 = ac.val := by simp only [fld]; omega
  have e10 : fld (mode * 1073741824 + rc.val * 134217728 + rv.val * 1048576 + ac.val * 131072 + av.val * 1024 + rg.val) 27 3 = rc.val := by simp only [fld]; omega
  rw [hd _ _ _ (by simp only [fld, groupW]; omega) e4 e5]
  have n1 : decide (av.val + ac.val ≤ 127) = true := decide_eq_true hl.1
  have n2 : decide (rv.val + rc.val ≤ 127) = true := decide_eq_true hl.2
  simp only [e1, e2, e3, e4, e5, e6, e7, e8, e9, e10, guard_enc, vr_enc, f8_enc, n1, n2, Bool.and_self, Fin.ofNat_eq_cast,
      Fin.cast_val_eq_self, ap_ok, map_ok, need_ok, beq_self_eq_true, Bool.not_false]

theorem reads_rret {op : Nat} {g : Guard}  (ho : op < 64)
    (he : encode (Instr.rret g) = [groupW op g (0 * 32768 + 0 * 512 + 1 * 8)])
    (hw : (Instr.rret g).words = 1)
    (hd : ∀ w l l2, fld w 25 6 = op → decodeGroup w l l2 = decRsur w l) : Reads (Instr.rret g) := by
  have h0 := encG_lt g
  refine Reads.of (he.trans rfl) (by rw [hw]; simp only [List.length_cons, List.length_append, List.length_nil]; try omega) fun tail =>
      dec_group (.early (Instr.rret g)) (by simp only [bit, groupW, beq_iff_eq]; omega) ?_ rfl
  rw [hd _ _ _ (by simp only [fld, groupW]; omega)]
  have e1 : fld (groupW op g (0 * 32768 + 0 * 512 + 1 * 8)) 21 4 = encG g := by simp only [fld, groupW]; omega
  have e2 : fld (groupW op g (0 * 32768 + 0 * 512 + 1 * 8)) 6 3 = 0 := by simp only [fld, groupW]; omega
  have e3 : fld (groupW op g (0 * 32768 + 0 * 512 + 1 * 8)) 0 3 = 0 := by simp only [fld, groupW]; omega
  have e4 : fld (groupW op g (0 * 32768 + 0 * 512 + 1 * 8)) 3 3 = 1 := by simp only [fld, groupW]; omega
  have e5 : fld (groupW op g (0 * 32768 + 0 * 512 + 1 * 8)) 15 6 = 0 := by simp only [fld, groupW]; omega
  have e6 : fld (groupW op g (0 * 32768 + 0 * 512 + 1 * 8)) 9 6 = 0 := by simp only [fld, groupW]; omega
  simp only [e1, e2, e3, e4, e5, e6, decRsur, guard_enc, Bool.and_self, ap_ok, map_ok, need_ok, beq_self_eq_true, Bool.not_false]

theorem reads_rload {op : Nat} {g : Guard} {b : XReg} (ho : op < 64)
    (he : encode (Instr.rload g b) = [groupW op g (0 * 32768 + b.val * 512 + 2 * 8)])
    (hw : (Instr.rload g b).words = 1)
    (hd : ∀ w l l2, fld w 25 6 = op → decodeGroup w l l2 = decRsur w l) : Reads (Instr.rload g b) := by
  have h0 := encG_lt g
  refine Reads.of (he.trans rfl) (by rw [hw]; simp only [List.length_cons, List.length_append, List.length_nil]; try omega) fun tail =>
      dec_group (.rload g b) (by simp only [bit, groupW, beq_iff_eq]; omega) ?_ rfl
  rw [hd _ _ _ (by simp only [fld, groupW]; omega)]
  have e1 : fld (groupW op g (0 * 32768 + b.val * 512 + 2 * 8)) 21 4 = encG g := by simp only [fld, groupW]; omega
  have e2 : fld (groupW op g (0 * 32768 + b.val * 512 + 2 * 8)) 6 3 = 0 := by simp only [fld, groupW]; omega
  have e3 : fld (groupW op g (0 * 32768 + b.val * 512 + 2 * 8)) 0 3 = 0 := by simp only [fld, groupW]; omega
  have e4 : fld (groupW op g (0 * 32768 + b.val * 512 + 2 * 8)) 3 3 = 2 := by simp only [fld, groupW]; omega
  have e5 : fld (groupW op g (0 * 32768 + b.val * 512 + 2 * 8)) 15 6 = 0 := by simp only [fld, groupW]; omega
  have e6 : fld (groupW op g (0 * 32768 + b.val * 512 + 2 * 8)) 9 6 = b.val := by simp only [fld, groupW]; omega
  simp only [e1, e2, e3, e4, e5, e6, decRsur, guard_enc, xr_enc, Bool.and_self, ap_ok, map_ok, need_ok, beq_self_eq_true, Bool.not_false]

theorem reads_rctlEvict {op : Nat} {g : Guard} {a b : XReg} (ho : op < 64)
    (he : encode (Instr.rctlEvict g a b) = [groupW op g (a.val * 32768 + b.val * 512 + 3 * 8)])
    (hw : (Instr.rctlEvict g a b).words = 1)
    (hd : ∀ w l l2, fld w 25 6 = op → decodeGroup w l l2 = decRsur w l) : Reads (Instr.rctlEvict g a b) := by
  have h0 := encG_lt g
  refine Reads.of (he.trans rfl) (by rw [hw]; simp only [List.length_cons, List.length_append, List.length_nil]; try omega) fun tail =>
      dec_group (.rctlEvict g a b) (by simp only [bit, groupW, beq_iff_eq]; omega) ?_ rfl
  rw [hd _ _ _ (by simp only [fld, groupW]; omega)]
  have e1 : fld (groupW op g (a.val * 32768 + b.val * 512 + 3 * 8)) 21 4 = encG g := by simp only [fld, groupW]; omega
  have e2 : fld (groupW op g (a.val * 32768 + b.val * 512 + 3 * 8)) 6 3 = 0 := by simp only [fld, groupW]; omega
  have e3 : fld (groupW op g (a.val * 32768 + b.val * 512 + 3 * 8)) 0 3 = 0 := by simp only [fld, groupW]; omega
  have e4 : fld (groupW op g (a.val * 32768 + b.val * 512 + 3 * 8)) 3 3 = 3 := by simp only [fld, groupW]; omega
  have e5 : fld (groupW op g (a.val * 32768 + b.val * 512 + 3 * 8)) 15 6 = a.val := by simp only [fld, groupW]; omega
  have e6 : fld (groupW op g (a.val * 32768 + b.val * 512 + 3 * 8)) 9 6 = b.val := by simp only [fld, groupW]; omega
  simp only [e1, e2, e3, e4, e5, e6, decRsur, guard_enc, xr_enc, Bool.and_self, ap_ok, map_ok, need_ok, beq_self_eq_true, Bool.not_false]

theorem reads_rctr {op : Nat} {g : Guard} {a b : XReg} (ho : op < 64)
    (he : encode (Instr.rctr g a b) = [groupW op g (a.val * 32768 + b.val * 512 + 4 * 8)])
    (hw : (Instr.rctr g a b).words = 1)
    (hd : ∀ w l l2, fld w 25 6 = op → decodeGroup w l l2 = decRsur w l) : Reads (Instr.rctr g a b) := by
  have h0 := encG_lt g
  refine Reads.of (he.trans rfl) (by rw [hw]; simp only [List.length_cons, List.length_append, List.length_nil]; try omega) fun tail =>
      dec_group (.rctr g a b) (by simp only [bit, groupW, beq_iff_eq]; omega) ?_ rfl
  rw [hd _ _ _ (by simp only [fld, groupW]; omega)]
  have e1 : fld (groupW op g (a.val * 32768 + b.val * 512 + 4 * 8)) 21 4 = encG g := by simp only [fld, groupW]; omega
  have e2 : fld (groupW op g (a.val * 32768 + b.val * 512 + 4 * 8)) 6 3 = 0 := by simp only [fld, groupW]; omega
  have e3 : fld (groupW op g (a.val * 32768 + b.val * 512 + 4 * 8)) 0 3 = 0 := by simp only [fld, groupW]; omega
  have e4 : fld (groupW op g (a.val * 32768 + b.val * 512 + 4 * 8)) 3 3 = 4 := by simp only [fld, groupW]; omega
  have e5 : fld (groupW op g (a.val * 32768 + b.val * 512 + 4 * 8)) 15 6 = a.val := by simp only [fld, groupW]; omega
  have e6 : fld (groupW op g (a.val * 32768 + b.val * 512 + 4 * 8)) 9 6 = b.val := by simp only [fld, groupW]; omega
  simp only [e1, e2, e3, e4, e5, e6, decRsur, guard_enc, xr_enc, Bool.and_self, ap_ok, map_ok, need_ok, beq_self_eq_true, Bool.not_false]

theorem reads_rinfo {op : Nat} {g : Guard} {a b : XReg} (ho : op < 64)
    (he : encode (Instr.rinfo g a b) = [groupW op g (a.val * 32768 + b.val * 512 + 5 * 8)])
    (hw : (Instr.rinfo g a b).words = 1)
    (hd : ∀ w l l2, fld w 25 6 = op → decodeGroup w l l2 = decRsur w l) : Reads (Instr.rinfo g a b) := by
  have h0 := encG_lt g
  refine Reads.of (he.trans rfl) (by rw [hw]; simp only [List.length_cons, List.length_append, List.length_nil]; try omega) fun tail =>
      dec_group (.rinfo g a b) (by simp only [bit, groupW, beq_iff_eq]; omega) ?_ rfl
  rw [hd _ _ _ (by simp only [fld, groupW]; omega)]
  have e1 : fld (groupW op g (a.val * 32768 + b.val * 512 + 5 * 8)) 21 4 = encG g := by simp only [fld, groupW]; omega
  have e2 : fld (groupW op g (a.val * 32768 + b.val * 512 + 5 * 8)) 6 3 = 0 := by simp only [fld, groupW]; omega
  have e3 : fld (groupW op g (a.val * 32768 + b.val * 512 + 5 * 8)) 0 3 = 0 := by simp only [fld, groupW]; omega
  have e4 : fld (groupW op g (a.val * 32768 + b.val * 512 + 5 * 8)) 3 3 = 5 := by simp only [fld, groupW]; omega
  have e5 : fld (groupW op g (a.val * 32768 + b.val * 512 + 5 * 8)) 15 6 = a.val := by simp only [fld, groupW]; omega
  have e6 : fld (groupW op g (a.val * 32768 + b.val * 512 + 5 * 8)) 9 6 = b.val := by simp only [fld, groupW]; omega
  simp only [e1, e2, e3, e4, e5, e6, decRsur, guard_enc, xr_enc, Bool.and_self, ap_ok, map_ok, need_ok, beq_self_eq_true, Bool.not_false]

theorem coll_ok (ty : DType) (p : ROp) (h : (p == .sum || p == .min || p == .max || ty.isInt) = true) :
    (decide (p.code < 3) || (decide (4 ≤ ty.code) && decide (ty.code ≤ 7))) = true := by
  revert h; cases ty <;> cases p <;> decide

theorem reads_collAllreduce {op : Nat} {g : Guard} {xa xb xc : XReg} {se re : BitVec 8} {ty : DType} {p : ROp} (ho : op < 64)
    (he : encode (Instr.collAllreduce g xa xb xc se re ty p) = [groupW op g (xa.val * 32768 + xb.val * 512 + xc.val * 8),
        re.toNat * 1048576 + se.toNat * 4096 + p.code * 256 + ty.code * 16 + 0])
    (hw : (Instr.collAllreduce g xa xb xc se re ty p).words = 2)
    (hd : ∀ w l l2, fld w 25 6 = op → decodeGroup w l l2 = decColl w l)
    (hl : (p == .sum || p == .min || p == .max || ty.isInt) = true) : Reads (Instr.collAllreduce g xa xb xc se re ty p) := by
  have h0 := encG_lt g; have h1 := se.isLt; have h2 := re.isLt; have h3 := dtype_lt ty; have h4 := rop_lt p
  refine Reads.of (he.trans rfl) (by rw [hw]; simp only [List.length_cons, List.length_append, List.length_nil]; try omega) fun tail =>
      dec_group (.collAllreduce g xa xb xc se re ty p) (by simp only [bit, groupW, beq_iff_eq]; omega) ?_ rfl
  rw [hd _ _ _ (by simp only [fld, groupW]; omega)]
  simp only [List.cons_append, List.nil_append, List.getD_cons_zero, List.getD_cons_succ]
  have e1 : fld (groupW op g (xa.val * 32768 + xb.val * 512 + xc.val * 8)) 21 4 = encG g := by simp only [fld, groupW]; omega
  have e2 : fld (groupW op g (xa.val * 32768 + xb.val * 512 + xc.val * 8)) 15 6 = xa.val := by simp only [fld, groupW]; omega
  have e3 : fld (groupW op g (xa.val * 32768 + xb.val * 512 + xc.val * 8)) 9 6 = xb.val := by simp only [fld, groupW]; omega
  have e4 : fld (groupW op g (xa.val * 32768 + xb.val * 512 + xc.val * 8)) 3 6 = xc.val := by simp only [fld, groupW]; omega
  have e5 : fld (groupW op g (xa.val * 32768 + xb.val * 512 + xc.val * 8)) 0 3 = 0 := by simp only [fld, groupW]; omega
  have e6 : fld (re.toNat * 1048576 + se.toNat * 4096 + p.code * 256 + ty.code * 16 + 0) 12 8 = se.toNat := by simp only [fld]; omega
  have e7 : fld (re.toNat * 1048576 + se.toNat * 4096 + p.code * 256 + ty.code * 16 + 0) 20 8 = re.toNat := by simp only [fld]; omega
  have e8 : fld (re.toNat * 1048576 + se.toNat * 4096 + p.code * 256 + ty.code * 16 + 0) 4 4 = ty.code := by simp only [fld]; omega
  have e9 : fld (re.toNat * 1048576 + se.toNat * 4096 + p.code * 256 + ty.code * 16 + 0) 28 4 = 0 := by simp only [fld]; omega
  have e10 : fld (re.toNat * 1048576 + se.toNat * 4096 + p.code * 256 + ty.code * 16 + 0) 8 4 = p.code := by simp only [fld]; omega
  have e11 : fld (re.toNat * 1048576 + se.toNat * 4096 + p.code * 256 + ty.code * 16 + 0) 0 4 = 0 := by simp only [fld]; omega
  simp only [e1, e2, e3, e4, e5, e6, e7, e8, e9, e10, e11, decColl, guard_enc, xr_enc, dtype_enc, rop_enc, coll_ok ty p hl,
      Bool.and_self, BitVec.ofNat_toNat, BitVec.setWidth_eq, ap_ok, map_ok, need_ok, beq_self_eq_true, Bool.not_false]

theorem reads_collReducescatter {op : Nat} {g : Guard} {xa xb xc : XReg} {se re : BitVec 8} {ty : DType} {p : ROp} (ho : op < 64)
    (he : encode (Instr.collReducescatter g xa xb xc se re ty p) = [groupW op g (xa.val * 32768 + xb.val * 512 + xc.val * 8),
        re.toNat * 1048576 + se.toNat * 4096 + p.code * 256 + ty.code * 16 + 1])
    (hw : (Instr.collReducescatter g xa xb xc se re ty p).words = 2)
    (hd : ∀ w l l2, fld w 25 6 = op → decodeGroup w l l2 = decColl w l)
    (hl : (p == .sum || p == .min || p == .max || ty.isInt) = true) : Reads (Instr.collReducescatter g xa xb xc se re ty p) := by
  have h0 := encG_lt g; have h1 := se.isLt; have h2 := re.isLt; have h3 := dtype_lt ty; have h4 := rop_lt p
  refine Reads.of (he.trans rfl) (by rw [hw]; simp only [List.length_cons, List.length_append, List.length_nil]; try omega) fun tail =>
      dec_group (.collReducescatter g xa xb xc se re ty p) (by simp only [bit, groupW, beq_iff_eq]; omega) ?_ rfl
  rw [hd _ _ _ (by simp only [fld, groupW]; omega)]
  simp only [List.cons_append, List.nil_append, List.getD_cons_zero, List.getD_cons_succ]
  have e1 : fld (groupW op g (xa.val * 32768 + xb.val * 512 + xc.val * 8)) 21 4 = encG g := by simp only [fld, groupW]; omega
  have e2 : fld (groupW op g (xa.val * 32768 + xb.val * 512 + xc.val * 8)) 15 6 = xa.val := by simp only [fld, groupW]; omega
  have e3 : fld (groupW op g (xa.val * 32768 + xb.val * 512 + xc.val * 8)) 9 6 = xb.val := by simp only [fld, groupW]; omega
  have e4 : fld (groupW op g (xa.val * 32768 + xb.val * 512 + xc.val * 8)) 3 6 = xc.val := by simp only [fld, groupW]; omega
  have e5 : fld (groupW op g (xa.val * 32768 + xb.val * 512 + xc.val * 8)) 0 3 = 0 := by simp only [fld, groupW]; omega
  have e6 : fld (re.toNat * 1048576 + se.toNat * 4096 + p.code * 256 + ty.code * 16 + 1) 12 8 = se.toNat := by simp only [fld]; omega
  have e7 : fld (re.toNat * 1048576 + se.toNat * 4096 + p.code * 256 + ty.code * 16 + 1) 20 8 = re.toNat := by simp only [fld]; omega
  have e8 : fld (re.toNat * 1048576 + se.toNat * 4096 + p.code * 256 + ty.code * 16 + 1) 4 4 = ty.code := by simp only [fld]; omega
  have e9 : fld (re.toNat * 1048576 + se.toNat * 4096 + p.code * 256 + ty.code * 16 + 1) 28 4 = 0 := by simp only [fld]; omega
  have e10 : fld (re.toNat * 1048576 + se.toNat * 4096 + p.code * 256 + ty.code * 16 + 1) 8 4 = p.code := by simp only [fld]; omega
  have e11 : fld (re.toNat * 1048576 + se.toNat * 4096 + p.code * 256 + ty.code * 16 + 1) 0 4 = 1 := by simp only [fld]; omega
  simp only [e1, e2, e3, e4, e5, e6, e7, e8, e9, e10, e11, decColl, guard_enc, xr_enc, dtype_enc, rop_enc, coll_ok ty p hl,
      Bool.and_self, BitVec.ofNat_toNat, BitVec.setWidth_eq, ap_ok, map_ok, need_ok, beq_self_eq_true, Bool.not_false]

theorem reads_collAllgather {op : Nat} {g : Guard} {xa xb xc : XReg} {se re : BitVec 8} {ty : DType} (ho : op < 64)
    (he : encode (Instr.collAllgather g xa xb xc se re ty) = [groupW op g (xa.val * 32768 + xb.val * 512 + xc.val * 8),
        re.toNat * 1048576 + se.toNat * 4096 + 0 * 256 + ty.code * 16 + 2])
    (hw : (Instr.collAllgather g xa xb xc se re ty).words = 2)
    (hd : ∀ w l l2, fld w 25 6 = op → decodeGroup w l l2 = decColl w l) : Reads (Instr.collAllgather g xa xb xc se re ty) := by
  have h0 := encG_lt g; have h1 := se.isLt; have h2 := re.isLt; have h3 := dtype_lt ty
  refine Reads.of (he.trans rfl) (by rw [hw]; simp only [List.length_cons, List.length_append, List.length_nil]; try omega) fun tail =>
      dec_group (.collAllgather g xa xb xc se re ty) (by simp only [bit, groupW, beq_iff_eq]; omega) ?_ rfl
  rw [hd _ _ _ (by simp only [fld, groupW]; omega)]
  simp only [List.cons_append, List.nil_append, List.getD_cons_zero, List.getD_cons_succ]
  have e1 : fld (groupW op g (xa.val * 32768 + xb.val * 512 + xc.val * 8)) 21 4 = encG g := by simp only [fld, groupW]; omega
  have e2 : fld (groupW op g (xa.val * 32768 + xb.val * 512 + xc.val * 8)) 15 6 = xa.val := by simp only [fld, groupW]; omega
  have e3 : fld (groupW op g (xa.val * 32768 + xb.val * 512 + xc.val * 8)) 9 6 = xb.val := by simp only [fld, groupW]; omega
  have e4 : fld (groupW op g (xa.val * 32768 + xb.val * 512 + xc.val * 8)) 3 6 = xc.val := by simp only [fld, groupW]; omega
  have e5 : fld (groupW op g (xa.val * 32768 + xb.val * 512 + xc.val * 8)) 0 3 = 0 := by simp only [fld, groupW]; omega
  have e6 : fld (re.toNat * 1048576 + se.toNat * 4096 + 0 * 256 + ty.code * 16 + 2) 12 8 = se.toNat := by simp only [fld]; omega
  have e7 : fld (re.toNat * 1048576 + se.toNat * 4096 + 0 * 256 + ty.code * 16 + 2) 20 8 = re.toNat := by simp only [fld]; omega
  have e8 : fld (re.toNat * 1048576 + se.toNat * 4096 + 0 * 256 + ty.code * 16 + 2) 4 4 = ty.code := by simp only [fld]; omega
  have e9 : fld (re.toNat * 1048576 + se.toNat * 4096 + 0 * 256 + ty.code * 16 + 2) 28 4 = 0 := by simp only [fld]; omega
  have e10 : fld (re.toNat * 1048576 + se.toNat * 4096 + 0 * 256 + ty.code * 16 + 2) 8 4 = 0 := by simp only [fld]; omega
  have e11 : fld (re.toNat * 1048576 + se.toNat * 4096 + 0 * 256 + ty.code * 16 + 2) 0 4 = 2 := by simp only [fld]; omega
  simp only [e1, e2, e3, e4, e5, e6, e7, e8, e9, e10, e11, decColl, guard_enc, xr_enc, dtype_enc, Bool.and_self, BitVec.ofNat_toNat,
      BitVec.setWidth_eq, ap_ok, map_ok, need_ok, beq_self_eq_true, Bool.not_false]

theorem reads_collBroadcast {op : Nat} {g : Guard} {xa xb xc : XReg} {se re : BitVec 8} {ty : DType} (ho : op < 64)
    (he : encode (Instr.collBroadcast g xa xb xc se re ty) = [groupW op g (xa.val * 32768 + xb.val * 512 + xc.val * 8),
        re.toNat * 1048576 + se.toNat * 4096 + 0 * 256 + ty.code * 16 + 3])
    (hw : (Instr.collBroadcast g xa xb xc se re ty).words = 2)
    (hd : ∀ w l l2, fld w 25 6 = op → decodeGroup w l l2 = decColl w l) : Reads (Instr.collBroadcast g xa xb xc se re ty) := by
  have h0 := encG_lt g; have h1 := se.isLt; have h2 := re.isLt; have h3 := dtype_lt ty
  refine Reads.of (he.trans rfl) (by rw [hw]; simp only [List.length_cons, List.length_append, List.length_nil]; try omega) fun tail =>
      dec_group (.collBroadcast g xa xb xc se re ty) (by simp only [bit, groupW, beq_iff_eq]; omega) ?_ rfl
  rw [hd _ _ _ (by simp only [fld, groupW]; omega)]
  simp only [List.cons_append, List.nil_append, List.getD_cons_zero, List.getD_cons_succ]
  have e1 : fld (groupW op g (xa.val * 32768 + xb.val * 512 + xc.val * 8)) 21 4 = encG g := by simp only [fld, groupW]; omega
  have e2 : fld (groupW op g (xa.val * 32768 + xb.val * 512 + xc.val * 8)) 15 6 = xa.val := by simp only [fld, groupW]; omega
  have e3 : fld (groupW op g (xa.val * 32768 + xb.val * 512 + xc.val * 8)) 9 6 = xb.val := by simp only [fld, groupW]; omega
  have e4 : fld (groupW op g (xa.val * 32768 + xb.val * 512 + xc.val * 8)) 3 6 = xc.val := by simp only [fld, groupW]; omega
  have e5 : fld (groupW op g (xa.val * 32768 + xb.val * 512 + xc.val * 8)) 0 3 = 0 := by simp only [fld, groupW]; omega
  have e6 : fld (re.toNat * 1048576 + se.toNat * 4096 + 0 * 256 + ty.code * 16 + 3) 12 8 = se.toNat := by simp only [fld]; omega
  have e7 : fld (re.toNat * 1048576 + se.toNat * 4096 + 0 * 256 + ty.code * 16 + 3) 20 8 = re.toNat := by simp only [fld]; omega
  have e8 : fld (re.toNat * 1048576 + se.toNat * 4096 + 0 * 256 + ty.code * 16 + 3) 4 4 = ty.code := by simp only [fld]; omega
  have e9 : fld (re.toNat * 1048576 + se.toNat * 4096 + 0 * 256 + ty.code * 16 + 3) 28 4 = 0 := by simp only [fld]; omega
  have e10 : fld (re.toNat * 1048576 + se.toNat * 4096 + 0 * 256 + ty.code * 16 + 3) 8 4 = 0 := by simp only [fld]; omega
  have e11 : fld (re.toNat * 1048576 + se.toNat * 4096 + 0 * 256 + ty.code * 16 + 3) 0 4 = 3 := by simp only [fld]; omega
  simp only [e1, e2, e3, e4, e5, e6, e7, e8, e9, e10, e11, decColl, guard_enc, xr_enc, dtype_enc, Bool.and_self, BitVec.ofNat_toNat,
      BitVec.setWidth_eq, ap_ok, map_ok, need_ok, beq_self_eq_true, Bool.not_false]

theorem reads_collAlltoall {op : Nat} {g : Guard} {xa xb xc : XReg} {se re : BitVec 8} {ty : DType} (ho : op < 64)
    (he : encode (Instr.collAlltoall g xa xb xc se re ty) = [groupW op g (xa.val * 32768 + xb.val * 512 + xc.val * 8),
        re.toNat * 1048576 + se.toNat * 4096 + 0 * 256 + ty.code * 16 + 4])
    (hw : (Instr.collAlltoall g xa xb xc se re ty).words = 2)
    (hd : ∀ w l l2, fld w 25 6 = op → decodeGroup w l l2 = decColl w l) : Reads (Instr.collAlltoall g xa xb xc se re ty) := by
  have h0 := encG_lt g; have h1 := se.isLt; have h2 := re.isLt; have h3 := dtype_lt ty
  refine Reads.of (he.trans rfl) (by rw [hw]; simp only [List.length_cons, List.length_append, List.length_nil]; try omega) fun tail =>
      dec_group (.collAlltoall g xa xb xc se re ty) (by simp only [bit, groupW, beq_iff_eq]; omega) ?_ rfl
  rw [hd _ _ _ (by simp only [fld, groupW]; omega)]
  simp only [List.cons_append, List.nil_append, List.getD_cons_zero, List.getD_cons_succ]
  have e1 : fld (groupW op g (xa.val * 32768 + xb.val * 512 + xc.val * 8)) 21 4 = encG g := by simp only [fld, groupW]; omega
  have e2 : fld (groupW op g (xa.val * 32768 + xb.val * 512 + xc.val * 8)) 15 6 = xa.val := by simp only [fld, groupW]; omega
  have e3 : fld (groupW op g (xa.val * 32768 + xb.val * 512 + xc.val * 8)) 9 6 = xb.val := by simp only [fld, groupW]; omega
  have e4 : fld (groupW op g (xa.val * 32768 + xb.val * 512 + xc.val * 8)) 3 6 = xc.val := by simp only [fld, groupW]; omega
  have e5 : fld (groupW op g (xa.val * 32768 + xb.val * 512 + xc.val * 8)) 0 3 = 0 := by simp only [fld, groupW]; omega
  have e6 : fld (re.toNat * 1048576 + se.toNat * 4096 + 0 * 256 + ty.code * 16 + 4) 12 8 = se.toNat := by simp only [fld]; omega
  have e7 : fld (re.toNat * 1048576 + se.toNat * 4096 + 0 * 256 + ty.code * 16 + 4) 20 8 = re.toNat := by simp only [fld]; omega
  have e8 : fld (re.toNat * 1048576 + se.toNat * 4096 + 0 * 256 + ty.code * 16 + 4) 4 4 = ty.code := by simp only [fld]; omega
  have e9 : fld (re.toNat * 1048576 + se.toNat * 4096 + 0 * 256 + ty.code * 16 + 4) 28 4 = 0 := by simp only [fld]; omega
  have e10 : fld (re.toNat * 1048576 + se.toNat * 4096 + 0 * 256 + ty.code * 16 + 4) 8 4 = 0 := by simp only [fld]; omega
  have e11 : fld (re.toNat * 1048576 + se.toNat * 4096 + 0 * 256 + ty.code * 16 + 4) 0 4 = 4 := by simp only [fld]; omega
  simp only [e1, e2, e3, e4, e5, e6, e7, e8, e9, e10, e11, decColl, guard_enc, xr_enc, dtype_enc, Bool.and_self, BitVec.ofNat_toNat,
      BitVec.setWidth_eq, ap_ok, map_ok, need_ok, beq_self_eq_true, Bool.not_false]

theorem reads_sys {op : Nat} {g : Guard} {a : XReg} {j : Instr} {r : Guard → XReg → Row} {fn : Nat} (hf : fn < 32768) (hr : (r g a).instr = j) (ho : op < 64)
    (he : encode (j) = [groupW op g (a.val * 32768 + fn)])
    (hw : (j).words = 1)
    (hd : ∀ w l l2, fld w 25 6 = op → fld w 0 15 = fn →
        decodeGroup w l l2 = (((Dec.ok r).ap (guardF (fld w 21 4))).ap (.ok (xr (fld w 15 6))))) : Reads (j) := by
  have h0 := encG_lt g
  refine Reads.of (he.trans rfl) (by rw [hw]; simp only [List.length_cons, List.length_append, List.length_nil]; try omega) fun tail =>
      dec_group (r g a) (by simp only [bit, groupW, beq_iff_eq]; omega) ?_ hr
  have e1 : fld (groupW op g (a.val * 32768 + fn)) 21 4 = encG g := by simp only [fld, groupW]; omega
  have e2 : fld (groupW op g (a.val * 32768 + fn)) 15 6 = a.val := by simp only [fld, groupW]; omega
  have e3 : fld (groupW op g (a.val * 32768 + fn)) 0 15 = fn := by simp only [fld, groupW]; omega
  rw [hd _ _ _ (by simp only [fld, groupW]; omega) e3]
  simp only [e1, e2, e3, guard_enc, xr_enc, ap_ok, map_ok, need_ok, beq_self_eq_true, Bool.not_false]

theorem reads_bkpt {op : Nat} {g : Guard}  (ho : op < 64)
    (he : encode (Instr.bkpt g) = [groupW op g (0 * 32768 + 0)])
    (hw : (Instr.bkpt g).words = 1)
    (hd : ∀ w l l2, fld w 25 6 = op → decodeGroup w l l2 = decSys w) : Reads (Instr.bkpt g) := by
  have h0 := encG_lt g
  refine Reads.of (he.trans rfl) (by rw [hw]; simp only [List.length_cons, List.length_append, List.length_nil]; try omega) fun tail =>
      dec_group (.bkpt g) (by simp only [bit, groupW, beq_iff_eq]; omega) ?_ rfl
  rw [hd _ _ _ (by simp only [fld, groupW]; omega)]
  have e1 : fld (groupW op g (0 * 32768 + 0)) 21 4 = encG g := by simp only [fld, groupW]; omega
  have e2 : fld (groupW op g (0 * 32768 + 0)) 15 6 = 0 := by simp only [fld, groupW]; omega
  have e3 : fld (groupW op g (0 * 32768 + 0)) 0 15 = 0 := by simp only [fld, groupW]; omega
  simp only [e1, e2, e3, decSys, guard_enc, ap_ok, map_ok, need_ok, beq_self_eq_true, Bool.not_false]

theorem reads_qdone {op : Nat} {g : Guard}  (ho : op < 64)
    (he : encode (Instr.qdone g) = [groupW op g (0 * 32768 + 9)])
    (hw : (Instr.qdone g).words = 1)
    (hd : ∀ w l l2, fld w 25 6 = op → decodeGroup w l l2 = decSys w) : Reads (Instr.qdone g) := by
  have h0 := encG_lt g
  refine Reads.of (he.trans rfl) (by rw [hw]; simp only [List.length_cons, List.length_append, List.length_nil]; try omega) fun tail =>
      dec_group (.qdone g) (by simp only [bit, groupW, beq_iff_eq]; omega) ?_ rfl
  rw [hd _ _ _ (by simp only [fld, groupW]; omega)]
  have e1 : fld (groupW op g (0 * 32768 + 9)) 21 4 = encG g := by simp only [fld, groupW]; omega
  have e2 : fld (groupW op g (0 * 32768 + 9)) 15 6 = 0 := by simp only [fld, groupW]; omega
  have e3 : fld (groupW op g (0 * 32768 + 9)) 0 15 = 9 := by simp only [fld, groupW]; omega
  simp only [e1, e2, e3, decSys, guard_enc, ap_ok, map_ok, need_ok, beq_self_eq_true, Bool.not_false]

theorem reads_nop (bits : BitVec 25) : Reads (.nop bits) := by
  have h := bits.isLt
  refine Reads.of (w := 2147483648 + bits.toNat) (rest := []) rfl rfl fun tail => dec_group (.early (.nop bits))
    (by simp only [bit, beq_iff_eq]; omega) ?_ rfl
  have e0 : fld (2147483648 + bits.toNat) 25 6 = 0 := by simp only [fld]; omega
  have e1 : fld (2147483648 + bits.toNat) 0 25 = bits.toNat := by simp only [fld]; omega
  unfold decodeGroup
  rw [e0]
  show (Dec.ok (Instr.nop (BitVec.ofNat 25 (fld (2147483648 + bits.toNat) 0 25)))).map Row.early = _
  rw [e1, BitVec.ofNat_toNat, BitVec.setWidth_eq, map_ok]

end Sys2Proof.Laws
end

