-- ==== Sys2Proof/Laws/Memory.lean ====
section
/-! SUPPORT. The canonical form of memory, and reading after writing (R127). -/

namespace Sys2Proof.Machine

theorem memWfFrom_le {lo lo' : Nat} {m : List (Nat × Byte)} (h : memWfFrom lo m = true) (hl : lo' ≤ lo) : memWfFrom lo' m = true := by
  cases m with
  | nil => rfl
  | cons p t =>
    obtain ⟨k, v⟩ := p
    simp only [memWfFrom, Bool.and_eq_true, decide_eq_true_eq] at h ⊢
    exact ⟨⟨by omega, h.1.2⟩, h.2⟩

theorem memPut_wf {m : List (Nat × Byte)} {a : Nat} {b : Byte} (hb : ¬b = 0#8) :
    ∀ {lo : Nat}, lo ≤ a → memWfFrom lo m = true → memWfFrom lo (memPut m a b) = true := by
  induction m with
  | nil => intro lo h _; simp [memPut, memWfFrom, h]; exact hb
  | cons p t ih =>
    obtain ⟨k, v⟩ := p
    intro lo hl h
    simp only [memWfFrom, Bool.and_eq_true, decide_eq_true_eq] at h
    unfold memPut
    split
    · rename_i e
      subst e
      simp [memWfFrom, hl, h.2]; exact hb
    · split
      · simp only [memWfFrom, Bool.and_eq_true, decide_eq_true_eq]
        exact ⟨⟨hl, by simp; exact hb⟩, ⟨by omega, h.1.2⟩, h.2⟩
      · simp only [memWfFrom, Bool.and_eq_true, decide_eq_true_eq]
        exact ⟨h.1, ih (by omega) h.2⟩

theorem memDel_wf {m : List (Nat × Byte)} {a : Nat} : ∀ {lo : Nat}, memWfFrom lo m = true → memWfFrom lo (memDel m a) = true := by
  induction m with
  | nil => intro lo _; rfl
  | cons p t ih =>
    obtain ⟨k, v⟩ := p
    intro lo h
    have h' := h
    simp only [memWfFrom, Bool.and_eq_true, decide_eq_true_eq] at h'
    unfold memDel
    split
    · exact memWfFrom_le h'.2 (by omega)
    · split
      · exact h
      · simp only [memWfFrom, Bool.and_eq_true, decide_eq_true_eq]
        exact ⟨h'.1, ih h'.2⟩

theorem memSet_wf {m : List (Nat × Byte)} (a : Nat) (b : Byte) (h : Memory.wf m = true) : Memory.wf (memSet m a b) = true := by
  unfold memSet
  split
  · exact memDel_wf h
  · exact memPut_wf ‹_› (Nat.zero_le a) h

theorem writeBytes_wf {m : List (Nat × Byte)} (bs : List Byte) : ∀ (a : Nat), Memory.wf m = true → Memory.wf (writeBytes m a bs) = true := by
  induction bs generalizing m with
  | nil => intro a h; exact h
  | cons b t ih => intro a h; exact ih (a + 1) (memSet_wf a b h)

theorem writeLE_wf (n : Nat) : ∀ {m : List (Nat × Byte)} (a v : Nat), Memory.wf m = true → Memory.wf (writeLE m a n v) = true := by
  induction n with
  | zero => intro m a v h; exact h
  | succ n ih => intro m a v h; exact ih _ _ (memSet_wf _ _ h)

theorem filter_wf (p : Nat × Byte → Bool) : ∀ {m : List (Nat × Byte)} {lo : Nat}, memWfFrom lo m = true → memWfFrom lo (m.filter p) = true := by
  intro m
  induction m with
  | nil => intro lo _; rfl
  | cons q t ih =>
    obtain ⟨k, v⟩ := q
    intro lo h
    simp only [memWfFrom, Bool.and_eq_true, decide_eq_true_eq] at h
    rw [List.filter_cons]
    split
    · simp only [memWfFrom, Bool.and_eq_true, decide_eq_true_eq]
      exact ⟨h.1, ih h.2⟩
    · exact memWfFrom_le (ih h.2) (by omega)

/-! ## Reading after writing -/

theorem memGet_below {m : List (Nat × Byte)} {lo a : Nat} (h : memWfFrom lo m = true) (ha : a < lo) : memGet m a = 0 := by
  cases m with
  | nil => rfl
  | cons p t =>
    obtain ⟨k, v⟩ := p
    simp only [memWfFrom, Bool.and_eq_true, decide_eq_true_eq] at h
    have : a < k := by omega
    simp [memGet, this, Nat.ne_of_lt this]

theorem memGet_memPut (m : List (Nat × Byte)) (a x : Nat) (b : Byte) : memGet (memPut m a b) x = if x = a then b else memGet m x := by
  induction m with
  | nil => simp only [memPut, memGet]; split <;> simp
  | cons p t ih =>
    obtain ⟨k, v⟩ := p
    unfold memPut
    split
    · rename_i e
      subst e
      simp only [memGet]
      split <;> rfl
    · split
      · simp only [memGet]
        split
        · rfl
        · split <;> split <;> first | rfl | omega | (split <;> first | rfl | omega)
      · simp only [memGet, ih]
        split
        · split
          · omega
          · rfl
        · split
          · split
            · omega
            · rfl
          · rfl

theorem memGet_memDel (m : List (Nat × Byte)) (a x : Nat) : ∀ {lo : Nat}, memWfFrom lo m = true →
    memGet (memDel m a) x = if x = a then 0 else memGet m x := by
  induction m with
  | nil => intro lo _; simp [memDel, memGet]
  | cons p t ih =>
    obtain ⟨k, v⟩ := p
    intro lo h
    simp only [memWfFrom, Bool.and_eq_true, decide_eq_true_eq] at h
    unfold memDel
    split
    · rename_i e
      subst e
      simp only [memGet]
      by_cases e : x = a
      · rw [if_pos e]; exact memGet_below h.2 (by omega)
      · rw [if_neg e, if_neg e]
        split
        · exact memGet_below h.2 (by omega)
        · rfl
    · split
      · simp only [memGet]
        by_cases e : x = a
        · rw [if_pos e]; split <;> first | omega | (split <;> first | rfl | omega)
        · rw [if_neg e]
      · simp only [memGet, ih h.2]
        by_cases e : x = a
        · subst e; simp; intro q; exact absurd q ‹_›
        · simp [e]

theorem memGet_memSet {m : List (Nat × Byte)} (h : Memory.wf m = true) (a x : Nat) (b : Byte) :
    memGet (memSet m a b) x = if x = a then b else memGet m x := by
  unfold memSet
  split
  · rename_i e; rw [memGet_memDel m a x h, e]
  · exact memGet_memPut m a x b

theorem memGet_writeBytes (bs : List Byte) : ∀ {m : List (Nat × Byte)} (a x : Nat), Memory.wf m = true →
    memGet (writeBytes m a bs) x = if a ≤ x ∧ x < a + bs.length then bs.getD (x - a) 0 else memGet m x := by
  induction bs with
  | nil => intro m a x _; simp [writeBytes]
  | cons b t ih =>
    intro m a x h
    show memGet (writeBytes (memSet m a b) (a + 1) t) x = _
    rw [ih _ _ (memSet_wf a b h), memGet_memSet h]
    by_cases e : x = a
    · subst e
      simp
    · have e1 : (a + 1 ≤ x ∧ x < a + 1 + t.length) ↔ (a ≤ x ∧ x < a + (b :: t).length) := by simp; omega
      by_cases e2 : a ≤ x ∧ x < a + (b :: t).length
      · rw [if_pos (e1.mpr e2), if_pos e2]
        have : x - a = (x - (a + 1)) + 1 := by omega
        rw [this, List.getD_cons_succ]
      · rw [if_neg (fun q => e2 (e1.mp q)), if_neg e2, if_neg e]

end Sys2Proof.Machine
end

