-- ==== Sys2Proof/Laws/State.lean ====
section
/-! SUPPORT. What each update of the state leaves and gives, field by field: no later proof unfolds a record update. -/

set_option Elab.async false

namespace Sys2Proof.Machine

@[simp] theorem State.onCur_trapq (s : State) (f : Thread → Thread) : (s.onCur f).trapq = s.trapq := rfl
@[simp] theorem State.onCur_agenda (s : State) (f : Thread → Thread) : (s.onCur f).agenda = s.agenda := rfl
@[simp] theorem State.onCur_sheaf (s : State) (f : Thread → Thread) : (s.onCur f).sheaf = s.sheaf := rfl
@[simp] theorem State.onCur_threads (s : State) (f : Thread → Thread) : (s.onCur f).threads = s.threads := rfl
@[simp] theorem State.onCur_wgs (s : State) (f : Thread → Thread) : (s.onCur f).wgs = s.wgs := rfl
@[simp] theorem State.onCur_gangs (s : State) (f : Thread → Thread) : (s.onCur f).gangs = s.gangs := rfl
@[simp] theorem State.onCur_launches (s : State) (f : Thread → Thread) : (s.onCur f).launches = s.launches := rfl
@[simp] theorem State.onCur_cores (s : State) (f : Thread → Thread) : (s.onCur f).cores = s.cores := rfl
@[simp] theorem State.onCur_l2 (s : State) (f : Thread → Thread) : (s.onCur f).l2 = s.l2 := rfl
@[simp] theorem State.onCur_ctxs (s : State) (f : Thread → Thread) : (s.onCur f).ctxs = s.ctxs := rfl
@[simp] theorem State.onCur_archives (s : State) (f : Thread → Thread) : (s.onCur f).archives = s.archives := rfl
@[simp] theorem State.onCur_queues (s : State) (f : Thread → Thread) : (s.onCur f).queues = s.queues := rfl
@[simp] theorem State.onCur_curators (s : State) (f : Thread → Thread) : (s.onCur f).curators = s.curators := rfl
@[simp] theorem State.onCur_rounds (s : State) (f : Thread → Thread) : (s.onCur f).rounds = s.rounds := rfl
@[simp] theorem State.onCur_switches (s : State) (f : Thread → Thread) : (s.onCur f).switches = s.switches := rfl
@[simp] theorem State.onCur_cfg (s : State) (f : Thread → Thread) : (s.onCur f).cfg = s.cfg := rfl
@[simp] theorem State.onCur_tick (s : State) (f : Thread → Thread) : (s.onCur f).tick = s.tick := rfl
@[simp] theorem State.onCur_stopped (s : State) (f : Thread → Thread) : (s.onCur f).stopped = s.stopped := rfl
@[simp] theorem State.onCur_recovery (s : State) (f : Thread → Thread) : (s.onCur f).recovery = s.recovery := rfl
@[simp] theorem State.onCur_spares (s : State) (f : Thread → Thread) : (s.onCur f).spares = s.spares := rfl
@[simp] theorem State.onCur_outClusters (s : State) (f : Thread → Thread) : (s.onCur f).outClusters = s.outClusters := rfl
@[simp] theorem State.onCur_hbmRet (s : State) (f : Thread → Thread) : (s.onCur f).hbmRet = s.hbmRet := rfl
@[simp] theorem State.onCur_vbRet (s : State) (f : Thread → Thread) : (s.onCur f).vbRet = s.vbRet := rfl
@[simp] theorem State.onCur_links (s : State) (f : Thread → Thread) : (s.onCur f).links = s.links := rfl
@[simp] theorem State.onCur_inPod (s : State) (f : Thread → Thread) : (s.onCur f).inPod = s.inPod := rfl
@[simp] theorem State.onCur_egress (s : State) (f : Thread → Thread) : (s.onCur f).egress = s.egress := rfl
@[simp] theorem State.onCur_posted (s : State) (f : Thread → Thread) : (s.onCur f).posted = s.posted := rfl
@[simp] theorem State.onCur_quote (s : State) (f : Thread → Thread) : (s.onCur f).quote = s.quote := rfl
@[simp] theorem State.onCur_answers (s : State) (f : Thread → Thread) : (s.onCur f).answers = s.answers := rfl
@[simp] theorem State.onCur_viol (s : State) (f : Thread → Thread) : (s.onCur f).viol = s.viol := rfl
@[simp] theorem State.onCur_turn (s : State) (f : Thread → Thread) : (s.onCur f).turn = s.turn := rfl
@[simp] theorem State.onCur_mem (s : State) (f : Thread → Thread) : (s.onCur f).mem = s.mem := rfl
@[simp] theorem State.onCur_poison (s : State) (f : Thread → Thread) : (s.onCur f).poison = s.poison := rfl
@[simp] theorem State.onCur_fresh (s : State) (f : Thread → Thread) : (s.onCur f).fresh = s.fresh := rfl
@[simp] theorem State.onCur_uid (s : State) (f : Thread → Thread) : (s.onCur f).uid = s.uid := rfl

@[simp] theorem State.onCur_cur (s : State) (f : Thread → Thread) : (s.onCur f).cur = f s.cur := rfl

@[simp] theorem State.onRegs_trapq (s : State) (f : Regs → Regs) : (s.onRegs f).trapq = s.trapq := rfl
@[simp] theorem State.onRegs_agenda (s : State) (f : Regs → Regs) : (s.onRegs f).agenda = s.agenda := rfl
@[simp] theorem State.onRegs_sheaf (s : State) (f : Regs → Regs) : (s.onRegs f).sheaf = s.sheaf := rfl
@[simp] theorem State.onRegs_threads (s : State) (f : Regs → Regs) : (s.onRegs f).threads = s.threads := rfl
@[simp] theorem State.onRegs_wgs (s : State) (f : Regs → Regs) : (s.onRegs f).wgs = s.wgs := rfl
@[simp] theorem State.onRegs_gangs (s : State) (f : Regs → Regs) : (s.onRegs f).gangs = s.gangs := rfl
@[simp] theorem State.onRegs_launches (s : State) (f : Regs → Regs) : (s.onRegs f).launches = s.launches := rfl
@[simp] theorem State.onRegs_cores (s : State) (f : Regs → Regs) : (s.onRegs f).cores = s.cores := rfl
@[simp] theorem State.onRegs_l2 (s : State) (f : Regs → Regs) : (s.onRegs f).l2 = s.l2 := rfl
@[simp] theorem State.onRegs_ctxs (s : State) (f : Regs → Regs) : (s.onRegs f).ctxs = s.ctxs := rfl
@[simp] theorem State.onRegs_archives (s : State) (f : Regs → Regs) : (s.onRegs f).archives = s.archives := rfl
@[simp] theorem State.onRegs_queues (s : State) (f : Regs → Regs) : (s.onRegs f).queues = s.queues := rfl
@[simp] theorem State.onRegs_curators (s : State) (f : Regs → Regs) : (s.onRegs f).curators = s.curators := rfl
@[simp] theorem State.onRegs_rounds (s : State) (f : Regs → Regs) : (s.onRegs f).rounds = s.rounds := rfl
@[simp] theorem State.onRegs_switches (s : State) (f : Regs → Regs) : (s.onRegs f).switches = s.switches := rfl
@[simp] theorem State.onRegs_cfg (s : State) (f : Regs → Regs) : (s.onRegs f).cfg = s.cfg := rfl
@[simp] theorem State.onRegs_tick (s : State) (f : Regs → Regs) : (s.onRegs f).tick = s.tick := rfl
@[simp] theorem State.onRegs_stopped (s : State) (f : Regs → Regs) : (s.onRegs f).stopped = s.stopped := rfl
@[simp] theorem State.onRegs_recovery (s : State) (f : Regs → Regs) : (s.onRegs f).recovery = s.recovery := rfl
@[simp] theorem State.onRegs_spares (s : State) (f : Regs → Regs) : (s.onRegs f).spares = s.spares := rfl
@[simp] theorem State.onRegs_outClusters (s : State) (f : Regs → Regs) : (s.onRegs f).outClusters = s.outClusters := rfl
@[simp] theorem State.onRegs_hbmRet (s : State) (f : Regs → Regs) : (s.onRegs f).hbmRet = s.hbmRet := rfl
@[simp] theorem State.onRegs_vbRet (s : State) (f : Regs → Regs) : (s.onRegs f).vbRet = s.vbRet := rfl
@[simp] theorem State.onRegs_links (s : State) (f : Regs → Regs) : (s.onRegs f).links = s.links := rfl
@[simp] theorem State.onRegs_inPod (s : State) (f : Regs → Regs) : (s.onRegs f).inPod = s.inPod := rfl
@[simp] theorem State.onRegs_egress (s : State) (f : Regs → Regs) : (s.onRegs f).egress = s.egress := rfl
@[simp] theorem State.onRegs_posted (s : State) (f : Regs → Regs) : (s.onRegs f).posted = s.posted := rfl
@[simp] theorem State.onRegs_quote (s : State) (f : Regs → Regs) : (s.onRegs f).quote = s.quote := rfl
@[simp] theorem State.onRegs_answers (s : State) (f : Regs → Regs) : (s.onRegs f).answers = s.answers := rfl
@[simp] theorem State.onRegs_viol (s : State) (f : Regs → Regs) : (s.onRegs f).viol = s.viol := rfl
@[simp] theorem State.onRegs_turn (s : State) (f : Regs → Regs) : (s.onRegs f).turn = s.turn := rfl
@[simp] theorem State.onRegs_mem (s : State) (f : Regs → Regs) : (s.onRegs f).mem = s.mem := rfl
@[simp] theorem State.onRegs_poison (s : State) (f : Regs → Regs) : (s.onRegs f).poison = s.poison := rfl
@[simp] theorem State.onRegs_fresh (s : State) (f : Regs → Regs) : (s.onRegs f).fresh = s.fresh := rfl
@[simp] theorem State.onRegs_uid (s : State) (f : Regs → Regs) : (s.onRegs f).uid = s.uid := rfl

@[simp] theorem State.onRegs_cur (s : State) (f : Regs → Regs) : (s.onRegs f).cur = { s.cur with r := f s.cur.r } := rfl

@[simp] theorem State.adv_trapq (s : State) (n : Nat) : (s.adv n).trapq = s.trapq := rfl
@[simp] theorem State.adv_agenda (s : State) (n : Nat) : (s.adv n).agenda = s.agenda := rfl
@[simp] theorem State.adv_sheaf (s : State) (n : Nat) : (s.adv n).sheaf = s.sheaf := rfl
@[simp] theorem State.adv_threads (s : State) (n : Nat) : (s.adv n).threads = s.threads := rfl
@[simp] theorem State.adv_wgs (s : State) (n : Nat) : (s.adv n).wgs = s.wgs := rfl
@[simp] theorem State.adv_gangs (s : State) (n : Nat) : (s.adv n).gangs = s.gangs := rfl
@[simp] theorem State.adv_launches (s : State) (n : Nat) : (s.adv n).launches = s.launches := rfl
@[simp] theorem State.adv_cores (s : State) (n : Nat) : (s.adv n).cores = s.cores := rfl
@[simp] theorem State.adv_l2 (s : State) (n : Nat) : (s.adv n).l2 = s.l2 := rfl
@[simp] theorem State.adv_ctxs (s : State) (n : Nat) : (s.adv n).ctxs = s.ctxs := rfl
@[simp] theorem State.adv_archives (s : State) (n : Nat) : (s.adv n).archives = s.archives := rfl
@[simp] theorem State.adv_queues (s : State) (n : Nat) : (s.adv n).queues = s.queues := rfl
@[simp] theorem State.adv_curators (s : State) (n : Nat) : (s.adv n).curators = s.curators := rfl
@[simp] theorem State.adv_rounds (s : State) (n : Nat) : (s.adv n).rounds = s.rounds := rfl
@[simp] theorem State.adv_switches (s : State) (n : Nat) : (s.adv n).switches = s.switches := rfl
@[simp] theorem State.adv_cfg (s : State) (n : Nat) : (s.adv n).cfg = s.cfg := rfl
@[simp] theorem State.adv_tick (s : State) (n : Nat) : (s.adv n).tick = s.tick := rfl
@[simp] theorem State.adv_stopped (s : State) (n : Nat) : (s.adv n).stopped = s.stopped := rfl
@[simp] theorem State.adv_recovery (s : State) (n : Nat) : (s.adv n).recovery = s.recovery := rfl
@[simp] theorem State.adv_spares (s : State) (n : Nat) : (s.adv n).spares = s.spares := rfl
@[simp] theorem State.adv_outClusters (s : State) (n : Nat) : (s.adv n).outClusters = s.outClusters := rfl
@[simp] theorem State.adv_hbmRet (s : State) (n : Nat) : (s.adv n).hbmRet = s.hbmRet := rfl
@[simp] theorem State.adv_vbRet (s : State) (n : Nat) : (s.adv n).vbRet = s.vbRet := rfl
@[simp] theorem State.adv_links (s : State) (n : Nat) : (s.adv n).links = s.links := rfl
@[simp] theorem State.adv_inPod (s : State) (n : Nat) : (s.adv n).inPod = s.inPod := rfl
@[simp] theorem State.adv_egress (s : State) (n : Nat) : (s.adv n).egress = s.egress := rfl
@[simp] theorem State.adv_posted (s : State) (n : Nat) : (s.adv n).posted = s.posted := rfl
@[simp] theorem State.adv_quote (s : State) (n : Nat) : (s.adv n).quote = s.quote := rfl
@[simp] theorem State.adv_answers (s : State) (n : Nat) : (s.adv n).answers = s.answers := rfl
@[simp] theorem State.adv_viol (s : State) (n : Nat) : (s.adv n).viol = s.viol := rfl
@[simp] theorem State.adv_turn (s : State) (n : Nat) : (s.adv n).turn = s.turn := rfl
@[simp] theorem State.adv_mem (s : State) (n : Nat) : (s.adv n).mem = s.mem := rfl
@[simp] theorem State.adv_poison (s : State) (n : Nat) : (s.adv n).poison = s.poison := rfl
@[simp] theorem State.adv_fresh (s : State) (n : Nat) : (s.adv n).fresh = s.fresh := rfl
@[simp] theorem State.adv_uid (s : State) (n : Nat) : (s.adv n).uid = s.uid := rfl

@[simp] theorem State.adv_cur (s : State) (n : Nat) : (s.adv n).cur = { s.cur with r := s.cur.r.adv n } := rfl

@[simp] theorem State.onCtx_trapq (s : State) (n : Nat) (f : Ctx → Ctx) : (s.onCtx n f).trapq = s.trapq := rfl
@[simp] theorem State.onCtx_agenda (s : State) (n : Nat) (f : Ctx → Ctx) : (s.onCtx n f).agenda = s.agenda := rfl
@[simp] theorem State.onCtx_cur (s : State) (n : Nat) (f : Ctx → Ctx) : (s.onCtx n f).cur = s.cur := rfl
@[simp] theorem State.onCtx_sheaf (s : State) (n : Nat) (f : Ctx → Ctx) : (s.onCtx n f).sheaf = s.sheaf := rfl
@[simp] theorem State.onCtx_threads (s : State) (n : Nat) (f : Ctx → Ctx) : (s.onCtx n f).threads = s.threads := rfl
@[simp] theorem State.onCtx_wgs (s : State) (n : Nat) (f : Ctx → Ctx) : (s.onCtx n f).wgs = s.wgs := rfl
@[simp] theorem State.onCtx_gangs (s : State) (n : Nat) (f : Ctx → Ctx) : (s.onCtx n f).gangs = s.gangs := rfl
@[simp] theorem State.onCtx_launches (s : State) (n : Nat) (f : Ctx → Ctx) : (s.onCtx n f).launches = s.launches := rfl
@[simp] theorem State.onCtx_cores (s : State) (n : Nat) (f : Ctx → Ctx) : (s.onCtx n f).cores = s.cores := rfl
@[simp] theorem State.onCtx_l2 (s : State) (n : Nat) (f : Ctx → Ctx) : (s.onCtx n f).l2 = s.l2 := rfl
@[simp] theorem State.onCtx_archives (s : State) (n : Nat) (f : Ctx → Ctx) : (s.onCtx n f).archives = s.archives := rfl
@[simp] theorem State.onCtx_queues (s : State) (n : Nat) (f : Ctx → Ctx) : (s.onCtx n f).queues = s.queues := rfl
@[simp] theorem State.onCtx_curators (s : State) (n : Nat) (f : Ctx → Ctx) : (s.onCtx n f).curators = s.curators := rfl
@[simp] theorem State.onCtx_rounds (s : State) (n : Nat) (f : Ctx → Ctx) : (s.onCtx n f).rounds = s.rounds := rfl
@[simp] theorem State.onCtx_switches (s : State) (n : Nat) (f : Ctx → Ctx) : (s.onCtx n f).switches = s.switches := rfl
@[simp] theorem State.onCtx_cfg (s : State) (n : Nat) (f : Ctx → Ctx) : (s.onCtx n f).cfg = s.cfg := rfl
@[simp] theorem State.onCtx_tick (s : State) (n : Nat) (f : Ctx → Ctx) : (s.onCtx n f).tick = s.tick := rfl
@[simp] theorem State.onCtx_stopped (s : State) (n : Nat) (f : Ctx → Ctx) : (s.onCtx n f).stopped = s.stopped := rfl
@[simp] theorem State.onCtx_recovery (s : State) (n : Nat) (f : Ctx → Ctx) : (s.onCtx n f).recovery = s.recovery := rfl
@[simp] theorem State.onCtx_spares (s : State) (n : Nat) (f : Ctx → Ctx) : (s.onCtx n f).spares = s.spares := rfl
@[simp] theorem State.onCtx_outClusters (s : State) (n : Nat) (f : Ctx → Ctx) : (s.onCtx n f).outClusters = s.outClusters := rfl
@[simp] theorem State.onCtx_hbmRet (s : State) (n : Nat) (f : Ctx → Ctx) : (s.onCtx n f).hbmRet = s.hbmRet := rfl
@[simp] theorem State.onCtx_vbRet (s : State) (n : Nat) (f : Ctx → Ctx) : (s.onCtx n f).vbRet = s.vbRet := rfl
@[simp] theorem State.onCtx_links (s : State) (n : Nat) (f : Ctx → Ctx) : (s.onCtx n f).links = s.links := rfl
@[simp] theorem State.onCtx_inPod (s : State) (n : Nat) (f : Ctx → Ctx) : (s.onCtx n f).inPod = s.inPod := rfl
@[simp] theorem State.onCtx_egress (s : State) (n : Nat) (f : Ctx → Ctx) : (s.onCtx n f).egress = s.egress := rfl
@[simp] theorem State.onCtx_posted (s : State) (n : Nat) (f : Ctx → Ctx) : (s.onCtx n f).posted = s.posted := rfl
@[simp] theorem State.onCtx_quote (s : State) (n : Nat) (f : Ctx → Ctx) : (s.onCtx n f).quote = s.quote := rfl
@[simp] theorem State.onCtx_answers (s : State) (n : Nat) (f : Ctx → Ctx) : (s.onCtx n f).answers = s.answers := rfl
@[simp] theorem State.onCtx_viol (s : State) (n : Nat) (f : Ctx → Ctx) : (s.onCtx n f).viol = s.viol := rfl
@[simp] theorem State.onCtx_turn (s : State) (n : Nat) (f : Ctx → Ctx) : (s.onCtx n f).turn = s.turn := rfl
@[simp] theorem State.onCtx_mem (s : State) (n : Nat) (f : Ctx → Ctx) : (s.onCtx n f).mem = s.mem := rfl
@[simp] theorem State.onCtx_poison (s : State) (n : Nat) (f : Ctx → Ctx) : (s.onCtx n f).poison = s.poison := rfl
@[simp] theorem State.onCtx_fresh (s : State) (n : Nat) (f : Ctx → Ctx) : (s.onCtx n f).fresh = s.fresh := rfl
@[simp] theorem State.onCtx_uid (s : State) (n : Nat) (f : Ctx → Ctx) : (s.onCtx n f).uid = s.uid := rfl

@[simp] theorem State.onWg_trapq (s : State) (n : Nat) (f : Wg → Wg) : (s.onWg n f).trapq = s.trapq := rfl
@[simp] theorem State.onWg_agenda (s : State) (n : Nat) (f : Wg → Wg) : (s.onWg n f).agenda = s.agenda := rfl
@[simp] theorem State.onWg_cur (s : State) (n : Nat) (f : Wg → Wg) : (s.onWg n f).cur = s.cur := rfl
@[simp] theorem State.onWg_sheaf (s : State) (n : Nat) (f : Wg → Wg) : (s.onWg n f).sheaf = s.sheaf := rfl
@[simp] theorem State.onWg_threads (s : State) (n : Nat) (f : Wg → Wg) : (s.onWg n f).threads = s.threads := rfl
@[simp] theorem State.onWg_gangs (s : State) (n : Nat) (f : Wg → Wg) : (s.onWg n f).gangs = s.gangs := rfl
@[simp] theorem State.onWg_launches (s : State) (n : Nat) (f : Wg → Wg) : (s.onWg n f).launches = s.launches := rfl
@[simp] theorem State.onWg_cores (s : State) (n : Nat) (f : Wg → Wg) : (s.onWg n f).cores = s.cores := rfl
@[simp] theorem State.onWg_l2 (s : State) (n : Nat) (f : Wg → Wg) : (s.onWg n f).l2 = s.l2 := rfl
@[simp] theorem State.onWg_ctxs (s : State) (n : Nat) (f : Wg → Wg) : (s.onWg n f).ctxs = s.ctxs := rfl
@[simp] theorem State.onWg_archives (s : State) (n : Nat) (f : Wg → Wg) : (s.onWg n f).archives = s.archives := rfl
@[simp] theorem State.onWg_queues (s : State) (n : Nat) (f : Wg → Wg) : (s.onWg n f).queues = s.queues := rfl
@[simp] theorem State.onWg_curators (s : State) (n : Nat) (f : Wg → Wg) : (s.onWg n f).curators = s.curators := rfl
@[simp] theorem State.onWg_rounds (s : State) (n : Nat) (f : Wg → Wg) : (s.onWg n f).rounds = s.rounds := rfl
@[simp] theorem State.onWg_switches (s : State) (n : Nat) (f : Wg → Wg) : (s.onWg n f).switches = s.switches := rfl
@[simp] theorem State.onWg_cfg (s : State) (n : Nat) (f : Wg → Wg) : (s.onWg n f).cfg = s.cfg := rfl
@[simp] theorem State.onWg_tick (s : State) (n : Nat) (f : Wg → Wg) : (s.onWg n f).tick = s.tick := rfl
@[simp] theorem State.onWg_stopped (s : State) (n : Nat) (f : Wg → Wg) : (s.onWg n f).stopped = s.stopped := rfl
@[simp] theorem State.onWg_recovery (s : State) (n : Nat) (f : Wg → Wg) : (s.onWg n f).recovery = s.recovery := rfl
@[simp] theorem State.onWg_spares (s : State) (n : Nat) (f : Wg → Wg) : (s.onWg n f).spares = s.spares := rfl
@[simp] theorem State.onWg_outClusters (s : State) (n : Nat) (f : Wg → Wg) : (s.onWg n f).outClusters = s.outClusters := rfl
@[simp] theorem State.onWg_hbmRet (s : State) (n : Nat) (f : Wg → Wg) : (s.onWg n f).hbmRet = s.hbmRet := rfl
@[simp] theorem State.onWg_vbRet (s : State) (n : Nat) (f : Wg → Wg) : (s.onWg n f).vbRet = s.vbRet := rfl
@[simp] theorem State.onWg_links (s : State) (n : Nat) (f : Wg → Wg) : (s.onWg n f).links = s.links := rfl
@[simp] theorem State.onWg_inPod (s : State) (n : Nat) (f : Wg → Wg) : (s.onWg n f).inPod = s.inPod := rfl
@[simp] theorem State.onWg_egress (s : State) (n : Nat) (f : Wg → Wg) : (s.onWg n f).egress = s.egress := rfl
@[simp] theorem State.onWg_posted (s : State) (n : Nat) (f : Wg → Wg) : (s.onWg n f).posted = s.posted := rfl
@[simp] theorem State.onWg_quote (s : State) (n : Nat) (f : Wg → Wg) : (s.onWg n f).quote = s.quote := rfl
@[simp] theorem State.onWg_answers (s : State) (n : Nat) (f : Wg → Wg) : (s.onWg n f).answers = s.answers := rfl
@[simp] theorem State.onWg_viol (s : State) (n : Nat) (f : Wg → Wg) : (s.onWg n f).viol = s.viol := rfl
@[simp] theorem State.onWg_turn (s : State) (n : Nat) (f : Wg → Wg) : (s.onWg n f).turn = s.turn := rfl
@[simp] theorem State.onWg_mem (s : State) (n : Nat) (f : Wg → Wg) : (s.onWg n f).mem = s.mem := rfl
@[simp] theorem State.onWg_poison (s : State) (n : Nat) (f : Wg → Wg) : (s.onWg n f).poison = s.poison := rfl
@[simp] theorem State.onWg_fresh (s : State) (n : Nat) (f : Wg → Wg) : (s.onWg n f).fresh = s.fresh := rfl
@[simp] theorem State.onWg_uid (s : State) (n : Nat) (f : Wg → Wg) : (s.onWg n f).uid = s.uid := rfl

@[simp] theorem State.onGang_trapq (s : State) (n : Nat) (f : Gang → Gang) : (s.onGang n f).trapq = s.trapq := rfl
@[simp] theorem State.onGang_agenda (s : State) (n : Nat) (f : Gang → Gang) : (s.onGang n f).agenda = s.agenda := rfl
@[simp] theorem State.onGang_cur (s : State) (n : Nat) (f : Gang → Gang) : (s.onGang n f).cur = s.cur := rfl
@[simp] theorem State.onGang_sheaf (s : State) (n : Nat) (f : Gang → Gang) : (s.onGang n f).sheaf = s.sheaf := rfl
@[simp] theorem State.onGang_threads (s : State) (n : Nat) (f : Gang → Gang) : (s.onGang n f).threads = s.threads := rfl
@[simp] theorem State.onGang_wgs (s : State) (n : Nat) (f : Gang → Gang) : (s.onGang n f).wgs = s.wgs := rfl
@[simp] theorem State.onGang_launches (s : State) (n : Nat) (f : Gang → Gang) : (s.onGang n f).launches = s.launches := rfl
@[simp] theorem State.onGang_cores (s : State) (n : Nat) (f : Gang → Gang) : (s.onGang n f).cores = s.cores := rfl
@[simp] theorem State.onGang_l2 (s : State) (n : Nat) (f : Gang → Gang) : (s.onGang n f).l2 = s.l2 := rfl
@[simp] theorem State.onGang_ctxs (s : State) (n : Nat) (f : Gang → Gang) : (s.onGang n f).ctxs = s.ctxs := rfl
@[simp] theorem State.onGang_archives (s : State) (n : Nat) (f : Gang → Gang) : (s.onGang n f).archives = s.archives := rfl
@[simp] theorem State.onGang_queues (s : State) (n : Nat) (f : Gang → Gang) : (s.onGang n f).queues = s.queues := rfl
@[simp] theorem State.onGang_curators (s : State) (n : Nat) (f : Gang → Gang) : (s.onGang n f).curators = s.curators := rfl
@[simp] theorem State.onGang_rounds (s : State) (n : Nat) (f : Gang → Gang) : (s.onGang n f).rounds = s.rounds := rfl
@[simp] theorem State.onGang_switches (s : State) (n : Nat) (f : Gang → Gang) : (s.onGang n f).switches = s.switches := rfl
@[simp] theorem State.onGang_cfg (s : State) (n : Nat) (f : Gang → Gang) : (s.onGang n f).cfg = s.cfg := rfl
@[simp] theorem State.onGang_tick (s : State) (n : Nat) (f : Gang → Gang) : (s.onGang n f).tick = s.tick := rfl
@[simp] theorem State.onGang_stopped (s : State) (n : Nat) (f : Gang → Gang) : (s.onGang n f).stopped = s.stopped := rfl
@[simp] theorem State.onGang_recovery (s : State) (n : Nat) (f : Gang → Gang) : (s.onGang n f).recovery = s.recovery := rfl
@[simp] theorem State.onGang_spares (s : State) (n : Nat) (f : Gang → Gang) : (s.onGang n f).spares = s.spares := rfl
@[simp] theorem State.onGang_outClusters (s : State) (n : Nat) (f : Gang → Gang) : (s.onGang n f).outClusters = s.outClusters := rfl
@[simp] theorem State.onGang_hbmRet (s : State) (n : Nat) (f : Gang → Gang) : (s.onGang n f).hbmRet = s.hbmRet := rfl
@[simp] theorem State.onGang_vbRet (s : State) (n : Nat) (f : Gang → Gang) : (s.onGang n f).vbRet = s.vbRet := rfl
@[simp] theorem State.onGang_links (s : State) (n : Nat) (f : Gang → Gang) : (s.onGang n f).links = s.links := rfl
@[simp] theorem State.onGang_inPod (s : State) (n : Nat) (f : Gang → Gang) : (s.onGang n f).inPod = s.inPod := rfl
@[simp] theorem State.onGang_egress (s : State) (n : Nat) (f : Gang → Gang) : (s.onGang n f).egress = s.egress := rfl
@[simp] theorem State.onGang_posted (s : State) (n : Nat) (f : Gang → Gang) : (s.onGang n f).posted = s.posted := rfl
@[simp] theorem State.onGang_quote (s : State) (n : Nat) (f : Gang → Gang) : (s.onGang n f).quote = s.quote := rfl
@[simp] theorem State.onGang_answers (s : State) (n : Nat) (f : Gang → Gang) : (s.onGang n f).answers = s.answers := rfl
@[simp] theorem State.onGang_viol (s : State) (n : Nat) (f : Gang → Gang) : (s.onGang n f).viol = s.viol := rfl
@[simp] theorem State.onGang_turn (s : State) (n : Nat) (f : Gang → Gang) : (s.onGang n f).turn = s.turn := rfl
@[simp] theorem State.onGang_mem (s : State) (n : Nat) (f : Gang → Gang) : (s.onGang n f).mem = s.mem := rfl
@[simp] theorem State.onGang_poison (s : State) (n : Nat) (f : Gang → Gang) : (s.onGang n f).poison = s.poison := rfl
@[simp] theorem State.onGang_fresh (s : State) (n : Nat) (f : Gang → Gang) : (s.onGang n f).fresh = s.fresh := rfl
@[simp] theorem State.onGang_uid (s : State) (n : Nat) (f : Gang → Gang) : (s.onGang n f).uid = s.uid := rfl

@[simp] theorem State.onLaunch_trapq (s : State) (n : Nat) (f : Launch → Launch) : (s.onLaunch n f).trapq = s.trapq := rfl
@[simp] theorem State.onLaunch_agenda (s : State) (n : Nat) (f : Launch → Launch) : (s.onLaunch n f).agenda = s.agenda := rfl
@[simp] theorem State.onLaunch_cur (s : State) (n : Nat) (f : Launch → Launch) : (s.onLaunch n f).cur = s.cur := rfl
@[simp] theorem State.onLaunch_sheaf (s : State) (n : Nat) (f : Launch → Launch) : (s.onLaunch n f).sheaf = s.sheaf := rfl
@[simp] theorem State.onLaunch_threads (s : State) (n : Nat) (f : Launch → Launch) : (s.onLaunch n f).threads = s.threads := rfl
@[simp] theorem State.onLaunch_wgs (s : State) (n : Nat) (f : Launch → Launch) : (s.onLaunch n f).wgs = s.wgs := rfl
@[simp] theorem State.onLaunch_gangs (s : State) (n : Nat) (f : Launch → Launch) : (s.onLaunch n f).gangs = s.gangs := rfl
@[simp] theorem State.onLaunch_cores (s : State) (n : Nat) (f : Launch → Launch) : (s.onLaunch n f).cores = s.cores := rfl
@[simp] theorem State.onLaunch_l2 (s : State) (n : Nat) (f : Launch → Launch) : (s.onLaunch n f).l2 = s.l2 := rfl
@[simp] theorem State.onLaunch_ctxs (s : State) (n : Nat) (f : Launch → Launch) : (s.onLaunch n f).ctxs = s.ctxs := rfl
@[simp] theorem State.onLaunch_archives (s : State) (n : Nat) (f : Launch → Launch) : (s.onLaunch n f).archives = s.archives := rfl
@[simp] theorem State.onLaunch_queues (s : State) (n : Nat) (f : Launch → Launch) : (s.onLaunch n f).queues = s.queues := rfl
@[simp] theorem State.onLaunch_curators (s : State) (n : Nat) (f : Launch → Launch) : (s.onLaunch n f).curators = s.curators := rfl
@[simp] theorem State.onLaunch_rounds (s : State) (n : Nat) (f : Launch → Launch) : (s.onLaunch n f).rounds = s.rounds := rfl
@[simp] theorem State.onLaunch_switches (s : State) (n : Nat) (f : Launch → Launch) : (s.onLaunch n f).switches = s.switches := rfl
@[simp] theorem State.onLaunch_cfg (s : State) (n : Nat) (f : Launch → Launch) : (s.onLaunch n f).cfg = s.cfg := rfl
@[simp] theorem State.onLaunch_tick (s : State) (n : Nat) (f : Launch → Launch) : (s.onLaunch n f).tick = s.tick := rfl
@[simp] theorem State.onLaunch_stopped (s : State) (n : Nat) (f : Launch → Launch) : (s.onLaunch n f).stopped = s.stopped := rfl
@[simp] theorem State.onLaunch_recovery (s : State) (n : Nat) (f : Launch → Launch) : (s.onLaunch n f).recovery = s.recovery := rfl
@[simp] theorem State.onLaunch_spares (s : State) (n : Nat) (f : Launch → Launch) : (s.onLaunch n f).spares = s.spares := rfl
@[simp] theorem State.onLaunch_outClusters (s : State) (n : Nat) (f : Launch → Launch) : (s.onLaunch n f).outClusters = s.outClusters := rfl
@[simp] theorem State.onLaunch_hbmRet (s : State) (n : Nat) (f : Launch → Launch) : (s.onLaunch n f).hbmRet = s.hbmRet := rfl
@[simp] theorem State.onLaunch_vbRet (s : State) (n : Nat) (f : Launch → Launch) : (s.onLaunch n f).vbRet = s.vbRet := rfl
@[simp] theorem State.onLaunch_links (s : State) (n : Nat) (f : Launch → Launch) : (s.onLaunch n f).links = s.links := rfl
@[simp] theorem State.onLaunch_inPod (s : State) (n : Nat) (f : Launch → Launch) : (s.onLaunch n f).inPod = s.inPod := rfl
@[simp] theorem State.onLaunch_egress (s : State) (n : Nat) (f : Launch → Launch) : (s.onLaunch n f).egress = s.egress := rfl
@[simp] theorem State.onLaunch_posted (s : State) (n : Nat) (f : Launch → Launch) : (s.onLaunch n f).posted = s.posted := rfl
@[simp] theorem State.onLaunch_quote (s : State) (n : Nat) (f : Launch → Launch) : (s.onLaunch n f).quote = s.quote := rfl
@[simp] theorem State.onLaunch_answers (s : State) (n : Nat) (f : Launch → Launch) : (s.onLaunch n f).answers = s.answers := rfl
@[simp] theorem State.onLaunch_viol (s : State) (n : Nat) (f : Launch → Launch) : (s.onLaunch n f).viol = s.viol := rfl
@[simp] theorem State.onLaunch_turn (s : State) (n : Nat) (f : Launch → Launch) : (s.onLaunch n f).turn = s.turn := rfl
@[simp] theorem State.onLaunch_mem (s : State) (n : Nat) (f : Launch → Launch) : (s.onLaunch n f).mem = s.mem := rfl
@[simp] theorem State.onLaunch_poison (s : State) (n : Nat) (f : Launch → Launch) : (s.onLaunch n f).poison = s.poison := rfl
@[simp] theorem State.onLaunch_fresh (s : State) (n : Nat) (f : Launch → Launch) : (s.onLaunch n f).fresh = s.fresh := rfl
@[simp] theorem State.onLaunch_uid (s : State) (n : Nat) (f : Launch → Launch) : (s.onLaunch n f).uid = s.uid := rfl

@[simp] theorem State.onQueue_trapq (s : State) (n : Nat) (f : Queue → Queue) : (s.onQueue n f).trapq = s.trapq := rfl
@[simp] theorem State.onQueue_agenda (s : State) (n : Nat) (f : Queue → Queue) : (s.onQueue n f).agenda = s.agenda := rfl
@[simp] theorem State.onQueue_cur (s : State) (n : Nat) (f : Queue → Queue) : (s.onQueue n f).cur = s.cur := rfl
@[simp] theorem State.onQueue_sheaf (s : State) (n : Nat) (f : Queue → Queue) : (s.onQueue n f).sheaf = s.sheaf := rfl
@[simp] theorem State.onQueue_threads (s : State) (n : Nat) (f : Queue → Queue) : (s.onQueue n f).threads = s.threads := rfl
@[simp] theorem State.onQueue_wgs (s : State) (n : Nat) (f : Queue → Queue) : (s.onQueue n f).wgs = s.wgs := rfl
@[simp] theorem State.onQueue_gangs (s : State) (n : Nat) (f : Queue → Queue) : (s.onQueue n f).gangs = s.gangs := rfl
@[simp] theorem State.onQueue_launches (s : State) (n : Nat) (f : Queue → Queue) : (s.onQueue n f).launches = s.launches := rfl
@[simp] theorem State.onQueue_cores (s : State) (n : Nat) (f : Queue → Queue) : (s.onQueue n f).cores = s.cores := rfl
@[simp] theorem State.onQueue_l2 (s : State) (n : Nat) (f : Queue → Queue) : (s.onQueue n f).l2 = s.l2 := rfl
@[simp] theorem State.onQueue_ctxs (s : State) (n : Nat) (f : Queue → Queue) : (s.onQueue n f).ctxs = s.ctxs := rfl
@[simp] theorem State.onQueue_archives (s : State) (n : Nat) (f : Queue → Queue) : (s.onQueue n f).archives = s.archives := rfl
@[simp] theorem State.onQueue_curators (s : State) (n : Nat) (f : Queue → Queue) : (s.onQueue n f).curators = s.curators := rfl
@[simp] theorem State.onQueue_rounds (s : State) (n : Nat) (f : Queue → Queue) : (s.onQueue n f).rounds = s.rounds := rfl
@[simp] theorem State.onQueue_switches (s : State) (n : Nat) (f : Queue → Queue) : (s.onQueue n f).switches = s.switches := rfl
@[simp] theorem State.onQueue_cfg (s : State) (n : Nat) (f : Queue → Queue) : (s.onQueue n f).cfg = s.cfg := rfl
@[simp] theorem State.onQueue_tick (s : State) (n : Nat) (f : Queue → Queue) : (s.onQueue n f).tick = s.tick := rfl
@[simp] theorem State.onQueue_stopped (s : State) (n : Nat) (f : Queue → Queue) : (s.onQueue n f).stopped = s.stopped := rfl
@[simp] theorem State.onQueue_recovery (s : State) (n : Nat) (f : Queue → Queue) : (s.onQueue n f).recovery = s.recovery := rfl
@[simp] theorem State.onQueue_spares (s : State) (n : Nat) (f : Queue → Queue) : (s.onQueue n f).spares = s.spares := rfl
@[simp] theorem State.onQueue_outClusters (s : State) (n : Nat) (f : Queue → Queue) : (s.onQueue n f).outClusters = s.outClusters := rfl
@[simp] theorem State.onQueue_hbmRet (s : State) (n : Nat) (f : Queue → Queue) : (s.onQueue n f).hbmRet = s.hbmRet := rfl
@[simp] theorem State.onQueue_vbRet (s : State) (n : Nat) (f : Queue → Queue) : (s.onQueue n f).vbRet = s.vbRet := rfl
@[simp] theorem State.onQueue_links (s : State) (n : Nat) (f : Queue → Queue) : (s.onQueue n f).links = s.links := rfl
@[simp] theorem State.onQueue_inPod (s : State) (n : Nat) (f : Queue → Queue) : (s.onQueue n f).inPod = s.inPod := rfl
@[simp] theorem State.onQueue_egress (s : State) (n : Nat) (f : Queue → Queue) : (s.onQueue n f).egress = s.egress := rfl
@[simp] theorem State.onQueue_posted (s : State) (n : Nat) (f : Queue → Queue) : (s.onQueue n f).posted = s.posted := rfl
@[simp] theorem State.onQueue_quote (s : State) (n : Nat) (f : Queue → Queue) : (s.onQueue n f).quote = s.quote := rfl
@[simp] theorem State.onQueue_answers (s : State) (n : Nat) (f : Queue → Queue) : (s.onQueue n f).answers = s.answers := rfl
@[simp] theorem State.onQueue_viol (s : State) (n : Nat) (f : Queue → Queue) : (s.onQueue n f).viol = s.viol := rfl
@[simp] theorem State.onQueue_turn (s : State) (n : Nat) (f : Queue → Queue) : (s.onQueue n f).turn = s.turn := rfl
@[simp] theorem State.onQueue_mem (s : State) (n : Nat) (f : Queue → Queue) : (s.onQueue n f).mem = s.mem := rfl
@[simp] theorem State.onQueue_poison (s : State) (n : Nat) (f : Queue → Queue) : (s.onQueue n f).poison = s.poison := rfl
@[simp] theorem State.onQueue_fresh (s : State) (n : Nat) (f : Queue → Queue) : (s.onQueue n f).fresh = s.fresh := rfl
@[simp] theorem State.onQueue_uid (s : State) (n : Nat) (f : Queue → Queue) : (s.onQueue n f).uid = s.uid := rfl

@[simp] theorem State.setRound_trapq (s : State) (r : Round) : (s.setRound r).trapq = s.trapq := rfl
@[simp] theorem State.setRound_agenda (s : State) (r : Round) : (s.setRound r).agenda = s.agenda := rfl
@[simp] theorem State.setRound_cur (s : State) (r : Round) : (s.setRound r).cur = s.cur := rfl
@[simp] theorem State.setRound_sheaf (s : State) (r : Round) : (s.setRound r).sheaf = s.sheaf := rfl
@[simp] theorem State.setRound_threads (s : State) (r : Round) : (s.setRound r).threads = s.threads := rfl
@[simp] theorem State.setRound_wgs (s : State) (r : Round) : (s.setRound r).wgs = s.wgs := rfl
@[simp] theorem State.setRound_gangs (s : State) (r : Round) : (s.setRound r).gangs = s.gangs := rfl
@[simp] theorem State.setRound_launches (s : State) (r : Round) : (s.setRound r).launches = s.launches := rfl
@[simp] theorem State.setRound_cores (s : State) (r : Round) : (s.setRound r).cores = s.cores := rfl
@[simp] theorem State.setRound_l2 (s : State) (r : Round) : (s.setRound r).l2 = s.l2 := rfl
@[simp] theorem State.setRound_ctxs (s : State) (r : Round) : (s.setRound r).ctxs = s.ctxs := rfl
@[simp] theorem State.setRound_archives (s : State) (r : Round) : (s.setRound r).archives = s.archives := rfl
@[simp] theorem State.setRound_queues (s : State) (r : Round) : (s.setRound r).queues = s.queues := rfl
@[simp] theorem State.setRound_curators (s : State) (r : Round) : (s.setRound r).curators = s.curators := rfl
@[simp] theorem State.setRound_switches (s : State) (r : Round) : (s.setRound r).switches = s.switches := rfl
@[simp] theorem State.setRound_cfg (s : State) (r : Round) : (s.setRound r).cfg = s.cfg := rfl
@[simp] theorem State.setRound_tick (s : State) (r : Round) : (s.setRound r).tick = s.tick := rfl
@[simp] theorem State.setRound_stopped (s : State) (r : Round) : (s.setRound r).stopped = s.stopped := rfl
@[simp] theorem State.setRound_recovery (s : State) (r : Round) : (s.setRound r).recovery = s.recovery := rfl
@[simp] theorem State.setRound_spares (s : State) (r : Round) : (s.setRound r).spares = s.spares := rfl
@[simp] theorem State.setRound_outClusters (s : State) (r : Round) : (s.setRound r).outClusters = s.outClusters := rfl
@[simp] theorem State.setRound_hbmRet (s : State) (r : Round) : (s.setRound r).hbmRet = s.hbmRet := rfl
@[simp] theorem State.setRound_vbRet (s : State) (r : Round) : (s.setRound r).vbRet = s.vbRet := rfl
@[simp] theorem State.setRound_links (s : State) (r : Round) : (s.setRound r).links = s.links := rfl
@[simp] theorem State.setRound_inPod (s : State) (r : Round) : (s.setRound r).inPod = s.inPod := rfl
@[simp] theorem State.setRound_egress (s : State) (r : Round) : (s.setRound r).egress = s.egress := rfl
@[simp] theorem State.setRound_posted (s : State) (r : Round) : (s.setRound r).posted = s.posted := rfl
@[simp] theorem State.setRound_quote (s : State) (r : Round) : (s.setRound r).quote = s.quote := rfl
@[simp] theorem State.setRound_answers (s : State) (r : Round) : (s.setRound r).answers = s.answers := rfl
@[simp] theorem State.setRound_viol (s : State) (r : Round) : (s.setRound r).viol = s.viol := rfl
@[simp] theorem State.setRound_turn (s : State) (r : Round) : (s.setRound r).turn = s.turn := rfl
@[simp] theorem State.setRound_mem (s : State) (r : Round) : (s.setRound r).mem = s.mem := rfl
@[simp] theorem State.setRound_poison (s : State) (r : Round) : (s.setRound r).poison = s.poison := rfl
@[simp] theorem State.setRound_fresh (s : State) (r : Round) : (s.setRound r).fresh = s.fresh := rfl
@[simp] theorem State.setRound_uid (s : State) (r : Round) : (s.setRound r).uid = s.uid := rfl

@[simp] theorem State.drainEgress_trapq (s : State)  : (s.drainEgress).trapq = s.trapq := rfl
@[simp] theorem State.drainEgress_agenda (s : State)  : (s.drainEgress).agenda = s.agenda := rfl
@[simp] theorem State.drainEgress_cur (s : State)  : (s.drainEgress).cur = s.cur := rfl
@[simp] theorem State.drainEgress_sheaf (s : State)  : (s.drainEgress).sheaf = s.sheaf := rfl
@[simp] theorem State.drainEgress_threads (s : State)  : (s.drainEgress).threads = s.threads := rfl
@[simp] theorem State.drainEgress_wgs (s : State)  : (s.drainEgress).wgs = s.wgs := rfl
@[simp] theorem State.drainEgress_gangs (s : State)  : (s.drainEgress).gangs = s.gangs := rfl
@[simp] theorem State.drainEgress_launches (s : State)  : (s.drainEgress).launches = s.launches := rfl
@[simp] theorem State.drainEgress_cores (s : State)  : (s.drainEgress).cores = s.cores := rfl
@[simp] theorem State.drainEgress_l2 (s : State)  : (s.drainEgress).l2 = s.l2 := rfl
@[simp] theorem State.drainEgress_ctxs (s : State)  : (s.drainEgress).ctxs = s.ctxs := rfl
@[simp] theorem State.drainEgress_archives (s : State)  : (s.drainEgress).archives = s.archives := rfl
@[simp] theorem State.drainEgress_queues (s : State)  : (s.drainEgress).queues = s.queues := rfl
@[simp] theorem State.drainEgress_curators (s : State)  : (s.drainEgress).curators = s.curators := rfl
@[simp] theorem State.drainEgress_rounds (s : State)  : (s.drainEgress).rounds = s.rounds := rfl
@[simp] theorem State.drainEgress_switches (s : State)  : (s.drainEgress).switches = s.switches := rfl
@[simp] theorem State.drainEgress_cfg (s : State)  : (s.drainEgress).cfg = s.cfg := rfl
@[simp] theorem State.drainEgress_tick (s : State)  : (s.drainEgress).tick = s.tick := rfl
@[simp] theorem State.drainEgress_stopped (s : State)  : (s.drainEgress).stopped = s.stopped := rfl
@[simp] theorem State.drainEgress_recovery (s : State)  : (s.drainEgress).recovery = s.recovery := rfl
@[simp] theorem State.drainEgress_spares (s : State)  : (s.drainEgress).spares = s.spares := rfl
@[simp] theorem State.drainEgress_outClusters (s : State)  : (s.drainEgress).outClusters = s.outClusters := rfl
@[simp] theorem State.drainEgress_hbmRet (s : State)  : (s.drainEgress).hbmRet = s.hbmRet := rfl
@[simp] theorem State.drainEgress_vbRet (s : State)  : (s.drainEgress).vbRet = s.vbRet := rfl
@[simp] theorem State.drainEgress_links (s : State)  : (s.drainEgress).links = s.links := rfl
@[simp] theorem State.drainEgress_inPod (s : State)  : (s.drainEgress).inPod = s.inPod := rfl
@[simp] theorem State.drainEgress_quote (s : State)  : (s.drainEgress).quote = s.quote := rfl
@[simp] theorem State.drainEgress_answers (s : State)  : (s.drainEgress).answers = s.answers := rfl
@[simp] theorem State.drainEgress_viol (s : State)  : (s.drainEgress).viol = s.viol := rfl
@[simp] theorem State.drainEgress_turn (s : State)  : (s.drainEgress).turn = s.turn := rfl
@[simp] theorem State.drainEgress_mem (s : State)  : (s.drainEgress).mem = s.mem := rfl
@[simp] theorem State.drainEgress_poison (s : State)  : (s.drainEgress).poison = s.poison := rfl
@[simp] theorem State.drainEgress_fresh (s : State)  : (s.drainEgress).fresh = s.fresh := rfl
@[simp] theorem State.drainEgress_uid (s : State)  : (s.drainEgress).uid = s.uid := rfl

@[simp] theorem State.onAll_trapq (s : State) (f : Thread → Thread) : (s.onAll f).trapq = s.trapq := rfl
@[simp] theorem State.onAll_agenda (s : State) (f : Thread → Thread) : (s.onAll f).agenda = s.agenda := rfl
@[simp] theorem State.onAll_sheaf (s : State) (f : Thread → Thread) : (s.onAll f).sheaf = s.sheaf := rfl
@[simp] theorem State.onAll_wgs (s : State) (f : Thread → Thread) : (s.onAll f).wgs = s.wgs := rfl
@[simp] theorem State.onAll_gangs (s : State) (f : Thread → Thread) : (s.onAll f).gangs = s.gangs := rfl
@[simp] theorem State.onAll_launches (s : State) (f : Thread → Thread) : (s.onAll f).launches = s.launches := rfl
@[simp] theorem State.onAll_cores (s : State) (f : Thread → Thread) : (s.onAll f).cores = s.cores := rfl
@[simp] theorem State.onAll_l2 (s : State) (f : Thread → Thread) : (s.onAll f).l2 = s.l2 := rfl
@[simp] theorem State.onAll_ctxs (s : State) (f : Thread → Thread) : (s.onAll f).ctxs = s.ctxs := rfl
@[simp] theorem State.onAll_archives (s : State) (f : Thread → Thread) : (s.onAll f).archives = s.archives := rfl
@[simp] theorem State.onAll_queues (s : State) (f : Thread → Thread) : (s.onAll f).queues = s.queues := rfl
@[simp] theorem State.onAll_curators (s : State) (f : Thread → Thread) : (s.onAll f).curators = s.curators := rfl
@[simp] theorem State.onAll_rounds (s : State) (f : Thread → Thread) : (s.onAll f).rounds = s.rounds := rfl
@[simp] theorem State.onAll_switches (s : State) (f : Thread → Thread) : (s.onAll f).switches = s.switches := rfl
@[simp] theorem State.onAll_cfg (s : State) (f : Thread → Thread) : (s.onAll f).cfg = s.cfg := rfl
@[simp] theorem State.onAll_tick (s : State) (f : Thread → Thread) : (s.onAll f).tick = s.tick := rfl
@[simp] theorem State.onAll_stopped (s : State) (f : Thread → Thread) : (s.onAll f).stopped = s.stopped := rfl
@[simp] theorem State.onAll_recovery (s : State) (f : Thread → Thread) : (s.onAll f).recovery = s.recovery := rfl
@[simp] theorem State.onAll_spares (s : State) (f : Thread → Thread) : (s.onAll f).spares = s.spares := rfl
@[simp] theorem State.onAll_outClusters (s : State) (f : Thread → Thread) : (s.onAll f).outClusters = s.outClusters := rfl
@[simp] theorem State.onAll_hbmRet (s : State) (f : Thread → Thread) : (s.onAll f).hbmRet = s.hbmRet := rfl
@[simp] theorem State.onAll_vbRet (s : State) (f : Thread → Thread) : (s.onAll f).vbRet = s.vbRet := rfl
@[simp] theorem State.onAll_links (s : State) (f : Thread → Thread) : (s.onAll f).links = s.links := rfl
@[simp] theorem State.onAll_inPod (s : State) (f : Thread → Thread) : (s.onAll f).inPod = s.inPod := rfl
@[simp] theorem State.onAll_egress (s : State) (f : Thread → Thread) : (s.onAll f).egress = s.egress := rfl
@[simp] theorem State.onAll_posted (s : State) (f : Thread → Thread) : (s.onAll f).posted = s.posted := rfl
@[simp] theorem State.onAll_quote (s : State) (f : Thread → Thread) : (s.onAll f).quote = s.quote := rfl
@[simp] theorem State.onAll_answers (s : State) (f : Thread → Thread) : (s.onAll f).answers = s.answers := rfl
@[simp] theorem State.onAll_viol (s : State) (f : Thread → Thread) : (s.onAll f).viol = s.viol := rfl
@[simp] theorem State.onAll_turn (s : State) (f : Thread → Thread) : (s.onAll f).turn = s.turn := rfl
@[simp] theorem State.onAll_mem (s : State) (f : Thread → Thread) : (s.onAll f).mem = s.mem := rfl
@[simp] theorem State.onAll_poison (s : State) (f : Thread → Thread) : (s.onAll f).poison = s.poison := rfl
@[simp] theorem State.onAll_fresh (s : State) (f : Thread → Thread) : (s.onAll f).fresh = s.fresh := rfl
@[simp] theorem State.onAll_uid (s : State) (f : Thread → Thread) : (s.onAll f).uid = s.uid := rfl

@[simp] theorem State.onCore_trapq (s : State) (n : Nat) (f : Core → Core) : (s.onCore n f).trapq = s.trapq := by unfold State.onCore; split <;> rfl
@[simp] theorem State.onCore_agenda (s : State) (n : Nat) (f : Core → Core) : (s.onCore n f).agenda = s.agenda := by unfold State.onCore; split <;> rfl
@[simp] theorem State.onCore_cur (s : State) (n : Nat) (f : Core → Core) : (s.onCore n f).cur = s.cur := by unfold State.onCore; split <;> rfl
@[simp] theorem State.onCore_sheaf (s : State) (n : Nat) (f : Core → Core) : (s.onCore n f).sheaf = s.sheaf := by unfold State.onCore; split <;> rfl
@[simp] theorem State.onCore_threads (s : State) (n : Nat) (f : Core → Core) : (s.onCore n f).threads = s.threads := by unfold State.onCore; split <;> rfl
@[simp] theorem State.onCore_wgs (s : State) (n : Nat) (f : Core → Core) : (s.onCore n f).wgs = s.wgs := by unfold State.onCore; split <;> rfl
@[simp] theorem State.onCore_gangs (s : State) (n : Nat) (f : Core → Core) : (s.onCore n f).gangs = s.gangs := by unfold State.onCore; split <;> rfl
@[simp] theorem State.onCore_launches (s : State) (n : Nat) (f : Core → Core) : (s.onCore n f).launches = s.launches := by unfold State.onCore; split <;> rfl
@[simp] theorem State.onCore_l2 (s : State) (n : Nat) (f : Core → Core) : (s.onCore n f).l2 = s.l2 := by unfold State.onCore; split <;> rfl
@[simp] theorem State.onCore_ctxs (s : State) (n : Nat) (f : Core → Core) : (s.onCore n f).ctxs = s.ctxs := by unfold State.onCore; split <;> rfl
@[simp] theorem State.onCore_archives (s : State) (n : Nat) (f : Core → Core) : (s.onCore n f).archives = s.archives := by unfold State.onCore; split <;> rfl
@[simp] theorem State.onCore_queues (s : State) (n : Nat) (f : Core → Core) : (s.onCore n f).queues = s.queues := by unfold State.onCore; split <;> rfl
@[simp] theorem State.onCore_curators (s : State) (n : Nat) (f : Core → Core) : (s.onCore n f).curators = s.curators := by unfold State.onCore; split <;> rfl
@[simp] theorem State.onCore_rounds (s : State) (n : Nat) (f : Core → Core) : (s.onCore n f).rounds = s.rounds := by unfold State.onCore; split <;> rfl
@[simp] theorem State.onCore_switches (s : State) (n : Nat) (f : Core → Core) : (s.onCore n f).switches = s.switches := by unfold State.onCore; split <;> rfl
@[simp] theorem State.onCore_cfg (s : State) (n : Nat) (f : Core → Core) : (s.onCore n f).cfg = s.cfg := by unfold State.onCore; split <;> rfl
@[simp] theorem State.onCore_tick (s : State) (n : Nat) (f : Core → Core) : (s.onCore n f).tick = s.tick := by unfold State.onCore; split <;> rfl
@[simp] theorem State.onCore_stopped (s : State) (n : Nat) (f : Core → Core) : (s.onCore n f).stopped = s.stopped := by unfold State.onCore; split <;> rfl
@[simp] theorem State.onCore_recovery (s : State) (n : Nat) (f : Core → Core) : (s.onCore n f).recovery = s.recovery := by unfold State.onCore; split <;> rfl
@[simp] theorem State.onCore_spares (s : State) (n : Nat) (f : Core → Core) : (s.onCore n f).spares = s.spares := by unfold State.onCore; split <;> rfl
@[simp] theorem State.onCore_outClusters (s : State) (n : Nat) (f : Core → Core) : (s.onCore n f).outClusters = s.outClusters := by unfold State.onCore; split <;> rfl
@[simp] theorem State.onCore_hbmRet (s : State) (n : Nat) (f : Core → Core) : (s.onCore n f).hbmRet = s.hbmRet := by unfold State.onCore; split <;> rfl
@[simp] theorem State.onCore_vbRet (s : State) (n : Nat) (f : Core → Core) : (s.onCore n f).vbRet = s.vbRet := by unfold State.onCore; split <;> rfl
@[simp] theorem State.onCore_links (s : State) (n : Nat) (f : Core → Core) : (s.onCore n f).links = s.links := by unfold State.onCore; split <;> rfl
@[simp] theorem State.onCore_inPod (s : State) (n : Nat) (f : Core → Core) : (s.onCore n f).inPod = s.inPod := by unfold State.onCore; split <;> rfl
@[simp] theorem State.onCore_egress (s : State) (n : Nat) (f : Core → Core) : (s.onCore n f).egress = s.egress := by unfold State.onCore; split <;> rfl
@[simp] theorem State.onCore_posted (s : State) (n : Nat) (f : Core → Core) : (s.onCore n f).posted = s.posted := by unfold State.onCore; split <;> rfl
@[simp] theorem State.onCore_quote (s : State) (n : Nat) (f : Core → Core) : (s.onCore n f).quote = s.quote := by unfold State.onCore; split <;> rfl
@[simp] theorem State.onCore_answers (s : State) (n : Nat) (f : Core → Core) : (s.onCore n f).answers = s.answers := by unfold State.onCore; split <;> rfl
@[simp] theorem State.onCore_viol (s : State) (n : Nat) (f : Core → Core) : (s.onCore n f).viol = s.viol := by unfold State.onCore; split <;> rfl
@[simp] theorem State.onCore_turn (s : State) (n : Nat) (f : Core → Core) : (s.onCore n f).turn = s.turn := by unfold State.onCore; split <;> rfl
@[simp] theorem State.onCore_mem (s : State) (n : Nat) (f : Core → Core) : (s.onCore n f).mem = s.mem := by unfold State.onCore; split <;> rfl
@[simp] theorem State.onCore_poison (s : State) (n : Nat) (f : Core → Core) : (s.onCore n f).poison = s.poison := by unfold State.onCore; split <;> rfl
@[simp] theorem State.onCore_fresh (s : State) (n : Nat) (f : Core → Core) : (s.onCore n f).fresh = s.fresh := by unfold State.onCore; split <;> rfl
@[simp] theorem State.onCore_uid (s : State) (n : Nat) (f : Core → Core) : (s.onCore n f).uid = s.uid := by unfold State.onCore; split <;> rfl

@[simp] theorem State.onThread_trapq (s : State) (t : TRef) (f : Thread → Thread) : (s.onThread t f).trapq = s.trapq := by unfold State.onThread; split <;> rfl
@[simp] theorem State.onThread_agenda (s : State) (t : TRef) (f : Thread → Thread) : (s.onThread t f).agenda = s.agenda := by unfold State.onThread; split <;> rfl
@[simp] theorem State.onThread_sheaf (s : State) (t : TRef) (f : Thread → Thread) : (s.onThread t f).sheaf = s.sheaf := by unfold State.onThread; split <;> rfl
@[simp] theorem State.onThread_wgs (s : State) (t : TRef) (f : Thread → Thread) : (s.onThread t f).wgs = s.wgs := by unfold State.onThread; split <;> rfl
@[simp] theorem State.onThread_gangs (s : State) (t : TRef) (f : Thread → Thread) : (s.onThread t f).gangs = s.gangs := by unfold State.onThread; split <;> rfl
@[simp] theorem State.onThread_launches (s : State) (t : TRef) (f : Thread → Thread) : (s.onThread t f).launches = s.launches := by unfold State.onThread; split <;> rfl
@[simp] theorem State.onThread_cores (s : State) (t : TRef) (f : Thread → Thread) : (s.onThread t f).cores = s.cores := by unfold State.onThread; split <;> rfl
@[simp] theorem State.onThread_l2 (s : State) (t : TRef) (f : Thread → Thread) : (s.onThread t f).l2 = s.l2 := by unfold State.onThread; split <;> rfl
@[simp] theorem State.onThread_ctxs (s : State) (t : TRef) (f : Thread → Thread) : (s.onThread t f).ctxs = s.ctxs := by unfold State.onThread; split <;> rfl
@[simp] theorem State.onThread_archives (s : State) (t : TRef) (f : Thread → Thread) : (s.onThread t f).archives = s.archives := by unfold State.onThread; split <;> rfl
@[simp] theorem State.onThread_queues (s : State) (t : TRef) (f : Thread → Thread) : (s.onThread t f).queues = s.queues := by unfold State.onThread; split <;> rfl
@[simp] theorem State.onThread_curators (s : State) (t : TRef) (f : Thread → Thread) : (s.onThread t f).curators = s.curators := by unfold State.onThread; split <;> rfl
@[simp] theorem State.onThread_rounds (s : State) (t : TRef) (f : Thread → Thread) : (s.onThread t f).rounds = s.rounds := by unfold State.onThread; split <;> rfl
@[simp] theorem State.onThread_switches (s : State) (t : TRef) (f : Thread → Thread) : (s.onThread t f).switches = s.switches := by unfold State.onThread; split <;> rfl
@[simp] theorem State.onThread_cfg (s : State) (t : TRef) (f : Thread → Thread) : (s.onThread t f).cfg = s.cfg := by unfold State.onThread; split <;> rfl
@[simp] theorem State.onThread_tick (s : State) (t : TRef) (f : Thread → Thread) : (s.onThread t f).tick = s.tick := by unfold State.onThread; split <;> rfl
@[simp] theorem State.onThread_stopped (s : State) (t : TRef) (f : Thread → Thread) : (s.onThread t f).stopped = s.stopped := by unfold State.onThread; split <;> rfl
@[simp] theorem State.onThread_recovery (s : State) (t : TRef) (f : Thread → Thread) : (s.onThread t f).recovery = s.recovery := by unfold State.onThread; split <;> rfl
@[simp] theorem State.onThread_spares (s : State) (t : TRef) (f : Thread → Thread) : (s.onThread t f).spares = s.spares := by unfold State.onThread; split <;> rfl
@[simp] theorem State.onThread_outClusters (s : State) (t : TRef) (f : Thread → Thread) : (s.onThread t f).outClusters = s.outClusters := by unfold State.onThread; split <;> rfl
@[simp] theorem State.onThread_hbmRet (s : State) (t : TRef) (f : Thread → Thread) : (s.onThread t f).hbmRet = s.hbmRet := by unfold State.onThread; split <;> rfl
@[simp] theorem State.onThread_vbRet (s : State) (t : TRef) (f : Thread → Thread) : (s.onThread t f).vbRet = s.vbRet := by unfold State.onThread; split <;> rfl
@[simp] theorem State.onThread_links (s : State) (t : TRef) (f : Thread → Thread) : (s.onThread t f).links = s.links := by unfold State.onThread; split <;> rfl
@[simp] theorem State.onThread_inPod (s : State) (t : TRef) (f : Thread → Thread) : (s.onThread t f).inPod = s.inPod := by unfold State.onThread; split <;> rfl
@[simp] theorem State.onThread_egress (s : State) (t : TRef) (f : Thread → Thread) : (s.onThread t f).egress = s.egress := by unfold State.onThread; split <;> rfl
@[simp] theorem State.onThread_posted (s : State) (t : TRef) (f : Thread → Thread) : (s.onThread t f).posted = s.posted := by unfold State.onThread; split <;> rfl
@[simp] theorem State.onThread_quote (s : State) (t : TRef) (f : Thread → Thread) : (s.onThread t f).quote = s.quote := by unfold State.onThread; split <;> rfl
@[simp] theorem State.onThread_answers (s : State) (t : TRef) (f : Thread → Thread) : (s.onThread t f).answers = s.answers := by unfold State.onThread; split <;> rfl
@[simp] theorem State.onThread_viol (s : State) (t : TRef) (f : Thread → Thread) : (s.onThread t f).viol = s.viol := by unfold State.onThread; split <;> rfl
@[simp] theorem State.onThread_turn (s : State) (t : TRef) (f : Thread → Thread) : (s.onThread t f).turn = s.turn := by unfold State.onThread; split <;> rfl
@[simp] theorem State.onThread_mem (s : State) (t : TRef) (f : Thread → Thread) : (s.onThread t f).mem = s.mem := by unfold State.onThread; split <;> rfl
@[simp] theorem State.onThread_poison (s : State) (t : TRef) (f : Thread → Thread) : (s.onThread t f).poison = s.poison := by unfold State.onThread; split <;> rfl
@[simp] theorem State.onThread_fresh (s : State) (t : TRef) (f : Thread → Thread) : (s.onThread t f).fresh = s.fresh := by unfold State.onThread; split <;> rfl
@[simp] theorem State.onThread_uid (s : State) (t : TRef) (f : Thread → Thread) : (s.onThread t f).uid = s.uid := by unfold State.onThread; split <;> rfl

@[simp] theorem State.onWl_trapq (s : State) (c : Nat) (l : Fin 4) (f : Worklist → Worklist) : (s.onWl c l f).trapq = s.trapq := rfl
@[simp] theorem State.onWl_agenda (s : State) (c : Nat) (l : Fin 4) (f : Worklist → Worklist) : (s.onWl c l f).agenda = s.agenda := rfl
@[simp] theorem State.onWl_cur (s : State) (c : Nat) (l : Fin 4) (f : Worklist → Worklist) : (s.onWl c l f).cur = s.cur := rfl
@[simp] theorem State.onWl_sheaf (s : State) (c : Nat) (l : Fin 4) (f : Worklist → Worklist) : (s.onWl c l f).sheaf = s.sheaf := rfl
@[simp] theorem State.onWl_threads (s : State) (c : Nat) (l : Fin 4) (f : Worklist → Worklist) : (s.onWl c l f).threads = s.threads := rfl
@[simp] theorem State.onWl_wgs (s : State) (c : Nat) (l : Fin 4) (f : Worklist → Worklist) : (s.onWl c l f).wgs = s.wgs := rfl
@[simp] theorem State.onWl_gangs (s : State) (c : Nat) (l : Fin 4) (f : Worklist → Worklist) : (s.onWl c l f).gangs = s.gangs := rfl
@[simp] theorem State.onWl_launches (s : State) (c : Nat) (l : Fin 4) (f : Worklist → Worklist) : (s.onWl c l f).launches = s.launches := rfl
@[simp] theorem State.onWl_cores (s : State) (c : Nat) (l : Fin 4) (f : Worklist → Worklist) : (s.onWl c l f).cores = s.cores := rfl
@[simp] theorem State.onWl_l2 (s : State) (c : Nat) (l : Fin 4) (f : Worklist → Worklist) : (s.onWl c l f).l2 = s.l2 := rfl
@[simp] theorem State.onWl_archives (s : State) (c : Nat) (l : Fin 4) (f : Worklist → Worklist) : (s.onWl c l f).archives = s.archives := rfl
@[simp] theorem State.onWl_queues (s : State) (c : Nat) (l : Fin 4) (f : Worklist → Worklist) : (s.onWl c l f).queues = s.queues := rfl
@[simp] theorem State.onWl_curators (s : State) (c : Nat) (l : Fin 4) (f : Worklist → Worklist) : (s.onWl c l f).curators = s.curators := rfl
@[simp] theorem State.onWl_rounds (s : State) (c : Nat) (l : Fin 4) (f : Worklist → Worklist) : (s.onWl c l f).rounds = s.rounds := rfl
@[simp] theorem State.onWl_switches (s : State) (c : Nat) (l : Fin 4) (f : Worklist → Worklist) : (s.onWl c l f).switches = s.switches := rfl
@[simp] theorem State.onWl_cfg (s : State) (c : Nat) (l : Fin 4) (f : Worklist → Worklist) : (s.onWl c l f).cfg = s.cfg := rfl
@[simp] theorem State.onWl_tick (s : State) (c : Nat) (l : Fin 4) (f : Worklist → Worklist) : (s.onWl c l f).tick = s.tick := rfl
@[simp] theorem State.onWl_stopped (s : State) (c : Nat) (l : Fin 4) (f : Worklist → Worklist) : (s.onWl c l f).stopped = s.stopped := rfl
@[simp] theorem State.onWl_recovery (s : State) (c : Nat) (l : Fin 4) (f : Worklist → Worklist) : (s.onWl c l f).recovery = s.recovery := rfl
@[simp] theorem State.onWl_spares (s : State) (c : Nat) (l : Fin 4) (f : Worklist → Worklist) : (s.onWl c l f).spares = s.spares := rfl
@[simp] theorem State.onWl_outClusters (s : State) (c : Nat) (l : Fin 4) (f : Worklist → Worklist) : (s.onWl c l f).outClusters = s.outClusters := rfl
@[simp] theorem State.onWl_hbmRet (s : State) (c : Nat) (l : Fin 4) (f : Worklist → Worklist) : (s.onWl c l f).hbmRet = s.hbmRet := rfl
@[simp] theorem State.onWl_vbRet (s : State) (c : Nat) (l : Fin 4) (f : Worklist → Worklist) : (s.onWl c l f).vbRet = s.vbRet := rfl
@[simp] theorem State.onWl_links (s : State) (c : Nat) (l : Fin 4) (f : Worklist → Worklist) : (s.onWl c l f).links = s.links := rfl
@[simp] theorem State.onWl_inPod (s : State) (c : Nat) (l : Fin 4) (f : Worklist → Worklist) : (s.onWl c l f).inPod = s.inPod := rfl
@[simp] theorem State.onWl_egress (s : State) (c : Nat) (l : Fin 4) (f : Worklist → Worklist) : (s.onWl c l f).egress = s.egress := rfl
@[simp] theorem State.onWl_posted (s : State) (c : Nat) (l : Fin 4) (f : Worklist → Worklist) : (s.onWl c l f).posted = s.posted := rfl
@[simp] theorem State.onWl_quote (s : State) (c : Nat) (l : Fin 4) (f : Worklist → Worklist) : (s.onWl c l f).quote = s.quote := rfl
@[simp] theorem State.onWl_answers (s : State) (c : Nat) (l : Fin 4) (f : Worklist → Worklist) : (s.onWl c l f).answers = s.answers := rfl
@[simp] theorem State.onWl_viol (s : State) (c : Nat) (l : Fin 4) (f : Worklist → Worklist) : (s.onWl c l f).viol = s.viol := rfl
@[simp] theorem State.onWl_turn (s : State) (c : Nat) (l : Fin 4) (f : Worklist → Worklist) : (s.onWl c l f).turn = s.turn := rfl
@[simp] theorem State.onWl_mem (s : State) (c : Nat) (l : Fin 4) (f : Worklist → Worklist) : (s.onWl c l f).mem = s.mem := rfl
@[simp] theorem State.onWl_poison (s : State) (c : Nat) (l : Fin 4) (f : Worklist → Worklist) : (s.onWl c l f).poison = s.poison := rfl
@[simp] theorem State.onWl_fresh (s : State) (c : Nat) (l : Fin 4) (f : Worklist → Worklist) : (s.onWl c l f).fresh = s.fresh := rfl
@[simp] theorem State.onWl_uid (s : State) (c : Nat) (l : Fin 4) (f : Worklist → Worklist) : (s.onWl c l f).uid = s.uid := rfl

/-! ## Registers -/

@[simp] theorem Regs.setV_x (r : Regs) (n : VReg) (w : W32) : (r.setV n w).x = r.x := rfl
@[simp] theorem Regs.setV_o (r : Regs) (n : VReg) (w : W32) : (r.setV n w).o = r.o := rfl
@[simp] theorem Regs.setV_lr (r : Regs) (n : VReg) (w : W32) : (r.setV n w).lr = r.lr := rfl
@[simp] theorem Regs.setV_p (r : Regs) (n : VReg) (w : W32) : (r.setV n w).p = r.p := rfl
@[simp] theorem Regs.setV_d (r : Regs) (n : VReg) (w : W32) : (r.setV n w).d = r.d := rfl
@[simp] theorem Regs.setV_pc (r : Regs) (n : VReg) (w : W32) : (r.setV n w).pc = r.pc := rfl
@[simp] theorem Regs.setV_sp (r : Regs) (n : VReg) (w : W32) : (r.setV n w).sp = r.sp := rfl
@[simp] theorem Regs.setV_fsr (r : Regs) (n : VReg) (w : W32) : (r.setV n w).fsr = r.fsr := rfl
@[simp] theorem Regs.setV_fgc (r : Regs) (n : VReg) (w : W32) : (r.setV n w).fgc = r.fgc := rfl

@[simp] theorem Regs.setV_v (r : Regs) (n : VReg) (w : W32) : (r.setV n w).v = r.v.set n.val w n.isLt := rfl

@[simp] theorem Regs.setX_v (r : Regs) (n : XReg) (w : W64) : (r.setX n w).v = r.v := rfl
@[simp] theorem Regs.setX_o (r : Regs) (n : XReg) (w : W64) : (r.setX n w).o = r.o := rfl
@[simp] theorem Regs.setX_lr (r : Regs) (n : XReg) (w : W64) : (r.setX n w).lr = r.lr := rfl
@[simp] theorem Regs.setX_p (r : Regs) (n : XReg) (w : W64) : (r.setX n w).p = r.p := rfl
@[simp] theorem Regs.setX_d (r : Regs) (n : XReg) (w : W64) : (r.setX n w).d = r.d := rfl
@[simp] theorem Regs.setX_pc (r : Regs) (n : XReg) (w : W64) : (r.setX n w).pc = r.pc := rfl
@[simp] theorem Regs.setX_sp (r : Regs) (n : XReg) (w : W64) : (r.setX n w).sp = r.sp := rfl
@[simp] theorem Regs.setX_fsr (r : Regs) (n : XReg) (w : W64) : (r.setX n w).fsr = r.fsr := rfl
@[simp] theorem Regs.setX_fgc (r : Regs) (n : XReg) (w : W64) : (r.setX n w).fgc = r.fgc := rfl

@[simp] theorem Regs.setX_x (r : Regs) (n : XReg) (w : W64) : (r.setX n w).x = r.x.set n.val w n.isLt := rfl

@[simp] theorem Regs.setD_v (r : Regs) (n : Fin 8) (w : W64) : (r.setD n w).v = r.v := rfl
@[simp] theorem Regs.setD_x (r : Regs) (n : Fin 8) (w : W64) : (r.setD n w).x = r.x := rfl
@[simp] theorem Regs.setD_o (r : Regs) (n : Fin 8) (w : W64) : (r.setD n w).o = r.o := rfl
@[simp] theorem Regs.setD_lr (r : Regs) (n : Fin 8) (w : W64) : (r.setD n w).lr = r.lr := rfl
@[simp] theorem Regs.setD_p (r : Regs) (n : Fin 8) (w : W64) : (r.setD n w).p = r.p := rfl
@[simp] theorem Regs.setD_pc (r : Regs) (n : Fin 8) (w : W64) : (r.setD n w).pc = r.pc := rfl
@[simp] theorem Regs.setD_sp (r : Regs) (n : Fin 8) (w : W64) : (r.setD n w).sp = r.sp := rfl
@[simp] theorem Regs.setD_fsr (r : Regs) (n : Fin 8) (w : W64) : (r.setD n w).fsr = r.fsr := rfl
@[simp] theorem Regs.setD_fgc (r : Regs) (n : Fin 8) (w : W64) : (r.setD n w).fgc = r.fgc := rfl

@[simp] theorem Regs.setD_d (r : Regs) (n : Fin 8) (w : W64) : (r.setD n w).d = r.d.set n.val w n.isLt := rfl

@[simp] theorem Regs.setP_v (r : Regs) (n : PReg) (b : Bool) : (r.setP n b).v = r.v := rfl
@[simp] theorem Regs.setP_x (r : Regs) (n : PReg) (b : Bool) : (r.setP n b).x = r.x := rfl
@[simp] theorem Regs.setP_o (r : Regs) (n : PReg) (b : Bool) : (r.setP n b).o = r.o := rfl
@[simp] theorem Regs.setP_lr (r : Regs) (n : PReg) (b : Bool) : (r.setP n b).lr = r.lr := rfl
@[simp] theorem Regs.setP_d (r : Regs) (n : PReg) (b : Bool) : (r.setP n b).d = r.d := rfl
@[simp] theorem Regs.setP_pc (r : Regs) (n : PReg) (b : Bool) : (r.setP n b).pc = r.pc := rfl
@[simp] theorem Regs.setP_sp (r : Regs) (n : PReg) (b : Bool) : (r.setP n b).sp = r.sp := rfl
@[simp] theorem Regs.setP_fsr (r : Regs) (n : PReg) (b : Bool) : (r.setP n b).fsr = r.fsr := rfl
@[simp] theorem Regs.setP_fgc (r : Regs) (n : PReg) (b : Bool) : (r.setP n b).fgc = r.fgc := rfl

@[simp] theorem Regs.addFl_v (r : Regs) (f : Fl) : (r.addFl f).v = r.v := rfl
@[simp] theorem Regs.addFl_x (r : Regs) (f : Fl) : (r.addFl f).x = r.x := rfl
@[simp] theorem Regs.addFl_o (r : Regs) (f : Fl) : (r.addFl f).o = r.o := rfl
@[simp] theorem Regs.addFl_lr (r : Regs) (f : Fl) : (r.addFl f).lr = r.lr := rfl
@[simp] theorem Regs.addFl_p (r : Regs) (f : Fl) : (r.addFl f).p = r.p := rfl
@[simp] theorem Regs.addFl_d (r : Regs) (f : Fl) : (r.addFl f).d = r.d := rfl
@[simp] theorem Regs.addFl_pc (r : Regs) (f : Fl) : (r.addFl f).pc = r.pc := rfl
@[simp] theorem Regs.addFl_sp (r : Regs) (f : Fl) : (r.addFl f).sp = r.sp := rfl
@[simp] theorem Regs.addFl_fgc (r : Regs) (f : Fl) : (r.addFl f).fgc = r.fgc := rfl

@[simp] theorem Regs.addFl_fsr (r : Regs) (f : Fl) : (r.addFl f).fsr = r.fsr ||| f := rfl

@[simp] theorem Regs.adv_v (r : Regs) (n : Nat) : (r.adv n).v = r.v := rfl
@[simp] theorem Regs.adv_x (r : Regs) (n : Nat) : (r.adv n).x = r.x := rfl
@[simp] theorem Regs.adv_o (r : Regs) (n : Nat) : (r.adv n).o = r.o := rfl
@[simp] theorem Regs.adv_lr (r : Regs) (n : Nat) : (r.adv n).lr = r.lr := rfl
@[simp] theorem Regs.adv_p (r : Regs) (n : Nat) : (r.adv n).p = r.p := rfl
@[simp] theorem Regs.adv_d (r : Regs) (n : Nat) : (r.adv n).d = r.d := rfl
@[simp] theorem Regs.adv_sp (r : Regs) (n : Nat) : (r.adv n).sp = r.sp := rfl
@[simp] theorem Regs.adv_fsr (r : Regs) (n : Nat) : (r.adv n).fsr = r.fsr := rfl
@[simp] theorem Regs.adv_fgc (r : Regs) (n : Nat) : (r.adv n).fgc = r.fgc := rfl

@[simp] theorem Regs.adv_pc (r : Regs) (n : Nat) : (r.adv n).pc = r.pc + BitVec.ofNat 64 (4 * n) := rfl

@[simp] theorem Regs.put8_x (r : Regs) (d : Dst8) (w : W32) : (r.put8 d w).x = r.x := by cases d <;> rfl
@[simp] theorem Regs.put8_p (r : Regs) (d : Dst8) (w : W32) : (r.put8 d w).p = r.p := by cases d <;> rfl
@[simp] theorem Regs.put8_d (r : Regs) (d : Dst8) (w : W32) : (r.put8 d w).d = r.d := by cases d <;> rfl
@[simp] theorem Regs.put8_pc (r : Regs) (d : Dst8) (w : W32) : (r.put8 d w).pc = r.pc := by cases d <;> rfl
@[simp] theorem Regs.put8_sp (r : Regs) (d : Dst8) (w : W32) : (r.put8 d w).sp = r.sp := by cases d <;> rfl
@[simp] theorem Regs.put8_fsr (r : Regs) (d : Dst8) (w : W32) : (r.put8 d w).fsr = r.fsr := by cases d <;> rfl
@[simp] theorem Regs.put8_fgc (r : Regs) (d : Dst8) (w : W32) : (r.put8 d w).fgc = r.fgc := by cases d <;> rfl

@[simp] theorem Regs.write8_x (r : Regs) (d : Dst8) (w : W32) : (r.write8 d w).x = r.x := by cases d <;> rfl
@[simp] theorem Regs.write8_p (r : Regs) (d : Dst8) (w : W32) : (r.write8 d w).p = r.p := by cases d <;> rfl
@[simp] theorem Regs.write8_d (r : Regs) (d : Dst8) (w : W32) : (r.write8 d w).d = r.d := by cases d <;> rfl
@[simp] theorem Regs.write8_pc (r : Regs) (d : Dst8) (w : W32) : (r.write8 d w).pc = r.pc := by cases d <;> rfl
@[simp] theorem Regs.write8_sp (r : Regs) (d : Dst8) (w : W32) : (r.write8 d w).sp = r.sp := by cases d <;> rfl
@[simp] theorem Regs.write8_fsr (r : Regs) (d : Dst8) (w : W32) : (r.write8 d w).fsr = r.fsr := by cases d <;> rfl
@[simp] theorem Regs.write8_fgc (r : Regs) (d : Dst8) (w : W32) : (r.write8 d w).fgc = r.fgc := by cases d <;> rfl

@[simp] theorem Regs.write8_lr (r : Regs) (d : Dst8) (w : W32) : (r.write8 d w).lr = w := rfl

@[simp] theorem Regs.getV_setV (r : Regs) (n k : VReg) (w : W32) : (r.setV n w).getV k = if k = n then w else r.getV k := by
  unfold Regs.getV; simp [Vector.getElem_set, Fin.ext_iff, eq_comm]

@[simp] theorem Regs.getX_setX (r : Regs) (n k : XReg) (w : W64) : (r.setX n w).getX k = if k = n then w else r.getX k := by
  unfold Regs.getX; simp [Vector.getElem_set, Fin.ext_iff, eq_comm]

@[simp] theorem Regs.getD_setD (r : Regs) (n k : Fin 8) (w : W64) : (r.setD n w).getD k = if k = n then w else r.getD k := by
  unfold Regs.getD; simp [Vector.getElem_set, Fin.ext_iff, eq_comm]

@[simp] theorem Regs.getP_setP (r : Regs) (n k : PReg) (b : Bool) : (r.setP n b).getP k = if k = n then b else r.getP k := by
  unfold Regs.getP Regs.setP
  by_cases h : k = n
  · subst h; cases b <;> simp
  · have h' : k.val ≠ n.val := fun e => h (Fin.ext e)
    have e : (1#12 <<< n.val).getLsbD k.val = false := by
      rw [BitVec.getLsbD_shiftLeft, BitVec.getLsbD_one]
      rcases Nat.lt_or_gt_of_ne h' with q | q
      · simp [q]
      · have : k.val - n.val ≠ 0 := by omega
        simp [this]
    rw [if_neg h, BitVec.getLsbD_or, BitVec.getLsbD_and, BitVec.getLsbD_not, e]
    cases b
    · simp
    · rw [if_pos rfl, e]
      simp

end Sys2Proof.Machine
end

