-- ==== Sys2Proof/Laws/Keeps.lean ====
section
/-! SUPPORT. What every operation of a program leaves alone: `Keeps s t` says that memory stays in its canonical form and that
the device's configuration, its clock, its links, its failures and the agenda are as before. One rule per shape of a definition. -/

namespace Sys2Proof.Machine

/-- Every next state of an outcome keeps them. -/
structure KeepsOut (s : State) (o : Out) : Prop where
  keeps : ∀ t, o = .next t → Keeps s t

/-- Every state of an optional answer keeps them. -/
structure KeepsOpt {α : Type} (f : α → State) (s : State) (o : Option α) : Prop where
  keeps : ∀ a, o = some a → Keeps s (f a)

theorem Keeps.refl (s : State) : Keeps s s := ⟨id, rfl, rfl, rfl, rfl, rfl, rfl, rfl, ⟨rfl, rfl⟩, ⟨rfl, rfl⟩⟩

theorem Keeps.trans {s t u : State} (h : Keeps s t) (k : Keeps t u) : Keeps s u :=
  ⟨fun w => k.wf (h.wf w), k.agenda.trans h.agenda, k.cfg.trans h.cfg, k.tick.trans h.tick, k.stopped.trans h.stopped,
    k.recovery.trans h.recovery, k.spares.trans h.spares, k.outClusters.trans h.outClusters,
    ⟨k.retired.1.trans h.retired.1, k.retired.2.trans h.retired.2⟩, ⟨k.links.1.trans h.links.1, k.links.2.trans h.links.2⟩⟩

/-- A record update of any other field. -/
theorem Keeps.upd {s0 s : State} (h : Keeps s0 s) (trapq : List TrapReq) (cur : Thread) (sheaf : List TRef) (threads : List Thread)
    (wgs : List Wg) (gangs : List Gang) (launches : List Launch) (cores : List Core) (l2 : Vector (List TlbEnt) 4) (ctxs : List Ctx)
    (archives : List (Nat × Arch)) (queues : List Queue) (curators : List Curator) (rounds : List Round) (switches : List Switch)
    (egress posted : List (Nat × Byte)) (quote : List (List Byte)) (answers : List Answer) (viol : List (Nat × Nat × Nat)) (turn : Nat)
    (poison : List Nat) (fresh uid : Nat) :
    Keeps s0 { s with trapq, cur, sheaf, threads, wgs, gangs, launches, cores, l2, ctxs, archives, queues, curators, rounds, switches
                      egress, posted, quote, answers, viol, turn, poison, fresh, uid } :=
  ⟨h.wf, h.agenda, h.cfg, h.tick, h.stopped, h.recovery, h.spares, h.outClusters, h.retired, h.links⟩

/-- A write of bytes. -/
theorem Keeps.put {s0 s : State} (h : Keeps s0 s) (a : Nat) (bs : List Byte) (poison : List Nat) :
    Keeps s0 { s with mem := writeBytes s.mem a bs, poison } :=
  ⟨fun w => writeBytes_wf _ _ (h.wf w), h.agenda, h.cfg, h.tick, h.stopped, h.recovery, h.spares, h.outClusters, h.retired, h.links⟩

/-- A write of bytes at a member that comes back. -/
theorem Keeps.restore {s0 s : State} (h : Keeps s0 s) (a : Nat) (bs : List Byte) (wgs : List Wg) (threads : List Thread) :
    Keeps s0 { s with mem := writeBytes s.mem a bs, wgs, threads } :=
  ⟨fun w => writeBytes_wf _ _ (h.wf w), h.agenda, h.cfg, h.tick, h.stopped, h.recovery, h.spares, h.outClusters, h.retired, h.links⟩

/-- Bytes cleared. -/
theorem Keeps.zap {s0 s : State} (h : Keeps s0 s) (p : Nat × Byte → Bool) : Keeps s0 { s with mem := s.mem.filter p } :=
  ⟨fun w => filter_wf _ (h.wf w), h.agenda, h.cfg, h.tick, h.stopped, h.recovery, h.spares, h.outClusters, h.retired, h.links⟩

theorem Keeps.of_snd {α : Type} {s0 s : State} {x : α × State} {a : α} (h : Keeps s0 x.2) (e : x = (a, s)) : Keeps s0 s := by
  subst e; exact h

theorem Keeps.of_opt {α : Type} {f : α → State} {s0 : State} {x : Option α} {a : α} (h : KeepsOpt f s0 x) (e : x = some a) :
    Keeps s0 (f a) := h.keeps a e

theorem Keeps.of_some {s0 s : State} {x : Option State} (h : KeepsOpt id s0 x) (e : x = some s) : Keeps s0 s := h.keeps s e

theorem Keeps.of_fst {α : Type} {s0 s : State} {x : Option (State × α)} {a : α} (h : KeepsOpt Prod.fst s0 x) (e : x = some (s, a)) :
    Keeps s0 s := h.keeps _ e

theorem Keeps.foldl {α : Type} {s0 : State} (f : State → α → State) (l : List α) {s : State} (h : Keeps s0 s)
    (hf : ∀ s a, Keeps s0 s → Keeps s0 (f s a)) : Keeps s0 (l.foldl f s) := by
  induction l generalizing s with
  | nil => exact h
  | cons a t ih => exact ih (hf s a h)

theorem Keeps.foldl_snd {α β : Type} {s0 : State} (f : β × State → α → β × State) (l : List α) {x : β × State} (h : Keeps s0 x.2)
    (hf : ∀ x a, Keeps s0 x.2 → Keeps s0 (f x a).2) : Keeps s0 (l.foldl f x).2 := by
  induction l generalizing x with
  | nil => exact h
  | cons a t ih => exact ih (hf x a h)

theorem KeepsOut.next {s0 s : State} (h : Keeps s0 s) : KeepsOut s0 (.next s) := ⟨fun _ e => by cases e; exact h⟩
theorem KeepsOut.fault {s0 : State} (f : Fault) : KeepsOut s0 (.fault f) := ⟨fun _ e => by cases e⟩
theorem KeepsOut.refused {s0 : State} (r : Refusal) : KeepsOut s0 (.refused r) := ⟨fun _ e => by cases e⟩
theorem KeepsOpt.none {α : Type} {f : α → State} {s0 : State} : KeepsOpt f s0 none := ⟨fun _ e => by cases e⟩
theorem KeepsOpt.some {α : Type} {f : α → State} {s0 : State} {a : α} (h : Keeps s0 (f a)) : KeepsOpt f s0 (some a) :=
  ⟨fun _ e => by cases e; exact h⟩
theorem KeepsOpt.map {α β : Type} {f : α → State} {g : β → State} {s0 : State} {o : Option α} {m : α → β} (h : KeepsOpt f s0 o)
    (hm : ∀ a, Keeps s0 (f a) → Keeps s0 (g (m a))) : KeepsOpt g s0 (o.map m) := by
  cases o with
  | none => exact .none
  | some a => exact .some (hm a (h.keeps a rfl))
theorem KeepsOpt.findSome {α β : Type} {f : β → State} {s0 : State} {m : α → Option β} (l : List α) (h : ∀ a, KeepsOpt f s0 (m a)) :
    KeepsOpt f s0 (l.findSome? m) := by
  induction l with
  | nil => exact .none
  | cons a t ih =>
    rw [List.findSome?_cons]
    split
    · rename_i e; exact e ▸ h a
    · exact ih
theorem Keeps.getD {s0 s : State} {o : Option State} (h : KeepsOpt id s0 o) (hs : Keeps s0 s) : Keeps s0 (o.getD s) := by
  cases o with
  | none => exact hs
  | some a => exact h.keeps a rfl

end Sys2Proof.Machine
end

