-- ==== Sys2Proof/Laws/KeepsOps.lean ====
section
/-! SUPPORT. One lemma for each shared operation: it leaves alone what `Keeps` names. -/

set_option Elab.async false

namespace Sys2Proof.Machine

/-- What performing an access leaves. -/
structure KeepsPerf (s : State) (p : Perf) : Prop where
  done : ∀ t, p = .done t → Keeps s t
  poison : ∀ t va pc, p = .poison t va pc → Keeps s t

/-- What moving a piece of a copy leaves. -/
structure KeepsMoved (s : State) (p : Moved) : Prop where
  ok : ∀ t, p = .ok t → Keeps s t
  err : ∀ e t, p = .err e t → Keeps s t

/-- What reading a record's chunk leaves. -/
structure KeepsTake (s : State) (p : TakeRes) : Prop where
  page : ∀ r t, p = .page r t → Keeps s t
  lost : ∀ t, p = .lost t → Keeps s t

/-- What finding a pop's record leaves. -/
structure KeepsPop (s : State) (p : PopRes) : Prop where
  found : ∀ r t, p = .found r t → Keeps s t

theorem KeepsPerf.mkDone {s0 s : State} (h : Keeps s0 s) : KeepsPerf s0 (.done s) :=
  ⟨fun _ e => by cases e; exact h, fun _ _ _ e => by cases e⟩
theorem KeepsPerf.mkPoison {s0 s : State} {va pc : W64} (h : Keeps s0 s) : KeepsPerf s0 (.poison s va pc) :=
  ⟨fun _ e => (by cases e), fun _ _ _ e => by cases e; exact h⟩
theorem KeepsMoved.mkOk {s0 s : State} (h : Keeps s0 s) : KeepsMoved s0 (.ok s) := ⟨fun _ e => by cases e; exact h, fun _ _ e => by cases e⟩
theorem KeepsMoved.mkErr {s0 s : State} {x : CopyErr} (h : Keeps s0 s) : KeepsMoved s0 (.err x s) :=
  ⟨fun _ e => (by cases e), fun _ _ e => by cases e; exact h⟩
theorem KeepsTake.mkOk {s0 : State} : KeepsTake s0 .ok := ⟨fun _ _ e => (by cases e), fun _ e => (by cases e)⟩
theorem KeepsTake.mkPage {s0 s : State} {r : Nat} (h : Keeps s0 s) : KeepsTake s0 (.page r s) :=
  ⟨fun _ _ e => by cases e; exact h, fun _ e => by cases e⟩
theorem KeepsTake.mkLost {s0 s : State} (h : Keeps s0 s) : KeepsTake s0 (.lost s) := ⟨fun _ _ e => (by cases e), fun _ e => by cases e; exact h⟩
theorem KeepsPop.mkNone {s0 : State} : KeepsPop s0 .none := ⟨fun _ _ e => by cases e⟩
theorem KeepsPop.mkHold {s0 : State} : KeepsPop s0 .hold := ⟨fun _ _ e => by cases e⟩
theorem KeepsPop.mkFound {s0 s : State} {r : WRec} (h : Keeps s0 s) : KeepsPop s0 (.found r s) := ⟨fun _ _ e => by cases e; exact h⟩

theorem State.onAll_keeps {s0 s : State} (f : Thread → Thread) (hs : Keeps s0 s) : Keeps s0 (State.onAll s f) := by
  unfold State.onAll
  with_reducible repeat' first | assumption | fail_if_no_progress (apply Keeps.upd)

theorem touch_keeps {s0 s : State} (who : TRef) (key n : Nat) (hs : Keeps s0 s) : Keeps s0 (touch s who key n) := by
  unfold touch
  with_reducible repeat' first | assumption | apply State.onAll_keeps

theorem State.put_keeps {s0 s : State} (who : TRef) (key : Nat) (bs : List Byte) (hs : Keeps s0 s) :
    Keeps s0 (State.put s who key bs) := by
  unfold State.put
  with_reducible repeat' first
    | assumption | apply touch_keeps | apply Keeps.put | fail_if_no_progress (apply Keeps.upd) | split

theorem State.putN_keeps {s0 s : State} (who : TRef) (key n v : Nat) (hs : Keeps s0 s) : Keeps s0 (State.putN s who key n v) := by
  unfold State.putN
  with_reducible repeat' first | assumption | apply State.put_keeps

theorem updateBar_keeps {s0 s : State} (who : TRef) (key : Nat) (f : TBar → TBar) (hs : Keeps s0 s) :
    Keeps s0 (updateBar s who key f) := by
  unfold updateBar
  with_reducible repeat' first | assumption | apply State.putN_keeps

theorem State.take_keeps {s0 s : State} (key n : Nat) (hs : Keeps s0 s) : Keeps s0 (State.take s key n).2 := by
  unfold State.take
  with_reducible repeat' first | assumption | fail_if_no_progress (apply Keeps.upd) | split

theorem State.onCore_keeps {s0 s : State} (n : Nat) (f : Core → Core) (hs : Keeps s0 s) : Keeps s0 (State.onCore s n f) := by
  unfold State.onCore
  with_reducible repeat' first | assumption | fail_if_no_progress (apply Keeps.upd) | split

theorem tlbFill_keeps {s0 s : State} (core : Nat) (e : TlbEnt) (hs : Keeps s0 s) : Keeps s0 (tlbFill s core e) := by
  unfold tlbFill
  with_reducible repeat' first | assumption | apply State.onCore_keeps | fail_if_no_progress (apply Keeps.upd) | split

theorem xlate_keeps {s0 s : State} (core cid va kind : Nat) (hs : Keeps s0 s) : Keeps s0 (xlate s core cid va kind).2 := by
  unfold xlate; (try dsimp only)
  with_reducible repeat' first | assumption | apply State.onCore_keeps | apply tlbFill_keeps | split

theorem resolve_keeps {s0 s : State} (w : Option Wg) (core cid va n kind : Nat) (hs : Keeps s0 s) :
    Keeps s0 (resolve s w core cid va n kind).2 := by
  unfold resolve
  with_reducible repeat' first | assumption | apply xlate_keeps | split

theorem State.onWg_keeps {s0 s : State} (w : Nat) (f : Wg → Wg) (hs : Keeps s0 s) : Keeps s0 (State.onWg s w f) := by
  unfold State.onWg
  with_reducible repeat' first | assumption | fail_if_no_progress (apply Keeps.upd)

theorem State.onThread_keeps {s0 s : State} (t : TRef) (f : Thread → Thread) (hs : Keeps s0 s) : Keeps s0 (State.onThread s t f) := by
  unfold State.onThread
  with_reducible repeat' first | assumption | fail_if_no_progress (apply Keeps.upd) | split

theorem noteTail_keeps {s0 s : State} (tid : Nat) (t : TRef) (key n : Nat) (hs : Keeps s0 s) : Keeps s0 (noteTail s tid t key n) := by
  unfold noteTail
  with_reducible repeat' first | assumption | apply State.onWg_keeps | apply State.onThread_keeps | split

theorem l1Store_keeps {s0 s : State} (who : TRef) (core cid key : Nat) (bs : List Byte) (hs : Keeps s0 s) :
    Keeps s0 (l1Store s who core cid key bs) := by
  unfold l1Store
  with_reducible repeat' first
    | assumption | apply touch_keeps | apply State.onCore_keeps | apply Keeps.foldl | (intro _; try dsimp only [id])

theorem writeBack_keeps {s0 s : State} (core : Nat) (x : Sector) (drop : Bool) (hs : Keeps s0 s) :
    Keeps s0 (writeBack s core x drop) := by
  unfold writeBack
  with_reducible repeat' first
    | assumption | apply State.put_keeps | apply State.putN_keeps | apply State.onCore_keeps | apply Keeps.foldl | split
    | (intro _; try dsimp only [id])

theorem flushSector_keeps {s0 s : State} (core cid key n : Nat) (hs : Keeps s0 s) : Keeps s0 (flushSector s core cid key n) := by
  unfold flushSector
  with_reducible repeat' first
    | assumption | apply writeBack_keeps | apply Keeps.foldl | split | (intro _; try dsimp only [id])

theorem l1Mark_keeps {s0 s : State} (core cid sec : Nat) (hint : Hint) (hs : Keeps s0 s) :
    Keeps s0 (l1Mark s core cid sec hint) := by
  unfold l1Mark
  with_reducible repeat' first
    | assumption | apply hint | apply State.onCore_keeps | refine Keeps.of_snd ?_ (by assumption)
    | fail_if_no_progress (apply Keeps.upd) | split

theorem writeBackAll_keeps {s0 s : State} (core : Nat) (p : Sector → Bool) (drop : Bool) (hs : Keeps s0 s) :
    Keeps s0 (writeBackAll s core p drop) := by
  unfold writeBackAll
  with_reducible repeat' first | assumption | apply writeBack_keeps | apply Keeps.foldl | (intro _; try dsimp only [id])

theorem l1Room_keeps {s0 s : State} (core cid sec : Nat) (hint : Hint) (hs : Keeps s0 s) :
    Keeps s0 (l1Room s core cid sec hint) := by
  unfold l1Room; (try dsimp only)
  with_reducible repeat' first
    | assumption | apply hint | apply writeBackAll_keeps | refine Keeps.of_snd ?_ (by assumption)
    | fail_if_no_progress (apply Keeps.upd) | split

theorem State.drainEgress_keeps {s0 s : State} (hs : Keeps s0 s) : Keeps s0 (State.drainEgress s) := by
  unfold State.drainEgress
  with_reducible repeat' first | assumption | fail_if_no_progress (apply Keeps.upd)

theorem goHome_keeps {s0 s : State} (core cid scope key n : Nat) (hs : Keeps s0 s) :
    Keeps s0 (goHome s core cid scope key n) := by
  unfold goHome; (try dsimp only)
  with_reducible repeat' first
    | assumption | apply State.drainEgress_keeps | apply flushSector_keeps | refine Keeps.of_snd ?_ (by assumption)
    | split

theorem agentWrite_keeps {s0 s : State} (who : TRef) (core cid scope : Nat) (hint : Hint) (key : Nat) (bs : List Byte) (hs : Keeps s0 s) :
    Keeps s0 (agentWrite s who core cid scope hint key bs) := by
  unfold agentWrite; (try dsimp only)
  with_reducible repeat' first
    | assumption | apply hint | apply State.put_keeps | apply l1Mark_keeps | apply l1Store_keeps | apply l1Room_keeps
    | apply goHome_keeps | apply State.onCore_keeps | refine Keeps.of_snd ?_ (by assumption)
    | fail_if_no_progress (apply Keeps.upd) | split

theorem writePiece_keeps {s0 s : State} (w : Option Wg) (core cid va : Nat) (bs : List Byte) (hs : Keeps s0 s) :
    Keeps s0 (writePiece s w core cid va bs).2 := by
  unfold writePiece; (try dsimp only)
  with_reducible repeat' first
    | assumption | apply resolve_keeps | apply noteTail_keeps | apply agentWrite_keeps
    | refine Keeps.of_snd ?_ (by assumption) | split

theorem State.onRegs_keeps {s0 s : State} (f : Regs → Regs) (hs : Keeps s0 s) : Keeps s0 (State.onRegs s f) := by
  unfold State.onRegs
  with_reducible repeat' first | assumption | fail_if_no_progress (apply Keeps.upd)

theorem State.adv_keeps {s0 s : State} (n : Nat) (hs : Keeps s0 s) : Keeps s0 (State.adv s n) := by
  unfold State.adv
  with_reducible repeat' first | assumption | apply State.onRegs_keeps

theorem guarded_keeps {s0 s : State} (g : Guard) (n : Nat) (k : Out) (hs : Keeps s0 s) (hk : KeepsOut s0 k) :
    KeepsOut s0 (guarded g n s k) := by
  unfold guarded
  with_reducible repeat' first | assumption | apply hk | apply State.adv_keeps | apply KeepsOut.next | split

theorem restorationFault_keeps {s0 s : State} (t : Thread) (e : RestEntry) (cause : BitVec 9) (tpc : W64) (hs : Keeps s0 s) :
    Keeps s0 (restorationFault s t e cause tpc) := by
  unfold restorationFault
  with_reducible repeat' first | assumption | apply State.onThread_keeps | fail_if_no_progress (apply Keeps.upd) | split

theorem State.setRound_keeps {s0 s : State} (r : Round) (hs : Keeps s0 s) : Keeps s0 (State.setRound s r) := by
  unfold State.setRound
  with_reducible repeat' first | assumption | fail_if_no_progress (apply Keeps.upd)

theorem endPacket_keeps {s0 s : State} (c : Nat) (hs : Keeps s0 s) : Keeps s0 (endPacket s c) := by
  unfold endPacket
  with_reducible repeat' first | assumption | apply State.setRound_keeps | fail_if_no_progress (apply Keeps.upd)

theorem dropThread_keeps {s0 s : State} (ref : TRef) (hs : Keeps s0 s) : Keeps s0 (dropThread s ref) := by
  unfold dropThread
  with_reducible repeat' first | assumption | fail_if_no_progress (apply Keeps.upd) | split

theorem syncQueue_keeps {s0 s : State} (q : Nat) (hs : Keeps s0 s) : Keeps s0 (syncQueue s q) := by
  unfold syncQueue; (try dsimp only)
  with_reducible repeat' first | assumption | apply State.put_keeps | split

theorem State.onQueue_keeps {s0 s : State} (q : Nat) (f : Queue → Queue) (hs : Keeps s0 s) : Keeps s0 (State.onQueue s q f) := by
  unfold State.onQueue
  with_reducible repeat' first | assumption | fail_if_no_progress (apply Keeps.upd)

theorem State.setQueue_keeps {s0 s : State} (q : Nat) (f : Queue → Queue) (hs : Keeps s0 s) : Keeps s0 (State.setQueue s q f) := by
  unfold State.setQueue
  with_reducible repeat' first | assumption | apply syncQueue_keeps | apply State.onQueue_keeps

theorem devPut_keeps {s0 s : State} (cid z1 : Nat) (z2 : List Byte) (hs : Keeps s0 s) : Keeps s0 (devPut s cid z1 z2) := by
  induction z2 generalizing z1 s with
  | nil => unfold devPut; assumption
  | cons b bs ih =>
    unfold devPut
    with_reducible repeat' first | assumption | apply ih | apply State.put_keeps | split

theorem ringPost_keeps {s0 s : State} (cid base ents esz : Nat) (entry : List Byte) (hs : Keeps s0 s) :
    Keeps s0 (ringPost s cid base ents esz entry) := by
  unfold ringPost; (try dsimp only)
  with_reducible repeat' first
    | assumption | apply devPut_keeps | apply State.drainEgress_keeps | refine Keeps.of_snd ?_ (by assumption)
    | fail_if_no_progress (apply Keeps.upd) | split

theorem postEntry_keeps {s0 s : State} (cid : Nat) (entry : List Byte) (hs : Keeps s0 s) : Keeps s0 (postEntry s cid entry) := by
  unfold postEntry
  with_reducible repeat' first | assumption | apply ringPost_keeps | split

theorem postEvent_keeps {s0 s : State} (cid type arg0 arg1 : Nat) (hs : Keeps s0 s) : Keeps s0 (postEvent s cid type arg0 arg1) := by
  unfold postEvent
  with_reducible repeat' first | assumption | apply postEntry_keeps

theorem curatorTrap_keeps {s0 s : State} (t : Thread) (c : Nat) (cause : BitVec 9) (tpc : W64) (hs : Keeps s0 s) :
    Keeps s0 (curatorTrap s t c cause tpc) := by
  unfold curatorTrap
  with_reducible repeat' first
    | assumption | apply endPacket_keeps | apply dropThread_keeps | apply State.setQueue_keeps | apply postEvent_keeps

theorem State.onGang_keeps {s0 s : State} (g : Nat) (f : Gang → Gang) (hs : Keeps s0 s) : Keeps s0 (State.onGang s g f) := by
  unfold State.onGang
  with_reducible repeat' first | assumption | fail_if_no_progress (apply Keeps.upd)

theorem setBar_keeps {s0 s : State} (w : Wg) (cluster : Bool) (id : Fin 16) (b : Bar) (hs : Keeps s0 s) :
    Keeps s0 (setBar s w cluster id b) := by
  unfold setBar
  with_reducible repeat' first | assumption | apply State.onGang_keeps | apply State.onWg_keeps | split

theorem invalidateClean_keeps {s0 s : State} (core cid : Nat) (hs : Keeps s0 s) : Keeps s0 (invalidateClean s core cid) := by
  unfold invalidateClean
  with_reducible repeat' first | assumption | apply State.onCore_keeps

theorem acquire_keeps {s0 s : State} (core cid scope : Nat) (hs : Keeps s0 s) : Keeps s0 (acquire s core cid scope) := by
  unfold acquire
  with_reducible repeat' first | assumption | apply invalidateClean_keeps | split

theorem acquireBy_keeps {s0 s : State} (ref : TRef) (scope : Nat) (hs : Keeps s0 s) : Keeps s0 (acquireBy s ref scope) := by
  unfold acquireBy
  with_reducible repeat' first | assumption | apply acquire_keeps | split

theorem wake_keeps {s0 s : State} (ref : TRef) (n : Nat) (f : Regs → Regs) (hs : Keeps s0 s) : Keeps s0 (wake s ref n f) := by
  unfold wake
  with_reducible repeat' first | assumption | apply State.onThread_keeps

theorem testBar_keeps {s0 s : State} (w : Wg) (cluster : Bool) (id : Fin 16) (hs : Keeps s0 s) : Keeps s0 (testBar s w cluster id) := by
  unfold testBar; (try dsimp only)
  with_reducible repeat' first
    | assumption | apply setBar_keeps | apply acquireBy_keeps | apply wake_keeps | apply Keeps.foldl | split
    | (intro _; try dsimp only [id])

theorem setK_keeps {s0 s : State} (w : Wg) (cluster : Bool) (k : Fin 8) (r : KReg) (hs : Keeps s0 s) :
    Keeps s0 (setK s w cluster k r) := by
  unfold setK
  with_reducible repeat' first | assumption | apply State.onGang_keeps | apply State.onWg_keeps | split

theorem finishRound_keeps {s0 s : State} (w : Wg) (cluster : Bool) (k : Fin 8) (kr : KReg) (f : Sign → Regs → Regs) (hs : Keeps s0 s) :
    Keeps s0 (finishRound s w cluster k kr f) := by
  unfold finishRound
  with_reducible repeat' first
    | assumption | apply setK_keeps | apply acquireBy_keeps | apply wake_keeps | apply Keeps.foldl | (intro _; try dsimp only [id])

theorem askTrap_keeps {s0 s : State} (t : Thread) (cause : BitVec 9) (taddr tinfo : W64) (hs : Keeps s0 s) :
    Keeps s0 (askTrap s t cause taddr tinfo) := by
  unfold askTrap
  with_reducible repeat' first | assumption | fail_if_no_progress (apply Keeps.upd)

theorem failRound_keeps {s0 s : State} (w : Wg) (cluster : Bool) (k : Fin 8) (kr : KReg) (st : KState) (p : Thread → Option (BitVec 9 × W64 × W64)) (hs : Keeps s0 s) :
    Keeps s0 (failRound s w cluster k kr st p) := by
  unfold failRound
  with_reducible repeat' first
    | assumption | apply setK_keeps | apply askTrap_keeps | apply State.onThread_keeps | apply Keeps.foldl | split
    | (intro _; try dsimp only [id])

theorem setHeap_keeps {s0 s : State} (w : Wg) (cluster : Bool) (h : Heap) (hs : Keeps s0 s) : Keeps s0 (setHeap s w cluster h) := by
  unfold setHeap
  with_reducible repeat' first | assumption | apply State.onGang_keeps | apply State.onWg_keeps | split

theorem finishFopen_keeps {s0 s : State} (w : Wg) (cluster : Bool) (k : Fin 8) (kr : KReg) (dep : Nat) (hs : Keeps s0 s) :
    Keeps s0 (finishFopen s w cluster k kr dep) := by
  unfold finishFopen; (try dsimp only)
  with_reducible repeat' first
    | assumption | apply failRound_keeps | apply setHeap_keeps | apply State.put_keeps | apply State.putN_keeps
    | apply State.onThread_keeps | apply finishRound_keeps | apply Keeps.foldl | split | (intro _; try dsimp only [id])

theorem enqueue_keeps {s0 s : State} (w : Nat) (op : MOp) (hs : Keeps s0 s) : Keeps s0 (enqueue s w op).2 := by
  unfold enqueue
  with_reducible repeat' first | assumption | apply State.onWg_keeps | fail_if_no_progress (apply Keeps.upd)

theorem enqueueAll_keeps {s0 s : State} (ps : List Wg) (kr : KReg) (op : Nat → MOp) (hs : Keeps s0 s) :
    Keeps s0 (enqueueAll s ps kr op) := by
  unfold enqueueAll
  with_reducible repeat' first
    | assumption | apply enqueue_keeps | apply State.onThread_keeps | apply Keeps.foldl | split | (intro _; try dsimp only [id])

theorem finishMma_keeps {s0 s : State} (w : Wg) (cluster : Bool) (k : Fin 8) (kr : KReg) (c : MmaCtl) (hs : Keeps s0 s) :
    Keeps s0 (finishMma s w cluster k kr c) := by
  unfold finishMma; (try dsimp only)
  with_reducible repeat' first
    | assumption | apply failRound_keeps | apply enqueueAll_keeps | apply finishRound_keeps | split

theorem finishMdrain_keeps {s0 s : State} (w : Wg) (cluster : Bool) (k : Fin 8) (kr : KReg) (c : DrainCtl) (hs : Keeps s0 s) :
    Keeps s0 (finishMdrain s w cluster k kr c) := by
  unfold finishMdrain
  with_reducible repeat' first | assumption | apply enqueueAll_keeps | apply finishRound_keeps

theorem completeRound_keeps {s0 s : State} (w : Wg) (cluster : Bool) (k : Fin 8) (kr : KReg) (hs : Keeps s0 s) :
    Keeps s0 (completeRound s w cluster k kr) := by
  unfold completeRound
  with_reducible repeat' first
    | assumption | apply finishRound_keeps | apply finishFopen_keeps | apply finishMma_keeps | apply finishMdrain_keeps | split

theorem testRound_keeps {s0 s : State} (w : Wg) (cluster : Bool) (k : Fin 8) (hs : Keeps s0 s) :
    Keeps s0 (testRound s w cluster k) := by
  unfold testRound; (try dsimp only)
  with_reducible repeat' first | assumption | apply completeRound_keeps | split

theorem testScope_keeps {s0 s : State} (w : Nat) (cluster : Bool) (hs : Keeps s0 s) : Keeps s0 (testScope s w cluster) := by
  unfold testScope
  with_reducible repeat' first
    | assumption | apply testBar_keeps | apply testRound_keeps | apply Keeps.foldl | split | (intro _; try dsimp only [id])

theorem exitGroups_keeps {s0 s : State} (t : Thread) (w : Wg) (hs : Keeps s0 s) : Keeps s0 (exitGroups s t w) := by
  unfold exitGroups
  with_reducible repeat' first | assumption | apply State.onWg_keeps | apply State.onGang_keeps

theorem State.onCtx_keeps {s0 s : State} (cid : Nat) (f : Ctx → Ctx) (hs : Keeps s0 s) : Keeps s0 (State.onCtx s cid f) := by
  unfold State.onCtx
  with_reducible repeat' first | assumption | fail_if_no_progress (apply Keeps.upd)

theorem State.onWl_keeps {s0 s : State} (cid : Nat) (wl : Fin 4) (f : Worklist → Worklist) (hs : Keeps s0 s) :
    Keeps s0 (State.onWl s cid wl f) := by
  unfold State.onWl
  with_reducible repeat' first | assumption | apply State.onCtx_keeps

theorem release_keeps {s0 s : State} (core cid scope : Nat) (hs : Keeps s0 s) : Keeps s0 (release s core cid scope) := by
  unfold release
  with_reducible repeat' first | assumption | apply writeBackAll_keeps | apply State.drainEgress_keeps | split

theorem wlDone_keeps {s0 s : State} (t : Thread) (wl : Fin 4) (hs : Keeps s0 s) : Keeps s0 (wlDone s t wl) := by
  unfold wlDone
  with_reducible repeat' first | assumption | apply State.onWl_keeps | apply release_keeps | split

theorem wlLeave_keeps {s0 s : State} (t : Thread) (hs : Keeps s0 s) : Keeps s0 (wlLeave s t) := by
  unfold wlLeave
  with_reducible repeat' first | assumption | apply State.onCtx_keeps

theorem freeFrame_keeps {s0 s : State} (w : Wg) (h : W64) (key : Nat) (d : Hdr) (hs : Keeps s0 s) :
    Keeps s0 (freeFrame s w h key d) := by
  unfold freeFrame
  with_reducible repeat' first | assumption | apply State.putN_keeps | apply setHeap_keeps

theorem releaseHold_keeps {s0 s : State} (w : Wg) (h : W64) (hs : Keeps s0 s) : Keeps s0 (releaseHold s w h) := by
  unfold releaseHold; (try dsimp only)
  with_reducible repeat' first | assumption | apply freeFrame_keeps | apply State.putN_keeps | split

theorem cancelRest_keeps {s0 s : State} (core : Nat) (p : RestEntry → Bool) (hs : Keeps s0 s) : Keeps s0 (cancelRest s core p) := by
  unfold cancelRest
  with_reducible repeat' first | assumption | apply State.onCore_keeps

theorem testGroups_keeps {s0 s : State} (w : Nat) (hs : Keeps s0 s) :
    Keeps s0 (testGroups s w) := by
  unfold testGroups
  with_reducible repeat' first
    | assumption | apply testScope_keeps

theorem logWin_keeps {s0 s : State} (cid arb core slot : Nat) (hs : Keeps s0 s) : Keeps s0 (logWin s cid arb core slot) := by
  unfold logWin
  with_reducible repeat' first | assumption | apply State.onCtx_keeps

theorem l1Load_keeps {s0 s : State} (core cid key n : Nat) (hs : Keeps s0 s) : Keeps s0 (l1Load s core cid key n).2 := by
  unfold l1Load
  with_reducible repeat' first
    | assumption | apply State.onCore_keeps | apply Keeps.foldl | split | (intro _; try dsimp only [id])

theorem agentRead_keeps {s0 s : State} (core cid scope : Nat) (hint : Hint) (key n : Nat) (hs : Keeps s0 s) :
    Keeps s0 (agentRead s core cid scope hint key n).2 := by
  unfold agentRead; (try dsimp only)
  with_reducible repeat' first
    | assumption | apply hint | apply State.take_keeps | apply l1Load_keeps | apply l1Room_keeps | apply l1Mark_keeps
    | apply goHome_keeps | refine Keeps.of_snd ?_ (by assumption) | split

theorem noteStore_keeps {s0 s : State} (t : TRef) (cid : Nat) (m : Mop) (data : Nat) (hs : Keeps s0 s) :
    Keeps s0 (noteStore s t cid m data) := by
  unfold noteStore
  with_reducible repeat' first
    | assumption | apply State.onThread_keeps | refine Keeps.of_snd ?_ (by assumption)
    | fail_if_no_progress (apply Keeps.upd) | split

theorem perform_keeps {s0 s : State} (t : Thread) (m : Mop) (hs : Keeps s0 s) : KeepsPerf s0 (perform s t m) := by
  unfold perform; (try dsimp only)
  with_reducible repeat' first
    | assumption | apply logWin_keeps | apply release_keeps | apply agentRead_keeps | apply State.onThread_keeps
    | apply acquire_keeps | apply agentWrite_keeps | apply noteStore_keeps | apply noteTail_keeps
    | apply KeepsPerf.mkDone | apply KeepsPerf.mkPoison | refine Keeps.of_snd ?_ (by assumption) | split

theorem performAll_keeps {s0 s : State} (ref : TRef) (ms : List Mop) (hs : Keeps s0 s) : Keeps s0 (performAll s ref ms) := by
  induction ms generalizing s with
  | nil => unfold performAll; assumption
  | cons m ms ih =>
    unfold performAll
    split
    · assumption
    · rename_i t _
      have h := perform_keeps t m hs
      apply ih
      split
      · exact h.done _ (by assumption)
      · exact h.poison _ _ _ (by assumption)

theorem exitHolds_keeps {s0 s : State} (t : Thread) (hold : List W64) (hs : Keeps s0 s) :
    Keeps s0 (exitHolds s t hold) := by
  unfold exitHolds; (try dsimp only)
  with_reducible repeat' first
    | assumption | apply hold | apply performAll_keeps | apply releaseHold_keeps | apply release_keeps
    | refine Keeps.of_snd ?_ (by assumption) | apply Keeps.foldl | split | (intro _; try dsimp only [id])

theorem exitEffects_keeps {s0 s : State} (t : Thread) (fault : Bool) (hs : Keeps s0 s) :
    Keeps s0 (exitEffects s t fault) := by
  unfold exitEffects; (try dsimp only)
  with_reducible repeat' first
    | assumption | apply State.onThread_keeps | apply exitGroups_keeps | apply State.onWl_keeps | apply wlDone_keeps
    | apply exitHolds_keeps | apply wlLeave_keeps | apply cancelRest_keeps | refine Keeps.of_snd ?_ (by assumption)
    | fail_if_no_progress (apply Keeps.upd) | apply Keeps.foldl | split | (intro _; try dsimp only [id])

theorem exitThread_keeps {s0 s : State} (t : Thread) (fault : Bool) (hs : Keeps s0 s) : Keeps s0 (exitThread s t fault) := by
  unfold exitThread
  with_reducible repeat' first
    | assumption | apply testGroups_keeps | apply exitEffects_keeps | refine Keeps.of_snd ?_ (by assumption) | split

theorem poisonWaiters_keeps {s0 s : State} (key : Nat) (hs : Keeps s0 s) :
    Keeps s0 (poisonWaiters s key) := by
  unfold poisonWaiters
  with_reducible repeat' first
    | assumption | apply resolve_keeps | apply askTrap_keeps | refine Keeps.of_snd ?_ (by assumption) | apply Keeps.foldl
    | split | (intro _; try dsimp only [id])

theorem poisonBars_keeps {s0 s : State} (w : Wg) (raws : List (List Byte)) (hs : Keeps s0 s) : Keeps s0 (poisonBars s w raws) := by
  unfold poisonBars; (try dsimp only)
  with_reducible repeat' first
    | assumption | apply poisonWaiters_keeps | apply State.putN_keeps | refine Keeps.of_snd ?_ (by assumption)
    | apply Keeps.foldl | split | (intro _; try dsimp only [id])

theorem stopCopy_keeps {s0 s : State} (w : Wg) (hs : Keeps s0 s) : Keeps s0 (stopCopy s w) := by
  unfold stopCopy
  with_reducible repeat' first | assumption | apply poisonBars_keeps | apply State.onWg_keeps

theorem terminate_keeps {s0 s : State} (w : Wg) (r : Report) (hs : Keeps s0 s) : Keeps s0 (terminate s w r) := by
  unfold terminate; (try dsimp only)
  with_reducible repeat' first
    | assumption | apply State.onWg_keeps | apply testGroups_keeps | apply exitEffects_keeps | apply cancelRest_keeps
    | apply State.onCore_keeps | apply stopCopy_keeps | apply postEntry_keeps | refine Keeps.of_snd ?_ (by assumption)
    | fail_if_no_progress (apply Keeps.upd) | apply Keeps.foldl | split | (intro _; try dsimp only [id])

theorem takeTrap_keeps {s0 s : State} (ref : TRef) (cause : BitVec 9) (tpc taddr tinfo : W64) (hs : Keeps s0 s) :
    Keeps s0 (takeTrap s ref cause tpc taddr tinfo) := by
  unfold takeTrap; (try dsimp only)
  with_reducible repeat' first
    | assumption | apply State.onThread_keeps | apply restorationFault_keeps | apply curatorTrap_keeps | apply terminate_keeps | split

theorem trap_keeps {s0 s : State} (cause : BitVec 9) (taddr tinfo : W64) (hs : Keeps s0 s) :
    KeepsOut s0 (trap s cause taddr tinfo) := by
  unfold trap
  with_reducible repeat' first | assumption | apply takeTrap_keeps | apply KeepsOut.next

theorem outside_keeps {s0 s : State} (k : Out) (hs : Keeps s0 s) (hk : KeepsOut s0 k) : KeepsOut s0 (outside s k) := by
  unfold outside
  with_reducible repeat' first | assumption | apply hk | apply trap_keeps | split

theorem State.onCur_keeps {s0 s : State} (f : Thread → Thread) (hs : Keeps s0 s) : Keeps s0 (State.onCur s f) := by
  unfold State.onCur
  with_reducible repeat' first | assumption | fail_if_no_progress (apply Keeps.upd)

theorem waitAt_keeps {s0 s : State} (w : Wait) (hs : Keeps s0 s) : KeepsOut s0 (waitAt s w) := by
  unfold waitAt
  with_reducible repeat' first | assumption | apply State.onCur_keeps | apply KeepsOut.next

theorem settled_keeps {s0 s : State} (k : Out) (hs : Keeps s0 s) (hk : KeepsOut s0 k) : KeepsOut s0 (settled s k) := by
  unfold settled
  with_reducible repeat' first | assumption | apply hk | apply waitAt_keeps | split

theorem pageRequest_keeps {s0 s : State} (cid va kind : Nat) (who : PWho) (hs : Keeps s0 s) :
    Keeps s0 (pageRequest s cid va kind who).2 := by
  unfold pageRequest
  with_reducible repeat' first | assumption | apply State.onCtx_keeps | fail_if_no_progress (apply Keeps.upd) | split

theorem withPlace_keeps {s0 s : State} (va : W64) (n kind : Nat) (k : Nat → State → Out) (hs : Keeps s0 s) (hk : ∀ a s, Keeps s0 s → KeepsOut s0 (k a s)) :
    KeepsOut s0 (withPlace s va n kind k) := by
  unfold withPlace; (try dsimp only)
  with_reducible repeat' first
    | assumption | apply hk | apply resolve_keeps | apply trap_keeps | apply waitAt_keeps | apply pageRequest_keeps
    | exact KeepsOut.fault _ | split

theorem sideOn_keeps {s0 s : State} (hs : Keeps s0 s) : Keeps s0 (sideOn s) := by
  unfold sideOn
  with_reducible repeat' first | assumption | apply State.onWg_keeps | split

theorem noteSide_keeps {s0 s : State} (a : MReq) (key : Nat) (hs : Keeps s0 s) : Keeps s0 (noteSide s a key) := by
  unfold noteSide
  with_reducible repeat' first | assumption | apply sideOn_keeps | split

theorem issue_keeps {s0 s : State} (a : MReq) (k : State → State) (hs : Keeps s0 s) (hk : ∀ s, Keeps s0 s → Keeps s0 (k s)) :
    KeepsOut s0 (issue s a k) := by
  unfold issue
  with_reducible repeat' first
    | assumption | apply hk | apply trap_keeps | apply withPlace_keeps | apply waitAt_keeps | apply noteSide_keeps
    | apply State.onCur_keeps | apply KeepsOut.next | split | (intro _; try dsimp only [id])

theorem atomAccess_keeps {s0 s : State} (g : Guard) (op : AtomOp) (t : AtomT) (m : MemArg) (oa : OrdArg) (n : Nat) (cmp : W64) (hs : Keeps s0 s) :
    KeepsOut s0 (atomAccess g op t m oa n cmp s) := by
  unfold atomAccess
  with_reducible repeat' first
    | assumption | apply guarded_keeps | apply outside_keeps | apply settled_keeps | apply issue_keeps | apply State.adv_keeps
    | (intro _; try dsimp only [id])

theorem laneWrite_keeps {s0 s : State} (g : Guard) (d : Dst8) (n : Nat) (w : W32) (hs : Keeps s0 s) :
    KeepsOut s0 (laneWrite g d n w s) := by
  unfold laneWrite
  with_reducible repeat' first | assumption | apply guarded_keeps | apply State.onRegs_keeps | apply KeepsOut.next

theorem laneBin_keeps {s0 s : State} (f : W32 → W32 → W32) (g : Guard) (d : Dst8) (a : Src8) (b : Src5) (hs : Keeps s0 s) :
    KeepsOut s0 (laneBin f g d a b s) := by
  unfold laneBin
  with_reducible repeat' first | assumption | apply laneWrite_keeps

theorem groupFl_keeps {s0 s : State} (g : Guard) (d : XReg) (n : Nat) (w : Nat × Fl) (hs : Keeps s0 s) :
    KeepsOut s0 (groupFl g d n w s) := by
  unfold groupFl
  with_reducible repeat' first | assumption | apply guarded_keeps | apply State.onRegs_keeps | apply KeepsOut.next

theorem groupUnFl_keeps {s0 s : State} (f : Nat → Nat × Fl) (g : Guard) (d a : XReg) (hs : Keeps s0 s) :
    KeepsOut s0 (groupUnFl f g d a s) := by
  unfold groupUnFl
  with_reducible repeat' first | assumption | apply groupFl_keeps

theorem illegal8_keeps {s0 s : State} (hs : Keeps s0 s) : KeepsOut s0 (illegal8 s) := by
  unfold illegal8
  with_reducible repeat' first | assumption | apply trap_keeps

theorem due_keeps {s0 s : State} (b : Bool) (k : Out) (hs : Keeps s0 s) (hk : KeepsOut s0 k) : KeepsOut s0 (due b s k) := by
  unfold due
  with_reducible repeat' first | assumption | apply hk | apply KeepsOut.next | split

theorem setCtxState_keeps {s0 s : State} (cid : Nat) (st : CState) (hs : Keeps s0 s) : Keeps s0 (setCtxState s cid st) := by
  unfold setCtxState; (try dsimp only)
  with_reducible repeat' first | assumption | apply State.onCtx_keeps | apply State.put_keeps | split

theorem diverge_keeps {s0 s : State} (cid case core wgid : Nat) (hs : Keeps s0 s) : Keeps s0 (diverge s cid case core wgid) := by
  unfold diverge
  with_reducible repeat' first
    | assumption | apply State.onCtx_keeps | apply postEvent_keeps | apply setCtxState_keeps | fail_if_no_progress (apply Keeps.upd)

theorem dropWg_keeps {s0 s : State} (w : Wg) (hs : Keeps s0 s) : Keeps s0 (dropWg s w) := by
  unfold dropWg
  with_reducible repeat' first
    | assumption | apply dropThread_keeps | apply State.onCore_keeps | fail_if_no_progress (apply Keeps.upd) | apply Keeps.foldl
    | (intro _; try dsimp only [id])

theorem dropGang_keeps {s0 s : State} (g : Gang) (hs : Keeps s0 s) : Keeps s0 (dropGang s g) := by
  unfold dropGang
  with_reducible repeat' first
    | assumption | apply dropWg_keeps | fail_if_no_progress (apply Keeps.upd) | apply Keeps.foldl

theorem replayEnd_keeps {s0 s : State} (cid seq : Nat) (hs : Keeps s0 s) : Keeps s0 (replayEnd s cid seq) := by
  unfold replayEnd
  with_reducible repeat' first
    | assumption | apply dropGang_keeps | apply State.onCtx_keeps | apply setCtxState_keeps | apply postEvent_keeps
    | fail_if_no_progress (apply Keeps.upd) | apply Keeps.foldl

theorem resetHashes_keeps {s0 s : State} (cid : Nat) (hs : Keeps s0 s) : Keeps s0 (resetHashes s cid) := by
  unfold resetHashes
  with_reducible repeat' first | assumption | apply State.onCtx_keeps | apply State.onAll_keeps

theorem closeInterval_keeps {s0 s : State} (c : Ctx) (h : Checkpoint) (rest : List Checkpoint) (hs : Keeps s0 s) :
    Keeps s0 (closeInterval s c h rest) := by
  unfold closeInterval
  with_reducible repeat' first
    | assumption | apply diverge_keeps | apply replayEnd_keeps | apply resetHashes_keeps | apply State.onCtx_keeps | split

theorem abandonRests_keeps {s0 s : State} (g : Gang) (hs : Keeps s0 s) : Keeps s0 (abandonRests s g) := by
  unfold abandonRests
  with_reducible repeat' first
    | assumption | apply State.onCore_keeps | apply dropThread_keeps | apply Keeps.foldl | split | (intro _; try dsimp only [id])

theorem ingressPut_keeps {s0 s : State} (key : Nat) (bs : List Byte) (hs : Keeps s0 s) : Keeps s0 (ingressPut s key bs) := by
  unfold ingressPut
  with_reducible repeat' first | assumption | apply State.put_keeps

theorem gateTake_keeps {s0 s : State} (cid arb core slot code : Nat) (hs : Keeps s0 s) :
    KeepsOpt Prod.fst s0 (gateTake s cid arb core slot code) := by
  unfold gateTake
  with_reducible repeat' first
    | assumption | apply State.onCtx_keeps | apply KeepsOpt.some | exact KeepsOpt.none | split

theorem ingressNext_keeps {s0 s : State} (c : Ctx) (hs : Keeps s0 s) : KeepsOpt id s0 (ingressNext s c) := by
  unfold ingressNext
  with_reducible repeat' first
    | assumption | apply State.onCtx_keeps | apply ingressPut_keeps | apply gateTake_keeps | exact KeepsOpt.none | apply KeepsOpt.map
    | apply KeepsOpt.findSome | split | (intro _; try dsimp only [id])

theorem laneFl_keeps {s0 s : State} (g : Guard) (d : Dst8) (n : Nat) (w : Nat × Fl) (hs : Keeps s0 s) :
    KeepsOut s0 (laneFl g d n w s) := by
  unfold laneFl
  with_reducible repeat' first | assumption | apply guarded_keeps | apply State.onRegs_keeps | apply KeepsOut.next

theorem laneUnFl_keeps {s0 s : State} (f : Nat → Nat × Fl) (g : Guard) (d : Dst8) (a : Src8) (hs : Keeps s0 s) :
    KeepsOut s0 (laneUnFl f g d a s) := by
  unfold laneUnFl
  with_reducible repeat' first | assumption | apply laneFl_keeps

theorem charge_keeps {s0 s : State} (cid n : Nat) (hs : Keeps s0 s) : Keeps s0 (charge s cid n) := by
  unfold charge
  with_reducible repeat' first | assumption | apply State.onCtx_keeps

theorem laneBinFl_keeps {s0 s : State} (f : Nat → Nat → Nat × Fl) (g : Guard) (d : Dst8) (a : Src8) (b : Src5) (hs : Keeps s0 s) :
    KeepsOut s0 (laneBinFl f g d a b s) := by
  unfold laneBinFl
  with_reducible repeat' first | assumption | apply laneFl_keeps

theorem lmAccess_keeps {s0 s : State} (g : Guard) (n : Nat) (m : MemArg) (size : Nat) (mk : W64 → MReq) (hs : Keeps s0 s) :
    KeepsOut s0 (lmAccess g n m size mk s) := by
  unfold lmAccess
  with_reducible repeat' first
    | assumption | apply guarded_keeps | apply issue_keeps | apply State.adv_keeps | (intro _; try dsimp only [id])

theorem plainStore_keeps {s0 s : State} (g : Guard) (data : BitVec 128) (l size : Nat) (m : MemArg) (hs : Keeps s0 s) :
    KeepsOut s0 (plainStore g data l size m s) := by
  unfold plainStore
  with_reducible repeat' first | assumption | apply guarded_keeps | apply outside_keeps | apply lmAccess_keeps

theorem readPiece_keeps {s0 s : State} (w : Option Wg) (core cid : Nat) (ms : List Mop) (kind va n : Nat) (hs : Keeps s0 s) :
    Keeps s0 (readPiece s w core cid ms kind va n).2 := by
  unfold readPiece; (try dsimp only)
  with_reducible repeat' first
    | assumption | apply resolve_keeps | apply agentRead_keeps | refine Keeps.of_snd ?_ (by assumption) | split

theorem tableRead_keeps {s0 s : State} (pa n : Nat) (k : List Byte → State → Out) (hs : Keeps s0 s) (hk : ∀ a s, Keeps s0 s → KeepsOut s0 (k a s)) :
    KeepsOut s0 (tableRead s pa n k) := by
  unfold tableRead
  with_reducible repeat' first | assumption | apply hk | apply State.take_keeps | exact KeepsOut.fault _ | split

theorem drained_keeps {s0 s : State} (k : Out) (hs : Keeps s0 s) (hk : KeepsOut s0 k) : KeepsOut s0 (drained s k) := by
  unfold drained
  with_reducible repeat' first | assumption | apply hk | apply waitAt_keeps | split

theorem collGo_keeps {s0 s : State} (c : Ctx) (cop g b : Nat) (ty : DType) (op : ROp) (send recv : Nat × Nat) (xc : XReg) (hs : Keeps s0 s) :
    Keeps s0 (collGo s c cop g b ty op send recv xc) := by
  unfold collGo
  with_reducible repeat' first
    | assumption | apply release_keeps | apply sideOn_keeps | apply State.onCtx_keeps | apply State.onRegs_keeps

theorem coll_keeps {s0 s : State} (cop : Nat) (g : Guard) (xa xb xc : XReg) (send recv : BitVec 8) (ty : DType) (op : ROp) (hs : Keeps s0 s) :
    KeepsOut s0 (coll cop g xa xb xc send recv ty op s) := by
  unfold coll; (try dsimp only)
  with_reducible repeat' first
    | assumption | apply guarded_keeps | apply outside_keeps | apply settled_keeps | apply illegal8_keeps | apply tableRead_keeps
    | apply waitAt_keeps | apply drained_keeps | apply collGo_keeps | apply KeepsOut.next | split | (intro _; try dsimp only [id])

theorem restoreMember_keeps {s0 s : State} (v : Saved) (la : Launch) (first : Nat) (moved : List (Wg × Nat × Nat)) (x : (Wg × List Byte) × (List Nat × Nat)) (hs : Keeps s0 s) :
    Keeps s0 (restoreMember v la first moved s x) := by
  unfold restoreMember; (try dsimp only)
  with_reducible repeat' first
    | assumption | apply State.onCore_keeps | apply acquire_keeps | apply Keeps.restore

theorem matrixFault_keeps {s0 s : State} (w : Wg) (cause : BitVec 9) (va info : W64) (hs : Keeps s0 s) :
    Keeps s0 (matrixFault s w cause va info) := by
  unfold matrixFault
  with_reducible repeat' first | assumption | apply terminate_keeps

theorem spillFault_keeps {s0 s : State} (w : Wg) (l : LRec) (r : VXReg) (cause : BitVec 9) (info : W64) (hs : Keeps s0 s) :
    Keeps s0 (spillFault s w l r cause info) := by
  unfold spillFault
  with_reducible repeat' first | assumption | apply terminate_keeps

theorem notePops_keeps {s0 s : State} (cid : Nat) (wl : Fin 4) (a : Option (BitVec 9 × W64)) (hs : Keeps s0 s) :
    Keeps s0 (notePops s cid wl a) := by
  unfold notePops; (try dsimp only)
  with_reducible repeat' first
    | assumption | apply State.onCtx_keeps

theorem chunkFault_keeps {s0 s : State} (cid : Nat) (wl : Fin 4) (n : Nat) (cause : BitVec 9) (hs : Keeps s0 s) :
    Keeps s0 (chunkFault s cid wl n cause) := by
  unfold chunkFault; (try dsimp only)
  with_reducible repeat' first
    | assumption | apply State.onWl_keeps | apply postEvent_keeps | apply notePops_keeps | apply askTrap_keeps
    | apply State.onAll_keeps | apply State.onCtx_keeps | refine Keeps.of_snd ?_ (by assumption)
    | fail_if_no_progress (apply Keeps.upd) | apply Keeps.foldl | split | (intro _; try dsimp only [id])

theorem rejectOne_keeps {s0 s : State} (cid va kind : Nat) (who : PWho) (hs : Keeps s0 s) : Keeps s0 (rejectOne s cid va kind who) := by
  unfold rejectOne
  with_reducible repeat' first
    | assumption | apply State.onThread_keeps | apply matrixFault_keeps | apply spillFault_keeps | apply chunkFault_keeps | split

theorem chargeMove_keeps {s0 s : State} (who : Option Nat) (bytes : Nat) (hs : Keeps s0 s) :
    Keeps s0 (chargeMove s who bytes) := by
  unfold chargeMove
  with_reducible repeat' first
    | assumption | apply charge_keeps | refine Keeps.of_snd ?_ (by assumption) | split

theorem popStatus_keeps {s0 s : State} (t : Thread) (xa : XReg) (ps : PReg) (n st : Nat) (hs : Keeps s0 s) :
    Keeps s0 (popStatus s t xa ps n st) := by
  unfold popStatus
  with_reducible repeat' first | assumption | apply State.onThread_keeps

theorem popEnded_keeps {s0 s : State} (t : Thread) (wl : Fin 4) (xa : XReg) (ps : PReg) (n : Nat) (hs : Keeps s0 s) :
    Keeps s0 (popEnded s t wl xa ps n) := by
  unfold popEnded
  with_reducible repeat' first | assumption | apply popStatus_keeps | apply acquire_keeps

theorem givePop_keeps {s0 s : State} (p : TRef × Option (BitVec 9 × W64)) (hs : Keeps s0 s) :
    Keeps s0 (givePop s p) := by
  unfold givePop
  with_reducible repeat' first
    | assumption | apply popEnded_keeps | apply askTrap_keeps | refine Keeps.of_snd ?_ (by assumption) | split

theorem restoreGang_keeps {s0 s : State} (cid die cluster : Nat) (v : Saved) (la : Launch) (places : List (List Nat × Nat)) (hs : Keeps s0 s) :
    Keeps s0 (restoreGang s cid die cluster v la places) := by
  unfold restoreGang; (try dsimp only)
  with_reducible repeat' first
    | assumption | apply restoreMember_keeps | apply chargeMove_keeps | apply State.onCtx_keeps | apply givePop_keeps
    | apply rejectOne_keeps | refine Keeps.of_snd ?_ (by assumption) | fail_if_no_progress (apply Keeps.upd)
    | apply Keeps.foldl | (intro _; try dsimp only [id])

theorem trapOf_keeps {s0 s : State} (e : TrapInfo) (hs : Keeps s0 s) : KeepsOut s0 (trapOf s e) := by
  unfold trapOf
  with_reducible repeat' first | assumption | apply trap_keeps

theorem poisonAt_keeps {s0 s : State} (core cid key n : Nat) (hs : Keeps s0 s) : Keeps s0 (poisonAt s core cid key n) := by
  unfold poisonAt
  with_reducible repeat' first | assumption | apply State.onCore_keeps | fail_if_no_progress (apply Keeps.upd) | split

theorem writeBlock_keeps {s0 s : State} (cid region : Nat) (hs : Keeps s0 s) : Keeps s0 (writeBlock s cid region) := by
  unfold writeBlock
  with_reducible repeat' first | assumption | apply devPut_keeps | split

theorem switchLeave_keeps {s0 s : State} (cid : Nat) (hs : Keeps s0 s) : Keeps s0 (switchLeave s cid) := by
  unfold switchLeave
  with_reducible repeat' first
    | assumption | apply setCtxState_keeps | apply writeBlock_keeps | apply Keeps.foldl | split | (intro _; try dsimp only [id])

theorem memberFault_keeps {s0 s : State} (w : Wg) (cluster : Bool) (k : Fin 8) (kr : KReg) (reason : Nat) (hs : Keeps s0 s) :
    Keeps s0 (memberFault s w cluster k kr reason) := by
  unfold memberFault
  with_reducible repeat' first | assumption | apply failRound_keeps

theorem groupWrite_keeps {s0 s : State} (g : Guard) (d : XReg) (n : Nat) (w : W64) (hs : Keeps s0 s) :
    KeepsOut s0 (groupWrite g d n w s) := by
  unfold groupWrite
  with_reducible repeat' first | assumption | apply guarded_keeps | apply State.onRegs_keeps | apply KeepsOut.next

theorem groupUn_keeps {s0 s : State} (f : W64 → W64) (g : Guard) (d a : XReg) (hs : Keeps s0 s) : KeepsOut s0 (groupUn f g d a s) := by
  unfold groupUn
  with_reducible repeat' first | assumption | apply groupWrite_keeps

theorem readPieces_keeps {s0 z2 : State} (w : Option Wg) (core cid : Nat) (ms : List Mop) (kind : Nat) (z1 : List (Nat × Nat)) (z3 : List (List Byte)) (hz2 : Keeps s0 z2) :
    Keeps s0 (readPieces w core cid ms kind z1 z2 z3).2 := by
  induction z1 generalizing z2 z3 with
  | nil => unfold readPieces; assumption
  | cons p ps ih =>
    unfold readPieces
    with_reducible repeat' first
      | assumption | apply ih | apply readPiece_keeps | refine Keeps.of_snd ?_ (by assumption) | split

theorem engineRead_keeps {s0 s : State} (w : Option Wg) (core cid : Nat) (ms : List Mop) (va n kind : Nat) (hs : Keeps s0 s) :
    Keeps s0 (engineRead s w core cid ms va n kind).2 := by
  unfold engineRead
  with_reducible repeat' first | assumption | apply readPieces_keeps

theorem takeUp_keeps {s0 s : State} (cid region ctrs st : Nat) (hs : Keeps s0 s) : Keeps s0 (takeUp s cid region ctrs st) := by
  unfold takeUp
  with_reducible repeat' first | assumption | apply State.onCtx_keeps | split

theorem loadTrap_keeps {s0 s : State} (r : LoadRes) (hs : Keeps s0 s) : KeepsOut s0 (loadTrap s r) := by
  unfold loadTrap
  with_reducible repeat' first
    | assumption | apply illegal8_keeps | apply trap_keeps | apply pageRequest_keeps | apply waitAt_keeps | apply KeepsOut.next
    | exact KeepsOut.fault _ | split

theorem onAgg_keeps {s0 s : State} (cid region : Nat) (f : Agg → Agg) (hs : Keeps s0 s) : Keeps s0 (onAgg s cid region f) := by
  unfold onAgg
  with_reducible repeat' first | assumption | apply State.onCtx_keeps

theorem bump_keeps {s0 s : State} (cid region : Nat) (i : Fin 8) (hs : Keeps s0 s) : Keeps s0 (bump s cid region i) := by
  unfold bump
  with_reducible repeat' first | assumption | apply onAgg_keeps

theorem writeRegionState_keeps {s0 s : State} (cid region st : Nat) (hs : Keeps s0 s) :
    Keeps s0 (writeRegionState s cid region st) := by
  unfold writeRegionState
  with_reducible repeat' first | assumption | apply devPut_keeps | split

theorem broadcast_keeps {s0 s : State} (cid region : Nat) (disable : Bool) (hs : Keeps s0 s) :
    Keeps s0 (broadcast s cid region disable) := by
  unfold broadcast
  with_reducible repeat' first | assumption | fail_if_no_progress (apply Keeps.upd)

theorem disableRegion_keeps {s0 s : State} (cid region : Nat) (hs : Keeps s0 s) : Keeps s0 (disableRegion s cid region) := by
  unfold disableRegion
  with_reducible repeat' first
    | assumption | apply onAgg_keeps | apply writeRegionState_keeps | apply writeBlock_keeps | apply postEvent_keeps
    | apply broadcast_keeps

theorem countViolation_keeps {s0 s : State} (cid region : Nat) (hs : Keeps s0 s) :
    Keeps s0 (countViolation s cid region) := by
  unfold countViolation; (try dsimp only)
  with_reducible repeat' first
    | assumption | apply bump_keeps | apply disableRegion_keeps | refine Keeps.of_snd ?_ (by assumption) | split

theorem sendCounts_keeps {s0 s : State} (core cid region : Nat) (hs : Keeps s0 s) :
    Keeps s0 (sendCounts s core cid region) := by
  unfold sendCounts; (try dsimp only)
  with_reducible repeat' first
    | assumption | apply countViolation_keeps | refine Keeps.of_snd ?_ (by assumption)
    | fail_if_no_progress (apply Keeps.upd) | apply Keeps.foldl | (intro _; try dsimp only [id])

theorem rctr_keeps {s0 s : State} (n idx : Nat) (k : W64 → State → Out) (hs : Keeps s0 s) (hk : ∀ a s, Keeps s0 s → KeepsOut s0 (k a s)) :
    KeepsOut s0 (rctr s n idx k) := by
  unfold rctr; (try dsimp only)
  with_reducible repeat' first
    | assumption | apply hk | apply sendCounts_keeps | apply illegal8_keeps | apply engineRead_keeps | apply takeUp_keeps
    | apply loadTrap_keeps | apply KeepsOut.next | refine Keeps.of_snd ?_ (by assumption) | split

theorem laneUn_keeps {s0 s : State} (f : W32 → W32) (g : Guard) (d : Dst8) (a : Src8) (hs : Keeps s0 s) :
    KeepsOut s0 (laneUn f g d a s) := by
  unfold laneUn
  with_reducible repeat' first | assumption | apply laneWrite_keeps

theorem predWrite_keeps {s0 s : State} (g : Guard) (pd : PReg) (n : Nat) (b : Bool) (f : Fl) (hs : Keeps s0 s) :
    KeepsOut s0 (predWrite g pd n b f s) := by
  unfold predWrite
  with_reducible repeat' first | assumption | apply guarded_keeps | apply State.onRegs_keeps | apply KeepsOut.next

theorem orTrap_keeps {s0 s : State} {α : Type} (x : Except TrapInfo α) (k : α → Out) (hs : Keeps s0 s) (hk : ∀ a, KeepsOut s0 (k a)) :
    KeepsOut s0 (orTrap s x k) := by
  unfold orTrap
  with_reducible repeat' first | assumption | apply hk | apply trapOf_keeps | split

theorem withFrame_keeps {s0 s : State} (h : W64) (kind : Nat) (k : Nat × Hdr → Out) (hs : Keeps s0 s) (hk : ∀ a, KeepsOut s0 (k a)) :
    KeepsOut s0 (withFrame s h kind k) := by
  unfold withFrame
  with_reducible repeat' first
    | assumption | apply hk | apply waitAt_keeps | apply orTrap_keeps | apply KeepsOut.next
    | refine Keeps.of_snd ?_ (by assumption) | split

theorem slotAccess_keeps {s0 s : State} (g : Guard) (n : Nat) (dep : Fin 8) (slot : Fin 1024) (kind : MopKind) (mk : MReq → MReq) (hs : Keeps s0 s) :
    KeepsOut s0 (slotAccess g n dep slot kind mk s) := by
  unfold slotAccess; (try dsimp only)
  with_reducible repeat' first
    | assumption | apply guarded_keeps | apply outside_keeps | apply withFrame_keeps | apply trap_keeps
    | apply issue_keeps | apply State.adv_keeps | apply KeepsOut.next | refine Keeps.of_snd ?_ (by assumption)
    | fail_if_no_progress (apply Keeps.upd) | split | (intro _; try dsimp only [id])

theorem plainLoad_keeps {s0 s : State} (g : Guard) (dst : LdDst) (lrw : Bool) (size : Nat) (m : MemArg) (hs : Keeps s0 s) :
    KeepsOut s0 (plainLoad g dst lrw size m s) := by
  unfold plainLoad
  with_reducible repeat' first | assumption | apply lmAccess_keeps

theorem groupBin_keeps {s0 s : State} (f : W64 → W64 → W64) (g : Guard) (d a : XReg) (b : SrcB9) (hs : Keeps s0 s) :
    KeepsOut s0 (groupBin f g d a b s) := by
  unfold groupBin
  with_reducible repeat' first | assumption | apply groupWrite_keeps

theorem groupBinFl_keeps {s0 s : State} (f : Nat → Nat → Nat × Fl) (g : Guard) (d a : XReg) (b : SrcB9) (hs : Keeps s0 s) :
    KeepsOut s0 (groupBinFl f g d a b s) := by
  unfold groupBinFl
  with_reducible repeat' first | assumption | apply groupFl_keeps

theorem pushMop_keeps {s0 s : State} (va : W64) (key size : Nat) (data : BitVec 128) (hs : Keeps s0 s) :
    Keeps s0 (pushMop s va key size data) := by
  unfold pushMop
  with_reducible repeat' first | assumption | apply State.onCur_keeps

theorem pushThen_keeps {s0 s : State} (v : W64) (k : State → Out) (hs : Keeps s0 s) (hk : ∀ s, Keeps s0 s → KeepsOut s0 (k s)) :
    KeepsOut s0 (pushThen s v k) := by
  unfold pushThen
  with_reducible repeat' first
    | assumption | apply hk | apply orTrap_keeps | apply State.onRegs_keeps | apply pushMop_keeps | (intro _; try dsimp only [id])

theorem popAt_keeps {s0 s : State} (va : W64) (k : W64 → State → Out) (hs : Keeps s0 s) (hk : ∀ a s, Keeps s0 s → KeepsOut s0 (k a s)) :
    KeepsOut s0 (popAt s va k) := by
  unfold popAt; (try dsimp only)
  with_reducible repeat' first
    | assumption | apply hk | apply trapOf_keeps | apply withPlace_keeps | apply waitAt_keeps | apply agentRead_keeps
    | apply trap_keeps | apply State.onCur_keeps | apply KeepsOut.next | refine Keeps.of_snd ?_ (by assumption) | split
    | (intro _; try dsimp only [id])

theorem popThen_keeps {s0 s : State} (k : W64 → State → Out) (hs : Keeps s0 s) (hk : ∀ a s, Keeps s0 s → KeepsOut s0 (k a s)) :
    KeepsOut s0 (popThen s k) := by
  unfold popThen
  with_reducible repeat' first
    | assumption | apply hk | apply popAt_keeps | apply State.onRegs_keeps | apply KeepsOut.next
    | refine Keeps.of_snd ?_ (by assumption) | fail_if_no_progress (apply Keeps.upd) | (intro _; try dsimp only [id])

theorem logValue_keeps {s0 s : State} (cid arb core slot code val : Nat) (hs : Keeps s0 s) :
    Keeps s0 (logValue s cid arb core slot code val) := by
  unfold logValue
  with_reducible repeat' first | assumption | apply State.onCtx_keeps

theorem readTick_keeps {s0 s : State} (d : XReg) (hs : Keeps s0 s) : KeepsOut s0 (readTick s d) := by
  unfold readTick; (try dsimp only)
  with_reducible repeat' first
    | assumption | apply gateTake_keeps | apply waitAt_keeps | apply logValue_keeps | apply State.onRegs_keeps | apply KeepsOut.next
    | refine Keeps.of_fst ?_ (by assumption) | split

theorem orderPoint_keeps {s0 s : State} (arb : Nat) (k : State → Out) (hs : Keeps s0 s) (hk : ∀ s, Keeps s0 s → KeepsOut s0 (k s)) :
    KeepsOut s0 (orderPoint s arb k) := by
  unfold orderPoint
  with_reducible repeat' first
    | assumption | apply hk | apply gateTake_keeps | apply logWin_keeps | apply waitAt_keeps | refine Keeps.of_fst ?_ (by assumption)
    | split

theorem atScope2_keeps {s0 s : State} (scope : Nat) (k : State → Out) (hs : Keeps s0 s) (hk : ∀ s, Keeps s0 s → KeepsOut s0 (k s)) :
    KeepsOut s0 (atScope2 s scope k) := by
  unfold atScope2
  with_reducible repeat' first | assumption | apply hk | apply orderPoint_keeps | split

theorem arrive_keeps {s0 s : State} (cluster : Bool) (id : Fin 16) (c : Nat) (hs : Keeps s0 s) :
    KeepsOut s0 (arrive s cluster id c) := by
  unfold arrive; (try dsimp only)
  with_reducible repeat' first
    | assumption | apply illegal8_keeps | apply setBar_keeps | apply askTrap_keeps | apply State.onThread_keeps | apply trap_keeps
    | apply orderPoint_keeps | apply release_keeps | apply State.onCur_keeps | apply testBar_keeps | apply KeepsOut.next
    | apply Keeps.foldl | split | (intro _; try dsimp only [id])

theorem kset_keeps {s0 s : State} (g : Guard) (k : Fin 8) (cluster maskMode : Bool) (a : XReg) (hs : Keeps s0 s) :
    KeepsOut s0 (kset g k cluster maskMode a s) := by
  unfold kset; (try dsimp only)
  with_reducible repeat' first
    | assumption | apply guarded_keeps | apply illegal8_keeps | apply settled_keeps | apply State.adv_keeps | apply trap_keeps
    | apply memberFault_keeps | apply setK_keeps | apply KeepsOut.next | split

theorem signRound_keeps {s0 s : State} (cluster : Bool) (k : Fin 8) (g : Signing) (hs : Keeps s0 s) :
    KeepsOut s0 (signRound s cluster k g) := by
  unfold signRound; (try dsimp only)
  with_reducible repeat' first
    | assumption | apply illegal8_keeps | apply trap_keeps | apply memberFault_keeps | apply orderPoint_keeps | apply release_keeps
    | apply setK_keeps | apply State.onCur_keeps | apply testRound_keeps | apply KeepsOut.next | split | (intro _; try dsimp only [id])

theorem signExplicit_keeps {s0 s : State} (g : Guard) (n : Nat) (cluster : Bool) (k : Fin 8) (x : Signing) (hs : Keeps s0 s) :
    KeepsOut s0 (signExplicit g n cluster k x s) := by
  unfold signExplicit
  with_reducible repeat' first
    | assumption | apply guarded_keeps | apply illegal8_keeps | apply settled_keeps | apply drained_keeps | apply signRound_keeps
    | split

theorem kxch_keeps {s0 s : State} (pos : Bool) (words : List Nat) (g : Guard) (k : Fin 8) (cluster : Bool) (d : Dst8) (a i : Src8) (hs : Keeps s0 s) :
    KeepsOut s0 (kxch pos words g k cluster d a i s) := by
  unfold kxch
  with_reducible repeat' first | assumption | apply signExplicit_keeps

theorem kred_keeps {s0 s : State} (op : Nat) (words : List Nat) (g : Guard) (k : Fin 8) (cluster : Bool) (d : Dst8) (a : Src8) (hs : Keeps s0 s) :
    KeepsOut s0 (kred op words g k cluster d a s) := by
  unfold kred
  with_reducible repeat' first | assumption | apply signExplicit_keeps

theorem onMatrix_keeps {s0 s : State} (g : Guard) (n : Nat) (k : Wg → Out) (hs : Keeps s0 s) (hk : ∀ a, KeepsOut s0 (k a)) :
    KeepsOut s0 (onMatrix g n s k) := by
  unfold onMatrix
  with_reducible repeat' first
    | assumption | apply hk | apply guarded_keeps | apply outside_keeps | apply settled_keeps | apply illegal8_keeps | split

theorem unlessTrap_keeps {s0 s : State} (x : Option TrapInfo) (k : Out) (hs : Keeps s0 s) (hk : KeepsOut s0 k) :
    KeepsOut s0 (unlessTrap s x k) := by
  unfold unlessTrap
  with_reducible repeat' first | assumption | apply hk | apply trapOf_keeps | split

theorem onBar_keeps {s0 s : State} (g : Guard) (addr : W64) (kind : Nat) (k : Nat → Nat → TBar → Out) (hs : Keeps s0 s) (hk : ∀ a b c, KeepsOut s0 (k a b c)) :
    KeepsOut s0 (onBar g addr kind s k) := by
  unfold onBar
  with_reducible repeat' first
    | assumption | apply hk | apply guarded_keeps | apply outside_keeps | apply settled_keeps | apply orTrap_keeps
    | apply waitAt_keeps | apply KeepsOut.next | refine Keeps.of_snd ?_ (by assumption) | split
    | (intro _; try dsimp only [id])

theorem tbPoison_keeps {s0 s : State} (addr : W64) (hs : Keeps s0 s) : KeepsOut s0 (tbPoison s addr) := by
  unfold tbPoison
  with_reducible repeat' first | assumption | apply trap_keeps

theorem onList_keeps {s0 s : State} (g : Guard) (wl : Fin 4) (push : Bool) (k : Worklist → Out) (hs : Keeps s0 s) (hk : ∀ a, KeepsOut s0 (k a)) :
    KeepsOut s0 (onList g wl push s k) := by
  unfold onList
  with_reducible repeat' first
    | assumption | apply hk | apply guarded_keeps | apply outside_keeps | apply settled_keeps | apply illegal8_keeps
    | apply trap_keeps | split

theorem wlPlace_keeps {s0 s : State} (t : Thread) (wl : Fin 4) (rec : List W32) (entry : Option Nat) (hs : Keeps s0 s) :
    Keeps s0 (wlPlace s t wl rec entry) := by
  unfold wlPlace
  with_reducible repeat' first
    | assumption | apply release_keeps | apply State.onCore_keeps | apply State.onWl_keeps | apply State.onThread_keeps
    | apply logWin_keeps

theorem pushAtGate_keeps {s0 s : State} (t : Thread) (wl : Fin 4) (words : List W32) (entry : Option Nat) (hs : Keeps s0 s) :
    KeepsOpt id s0 (pushAtGate s t wl words entry) := by
  unfold pushAtGate
  with_reducible repeat' first
    | assumption | apply wlPlace_keeps | apply gateTake_keeps | apply KeepsOpt.map | (intro _; try dsimp only [id])

theorem popStart_keeps {s0 s : State} (wl : Fin 4) (hs : Keeps s0 s) : Keeps s0 (popStart s wl) := by
  unfold popStart
  with_reducible repeat' first | assumption | apply State.onWl_keeps | apply wlDone_keeps

theorem reachRec_keeps {s0 s : State} (cid core : Nat) (wl : Fin 4) (w : Worklist) (r : WRec) (hs : Keeps s0 s) :
    KeepsTake s0 (reachRec s cid core wl w r) := by
  unfold reachRec
  with_reducible repeat' first
    | assumption | apply pageRequest_keeps | apply chunkFault_keeps | exact KeepsTake.mkOk | apply KeepsTake.mkPage
    | apply KeepsTake.mkLost | split

theorem popFind_keeps {s0 s : State} (t : Thread) (wl : Fin 4) (w : Worklist) (hs : Keeps s0 s) : KeepsPop s0 (popFind s t wl w) := by
  unfold popFind; (try dsimp only)
  with_reducible repeat' first
    | assumption | apply gateTake_keeps | apply reachRec_keeps | exact KeepsPop.mkNone | exact KeepsPop.mkHold
    | apply KeepsPop.mkFound | fail_if_no_progress (apply Keeps.upd) | refine Keeps.of_fst ?_ (by assumption) | split

theorem takeRec_keeps {s0 s : State} (core cid : Nat) (wl : Fin 4) (r : WRec) (hs : Keeps s0 s) :
    Keeps s0 (takeRec s core cid wl r) := by
  unfold takeRec
  with_reducible repeat' first | assumption | apply State.onCore_keeps | apply State.onWl_keeps | split

theorem popGive_keeps {s0 s : State} (t : Thread) (wl : Fin 4) (xa : XReg) (ps : PReg) (v : VReg) (n : Nat) (r : WRec) (hs : Keeps s0 s) :
    Keeps s0 (popGive s t wl xa ps v n r) := by
  unfold popGive
  with_reducible repeat' first
    | assumption | apply takeRec_keeps | apply State.onWl_keeps | apply logValue_keeps | apply State.onWg_keeps | apply acquire_keeps
    | apply State.onThread_keeps | apply reachRec_keeps | refine KeepsPop.found ?_ _ _ (by assumption)
    | refine KeepsTake.page ?_ _ _ (by assumption) | refine KeepsTake.lost ?_ _ (by assumption) | split

theorem popRun_keeps {s0 s : State} (wl : Fin 4) (xa : XReg) (ps : PReg) (v : VReg) (park : State → State) (hs : Keeps s0 s) (hpark : ∀ s, Keeps s0 s → Keeps s0 (park s)) :
    KeepsOut s0 (popRun s wl xa ps v park) := by
  unfold popRun; (try dsimp only)
  with_reducible repeat' first
    | assumption | apply hpark | apply drained_keeps | apply popStart_keeps | apply popEnded_keeps | apply popFind_keeps
    | apply waitAt_keeps | apply popGive_keeps | apply reachRec_keeps | refine KeepsPop.found ?_ _ _ (by assumption)
    | refine KeepsTake.page ?_ _ _ (by assumption) | refine KeepsTake.lost ?_ _ (by assumption) | apply KeepsOut.next | split

theorem enterFrame_keeps {s0 s : State} (dep : Fin 8) (n : Nat) (hs : Keeps s0 s) : KeepsOut s0 (enterFrame s dep n) := by
  unfold enterFrame
  with_reducible repeat' first
    | assumption | apply orTrap_keeps | apply pushMop_keeps | apply State.onRegs_keeps | apply KeepsOut.next
    | (intro _; try dsimp only [id])

theorem leaveThread_keeps {s0 s : State} (dep : Fin 8) (key : Nat) (d : Hdr) (hs : Keeps s0 s) :
    KeepsOut s0 (leaveThread s dep key d) := by
  unfold leaveThread; (try dsimp only)
  with_reducible repeat' first
    | assumption | apply trap_keeps | apply popAt_keeps | apply pushMop_keeps | apply State.onRegs_keeps
    | apply State.adv_keeps | apply KeepsOut.next | refine Keeps.of_snd ?_ (by assumption)
    | fail_if_no_progress (apply Keeps.upd) | split | (intro _; try dsimp only [id])

theorem leaveShared_keeps {s0 s : State} (dep : Fin 8) (hs : Keeps s0 s) : KeepsOut s0 (leaveShared s dep) := by
  unfold leaveShared; (try dsimp only)
  with_reducible repeat' first
    | assumption | apply trap_keeps | apply popAt_keeps | apply drained_keeps | apply release_keeps
    | apply State.onCur_keeps | apply State.adv_keeps | apply releaseHold_keeps | apply KeepsOut.next
    | refine Keeps.of_snd ?_ (by assumption) | fail_if_no_progress (apply Keeps.upd) | split
    | (intro _; try dsimp only [id])

theorem setHeader_keeps {s0 s : State} (h : W64) (key : Nat) (d : Hdr) (hs : Keeps s0 s) : Keeps s0 (setHeader s h key d) := by
  unfold setHeader
  with_reducible repeat' first | assumption | apply pushMop_keeps | apply State.putN_keeps | split

theorem fetchRegion_keeps {s0 s : State} (t : Thread) (region : Nat) (no : RDesc → Bool) (hs : Keeps s0 s) :
    Keeps s0 (fetchRegion s t region no).2 := by
  unfold fetchRegion; (try dsimp only)
  with_reducible repeat' first | assumption | apply engineRead_keeps | refine Keeps.of_snd ?_ (by assumption) | split

theorem setCount_keeps {s0 s : State} (core cid region : Nat) (n : W32) (hs : Keeps s0 s) :
    Keeps s0 (setCount s core cid region n) := by
  unfold setCount
  with_reducible repeat' first | assumption | apply State.onCtx_keeps

theorem callGo_keeps {s0 s : State} (w : Wg) (mode region : Nat) (res : Resident) (argv resv : VReg) (hs : Keeps s0 s) :
    Keeps s0 (callGo s w mode region res argv resv) := by
  unfold callGo
  with_reducible repeat' first
    | assumption | apply sideOn_keeps | apply State.onCore_keeps | apply bump_keeps | apply setCount_keeps | apply State.adv_keeps
    | apply State.onCur_keeps | fail_if_no_progress (apply Keeps.upd) | split

theorem acquired_keeps {s0 s : State} (k : Out) (hs : Keeps s0 s) (hk : KeepsOut s0 k) :
    KeepsOut s0 (acquired s k) := by
  unfold acquired
  with_reducible repeat' first
    | assumption | apply hk | apply waitAt_keeps | apply KeepsOut.next | refine Keeps.of_snd ?_ (by assumption) | split

theorem withLoad_keeps {s0 s : State} (region : Nat) (no : RDesc → Bool) (k : RDesc → List Byte → List Byte → State → Out) (hs : Keeps s0 s) (hk : ∀ d a b s, Keeps s0 s → KeepsOut s0 (k d a b s)) :
    KeepsOut s0 (withLoad s region no k) := by
  unfold withLoad
  with_reducible repeat' first
    | assumption | apply hk | apply acquired_keeps | apply trap_keeps | apply fetchRegion_keeps | apply loadTrap_keeps
    | apply KeepsOut.next | refine Keeps.of_snd ?_ (by assumption) | split

theorem rcall_keeps {s0 s : State} (mode : Nat) (g : Guard) (region : Fin 1024) (argv resv : VReg) (argc resc : Fin 8) (hs : Keeps s0 s) :
    KeepsOut s0 (rcall mode g region argv resv argc resc s) := by
  unfold rcall; (try dsimp only)
  with_reducible repeat' first
    | assumption | apply guarded_keeps | apply outside_keeps | apply settled_keeps | apply illegal8_keeps
    | apply withLoad_keeps | apply waitAt_keeps | apply orderPoint_keeps | apply callGo_keeps | apply KeepsOut.next
    | refine Keeps.of_snd ?_ (by assumption) | split | (intro _; try dsimp only [id])

theorem merge_keeps {s0 s : State} (e : RestEntry) (ye : List W32) (hs : Keeps s0 s) : Keeps s0 (merge s e ye) := by
  unfold merge; (try dsimp only)
  with_reducible repeat' first
    | assumption | apply onAgg_keeps | apply State.onThread_keeps | fail_if_no_progress (apply Keeps.upd) | split

theorem measure_keeps {s0 s : State} (cid kind : Nat) (image : List Byte) (hs : Keeps s0 s) : Keeps s0 (measure s cid kind image) := by
  unfold measure
  with_reducible repeat' first | assumption | apply State.onCtx_keeps

theorem makeResident_keeps {s0 s : State} (core cid region : Nat) (d : RDesc) (desc image : List Byte) (pin : Bool) (hs : Keeps s0 s) :
    Keeps s0 (makeResident s core cid region d desc image pin) := by
  unfold makeResident
  with_reducible repeat' first
    | assumption | apply takeUp_keeps | apply State.onCtx_keeps | apply measure_keeps | apply State.onCore_keeps | split

theorem rctl_keeps {s0 s : State} (g : Guard) (xa xb : XReg) (hs : Keeps s0 s) : KeepsOut s0 (rctl g xa xb s) := by
  unfold rctl; (try dsimp only)
  with_reducible repeat' first
    | assumption | apply guarded_keeps | apply outside_keeps | apply illegal8_keeps | apply waitAt_keeps
    | apply sideOn_keeps | apply State.onCore_keeps | apply State.adv_keeps | apply withLoad_keeps
    | apply makeResident_keeps | apply writeBlock_keeps | apply sendCounts_keeps | apply KeepsOut.next
    | refine Keeps.of_snd ?_ (by assumption) | fail_if_no_progress (apply Keeps.upd) | split
    | (intro _; try dsimp only [id])

theorem rollBack_keeps {s0 s : State} (ref : TRef) (hs : Keeps s0 s) : Keeps s0 (rollBack s ref) := by
  unfold rollBack
  with_reducible repeat' first | assumption | apply State.onThread_keeps | fail_if_no_progress (apply Keeps.upd) | split

theorem haltEventOf_keeps {s0 s : State} (t : Thread) (wgid : Nat) (bk : Bool) (hs : Keeps s0 s) :
    Keeps s0 (haltEventOf s t wgid bk) := by
  unfold haltEventOf
  with_reducible repeat' first
    | assumption | apply postEvent_keeps

theorem haltEvent_keeps {s0 s : State} (t : Thread) (bk : Bool) (hs : Keeps s0 s) : Keeps s0 (haltEvent s t bk) := by
  unfold haltEvent
  with_reducible repeat' first
    | assumption | apply haltEventOf_keeps

theorem haltThread_keeps {s0 s : State} (ref : TRef) (bk : Bool) (hs : Keeps s0 s) : Keeps s0 (haltThread s ref bk) := by
  unfold haltThread; (try dsimp only)
  with_reducible repeat' first
    | assumption | apply rollBack_keeps | apply State.onThread_keeps | apply haltEvent_keeps | split

theorem sysPriv_keeps {s0 s : State} (g : Guard) (k : Out) (hs : Keeps s0 s) (hk : KeepsOut s0 k) : KeepsOut s0 (sysPriv g s k) := by
  unfold sysPriv
  with_reducible repeat' first
    | assumption | apply hk | apply guarded_keeps | apply outside_keeps | apply settled_keeps | apply trap_keeps | split

theorem State.onSaved_keeps {s0 s : State} (f : Thread → Thread) (hs : Keeps s0 s) :
    Keeps s0 (State.onSaved s f) := by
  unfold State.onSaved
  with_reducible repeat' first
    | assumption | refine Keeps.of_snd ?_ (by assumption) | fail_if_no_progress (apply Keeps.upd)

theorem haltSaved_keeps {s0 s : State} (ref : TRef) (hs : Keeps s0 s) :
    Keeps s0 (haltSaved s ref) := by
  unfold haltSaved; (try dsimp only)
  with_reducible repeat' first
    | assumption | apply haltEventOf_keeps | apply State.onSaved_keeps | refine Keeps.of_snd ?_ (by assumption)
    | fail_if_no_progress (apply Keeps.upd) | split

theorem haltAll_keeps {s0 s : State} (cid : Nat) (hs : Keeps s0 s) : Keeps s0 (haltAll s cid) := by
  unfold haltAll; (try dsimp only)
  with_reducible repeat' first
    | assumption | apply haltThread_keeps | apply State.onSaved_keeps | apply haltSaved_keeps
    | refine Keeps.of_snd ?_ (by assumption) | apply Keeps.foldl | split | (intro _; try dsimp only [id])

theorem sysCurator_keeps {s0 s : State} (g : Guard) (k : Curator → Queue → Out) (hs : Keeps s0 s) (hk : ∀ a b, KeepsOut s0 (k a b)) :
    KeepsOut s0 (sysCurator g s k) := by
  unfold sysCurator
  with_reducible repeat' first
    | assumption | apply hk | apply guarded_keeps | apply trap_keeps | apply settled_keeps | split

theorem sysRead_keeps {s0 s : State} (va : W64) (n : Nat) (k : List Byte → State → Out) (hs : Keeps s0 s) (hk : ∀ a s, Keeps s0 s → KeepsOut s0 (k a s)) :
    KeepsOut s0 (sysRead s va n k) := by
  unfold sysRead
  with_reducible repeat' first
    | assumption | apply hk | apply engineRead_keeps | apply trap_keeps | apply pageRequest_keeps | apply waitAt_keeps
    | exact KeepsOut.fault _ | refine Keeps.of_snd ?_ (by assumption) | split

theorem signalAt_keeps {s0 s : State} (core cid key : Nat) (n : W64) (hs : Keeps s0 s) : Keeps s0 (signalAt s core cid key n) := by
  unfold signalAt; (try dsimp only)
  with_reducible repeat' first
    | assumption | apply release_keeps | apply agentWrite_keeps

theorem windowRead_keeps {s0 s : State} (c : Curator) (va : W64) (n align : Nat) (k : List Byte → State → Out) (hs : Keeps s0 s) (hk : ∀ a s, Keeps s0 s → KeepsOut s0 (k a s)) :
    KeepsOut s0 (windowRead s c va n align k) := by
  unfold windowRead
  with_reducible repeat' first | assumption | apply hk | apply trap_keeps | apply sysRead_keeps | split

theorem freeSlot_keeps {s0 s : State} (cid slot : Nat) (hs : Keeps s0 s) : Keeps s0 (freeSlot s cid slot) := by
  unfold freeSlot
  with_reducible repeat' first | assumption | apply State.onCtx_keeps

theorem State.onLaunch_keeps {s0 s : State} (l : Nat) (f : Launch → Launch) (hs : Keeps s0 s) : Keeps s0 (State.onLaunch s l f) := by
  unfold State.onLaunch
  with_reducible repeat' first | assumption | fail_if_no_progress (apply Keeps.upd)

theorem flushGang_keeps {s0 s : State} (g : Gang) (hs : Keeps s0 s) : Keeps s0 (flushGang s g) := by
  unfold flushGang
  with_reducible repeat' first
    | assumption | apply exitThread_keeps | apply freeSlot_keeps | apply charge_keeps | apply dropGang_keeps
    | apply State.onLaunch_keeps | apply Keeps.foldl | (intro _; try dsimp only [id])

theorem preempt_keeps {s0 s : State} (gid : Nat) (br by' : Option Nat) (hs : Keeps s0 s) :
    Keeps s0 (preempt s gid br by') := by
  unfold preempt; (try dsimp only)
  with_reducible repeat' first
    | assumption | apply State.onGang_keeps | apply flushGang_keeps | refine Keeps.of_snd ?_ (by assumption)
    | fail_if_no_progress (apply Keeps.upd) | split

theorem wlStatus_keeps {s0 s : State} (a : XReg) (st : Nat) (hs : Keeps s0 s) : KeepsOut s0 (wlStatus s a st) := by
  unfold wlStatus
  with_reducible repeat' first | assumption | apply State.onRegs_keeps | apply KeepsOut.next

theorem signalEnd_keeps {s0 s : State} (l : Launch) (hs : Keeps s0 s) : Keeps s0 (signalEnd s l) := by
  unfold signalEnd
  with_reducible repeat' first | assumption | apply signalAt_keeps | split

theorem refreshDescs_keeps {s0 s : State} (hs : Keeps s0 s) : Keeps s0 (refreshDescs s) := by
  unfold refreshDescs
  with_reducible repeat' first | assumption | fail_if_no_progress (apply Keeps.upd)

theorem clearAllotment_keeps {s0 s : State} (w : Wg) (l : LRec) (zap : List (Nat × Nat)) (hs : Keeps s0 s) :
    Keeps s0 (clearAllotment s w l zap) := by
  unfold clearAllotment
  with_reducible repeat' first | assumption | apply Keeps.zap

theorem placeMembers_keeps {s0 z3 : State} (l : LRec) (cid launch gang g first : Nat) (zap : List (Nat × Nat)) (z1 : List (List Nat × Nat)) (z2 : Nat) (hz3 : Keeps s0 z3) :
    Keeps s0 (placeMembers l cid launch gang g first zap z1 z2 z3) := by
  induction z1 generalizing z2 z3 with
  | nil => unfold placeMembers; assumption
  | cons p ps ih =>
    unfold placeMembers
    with_reducible repeat' first
      | assumption | apply ih | apply State.onGang_keeps | apply clearAllotment_keeps | fail_if_no_progress (apply Keeps.upd)

theorem notePlaced_keeps {s0 s : State} (cid : Nat) (p : Placed) (hs : Keeps s0 s) : Keeps s0 (notePlaced s cid p) := by
  unfold notePlaced
  with_reducible repeat' first | assumption | apply State.onCtx_keeps

theorem testIdle_keeps {s0 s : State} (cid : Nat) (hs : Keeps s0 s) : Keeps s0 (testIdle s cid) := by
  unfold testIdle; (try dsimp only)
  with_reducible repeat' first
    | assumption | apply State.onCtx_keeps | apply setCtxState_keeps | refine Keeps.of_snd ?_ (by assumption)
    | fail_if_no_progress (apply Keeps.upd) | split

theorem testLaunch_keeps {s0 s : State} (id : Nat) (hs : Keeps s0 s) : Keeps s0 (testLaunch s id) := by
  unfold testLaunch
  with_reducible repeat' first
    | assumption | apply signalEnd_keeps | apply testIdle_keeps | fail_if_no_progress (apply Keeps.upd) | split

theorem afterPerform_keeps {s0 : State} (t : Thread) (m : Mop) (p : Perf) (hp : KeepsPerf s0 p) : KeepsOut s0 (afterPerform t m p) := by
  unfold afterPerform
  with_reducible repeat' first
    | assumption | apply hp | exact KeepsPerf.done ‹_› _ rfl | exact KeepsPerf.poison ‹_› _ _ _ rfl
    | fail_if_no_progress (apply Keeps.upd) | apply KeepsOut.next | split

theorem performMop_keeps {s0 s : State} (ref : TRef) (id : Nat) (p : Mop → Bool) (prep : Thread → Mop → State → State) (hs : Keeps s0 s) (hprep : ∀ a b s, Keeps s0 s → Keeps s0 (prep a b s)) :
    KeepsOut s0 (performMop s ref id p prep) := by
  unfold performMop
  with_reducible repeat' first
    | assumption | apply hprep | apply due_keeps | apply gateTake_keeps | apply afterPerform_keeps | apply perform_keeps
    | exact KeepsPerf.done ‹_› _ rfl | exact KeepsPerf.poison ‹_› _ _ _ rfl | apply KeepsOut.next
    | refine Keeps.of_fst ?_ (by assumption) | split

theorem finishFence_keeps {s0 s : State} (ref : TRef) (hs : Keeps s0 s) : Keeps s0 (finishFence s ref) := by
  unfold finishFence
  with_reducible repeat' first
    | assumption | apply acquire_keeps | apply release_keeps | apply State.onThread_keeps | split

theorem finishToken_keeps {s0 s : State} (t : Thread) (k : Token) (hs : Keeps s0 s) : Keeps s0 (finishToken s t k) := by
  unfold finishToken
  with_reducible repeat' first | assumption | apply release_keeps | apply State.onThread_keeps

theorem reRequest_keeps {s0 s : State} (cid old : Nat) (hs : Keeps s0 s) : Keeps s0 (reRequest s cid old) := by
  unfold reRequest
  with_reducible repeat' first
    | assumption | apply State.onAll_keeps | apply State.onCtx_keeps | fail_if_no_progress (apply Keeps.upd)

theorem dropReq_keeps {s0 s : State} (cid rid : Nat) (hs : Keeps s0 s) : Keeps s0 (dropReq s cid rid) := by
  unfold dropReq
  with_reducible repeat' first | assumption | apply State.onCtx_keeps

theorem rejectWho_keeps {s0 s : State} (cid va kind : Nat) (who : PWho) (hs : Keeps s0 s) : Keeps s0 (rejectWho s cid va kind who) := by
  unfold rejectWho
  with_reducible repeat' first | assumption | apply rejectOne_keeps | apply State.onCtx_keeps | split

theorem answerReq_keeps {s0 s : State} (cid : Nat) (r : PReq) (resolve : Bool) (hs : Keeps s0 s) :
    Keeps s0 (answerReq s cid r resolve) := by
  unfold answerReq
  with_reducible repeat' first
    | assumption | apply reRequest_keeps | apply dropReq_keeps | apply rejectWho_keeps | apply Keeps.foldl | split
    | (intro _; try dsimp only [id])

theorem killWg_keeps {s0 s : State} (w : Nat) (hs : Keeps s0 s) : Keeps s0 (killWg s w) := by
  unfold killWg
  with_reducible repeat' first | assumption | apply terminate_keeps | split

theorem killSaved_keeps {s0 s : State} (cid : Nat) (v : Saved) (hs : Keeps s0 s) : Keeps s0 (killSaved s cid v) := by
  unfold killSaved
  with_reducible repeat' first
    | assumption | apply killWg_keeps | apply freeSlot_keeps | apply State.onCtx_keeps | apply State.onLaunch_keeps
    | apply testIdle_keeps | apply testLaunch_keeps | fail_if_no_progress (apply Keeps.upd) | apply Keeps.foldl
    | (intro _; try dsimp only [id])

theorem killCtx_keeps {s0 s : State} (cid : Nat) (hs : Keeps s0 s) : Keeps s0 (killCtx s cid) := by
  unfold killCtx
  with_reducible repeat' first
    | assumption | apply killWg_keeps | apply killSaved_keeps | apply testLaunch_keeps | fail_if_no_progress (apply Keeps.upd)
    | apply Keeps.foldl | (intro _; try dsimp only [id])

theorem copyFault_keeps {s0 s : State} (w : Wg) (ch : Fin 4) (idx tid : Nat) (raw : List Byte) (e : CopyErr) (hs : Keeps s0 s) :
    Keeps s0 (copyFault s w ch idx tid raw e) := by
  unfold copyFault
  with_reducible repeat' first | assumption | apply terminate_keeps

theorem takeErr_keeps {s0 s : State} (w : Wg) (raw : List Byte) (hs : Keeps s0 s) : Keeps s0 (takeErr s w raw).2 := by
  unfold takeErr; (try dsimp only)
  with_reducible repeat' first | assumption | apply engineRead_keeps | refine Keeps.of_snd ?_ (by assumption) | split

theorem setHead_keeps {s0 s : State} (w : Wg) (ring head : Nat) (hs : Keeps s0 s) : Keeps s0 (setHead s w ring head) := by
  unfold setHead
  with_reducible repeat' first | assumption | apply State.onWg_keeps | apply State.putN_keeps

theorem countSector_keeps {s0 s : State} (w : Wg) (raw : List Byte) (hs : Keeps s0 s) : Keeps s0 (countSector s w raw) := by
  unfold countSector
  with_reducible repeat' first | assumption | apply updateBar_keeps | split

theorem finishCopy_keeps {s0 s : State} (w : Nat) (ch : Fin 4) (hs : Keeps s0 s) : Keeps s0 (finishCopy s w ch) := by
  unfold finishCopy
  with_reducible repeat' first | assumption | apply State.onWg_keeps

theorem convElems_keeps {s0 z4 : State} (c : Cmd) (read : Nat → State → Nat → Nat → Rd × State) (dr off z1 z2 : Nat) (z3 : List Byte)
    (hread : ∀ i s a n, Keeps s0 s → Keeps s0 (read i s a n).2) (hz4 : Keeps s0 z4) :
    Keeps s0 (convElems c read dr off z1 z2 z3 z4).2 := by
  induction z1 generalizing z2 z3 z4 with
  | zero => unfold convElems; (try dsimp only); assumption
  | succ n ih =>
    unfold convElems; (try dsimp only)
    with_reducible repeat' first
      | assumption | apply ih | apply hread | refine Keeps.of_snd ?_ (by assumption) | split

theorem pieceFrom_keeps {s0 s : State} (c : Cmd) (read : Nat → State → Nat → Nat → Rd × State) (plain : State → Nat → Nat → Rd × State)
    (p : Nat) (hread : ∀ i s a n, Keeps s0 s → Keeps s0 (read i s a n).2) (hplain : ∀ s a n, Keeps s0 s → Keeps s0 (plain s a n).2)
    (hs : Keeps s0 s) : Keeps s0 (pieceFrom c read plain p s).2 := by
  unfold pieceFrom; (try dsimp only)
  with_reducible repeat' first
    | assumption | apply hread | apply hplain | apply convElems_keeps | refine Keeps.of_snd ?_ (by assumption) | split

theorem readSrc_keeps {s0 s : State} (w : Wg) (c : Cmd) (e : CopyEnt) (ahead : State → Nat → Option (List Byte)) (i va n : Nat) (hs : Keeps s0 s) :
    Keeps s0 (readSrc w c e ahead i s va n).2 := by
  unfold readSrc
  with_reducible repeat' first
    | assumption | apply readPiece_keeps | refine Keeps.of_snd ?_ (by assumption) | split

theorem pieceAhead_keeps {s0 s : State} (w : Wg) (c : Cmd) (e : CopyEnt) (n p : Nat) (hs : Keeps s0 s) :
    Keeps s0 (pieceAhead w c e n p s).2 := by
  cases n with
  | zero =>
    unfold pieceAhead
    exact pieceFrom_keeps _ _ _ _ (fun _ _ _ _ h => readSrc_keeps _ _ _ _ _ _ _ h) (fun _ _ _ h => readPiece_keeps _ _ _ _ _ _ _ h) hs
  | succ n =>
    unfold pieceAhead
    exact pieceFrom_keeps _ _ _ _ (fun _ _ _ _ h => readSrc_keeps _ _ _ _ _ _ _ h) (fun _ _ _ h => readPiece_keeps _ _ _ _ _ _ _ h) hs

theorem pieceBytes_keeps {s0 s : State} (w : Wg) (c : Cmd) (e : CopyEnt) (p : Nat) (hs : Keeps s0 s) :
    Keeps s0 (pieceBytes s w c e p).2 := by
  unfold pieceBytes
  with_reducible repeat' first
    | assumption | apply pieceAhead_keeps

theorem onHeadEnt_keeps {s0 s : State} (w : Nat) (ch : Fin 4) (f : CopyEnt → CopyEnt) (hs : Keeps s0 s) :
    Keeps s0 (onHeadEnt s w ch f) := by
  unfold onHeadEnt
  with_reducible repeat' first
    | assumption | apply State.onWg_keeps

theorem keepOld_keeps {s0 s : State} (w : Wg) (c : Cmd) (p : Nat) (hs : Keeps s0 s) :
    Keeps s0 (keepOld s w c p) := by
  unfold keepOld
  with_reducible repeat' first
    | assumption | apply readPiece_keeps | apply onHeadEnt_keeps | refine Keeps.of_snd ?_ (by assumption)
    | fail_if_no_progress (apply Keeps.upd) | split

theorem movePiece_keeps {s0 s : State} (w : Wg) (c : Cmd) (e : CopyEnt) (p : Nat) (hs : Keeps s0 s) :
    KeepsMoved s0 (movePiece s w c e p) := by
  unfold movePiece
  with_reducible repeat' first
    | assumption | apply pieceBytes_keeps | apply writePiece_keeps | apply keepOld_keeps | apply onHeadEnt_keeps
    | apply State.onWg_keeps | apply KeepsMoved.mkOk | apply KeepsMoved.mkErr | refine Keeps.of_snd ?_ (by assumption)
    | fail_if_no_progress (apply Keeps.upd) | split

theorem moveSector_keeps {s0 s : State} (w : Wg) (ch : Fin 4) (e : CopyEnt) (hs : Keeps s0 s) : Keeps s0 (moveSector s w ch e) := by
  unfold moveSector; (try dsimp only)
  with_reducible repeat' first
    | assumption | apply copyFault_keeps | apply countSector_keeps | apply finishCopy_keeps | apply movePiece_keeps
    | refine KeepsMoved.ok ?_ _ (by assumption) | refine KeepsMoved.err ?_ _ _ (by assumption)
    | refine Keeps.of_snd ?_ (by assumption) | split

theorem runChannel_keeps {s0 s : State} (opc w : Nat) (ch : Fin 4) (hs : Keeps s0 s) : KeepsOut s0 (runChannel opc w ch s) := by
  unfold runChannel
  with_reducible repeat' first | assumption | apply due_keeps | apply moveSector_keeps | apply KeepsOut.next | split

theorem onEntry_keeps {s0 s : State} (w : Nat) (k : Wg → MEnt → Out) (hs : Keeps s0 s) (hk : ∀ a b, KeepsOut s0 (k a b)) :
    KeepsOut s0 (onEntry w s k) := by
  unfold onEntry
  with_reducible repeat' first | assumption | apply hk | apply due_keeps | apply KeepsOut.next | split

theorem onHead_keeps {s0 s : State} (w : Nat) (f : MEnt → MEnt) (hs : Keeps s0 s) : Keeps s0 (onHead s w f) := by
  unfold onHead
  with_reducible repeat' first | assumption | apply State.onWg_keeps

theorem onSlot_keeps {s0 s : State} (w i : Nat) (f : Acc → Acc) (hs : Keeps s0 s) : Keeps s0 (onSlot s w i f) := by
  unfold onSlot
  with_reducible repeat' first | assumption | apply State.onWg_keeps

theorem beginMma_keeps {s0 s : State} (w : Wg) (xc : W64) (c : MmaCtl) (rank : Nat) (hs : Keeps s0 s) :
    Keeps s0 (beginMma s w xc c rank) := by
  unfold beginMma; (try dsimp only)
  with_reducible repeat' first
    | assumption | apply onSlot_keeps | fail_if_no_progress (apply Keeps.upd) | apply Keeps.foldl | split
    | (intro _; try dsimp only [id])

theorem readRow_keeps {s0 s : State} (w : Wg) (f : MFmt) (base st i k : Nat) (hs : Keeps s0 s) :
    Keeps s0 (readRow s w f base st i k).2 := by
  unfold readRow
  with_reducible repeat' first | assumption | apply readPiece_keeps

theorem readRows_keeps {s0 z3 : State} (w : Wg) (f : MFmt) (base st k z1 z2 : Nat) (z4 : List (List Nat)) (hz3 : Keeps s0 z3) :
    Keeps s0 (readRows w f base st k z1 z2 z3 z4).2 := by
  induction z1 generalizing z2 z3 z4 with
  | zero => unfold readRows; assumption
  | succ n ih =>
    unfold readRows
    with_reducible repeat' first
      | assumption | apply ih | apply readRow_keeps | refine Keeps.of_snd ?_ (by assumption) | split

theorem matrixErr_keeps {s0 s : State} (w : Wg) (kind : Nat) (r : Rd) (hs : Keeps s0 s) : KeepsOut s0 (matrixErr s w kind r) := by
  unfold matrixErr
  with_reducible repeat' first
    | assumption | apply matrixFault_keeps | apply pageRequest_keeps | apply onHead_keeps | apply KeepsOut.next
    | exact KeepsOut.fault _ | split

theorem mmaStep_keeps {s0 s : State} (w : Wg) (xa xb xc : W64) (c : MmaCtl) (rank : Nat) (hs : Keeps s0 s) :
    KeepsOut s0 (mmaStep s w xa xb xc c rank) := by
  unfold mmaStep; (try dsimp only)
  with_reducible repeat' first
    | assumption | apply readRows_keeps | apply onSlot_keeps | apply State.onWg_keeps | apply matrixErr_keeps | apply KeepsOut.next
    | refine Keeps.of_snd ?_ (by assumption) | split

theorem spanErr_keeps {s0 z2 : State} (w : Wg) (kind : Nat) (z1 : List (Nat × Nat)) (hz2 : Keeps s0 z2) :
    Keeps s0 (spanErr w kind z1 z2).2 := by
  induction z1 generalizing z2 with
  | nil => unfold spanErr; (try dsimp only); assumption
  | cons p ps ih =>
    unfold spanErr; (try dsimp only)
    with_reducible repeat' first | assumption | apply ih | apply resolve_keeps | split

theorem writePieces_keeps {s0 z3 : State} (w : Option Wg) (core cid : Nat) (z1 : List (Nat × Nat)) (z2 : List Byte) (z4 : Nat) (hz3 : Keeps s0 z3) :
    Keeps s0 (writePieces w core cid z1 z2 z3 z4).2 := by
  induction z1 generalizing z2 z3 z4 with
  | nil => unfold writePieces; assumption
  | cons p ps ih =>
    unfold writePieces
    with_reducible repeat' first
      | assumption | apply ih | apply writePiece_keeps | refine Keeps.of_snd ?_ (by assumption) | split

theorem engineWrite_keeps {s0 s : State} (w : Option Wg) (core cid va : Nat) (bs : List Byte) (hs : Keeps s0 s) :
    Keeps s0 (engineWrite s w core cid va bs).2 := by
  unfold engineWrite
  with_reducible repeat' first | assumption | apply writePieces_keeps

theorem drainRow_keeps {s0 s : State} (w : Wg) (e : MEnt) (xa xb xc : W64) (c : DrainCtl) (hs : Keeps s0 s) :
    KeepsOut s0 (drainRow s w e xa xb xc c) := by
  unfold drainRow; (try dsimp only)
  with_reducible repeat' first
    | assumption | apply spanErr_keeps | apply matrixErr_keeps | apply engineRead_keeps | apply engineWrite_keeps
    | apply onHead_keeps | apply onSlot_keeps | apply KeepsOut.next | refine Keeps.of_snd ?_ (by assumption) | split

theorem zeroSlots_keeps {s0 s : State} (w : Wg) (slot : Nat) (hs : Keeps s0 s) : Keeps s0 (zeroSlots s w slot) := by
  unfold zeroSlots
  with_reducible repeat' first | assumption | apply onSlot_keeps | apply Keeps.foldl | (intro _; try dsimp only [id])

theorem giveResults_keeps {s0 s : State} (caller : TRef) (call resv : Nat) (ys : List W32) (hs : Keeps s0 s) :
    Keeps s0 (giveResults s caller call resv ys) := by
  unfold giveResults
  with_reducible repeat' first | assumption | apply State.onThread_keeps

theorem finishEval_keeps {s0 s : State} (core : Nat) (v : Eval) (hs : Keeps s0 s) : Keeps s0 (finishEval s core v) := by
  unfold finishEval; (try dsimp only)
  with_reducible repeat' first
    | assumption | apply bump_keeps | apply State.onCore_keeps | apply giveResults_keeps | split

theorem applyBroadcast_keeps {s0 s : State} (disable : Bool) (core cid region : Nat) (hs : Keeps s0 s) :
    KeepsOut s0 (applyBroadcast disable core cid region s) := by
  unfold applyBroadcast
  with_reducible repeat' first
    | assumption | apply due_keeps | apply gateTake_keeps | apply State.onCore_keeps | apply logWin_keeps | apply KeepsOut.next
    | refine Keeps.of_fst ?_ (by assumption) | split

theorem wlTerminate_keeps {s0 s : State} (cid : Nat) (wl : Fin 4) (hs : Keeps s0 s) : Keeps s0 (wlTerminate s cid wl) := by
  unfold wlTerminate; (try dsimp only)
  with_reducible repeat' first
    | assumption | apply notePops_keeps | apply State.onWl_keeps | apply popEnded_keeps
    | refine Keeps.of_snd ?_ (by assumption) | fail_if_no_progress (apply Keeps.upd) | apply Keeps.foldl | split
    | (intro _; try dsimp only [id])

theorem wlRefresh_keeps {s0 s : State} (cid : Nat) (wl : Fin 4) (w : Worklist) (fseen : Option Nat) (idle : Bool) (hs : Keeps s0 s) :
    Keeps s0 (wlRefresh s cid wl w fseen idle) := by
  unfold wlRefresh
  with_reducible repeat' first | assumption | apply wlTerminate_keeps | apply State.onWl_keeps | split

theorem sendRec_keeps {s0 s : State} (core : Nat) (r : WRec) (hs : Keeps s0 s) :
    Keeps s0 (sendRec s core r) := by
  unfold sendRec; (try dsimp only)
  with_reducible repeat' first
    | assumption | apply State.onCore_keeps | apply State.onWl_keeps

theorem sendFull_keeps {s0 s : State} (core : Nat) (hs : Keeps s0 s) :
    Keeps s0 (sendFull s core) := by
  unfold sendFull
  with_reducible repeat' first
    | assumption | apply sendRec_keeps | refine Keeps.of_snd ?_ (by assumption) | split

theorem placeWaiting_keeps {s0 s : State} (t : Thread) (wl : Fin 4) (words : List W32) (dep : Nat) (hs : Keeps s0 s) :
    Keeps s0 (placeWaiting s t wl words dep) := by
  unfold placeWaiting; (try dsimp only)
  with_reducible repeat' first
    | assumption | apply sendFull_keeps | apply pushAtGate_keeps | apply wake_keeps
    | refine Keeps.of_some ?_ (by assumption) | refine Keeps.of_snd ?_ (by assumption) | split

theorem serveFind_keeps {s0 s : State} (t : Thread) (wl : Fin 4) (w : Worklist) (n : Nat) (hs : Keeps s0 s) :
    KeepsPop s0 (serveFind s t wl w n) := by
  unfold serveFind
  with_reducible repeat' first
    | assumption | apply popFind_keeps | apply reachRec_keeps | exact KeepsPop.mkNone | exact KeepsPop.mkHold
    | apply KeepsPop.mkFound | split

theorem serve_keeps {s0 s : State} (x : Thread) (wl : Fin 4) (xa : XReg) (ps : PReg) (v : VReg) (w : Worklist) (n : Nat) (hs : Keeps s0 s) :
    KeepsOut s0 (serve s x wl xa ps v w n) := by
  unfold serve
  with_reducible repeat' first
    | assumption | apply serveFind_keeps | apply popGive_keeps | apply reachRec_keeps | refine KeepsPop.found ?_ _ _ (by assumption)
    | refine KeepsTake.page ?_ _ _ (by assumption) | refine KeepsTake.lost ?_ _ (by assumption) | apply KeepsOut.next | split

theorem onUnit_keeps {s0 s : State} (cid : Nat) (wl die : Fin 4) (f : WUnit → WUnit) (hs : Keeps s0 s) :
    Keeps s0 (onUnit s cid wl die f) := by
  unfold onUnit
  with_reducible repeat' first | assumption | apply State.onWl_keeps

theorem freeBytes_keeps {s0 s : State} (n : Nat) (hs : Keeps s0 s) : Keeps s0 (freeBytes s n).2 := by
  unfold freeBytes
  with_reducible repeat' first | assumption | fail_if_no_progress (apply Keeps.upd)

theorem restoreValues_keeps {s0 s : State} (w : Wg) (r : VXReg) (fmt : Nat) (data : List Byte) (hs : Keeps s0 s) :
    Keeps s0 (restoreValues s w r fmt data) := by
  unfold restoreValues
  with_reducible repeat' first
    | assumption | apply State.onThread_keeps | apply Keeps.foldl | (intro _; try dsimp only [id])

theorem refill_keeps {s0 s : State} (w : Wg) (r : VXReg) (fmt : Nat) (hs : Keeps s0 s) : Keeps s0 (refill s w r fmt) := by
  unfold refill; (try dsimp only)
  with_reducible repeat' first
    | assumption | apply engineRead_keeps | apply restoreValues_keeps | apply engineWrite_keeps | apply State.onWg_keeps
    | apply spillFault_keeps | apply pageRequest_keeps | refine Keeps.of_snd ?_ (by assumption) | split

theorem cleanCores_keeps {s0 s : State} (cid : Nat) (hs : Keeps s0 s) : Keeps s0 (cleanCores s cid) := by
  unfold cleanCores
  with_reducible repeat' first
    | assumption | apply writeBackAll_keeps | fail_if_no_progress (apply Keeps.upd) | apply Keeps.foldl | (intro _; try dsimp only [id])

theorem destroyCtx_keeps {s0 s : State} (cid : Nat) (hs : Keeps s0 s) : Keeps s0 (destroyCtx s cid) := by
  unfold destroyCtx
  with_reducible repeat' first
    | assumption | apply killCtx_keeps | apply dropGang_keeps | apply cleanCores_keeps | apply setCtxState_keeps
    | fail_if_no_progress (apply Keeps.upd) | apply Keeps.foldl | split

theorem putFree_keeps {s0 s : State} (cid va n : Nat) (hs : Keeps s0 s) : Keeps s0 (putFree s cid va n) := by
  unfold putFree
  with_reducible repeat' first | assumption | apply freeBytes_keeps | apply devPut_keeps

theorem putParts_keeps {s0 s : State} (cid va : Nat) (ps : List (Nat × List Byte)) (hs : Keeps s0 s) :
    Keeps s0 (putParts s cid va ps) := by
  unfold putParts
  with_reducible repeat' first | assumption | apply devPut_keeps | apply Keeps.foldl | (intro _; try dsimp only [id])

theorem writeMember_keeps {s0 s : State} (l : LRec) (va : Nat) (v : Saved) (x : Wg × List Byte) (hs : Keeps s0 s) :
    Keeps s0 (writeMember l va v s x) := by
  unfold writeMember
  with_reducible repeat' first
    | assumption | apply devPut_keeps | apply putParts_keeps | apply putFree_keeps | apply Keeps.foldl | split
    | (intro _; try dsimp only [id])

theorem writeSlot_keeps {s0 s : State} (l : LRec) (addr : W64) (v : Saved) (e : Nat) (hs : Keeps s0 s) :
    Keeps s0 (writeSlot s l addr v e) := by
  unfold writeSlot
  with_reducible repeat' first
    | assumption | apply devPut_keeps | apply putFree_keeps | apply writeMember_keeps | apply Keeps.foldl
    | (intro _; try dsimp only [id])

theorem adoptSaved_keeps {s0 s : State} (cid b : Nat) (v : Saved) (hs : Keeps s0 s) : Keeps s0 (adoptSaved cid b s v) := by
  unfold adoptSaved; (try dsimp only)
  with_reducible repeat' first | assumption | apply State.onCtx_keeps | apply writeSlot_keeps | split

theorem startReplay_keeps {s0 s : State} (cid : Nat) (a : Arch) (hs : Keeps s0 s) : Keeps s0 (startReplay s cid a) := by
  unfold startReplay
  with_reducible repeat' first
    | assumption | apply State.onCtx_keeps | apply adoptSaved_keeps | fail_if_no_progress (apply Keeps.upd) | apply Keeps.foldl
    | split | (intro _; try dsimp only [id])

theorem enterRunning_keeps {s0 s : State} (cid : Nat) (k : State → Out) (hs : Keeps s0 s) (hk : ∀ s, Keeps s0 s → KeepsOut s0 (k s)) :
    KeepsOut s0 (enterRunning s cid k) := by
  unfold enterRunning; (try dsimp only)
  with_reducible repeat' first
    | assumption | apply hk | apply tableRead_keeps | apply postEvent_keeps | apply devPut_keeps
    | apply State.onCtx_keeps | apply setCtxState_keeps | apply startReplay_keeps | apply KeepsOut.next
    | refine Keeps.of_snd ?_ (by assumption) | fail_if_no_progress (apply Keeps.upd) | split
    | (intro _; try dsimp only [id])

theorem stopPacket_keeps {s0 s : State} (q : Nat) (hs : Keeps s0 s) : Keeps s0 (stopPacket s q) := by
  unfold stopPacket
  with_reducible repeat' first
    | assumption | apply endPacket_keeps | apply dropThread_keeps | fail_if_no_progress (apply Keeps.upd) | apply Keeps.foldl
    | (intro _; try dsimp only [id])

theorem waitFault_keeps {s0 s : State} (x : Queue) (cause : BitVec 9) (hs : Keeps s0 s) : Keeps s0 (waitFault s x cause) := by
  unfold waitFault
  with_reducible repeat' first | assumption | apply postEvent_keeps | apply State.setQueue_keeps

theorem resumeQueue_keeps {s0 s : State} (x : Queue) (hs : Keeps s0 s) : Keeps s0 (resumeQueue s x) := by
  unfold resumeQueue
  with_reducible repeat' first
    | assumption | apply State.setQueue_keeps | apply acquire_keeps | apply State.setRound_keeps
    | fail_if_no_progress (apply Keeps.upd) | split

theorem drainFront_keeps {s0 s : State} (core cid : Nat) (hs : Keeps s0 s) : Keeps s0 (drainFront s core cid) := by
  unfold drainFront
  with_reducible repeat' first
    | assumption | apply sendRec_keeps | refine Keeps.of_snd ?_ (by assumption) | apply Keeps.foldl | split
    | (intro _; try dsimp only [id])

theorem writeGang_keeps {s0 s : State} (g : Gang) (la : Launch) (hs : Keeps s0 s) : Keeps s0 (writeGang s g la).2 := by
  unfold writeGang
  with_reducible repeat' first
    | assumption | apply drainFront_keeps | apply release_keeps | apply writeSlot_keeps | apply Keeps.foldl
    | (intro _; try dsimp only [id])

theorem saveGang_keeps {s0 s : State} (g : Gang) (la : Launch) (hs : Keeps s0 s) : Keeps s0 (saveGang s g la) := by
  unfold saveGang; (try dsimp only)
  with_reducible repeat' first
    | assumption | apply writeGang_keeps | apply chargeMove_keeps | apply charge_keeps | apply dropGang_keeps
    | apply testIdle_keeps | apply State.onCtx_keeps

theorem switchFail_keeps {s0 s : State} (cid : Nat) (hs : Keeps s0 s) : Keeps s0 (switchFail s cid) := by
  unfold switchFail
  with_reducible repeat' first
    | assumption | apply setCtxState_keeps | refine Keeps.of_snd ?_ (by assumption)
    | fail_if_no_progress (apply Keeps.upd) | split

theorem switchOut_keeps {s0 s : State} (by' : Option Nat) (cid : Nat) (hs : Keeps s0 s) :
    Keeps s0 (switchOut by' s cid) := by
  unfold switchOut; (try dsimp only)
  with_reducible repeat' first
    | assumption | apply setCtxState_keeps | refine Keeps.of_snd ?_ (by assumption)
    | fail_if_no_progress (apply Keeps.upd) | split

theorem settleGang_keeps {s0 s : State} (g : Gang) (hs : Keeps s0 s) : Keeps s0 (settleGang s g) := by
  unfold settleGang
  with_reducible repeat' first
    | assumption | apply drainFront_keeps | apply release_keeps | apply abandonRests_keeps | apply Keeps.foldl
    | (intro _; try dsimp only [id])

theorem archiveFull_keeps {s0 s : State} (c : Ctx) (hs : Keeps s0 s) : Keeps s0 (archiveFull s c) := by
  unfold archiveFull
  with_reducible repeat' first
    | assumption | apply State.onCtx_keeps | apply postEvent_keeps | fail_if_no_progress (apply Keeps.upd) | split

theorem takeCheckpoint_keeps {s0 s : State} (cid : Nat) (hs : Keeps s0 s) : Keeps s0 (takeCheckpoint s cid) := by
  unfold takeCheckpoint; (try dsimp only)
  with_reducible repeat' first
    | assumption | apply settleGang_keeps | apply archiveFull_keeps | apply putFree_keeps | apply resetHashes_keeps
    | apply State.onCtx_keeps | apply Keeps.foldl | split

theorem divergeAt_keeps {s0 s : State} (t : Thread) (case : Nat) (hs : Keeps s0 s) : Keeps s0 (divergeAt s t case) := by
  unfold divergeAt
  with_reducible repeat' first | assumption | apply diverge_keeps

theorem dropColl_keeps {s0 s : State} (cid g k : Nat) (hs : Keeps s0 s) : Keeps s0 (dropColl s cid g k) := by
  unfold dropColl
  with_reducible repeat' first | assumption | apply State.onCtx_keeps

theorem collFail_keeps {s0 s : State} (cid : Nat) (x : Coll) (n : Nat) (hs : Keeps s0 s) : Keeps s0 (collFail s cid x n) := by
  unfold collFail
  with_reducible repeat' first
    | assumption | apply devPut_keeps | apply postEvent_keeps | apply dropColl_keeps | fail_if_no_progress (apply Keeps.upd)

theorem ingressFault_keeps {s0 s : State} (f va : Nat) (hs : Keeps s0 s) : Keeps s0 (ingressFault s f va) := by
  unfold ingressFault
  with_reducible repeat' first | assumption | apply postEvent_keeps

theorem noteIngress_keeps {s0 s : State} (cid port va key : Nat) (bs : List Byte) (hs : Keeps s0 s) :
    Keeps s0 (noteIngress s cid port va key bs) := by
  unfold noteIngress
  with_reducible repeat' first | assumption | apply State.onCtx_keeps | apply logWin_keeps

theorem ingressPieces_keeps {s0 z3 : State} (cid port : Nat) (z1 : List (Nat × Nat × Nat)) (z2 : List Byte) (hz3 : Keeps s0 z3) :
    Keeps s0 (ingressPieces cid port z1 z2 z3) := by
  induction z1 generalizing z2 z3 with
  | nil => unfold ingressPieces; assumption
  | cons p ps ih =>
    unfold ingressPieces
    with_reducible repeat' first | assumption | apply ih | apply State.put_keeps | apply noteIngress_keeps

theorem loseL1_keeps {s0 s : State} (core : Nat) (hs : Keeps s0 s) : Keeps s0 (loseL1 s core) := by
  unfold loseL1
  with_reducible repeat' first
    | assumption | apply State.put_keeps | fail_if_no_progress (apply Keeps.upd) | apply Keeps.foldl | split
    | (intro _; try dsimp only [id])

theorem emptyCore_keeps {s0 s : State} (core : Nat) (hs : Keeps s0 s) : Keeps s0 (emptyCore s core) := by
  unfold emptyCore
  with_reducible repeat' first
    | assumption | apply drainFront_keeps | apply loseL1_keeps | apply State.onCore_keeps | apply Keeps.foldl
    | (intro _; try dsimp only [id])

theorem failWgs_keeps {s0 s : State} (core : Nat) (hs : Keeps s0 s) : Keeps s0 (failWgs s core) := by
  unfold failWgs
  with_reducible repeat' first
    | assumption | apply terminate_keeps | apply Keeps.foldl | split | (intro _; try dsimp only [id])

theorem failAll_keeps {s0 s : State} (hs : Keeps s0 s) : Keeps s0 (failAll s) := by
  unfold failAll
  with_reducible repeat' first
    | assumption | apply collFail_keeps | apply Keeps.foldl | split | (intro _; try dsimp only [id])

theorem peerPiece_keeps {s0 s : State} (port : Nat) (poison : Bool) (key : Nat) (bs : List Byte) (hs : Keeps s0 s) :
    Keeps s0 (peerPiece port poison s key bs) := by
  unfold peerPiece
  with_reducible repeat' first
    | assumption | apply State.put_keeps | apply noteIngress_keeps | fail_if_no_progress (apply Keeps.upd) | apply Keeps.foldl
    | split | (intro _; try dsimp only [id])

theorem peerWrite_keeps {s0 z3 : State} (port : Nat) (poison : Bool) (z1 : List (Nat × Nat)) (z2 : List Byte) (hz3 : Keeps s0 z3) :
    Keeps s0 (peerWrite port poison z1 z2 z3) := by
  induction z1 generalizing z2 z3 with
  | nil => unfold peerWrite; assumption
  | cons p ps ih =>
    unfold peerWrite
    with_reducible repeat' first | assumption | apply ih | apply peerPiece_keeps

theorem fetchGlobal_keeps {s0 s : State} (t : Thread) (va : Nat) (hs : Keeps s0 s) : Keeps s0 (fetchGlobal s t va).2 := by
  unfold fetchGlobal
  with_reducible repeat' first
    | assumption | apply xlate_keeps | apply State.take_keeps | apply State.onCore_keeps | refine Keeps.of_snd ?_ (by assumption)
    | split

theorem fetchWord_keeps {s0 s : State} (t : Thread) (va : Nat) (hs : Keeps s0 s) : Keeps s0 (fetchWord s t va).2 := by
  unfold fetchWord
  with_reducible repeat' first | assumption | apply fetchGlobal_keeps | split

theorem fetchWords_keeps {s0 z3 : State} (t : Thread) (z1 z2 : Nat) (hz3 : Keeps s0 z3) : Keeps s0 (fetchWords t z1 z2 z3).2 := by
  induction z2 generalizing z1 z3 with
  | zero => unfold fetchWords; assumption
  | succ n ih =>
    unfold fetchWords
    with_reducible repeat' first
      | assumption | apply ih | apply fetchWord_keeps | refine Keeps.of_snd ?_ (by assumption) | split

theorem fetchInstr_keeps {s0 s : State} (t : Thread) (hs : Keeps s0 s) : Keeps s0 (fetchInstr s t).2 := by
  unfold fetchInstr; (try dsimp only)
  with_reducible repeat' first | assumption | apply fetchWords_keeps | refine Keeps.of_snd ?_ (by assumption) | split

theorem uncountIssue_keeps {s0 s : State} (hs : Keeps s0 s) : Keeps s0 (uncountIssue s) := by
  unfold uncountIssue; (try dsimp only)
  with_reducible repeat' first | assumption | apply State.onCur_keeps | fail_if_no_progress (apply Keeps.upd) | split

theorem writeParts_keeps {s0 z2 : State} (w : Wg) (va : Nat) (z1 : List (Nat × List Byte)) (hz2 : Keeps s0 z2) :
    Keeps s0 (writeParts w va z1 z2).2 := by
  induction z1 generalizing z2 with
  | nil => unfold writeParts; assumption
  | cons p ps ih =>
    unfold writeParts
    with_reducible repeat' first
      | assumption | apply ih | apply engineWrite_keeps | refine Keeps.of_snd ?_ (by assumption) | split

theorem evict_keeps {s0 s : State} (w : Wg) (r : VXReg) (hs : Keeps s0 s) : Keeps s0 (evict s w r) := by
  unfold evict; (try dsimp only)
  with_reducible repeat' first
    | assumption | apply writeParts_keeps | apply State.onWg_keeps | apply spillFault_keeps | apply pageRequest_keeps
    | refine Keeps.of_snd ?_ (by assumption) | split

theorem evictLoop_keeps {s0 z3 : State} (z1 z2 : Nat) (hz3 : Keeps s0 z3) : Keeps s0 (evictLoop z1 z2 z3) := by
  induction z1 generalizing z2 z3 with
  | zero => unfold evictLoop; assumption
  | succ n ih =>
    unfold evictLoop; (try dsimp only)
    with_reducible repeat' first | assumption | apply ih | apply evict_keeps | split

theorem makeRoom_keeps {s0 s : State} (core : Nat) (hs : Keeps s0 s) : Keeps s0 (makeRoom s core) := by
  unfold makeRoom
  with_reducible repeat' first | assumption | apply evictLoop_keeps | split

theorem noteUse_keeps {s0 s : State} (t : Thread) (row : Row) (hs : Keeps s0 s) : Keeps s0 (noteUse s t row) := by
  unfold noteUse
  with_reducible repeat' first | assumption | apply State.onWg_keeps | split

theorem makeRooms_keeps {s0 s : State}  (hs : Keeps s0 s) :
    Keeps s0 (makeRooms s) := by
  unfold makeRooms
  with_reducible repeat' first
    | assumption | apply makeRoom_keeps | refine Keeps.of_snd ?_ (by assumption) | apply Keeps.foldl

theorem afterExec_keeps {s0 s : State} (t0 : Thread) (w : Nat) (row : Row) (hs : Keeps s0 s) : Keeps s0 (afterExec t0 w row s) := by
  unfold afterExec
  with_reducible repeat' first
    | assumption | apply makeRooms_keeps | apply uncountIssue_keeps | apply noteUse_keeps | apply State.onCur_keeps
    | refine Keeps.of_snd ?_ (by assumption) | split

theorem countIssue_keeps {s0 s : State} (hs : Keeps s0 s) : Keeps s0 (countIssue s) := by
  unfold countIssue; (try dsimp only)
  with_reducible repeat' first | assumption | apply State.onCur_keeps | fail_if_no_progress (apply Keeps.upd) | split

theorem stepTrap_keeps {s0 s : State} (x : TrapReq) (hs : Keeps s0 s) : Keeps s0 (stepTrap s x) := by
  unfold stepTrap; (try dsimp only)
  with_reducible repeat' first | assumption | apply takeTrap_keeps | fail_if_no_progress (apply Keeps.upd) | split

theorem fetchAbsent_keeps {s0 s : State} (va : Nat) (hs : Keeps s0 s) : KeepsOut s0 (fetchAbsent s va) := by
  unfold fetchAbsent
  with_reducible repeat' first | assumption | apply waitAt_keeps | apply trap_keeps | apply pageRequest_keeps | split

theorem selectNext_keeps {s0 z2 : State} (z1 : List TRef) (hz2 : Keeps s0 z2) : Keeps s0 (selectNext z1 z2) := by
  induction z1 generalizing z2 with
  | nil => unfold selectNext; (with_reducible apply Keeps.upd); assumption
  | cons p ps ih =>
    unfold selectNext
    with_reducible repeat' first | assumption | apply ih | fail_if_no_progress (apply Keeps.upd) | split

theorem rotate_keeps {s0 s : State} (hs : Keeps s0 s) : Keeps s0 (rotate s) := by
  unfold rotate
  with_reducible repeat' first | assumption | apply selectNext_keeps | fail_if_no_progress (apply Keeps.upd) | split

theorem divergeGone_keeps {s0 s : State} (c : Ctx) (core slot : Nat) (hs : Keeps s0 s) :
    Keeps s0 (divergeGone s c core slot) := by
  unfold divergeGone; (try dsimp only)
  with_reducible repeat' first
    | assumption | apply diverge_keeps | refine Keeps.of_snd ?_ (by assumption) | fail_if_no_progress (apply Keeps.upd)
    | split

theorem iDrop_keeps {s0 s : State} (t : Thread) (hs : Keeps s0 s) :
    Keeps s0 (iDrop s t) := by
  unfold iDrop; (try dsimp only)
  with_reducible repeat' first
    | assumption | apply State.onCore_keeps | refine Keeps.of_snd ?_ (by assumption)
    | fail_if_no_progress (apply Keeps.upd)

theorem askSaved_keeps {s0 s : State} (gids : List Nat) (hs : Keeps s0 s) :
    Keeps s0 (askSaved s gids) := by
  unfold askSaved; (try dsimp only)
  with_reducible repeat' first
    | assumption | refine Keeps.of_snd ?_ (by assumption) | fail_if_no_progress (apply Keeps.upd)

theorem migrateDies_keeps {s0 s : State} (cid : Nat) (wl : Fin 4) (w : Worklist) (a b : Fin 4) (n : Nat) (hs : Keeps s0 s) :
    KeepsOut s0 (migrateDies s cid wl w a b n) := by
  unfold migrateDies; (try dsimp only)
  with_reducible repeat' first
    | assumption | apply due_keeps | apply onUnit_keeps | apply KeepsOut.next

theorem migrateOut_keeps {s0 s : State} (cid : Nat) (wl : Fin 4) (w : Worklist) (a : Fin 4) (n : Nat) (hs : Keeps s0 s) :
    KeepsOut s0 (migrateOut s cid wl w a n) := by
  unfold migrateOut
  with_reducible repeat' first
    | assumption | apply due_keeps | apply onUnit_keeps | apply KeepsOut.next

theorem migrateIn_keeps {s0 s : State} (cid : Nat) (wl : Fin 4) (w : Worklist) (b : Fin 4) (n : Nat) (hs : Keeps s0 s) :
    KeepsOut s0 (migrateIn s cid wl w b n) := by
  unfold migrateIn; (try dsimp only)
  with_reducible repeat' first
    | assumption | apply due_keeps | apply onUnit_keeps | apply KeepsOut.next | refine Keeps.of_snd ?_ (by assumption)
    | fail_if_no_progress (apply Keeps.upd) | split

theorem clearRecords_keeps {s0 s : State} (w : Wg) (hs : Keeps s0 s) :
    Keeps s0 (clearRecords s w) := by
  unfold clearRecords
  with_reducible repeat' first
    | assumption | apply engineWrite_keeps | refine Keeps.of_snd ?_ (by assumption) | apply Keeps.foldl | split
    | (intro _; try dsimp only [id])

end Sys2Proof.Machine
end

