-- ==== Sys2Proof/Laws/KeepsEvents.lean ====
section
/-! SUPPORT. One lemma for each event that leaves alone what `Keeps` names. -/

set_option Elab.async false

namespace Sys2Proof.Machine

theorem execIntervalClose_keeps {s0 s : State} (cid : Nat) (hs : Keeps s0 s) : KeepsOut s0 (execIntervalClose cid s) := by
  unfold execIntervalClose
  with_reducible repeat' first | assumption | apply due_keeps | apply closeInterval_keeps | apply KeepsOut.next | split

theorem execRegroupRelease_keeps {s0 s : State} (w : Nat) (target : W64) (hs : Keeps s0 s) :
    KeepsOut s0 (execRegroupRelease w target s) := by
  unfold execRegroupRelease
  with_reducible repeat' first
    | assumption | apply due_keeps | apply State.onThread_keeps | apply KeepsOut.next | apply Keeps.foldl
    | (intro _; try dsimp only [id])

theorem execWorkgroupEnd_keeps {s0 s : State} (w : Nat) (hs : Keeps s0 s) : KeepsOut s0 (execWorkgroupEnd w s) := by
  unfold execWorkgroupEnd; (try dsimp only)
  with_reducible repeat' first
    | assumption | apply due_keeps | apply charge_keeps | apply State.onCtx_keeps | apply State.onWg_keeps | apply State.onGang_keeps
    | apply KeepsOut.next | split

theorem execLaunchDecision_keeps {s0 s : State} (l : Nat) (hs : Keeps s0 s) : KeepsOut s0 (execLaunchDecision l s) := by
  unfold execLaunchDecision
  with_reducible repeat' first
    | assumption | apply due_keeps | apply signalEnd_keeps | apply wake_keeps | apply State.onLaunch_keeps
    | apply State.onQueue_keeps | apply State.onThread_keeps | fail_if_no_progress (apply Keeps.upd) | apply KeepsOut.next | split

theorem execGangPlacement_keeps {s0 s : State} (l gi die cluster first : Nat) (rows : List (List Nat)) (bases : List Nat) (zap : List (Nat × Nat)) (hs : Keeps s0 s) :
    KeepsOut s0 (execGangPlacement l gi die cluster first rows bases zap s) := by
  unfold execGangPlacement; (try dsimp only)
  with_reducible repeat' first
    | assumption | apply refreshDescs_keeps | apply due_keeps | apply State.onCtx_keeps | apply placeMembers_keeps
    | apply State.onLaunch_keeps | apply State.take_keeps | apply clearRecords_keeps | apply notePlaced_keeps
    | apply KeepsOut.next | refine Keeps.of_snd ?_ (by assumption) | fail_if_no_progress (apply Keeps.upd)
    | apply Keeps.foldl | split

theorem execPhaseClean_keeps {s0 s : State} (l : Nat) (hs : Keeps s0 s) : KeepsOut s0 (execPhaseClean l s) := by
  unfold execPhaseClean; (try dsimp only)
  with_reducible repeat' first
    | assumption | apply due_keeps | apply writeBackAll_keeps | apply State.onCtx_keeps | apply State.onLaunch_keeps
    | apply testLaunch_keeps | apply wake_keeps | fail_if_no_progress (apply Keeps.upd) | apply KeepsOut.next | apply Keeps.foldl
    | split | (intro _; try dsimp only [id])

theorem execGangRetire_keeps {s0 s : State} (gid : Nat) (hs : Keeps s0 s) : KeepsOut s0 (execGangRetire gid s) := by
  unfold execGangRetire
  with_reducible repeat' first
    | assumption | apply due_keeps | apply freeSlot_keeps | apply dropGang_keeps | apply State.onLaunch_keeps | apply testIdle_keeps
    | apply testLaunch_keeps | apply KeepsOut.next | split

theorem execAgeCap_keeps {s0 s : State} (t : TRef) (hs : Keeps s0 s) : KeepsOut s0 (execAgeCap t s) := by
  unfold execAgeCap
  with_reducible repeat' first | assumption | apply due_keeps | apply State.onCore_keeps | apply KeepsOut.next | split

theorem execLoadReturn_keeps {s0 s : State} (t : TRef) (n : Nat) (ecc : Bool) (hs : Keeps s0 s) :
    KeepsOut s0 (execLoadReturn t n ecc s) := by
  unfold execLoadReturn
  with_reducible repeat' first
    | assumption | apply performMop_keeps | apply poisonAt_keeps | split | (intro _; try dsimp only [id])

theorem execStorePerformed_keeps {s0 s : State} (t : TRef) (n : Nat) (hs : Keeps s0 s) : KeepsOut s0 (execStorePerformed t n s) := by
  unfold execStorePerformed
  with_reducible repeat' first | assumption | apply performMop_keeps | (intro _; try dsimp only [id])

theorem hopError_keeps {s0 s : State} (core cid line : Nat) (hs : Keeps s0 s) : Keeps s0 (hopError s core cid line) := by
  unfold hopError; (try dsimp only)
  with_reducible repeat' first
    | assumption | apply poisonAt_keeps | fail_if_no_progress (apply Keeps.upd) | split

theorem execL1Eviction_keeps {s0 s : State} (core cid line : Nat) (hs : Keeps s0 s) : KeepsOut s0 (execL1Eviction core cid line s) := by
  unfold execL1Eviction; (try dsimp only)
  with_reducible repeat' first
    | assumption | apply hopError_keeps | apply due_keeps | apply writeBackAll_keeps | apply KeepsOut.next

theorem execFenceComplete_keeps {s0 s : State} (t : TRef) (hs : Keeps s0 s) : KeepsOut s0 (execFenceComplete t s) := by
  unfold execFenceComplete
  with_reducible repeat' first
    | assumption | apply due_keeps | apply gateTake_keeps | apply finishFence_keeps | apply logWin_keeps | apply KeepsOut.next
    | refine Keeps.of_fst ?_ (by assumption) | split

theorem execFenceRollback_keeps {s0 s : State} (t : TRef) (hs : Keeps s0 s) : KeepsOut s0 (execFenceRollback t s) := by
  unfold execFenceRollback
  with_reducible repeat' first | assumption | apply due_keeps | apply rollBack_keeps | apply KeepsOut.next | split

theorem execTokenComplete_keeps {s0 s : State} (t : TRef) (seq : Nat) (hs : Keeps s0 s) : KeepsOut s0 (execTokenComplete t seq s) := by
  unfold execTokenComplete
  with_reducible repeat' first | assumption | apply due_keeps | apply finishToken_keeps | apply KeepsOut.next | split

theorem execPageWalk_keeps {s0 s : State} (core cid va : Nat) (hs : Keeps s0 s) : KeepsOut s0 (execPageWalk core cid va s) := by
  unfold execPageWalk
  with_reducible repeat' first | assumption | apply due_keeps | apply xlate_keeps | apply KeepsOut.next

theorem execPageRequest_keeps {s0 s : State} (rid : Nat) (hs : Keeps s0 s) : KeepsOut s0 (execPageRequest rid s) := by
  unfold execPageRequest
  with_reducible repeat' first
    | assumption | apply due_keeps | apply devPut_keeps | apply State.drainEgress_keeps | apply State.onCtx_keeps
    | apply KeepsOut.next | split

theorem execPagerResponse_keeps {s0 s : State} (cid : Nat) (hs : Keeps s0 s) : KeepsOut s0 (execPagerResponse cid s) := by
  unfold execPagerResponse
  with_reducible repeat' first
    | assumption | apply due_keeps | apply devPut_keeps | apply answerReq_keeps | apply KeepsOut.next | split

theorem execKill_keeps {s0 s : State} (cid : Nat) (w : Option Nat) (hs : Keeps s0 s) : KeepsOut s0 (execKill cid w s) := by
  unfold execKill
  with_reducible repeat' first
    | assumption | apply killCtx_keeps | apply killSaved_keeps | apply due_keeps | apply killWg_keeps | apply KeepsOut.next | split

theorem execCopyTakeEntry_keeps {s0 s : State} (w : Nat) (hs : Keeps s0 s) : KeepsOut s0 (execCopyTakeEntry w s) := by
  unfold execCopyTakeEntry; (try dsimp only)
  with_reducible repeat' first
    | assumption | apply due_keeps | apply acquire_keeps | apply State.onWg_keeps | apply copyFault_keeps
    | apply takeErr_keeps | apply setHead_keeps | apply KeepsOut.next | refine Keeps.of_snd ?_ (by assumption)
    | fail_if_no_progress (apply Keeps.upd) | split

theorem execCopy_keeps {s0 s : State} (w : Nat) (ch : Fin 4) (hs : Keeps s0 s) : KeepsOut s0 (execCopy w ch s) := by
  unfold execCopy
  with_reducible repeat' first | assumption | apply runChannel_keeps

theorem execGather_keeps {s0 s : State} (w : Nat) (ch : Fin 4) (hs : Keeps s0 s) : KeepsOut s0 (execGather w ch s) := by
  unfold execGather
  with_reducible repeat' first | assumption | apply runChannel_keeps

theorem execFill_keeps {s0 s : State} (w : Nat) (ch : Fin 4) (hs : Keeps s0 s) : KeepsOut s0 (execFill w ch s) := by
  unfold execFill
  with_reducible repeat' first | assumption | apply runChannel_keeps

theorem execConvert_keeps {s0 s : State} (w : Nat) (ch : Fin 4) (hs : Keeps s0 s) : KeepsOut s0 (execConvert w ch s) := by
  unfold execConvert
  with_reducible repeat' first | assumption | apply runChannel_keeps

theorem execConvertout_keeps {s0 s : State} (w : Nat) (ch : Fin 4) (hs : Keeps s0 s) : KeepsOut s0 (execConvertout w ch s) := by
  unfold execConvertout
  with_reducible repeat' first | assumption | apply runChannel_keeps

theorem execMmaEntry_keeps {s0 s : State} (w : Nat) (hs : Keeps s0 s) : KeepsOut s0 (execMmaEntry w s) := by
  unfold execMmaEntry
  with_reducible repeat' first
    | assumption | apply onEntry_keeps | apply onHead_keeps | apply beginMma_keeps | apply due_keeps | apply mmaStep_keeps
    | apply KeepsOut.next | split | (intro _; try dsimp only [id])

theorem execMdrainEntry_keeps {s0 s : State} (w : Nat) (hs : Keeps s0 s) : KeepsOut s0 (execMdrainEntry w s) := by
  unfold execMdrainEntry
  with_reducible repeat' first
    | assumption | apply onEntry_keeps | apply due_keeps | apply drainRow_keeps | apply onHead_keeps | apply KeepsOut.next | split
    | (intro _; try dsimp only [id])

theorem execMctlEntry_keeps {s0 s : State} (w : Nat) (hs : Keeps s0 s) : KeepsOut s0 (execMctlEntry w s) := by
  unfold execMctlEntry
  with_reducible repeat' first
    | assumption | apply onEntry_keeps | apply due_keeps | apply onHead_keeps | apply zeroSlots_keeps | apply State.onWg_keeps
    | apply wake_keeps | apply onSlot_keeps | apply KeepsOut.next | split | (intro _; try dsimp only [id])

theorem execMatrixEntryComplete_keeps {s0 s : State} (w : Nat) (hs : Keeps s0 s) : KeepsOut s0 (execMatrixEntryComplete w s) := by
  unfold execMatrixEntryComplete
  with_reducible repeat' first
    | assumption | apply onEntry_keeps | apply due_keeps | apply State.onWg_keeps | apply KeepsOut.next | (intro _; try dsimp only [id])

theorem execMmaResume_keeps {s0 s : State} (w : Nat) (hs : Keeps s0 s) : KeepsOut s0 (execMmaResume w s) := by
  unfold execMmaResume
  with_reducible repeat' first | assumption | apply due_keeps | apply onHead_keeps | apply KeepsOut.next | split

theorem execRegionLoad_keeps {s0 s : State} (core cid region : Nat) (hs : Keeps s0 s) :
    KeepsOut s0 (execRegionLoad core cid region s) := by
  unfold execRegionLoad
  with_reducible repeat' first
    | assumption | apply due_keeps | apply fetchRegion_keeps | apply makeResident_keeps | apply State.onThread_keeps
    | apply KeepsOut.next | refine Keeps.of_snd ?_ (by assumption) | split

theorem execSurrogateEvaluation_keeps {s0 s : State} (core n : Nat) (hs : Keeps s0 s) :
    KeepsOut s0 (execSurrogateEvaluation core n s) := by
  unfold execSurrogateEvaluation
  with_reducible repeat' first
    | assumption | apply finishEval_keeps | apply State.onCore_keeps | apply KeepsOut.next | split

theorem execRestorationStart_keeps {s0 s : State} (core n : Nat) (hs : Keeps s0 s) : KeepsOut s0 (execRestorationStart core n s) := by
  unfold execRestorationStart
  with_reducible repeat' first
    | assumption | apply due_keeps | apply State.onCore_keeps | fail_if_no_progress (apply Keeps.upd) | apply KeepsOut.next | split

theorem execViolationReport_keeps {s0 s : State} (n : Nat) (hs : Keeps s0 s) : KeepsOut s0 (execViolationReport n s) := by
  unfold execViolationReport
  with_reducible repeat' first
    | assumption | apply countViolation_keeps | apply KeepsOut.next | refine Keeps.of_snd ?_ (by assumption)
    | fail_if_no_progress (apply Keeps.upd) | split

theorem execDisableApply_keeps {s0 s : State} (core cid region : Nat) (hs : Keeps s0 s) :
    KeepsOut s0 (execDisableApply core cid region s) := by
  unfold execDisableApply
  with_reducible repeat' first | assumption | apply applyBroadcast_keeps

theorem execEnableApply_keeps {s0 s : State} (core cid region : Nat) (hs : Keeps s0 s) :
    KeepsOut s0 (execEnableApply core cid region s) := by
  unfold execEnableApply
  with_reducible repeat' first | assumption | apply applyBroadcast_keeps

theorem execCounterBlockWrite_keeps {s0 s : State} (cid region : Nat) (hs : Keeps s0 s) :
    KeepsOut s0 (execCounterBlockWrite cid region s) := by
  unfold execCounterBlockWrite
  with_reducible repeat' first | assumption | apply writeBlock_keeps | apply KeepsOut.next

theorem execFloorRefresh_keeps {s0 s : State} (cid : Nat) (wl : Fin 4) (hs : Keeps s0 s) : KeepsOut s0 (execFloorRefresh cid wl s) := by
  unfold execFloorRefresh
  with_reducible repeat' first | assumption | apply due_keeps | apply wlRefresh_keeps | apply KeepsOut.next | split

theorem execGroupFloorRefresh_keeps {s0 s : State} (cid : Nat) (wl : Fin 4) (peer : Option Nat) (quiet : Bool) (hs : Keeps s0 s) :
    KeepsOut s0 (execGroupFloorRefresh cid wl peer quiet s) := by
  unfold execGroupFloorRefresh
  with_reducible repeat' first
    | assumption | apply due_keeps | apply State.onWl_keeps | apply wlRefresh_keeps | apply KeepsOut.next | split

theorem execFloorDropAck_keeps {s0 s : State} (t : TRef) (hs : Keeps s0 s) : KeepsOut s0 (execFloorDropAck t s) := by
  unfold execFloorDropAck
  with_reducible repeat' first
    | assumption | apply State.onWl_keeps | apply placeWaiting_keeps | apply State.onThread_keeps | apply KeepsOut.next | split

theorem execWlpushPlace_keeps {s0 s : State} (t : TRef) (hs : Keeps s0 s) : KeepsOut s0 (execWlpushPlace t s) := by
  unfold execWlpushPlace
  with_reducible repeat' first | assumption | apply placeWaiting_keeps | apply KeepsOut.next | split

theorem execWlpopServe_keeps {s0 s : State} (t : TRef) (n : Nat) (hs : Keeps s0 s) : KeepsOut s0 (execWlpopServe t n s) := by
  unfold execWlpopServe
  with_reducible repeat' first
    | assumption | apply due_keeps | apply popEnded_keeps | apply askTrap_keeps | apply serve_keeps
    | refine KeepsPop.found ?_ _ _ (by assumption) | refine KeepsTake.page ?_ _ _ (by assumption)
    | refine KeepsTake.lost ?_ _ (by assumption) | apply KeepsOut.next | split

theorem execFrontBufferSend_keeps {s0 s : State} (core n : Nat) (hs : Keeps s0 s) : KeepsOut s0 (execFrontBufferSend core n s) := by
  unfold execFrontBufferSend
  with_reducible repeat' first
    | assumption | apply due_keeps | apply sendRec_keeps | apply KeepsOut.next | refine Keeps.of_snd ?_ (by assumption)
    | split

theorem execChunkSpill_keeps {s0 s : State} (cid : Nat) (wl : Fin 4) (die b : Nat) (hs : Keeps s0 s) :
    KeepsOut s0 (execChunkSpill cid wl die b s) := by
  unfold execChunkSpill
  with_reducible repeat' first
    | assumption | apply due_keeps | apply freeBytes_keeps | apply onUnit_keeps | apply State.put_keeps | apply pageRequest_keeps
    | apply chunkFault_keeps | apply KeepsOut.next | split

theorem execChunkReadBack_keeps {s0 s : State} (cid : Nat) (wl : Fin 4) (die n : Nat) (hs : Keeps s0 s) :
    KeepsOut s0 (execChunkReadBack cid wl die n s) := by
  unfold execChunkReadBack; (try dsimp only)
  with_reducible repeat' first
    | assumption | apply due_keeps | apply onUnit_keeps | apply pageRequest_keeps | apply chunkFault_keeps | apply KeepsOut.next | split

theorem execChunkMigrate_keeps {s0 s : State} (cid : Nat) (wl : Fin 4) (src dst count : Nat) (hs : Keeps s0 s) :
    KeepsOut s0 (execChunkMigrate cid wl src dst count s) := by
  unfold execChunkMigrate; (try dsimp only)
  with_reducible repeat' first
    | assumption | apply migrateOut_keeps | apply migrateIn_keeps | apply migrateDies_keeps | apply KeepsOut.next
    | refine Keeps.of_snd ?_ (by assumption) | split

theorem execSpillRefill_keeps {s0 s : State} (w : Nat) (r : VXReg) (hs : Keeps s0 s) : KeepsOut s0 (execSpillRefill w r s) := by
  unfold execSpillRefill
  with_reducible repeat' first | assumption | apply refill_keeps | apply KeepsOut.next | split

theorem execContextSelect_keeps {s0 s : State} (cid : Nat) (hs : Keeps s0 s) : KeepsOut s0 (execContextSelect cid s) := by
  unfold execContextSelect
  with_reducible repeat' first | assumption | apply due_keeps | apply enterRunning_keeps | apply KeepsOut.next

theorem execQueueNotify_keeps {s0 s : State} (f q : Nat) (tail : BitVec 32) (hs : Keeps s0 s) :
    KeepsOut s0 (execQueueNotify f q tail s) := by
  unfold execQueueNotify
  with_reducible repeat' first | assumption | apply due_keeps | apply State.onQueue_keeps | apply KeepsOut.next | split

theorem execPacketStart_keeps {s0 s : State} (c q : Nat) (hs : Keeps s0 s) : KeepsOut s0 (execPacketStart c q s) := by
  unfold execPacketStart; (try dsimp only)
  with_reducible repeat' first
    | assumption | apply refreshDescs_keeps | apply due_keeps | apply State.setRound_keeps | fail_if_no_progress (apply Keeps.upd)
    | apply KeepsOut.next | split

theorem execQwaitsigResume_keeps {s0 s : State} (q : Nat) (hs : Keeps s0 s) : KeepsOut s0 (execQwaitsigResume q s) := by
  unfold execQwaitsigResume
  with_reducible repeat' first
    | assumption | apply due_keeps | apply xlate_keeps | apply waitFault_keeps | apply State.take_keeps | apply resumeQueue_keeps
    | apply KeepsOut.next | exact KeepsOut.fault _ | refine Keeps.of_snd ?_ (by assumption) | split

theorem execPreemptRequest_keeps {s0 s : State} (gids : List Nat) (bound : Option Nat) (hs : Keeps s0 s) :
    KeepsOut s0 (execPreemptRequest gids bound s) := by
  unfold execPreemptRequest
  with_reducible repeat' first
    | assumption | apply preempt_keeps | apply askSaved_keeps | apply KeepsOut.next
    | refine Keeps.of_snd ?_ (by assumption) | apply Keeps.foldl | split | (intro _; try dsimp only [id])

theorem execDrainExpire_keeps {s0 s : State} (gid : Nat) (hs : Keeps s0 s) : KeepsOut s0 (execDrainExpire gid s) := by
  unfold execDrainExpire
  with_reducible repeat' first | assumption | apply due_keeps | apply State.onGang_keeps | apply KeepsOut.next | split

theorem execGangSave_keeps {s0 s : State} (gid : Nat) (hs : Keeps s0 s) : KeepsOut s0 (execGangSave gid s) := by
  unfold execGangSave; (try dsimp only)
  with_reducible repeat' first
    | assumption | apply due_keeps | apply rollBack_keeps | apply saveGang_keeps | apply KeepsOut.next | apply Keeps.foldl | split
    | (intro _; try dsimp only [id])

theorem execGangRestore_keeps {s0 s : State} (slot die cluster : Nat) (rows : List (List Nat)) (bases : List Nat) (hs : Keeps s0 s) :
    KeepsOut s0 (execGangRestore slot die cluster rows bases s) := by
  unfold execGangRestore; (try dsimp only)
  with_reducible repeat' first
    | assumption | apply refreshDescs_keeps | apply switchFail_keeps | apply postEvent_keeps | apply due_keeps
    | apply restoreGang_keeps | apply killSaved_keeps | apply KeepsOut.next | refine Keeps.of_snd ?_ (by assumption)
    | split

theorem execSwitchTick_keeps {s0 s : State} (hs : Keeps s0 s) : KeepsOut s0 (execSwitchTick s) := by
  unfold execSwitchTick; (try dsimp only)
  with_reducible repeat' first
    | assumption | apply switchOut_keeps | apply enterRunning_keeps | apply KeepsOut.next
    | refine Keeps.of_snd ?_ (by assumption) | fail_if_no_progress (apply Keeps.upd) | apply Keeps.foldl | split
    | (intro _; try dsimp only [id])

theorem execSwitchComplete_keeps {s0 s : State} (hs : Keeps s0 s) : KeepsOut s0 (execSwitchComplete s) := by
  unfold execSwitchComplete
  with_reducible repeat' first
    | assumption | apply switchLeave_keeps | apply postEvent_keeps | fail_if_no_progress (apply Keeps.upd) | apply KeepsOut.next
    | apply Keeps.foldl | split | (intro _; try dsimp only [id])

theorem execHaltRequest_keeps {s0 s : State} (ts : List TRef) (hs : Keeps s0 s) : KeepsOut s0 (execHaltRequest ts s) := by
  unfold execHaltRequest
  with_reducible repeat' first
    | assumption | apply State.onThread_keeps | apply State.onSaved_keeps | apply KeepsOut.next
    | refine Keeps.of_snd ?_ (by assumption) | apply Keeps.foldl | split | (intro _; try dsimp only [id])

theorem execThreadHalt_keeps {s0 s : State} (t : TRef) (hs : Keeps s0 s) : KeepsOut s0 (execThreadHalt t s) := by
  unfold execThreadHalt
  with_reducible repeat' first
    | assumption | apply haltSaved_keeps | apply due_keeps | apply haltThread_keeps | apply KeepsOut.next
    | refine Keeps.of_snd ?_ (by assumption) | split

theorem execResumeRequest_keeps {s0 s : State} (ts : List TRef) (hs : Keeps s0 s) : KeepsOut s0 (execResumeRequest ts s) := by
  unfold execResumeRequest; (try dsimp only)
  with_reducible repeat' first
    | assumption | apply State.onThread_keeps | apply State.onSaved_keeps | apply KeepsOut.next
    | refine Keeps.of_snd ?_ (by assumption) | apply Keeps.foldl | split | (intro _; try dsimp only [id])

theorem execSample_keeps {s0 s : State} (core : Nat) (hs : Keeps s0 s) : KeepsOut s0 (execSample core s) := by
  unfold execSample
  with_reducible repeat' first
    | assumption | apply due_keeps | apply ringPost_keeps | apply State.onCore_keeps | apply State.onThread_keeps
    | apply KeepsOut.next | split

theorem execCheckpoint_keeps {s0 s : State} (cid : Nat) (hs : Keeps s0 s) : KeepsOut s0 (execCheckpoint cid s) := by
  unfold execCheckpoint; (try dsimp only)
  with_reducible repeat' first
    | assumption | apply due_keeps | apply rollBack_keeps | apply State.onCtx_keeps | apply takeCheckpoint_keeps
    | apply KeepsOut.next | apply Keeps.foldl | split | (intro _; try dsimp only [id])

theorem execGatePass_keeps {s0 s : State} (t : TRef) (hs : Keeps s0 s) : KeepsOut s0 (execGatePass t s) := by
  unfold execGatePass
  with_reducible repeat' first
    | assumption | apply ingressNext_keeps | apply due_keeps | apply divergeAt_keeps | apply divergeGone_keeps | apply gateTake_keeps
    | apply State.onThread_keeps | apply KeepsOut.next | exact KeepsOpt.none | apply KeepsOpt.some | apply KeepsOpt.findSome
    | apply Keeps.getD | split | fail_if_no_progress (dsimp only [id]) | (intro _; try dsimp only [id])

theorem execCollChunk_keeps {s0 s : State} (cid g k : Nat) (peers : List (List (BitVec 8))) (hs : Keeps s0 s) :
    KeepsOut s0 (execCollChunk cid g k peers s) := by
  unfold execCollChunk
  with_reducible repeat' first
    | assumption | apply due_keeps | apply devPut_keeps | apply State.onCtx_keeps | fail_if_no_progress (apply Keeps.upd)
    | apply KeepsOut.next | split

theorem execCollectiveComplete_keeps {s0 s : State} (cid g k : Nat) (ok : Bool) (hs : Keeps s0 s) :
    KeepsOut s0 (execCollectiveComplete cid g k ok s) := by
  unfold execCollectiveComplete
  with_reducible repeat' first
    | assumption | apply due_keeps | apply dropColl_keeps | apply collFail_keeps | apply KeepsOut.next | split

theorem execIngressWrite_keeps {s0 s : State} (f va : Nat) (bytes : List (BitVec 8)) (hs : Keeps s0 s) :
    KeepsOut s0 (execIngressWrite f va bytes s) := by
  unfold execIngressWrite
  with_reducible repeat' first
    | assumption | apply due_keeps | apply ingressFault_keeps | apply State.drainEgress_keeps | apply ingressPieces_keeps
    | apply KeepsOut.next | split

theorem execIngressRead_keeps {s0 s : State} (f va n : Nat) (hs : Keeps s0 s) : KeepsOut s0 (execIngressRead f va n s) := by
  unfold execIngressRead
  with_reducible repeat' first
    | assumption | apply due_keeps | apply ingressFault_keeps | apply State.take_keeps | fail_if_no_progress (apply Keeps.upd)
    | apply KeepsOut.next | apply Keeps.foldl_snd | split | (intro _; try dsimp only [id])

theorem execFunctionLevelReset_keeps {s0 s : State} (f : Nat) (hs : Keeps s0 s) : KeepsOut s0 (execFunctionLevelReset f s) := by
  unfold execFunctionLevelReset
  with_reducible repeat' first
    | assumption | apply State.setQueue_keeps | apply stopPacket_keeps | apply killCtx_keeps | apply destroyCtx_keeps
    | apply KeepsOut.next | apply Keeps.foldl | (intro _; try dsimp only [id])

theorem execAttestationQuote_keeps {s0 s : State} (cid : Nat) (nonce : List (BitVec 8)) (hs : Keeps s0 s) :
    KeepsOut s0 (execAttestationQuote cid nonce s) := by
  unfold execAttestationQuote
  with_reducible repeat' first
    | assumption | apply due_keeps | fail_if_no_progress (apply Keeps.upd) | apply KeepsOut.next | split

theorem execFlitRetry_keeps {s0 s : State} (_port : Fin 36) (hs : Keeps s0 s) : KeepsOut s0 (execFlitRetry _port s) := by
  unfold execFlitRetry
  with_reducible repeat' first | assumption | apply KeepsOut.next

theorem execNgurilIngress_keeps {s0 s : State} (port : Fin 36) (pa : Nat) (acc : PeerAcc) (hs : Keeps s0 s) :
    KeepsOut s0 (execNgurilIngress port pa acc s) := by
  unfold execNgurilIngress
  with_reducible repeat' first
    | assumption | apply due_keeps | apply peerWrite_keeps | fail_if_no_progress (apply Keeps.upd) | apply KeepsOut.next
    | exact KeepsOut.fault _ | split

theorem execInstructionFetch_keeps {s0 s : State} (t : TRef) (hs : Keeps s0 s) : KeepsOut s0 (execInstructionFetch t s) := by
  unfold execInstructionFetch; (try dsimp only)
  with_reducible repeat' first
    | assumption | apply due_keeps | apply fetchInstr_keeps | apply iDrop_keeps | apply trap_keeps | apply takeTrap_keeps
    | apply State.onThread_keeps | apply pageRequest_keeps | apply KeepsOut.next | exact KeepsOut.fault _
    | refine Keeps.of_snd ?_ (by assumption) | fail_if_no_progress (apply Keeps.upd) | split

theorem execResultWriteback_keeps {s0 s : State} (t : TRef) (r : RegName) (hs : Keeps s0 s) :
    KeepsOut s0 (execResultWriteback t r s) := by
  unfold execResultWriteback
  with_reducible repeat' first | assumption | apply State.onThread_keeps | apply KeepsOut.next

end Sys2Proof.Machine
end

