-- ==== Sys2Proof/Laws/KeepsProgram.lean ====
section
/-! SUPPORT. One lemma for each instruction of a program: its meaning leaves alone what `Keeps` names. -/

set_option Elab.async false

namespace Sys2Proof.Machine

theorem execAtomMin_keeps {s0 s : State} (g : Guard) (t : AtomT) (m : MemArg) (oa : OrdArg) (hs : Keeps s0 s) :
    KeepsOut s0 (execAtomMin g t m oa s) := by
  unfold execAtomMin
  with_reducible repeat' first | assumption | apply atomAccess_keeps

theorem execImin_keeps {s0 s : State} (g : Guard) (d : Dst8) (a : Src8) (b : Src5) (hs : Keeps s0 s) :
    KeepsOut s0 (execImin g d a b s) := by
  unfold execImin
  with_reducible repeat' first | assumption | apply laneBin_keeps

theorem execDclass_keeps {s0 s : State} (g : Guard) (d a : XReg) (hs : Keeps s0 s) : KeepsOut s0 (execDclass g d a s) := by
  unfold execDclass
  with_reducible repeat' first | assumption | apply groupUnFl_keeps

theorem execAtomHadd2_keeps {s0 s : State} (g : Guard) (t : Dst8) (m : MemArg) (oa : OrdArg) (hs : Keeps s0 s) :
    KeepsOut s0 (execAtomHadd2 g t m oa s) := by
  unfold execAtomHadd2
  with_reducible repeat' first | assumption | apply atomAccess_keeps

theorem execCvtF16F32_keeps {s0 s : State} (g : Guard) (d : Dst8) (a : Src8) (hs : Keeps s0 s) :
    KeepsOut s0 (execCvtF16F32 g d a s) := by
  unfold execCvtF16F32
  with_reducible repeat' first | assumption | apply laneUnFl_keeps

theorem execRinfo_keeps {s0 s : State} (g : Guard) (xa xb : XReg) (hs : Keeps s0 s) : KeepsOut s0 (execRinfo g xa xb s) := by
  unfold execRinfo
  with_reducible repeat' first
    | assumption | apply guarded_keeps | apply illegal8_keeps | apply State.onRegs_keeps | apply KeepsOut.next | split

theorem execAtomIncw_keeps {s0 s : State} (g : Guard) (t : Dst8) (m : MemArg) (oa : OrdArg) (hs : Keeps s0 s) :
    KeepsOut s0 (execAtomIncw g t m oa s) := by
  unfold execAtomIncw
  with_reducible repeat' first | assumption | apply atomAccess_keeps

theorem execFfma_keeps {s0 s : State} (g : Guard) (d : Dst8) (a : Src8) (b : Src5) (hs : Keeps s0 s) :
    KeepsOut s0 (execFfma g d a b s) := by
  unfold execFfma
  with_reducible repeat' first | assumption | apply laneBinFl_keeps

theorem execStb_keeps {s0 s : State} (g : Guard) (t : Src8) (m : MemArg) (hs : Keeps s0 s) : KeepsOut s0 (execStb g t m s) := by
  unfold execStb
  with_reducible repeat' first | assumption | apply plainStore_keeps

theorem execCollAllgather_keeps {s0 s : State} (g : Guard) (xa xb xc : XReg) (send recv : BitVec 8) (ty : DType) (hs : Keeps s0 s) :
    KeepsOut s0 (execCollAllgather g xa xb xc send recv ty s) := by
  unfold execCollAllgather
  with_reducible repeat' first | assumption | apply coll_keeps

theorem execJmp_keeps {s0 s : State} (g : Guard) (a : XReg) (hs : Keeps s0 s) : KeepsOut s0 (execJmp g a s) := by
  unfold execJmp; (try dsimp only)
  with_reducible repeat' first
    | assumption | apply guarded_keeps | apply trapOf_keeps | apply State.onRegs_keeps | apply KeepsOut.next | split

theorem execIadd_keeps {s0 s : State} (g : Guard) (d : Dst8) (a : Src8) (b : Src5) (hs : Keeps s0 s) :
    KeepsOut s0 (execIadd g d a b s) := by
  unfold execIadd
  with_reducible repeat' first | assumption | apply laneBin_keeps

theorem execIsub_keeps {s0 s : State} (g : Guard) (d : Dst8) (a : Src8) (b : Src5) (hs : Keeps s0 s) :
    KeepsOut s0 (execIsub g d a b s) := by
  unfold execIsub
  with_reducible repeat' first | assumption | apply laneBin_keeps

theorem execImul_keeps {s0 s : State} (g : Guard) (d : Dst8) (a : Src8) (b : Src5) (hs : Keeps s0 s) :
    KeepsOut s0 (execImul g d a b s) := by
  unfold execImul
  with_reducible repeat' first | assumption | apply laneBin_keeps

theorem execImulhs_keeps {s0 s : State} (g : Guard) (d : Dst8) (a : Src8) (b : Src5) (hs : Keeps s0 s) :
    KeepsOut s0 (execImulhs g d a b s) := by
  unfold execImulhs
  with_reducible repeat' first | assumption | apply laneBin_keeps

theorem execImulhn_keeps {s0 s : State} (g : Guard) (d : Dst8) (a : Src8) (b : Src5) (hs : Keeps s0 s) :
    KeepsOut s0 (execImulhn g d a b s) := by
  unfold execImulhn
  with_reducible repeat' first | assumption | apply laneBin_keeps

theorem execImad_keeps {s0 s : State} (g : Guard) (d : Dst8) (a : Src8) (b : Src5) (hs : Keeps s0 s) :
    KeepsOut s0 (execImad g d a b s) := by
  unfold execImad
  with_reducible repeat' first | assumption | apply laneBin_keeps

theorem execIsad_keeps {s0 s : State} (g : Guard) (d : Dst8) (a : Src8) (b : Src5) (hs : Keeps s0 s) :
    KeepsOut s0 (execIsad g d a b s) := by
  unfold execIsad
  with_reducible repeat' first | assumption | apply laneBin_keeps

theorem execImax_keeps {s0 s : State} (g : Guard) (d : Dst8) (a : Src8) (b : Src5) (hs : Keeps s0 s) :
    KeepsOut s0 (execImax g d a b s) := by
  unfold execImax
  with_reducible repeat' first | assumption | apply laneBin_keeps

theorem execNmin_keeps {s0 s : State} (g : Guard) (d : Dst8) (a : Src8) (b : Src5) (hs : Keeps s0 s) :
    KeepsOut s0 (execNmin g d a b s) := by
  unfold execNmin
  with_reducible repeat' first | assumption | apply laneBin_keeps

theorem execNmax_keeps {s0 s : State} (g : Guard) (d : Dst8) (a : Src8) (b : Src5) (hs : Keeps s0 s) :
    KeepsOut s0 (execNmax g d a b s) := by
  unfold execNmax
  with_reducible repeat' first | assumption | apply laneBin_keeps

theorem execAnd_keeps {s0 s : State} (g : Guard) (d : Dst8) (a : Src8) (b : Src5) (hs : Keeps s0 s) :
    KeepsOut s0 (execAnd g d a b s) := by
  unfold execAnd
  with_reducible repeat' first | assumption | apply laneBin_keeps

theorem execOr_keeps {s0 s : State} (g : Guard) (d : Dst8) (a : Src8) (b : Src5) (hs : Keeps s0 s) :
    KeepsOut s0 (execOr g d a b s) := by
  unfold execOr
  with_reducible repeat' first | assumption | apply laneBin_keeps

theorem execXor_keeps {s0 s : State} (g : Guard) (d : Dst8) (a : Src8) (b : Src5) (hs : Keeps s0 s) :
    KeepsOut s0 (execXor g d a b s) := by
  unfold execXor
  with_reducible repeat' first | assumption | apply laneBin_keeps

theorem execAndn_keeps {s0 s : State} (g : Guard) (d : Dst8) (a : Src8) (b : Src5) (hs : Keeps s0 s) :
    KeepsOut s0 (execAndn g d a b s) := by
  unfold execAndn
  with_reducible repeat' first | assumption | apply laneBin_keeps

theorem execShl_keeps {s0 s : State} (g : Guard) (d : Dst8) (a : Src8) (b : Src5) (hs : Keeps s0 s) :
    KeepsOut s0 (execShl g d a b s) := by
  unfold execShl
  with_reducible repeat' first | assumption | apply laneBin_keeps

theorem execShr_keeps {s0 s : State} (g : Guard) (d : Dst8) (a : Src8) (b : Src5) (hs : Keeps s0 s) :
    KeepsOut s0 (execShr g d a b s) := by
  unfold execShr
  with_reducible repeat' first | assumption | apply laneBin_keeps

theorem execSar_keeps {s0 s : State} (g : Guard) (d : Dst8) (a : Src8) (b : Src5) (hs : Keeps s0 s) :
    KeepsOut s0 (execSar g d a b s) := by
  unfold execSar
  with_reducible repeat' first | assumption | apply laneBin_keeps

theorem execBfen_keeps {s0 s : State} (g : Guard) (d : Dst8) (a : Src8) (b : Src5) (hs : Keeps s0 s) :
    KeepsOut s0 (execBfen g d a b s) := by
  unfold execBfen
  with_reducible repeat' first | assumption | apply laneBin_keeps

theorem execBfes_keeps {s0 s : State} (g : Guard) (d : Dst8) (a : Src8) (b : Src5) (hs : Keeps s0 s) :
    KeepsOut s0 (execBfes g d a b s) := by
  unfold execBfes
  with_reducible repeat' first | assumption | apply laneBin_keeps

theorem execBfi_keeps {s0 s : State} (g : Guard) (d : Dst8) (a : Src8) (b : Src5) (hs : Keeps s0 s) :
    KeepsOut s0 (execBfi g d a b s) := by
  unfold execBfi
  with_reducible repeat' first | assumption | apply laneBin_keeps

theorem execPrmt_keeps {s0 s : State} (g : Guard) (d : Dst8) (a : Src8) (b : Src5) (hs : Keeps s0 s) :
    KeepsOut s0 (execPrmt g d a b s) := by
  unfold execPrmt
  with_reducible repeat' first | assumption | apply laneBin_keeps

theorem execCsel_keeps {s0 s : State} (g : Guard) (d : Dst8) (a : Src8) (b : Src5) (hs : Keeps s0 s) :
    KeepsOut s0 (execCsel g d a b s) := by
  unfold execCsel
  with_reducible repeat' first | assumption | apply laneBin_keeps

theorem execMov_keeps {s0 s : State} (g : Guard) (d : Dst8) (a : Src8) (hs : Keeps s0 s) : KeepsOut s0 (execMov g d a s) := by
  unfold execMov
  with_reducible repeat' first | assumption | apply laneUn_keeps

theorem execNot_keeps {s0 s : State} (g : Guard) (d : Dst8) (a : Src8) (hs : Keeps s0 s) : KeepsOut s0 (execNot g d a s) := by
  unfold execNot
  with_reducible repeat' first | assumption | apply laneUn_keeps

theorem execIneg_keeps {s0 s : State} (g : Guard) (d : Dst8) (a : Src8) (hs : Keeps s0 s) : KeepsOut s0 (execIneg g d a s) := by
  unfold execIneg
  with_reducible repeat' first | assumption | apply laneUn_keeps

theorem execIabs_keeps {s0 s : State} (g : Guard) (d : Dst8) (a : Src8) (hs : Keeps s0 s) : KeepsOut s0 (execIabs g d a s) := by
  unfold execIabs
  with_reducible repeat' first | assumption | apply laneUn_keeps

theorem execPopc_keeps {s0 s : State} (g : Guard) (d : Dst8) (a : Src8) (hs : Keeps s0 s) : KeepsOut s0 (execPopc g d a s) := by
  unfold execPopc
  with_reducible repeat' first | assumption | apply laneUn_keeps

theorem execClz_keeps {s0 s : State} (g : Guard) (d : Dst8) (a : Src8) (hs : Keeps s0 s) : KeepsOut s0 (execClz g d a s) := by
  unfold execClz
  with_reducible repeat' first | assumption | apply laneUn_keeps

theorem execCtz_keeps {s0 s : State} (g : Guard) (d : Dst8) (a : Src8) (hs : Keeps s0 s) : KeepsOut s0 (execCtz g d a s) := by
  unfold execCtz
  with_reducible repeat' first | assumption | apply laneUn_keeps

theorem execBrev_keeps {s0 s : State} (g : Guard) (d : Dst8) (a : Src8) (hs : Keeps s0 s) : KeepsOut s0 (execBrev g d a s) := by
  unfold execBrev
  with_reducible repeat' first | assumption | apply laneUn_keeps

theorem execBswap_keeps {s0 s : State} (g : Guard) (d : Dst8) (a : Src8) (hs : Keeps s0 s) : KeepsOut s0 (execBswap g d a s) := by
  unfold execBswap
  with_reducible repeat' first | assumption | apply laneUn_keeps

theorem execSext8_keeps {s0 s : State} (g : Guard) (d : Dst8) (a : Src8) (hs : Keeps s0 s) : KeepsOut s0 (execSext8 g d a s) := by
  unfold execSext8
  with_reducible repeat' first | assumption | apply laneUn_keeps

theorem execSext16_keeps {s0 s : State} (g : Guard) (d : Dst8) (a : Src8) (hs : Keeps s0 s) : KeepsOut s0 (execSext16 g d a s) := by
  unfold execSext16
  with_reducible repeat' first | assumption | apply laneUn_keeps

theorem execZext8_keeps {s0 s : State} (g : Guard) (d : Dst8) (a : Src8) (hs : Keeps s0 s) : KeepsOut s0 (execZext8 g d a s) := by
  unfold execZext8
  with_reducible repeat' first | assumption | apply laneUn_keeps

theorem execZext16_keeps {s0 s : State} (g : Guard) (d : Dst8) (a : Src8) (hs : Keeps s0 s) : KeepsOut s0 (execZext16 g d a s) := by
  unfold execZext16
  with_reducible repeat' first | assumption | apply laneUn_keeps

theorem execFadd_keeps {s0 s : State} (g : Guard) (d : Dst8) (a : Src8) (b : Src5) (hs : Keeps s0 s) :
    KeepsOut s0 (execFadd g d a b s) := by
  unfold execFadd
  with_reducible repeat' first | assumption | apply laneBinFl_keeps

theorem execFsub_keeps {s0 s : State} (g : Guard) (d : Dst8) (a : Src8) (b : Src5) (hs : Keeps s0 s) :
    KeepsOut s0 (execFsub g d a b s) := by
  unfold execFsub
  with_reducible repeat' first | assumption | apply laneBinFl_keeps

theorem execFmul_keeps {s0 s : State} (g : Guard) (d : Dst8) (a : Src8) (b : Src5) (hs : Keeps s0 s) :
    KeepsOut s0 (execFmul g d a b s) := by
  unfold execFmul
  with_reducible repeat' first | assumption | apply laneBinFl_keeps

theorem execFmin_keeps {s0 s : State} (g : Guard) (d : Dst8) (a : Src8) (b : Src5) (hs : Keeps s0 s) :
    KeepsOut s0 (execFmin g d a b s) := by
  unfold execFmin
  with_reducible repeat' first | assumption | apply laneBinFl_keeps

theorem execFmax_keeps {s0 s : State} (g : Guard) (d : Dst8) (a : Src8) (b : Src5) (hs : Keeps s0 s) :
    KeepsOut s0 (execFmax g d a b s) := by
  unfold execFmax
  with_reducible repeat' first | assumption | apply laneBinFl_keeps

theorem execFscale_keeps {s0 s : State} (g : Guard) (d : Dst8) (a : Src8) (b : Src5) (hs : Keeps s0 s) :
    KeepsOut s0 (execFscale g d a b s) := by
  unfold execFscale
  with_reducible repeat' first | assumption | apply laneBinFl_keeps

theorem execFabs_keeps {s0 s : State} (g : Guard) (d : Dst8) (a : Src8) (hs : Keeps s0 s) : KeepsOut s0 (execFabs g d a s) := by
  unfold execFabs
  with_reducible repeat' first | assumption | apply laneUnFl_keeps

theorem execFneg_keeps {s0 s : State} (g : Guard) (d : Dst8) (a : Src8) (hs : Keeps s0 s) : KeepsOut s0 (execFneg g d a s) := by
  unfold execFneg
  with_reducible repeat' first | assumption | apply laneUnFl_keeps

theorem execFrcp_keeps {s0 s : State} (g : Guard) (d : Dst8) (a : Src8) (hs : Keeps s0 s) : KeepsOut s0 (execFrcp g d a s) := by
  unfold execFrcp
  with_reducible repeat' first | assumption | apply laneUnFl_keeps

theorem execFrsq_keeps {s0 s : State} (g : Guard) (d : Dst8) (a : Src8) (hs : Keeps s0 s) : KeepsOut s0 (execFrsq g d a s) := by
  unfold execFrsq
  with_reducible repeat' first | assumption | apply laneUnFl_keeps

theorem execFsqrt_keeps {s0 s : State} (g : Guard) (d : Dst8) (a : Src8) (hs : Keeps s0 s) : KeepsOut s0 (execFsqrt g d a s) := by
  unfold execFsqrt
  with_reducible repeat' first | assumption | apply laneUnFl_keeps

theorem execFexp2_keeps {s0 s : State} (g : Guard) (d : Dst8) (a : Src8) (hs : Keeps s0 s) : KeepsOut s0 (execFexp2 g d a s) := by
  unfold execFexp2
  with_reducible repeat' first | assumption | apply laneUnFl_keeps

theorem execFlog2_keeps {s0 s : State} (g : Guard) (d : Dst8) (a : Src8) (hs : Keeps s0 s) : KeepsOut s0 (execFlog2 g d a s) := by
  unfold execFlog2
  with_reducible repeat' first | assumption | apply laneUnFl_keeps

theorem execFsinr_keeps {s0 s : State} (g : Guard) (d : Dst8) (a : Src8) (hs : Keeps s0 s) : KeepsOut s0 (execFsinr g d a s) := by
  unfold execFsinr
  with_reducible repeat' first | assumption | apply laneUnFl_keeps

theorem execFcosr_keeps {s0 s : State} (g : Guard) (d : Dst8) (a : Src8) (hs : Keeps s0 s) : KeepsOut s0 (execFcosr g d a s) := by
  unfold execFcosr
  with_reducible repeat' first | assumption | apply laneUnFl_keeps

theorem execFtanh_keeps {s0 s : State} (g : Guard) (d : Dst8) (a : Src8) (hs : Keeps s0 s) : KeepsOut s0 (execFtanh g d a s) := by
  unfold execFtanh
  with_reducible repeat' first | assumption | apply laneUnFl_keeps

theorem execFsigm_keeps {s0 s : State} (g : Guard) (d : Dst8) (a : Src8) (hs : Keeps s0 s) : KeepsOut s0 (execFsigm g d a s) := by
  unfold execFsigm
  with_reducible repeat' first | assumption | apply laneUnFl_keeps

theorem execFfloor_keeps {s0 s : State} (g : Guard) (d : Dst8) (a : Src8) (hs : Keeps s0 s) : KeepsOut s0 (execFfloor g d a s) := by
  unfold execFfloor
  with_reducible repeat' first | assumption | apply laneUnFl_keeps

theorem execFceil_keeps {s0 s : State} (g : Guard) (d : Dst8) (a : Src8) (hs : Keeps s0 s) : KeepsOut s0 (execFceil g d a s) := by
  unfold execFceil
  with_reducible repeat' first | assumption | apply laneUnFl_keeps

theorem execFtrunc_keeps {s0 s : State} (g : Guard) (d : Dst8) (a : Src8) (hs : Keeps s0 s) : KeepsOut s0 (execFtrunc g d a s) := by
  unfold execFtrunc
  with_reducible repeat' first | assumption | apply laneUnFl_keeps

theorem execFrint_keeps {s0 s : State} (g : Guard) (d : Dst8) (a : Src8) (hs : Keeps s0 s) : KeepsOut s0 (execFrint g d a s) := by
  unfold execFrint
  with_reducible repeat' first | assumption | apply laneUnFl_keeps

theorem execFfrac_keeps {s0 s : State} (g : Guard) (d : Dst8) (a : Src8) (hs : Keeps s0 s) : KeepsOut s0 (execFfrac g d a s) := by
  unfold execFfrac
  with_reducible repeat' first | assumption | apply laneUnFl_keeps

theorem execFsat_keeps {s0 s : State} (g : Guard) (d : Dst8) (a : Src8) (hs : Keeps s0 s) : KeepsOut s0 (execFsat g d a s) := by
  unfold execFsat
  with_reducible repeat' first | assumption | apply laneUnFl_keeps

theorem execFclass_keeps {s0 s : State} (g : Guard) (d : Dst8) (a : Src8) (hs : Keeps s0 s) : KeepsOut s0 (execFclass g d a s) := by
  unfold execFclass
  with_reducible repeat' first | assumption | apply laneUnFl_keeps

theorem execHadd2_keeps {s0 s : State} (g : Guard) (d : Dst8) (a : Src8) (b : Src5) (hs : Keeps s0 s) :
    KeepsOut s0 (execHadd2 g d a b s) := by
  unfold execHadd2
  with_reducible repeat' first | assumption | apply laneBinFl_keeps

theorem execHmul2_keeps {s0 s : State} (g : Guard) (d : Dst8) (a : Src8) (b : Src5) (hs : Keeps s0 s) :
    KeepsOut s0 (execHmul2 g d a b s) := by
  unfold execHmul2
  with_reducible repeat' first | assumption | apply laneBinFl_keeps

theorem execHfma2_keeps {s0 s : State} (g : Guard) (d : Dst8) (a : Src8) (b : Src5) (hs : Keeps s0 s) :
    KeepsOut s0 (execHfma2 g d a b s) := by
  unfold execHfma2
  with_reducible repeat' first | assumption | apply laneBinFl_keeps

theorem execBfma2_keeps {s0 s : State} (g : Guard) (d : Dst8) (a : Src8) (b : Src5) (hs : Keeps s0 s) :
    KeepsOut s0 (execBfma2 g d a b s) := by
  unfold execBfma2
  with_reducible repeat' first | assumption | apply laneBinFl_keeps

theorem execHmin2_keeps {s0 s : State} (g : Guard) (d : Dst8) (a : Src8) (b : Src5) (hs : Keeps s0 s) :
    KeepsOut s0 (execHmin2 g d a b s) := by
  unfold execHmin2
  with_reducible repeat' first | assumption | apply laneBinFl_keeps

theorem execHmax2_keeps {s0 s : State} (g : Guard) (d : Dst8) (a : Src8) (b : Src5) (hs : Keeps s0 s) :
    KeepsOut s0 (execHmax2 g d a b s) := by
  unfold execHmax2
  with_reducible repeat' first | assumption | apply laneBinFl_keeps

theorem execCvtF32S32_keeps {s0 s : State} (g : Guard) (d : Dst8) (a : Src8) (hs : Keeps s0 s) :
    KeepsOut s0 (execCvtF32S32 g d a s) := by
  unfold execCvtF32S32
  with_reducible repeat' first | assumption | apply laneUnFl_keeps

theorem execCvtF32N32_keeps {s0 s : State} (g : Guard) (d : Dst8) (a : Src8) (hs : Keeps s0 s) :
    KeepsOut s0 (execCvtF32N32 g d a s) := by
  unfold execCvtF32N32
  with_reducible repeat' first | assumption | apply laneUnFl_keeps

theorem execCvtS32F32_keeps {s0 s : State} (g : Guard) (d : Dst8) (a : Src8) (hs : Keeps s0 s) :
    KeepsOut s0 (execCvtS32F32 g d a s) := by
  unfold execCvtS32F32
  with_reducible repeat' first | assumption | apply laneUnFl_keeps

theorem execCvtN32F32_keeps {s0 s : State} (g : Guard) (d : Dst8) (a : Src8) (hs : Keeps s0 s) :
    KeepsOut s0 (execCvtN32F32 g d a s) := by
  unfold execCvtN32F32
  with_reducible repeat' first | assumption | apply laneUnFl_keeps

theorem execCvtS32F32Rn_keeps {s0 s : State} (g : Guard) (d : Dst8) (a : Src8) (hs : Keeps s0 s) :
    KeepsOut s0 (execCvtS32F32Rn g d a s) := by
  unfold execCvtS32F32Rn
  with_reducible repeat' first | assumption | apply laneUnFl_keeps

theorem execCvtF32F16l_keeps {s0 s : State} (g : Guard) (d : Dst8) (a : Src8) (hs : Keeps s0 s) :
    KeepsOut s0 (execCvtF32F16l g d a s) := by
  unfold execCvtF32F16l
  with_reducible repeat' first | assumption | apply laneUnFl_keeps

theorem execCvtF32F16h_keeps {s0 s : State} (g : Guard) (d : Dst8) (a : Src8) (hs : Keeps s0 s) :
    KeepsOut s0 (execCvtF32F16h g d a s) := by
  unfold execCvtF32F16h
  with_reducible repeat' first | assumption | apply laneUnFl_keeps

theorem execCvtBf16F32_keeps {s0 s : State} (g : Guard) (d : Dst8) (a : Src8) (hs : Keeps s0 s) :
    KeepsOut s0 (execCvtBf16F32 g d a s) := by
  unfold execCvtBf16F32
  with_reducible repeat' first | assumption | apply laneUnFl_keeps

theorem execCvtF32Bf16l_keeps {s0 s : State} (g : Guard) (d : Dst8) (a : Src8) (hs : Keeps s0 s) :
    KeepsOut s0 (execCvtF32Bf16l g d a s) := by
  unfold execCvtF32Bf16l
  with_reducible repeat' first | assumption | apply laneUnFl_keeps

theorem execCvtF32Bf16h_keeps {s0 s : State} (g : Guard) (d : Dst8) (a : Src8) (hs : Keeps s0 s) :
    KeepsOut s0 (execCvtF32Bf16h g d a s) := by
  unfold execCvtF32Bf16h
  with_reducible repeat' first | assumption | apply laneUnFl_keeps

theorem execCvtE4m3F32_keeps {s0 s : State} (g : Guard) (d : Dst8) (a : Src8) (hs : Keeps s0 s) :
    KeepsOut s0 (execCvtE4m3F32 g d a s) := by
  unfold execCvtE4m3F32
  with_reducible repeat' first | assumption | apply laneUnFl_keeps

theorem execCvtE5m2F32_keeps {s0 s : State} (g : Guard) (d : Dst8) (a : Src8) (hs : Keeps s0 s) :
    KeepsOut s0 (execCvtE5m2F32 g d a s) := by
  unfold execCvtE5m2F32
  with_reducible repeat' first | assumption | apply laneUnFl_keeps

theorem execCvtF32E4m3_keeps {s0 s : State} (g : Guard) (d : Dst8) (a : Src8) (hs : Keeps s0 s) :
    KeepsOut s0 (execCvtF32E4m3 g d a s) := by
  unfold execCvtF32E4m3
  with_reducible repeat' first | assumption | apply laneUnFl_keeps

theorem execCvtF32E5m2_keeps {s0 s : State} (g : Guard) (d : Dst8) (a : Src8) (hs : Keeps s0 s) :
    KeepsOut s0 (execCvtF32E5m2 g d a s) := by
  unfold execCvtF32E5m2
  with_reducible repeat' first | assumption | apply laneUnFl_keeps

theorem execCvtLns6F32_keeps {s0 s : State} (g : Guard) (d : Dst8) (a : Src8) (hs : Keeps s0 s) :
    KeepsOut s0 (execCvtLns6F32 g d a s) := by
  unfold execCvtLns6F32
  with_reducible repeat' first | assumption | apply laneUnFl_keeps

theorem execCvtF32Lns6_keeps {s0 s : State} (g : Guard) (d : Dst8) (a : Src8) (hs : Keeps s0 s) :
    KeepsOut s0 (execCvtF32Lns6 g d a s) := by
  unfold execCvtF32Lns6
  with_reducible repeat' first | assumption | apply laneUnFl_keeps

theorem execCvtS8F32_keeps {s0 s : State} (g : Guard) (d : Dst8) (a : Src8) (hs : Keeps s0 s) : KeepsOut s0 (execCvtS8F32 g d a s) := by
  unfold execCvtS8F32
  with_reducible repeat' first | assumption | apply laneUnFl_keeps

theorem execCvtN8F32_keeps {s0 s : State} (g : Guard) (d : Dst8) (a : Src8) (hs : Keeps s0 s) : KeepsOut s0 (execCvtN8F32 g d a s) := by
  unfold execCvtN8F32
  with_reducible repeat' first | assumption | apply laneUnFl_keeps

theorem execIcmp_keeps {s0 s : State} (g : Guard) (pd : PReg) (cc : ICond) (a : Src8) (b : Src5) (hs : Keeps s0 s) :
    KeepsOut s0 (execIcmp g pd cc a b s) := by
  unfold execIcmp
  with_reducible repeat' first | assumption | apply predWrite_keeps

theorem execNcmp_keeps {s0 s : State} (g : Guard) (pd : PReg) (cc : ICond) (a : Src8) (b : Src5) (hs : Keeps s0 s) :
    KeepsOut s0 (execNcmp g pd cc a b s) := by
  unfold execNcmp
  with_reducible repeat' first | assumption | apply predWrite_keeps

theorem execFcmp_keeps {s0 s : State} (g : Guard) (pd : PReg) (cc : FCond) (a : Src8) (b : Src5) (hs : Keeps s0 s) :
    KeepsOut s0 (execFcmp g pd cc a b s) := by
  unfold execFcmp
  with_reducible repeat' first | assumption | apply predWrite_keeps

theorem execPlop_keeps {s0 s : State} (g : Guard) (pd pa pb : PReg) (tt : BitVec 4) (hs : Keeps s0 s) :
    KeepsOut s0 (execPlop g pd pa pb tt s) := by
  unfold execPlop
  with_reducible repeat' first | assumption | apply predWrite_keeps

theorem execPtov_keeps {s0 s : State} (g : Guard) (d : Dst8) (hs : Keeps s0 s) : KeepsOut s0 (execPtov g d s) := by
  unfold execPtov
  with_reducible repeat' first | assumption | apply laneWrite_keeps

theorem execVtop_keeps {s0 s : State} (g : Guard) (a : Src8) (hs : Keeps s0 s) : KeepsOut s0 (execVtop g a s) := by
  unfold execVtop
  with_reducible repeat' first | assumption | apply guarded_keeps | apply State.onRegs_keeps | apply KeepsOut.next

theorem execFld_keeps {s0 s : State} (g : Guard) (d : Dst8) (dep : Fin 8) (slot : Fin 1024) (hs : Keeps s0 s) :
    KeepsOut s0 (execFld g d dep slot s) := by
  unfold execFld
  with_reducible repeat' first | assumption | apply slotAccess_keeps

theorem execFst_keeps {s0 s : State} (g : Guard) (a : Src8) (dep : Fin 8) (slot : Fin 1024) (hs : Keeps s0 s) :
    KeepsOut s0 (execFst g a dep slot s) := by
  unfold execFst
  with_reducible repeat' first | assumption | apply slotAccess_keeps

theorem execFadda_keeps {s0 s : State} (g : Guard) (a : Src8) (dep : Fin 8) (slot : Fin 1024) (hs : Keeps s0 s) :
    KeepsOut s0 (execFadda g a dep slot s) := by
  unfold execFadda
  with_reducible repeat' first
    | assumption | apply guarded_keeps | apply outside_keeps | apply settled_keeps | apply slotAccess_keeps

theorem execLdb_keeps {s0 s : State} (g : Guard) (t : Dst8) (m : MemArg) (hs : Keeps s0 s) : KeepsOut s0 (execLdb g t m s) := by
  unfold execLdb
  with_reducible repeat' first | assumption | apply plainLoad_keeps

theorem execLdbs_keeps {s0 s : State} (g : Guard) (t : Dst8) (m : MemArg) (hs : Keeps s0 s) : KeepsOut s0 (execLdbs g t m s) := by
  unfold execLdbs
  with_reducible repeat' first | assumption | apply plainLoad_keeps

theorem execLdh_keeps {s0 s : State} (g : Guard) (t : Dst8) (m : MemArg) (hs : Keeps s0 s) : KeepsOut s0 (execLdh g t m s) := by
  unfold execLdh
  with_reducible repeat' first | assumption | apply plainLoad_keeps

theorem execLdhs_keeps {s0 s : State} (g : Guard) (t : Dst8) (m : MemArg) (hs : Keeps s0 s) : KeepsOut s0 (execLdhs g t m s) := by
  unfold execLdhs
  with_reducible repeat' first | assumption | apply plainLoad_keeps

theorem execLdw_keeps {s0 s : State} (g : Guard) (t : Dst8) (m : MemArg) (hs : Keeps s0 s) : KeepsOut s0 (execLdw g t m s) := by
  unfold execLdw
  with_reducible repeat' first | assumption | apply plainLoad_keeps

theorem execLdd_keeps {s0 s : State} (g : Guard) (t : VReg) (m : MemArg) (hs : Keeps s0 s) : KeepsOut s0 (execLdd g t m s) := by
  unfold execLdd
  with_reducible repeat' first | assumption | apply plainLoad_keeps

theorem execLdq_keeps {s0 s : State} (g : Guard) (t : VReg) (m : MemArg) (hs : Keeps s0 s) : KeepsOut s0 (execLdq g t m s) := by
  unfold execLdq
  with_reducible repeat' first | assumption | apply plainLoad_keeps

theorem execLdx_keeps {s0 s : State} (g : Guard) (t : LdxT) (m : MemArg) (scope : Scope) (acq : Bool) (hint : Hint) (hs : Keeps s0 s) :
    KeepsOut s0 (execLdx g t m scope acq hint s) := by
  unfold execLdx
  with_reducible repeat' first | assumption | apply lmAccess_keeps

theorem execSth_keeps {s0 s : State} (g : Guard) (t : Src8) (m : MemArg) (hs : Keeps s0 s) : KeepsOut s0 (execSth g t m s) := by
  unfold execSth
  with_reducible repeat' first | assumption | apply plainStore_keeps

theorem execStw_keeps {s0 s : State} (g : Guard) (t : Src8) (m : MemArg) (hs : Keeps s0 s) : KeepsOut s0 (execStw g t m s) := by
  unfold execStw
  with_reducible repeat' first | assumption | apply plainStore_keeps

theorem execStd_keeps {s0 s : State} (g : Guard) (t : VReg) (m : MemArg) (hs : Keeps s0 s) : KeepsOut s0 (execStd g t m s) := by
  unfold execStd
  with_reducible repeat' first | assumption | apply plainStore_keeps

theorem execStq_keeps {s0 s : State} (g : Guard) (t : VReg) (m : MemArg) (hs : Keeps s0 s) : KeepsOut s0 (execStq g t m s) := by
  unfold execStq
  with_reducible repeat' first | assumption | apply plainStore_keeps

theorem execStx_keeps {s0 s : State} (g : Guard) (t : StxT) (m : MemArg) (scope : Scope) (rel : Bool) (hint : Hint) (hs : Keeps s0 s) :
    KeepsOut s0 (execStx g t m scope rel hint s) := by
  unfold execStx
  with_reducible repeat' first
    | assumption | apply lmAccess_keeps | apply guarded_keeps | apply outside_keeps | apply settled_keeps | split

theorem execAtomAdd_keeps {s0 s : State} (g : Guard) (t : AtomT) (m : MemArg) (oa : OrdArg) (hs : Keeps s0 s) :
    KeepsOut s0 (execAtomAdd g t m oa s) := by
  unfold execAtomAdd
  with_reducible repeat' first | assumption | apply atomAccess_keeps

theorem execAtomMax_keeps {s0 s : State} (g : Guard) (t : AtomT) (m : MemArg) (oa : OrdArg) (hs : Keeps s0 s) :
    KeepsOut s0 (execAtomMax g t m oa s) := by
  unfold execAtomMax
  with_reducible repeat' first | assumption | apply atomAccess_keeps

theorem execAtomAnd_keeps {s0 s : State} (g : Guard) (t : AtomT) (m : MemArg) (oa : OrdArg) (hs : Keeps s0 s) :
    KeepsOut s0 (execAtomAnd g t m oa s) := by
  unfold execAtomAnd
  with_reducible repeat' first | assumption | apply atomAccess_keeps

theorem execAtomOr_keeps {s0 s : State} (g : Guard) (t : AtomT) (m : MemArg) (oa : OrdArg) (hs : Keeps s0 s) :
    KeepsOut s0 (execAtomOr g t m oa s) := by
  unfold execAtomOr
  with_reducible repeat' first | assumption | apply atomAccess_keeps

theorem execAtomXor_keeps {s0 s : State} (g : Guard) (t : AtomT) (m : MemArg) (oa : OrdArg) (hs : Keeps s0 s) :
    KeepsOut s0 (execAtomXor g t m oa s) := by
  unfold execAtomXor
  with_reducible repeat' first | assumption | apply atomAccess_keeps

theorem execAtomExch_keeps {s0 s : State} (g : Guard) (t : AtomT) (m : MemArg) (oa : OrdArg) (hs : Keeps s0 s) :
    KeepsOut s0 (execAtomExch g t m oa s) := by
  unfold execAtomExch
  with_reducible repeat' first | assumption | apply atomAccess_keeps

theorem execAtomCas_keeps {s0 s : State} (g : Guard) (t : AtomT) (m : MemArg) (oa : OrdArg) (c : CasC) (hs : Keeps s0 s) :
    KeepsOut s0 (execAtomCas g t m oa c s) := by
  unfold execAtomCas
  with_reducible repeat' first | assumption | apply atomAccess_keeps

theorem execAtomFadd_keeps {s0 s : State} (g : Guard) (t : Dst8) (m : MemArg) (oa : OrdArg) (hs : Keeps s0 s) :
    KeepsOut s0 (execAtomFadd g t m oa s) := by
  unfold execAtomFadd
  with_reducible repeat' first | assumption | apply atomAccess_keeps

theorem execNop_keeps {s0 s : State} (_bits : BitVec 25) (hs : Keeps s0 s) : KeepsOut s0 (execNop _bits s) := by
  unfold execNop
  with_reducible repeat' first | assumption | apply State.adv_keeps | apply KeepsOut.next

theorem execWadd_keeps {s0 s : State} (g : Guard) (d a : XReg) (b : SrcB9) (hs : Keeps s0 s) : KeepsOut s0 (execWadd g d a b s) := by
  unfold execWadd
  with_reducible repeat' first | assumption | apply groupBin_keeps

theorem execWsub_keeps {s0 s : State} (g : Guard) (d a : XReg) (b : SrcB9) (hs : Keeps s0 s) : KeepsOut s0 (execWsub g d a b s) := by
  unfold execWsub
  with_reducible repeat' first | assumption | apply groupBin_keeps

theorem execWmul_keeps {s0 s : State} (g : Guard) (d a : XReg) (b : SrcB9) (hs : Keeps s0 s) : KeepsOut s0 (execWmul g d a b s) := by
  unfold execWmul
  with_reducible repeat' first | assumption | apply groupBin_keeps

theorem execWmulhs_keeps {s0 s : State} (g : Guard) (d a : XReg) (b : SrcB9) (hs : Keeps s0 s) :
    KeepsOut s0 (execWmulhs g d a b s) := by
  unfold execWmulhs
  with_reducible repeat' first | assumption | apply groupBin_keeps

theorem execWmulhn_keeps {s0 s : State} (g : Guard) (d a : XReg) (b : SrcB9) (hs : Keeps s0 s) :
    KeepsOut s0 (execWmulhn g d a b s) := by
  unfold execWmulhn
  with_reducible repeat' first | assumption | apply groupBin_keeps

theorem execWand_keeps {s0 s : State} (g : Guard) (d a : XReg) (b : SrcB9) (hs : Keeps s0 s) : KeepsOut s0 (execWand g d a b s) := by
  unfold execWand
  with_reducible repeat' first | assumption | apply groupBin_keeps

theorem execWor_keeps {s0 s : State} (g : Guard) (d a : XReg) (b : SrcB9) (hs : Keeps s0 s) : KeepsOut s0 (execWor g d a b s) := by
  unfold execWor
  with_reducible repeat' first | assumption | apply groupBin_keeps

theorem execWxor_keeps {s0 s : State} (g : Guard) (d a : XReg) (b : SrcB9) (hs : Keeps s0 s) : KeepsOut s0 (execWxor g d a b s) := by
  unfold execWxor
  with_reducible repeat' first | assumption | apply groupBin_keeps

theorem execWshl_keeps {s0 s : State} (g : Guard) (d a : XReg) (b : SrcB9) (hs : Keeps s0 s) : KeepsOut s0 (execWshl g d a b s) := by
  unfold execWshl
  with_reducible repeat' first | assumption | apply groupBin_keeps

theorem execWshr_keeps {s0 s : State} (g : Guard) (d a : XReg) (b : SrcB9) (hs : Keeps s0 s) : KeepsOut s0 (execWshr g d a b s) := by
  unfold execWshr
  with_reducible repeat' first | assumption | apply groupBin_keeps

theorem execWsar_keeps {s0 s : State} (g : Guard) (d a : XReg) (b : SrcB9) (hs : Keeps s0 s) : KeepsOut s0 (execWsar g d a b s) := by
  unfold execWsar
  with_reducible repeat' first | assumption | apply groupBin_keeps

theorem execWmin_keeps {s0 s : State} (g : Guard) (d a : XReg) (b : SrcB9) (hs : Keeps s0 s) : KeepsOut s0 (execWmin g d a b s) := by
  unfold execWmin
  with_reducible repeat' first | assumption | apply groupBin_keeps

theorem execWmax_keeps {s0 s : State} (g : Guard) (d a : XReg) (b : SrcB9) (hs : Keeps s0 s) : KeepsOut s0 (execWmax g d a b s) := by
  unfold execWmax
  with_reducible repeat' first | assumption | apply groupBin_keeps

theorem execWnmin_keeps {s0 s : State} (g : Guard) (d a : XReg) (b : SrcB9) (hs : Keeps s0 s) : KeepsOut s0 (execWnmin g d a b s) := by
  unfold execWnmin
  with_reducible repeat' first | assumption | apply groupBin_keeps

theorem execWnmax_keeps {s0 s : State} (g : Guard) (d a : XReg) (b : SrcB9) (hs : Keeps s0 s) : KeepsOut s0 (execWnmax g d a b s) := by
  unfold execWnmax
  with_reducible repeat' first | assumption | apply groupBin_keeps

theorem execWcmp_keeps {s0 s : State} (g : Guard) (pd : PReg) (cc : ICond) (a : XReg) (b : SrcB7) (hs : Keeps s0 s) :
    KeepsOut s0 (execWcmp g pd cc a b s) := by
  unfold execWcmp
  with_reducible repeat' first | assumption | apply predWrite_keeps

theorem execWncmp_keeps {s0 s : State} (g : Guard) (pd : PReg) (cc : ICond) (a : XReg) (b : SrcB7) (hs : Keeps s0 s) :
    KeepsOut s0 (execWncmp g pd cc a b s) := by
  unfold execWncmp
  with_reducible repeat' first | assumption | apply predWrite_keeps

theorem execWsel_keeps {s0 s : State} (g : Guard) (d a : XReg) (b : SrcB9) (hs : Keeps s0 s) : KeepsOut s0 (execWsel g d a b s) := by
  unfold execWsel
  with_reducible repeat' first | assumption | apply groupBin_keeps

theorem execWmov_keeps {s0 s : State} (g : Guard) (d a : XReg) (hs : Keeps s0 s) : KeepsOut s0 (execWmov g d a s) := by
  unfold execWmov
  with_reducible repeat' first | assumption | apply groupUn_keeps

theorem execWnot_keeps {s0 s : State} (g : Guard) (d a : XReg) (hs : Keeps s0 s) : KeepsOut s0 (execWnot g d a s) := by
  unfold execWnot
  with_reducible repeat' first | assumption | apply groupUn_keeps

theorem execWneg_keeps {s0 s : State} (g : Guard) (d a : XReg) (hs : Keeps s0 s) : KeepsOut s0 (execWneg g d a s) := by
  unfold execWneg
  with_reducible repeat' first | assumption | apply groupUn_keeps

theorem execWabs_keeps {s0 s : State} (g : Guard) (d a : XReg) (hs : Keeps s0 s) : KeepsOut s0 (execWabs g d a s) := by
  unfold execWabs
  with_reducible repeat' first | assumption | apply groupUn_keeps

theorem execWpopc_keeps {s0 s : State} (g : Guard) (d a : XReg) (hs : Keeps s0 s) : KeepsOut s0 (execWpopc g d a s) := by
  unfold execWpopc
  with_reducible repeat' first | assumption | apply groupUn_keeps

theorem execWclz_keeps {s0 s : State} (g : Guard) (d a : XReg) (hs : Keeps s0 s) : KeepsOut s0 (execWclz g d a s) := by
  unfold execWclz
  with_reducible repeat' first | assumption | apply groupUn_keeps

theorem execWctz_keeps {s0 s : State} (g : Guard) (d a : XReg) (hs : Keeps s0 s) : KeepsOut s0 (execWctz g d a s) := by
  unfold execWctz
  with_reducible repeat' first | assumption | apply groupUn_keeps

theorem execWbrev_keeps {s0 s : State} (g : Guard) (d a : XReg) (hs : Keeps s0 s) : KeepsOut s0 (execWbrev g d a s) := by
  unfold execWbrev
  with_reducible repeat' first | assumption | apply groupUn_keeps

theorem execWbswap_keeps {s0 s : State} (g : Guard) (d a : XReg) (hs : Keeps s0 s) : KeepsOut s0 (execWbswap g d a s) := by
  unfold execWbswap
  with_reducible repeat' first | assumption | apply groupUn_keeps

theorem execWsext32_keeps {s0 s : State} (g : Guard) (d a : XReg) (hs : Keeps s0 s) : KeepsOut s0 (execWsext32 g d a s) := by
  unfold execWsext32
  with_reducible repeat' first | assumption | apply groupUn_keeps

theorem execWzext32_keeps {s0 s : State} (g : Guard) (d a : XReg) (hs : Keeps s0 s) : KeepsOut s0 (execWzext32 g d a s) := by
  unfold execWzext32
  with_reducible repeat' first | assumption | apply groupUn_keeps

theorem execDadd_keeps {s0 s : State} (g : Guard) (d a : XReg) (b : SrcB9) (hs : Keeps s0 s) : KeepsOut s0 (execDadd g d a b s) := by
  unfold execDadd
  with_reducible repeat' first | assumption | apply groupBinFl_keeps

theorem execDsub_keeps {s0 s : State} (g : Guard) (d a : XReg) (b : SrcB9) (hs : Keeps s0 s) : KeepsOut s0 (execDsub g d a b s) := by
  unfold execDsub
  with_reducible repeat' first | assumption | apply groupBinFl_keeps

theorem execDmul_keeps {s0 s : State} (g : Guard) (d a : XReg) (b : SrcB9) (hs : Keeps s0 s) : KeepsOut s0 (execDmul g d a b s) := by
  unfold execDmul
  with_reducible repeat' first | assumption | apply groupBinFl_keeps

theorem execDfma_keeps {s0 s : State} (g : Guard) (d a : XReg) (b : SrcB9) (hs : Keeps s0 s) : KeepsOut s0 (execDfma g d a b s) := by
  unfold execDfma
  with_reducible repeat' first | assumption | apply groupBinFl_keeps

theorem execDmin_keeps {s0 s : State} (g : Guard) (d a : XReg) (b : SrcB9) (hs : Keeps s0 s) : KeepsOut s0 (execDmin g d a b s) := by
  unfold execDmin
  with_reducible repeat' first | assumption | apply groupBinFl_keeps

theorem execDmax_keeps {s0 s : State} (g : Guard) (d a : XReg) (b : SrcB9) (hs : Keeps s0 s) : KeepsOut s0 (execDmax g d a b s) := by
  unfold execDmax
  with_reducible repeat' first | assumption | apply groupBinFl_keeps

theorem execDabs_keeps {s0 s : State} (g : Guard) (d a : XReg) (hs : Keeps s0 s) : KeepsOut s0 (execDabs g d a s) := by
  unfold execDabs
  with_reducible repeat' first | assumption | apply groupUnFl_keeps

theorem execDneg_keeps {s0 s : State} (g : Guard) (d a : XReg) (hs : Keeps s0 s) : KeepsOut s0 (execDneg g d a s) := by
  unfold execDneg
  with_reducible repeat' first | assumption | apply groupUnFl_keeps

theorem execDsqrt_keeps {s0 s : State} (g : Guard) (d a : XReg) (hs : Keeps s0 s) : KeepsOut s0 (execDsqrt g d a s) := by
  unfold execDsqrt
  with_reducible repeat' first | assumption | apply groupUnFl_keeps

theorem execDrcp_keeps {s0 s : State} (g : Guard) (d a : XReg) (hs : Keeps s0 s) : KeepsOut s0 (execDrcp g d a s) := by
  unfold execDrcp
  with_reducible repeat' first | assumption | apply groupUnFl_keeps

theorem execDfloor_keeps {s0 s : State} (g : Guard) (d a : XReg) (hs : Keeps s0 s) : KeepsOut s0 (execDfloor g d a s) := by
  unfold execDfloor
  with_reducible repeat' first | assumption | apply groupUnFl_keeps

theorem execDceil_keeps {s0 s : State} (g : Guard) (d a : XReg) (hs : Keeps s0 s) : KeepsOut s0 (execDceil g d a s) := by
  unfold execDceil
  with_reducible repeat' first | assumption | apply groupUnFl_keeps

theorem execDtrunc_keeps {s0 s : State} (g : Guard) (d a : XReg) (hs : Keeps s0 s) : KeepsOut s0 (execDtrunc g d a s) := by
  unfold execDtrunc
  with_reducible repeat' first | assumption | apply groupUnFl_keeps

theorem execDrint_keeps {s0 s : State} (g : Guard) (d a : XReg) (hs : Keeps s0 s) : KeepsOut s0 (execDrint g d a s) := by
  unfold execDrint
  with_reducible repeat' first | assumption | apply groupUnFl_keeps

theorem execDcmp_keeps {s0 s : State} (g : Guard) (pd : PReg) (cc : FCond) (a : XReg) (b : SrcB7) (hs : Keeps s0 s) :
    KeepsOut s0 (execDcmp g pd cc a b s) := by
  unfold execDcmp
  with_reducible repeat' first | assumption | apply predWrite_keeps

theorem execDcvtDS64_keeps {s0 s : State} (g : Guard) (d a : XReg) (hs : Keeps s0 s) : KeepsOut s0 (execDcvtDS64 g d a s) := by
  unfold execDcvtDS64
  with_reducible repeat' first | assumption | apply groupUnFl_keeps

theorem execDcvtDN64_keeps {s0 s : State} (g : Guard) (d a : XReg) (hs : Keeps s0 s) : KeepsOut s0 (execDcvtDN64 g d a s) := by
  unfold execDcvtDN64
  with_reducible repeat' first | assumption | apply groupUnFl_keeps

theorem execDcvtS64D_keeps {s0 s : State} (g : Guard) (d a : XReg) (hs : Keeps s0 s) : KeepsOut s0 (execDcvtS64D g d a s) := by
  unfold execDcvtS64D
  with_reducible repeat' first | assumption | apply groupUnFl_keeps

theorem execDcvtN64D_keeps {s0 s : State} (g : Guard) (d a : XReg) (hs : Keeps s0 s) : KeepsOut s0 (execDcvtN64D g d a s) := by
  unfold execDcvtN64D
  with_reducible repeat' first | assumption | apply groupUnFl_keeps

theorem execDcvtDF32l_keeps {s0 s : State} (g : Guard) (d a : XReg) (hs : Keeps s0 s) : KeepsOut s0 (execDcvtDF32l g d a s) := by
  unfold execDcvtDF32l
  with_reducible repeat' first | assumption | apply groupUnFl_keeps

theorem execDcvtF32D_keeps {s0 s : State} (g : Guard) (d a : XReg) (hs : Keeps s0 s) : KeepsOut s0 (execDcvtF32D g d a s) := by
  unfold execDcvtF32D
  with_reducible repeat' first | assumption | apply groupUnFl_keeps

theorem execDcvtDS32_keeps {s0 s : State} (g : Guard) (d a : XReg) (hs : Keeps s0 s) : KeepsOut s0 (execDcvtDS32 g d a s) := by
  unfold execDcvtDS32
  with_reducible repeat' first | assumption | apply groupUnFl_keeps

theorem execDcvtS32D_keeps {s0 s : State} (g : Guard) (d a : XReg) (hs : Keeps s0 s) : KeepsOut s0 (execDcvtS32D g d a s) := by
  unfold execDcvtS32D
  with_reducible repeat' first | assumption | apply groupUnFl_keeps

theorem execV2x_keeps {s0 s : State} (g : Guard) (d : XReg) (a : Src8) (hs : Keeps s0 s) : KeepsOut s0 (execV2x g d a s) := by
  unfold execV2x
  with_reducible repeat' first | assumption | apply groupWrite_keeps

theorem execV2xs_keeps {s0 s : State} (g : Guard) (d : XReg) (a : Src8) (hs : Keeps s0 s) : KeepsOut s0 (execV2xs g d a s) := by
  unfold execV2xs
  with_reducible repeat' first | assumption | apply groupWrite_keeps

theorem execVp2x_keeps {s0 s : State} (g : Guard) (d : XReg) (v : VReg) (hs : Keeps s0 s) : KeepsOut s0 (execVp2x g d v s) := by
  unfold execVp2x
  with_reducible repeat' first | assumption | apply groupWrite_keeps

theorem execX2v_keeps {s0 s : State} (g : Guard) (d : Dst8) (a : XReg) (hs : Keeps s0 s) : KeepsOut s0 (execX2v g d a s) := by
  unfold execX2v
  with_reducible repeat' first | assumption | apply guarded_keeps | apply State.onRegs_keeps | apply KeepsOut.next

theorem execX2vh_keeps {s0 s : State} (g : Guard) (d : Dst8) (a : XReg) (hs : Keeps s0 s) : KeepsOut s0 (execX2vh g d a s) := by
  unfold execX2vh
  with_reducible repeat' first | assumption | apply guarded_keeps | apply State.onRegs_keeps | apply KeepsOut.next

theorem execX2vp_keeps {s0 s : State} (g : Guard) (v : VReg) (a : XReg) (hs : Keeps s0 s) : KeepsOut s0 (execX2vp g v a s) := by
  unfold execX2vp
  with_reducible repeat' first | assumption | apply guarded_keeps | apply State.onRegs_keeps | apply KeepsOut.next

theorem execWld_keeps {s0 s : State} (g : Guard) (t b : XReg) (imm : BitVec 9) (hs : Keeps s0 s) :
    KeepsOut s0 (execWld g t b imm s) := by
  unfold execWld
  with_reducible repeat' first
    | assumption | apply guarded_keeps | apply issue_keeps | apply State.adv_keeps | (intro _; try dsimp only [id])

theorem execWst_keeps {s0 s : State} (g : Guard) (t b : XReg) (imm : BitVec 9) (hs : Keeps s0 s) :
    KeepsOut s0 (execWst g t b imm s) := by
  unfold execWst
  with_reducible repeat' first
    | assumption | apply guarded_keeps | apply outside_keeps | apply issue_keeps | apply State.adv_keeps
    | (intro _; try dsimp only [id])

theorem execBra_keeps {s0 s : State} (g : Guard) (disp : BitVec 21) (hs : Keeps s0 s) : KeepsOut s0 (execBra g disp s) := by
  unfold execBra
  with_reducible repeat' first | assumption | apply guarded_keeps | apply State.onRegs_keeps | apply KeepsOut.next

theorem execBrd_keeps {s0 s : State} (g : Guard) (disp : BitVec 21) (hs : Keeps s0 s) : KeepsOut s0 (execBrd g disp s) := by
  unfold execBrd
  with_reducible repeat' first
    | assumption | apply guarded_keeps | apply State.onRegs_keeps | apply State.onCur_keeps | apply KeepsOut.next | split

theorem execCall_keeps {s0 s : State} (g : Guard) (disp : BitVec 21) (hs : Keeps s0 s) : KeepsOut s0 (execCall g disp s) := by
  unfold execCall
  with_reducible repeat' first
    | assumption | apply guarded_keeps | apply outside_keeps | apply pushThen_keeps | apply State.onRegs_keeps | apply KeepsOut.next
    | (intro _; try dsimp only [id])

theorem execCallr_keeps {s0 s : State} (g : Guard) (a : XReg) (hs : Keeps s0 s) : KeepsOut s0 (execCallr g a s) := by
  unfold execCallr; (try dsimp only)
  with_reducible repeat' first
    | assumption | apply guarded_keeps | apply outside_keeps | apply trapOf_keeps | apply pushThen_keeps | apply State.onRegs_keeps
    | apply KeepsOut.next | split | (intro _; try dsimp only [id])

theorem execRet_keeps {s0 s : State} (g : Guard) (hs : Keeps s0 s) : KeepsOut s0 (execRet g s) := by
  unfold execRet
  with_reducible repeat' first
    | assumption | apply guarded_keeps | apply outside_keeps | apply popThen_keeps | apply trapOf_keeps | apply State.onRegs_keeps
    | apply KeepsOut.next | split | (intro _; try dsimp only [id])

theorem execExit_keeps {s0 s : State} (g : Guard) (hs : Keeps s0 s) : KeepsOut s0 (execExit g s) := by
  unfold execExit
  with_reducible repeat' first
    | assumption | apply guarded_keeps | apply outside_keeps | apply settled_keeps | apply exitThread_keeps | apply KeepsOut.next

theorem execYield_keeps {s0 s : State} (g : Guard) (hs : Keeps s0 s) : KeepsOut s0 (execYield g s) := by
  unfold execYield
  with_reducible repeat' first
    | assumption | apply guarded_keeps | apply settled_keeps | apply State.adv_keeps | apply State.onCur_keeps | apply KeepsOut.next

theorem execTrap_keeps {s0 s : State} (g : Guard) (n : BitVec 8) (hs : Keeps s0 s) : KeepsOut s0 (execTrap g n s) := by
  unfold execTrap
  with_reducible repeat' first
    | assumption | apply guarded_keeps | apply outside_keeps | apply settled_keeps | apply takeTrap_keeps | apply KeepsOut.next

theorem execTret_keeps {s0 s : State} (g : Guard) (hs : Keeps s0 s) : KeepsOut s0 (execTret g s) := by
  unfold execTret
  with_reducible repeat' first
    | assumption | apply guarded_keeps | apply settled_keeps | apply State.onCur_keeps | apply illegal8_keeps | apply KeepsOut.next
    | split

theorem execSrd_keeps {s0 s : State} (g : Guard) (d : XReg) (idx : BitVec 15) (hs : Keeps s0 s) : KeepsOut s0 (execSrd g d idx s) := by
  unfold execSrd
  with_reducible repeat' first
    | assumption | apply trap_keeps | apply guarded_keeps | apply readTick_keeps | apply State.onRegs_keeps | apply KeepsOut.next
    | split

theorem execSwr_keeps {s0 s : State} (g : Guard) (t : XReg) (idx : BitVec 15) (hs : Keeps s0 s) : KeepsOut s0 (execSwr g t idx s) := by
  unfold execSwr
  with_reducible repeat' first
    | assumption | apply trap_keeps | apply guarded_keeps | apply outside_keeps | apply settled_keeps | apply State.adv_keeps
    | apply State.onCur_keeps | apply KeepsOut.next | split

theorem execTagof_keeps {s0 s : State} (g : Guard) (d : XReg) (r : VXReg) (hs : Keeps s0 s) : KeepsOut s0 (execTagof g d r s) := by
  unfold execTagof
  with_reducible repeat' first | assumption | apply groupWrite_keeps

theorem execFmtof_keeps {s0 s : State} (g : Guard) (d : XReg) (r : VXReg) (hs : Keeps s0 s) : KeepsOut s0 (execFmtof g d r s) := by
  unfold execFmtof
  with_reducible repeat' first | assumption | apply groupWrite_keeps

theorem execWaitc_keeps {s0 s : State} (g : Guard) (loads : BitVec 6) (stores copies tiles : BitVec 5) (hs : Keeps s0 s) :
    KeepsOut s0 (execWaitc g loads stores copies tiles s) := by
  unfold execWaitc
  with_reducible repeat' first
    | assumption | apply guarded_keeps | apply State.adv_keeps | apply waitAt_keeps | apply KeepsOut.next | split

theorem execFence_keeps {s0 s : State} (g : Guard) (scope : Scope) (kinds : BitVec 4) (hs : Keeps s0 s) :
    KeepsOut s0 (execFence g scope kinds s) := by
  unfold execFence; (try dsimp only)
  with_reducible repeat' first
    | assumption | apply guarded_keeps | apply settled_keeps | apply State.adv_keeps | apply State.onCur_keeps | apply acquire_keeps
    | apply release_keeps | apply waitAt_keeps | apply KeepsOut.next | split

theorem execFtok_keeps {s0 s : State} (g : Guard) (d : XReg) (scope : Scope) (kinds : BitVec 6) (hs : Keeps s0 s) :
    KeepsOut s0 (execFtok g d scope kinds s) := by
  unfold execFtok
  with_reducible repeat' first
    | assumption | apply guarded_keeps | apply settled_keeps | apply waitAt_keeps | apply atScope2_keeps | apply State.onCur_keeps
    | apply KeepsOut.next | split | (intro _; try dsimp only [id])

theorem execFwait_keeps {s0 s : State} (g : Guard) (a : XReg) (hs : Keeps s0 s) : KeepsOut s0 (execFwait g a s) := by
  unfold execFwait
  with_reducible repeat' first
    | assumption | apply guarded_keeps | apply settled_keeps | apply illegal8_keeps | apply waitAt_keeps | apply State.adv_keeps
    | apply acquire_keeps | apply KeepsOut.next | split

theorem execBar_keeps {s0 s : State} (g : Guard) (cluster : Bool) (id : Fin 16) (cnt : Option (Fin 63)) (hs : Keeps s0 s) :
    KeepsOut s0 (execBar g cluster id cnt s) := by
  unfold execBar
  with_reducible repeat' first
    | assumption | apply guarded_keeps | apply illegal8_keeps | apply settled_keeps | apply drained_keeps | apply arrive_keeps | split

theorem execKsetCount_keeps {s0 s : State} (g : Guard) (k : Fin 8) (cluster : Bool) (a : XReg) (hs : Keeps s0 s) :
    KeepsOut s0 (execKsetCount g k cluster a s) := by
  unfold execKsetCount
  with_reducible repeat' first | assumption | apply kset_keeps

theorem execKsetMask_keeps {s0 s : State} (g : Guard) (k : Fin 8) (cluster : Bool) (a : XReg) (hs : Keeps s0 s) :
    KeepsOut s0 (execKsetMask g k cluster a s) := by
  unfold execKsetMask
  with_reducible repeat' first | assumption | apply kset_keeps

theorem execKsign_keeps {s0 s : State} (g : Guard) (k : Fin 8) (cluster : Bool) (a : XReg) (hs : Keeps s0 s) :
    KeepsOut s0 (execKsign g k cluster a s) := by
  unfold execKsign
  with_reducible repeat' first | assumption | apply signExplicit_keeps

theorem execKxchTid_keeps {s0 s : State} (g : Guard) (k : Fin 8) (cluster : Bool) (d : Dst8) (a i : Src8) (hs : Keeps s0 s) :
    KeepsOut s0 (execKxchTid g k cluster d a i s) := by
  unfold execKxchTid
  with_reducible repeat' first | assumption | apply kxch_keeps

theorem execKxchPos_keeps {s0 s : State} (g : Guard) (k : Fin 8) (cluster : Bool) (d : Dst8) (a i : Src8) (hs : Keeps s0 s) :
    KeepsOut s0 (execKxchPos g k cluster d a i s) := by
  unfold execKxchPos
  with_reducible repeat' first | assumption | apply kxch_keeps

theorem execKredAddN32_keeps {s0 s : State} (g : Guard) (k : Fin 8) (cluster : Bool) (d : Dst8) (a : Src8) (hs : Keeps s0 s) :
    KeepsOut s0 (execKredAddN32 g k cluster d a s) := by
  unfold execKredAddN32
  with_reducible repeat' first | assumption | apply kred_keeps

theorem execKredAddF32_keeps {s0 s : State} (g : Guard) (k : Fin 8) (cluster : Bool) (d : Dst8) (a : Src8) (hs : Keeps s0 s) :
    KeepsOut s0 (execKredAddF32 g k cluster d a s) := by
  unfold execKredAddF32
  with_reducible repeat' first | assumption | apply kred_keeps

theorem execKredMinS32_keeps {s0 s : State} (g : Guard) (k : Fin 8) (cluster : Bool) (d : Dst8) (a : Src8) (hs : Keeps s0 s) :
    KeepsOut s0 (execKredMinS32 g k cluster d a s) := by
  unfold execKredMinS32
  with_reducible repeat' first | assumption | apply kred_keeps

theorem execKredMaxS32_keeps {s0 s : State} (g : Guard) (k : Fin 8) (cluster : Bool) (d : Dst8) (a : Src8) (hs : Keeps s0 s) :
    KeepsOut s0 (execKredMaxS32 g k cluster d a s) := by
  unfold execKredMaxS32
  with_reducible repeat' first | assumption | apply kred_keeps

theorem execKredMinF32_keeps {s0 s : State} (g : Guard) (k : Fin 8) (cluster : Bool) (d : Dst8) (a : Src8) (hs : Keeps s0 s) :
    KeepsOut s0 (execKredMinF32 g k cluster d a s) := by
  unfold execKredMinF32
  with_reducible repeat' first | assumption | apply kred_keeps

theorem execKredMaxF32_keeps {s0 s : State} (g : Guard) (k : Fin 8) (cluster : Bool) (d : Dst8) (a : Src8) (hs : Keeps s0 s) :
    KeepsOut s0 (execKredMaxF32 g k cluster d a s) := by
  unfold execKredMaxF32
  with_reducible repeat' first | assumption | apply kred_keeps

theorem execKredAnd_keeps {s0 s : State} (g : Guard) (k : Fin 8) (cluster : Bool) (d : Dst8) (a : Src8) (hs : Keeps s0 s) :
    KeepsOut s0 (execKredAnd g k cluster d a s) := by
  unfold execKredAnd
  with_reducible repeat' first | assumption | apply kred_keeps

theorem execKredOr_keeps {s0 s : State} (g : Guard) (k : Fin 8) (cluster : Bool) (d : Dst8) (a : Src8) (hs : Keeps s0 s) :
    KeepsOut s0 (execKredOr g k cluster d a s) := by
  unfold execKredOr
  with_reducible repeat' first | assumption | apply kred_keeps

theorem execKredXor_keeps {s0 s : State} (g : Guard) (k : Fin 8) (cluster : Bool) (d : Dst8) (a : Src8) (hs : Keeps s0 s) :
    KeepsOut s0 (execKredXor g k cluster d a s) := by
  unfold execKredXor
  with_reducible repeat' first | assumption | apply kred_keeps

theorem execKredNz_keeps {s0 s : State} (g : Guard) (k : Fin 8) (cluster : Bool) (d : Dst8) (a : Src8) (hs : Keeps s0 s) :
    KeepsOut s0 (execKredNz g k cluster d a s) := by
  unfold execKredNz
  with_reducible repeat' first | assumption | apply kred_keeps

theorem execMma_keeps {s0 s : State} (g : Guard) (xa xb xc : XReg) (c : MmaCtl) (hs : Keeps s0 s) :
    KeepsOut s0 (execMma g xa xb xc c s) := by
  unfold execMma
  with_reducible repeat' first
    | assumption | apply onMatrix_keeps | apply unlessTrap_keeps | apply drained_keeps | apply signRound_keeps
    | (intro _; try dsimp only [id])

theorem execMdrain_keeps {s0 s : State} (g : Guard) (xa xb xc : XReg) (c : DrainCtl) (hs : Keeps s0 s) :
    KeepsOut s0 (execMdrain g xa xb xc c s) := by
  unfold execMdrain
  with_reducible repeat' first
    | assumption | apply onMatrix_keeps | apply unlessTrap_keeps | apply drained_keeps | apply signRound_keeps | apply sideOn_keeps
    | split | (intro _; try dsimp only [id])

theorem execMzero_keeps {s0 s : State} (g : Guard) (slot : Fin 8) (hs : Keeps s0 s) : KeepsOut s0 (execMzero g slot s) := by
  unfold execMzero
  with_reducible repeat' first
    | assumption | apply onMatrix_keeps | apply trap_keeps | apply State.adv_keeps | apply enqueue_keeps | apply KeepsOut.next
    | split | (intro _; try dsimp only [id])

theorem execMldsc_keeps {s0 s : State} (g : Guard) (d a : XReg) (hs : Keeps s0 s) : KeepsOut s0 (execMldsc g d a s) := by
  unfold execMldsc; (try dsimp only)
  with_reducible repeat' first
    | assumption | apply onMatrix_keeps | apply unlessTrap_keeps | apply waitAt_keeps | apply enqueue_keeps
    | apply State.adv_keeps | apply KeepsOut.next | refine Keeps.of_snd ?_ (by assumption) | split
    | (intro _; try dsimp only [id])

theorem execMstat_keeps {s0 s : State} (g : Guard) (d : XReg) (slot : Fin 8) (hs : Keeps s0 s) :
    KeepsOut s0 (execMstat g d slot s) := by
  unfold execMstat
  with_reducible repeat' first
    | assumption | apply onMatrix_keeps | apply trap_keeps | apply enqueue_keeps | apply waitAt_keeps | split
    | (intro _; try dsimp only [id])

theorem execTbinit_keeps {s0 s : State} (g : Guard) (a : XReg) (c : TbCnt) (hs : Keeps s0 s) : KeepsOut s0 (execTbinit g a c s) := by
  unfold execTbinit
  with_reducible repeat' first
    | assumption | apply guarded_keeps | apply outside_keeps | apply settled_keeps | apply illegal8_keeps | apply onBar_keeps
    | apply State.adv_keeps | apply State.putN_keeps | apply KeepsOut.next | split | (intro _; try dsimp only [id])

theorem execTbarrive_keeps {s0 s : State} (g : Guard) (d a : XReg) (c : TbCnt) (hs : Keeps s0 s) :
    KeepsOut s0 (execTbarrive g d a c s) := by
  unfold execTbarrive
  with_reducible repeat' first
    | assumption | apply onBar_keeps | apply illegal8_keeps | apply tbPoison_keeps | apply drained_keeps | apply release_keeps
    | apply updateBar_keeps | apply State.onRegs_keeps | apply KeepsOut.next | split | (intro _; try dsimp only [id])

theorem execTbexpect_keeps {s0 s : State} (g : Guard) (a : XReg) (c : TbCnt) (hs : Keeps s0 s) :
    KeepsOut s0 (execTbexpect g a c s) := by
  unfold execTbexpect; (try dsimp only)
  with_reducible repeat' first
    | assumption | apply guarded_keeps | apply outside_keeps | apply settled_keeps | apply illegal8_keeps
    | apply onBar_keeps | apply tbPoison_keeps | apply updateBar_keeps | apply State.adv_keeps | apply KeepsOut.next
    | refine Keeps.of_snd ?_ (by assumption) | fail_if_no_progress (apply Keeps.upd) | split
    | (intro _; try dsimp only [id])

theorem execTbtest_keeps {s0 s : State} (g : Guard) (d a : XReg) (c : TbCnt) (hs : Keeps s0 s) :
    KeepsOut s0 (execTbtest g d a c s) := by
  unfold execTbtest
  with_reducible repeat' first
    | assumption | apply onBar_keeps | apply tbPoison_keeps | apply acquire_keeps | apply State.onRegs_keeps | apply KeepsOut.next
    | split | (intro _; try dsimp only [id])

theorem execTbwait_keeps {s0 s : State} (g : Guard) (a p : XReg) (hs : Keeps s0 s) : KeepsOut s0 (execTbwait g a p s) := by
  unfold execTbwait
  with_reducible repeat' first
    | assumption | apply onBar_keeps | apply tbPoison_keeps | apply State.adv_keeps | apply acquire_keeps | apply waitAt_keeps
    | apply KeepsOut.next | split | (intro _; try dsimp only [id])

theorem execWlpush_keeps {s0 s : State} (g : Guard) (wl : Fin 4) (v : VReg) (dep : Fin 8) (hs : Keeps s0 s) :
    KeepsOut s0 (execWlpush g wl v dep s) := by
  unfold execWlpush; (try dsimp only)
  with_reducible repeat' first
    | assumption | apply onList_keeps | apply drained_keeps | apply sideOn_keeps | apply State.onWl_keeps
    | apply waitAt_keeps | apply sendFull_keeps | apply pushAtGate_keeps | apply State.adv_keeps | apply KeepsOut.next
    | refine Keeps.of_some ?_ (by assumption) | refine Keeps.of_snd ?_ (by assumption) | split
    | (intro _; try dsimp only [id])

theorem execWlpop_keeps {s0 s : State} (g : Guard) (xa : XReg) (ps : PReg) (wl : Fin 4) (v : VReg) (hs : Keeps s0 s) :
    KeepsOut s0 (execWlpop g xa ps wl v s) := by
  unfold execWlpop
  with_reducible repeat' first
    | assumption | apply onList_keeps | apply popRun_keeps | apply State.onCur_keeps | refine KeepsPop.found ?_ _ _ (by assumption)
    | refine KeepsTake.page ?_ _ _ (by assumption) | refine KeepsTake.lost ?_ _ (by assumption) | (intro _; try dsimp only [id])

theorem execWltry_keeps {s0 s : State} (g : Guard) (xa : XReg) (ps : PReg) (wl : Fin 4) (v : VReg) (hs : Keeps s0 s) :
    KeepsOut s0 (execWltry g xa ps wl v s) := by
  unfold execWltry
  with_reducible repeat' first
    | assumption | apply onList_keeps | apply popRun_keeps | apply popStatus_keeps | (intro _; try dsimp only [id])

theorem execWldone_keeps {s0 s : State} (g : Guard) (wl : Fin 4) (hs : Keeps s0 s) : KeepsOut s0 (execWldone g wl s) := by
  unfold execWldone
  with_reducible repeat' first
    | assumption | apply onList_keeps | apply drained_keeps | apply State.adv_keeps | apply wlDone_keeps | apply KeepsOut.next
    | split | (intro _; try dsimp only [id])

theorem execWlfloor_keeps {s0 s : State} (g : Guard) (xa : XReg) (wl : Fin 4) (hs : Keeps s0 s) :
    KeepsOut s0 (execWlfloor g xa wl s) := by
  unfold execWlfloor
  with_reducible repeat' first
    | assumption | apply onList_keeps | apply State.onRegs_keeps | apply KeepsOut.next | (intro _; try dsimp only [id])

theorem execWlstat_keeps {s0 s : State} (g : Guard) (xa : XReg) (wl : Fin 4) (hs : Keeps s0 s) :
    KeepsOut s0 (execWlstat g xa wl s) := by
  unfold execWlstat
  with_reducible repeat' first
    | assumption | apply guarded_keeps | apply outside_keeps | apply settled_keeps | apply State.onRegs_keeps | apply KeepsOut.next

theorem execFenter_keeps {s0 s : State} (g : Guard) (dep : Fin 8) (a : XReg) (hs : Keeps s0 s) :
    KeepsOut s0 (execFenter g dep a s) := by
  unfold execFenter; (try dsimp only)
  with_reducible repeat' first
    | assumption | apply guarded_keeps | apply outside_keeps | apply illegal8_keeps | apply enterFrame_keeps | split

theorem execFleave_keeps {s0 s : State} (g : Guard) (dep : Fin 8) (hs : Keeps s0 s) : KeepsOut s0 (execFleave g dep s) := by
  unfold execFleave
  with_reducible repeat' first
    | assumption | apply guarded_keeps | apply outside_keeps | apply settled_keeps | apply withFrame_keeps
    | apply leaveThread_keeps | apply leaveShared_keeps | apply KeepsOut.next | refine Keeps.of_snd ?_ (by assumption)
    | split | (intro _; try dsimp only [id])

theorem execFopen_keeps {s0 s : State} (g : Guard) (cluster : Bool) (dep : Fin 8) (a : XReg) (k : Fin 8) (hs : Keeps s0 s) :
    KeepsOut s0 (execFopen g cluster dep a k s) := by
  unfold execFopen
  with_reducible repeat' first
    | assumption | apply guarded_keeps | apply outside_keeps | apply settled_keeps | apply drained_keeps | apply signRound_keeps
    | apply sideOn_keeps | split

theorem execFlink_keeps {s0 s : State} (g : Guard) (dep : Fin 8) (a : XReg) (hs : Keeps s0 s) : KeepsOut s0 (execFlink g dep a s) := by
  unfold execFlink; (try dsimp only)
  with_reducible repeat' first
    | assumption | apply guarded_keeps | apply outside_keeps | apply waitAt_keeps | apply orTrap_keeps
    | apply pushThen_keeps | apply State.onRegs_keeps | apply State.adv_keeps | apply KeepsOut.next
    | refine Keeps.of_snd ?_ (by assumption) | split | (intro _; try dsimp only [id])

theorem execFhnd_keeps {s0 s : State} (g : Guard) (d : XReg) (dep : Fin 8) (hs : Keeps s0 s) : KeepsOut s0 (execFhnd g d dep s) := by
  unfold execFhnd; (try dsimp only)
  with_reducible repeat' first
    | assumption | apply guarded_keeps | apply outside_keeps | apply settled_keeps | apply withFrame_keeps
    | apply setHeader_keeps | apply State.onRegs_keeps | apply State.adv_keeps | apply KeepsOut.next
    | refine Keeps.of_snd ?_ (by assumption) | fail_if_no_progress (apply Keeps.upd) | (intro _; try dsimp only [id])

theorem execFdrop_keeps {s0 s : State} (g : Guard) (a : XReg) (hs : Keeps s0 s) : KeepsOut s0 (execFdrop g a s) := by
  unfold execFdrop; (try dsimp only)
  with_reducible repeat' first
    | assumption | apply guarded_keeps | apply outside_keeps | apply settled_keeps | apply withFrame_keeps
    | apply trap_keeps | apply freeFrame_keeps | apply setHeader_keeps | apply State.adv_keeps | apply KeepsOut.next
    | refine Keeps.of_snd ?_ (by assumption) | fail_if_no_progress (apply Keeps.upd) | split
    | (intro _; try dsimp only [id])

theorem execFsync_keeps {s0 s : State} (g : Guard) (dep : Fin 8) (hs : Keeps s0 s) : KeepsOut s0 (execFsync g dep s) := by
  unfold execFsync
  with_reducible repeat' first
    | assumption | apply guarded_keeps | apply outside_keeps | apply withFrame_keeps | apply State.adv_keeps
    | apply waitAt_keeps | apply KeepsOut.next | refine Keeps.of_snd ?_ (by assumption) | split
    | (intro _; try dsimp only [id])

theorem execFunlink_keeps {s0 s : State} (g : Guard) (dep : Fin 8) (hs : Keeps s0 s) : KeepsOut s0 (execFunlink g dep s) := by
  unfold execFunlink
  with_reducible repeat' first
    | assumption | apply guarded_keeps | apply outside_keeps | apply popThen_keeps | apply State.onRegs_keeps | apply KeepsOut.next
    | (intro _; try dsimp only [id])

theorem execRcall_keeps {s0 s : State} (g : Guard) (region : Fin 1024) (argv resv : VReg) (argc resc : Fin 8) (hs : Keeps s0 s) :
    KeepsOut s0 (execRcall g region argv resv argc resc s) := by
  unfold execRcall
  with_reducible repeat' first | assumption | apply rcall_keeps

theorem execRcallExact_keeps {s0 s : State} (g : Guard) (region : Fin 1024) (argv resv : VReg) (argc resc : Fin 8) (hs : Keeps s0 s) :
    KeepsOut s0 (execRcallExact g region argv resv argc resc s) := by
  unfold execRcallExact
  with_reducible repeat' first | assumption | apply rcall_keeps

theorem execRcallSonly_keeps {s0 s : State} (g : Guard) (region : Fin 1024) (argv resv : VReg) (argc resc : Fin 8) (hs : Keeps s0 s) :
    KeepsOut s0 (execRcallSonly g region argv resv argc resc s) := by
  unfold execRcallSonly
  with_reducible repeat' first | assumption | apply rcall_keeps

theorem execRret_keeps {s0 s : State} (g : Guard) (hs : Keeps s0 s) : KeepsOut s0 (execRret g s) := by
  unfold execRret
  with_reducible repeat' first
    | assumption | apply guarded_keeps | apply illegal8_keeps | apply drained_keeps | apply merge_keeps
    | fail_if_no_progress (apply Keeps.upd) | apply KeepsOut.next | split

theorem execRload_keeps {s0 s : State} (g : Guard) (xb : XReg) (hs : Keeps s0 s) : KeepsOut s0 (execRload g xb s) := by
  unfold execRload
  with_reducible repeat' first
    | assumption | apply guarded_keeps | apply outside_keeps | apply illegal8_keeps | apply sideOn_keeps
    | apply State.adv_keeps | apply withLoad_keeps | apply makeResident_keeps | apply KeepsOut.next
    | refine Keeps.of_snd ?_ (by assumption) | split | (intro _; try dsimp only [id])

theorem execRctlEvict_keeps {s0 s : State} (g : Guard) (xa xb : XReg) (hs : Keeps s0 s) : KeepsOut s0 (execRctlEvict g xa xb s) := by
  unfold execRctlEvict
  with_reducible repeat' first | assumption | apply rctl_keeps

theorem execRctlPin_keeps {s0 s : State} (g : Guard) (xa xb : XReg) (hs : Keeps s0 s) : KeepsOut s0 (execRctlPin g xa xb s) := by
  unfold execRctlPin
  with_reducible repeat' first | assumption | apply rctl_keeps

theorem execRctlUnpin_keeps {s0 s : State} (g : Guard) (xa xb : XReg) (hs : Keeps s0 s) : KeepsOut s0 (execRctlUnpin g xa xb s) := by
  unfold execRctlUnpin
  with_reducible repeat' first | assumption | apply rctl_keeps

theorem execRctlFlush_keeps {s0 s : State} (g : Guard) (xa xb : XReg) (hs : Keeps s0 s) : KeepsOut s0 (execRctlFlush g xa xb s) := by
  unfold execRctlFlush
  with_reducible repeat' first | assumption | apply rctl_keeps

theorem execRctr_keeps {s0 s : State} (g : Guard) (xa xb : XReg) (hs : Keeps s0 s) : KeepsOut s0 (execRctr g xa xb s) := by
  unfold execRctr; (try dsimp only)
  with_reducible repeat' first
    | assumption | apply guarded_keeps | apply illegal8_keeps | apply acquired_keeps | apply trap_keeps
    | apply rctr_keeps | apply State.onRegs_keeps | apply State.adv_keeps | apply KeepsOut.next
    | refine Keeps.of_snd ?_ (by assumption) | split | (intro _; try dsimp only [id])

theorem execCollAllreduce_keeps {s0 s : State} (g : Guard) (xa xb xc : XReg) (send recv : BitVec 8) (ty : DType) (op : ROp) (hs : Keeps s0 s) :
    KeepsOut s0 (execCollAllreduce g xa xb xc send recv ty op s) := by
  unfold execCollAllreduce
  with_reducible repeat' first | assumption | apply coll_keeps

theorem execCollReducescatter_keeps {s0 s : State} (g : Guard) (xa xb xc : XReg) (send recv : BitVec 8) (ty : DType) (op : ROp) (hs : Keeps s0 s) :
    KeepsOut s0 (execCollReducescatter g xa xb xc send recv ty op s) := by
  unfold execCollReducescatter
  with_reducible repeat' first | assumption | apply coll_keeps

theorem execCollBroadcast_keeps {s0 s : State} (g : Guard) (xa xb xc : XReg) (send recv : BitVec 8) (ty : DType) (hs : Keeps s0 s) :
    KeepsOut s0 (execCollBroadcast g xa xb xc send recv ty s) := by
  unfold execCollBroadcast
  with_reducible repeat' first | assumption | apply coll_keeps

theorem execCollAlltoall_keeps {s0 s : State} (g : Guard) (xa xb xc : XReg) (send recv : BitVec 8) (ty : DType) (hs : Keeps s0 s) :
    KeepsOut s0 (execCollAlltoall g xa xb xc send recv ty s) := by
  unfold execCollAlltoall
  with_reducible repeat' first | assumption | apply coll_keeps

theorem execBkpt_keeps {s0 s : State} (g : Guard) (hs : Keeps s0 s) : KeepsOut s0 (execBkpt g s) := by
  unfold execBkpt
  with_reducible repeat' first
    | assumption | apply guarded_keeps | apply outside_keeps | apply settled_keeps | apply haltThread_keeps | apply State.adv_keeps
    | apply KeepsOut.next | split

theorem execTlbinv_keeps {s0 s : State} (g : Guard) (a : XReg) (hs : Keeps s0 s) : KeepsOut s0 (execTlbinv g a s) := by
  unfold execTlbinv
  with_reducible repeat' first
    | assumption | apply sysPriv_keeps | apply sideOn_keeps | apply State.onCore_keeps | apply State.adv_keeps
    | fail_if_no_progress (apply Keeps.upd) | apply KeepsOut.next

theorem execL1clean_keeps {s0 s : State} (g : Guard) (a : XReg) (hs : Keeps s0 s) : KeepsOut s0 (execL1clean g a s) := by
  unfold execL1clean; (try dsimp only)
  with_reducible repeat' first
    | assumption | apply sysPriv_keeps | apply illegal8_keeps | apply State.adv_keeps | apply writeBackAll_keeps | apply sideOn_keeps
    | apply KeepsOut.next | split

theorem execArchive_keeps {s0 s : State} (g : Guard) (a : XReg) (hs : Keeps s0 s) : KeepsOut s0 (execArchive g a s) := by
  unfold execArchive; (try dsimp only)
  with_reducible repeat' first
    | assumption | apply guarded_keeps | apply outside_keeps | apply settled_keeps | apply gateTake_keeps | apply waitAt_keeps
    | apply logValue_keeps | apply sideOn_keeps | apply State.adv_keeps | apply haltAll_keeps | apply KeepsOut.next
    | refine Keeps.of_fst ?_ (by assumption) | split

theorem execQlaunch_keeps {s0 s : State} (g : Guard) (a : XReg) (hs : Keeps s0 s) : KeepsOut s0 (execQlaunch g a s) := by
  unfold execQlaunch
  with_reducible repeat' first
    | assumption | apply sysCurator_keeps | apply illegal8_keeps | apply trap_keeps | apply sysRead_keeps | apply waitAt_keeps
    | fail_if_no_progress (apply Keeps.upd) | split | (intro _; try dsimp only [id])

theorem execQsignal_keeps {s0 s : State} (g : Guard) (a : XReg) (hs : Keeps s0 s) : KeepsOut s0 (execQsignal g a s) := by
  unfold execQsignal
  with_reducible repeat' first
    | assumption | apply sysCurator_keeps | apply illegal8_keeps | apply trap_keeps | apply drained_keeps | apply withPlace_keeps
    | apply State.adv_keeps | apply signalAt_keeps | apply KeepsOut.next | split | (intro _; try dsimp only [id])

theorem execQwaitsig_keeps {s0 s : State} (g : Guard) (a : XReg) (hs : Keeps s0 s) : KeepsOut s0 (execQwaitsig g a s) := by
  unfold execQwaitsig
  with_reducible repeat' first
    | assumption | apply sysCurator_keeps | apply illegal8_keeps | apply trap_keeps | apply withPlace_keeps | apply endPacket_keeps
    | apply dropThread_keeps | apply State.setQueue_keeps | apply KeepsOut.next | split | (intro _; try dsimp only [id])

theorem execQswitch_keeps {s0 s : State} (g : Guard) (a : XReg) (hs : Keeps s0 s) : KeepsOut s0 (execQswitch g a s) := by
  unfold execQswitch
  with_reducible repeat' first
    | assumption | apply sysCurator_keeps | apply trap_keeps | apply windowRead_keeps | apply illegal8_keeps | apply State.adv_keeps
    | apply preempt_keeps | fail_if_no_progress (apply Keeps.upd) | apply KeepsOut.next | apply Keeps.foldl | split
    | (intro _; try dsimp only [id])

theorem execQphase_keeps {s0 s : State} (g : Guard) (a : XReg) (hs : Keeps s0 s) : KeepsOut s0 (execQphase g a s) := by
  unfold execQphase
  with_reducible repeat' first
    | assumption | apply sysCurator_keeps | apply illegal8_keeps | apply State.adv_keeps | apply State.setQueue_keeps
    | apply KeepsOut.next | split | (intro _; try dsimp only [id])

theorem execQdone_keeps {s0 s : State} (g : Guard) (hs : Keeps s0 s) : KeepsOut s0 (execQdone g s) := by
  unfold execQdone
  with_reducible repeat' first
    | assumption | apply sysCurator_keeps | apply drained_keeps | apply release_keeps | apply State.setQueue_keeps
    | apply endPacket_keeps | apply dropThread_keeps | apply KeepsOut.next | (intro _; try dsimp only [id])

theorem execRenable_keeps {s0 s : State} (g : Guard) (a : XReg) (hs : Keeps s0 s) : KeepsOut s0 (execRenable g a s) := by
  unfold execRenable
  with_reducible repeat' first
    | assumption | apply sysCurator_keeps | apply illegal8_keeps | apply sysRead_keeps | apply takeUp_keeps | apply onAgg_keeps
    | apply writeBlock_keeps | apply writeRegionState_keeps | apply State.adv_keeps | apply broadcast_keeps | apply KeepsOut.next
    | split | (intro _; try dsimp only [id])

theorem execWlcfg_keeps {s0 s : State} (g : Guard) (a : XReg) (hs : Keeps s0 s) : KeepsOut s0 (execWlcfg g a s) := by
  unfold execWlcfg
  with_reducible repeat' first
    | assumption | apply sysCurator_keeps | apply windowRead_keeps | apply illegal8_keeps | apply wlStatus_keeps
    | apply State.onWl_keeps | apply tableRead_keeps | fail_if_no_progress (apply Keeps.upd) | split | (intro _; try dsimp only [id])

/-- Whatever an instruction of a program does, it leaves alone what `Keeps` names. -/
theorem exec_keeps (i : Instr) (s : State) (hi : i.isEvent = false) : KeepsOut s (exec i s) := by
  have h := Keeps.refl s
  cases i with
  | iadd g d a b => exact execIadd_keeps g d a b h
  | isub g d a b => exact execIsub_keeps g d a b h
  | imul g d a b => exact execImul_keeps g d a b h
  | imulhs g d a b => exact execImulhs_keeps g d a b h
  | imulhn g d a b => exact execImulhn_keeps g d a b h
  | imad g d a b => exact execImad_keeps g d a b h
  | isad g d a b => exact execIsad_keeps g d a b h
  | imin g d a b => exact execImin_keeps g d a b h
  | imax g d a b => exact execImax_keeps g d a b h
  | nmin g d a b => exact execNmin_keeps g d a b h
  | nmax g d a b => exact execNmax_keeps g d a b h
  | and g d a b => exact execAnd_keeps g d a b h
  | or g d a b => exact execOr_keeps g d a b h
  | xor g d a b => exact execXor_keeps g d a b h
  | andn g d a b => exact execAndn_keeps g d a b h
  | shl g d a b => exact execShl_keeps g d a b h
  | shr g d a b => exact execShr_keeps g d a b h
  | sar g d a b => exact execSar_keeps g d a b h
  | bfen g d a b => exact execBfen_keeps g d a b h
  | bfes g d a b => exact execBfes_keeps g d a b h
  | bfi g d a b => exact execBfi_keeps g d a b h
  | prmt g d a b => exact execPrmt_keeps g d a b h
  | csel g d a b => exact execCsel_keeps g d a b h
  | mov g d a => exact execMov_keeps g d a h
  | not g d a => exact execNot_keeps g d a h
  | ineg g d a => exact execIneg_keeps g d a h
  | iabs g d a => exact execIabs_keeps g d a h
  | popc g d a => exact execPopc_keeps g d a h
  | clz g d a => exact execClz_keeps g d a h
  | ctz g d a => exact execCtz_keeps g d a h
  | brev g d a => exact execBrev_keeps g d a h
  | bswap g d a => exact execBswap_keeps g d a h
  | sext8 g d a => exact execSext8_keeps g d a h
  | sext16 g d a => exact execSext16_keeps g d a h
  | zext8 g d a => exact execZext8_keeps g d a h
  | zext16 g d a => exact execZext16_keeps g d a h
  | fadd g d a b => exact execFadd_keeps g d a b h
  | fsub g d a b => exact execFsub_keeps g d a b h
  | fmul g d a b => exact execFmul_keeps g d a b h
  | ffma g d a b => exact execFfma_keeps g d a b h
  | fmin g d a b => exact execFmin_keeps g d a b h
  | fmax g d a b => exact execFmax_keeps g d a b h
  | fscale g d a b => exact execFscale_keeps g d a b h
  | fabs g d a => exact execFabs_keeps g d a h
  | fneg g d a => exact execFneg_keeps g d a h
  | frcp g d a => exact execFrcp_keeps g d a h
  | frsq g d a => exact execFrsq_keeps g d a h
  | fsqrt g d a => exact execFsqrt_keeps g d a h
  | fexp2 g d a => exact execFexp2_keeps g d a h
  | flog2 g d a => exact execFlog2_keeps g d a h
  | fsinr g d a => exact execFsinr_keeps g d a h
  | fcosr g d a => exact execFcosr_keeps g d a h
  | ftanh g d a => exact execFtanh_keeps g d a h
  | fsigm g d a => exact execFsigm_keeps g d a h
  | ffloor g d a => exact execFfloor_keeps g d a h
  | fceil g d a => exact execFceil_keeps g d a h
  | ftrunc g d a => exact execFtrunc_keeps g d a h
  | frint g d a => exact execFrint_keeps g d a h
  | ffrac g d a => exact execFfrac_keeps g d a h
  | fsat g d a => exact execFsat_keeps g d a h
  | fclass g d a => exact execFclass_keeps g d a h
  | hadd2 g d a b => exact execHadd2_keeps g d a b h
  | hmul2 g d a b => exact execHmul2_keeps g d a b h
  | hfma2 g d a b => exact execHfma2_keeps g d a b h
  | bfma2 g d a b => exact execBfma2_keeps g d a b h
  | hmin2 g d a b => exact execHmin2_keeps g d a b h
  | hmax2 g d a b => exact execHmax2_keeps g d a b h
  | cvtF32S32 g d a => exact execCvtF32S32_keeps g d a h
  | cvtF32N32 g d a => exact execCvtF32N32_keeps g d a h
  | cvtS32F32 g d a => exact execCvtS32F32_keeps g d a h
  | cvtN32F32 g d a => exact execCvtN32F32_keeps g d a h
  | cvtS32F32Rn g d a => exact execCvtS32F32Rn_keeps g d a h
  | cvtF16F32 g d a => exact execCvtF16F32_keeps g d a h
  | cvtF32F16l g d a => exact execCvtF32F16l_keeps g d a h
  | cvtF32F16h g d a => exact execCvtF32F16h_keeps g d a h
  | cvtBf16F32 g d a => exact execCvtBf16F32_keeps g d a h
  | cvtF32Bf16l g d a => exact execCvtF32Bf16l_keeps g d a h
  | cvtF32Bf16h g d a => exact execCvtF32Bf16h_keeps g d a h
  | cvtE4m3F32 g d a => exact execCvtE4m3F32_keeps g d a h
  | cvtE5m2F32 g d a => exact execCvtE5m2F32_keeps g d a h
  | cvtF32E4m3 g d a => exact execCvtF32E4m3_keeps g d a h
  | cvtF32E5m2 g d a => exact execCvtF32E5m2_keeps g d a h
  | cvtLns6F32 g d a => exact execCvtLns6F32_keeps g d a h
  | cvtF32Lns6 g d a => exact execCvtF32Lns6_keeps g d a h
  | cvtS8F32 g d a => exact execCvtS8F32_keeps g d a h
  | cvtN8F32 g d a => exact execCvtN8F32_keeps g d a h
  | icmp g pd cc a b => exact execIcmp_keeps g pd cc a b h
  | ncmp g pd cc a b => exact execNcmp_keeps g pd cc a b h
  | fcmp g pd cc a b => exact execFcmp_keeps g pd cc a b h
  | plop g pd pa pb tt => exact execPlop_keeps g pd pa pb tt h
  | ptov g d => exact execPtov_keeps g d h
  | vtop g a => exact execVtop_keeps g a h
  | fld g d dep slot => exact execFld_keeps g d dep slot h
  | fst g a dep slot => exact execFst_keeps g a dep slot h
  | fadda g a dep slot => exact execFadda_keeps g a dep slot h
  | ldb g t m => exact execLdb_keeps g t m h
  | ldbs g t m => exact execLdbs_keeps g t m h
  | ldh g t m => exact execLdh_keeps g t m h
  | ldhs g t m => exact execLdhs_keeps g t m h
  | ldw g t m => exact execLdw_keeps g t m h
  | ldd g t m => exact execLdd_keeps g t m h
  | ldq g t m => exact execLdq_keeps g t m h
  | ldx g t m scope acq hint => exact execLdx_keeps g t m scope acq hint h
  | stb g t m => exact execStb_keeps g t m h
  | sth g t m => exact execSth_keeps g t m h
  | stw g t m => exact execStw_keeps g t m h
  | std g t m => exact execStd_keeps g t m h
  | stq g t m => exact execStq_keeps g t m h
  | stx g t m scope rel hint => exact execStx_keeps g t m scope rel hint h
  | atomAdd g t m oa => exact execAtomAdd_keeps g t m oa h
  | atomMin g t m oa => exact execAtomMin_keeps g t m oa h
  | atomMax g t m oa => exact execAtomMax_keeps g t m oa h
  | atomAnd g t m oa => exact execAtomAnd_keeps g t m oa h
  | atomOr g t m oa => exact execAtomOr_keeps g t m oa h
  | atomXor g t m oa => exact execAtomXor_keeps g t m oa h
  | atomExch g t m oa => exact execAtomExch_keeps g t m oa h
  | atomCas g t m oa c => exact execAtomCas_keeps g t m oa c h
  | atomIncw g t m oa => exact execAtomIncw_keeps g t m oa h
  | atomFadd g t m oa => exact execAtomFadd_keeps g t m oa h
  | atomHadd2 g t m oa => exact execAtomHadd2_keeps g t m oa h
  | nop bits => exact execNop_keeps bits h
  | wadd g d a b => exact execWadd_keeps g d a b h
  | wsub g d a b => exact execWsub_keeps g d a b h
  | wmul g d a b => exact execWmul_keeps g d a b h
  | wmulhs g d a b => exact execWmulhs_keeps g d a b h
  | wmulhn g d a b => exact execWmulhn_keeps g d a b h
  | wand g d a b => exact execWand_keeps g d a b h
  | wor g d a b => exact execWor_keeps g d a b h
  | wxor g d a b => exact execWxor_keeps g d a b h
  | wshl g d a b => exact execWshl_keeps g d a b h
  | wshr g d a b => exact execWshr_keeps g d a b h
  | wsar g d a b => exact execWsar_keeps g d a b h
  | wmin g d a b => exact execWmin_keeps g d a b h
  | wmax g d a b => exact execWmax_keeps g d a b h
  | wnmin g d a b => exact execWnmin_keeps g d a b h
  | wnmax g d a b => exact execWnmax_keeps g d a b h
  | wcmp g pd cc a b => exact execWcmp_keeps g pd cc a b h
  | wncmp g pd cc a b => exact execWncmp_keeps g pd cc a b h
  | wsel g d a b => exact execWsel_keeps g d a b h
  | wmov g d a => exact execWmov_keeps g d a h
  | wnot g d a => exact execWnot_keeps g d a h
  | wneg g d a => exact execWneg_keeps g d a h
  | wabs g d a => exact execWabs_keeps g d a h
  | wpopc g d a => exact execWpopc_keeps g d a h
  | wclz g d a => exact execWclz_keeps g d a h
  | wctz g d a => exact execWctz_keeps g d a h
  | wbrev g d a => exact execWbrev_keeps g d a h
  | wbswap g d a => exact execWbswap_keeps g d a h
  | wsext32 g d a => exact execWsext32_keeps g d a h
  | wzext32 g d a => exact execWzext32_keeps g d a h
  | dadd g d a b => exact execDadd_keeps g d a b h
  | dsub g d a b => exact execDsub_keeps g d a b h
  | dmul g d a b => exact execDmul_keeps g d a b h
  | dfma g d a b => exact execDfma_keeps g d a b h
  | dmin g d a b => exact execDmin_keeps g d a b h
  | dmax g d a b => exact execDmax_keeps g d a b h
  | dabs g d a => exact execDabs_keeps g d a h
  | dneg g d a => exact execDneg_keeps g d a h
  | dsqrt g d a => exact execDsqrt_keeps g d a h
  | drcp g d a => exact execDrcp_keeps g d a h
  | dfloor g d a => exact execDfloor_keeps g d a h
  | dceil g d a => exact execDceil_keeps g d a h
  | dtrunc g d a => exact execDtrunc_keeps g d a h
  | drint g d a => exact execDrint_keeps g d a h
  | dclass g d a => exact execDclass_keeps g d a h
  | dcmp g pd cc a b => exact execDcmp_keeps g pd cc a b h
  | dcvtDS64 g d a => exact execDcvtDS64_keeps g d a h
  | dcvtDN64 g d a => exact execDcvtDN64_keeps g d a h
  | dcvtS64D g d a => exact execDcvtS64D_keeps g d a h
  | dcvtN64D g d a => exact execDcvtN64D_keeps g d a h
  | dcvtDF32l g d a => exact execDcvtDF32l_keeps g d a h
  | dcvtF32D g d a => exact execDcvtF32D_keeps g d a h
  | dcvtDS32 g d a => exact execDcvtDS32_keeps g d a h
  | dcvtS32D g d a => exact execDcvtS32D_keeps g d a h
  | v2x g d a => exact execV2x_keeps g d a h
  | v2xs g d a => exact execV2xs_keeps g d a h
  | vp2x g d v => exact execVp2x_keeps g d v h
  | x2v g d a => exact execX2v_keeps g d a h
  | x2vh g d a => exact execX2vh_keeps g d a h
  | x2vp g v a => exact execX2vp_keeps g v a h
  | wld g t b imm => exact execWld_keeps g t b imm h
  | wst g t b imm => exact execWst_keeps g t b imm h
  | bra g disp => exact execBra_keeps g disp h
  | brd g disp => exact execBrd_keeps g disp h
  | call g disp => exact execCall_keeps g disp h
  | callr g a => exact execCallr_keeps g a h
  | ret g => exact execRet_keeps g h
  | jmp g a => exact execJmp_keeps g a h
  | exit g => exact execExit_keeps g h
  | yield g => exact execYield_keeps g h
  | trap g n => exact execTrap_keeps g n h
  | tret g => exact execTret_keeps g h
  | srd g d idx => exact execSrd_keeps g d idx h
  | swr g t idx => exact execSwr_keeps g t idx h
  | tagof g d r => exact execTagof_keeps g d r h
  | fmtof g d r => exact execFmtof_keeps g d r h
  | waitc g loads stores copies tiles => exact execWaitc_keeps g loads stores copies tiles h
  | fence g scope kinds => exact execFence_keeps g scope kinds h
  | ftok g d scope kinds => exact execFtok_keeps g d scope kinds h
  | fwait g a => exact execFwait_keeps g a h
  | bar g cluster id cnt => exact execBar_keeps g cluster id cnt h
  | ksetCount g k cluster a => exact execKsetCount_keeps g k cluster a h
  | ksetMask g k cluster a => exact execKsetMask_keeps g k cluster a h
  | ksign g k cluster a => exact execKsign_keeps g k cluster a h
  | kxchTid g k cluster d a j => exact execKxchTid_keeps g k cluster d a j h
  | kxchPos g k cluster d a j => exact execKxchPos_keeps g k cluster d a j h
  | kredAddN32 g k cluster d a => exact execKredAddN32_keeps g k cluster d a h
  | kredAddF32 g k cluster d a => exact execKredAddF32_keeps g k cluster d a h
  | kredMinS32 g k cluster d a => exact execKredMinS32_keeps g k cluster d a h
  | kredMaxS32 g k cluster d a => exact execKredMaxS32_keeps g k cluster d a h
  | kredMinF32 g k cluster d a => exact execKredMinF32_keeps g k cluster d a h
  | kredMaxF32 g k cluster d a => exact execKredMaxF32_keeps g k cluster d a h
  | kredAnd g k cluster d a => exact execKredAnd_keeps g k cluster d a h
  | kredOr g k cluster d a => exact execKredOr_keeps g k cluster d a h
  | kredXor g k cluster d a => exact execKredXor_keeps g k cluster d a h
  | kredNz g k cluster d a => exact execKredNz_keeps g k cluster d a h
  | mma g xa xb xc c => exact execMma_keeps g xa xb xc c h
  | mdrain g xa xb xc c => exact execMdrain_keeps g xa xb xc c h
  | mzero g slot => exact execMzero_keeps g slot h
  | mldsc g d a => exact execMldsc_keeps g d a h
  | mstat g d slot => exact execMstat_keeps g d slot h
  | tbinit g a c => exact execTbinit_keeps g a c h
  | tbarrive g d a c => exact execTbarrive_keeps g d a c h
  | tbexpect g a c => exact execTbexpect_keeps g a c h
  | tbtest g d a c => exact execTbtest_keeps g d a c h
  | tbwait g a p => exact execTbwait_keeps g a p h
  | wlpush g wl v dep => exact execWlpush_keeps g wl v dep h
  | wlpop g xa ps wl v => exact execWlpop_keeps g xa ps wl v h
  | wltry g xa ps wl v => exact execWltry_keeps g xa ps wl v h
  | wldone g wl => exact execWldone_keeps g wl h
  | wlfloor g xa wl => exact execWlfloor_keeps g xa wl h
  | wlstat g xa wl => exact execWlstat_keeps g xa wl h
  | fenter g dep a => exact execFenter_keeps g dep a h
  | fleave g dep => exact execFleave_keeps g dep h
  | fopen g cluster dep a k => exact execFopen_keeps g cluster dep a k h
  | flink g dep a => exact execFlink_keeps g dep a h
  | fhnd g d dep => exact execFhnd_keeps g d dep h
  | fdrop g a => exact execFdrop_keeps g a h
  | fsync g dep => exact execFsync_keeps g dep h
  | funlink g dep => exact execFunlink_keeps g dep h
  | rcall g region argv resv argc resc => exact execRcall_keeps g region argv resv argc resc h
  | rcallExact g region argv resv argc resc => exact execRcallExact_keeps g region argv resv argc resc h
  | rcallSonly g region argv resv argc resc => exact execRcallSonly_keeps g region argv resv argc resc h
  | rret g => exact execRret_keeps g h
  | rload g xb => exact execRload_keeps g xb h
  | rctlEvict g xa xb => exact execRctlEvict_keeps g xa xb h
  | rctlPin g xa xb => exact execRctlPin_keeps g xa xb h
  | rctlUnpin g xa xb => exact execRctlUnpin_keeps g xa xb h
  | rctlFlush g xa xb => exact execRctlFlush_keeps g xa xb h
  | rctr g xa xb => exact execRctr_keeps g xa xb h
  | rinfo g xa xb => exact execRinfo_keeps g xa xb h
  | collAllreduce g xa xb xc send recv ty op => exact execCollAllreduce_keeps g xa xb xc send recv ty op h
  | collReducescatter g xa xb xc send recv ty op => exact execCollReducescatter_keeps g xa xb xc send recv ty op h
  | collAllgather g xa xb xc send recv ty => exact execCollAllgather_keeps g xa xb xc send recv ty h
  | collBroadcast g xa xb xc send recv ty => exact execCollBroadcast_keeps g xa xb xc send recv ty h
  | collAlltoall g xa xb xc send recv ty => exact execCollAlltoall_keeps g xa xb xc send recv ty h
  | bkpt g => exact execBkpt_keeps g h
  | tlbinv g a => exact execTlbinv_keeps g a h
  | l1clean g a => exact execL1clean_keeps g a h
  | archive g a => exact execArchive_keeps g a h
  | qlaunch g a => exact execQlaunch_keeps g a h
  | qsignal g a => exact execQsignal_keeps g a h
  | qwaitsig g a => exact execQwaitsig_keeps g a h
  | qswitch g a => exact execQswitch_keeps g a h
  | qphase g a => exact execQphase_keeps g a h
  | qdone g => exact execQdone_keeps g h
  | renable g a => exact execRenable_keeps g a h
  | wlcfg g a => exact execWlcfg_keeps g a h
  | launchDecision l => exact absurd hi Bool.noConfusion
  | gangPlacement l gi die cluster first rows bases zap => exact absurd hi Bool.noConfusion
  | phaseClean l => exact absurd hi Bool.noConfusion
  | workgroupEnd w => exact absurd hi Bool.noConfusion
  | gangRetire gid => exact absurd hi Bool.noConfusion
  | pick core => exact absurd hi Bool.noConfusion
  | ageCap t => exact absurd hi Bool.noConfusion
  | regroupRelease w target => exact absurd hi Bool.noConfusion
  | loadReturn t n ecc => exact absurd hi Bool.noConfusion
  | storePerformed t n => exact absurd hi Bool.noConfusion
  | l1Eviction core cid line => exact absurd hi Bool.noConfusion
  | fenceComplete t => exact absurd hi Bool.noConfusion
  | fenceRollback t => exact absurd hi Bool.noConfusion
  | tokenComplete t seq => exact absurd hi Bool.noConfusion
  | pageWalk core cid va => exact absurd hi Bool.noConfusion
  | pageRequest rid => exact absurd hi Bool.noConfusion
  | pagerResponse cid => exact absurd hi Bool.noConfusion
  | kill cid w => exact absurd hi Bool.noConfusion
  | copyTakeEntry w => exact absurd hi Bool.noConfusion
  | copy w ch => exact absurd hi Bool.noConfusion
  | gather w ch => exact absurd hi Bool.noConfusion
  | fill w ch => exact absurd hi Bool.noConfusion
  | convert w ch => exact absurd hi Bool.noConfusion
  | convertout w ch => exact absurd hi Bool.noConfusion
  | mmaEntry w => exact absurd hi Bool.noConfusion
  | mdrainEntry w => exact absurd hi Bool.noConfusion
  | mctlEntry w => exact absurd hi Bool.noConfusion
  | matrixEntryComplete w => exact absurd hi Bool.noConfusion
  | mmaResume w => exact absurd hi Bool.noConfusion
  | regionLoad core cid region => exact absurd hi Bool.noConfusion
  | surrogateEvaluation core n => exact absurd hi Bool.noConfusion
  | restorationStart core n => exact absurd hi Bool.noConfusion
  | violationReport n => exact absurd hi Bool.noConfusion
  | disableApply core cid region => exact absurd hi Bool.noConfusion
  | enableApply core cid region => exact absurd hi Bool.noConfusion
  | counterBlockWrite cid region => exact absurd hi Bool.noConfusion
  | floorRefresh cid wl => exact absurd hi Bool.noConfusion
  | groupFloorRefresh cid wl peer quiet => exact absurd hi Bool.noConfusion
  | floorDropAck t => exact absurd hi Bool.noConfusion
  | wlpushPlace t => exact absurd hi Bool.noConfusion
  | wlpopServe t n => exact absurd hi Bool.noConfusion
  | frontBufferSend core n => exact absurd hi Bool.noConfusion
  | chunkSpill cid wl die bucket => exact absurd hi Bool.noConfusion
  | chunkReadBack cid wl die n => exact absurd hi Bool.noConfusion
  | chunkMigrate cid wl src dst count => exact absurd hi Bool.noConfusion
  | spillRefill w r => exact absurd hi Bool.noConfusion
  | contextCreate cid => exact absurd hi Bool.noConfusion
  | contextDestroy cid => exact absurd hi Bool.noConfusion
  | contextSelect cid => exact absurd hi Bool.noConfusion
  | queueEnable q => exact absurd hi Bool.noConfusion
  | queueDisable q => exact absurd hi Bool.noConfusion
  | queueQuiesce q => exact absurd hi Bool.noConfusion
  | queueNotify f q tail => exact absurd hi Bool.noConfusion
  | packetStart c q => exact absurd hi Bool.noConfusion
  | qwaitsigResume q => exact absurd hi Bool.noConfusion
  | tickstopWrite v => exact absurd hi Bool.noConfusion
  | tickStop => exact absurd hi Bool.noConfusion
  | registerWrite off v => exact absurd hi Bool.noConfusion
  | preemptRequest gids bound => exact absurd hi Bool.noConfusion
  | drainExpire gid => exact absurd hi Bool.noConfusion
  | gangSave gid => exact absurd hi Bool.noConfusion
  | gangRestore slot die cluster rows bases => exact absurd hi Bool.noConfusion
  | switchTick => exact absurd hi Bool.noConfusion
  | switchComplete => exact absurd hi Bool.noConfusion
  | haltRequest ts => exact absurd hi Bool.noConfusion
  | threadHalt t => exact absurd hi Bool.noConfusion
  | resumeRequest ts => exact absurd hi Bool.noConfusion
  | sample core => exact absurd hi Bool.noConfusion
  | checkpoint cid => exact absurd hi Bool.noConfusion
  | gatePass t => exact absurd hi Bool.noConfusion
  | intervalClose cid => exact absurd hi Bool.noConfusion
  | collChunk cid g k peers => exact absurd hi Bool.noConfusion
  | collectiveComplete cid g k ok => exact absurd hi Bool.noConfusion
  | ingressWrite f va bytes => exact absurd hi Bool.noConfusion
  | ingressRead f va n => exact absurd hi Bool.noConfusion
  | functionLevelReset f => exact absurd hi Bool.noConfusion
  | coreFailure core => exact absurd hi Bool.noConfusion
  | memoryRetire hbm n => exact absurd hi Bool.noConfusion
  | moduleReset => exact absurd hi Bool.noConfusion
  | attestationQuote cid nonce => exact absurd hi Bool.noConfusion
  | linkFailure port => exact absurd hi Bool.noConfusion
  | flitRetry port => exact absurd hi Bool.noConfusion
  | podLeave => exact absurd hi Bool.noConfusion
  | linkUp port => exact absurd hi Bool.noConfusion
  | ngurilIngress port pa acc => exact absurd hi Bool.noConfusion
  | vmodeWrite v => exact absurd hi Bool.noConfusion
  | instructionFetch t => exact absurd hi Bool.noConfusion
  | resultWriteback t r => exact absurd hi Bool.noConfusion

end Sys2Proof.Machine
end

