-- ==== Sys2Proof/Laws/KeepsStep.lean ====
section
/-! SUPPORT. The canonical form of memory through every instruction, every event, and the parts of a step. -/

set_option Elab.async false

namespace Sys2Proof.Machine

/-- The memory of every next state is in canonical form. -/
structure WfOut (o : Out) : Prop where
  wf : ∀ t, o = .next t → Memory.wf t.mem = true

theorem KeepsOut.wfOut {s : State} {o : Out} (h : KeepsOut s o) (w : Memory.wf s.mem = true) : WfOut o :=
  ⟨fun t e => (h.keeps t e).wf w⟩

theorem WfOut.next {s : State} (h : Memory.wf s.mem = true) : WfOut (.next s) := ⟨fun _ e => by cases e; exact h⟩

theorem tickUp_wf {s : State} (w : Memory.wf s.mem = true) : Memory.wf (tickUp s).mem = true := w

theorem execPick_wf (core : Nat) {s : State} (w : Memory.wf s.mem = true) : WfOut (execPick core s) := by
  unfold execPick; dsimp only
  generalize e : (if tickFull s core = true then tickUp s else s) = s1
  have w1 : Memory.wf s1.mem = true := by rw [← e]; split <;> exact w
  have h := Keeps.refl s1
  refine KeepsOut.wfOut (s := s1) ?_ w1
  with_reducible repeat' first
    | assumption | apply KeepsOut.next | split | apply selectNext_keeps | apply State.onCore_keeps | fail_if_no_progress (apply Keeps.upd)

theorem execContextCreate_wf (cid : Nat) {s : State} (w : Memory.wf s.mem = true) : WfOut (execContextCreate cid s) := by
  have h := Keeps.refl ({ s with cfg := { s.cfg with ccid := BitVec.ofNat 6 cid } } : State)
  refine KeepsOut.wfOut (s := ({ s with cfg := { s.cfg with ccid := BitVec.ofNat 6 cid } } : State)) ?_ w
  unfold execContextCreate; (try dsimp only)
  with_reducible repeat' first
    | assumption | exact h | apply due_keeps | apply tableRead_keeps | apply KeepsOut.next | apply setCtxState_keeps | apply devPut_keeps | split
    | fail_if_no_progress (apply Keeps.upd) | (intro _; try dsimp only)

theorem execContextDestroy_wf (cid : Nat) {s : State} (w : Memory.wf s.mem = true) : WfOut (execContextDestroy cid s) := by
  have h := Keeps.refl ({ s with cfg := { s.cfg with ccid := BitVec.ofNat 6 cid } } : State)
  refine KeepsOut.wfOut (s := ({ s with cfg := { s.cfg with ccid := BitVec.ofNat 6 cid } } : State)) ?_ w
  unfold execContextDestroy; (try dsimp only)
  with_reducible repeat' first
    | assumption | exact h | apply KeepsOut.next | apply destroyCtx_keeps

theorem execQueueEnable_wf (q : Nat) {s : State} (w : Memory.wf s.mem = true) : WfOut (execQueueEnable q s) := by
  have h := Keeps.refl (nameQueue s q)
  refine KeepsOut.wfOut (s := (nameQueue s q)) ?_ w
  unfold execQueueEnable; (try dsimp only)
  with_reducible repeat' first
    | assumption | exact h | apply KeepsOut.next | apply due_keeps | apply tableRead_keeps | apply measure_keeps | apply syncQueue_keeps | split | fail_if_no_progress (apply Keeps.upd) | (intro _; try dsimp only)

theorem execQueueDisable_wf (q : Nat) {s : State} (w : Memory.wf s.mem = true) : WfOut (execQueueDisable q s) := by
  have h := Keeps.refl (nameQueue s q)
  refine KeepsOut.wfOut (s := (nameQueue s q)) ?_ w
  unfold execQueueDisable; (try dsimp only)
  with_reducible repeat' first
    | assumption | exact h | apply KeepsOut.next | apply due_keeps | apply State.setQueue_keeps | apply stopPacket_keeps

theorem execQueueQuiesce_wf (q : Nat) {s : State} (w : Memory.wf s.mem = true) : WfOut (execQueueQuiesce q s) := by
  have h := Keeps.refl (nameQueue s q)
  refine KeepsOut.wfOut (s := (nameQueue s q)) ?_ w
  unfold execQueueQuiesce; (try dsimp only)
  with_reducible repeat' first
    | assumption | exact h | apply KeepsOut.next | apply State.onQueue_keeps | apply State.setQueue_keeps | split

theorem execTickstopWrite_wf (v : BitVec 64) {s : State} (w : Memory.wf s.mem = true) : WfOut (execTickstopWrite v s) := by
  unfold execTickstopWrite due
  split <;> exact .next w

theorem execTickStop_wf {s : State} (w : Memory.wf s.mem = true) : WfOut (execTickStop s) := by
  unfold execTickStop due
  split <;> exact .next w

theorem execRegisterWrite_wf (off : Nat) (v : BitVec 64) {s : State} (w : Memory.wf s.mem = true) : WfOut (execRegisterWrite off v s) :=
  .next w

theorem execCoreFailure_wf (core : Nat) {s : State} (w : Memory.wf s.mem = true) : WfOut (execCoreFailure core s) := by
  unfold execCoreFailure due; dsimp only
  split
  · split
    · refine KeepsOut.wfOut (s := { s with outClusters := s.outClusters ++ [core / 8] }) (.next (Keeps.foldl _ _ (Keeps.refl _) ?_)) w
      exact fun _ _ h => emptyCore_keeps _ (failWgs_keeps _ h)
    · exact KeepsOut.wfOut (s := { s with spares := s.spares ++ [core / 8] }) (.next (emptyCore_keeps _ (failWgs_keeps _ (Keeps.refl _)))) w
  · exact .next w

theorem execMemoryRetire_wf (hbm : Bool) (n : Nat) {s : State} (w : Memory.wf s.mem = true) : WfOut (execMemoryRetire hbm n s) := by
  unfold execMemoryRetire
  split <;> exact .next w

theorem execModuleReset_wf (s : State) : WfOut (execModuleReset s) := .next rfl

theorem execLinkFailure_wf (port : Fin 36) {s : State} (w : Memory.wf s.mem = true) : WfOut (execLinkFailure port s) := by
  unfold execLinkFailure; dsimp only
  split
  · exact KeepsOut.wfOut (s := { s with links := s.links &&& ~~~(1#36 <<< port.val) }) (.next (failAll_keeps (Keeps.refl _))) w
  · exact .next w

theorem execPodLeave_wf {s : State} (w : Memory.wf s.mem = true) : WfOut (execPodLeave s) := by
  unfold execPodLeave due
  split
  · exact KeepsOut.wfOut (s := { s with inPod := false }) (.next (failAll_keeps (Keeps.refl _))) w
  · exact .next w

theorem execLinkUp_wf (port : Fin 36) {s : State} (w : Memory.wf s.mem = true) : WfOut (execLinkUp port s) := .next w

theorem execVmodeWrite_wf (v : BitVec 192) {s : State} (w : Memory.wf s.mem = true) : WfOut (execVmodeWrite v s) := .next w

/-- An instruction or an event keeps the canonical form of memory. -/
theorem exec_wf (i : Instr) (s : State) (hw : Memory.wf s.mem = true) : WfOut (exec i s) := by
  cases i with
  | iadd g d a b => exact (execIadd_keeps g d a b (Keeps.refl s)).wfOut hw
  | isub g d a b => exact (execIsub_keeps g d a b (Keeps.refl s)).wfOut hw
  | imul g d a b => exact (execImul_keeps g d a b (Keeps.refl s)).wfOut hw
  | imulhs g d a b => exact (execImulhs_keeps g d a b (Keeps.refl s)).wfOut hw
  | imulhn g d a b => exact (execImulhn_keeps g d a b (Keeps.refl s)).wfOut hw
  | imad g d a b => exact (execImad_keeps g d a b (Keeps.refl s)).wfOut hw
  | isad g d a b => exact (execIsad_keeps g d a b (Keeps.refl s)).wfOut hw
  | imin g d a b => exact (execImin_keeps g d a b (Keeps.refl s)).wfOut hw
  | imax g d a b => exact (execImax_keeps g d a b (Keeps.refl s)).wfOut hw
  | nmin g d a b => exact (execNmin_keeps g d a b (Keeps.refl s)).wfOut hw
  | nmax g d a b => exact (execNmax_keeps g d a b (Keeps.refl s)).wfOut hw
  | and g d a b => exact (execAnd_keeps g d a b (Keeps.refl s)).wfOut hw
  | or g d a b => exact (execOr_keeps g d a b (Keeps.refl s)).wfOut hw
  | xor g d a b => exact (execXor_keeps g d a b (Keeps.refl s)).wfOut hw
  | andn g d a b => exact (execAndn_keeps g d a b (Keeps.refl s)).wfOut hw
  | shl g d a b => exact (execShl_keeps g d a b (Keeps.refl s)).wfOut hw
  | shr g d a b => exact (execShr_keeps g d a b (Keeps.refl s)).wfOut hw
  | sar g d a b => exact (execSar_keeps g d a b (Keeps.refl s)).wfOut hw
  | bfen g d a b => exact (execBfen_keeps g d a b (Keeps.refl s)).wfOut hw
  | bfes g d a b => exact (execBfes_keeps g d a b (Keeps.refl s)).wfOut hw
  | bfi g d a b => exact (execBfi_keeps g d a b (Keeps.refl s)).wfOut hw
  | prmt g d a b => exact (execPrmt_keeps g d a b (Keeps.refl s)).wfOut hw
  | csel g d a b => exact (execCsel_keeps g d a b (Keeps.refl s)).wfOut hw
  | mov g d a => exact (execMov_keeps g d a (Keeps.refl s)).wfOut hw
  | not g d a => exact (execNot_keeps g d a (Keeps.refl s)).wfOut hw
  | ineg g d a => exact (execIneg_keeps g d a (Keeps.refl s)).wfOut hw
  | iabs g d a => exact (execIabs_keeps g d a (Keeps.refl s)).wfOut hw
  | popc g d a => exact (execPopc_keeps g d a (Keeps.refl s)).wfOut hw
  | clz g d a => exact (execClz_keeps g d a (Keeps.refl s)).wfOut hw
  | ctz g d a => exact (execCtz_keeps g d a (Keeps.refl s)).wfOut hw
  | brev g d a => exact (execBrev_keeps g d a (Keeps.refl s)).wfOut hw
  | bswap g d a => exact (execBswap_keeps g d a (Keeps.refl s)).wfOut hw
  | sext8 g d a => exact (execSext8_keeps g d a (Keeps.refl s)).wfOut hw
  | sext16 g d a => exact (execSext16_keeps g d a (Keeps.refl s)).wfOut hw
  | zext8 g d a => exact (execZext8_keeps g d a (Keeps.refl s)).wfOut hw
  | zext16 g d a => exact (execZext16_keeps g d a (Keeps.refl s)).wfOut hw
  | fadd g d a b => exact (execFadd_keeps g d a b (Keeps.refl s)).wfOut hw
  | fsub g d a b => exact (execFsub_keeps g d a b (Keeps.refl s)).wfOut hw
  | fmul g d a b => exact (execFmul_keeps g d a b (Keeps.refl s)).wfOut hw
  | ffma g d a b => exact (execFfma_keeps g d a b (Keeps.refl s)).wfOut hw
  | fmin g d a b => exact (execFmin_keeps g d a b (Keeps.refl s)).wfOut hw
  | fmax g d a b => exact (execFmax_keeps g d a b (Keeps.refl s)).wfOut hw
  | fscale g d a b => exact (execFscale_keeps g d a b (Keeps.refl s)).wfOut hw
  | fabs g d a => exact (execFabs_keeps g d a (Keeps.refl s)).wfOut hw
  | fneg g d a => exact (execFneg_keeps g d a (Keeps.refl s)).wfOut hw
  | frcp g d a => exact (execFrcp_keeps g d a (Keeps.refl s)).wfOut hw
  | frsq g d a => exact (execFrsq_keeps g d a (Keeps.refl s)).wfOut hw
  | fsqrt g d a => exact (execFsqrt_keeps g d a (Keeps.refl s)).wfOut hw
  | fexp2 g d a => exact (execFexp2_keeps g d a (Keeps.refl s)).wfOut hw
  | flog2 g d a => exact (execFlog2_keeps g d a (Keeps.refl s)).wfOut hw
  | fsinr g d a => exact (execFsinr_keeps g d a (Keeps.refl s)).wfOut hw
  | fcosr g d a => exact (execFcosr_keeps g d a (Keeps.refl s)).wfOut hw
  | ftanh g d a => exact (execFtanh_keeps g d a (Keeps.refl s)).wfOut hw
  | fsigm g d a => exact (execFsigm_keeps g d a (Keeps.refl s)).wfOut hw
  | ffloor g d a => exact (execFfloor_keeps g d a (Keeps.refl s)).wfOut hw
  | fceil g d a => exact (execFceil_keeps g d a (Keeps.refl s)).wfOut hw
  | ftrunc g d a => exact (execFtrunc_keeps g d a (Keeps.refl s)).wfOut hw
  | frint g d a => exact (execFrint_keeps g d a (Keeps.refl s)).wfOut hw
  | ffrac g d a => exact (execFfrac_keeps g d a (Keeps.refl s)).wfOut hw
  | fsat g d a => exact (execFsat_keeps g d a (Keeps.refl s)).wfOut hw
  | fclass g d a => exact (execFclass_keeps g d a (Keeps.refl s)).wfOut hw
  | hadd2 g d a b => exact (execHadd2_keeps g d a b (Keeps.refl s)).wfOut hw
  | hmul2 g d a b => exact (execHmul2_keeps g d a b (Keeps.refl s)).wfOut hw
  | hfma2 g d a b => exact (execHfma2_keeps g d a b (Keeps.refl s)).wfOut hw
  | bfma2 g d a b => exact (execBfma2_keeps g d a b (Keeps.refl s)).wfOut hw
  | hmin2 g d a b => exact (execHmin2_keeps g d a b (Keeps.refl s)).wfOut hw
  | hmax2 g d a b => exact (execHmax2_keeps g d a b (Keeps.refl s)).wfOut hw
  | cvtF32S32 g d a => exact (execCvtF32S32_keeps g d a (Keeps.refl s)).wfOut hw
  | cvtF32N32 g d a => exact (execCvtF32N32_keeps g d a (Keeps.refl s)).wfOut hw
  | cvtS32F32 g d a => exact (execCvtS32F32_keeps g d a (Keeps.refl s)).wfOut hw
  | cvtN32F32 g d a => exact (execCvtN32F32_keeps g d a (Keeps.refl s)).wfOut hw
  | cvtS32F32Rn g d a => exact (execCvtS32F32Rn_keeps g d a (Keeps.refl s)).wfOut hw
  | cvtF16F32 g d a => exact (execCvtF16F32_keeps g d a (Keeps.refl s)).wfOut hw
  | cvtF32F16l g d a => exact (execCvtF32F16l_keeps g d a (Keeps.refl s)).wfOut hw
  | cvtF32F16h g d a => exact (execCvtF32F16h_keeps g d a (Keeps.refl s)).wfOut hw
  | cvtBf16F32 g d a => exact (execCvtBf16F32_keeps g d a (Keeps.refl s)).wfOut hw
  | cvtF32Bf16l g d a => exact (execCvtF32Bf16l_keeps g d a (Keeps.refl s)).wfOut hw
  | cvtF32Bf16h g d a => exact (execCvtF32Bf16h_keeps g d a (Keeps.refl s)).wfOut hw
  | cvtE4m3F32 g d a => exact (execCvtE4m3F32_keeps g d a (Keeps.refl s)).wfOut hw
  | cvtE5m2F32 g d a => exact (execCvtE5m2F32_keeps g d a (Keeps.refl s)).wfOut hw
  | cvtF32E4m3 g d a => exact (execCvtF32E4m3_keeps g d a (Keeps.refl s)).wfOut hw
  | cvtF32E5m2 g d a => exact (execCvtF32E5m2_keeps g d a (Keeps.refl s)).wfOut hw
  | cvtLns6F32 g d a => exact (execCvtLns6F32_keeps g d a (Keeps.refl s)).wfOut hw
  | cvtF32Lns6 g d a => exact (execCvtF32Lns6_keeps g d a (Keeps.refl s)).wfOut hw
  | cvtS8F32 g d a => exact (execCvtS8F32_keeps g d a (Keeps.refl s)).wfOut hw
  | cvtN8F32 g d a => exact (execCvtN8F32_keeps g d a (Keeps.refl s)).wfOut hw
  | icmp g pd cc a b => exact (execIcmp_keeps g pd cc a b (Keeps.refl s)).wfOut hw
  | ncmp g pd cc a b => exact (execNcmp_keeps g pd cc a b (Keeps.refl s)).wfOut hw
  | fcmp g pd cc a b => exact (execFcmp_keeps g pd cc a b (Keeps.refl s)).wfOut hw
  | plop g pd pa pb tt => exact (execPlop_keeps g pd pa pb tt (Keeps.refl s)).wfOut hw
  | ptov g d => exact (execPtov_keeps g d (Keeps.refl s)).wfOut hw
  | vtop g a => exact (execVtop_keeps g a (Keeps.refl s)).wfOut hw
  | fld g d dep slot => exact (execFld_keeps g d dep slot (Keeps.refl s)).wfOut hw
  | fst g a dep slot => exact (execFst_keeps g a dep slot (Keeps.refl s)).wfOut hw
  | fadda g a dep slot => exact (execFadda_keeps g a dep slot (Keeps.refl s)).wfOut hw
  | ldb g t m => exact (execLdb_keeps g t m (Keeps.refl s)).wfOut hw
  | ldbs g t m => exact (execLdbs_keeps g t m (Keeps.refl s)).wfOut hw
  | ldh g t m => exact (execLdh_keeps g t m (Keeps.refl s)).wfOut hw
  | ldhs g t m => exact (execLdhs_keeps g t m (Keeps.refl s)).wfOut hw
  | ldw g t m => exact (execLdw_keeps g t m (Keeps.refl s)).wfOut hw
  | ldd g t m => exact (execLdd_keeps g t m (Keeps.refl s)).wfOut hw
  | ldq g t m => exact (execLdq_keeps g t m (Keeps.refl s)).wfOut hw
  | ldx g t m scope acq hint => exact (execLdx_keeps g t m scope acq hint (Keeps.refl s)).wfOut hw
  | stb g t m => exact (execStb_keeps g t m (Keeps.refl s)).wfOut hw
  | sth g t m => exact (execSth_keeps g t m (Keeps.refl s)).wfOut hw
  | stw g t m => exact (execStw_keeps g t m (Keeps.refl s)).wfOut hw
  | std g t m => exact (execStd_keeps g t m (Keeps.refl s)).wfOut hw
  | stq g t m => exact (execStq_keeps g t m (Keeps.refl s)).wfOut hw
  | stx g t m scope rel hint => exact (execStx_keeps g t m scope rel hint (Keeps.refl s)).wfOut hw
  | atomAdd g t m oa => exact (execAtomAdd_keeps g t m oa (Keeps.refl s)).wfOut hw
  | atomMin g t m oa => exact (execAtomMin_keeps g t m oa (Keeps.refl s)).wfOut hw
  | atomMax g t m oa => exact (execAtomMax_keeps g t m oa (Keeps.refl s)).wfOut hw
  | atomAnd g t m oa => exact (execAtomAnd_keeps g t m oa (Keeps.refl s)).wfOut hw
  | atomOr g t m oa => exact (execAtomOr_keeps g t m oa (Keeps.refl s)).wfOut hw
  | atomXor g t m oa => exact (execAtomXor_keeps g t m oa (Keeps.refl s)).wfOut hw
  | atomExch g t m oa => exact (execAtomExch_keeps g t m oa (Keeps.refl s)).wfOut hw
  | atomCas g t m oa c => exact (execAtomCas_keeps g t m oa c (Keeps.refl s)).wfOut hw
  | atomIncw g t m oa => exact (execAtomIncw_keeps g t m oa (Keeps.refl s)).wfOut hw
  | atomFadd g t m oa => exact (execAtomFadd_keeps g t m oa (Keeps.refl s)).wfOut hw
  | atomHadd2 g t m oa => exact (execAtomHadd2_keeps g t m oa (Keeps.refl s)).wfOut hw
  | nop bits => exact (execNop_keeps bits (Keeps.refl s)).wfOut hw
  | wadd g d a b => exact (execWadd_keeps g d a b (Keeps.refl s)).wfOut hw
  | wsub g d a b => exact (execWsub_keeps g d a b (Keeps.refl s)).wfOut hw
  | wmul g d a b => exact (execWmul_keeps g d a b (Keeps.refl s)).wfOut hw
  | wmulhs g d a b => exact (execWmulhs_keeps g d a b (Keeps.refl s)).wfOut hw
  | wmulhn g d a b => exact (execWmulhn_keeps g d a b (Keeps.refl s)).wfOut hw
  | wand g d a b => exact (execWand_keeps g d a b (Keeps.refl s)).wfOut hw
  | wor g d a b => exact (execWor_keeps g d a b (Keeps.refl s)).wfOut hw
  | wxor g d a b => exact (execWxor_keeps g d a b (Keeps.refl s)).wfOut hw
  | wshl g d a b => exact (execWshl_keeps g d a b (Keeps.refl s)).wfOut hw
  | wshr g d a b => exact (execWshr_keeps g d a b (Keeps.refl s)).wfOut hw
  | wsar g d a b => exact (execWsar_keeps g d a b (Keeps.refl s)).wfOut hw
  | wmin g d a b => exact (execWmin_keeps g d a b (Keeps.refl s)).wfOut hw
  | wmax g d a b => exact (execWmax_keeps g d a b (Keeps.refl s)).wfOut hw
  | wnmin g d a b => exact (execWnmin_keeps g d a b (Keeps.refl s)).wfOut hw
  | wnmax g d a b => exact (execWnmax_keeps g d a b (Keeps.refl s)).wfOut hw
  | wcmp g pd cc a b => exact (execWcmp_keeps g pd cc a b (Keeps.refl s)).wfOut hw
  | wncmp g pd cc a b => exact (execWncmp_keeps g pd cc a b (Keeps.refl s)).wfOut hw
  | wsel g d a b => exact (execWsel_keeps g d a b (Keeps.refl s)).wfOut hw
  | wmov g d a => exact (execWmov_keeps g d a (Keeps.refl s)).wfOut hw
  | wnot g d a => exact (execWnot_keeps g d a (Keeps.refl s)).wfOut hw
  | wneg g d a => exact (execWneg_keeps g d a (Keeps.refl s)).wfOut hw
  | wabs g d a => exact (execWabs_keeps g d a (Keeps.refl s)).wfOut hw
  | wpopc g d a => exact (execWpopc_keeps g d a (Keeps.refl s)).wfOut hw
  | wclz g d a => exact (execWclz_keeps g d a (Keeps.refl s)).wfOut hw
  | wctz g d a => exact (execWctz_keeps g d a (Keeps.refl s)).wfOut hw
  | wbrev g d a => exact (execWbrev_keeps g d a (Keeps.refl s)).wfOut hw
  | wbswap g d a => exact (execWbswap_keeps g d a (Keeps.refl s)).wfOut hw
  | wsext32 g d a => exact (execWsext32_keeps g d a (Keeps.refl s)).wfOut hw
  | wzext32 g d a => exact (execWzext32_keeps g d a (Keeps.refl s)).wfOut hw
  | dadd g d a b => exact (execDadd_keeps g d a b (Keeps.refl s)).wfOut hw
  | dsub g d a b => exact (execDsub_keeps g d a b (Keeps.refl s)).wfOut hw
  | dmul g d a b => exact (execDmul_keeps g d a b (Keeps.refl s)).wfOut hw
  | dfma g d a b => exact (execDfma_keeps g d a b (Keeps.refl s)).wfOut hw
  | dmin g d a b => exact (execDmin_keeps g d a b (Keeps.refl s)).wfOut hw
  | dmax g d a b => exact (execDmax_keeps g d a b (Keeps.refl s)).wfOut hw
  | dabs g d a => exact (execDabs_keeps g d a (Keeps.refl s)).wfOut hw
  | dneg g d a => exact (execDneg_keeps g d a (Keeps.refl s)).wfOut hw
  | dsqrt g d a => exact (execDsqrt_keeps g d a (Keeps.refl s)).wfOut hw
  | drcp g d a => exact (execDrcp_keeps g d a (Keeps.refl s)).wfOut hw
  | dfloor g d a => exact (execDfloor_keeps g d a (Keeps.refl s)).wfOut hw
  | dceil g d a => exact (execDceil_keeps g d a (Keeps.refl s)).wfOut hw
  | dtrunc g d a => exact (execDtrunc_keeps g d a (Keeps.refl s)).wfOut hw
  | drint g d a => exact (execDrint_keeps g d a (Keeps.refl s)).wfOut hw
  | dclass g d a => exact (execDclass_keeps g d a (Keeps.refl s)).wfOut hw
  | dcmp g pd cc a b => exact (execDcmp_keeps g pd cc a b (Keeps.refl s)).wfOut hw
  | dcvtDS64 g d a => exact (execDcvtDS64_keeps g d a (Keeps.refl s)).wfOut hw
  | dcvtDN64 g d a => exact (execDcvtDN64_keeps g d a (Keeps.refl s)).wfOut hw
  | dcvtS64D g d a => exact (execDcvtS64D_keeps g d a (Keeps.refl s)).wfOut hw
  | dcvtN64D g d a => exact (execDcvtN64D_keeps g d a (Keeps.refl s)).wfOut hw
  | dcvtDF32l g d a => exact (execDcvtDF32l_keeps g d a (Keeps.refl s)).wfOut hw
  | dcvtF32D g d a => exact (execDcvtF32D_keeps g d a (Keeps.refl s)).wfOut hw
  | dcvtDS32 g d a => exact (execDcvtDS32_keeps g d a (Keeps.refl s)).wfOut hw
  | dcvtS32D g d a => exact (execDcvtS32D_keeps g d a (Keeps.refl s)).wfOut hw
  | v2x g d a => exact (execV2x_keeps g d a (Keeps.refl s)).wfOut hw
  | v2xs g d a => exact (execV2xs_keeps g d a (Keeps.refl s)).wfOut hw
  | vp2x g d v => exact (execVp2x_keeps g d v (Keeps.refl s)).wfOut hw
  | x2v g d a => exact (execX2v_keeps g d a (Keeps.refl s)).wfOut hw
  | x2vh g d a => exact (execX2vh_keeps g d a (Keeps.refl s)).wfOut hw
  | x2vp g v a => exact (execX2vp_keeps g v a (Keeps.refl s)).wfOut hw
  | wld g t b imm => exact (execWld_keeps g t b imm (Keeps.refl s)).wfOut hw
  | wst g t b imm => exact (execWst_keeps g t b imm (Keeps.refl s)).wfOut hw
  | bra g disp => exact (execBra_keeps g disp (Keeps.refl s)).wfOut hw
  | brd g disp => exact (execBrd_keeps g disp (Keeps.refl s)).wfOut hw
  | call g disp => exact (execCall_keeps g disp (Keeps.refl s)).wfOut hw
  | callr g a => exact (execCallr_keeps g a (Keeps.refl s)).wfOut hw
  | ret g => exact (execRet_keeps g (Keeps.refl s)).wfOut hw
  | jmp g a => exact (execJmp_keeps g a (Keeps.refl s)).wfOut hw
  | exit g => exact (execExit_keeps g (Keeps.refl s)).wfOut hw
  | yield g => exact (execYield_keeps g (Keeps.refl s)).wfOut hw
  | trap g n => exact (execTrap_keeps g n (Keeps.refl s)).wfOut hw
  | tret g => exact (execTret_keeps g (Keeps.refl s)).wfOut hw
  | srd g d idx => exact (execSrd_keeps g d idx (Keeps.refl s)).wfOut hw
  | swr g t idx => exact (execSwr_keeps g t idx (Keeps.refl s)).wfOut hw
  | tagof g d r => exact (execTagof_keeps g d r (Keeps.refl s)).wfOut hw
  | fmtof g d r => exact (execFmtof_keeps g d r (Keeps.refl s)).wfOut hw
  | waitc g loads stores copies tiles => exact (execWaitc_keeps g loads stores copies tiles (Keeps.refl s)).wfOut hw
  | fence g scope kinds => exact (execFence_keeps g scope kinds (Keeps.refl s)).wfOut hw
  | ftok g d scope kinds => exact (execFtok_keeps g d scope kinds (Keeps.refl s)).wfOut hw
  | fwait g a => exact (execFwait_keeps g a (Keeps.refl s)).wfOut hw
  | bar g cluster id cnt => exact (execBar_keeps g cluster id cnt (Keeps.refl s)).wfOut hw
  | ksetCount g k cluster a => exact (execKsetCount_keeps g k cluster a (Keeps.refl s)).wfOut hw
  | ksetMask g k cluster a => exact (execKsetMask_keeps g k cluster a (Keeps.refl s)).wfOut hw
  | ksign g k cluster a => exact (execKsign_keeps g k cluster a (Keeps.refl s)).wfOut hw
  | kxchTid g k cluster d a j => exact (execKxchTid_keeps g k cluster d a j (Keeps.refl s)).wfOut hw
  | kxchPos g k cluster d a j => exact (execKxchPos_keeps g k cluster d a j (Keeps.refl s)).wfOut hw
  | kredAddN32 g k cluster d a => exact (execKredAddN32_keeps g k cluster d a (Keeps.refl s)).wfOut hw
  | kredAddF32 g k cluster d a => exact (execKredAddF32_keeps g k cluster d a (Keeps.refl s)).wfOut hw
  | kredMinS32 g k cluster d a => exact (execKredMinS32_keeps g k cluster d a (Keeps.refl s)).wfOut hw
  | kredMaxS32 g k cluster d a => exact (execKredMaxS32_keeps g k cluster d a (Keeps.refl s)).wfOut hw
  | kredMinF32 g k cluster d a => exact (execKredMinF32_keeps g k cluster d a (Keeps.refl s)).wfOut hw
  | kredMaxF32 g k cluster d a => exact (execKredMaxF32_keeps g k cluster d a (Keeps.refl s)).wfOut hw
  | kredAnd g k cluster d a => exact (execKredAnd_keeps g k cluster d a (Keeps.refl s)).wfOut hw
  | kredOr g k cluster d a => exact (execKredOr_keeps g k cluster d a (Keeps.refl s)).wfOut hw
  | kredXor g k cluster d a => exact (execKredXor_keeps g k cluster d a (Keeps.refl s)).wfOut hw
  | kredNz g k cluster d a => exact (execKredNz_keeps g k cluster d a (Keeps.refl s)).wfOut hw
  | mma g xa xb xc c => exact (execMma_keeps g xa xb xc c (Keeps.refl s)).wfOut hw
  | mdrain g xa xb xc c => exact (execMdrain_keeps g xa xb xc c (Keeps.refl s)).wfOut hw
  | mzero g slot => exact (execMzero_keeps g slot (Keeps.refl s)).wfOut hw
  | mldsc g d a => exact (execMldsc_keeps g d a (Keeps.refl s)).wfOut hw
  | mstat g d slot => exact (execMstat_keeps g d slot (Keeps.refl s)).wfOut hw
  | tbinit g a c => exact (execTbinit_keeps g a c (Keeps.refl s)).wfOut hw
  | tbarrive g d a c => exact (execTbarrive_keeps g d a c (Keeps.refl s)).wfOut hw
  | tbexpect g a c => exact (execTbexpect_keeps g a c (Keeps.refl s)).wfOut hw
  | tbtest g d a c => exact (execTbtest_keeps g d a c (Keeps.refl s)).wfOut hw
  | tbwait g a p => exact (execTbwait_keeps g a p (Keeps.refl s)).wfOut hw
  | wlpush g wl v dep => exact (execWlpush_keeps g wl v dep (Keeps.refl s)).wfOut hw
  | wlpop g xa ps wl v => exact (execWlpop_keeps g xa ps wl v (Keeps.refl s)).wfOut hw
  | wltry g xa ps wl v => exact (execWltry_keeps g xa ps wl v (Keeps.refl s)).wfOut hw
  | wldone g wl => exact (execWldone_keeps g wl (Keeps.refl s)).wfOut hw
  | wlfloor g xa wl => exact (execWlfloor_keeps g xa wl (Keeps.refl s)).wfOut hw
  | wlstat g xa wl => exact (execWlstat_keeps g xa wl (Keeps.refl s)).wfOut hw
  | fenter g dep a => exact (execFenter_keeps g dep a (Keeps.refl s)).wfOut hw
  | fleave g dep => exact (execFleave_keeps g dep (Keeps.refl s)).wfOut hw
  | fopen g cluster dep a k => exact (execFopen_keeps g cluster dep a k (Keeps.refl s)).wfOut hw
  | flink g dep a => exact (execFlink_keeps g dep a (Keeps.refl s)).wfOut hw
  | fhnd g d dep => exact (execFhnd_keeps g d dep (Keeps.refl s)).wfOut hw
  | fdrop g a => exact (execFdrop_keeps g a (Keeps.refl s)).wfOut hw
  | fsync g dep => exact (execFsync_keeps g dep (Keeps.refl s)).wfOut hw
  | funlink g dep => exact (execFunlink_keeps g dep (Keeps.refl s)).wfOut hw
  | rcall g region argv resv argc resc => exact (execRcall_keeps g region argv resv argc resc (Keeps.refl s)).wfOut hw
  | rcallExact g region argv resv argc resc => exact (execRcallExact_keeps g region argv resv argc resc (Keeps.refl s)).wfOut hw
  | rcallSonly g region argv resv argc resc => exact (execRcallSonly_keeps g region argv resv argc resc (Keeps.refl s)).wfOut hw
  | rret g => exact (execRret_keeps g (Keeps.refl s)).wfOut hw
  | rload g xb => exact (execRload_keeps g xb (Keeps.refl s)).wfOut hw
  | rctlEvict g xa xb => exact (execRctlEvict_keeps g xa xb (Keeps.refl s)).wfOut hw
  | rctlPin g xa xb => exact (execRctlPin_keeps g xa xb (Keeps.refl s)).wfOut hw
  | rctlUnpin g xa xb => exact (execRctlUnpin_keeps g xa xb (Keeps.refl s)).wfOut hw
  | rctlFlush g xa xb => exact (execRctlFlush_keeps g xa xb (Keeps.refl s)).wfOut hw
  | rctr g xa xb => exact (execRctr_keeps g xa xb (Keeps.refl s)).wfOut hw
  | rinfo g xa xb => exact (execRinfo_keeps g xa xb (Keeps.refl s)).wfOut hw
  | collAllreduce g xa xb xc send recv ty op => exact (execCollAllreduce_keeps g xa xb xc send recv ty op (Keeps.refl s)).wfOut hw
  | collReducescatter g xa xb xc send recv ty op => exact (execCollReducescatter_keeps g xa xb xc send recv ty op (Keeps.refl s)).wfOut hw
  | collAllgather g xa xb xc send recv ty => exact (execCollAllgather_keeps g xa xb xc send recv ty (Keeps.refl s)).wfOut hw
  | collBroadcast g xa xb xc send recv ty => exact (execCollBroadcast_keeps g xa xb xc send recv ty (Keeps.refl s)).wfOut hw
  | collAlltoall g xa xb xc send recv ty => exact (execCollAlltoall_keeps g xa xb xc send recv ty (Keeps.refl s)).wfOut hw
  | bkpt g => exact (execBkpt_keeps g (Keeps.refl s)).wfOut hw
  | tlbinv g a => exact (execTlbinv_keeps g a (Keeps.refl s)).wfOut hw
  | l1clean g a => exact (execL1clean_keeps g a (Keeps.refl s)).wfOut hw
  | archive g a => exact (execArchive_keeps g a (Keeps.refl s)).wfOut hw
  | qlaunch g a => exact (execQlaunch_keeps g a (Keeps.refl s)).wfOut hw
  | qsignal g a => exact (execQsignal_keeps g a (Keeps.refl s)).wfOut hw
  | qwaitsig g a => exact (execQwaitsig_keeps g a (Keeps.refl s)).wfOut hw
  | qswitch g a => exact (execQswitch_keeps g a (Keeps.refl s)).wfOut hw
  | qphase g a => exact (execQphase_keeps g a (Keeps.refl s)).wfOut hw
  | qdone g => exact (execQdone_keeps g (Keeps.refl s)).wfOut hw
  | renable g a => exact (execRenable_keeps g a (Keeps.refl s)).wfOut hw
  | wlcfg g a => exact (execWlcfg_keeps g a (Keeps.refl s)).wfOut hw
  | launchDecision l => exact (execLaunchDecision_keeps l (Keeps.refl s)).wfOut hw
  | gangPlacement l gi die cluster first rows bases zap => exact (execGangPlacement_keeps l gi die cluster first rows bases zap (Keeps.refl s)).wfOut hw
  | phaseClean l => exact (execPhaseClean_keeps l (Keeps.refl s)).wfOut hw
  | workgroupEnd w => exact (execWorkgroupEnd_keeps w (Keeps.refl s)).wfOut hw
  | gangRetire gid => exact (execGangRetire_keeps gid (Keeps.refl s)).wfOut hw
  | pick core => exact execPick_wf core hw
  | ageCap t => exact (execAgeCap_keeps t (Keeps.refl s)).wfOut hw
  | regroupRelease w target => exact (execRegroupRelease_keeps w target (Keeps.refl s)).wfOut hw
  | loadReturn t n ecc => exact (execLoadReturn_keeps t n ecc (Keeps.refl s)).wfOut hw
  | storePerformed t n => exact (execStorePerformed_keeps t n (Keeps.refl s)).wfOut hw
  | l1Eviction core cid line => exact (execL1Eviction_keeps core cid line (Keeps.refl s)).wfOut hw
  | fenceComplete t => exact (execFenceComplete_keeps t (Keeps.refl s)).wfOut hw
  | fenceRollback t => exact (execFenceRollback_keeps t (Keeps.refl s)).wfOut hw
  | tokenComplete t seq => exact (execTokenComplete_keeps t seq (Keeps.refl s)).wfOut hw
  | pageWalk core cid va => exact (execPageWalk_keeps core cid va (Keeps.refl s)).wfOut hw
  | pageRequest rid => exact (execPageRequest_keeps rid (Keeps.refl s)).wfOut hw
  | pagerResponse cid => exact (execPagerResponse_keeps cid (Keeps.refl s)).wfOut hw
  | kill cid w => exact (execKill_keeps cid w (Keeps.refl s)).wfOut hw
  | copyTakeEntry w => exact (execCopyTakeEntry_keeps w (Keeps.refl s)).wfOut hw
  | copy w ch => exact (execCopy_keeps w ch (Keeps.refl s)).wfOut hw
  | gather w ch => exact (execGather_keeps w ch (Keeps.refl s)).wfOut hw
  | fill w ch => exact (execFill_keeps w ch (Keeps.refl s)).wfOut hw
  | convert w ch => exact (execConvert_keeps w ch (Keeps.refl s)).wfOut hw
  | convertout w ch => exact (execConvertout_keeps w ch (Keeps.refl s)).wfOut hw
  | mmaEntry w => exact (execMmaEntry_keeps w (Keeps.refl s)).wfOut hw
  | mdrainEntry w => exact (execMdrainEntry_keeps w (Keeps.refl s)).wfOut hw
  | mctlEntry w => exact (execMctlEntry_keeps w (Keeps.refl s)).wfOut hw
  | matrixEntryComplete w => exact (execMatrixEntryComplete_keeps w (Keeps.refl s)).wfOut hw
  | mmaResume w => exact (execMmaResume_keeps w (Keeps.refl s)).wfOut hw
  | regionLoad core cid region => exact (execRegionLoad_keeps core cid region (Keeps.refl s)).wfOut hw
  | surrogateEvaluation core n => exact (execSurrogateEvaluation_keeps core n (Keeps.refl s)).wfOut hw
  | restorationStart core n => exact (execRestorationStart_keeps core n (Keeps.refl s)).wfOut hw
  | violationReport n => exact (execViolationReport_keeps n (Keeps.refl s)).wfOut hw
  | disableApply core cid region => exact (execDisableApply_keeps core cid region (Keeps.refl s)).wfOut hw
  | enableApply core cid region => exact (execEnableApply_keeps core cid region (Keeps.refl s)).wfOut hw
  | counterBlockWrite cid region => exact (execCounterBlockWrite_keeps cid region (Keeps.refl s)).wfOut hw
  | floorRefresh cid wl => exact (execFloorRefresh_keeps cid wl (Keeps.refl s)).wfOut hw
  | groupFloorRefresh cid wl peer quiet => exact (execGroupFloorRefresh_keeps cid wl peer quiet (Keeps.refl s)).wfOut hw
  | floorDropAck t => exact (execFloorDropAck_keeps t (Keeps.refl s)).wfOut hw
  | wlpushPlace t => exact (execWlpushPlace_keeps t (Keeps.refl s)).wfOut hw
  | wlpopServe t n => exact (execWlpopServe_keeps t n (Keeps.refl s)).wfOut hw
  | frontBufferSend core n => exact (execFrontBufferSend_keeps core n (Keeps.refl s)).wfOut hw
  | chunkSpill cid wl die bucket => exact (execChunkSpill_keeps cid wl die bucket (Keeps.refl s)).wfOut hw
  | chunkReadBack cid wl die n => exact (execChunkReadBack_keeps cid wl die n (Keeps.refl s)).wfOut hw
  | chunkMigrate cid wl src dst count => exact (execChunkMigrate_keeps cid wl src dst count (Keeps.refl s)).wfOut hw
  | spillRefill w r => exact (execSpillRefill_keeps w r (Keeps.refl s)).wfOut hw
  | contextCreate cid => exact execContextCreate_wf cid hw
  | contextDestroy cid => exact execContextDestroy_wf cid hw
  | contextSelect cid => exact (execContextSelect_keeps cid (Keeps.refl s)).wfOut hw
  | queueEnable q => exact execQueueEnable_wf q hw
  | queueDisable q => exact execQueueDisable_wf q hw
  | queueQuiesce q => exact execQueueQuiesce_wf q hw
  | queueNotify f q tail => exact (execQueueNotify_keeps f q tail (Keeps.refl s)).wfOut hw
  | packetStart c q => exact (execPacketStart_keeps c q (Keeps.refl s)).wfOut hw
  | qwaitsigResume q => exact (execQwaitsigResume_keeps q (Keeps.refl s)).wfOut hw
  | tickstopWrite v => exact execTickstopWrite_wf v hw
  | tickStop => exact execTickStop_wf hw
  | registerWrite off v => exact execRegisterWrite_wf off v hw
  | preemptRequest gids bound => exact (execPreemptRequest_keeps gids bound (Keeps.refl s)).wfOut hw
  | drainExpire gid => exact (execDrainExpire_keeps gid (Keeps.refl s)).wfOut hw
  | gangSave gid => exact (execGangSave_keeps gid (Keeps.refl s)).wfOut hw
  | gangRestore slot die cluster rows bases => exact (execGangRestore_keeps slot die cluster rows bases (Keeps.refl s)).wfOut hw
  | switchTick => exact (execSwitchTick_keeps (Keeps.refl s)).wfOut hw
  | switchComplete => exact (execSwitchComplete_keeps (Keeps.refl s)).wfOut hw
  | haltRequest ts => exact (execHaltRequest_keeps ts (Keeps.refl s)).wfOut hw
  | threadHalt t => exact (execThreadHalt_keeps t (Keeps.refl s)).wfOut hw
  | resumeRequest ts => exact (execResumeRequest_keeps ts (Keeps.refl s)).wfOut hw
  | sample core => exact (execSample_keeps core (Keeps.refl s)).wfOut hw
  | checkpoint cid => exact (execCheckpoint_keeps cid (Keeps.refl s)).wfOut hw
  | gatePass t => exact (execGatePass_keeps t (Keeps.refl s)).wfOut hw
  | intervalClose cid => exact (execIntervalClose_keeps cid (Keeps.refl s)).wfOut hw
  | collChunk cid g k peers => exact (execCollChunk_keeps cid g k peers (Keeps.refl s)).wfOut hw
  | collectiveComplete cid g k ok => exact (execCollectiveComplete_keeps cid g k ok (Keeps.refl s)).wfOut hw
  | ingressWrite f va bytes => exact (execIngressWrite_keeps f va bytes (Keeps.refl s)).wfOut hw
  | ingressRead f va n => exact (execIngressRead_keeps f va n (Keeps.refl s)).wfOut hw
  | functionLevelReset f => exact (execFunctionLevelReset_keeps f (Keeps.refl s)).wfOut hw
  | coreFailure core => exact execCoreFailure_wf core hw
  | memoryRetire hbm n => exact execMemoryRetire_wf hbm n hw
  | moduleReset => exact execModuleReset_wf s
  | attestationQuote cid nonce => exact (execAttestationQuote_keeps cid nonce (Keeps.refl s)).wfOut hw
  | linkFailure port => exact execLinkFailure_wf port hw
  | flitRetry port => exact (execFlitRetry_keeps port (Keeps.refl s)).wfOut hw
  | podLeave => exact execPodLeave_wf hw
  | linkUp port => exact execLinkUp_wf port hw
  | ngurilIngress port pa acc => exact (execNgurilIngress_keeps port pa acc (Keeps.refl s)).wfOut hw
  | vmodeWrite v => exact execVmodeWrite_wf v hw
  | instructionFetch t => exact (execInstructionFetch_keeps t (Keeps.refl s)).wfOut hw
  | resultWriteback t r => exact (execResultWriteback_keeps t r (Keeps.refl s)).wfOut hw

/-! ## Issuing -/

theorem runRow_wf (w : Nat) (row : Row) {s : State} (hw : Memory.wf s.mem = true) : WfOut (runRow w row s) := by
  have h := exec_wf row.instr (countIssue s) ((countIssue_keeps (Keeps.refl s)).wf hw)
  unfold runRow execRow
  split
  · rename_i t e; exact .next ((afterExec_keeps _ _ _ (Keeps.refl t)).wf (h.wf t e))
  · exact ⟨fun _ e => by cases e⟩
  · exact ⟨fun _ e => by cases e⟩

theorem overBudget_wf (row : Row) {s : State} (hw : Memory.wf s.mem = true) : WfOut (overBudget row s) := by
  have h := exec_wf row.instr s hw
  unfold overBudget execRow
  split
  · rename_i t e
    have a : WfOut (.next t) := .next (h.wf t e)
    have b : WfOut (trap s cQBUDGET 0 0) := (trap_keeps _ _ _ (Keeps.refl s)).wfOut hw
    generalize (faultsQueue s t || _) = c
    cases c
    · exact b
    · exact a
  · exact ⟨fun _ e => by cases e⟩
  · exact ⟨fun _ e => by cases e⟩

theorem tryRow_wf (w : Nat) (row : Row) {s : State} (hw : Memory.wf s.mem = true) : WfOut (tryRow w row s) := by
  have h := Keeps.refl s
  unfold tryRow
  split
  · exact (trap_keeps _ _ _ h).wfOut hw
  split
  · exact (waitAt_keeps _ h).wfOut hw
  split
  · exact (trap_keeps _ _ _ (State.onCur_keeps _ h)).wfOut hw
  split
  · exact .next hw
  split
  · exact (waitAt_keeps _ h).wfOut hw
  split
  · exact overBudget_wf row hw
  · exact runRow_wf w row hw

theorem issueCur_wf {s : State} (hw : Memory.wf s.mem = true) : WfOut (issueCur s) := by
  unfold issueCur
  split
  · exact .next hw
  dsimp only
  have k : Keeps s (fetchInstr (s.onCur (fun t => { t with wait := .none })) (s.onCur (fun t => { t with wait := .none })).cur).2 :=
    fetchInstr_keeps _ (State.onCur_keeps _ (Keeps.refl s))
  split <;> rename_i e
  · rw [e] at k; exact (trap_keeps _ _ _ k).wfOut hw
  · exact ⟨fun _ e => by cases e⟩
  · rw [e] at k; exact (fetchAbsent_keeps _ k).wfOut hw
  · rw [e] at k
    split
    · exact (trap_keeps _ _ _ k).wfOut hw
    · exact tryRow_wf _ _ (k.wf hw)


end Sys2Proof.Machine
end

