-- ==== Sys2Proof/Laws/Operands.lean ====
section
/-! SUPPORT. What the shared register writes of an instruction come to. -/

namespace Sys2Proof.Machine

theorem LaneRegs.of_write8 (r : Regs) (d : Dst8) (n : Nat) (w : W32) (f : Fl) :
    LaneRegs r (((r.write8 d w).addFl f).adv n) d n w f := by
  refine ⟨by simp, rfl, fun k => ?_, fun k => ?_, by simp, ?_⟩
  · cases d with
    | v m =>
      show (r.v.set m.val w m.isLt)[k.val] = if Dst8.v m = Dst8.v k then w else r.v[k.val]
      by_cases h : m = k
      · subst h; simp
      · have h' : m.val ≠ k.val := fun e => h (Fin.ext e)
        simp [h, h']
    | o m => simp [Regs.write8, Regs.put8, Regs.addFl, Regs.adv, Regs.getV]
    | lr => simp [Regs.write8, Regs.put8, Regs.addFl, Regs.adv, Regs.getV]
    | zero => simp [Regs.write8, Regs.put8, Regs.addFl, Regs.adv, Regs.getV]
  · cases d with
    | o m =>
      show (r.o.set m.val w m.isLt)[k.val] = if Dst8.o m = Dst8.o k then w else r.o[k.val]
      by_cases h : m = k
      · subst h; simp
      · have h' : m.val ≠ k.val := fun e => h (Fin.ext e)
        simp [h, h']
    | v m => simp [Regs.write8, Regs.put8, Regs.setV, Regs.addFl, Regs.adv]
    | lr => simp [Regs.write8, Regs.put8, Regs.addFl, Regs.adv]
    | zero => simp [Regs.write8, Regs.put8, Regs.addFl, Regs.adv]
  · cases d <;> rfl

theorem OnlyRegs.of_onRegs (s : State) (f : Regs → Regs) : OnlyRegs s (s.onRegs f) := ⟨rfl, fun _ => rfl⟩

theorem fsr_or_zero (r : Regs) : r.addFl 0 = r := by simp [Regs.addFl, fsrAdd]

theorem laneFl_done {g : Guard} {s : State} (h : s.cur.r.holds g = true) (d : Dst8) (n : Nat) (w : Nat × Fl) :
    ∃ t, laneFl g d n w s = .next t ∧ LaneDone s t d n (BitVec.ofNat 32 w.1) w.2 :=
  ⟨_, by unfold laneFl guarded; exact if_pos h, .of_onRegs _ _, .of_write8 _ _ _ _ _⟩

theorem laneWrite_done {g : Guard} {s : State} (h : s.cur.r.holds g = true) (d : Dst8) (n : Nat) (w : W32) :
    ∃ t, laneWrite g d n w s = .next t ∧ LaneDone s t d n w 0 := by
  refine ⟨_, by unfold laneWrite guarded; exact if_pos h, .of_onRegs _ _, ?_⟩
  have := LaneRegs.of_write8 s.cur.r d n w 0
  rwa [fsr_or_zero] at this

theorem GroupRegs.of_setX (r : Regs) (d : XReg) (n : Nat) (w : W64) (f : Fl) :
    GroupRegs r (((r.setX d w).addFl f).adv n) d n w f :=
  ⟨by simp, fun k => Regs.getX_setX r d k w, by simp, rfl⟩

theorem groupFl_done {g : Guard} {s : State} (h : s.cur.r.holds g = true) (d : XReg) (n : Nat) (w : Nat × Fl) :
    ∃ t, groupFl g d n w s = .next t ∧ GroupDone s t d n (BitVec.ofNat 64 w.1) w.2 :=
  ⟨_, by unfold groupFl guarded; exact if_pos h, .of_onRegs _ _, .of_setX _ _ _ _ _⟩

theorem groupWrite_done {g : Guard} {s : State} (h : s.cur.r.holds g = true) (d : XReg) (n : Nat) (w : W64) :
    ∃ t, groupWrite g d n w s = .next t ∧ GroupDone s t d n w 0 := by
  refine ⟨_, by unfold groupWrite guarded; exact if_pos h, .of_onRegs _ _, ?_⟩
  have := GroupRegs.of_setX s.cur.r d n w 0
  rwa [fsr_or_zero] at this

theorem PredRegs.of_setP (r : Regs) (pd : PReg) (n : Nat) (b : Bool) (f : Fl) :
    PredRegs r (((r.setP pd b).addFl f).adv n) pd n b f :=
  ⟨by simp, fun k => Regs.getP_setP r pd k b, by simp, rfl⟩

theorem predWrite_done {g : Guard} {s : State} (h : s.cur.r.holds g = true) (pd : PReg) (n : Nat) (b : Bool) (f : Fl) :
    ∃ t, predWrite g pd n b f s = .next t ∧ PredDone s t pd n b f :=
  ⟨_, by unfold predWrite guarded; exact if_pos h, .of_onRegs _ _, .of_setP _ _ _ _ _⟩

theorem guarded_false {g : Guard} {s : State} (h : s.cur.r.holds g = false) (n : Nat) (k : Out) :
    guarded g n s k = .next (s.adv n) := by
  simp [guarded, h]

theorem guarded_true {g : Guard} {s : State} (h : s.cur.r.holds g = true) (n : Nat) (k : Out) : guarded g n s k = k := by
  simp [guarded, h]

end Sys2Proof.Machine
end

