-- ==== Sys2Proof/Laws/PerInstr.lean ====
section
/-! SUPPORT. One lemma for each constructor: the decoder reads its encoding back (R20-R36, R47-R60). -/

set_option Elab.async false

namespace Sys2Proof.Laws

namespace RoundTrip

/-- What reading back says of an instruction: a well-formed one, not an event, not one of the three RCTL spellings (R271). -/
def Statement (i : Instr) : Prop := i.wf = true → i.isEvent = false → i.isRctlTwin = false → Reads i

theorem iadd (g : Guard) (d : Dst8) (a : Src8) (b : Src5) : Statement (.iadd g d a b) :=
  fun hw _ _ => reads_LA (by decide) rfl rfl (fun w l l2 h => by unfold decodeLane; rw [h]; rfl) (of_decide_eq_true hw)

theorem isub (g : Guard) (d : Dst8) (a : Src8) (b : Src5) : Statement (.isub g d a b) :=
  fun hw _ _ => reads_LA (by decide) rfl rfl (fun w l l2 h => by unfold decodeLane; rw [h]; rfl) (of_decide_eq_true hw)

theorem imul (g : Guard) (d : Dst8) (a : Src8) (b : Src5) : Statement (.imul g d a b) :=
  fun hw _ _ => reads_LA (by decide) rfl rfl (fun w l l2 h => by unfold decodeLane; rw [h]; rfl) (of_decide_eq_true hw)

theorem imulhs (g : Guard) (d : Dst8) (a : Src8) (b : Src5) : Statement (.imulhs g d a b) :=
  fun hw _ _ => reads_LA (by decide) rfl rfl (fun w l l2 h => by unfold decodeLane; rw [h]; rfl) (of_decide_eq_true hw)

theorem imulhn (g : Guard) (d : Dst8) (a : Src8) (b : Src5) : Statement (.imulhn g d a b) :=
  fun hw _ _ => reads_LA (by decide) rfl rfl (fun w l l2 h => by unfold decodeLane; rw [h]; rfl) (of_decide_eq_true hw)

theorem imad (g : Guard) (d : Dst8) (a : Src8) (b : Src5) : Statement (.imad g d a b) :=
  fun hw _ _ => reads_LA (by decide) rfl rfl (fun w l l2 h => by unfold decodeLane; rw [h]; rfl) (of_decide_eq_true hw)

theorem isad (g : Guard) (d : Dst8) (a : Src8) (b : Src5) : Statement (.isad g d a b) :=
  fun hw _ _ => reads_LA (by decide) rfl rfl (fun w l l2 h => by unfold decodeLane; rw [h]; rfl) (of_decide_eq_true hw)

theorem imin (g : Guard) (d : Dst8) (a : Src8) (b : Src5) : Statement (.imin g d a b) :=
  fun hw _ _ => reads_LA (by decide) rfl rfl (fun w l l2 h => by unfold decodeLane; rw [h]; rfl) (of_decide_eq_true hw)

theorem imax (g : Guard) (d : Dst8) (a : Src8) (b : Src5) : Statement (.imax g d a b) :=
  fun hw _ _ => reads_LA (by decide) rfl rfl (fun w l l2 h => by unfold decodeLane; rw [h]; rfl) (of_decide_eq_true hw)

theorem nmin (g : Guard) (d : Dst8) (a : Src8) (b : Src5) : Statement (.nmin g d a b) :=
  fun hw _ _ => reads_LA (by decide) rfl rfl (fun w l l2 h => by unfold decodeLane; rw [h]; rfl) (of_decide_eq_true hw)

theorem nmax (g : Guard) (d : Dst8) (a : Src8) (b : Src5) : Statement (.nmax g d a b) :=
  fun hw _ _ => reads_LA (by decide) rfl rfl (fun w l l2 h => by unfold decodeLane; rw [h]; rfl) (of_decide_eq_true hw)

theorem and (g : Guard) (d : Dst8) (a : Src8) (b : Src5) : Statement (.and g d a b) :=
  fun hw _ _ => reads_LA (by decide) rfl rfl (fun w l l2 h => by unfold decodeLane; rw [h]; rfl) (of_decide_eq_true hw)

theorem or (g : Guard) (d : Dst8) (a : Src8) (b : Src5) : Statement (.or g d a b) :=
  fun hw _ _ => reads_LA (by decide) rfl rfl (fun w l l2 h => by unfold decodeLane; rw [h]; rfl) (of_decide_eq_true hw)

theorem xor (g : Guard) (d : Dst8) (a : Src8) (b : Src5) : Statement (.xor g d a b) :=
  fun hw _ _ => reads_LA (by decide) rfl rfl (fun w l l2 h => by unfold decodeLane; rw [h]; rfl) (of_decide_eq_true hw)

theorem andn (g : Guard) (d : Dst8) (a : Src8) (b : Src5) : Statement (.andn g d a b) :=
  fun hw _ _ => reads_LA (by decide) rfl rfl (fun w l l2 h => by unfold decodeLane; rw [h]; rfl) (of_decide_eq_true hw)

theorem shl (g : Guard) (d : Dst8) (a : Src8) (b : Src5) : Statement (.shl g d a b) :=
  fun hw _ _ => reads_LA (by decide) rfl rfl (fun w l l2 h => by unfold decodeLane; rw [h]; rfl) (of_decide_eq_true hw)

theorem shr (g : Guard) (d : Dst8) (a : Src8) (b : Src5) : Statement (.shr g d a b) :=
  fun hw _ _ => reads_LA (by decide) rfl rfl (fun w l l2 h => by unfold decodeLane; rw [h]; rfl) (of_decide_eq_true hw)

theorem sar (g : Guard) (d : Dst8) (a : Src8) (b : Src5) : Statement (.sar g d a b) :=
  fun hw _ _ => reads_LA (by decide) rfl rfl (fun w l l2 h => by unfold decodeLane; rw [h]; rfl) (of_decide_eq_true hw)

theorem bfen (g : Guard) (d : Dst8) (a : Src8) (b : Src5) : Statement (.bfen g d a b) :=
  fun hw _ _ => reads_LA (by decide) rfl rfl (fun w l l2 h => by unfold decodeLane; rw [h]; rfl) (of_decide_eq_true hw)

theorem bfes (g : Guard) (d : Dst8) (a : Src8) (b : Src5) : Statement (.bfes g d a b) :=
  fun hw _ _ => reads_LA (by decide) rfl rfl (fun w l l2 h => by unfold decodeLane; rw [h]; rfl) (of_decide_eq_true hw)

theorem bfi (g : Guard) (d : Dst8) (a : Src8) (b : Src5) : Statement (.bfi g d a b) :=
  fun hw _ _ => reads_LA (by decide) rfl rfl (fun w l l2 h => by unfold decodeLane; rw [h]; rfl) (of_decide_eq_true hw)

theorem prmt (g : Guard) (d : Dst8) (a : Src8) (b : Src5) : Statement (.prmt g d a b) :=
  fun hw _ _ => reads_LA (by decide) rfl rfl (fun w l l2 h => by unfold decodeLane; rw [h]; rfl) (of_decide_eq_true hw)

theorem csel (g : Guard) (d : Dst8) (a : Src8) (b : Src5) : Statement (.csel g d a b) :=
  fun hw _ _ => reads_LA (by decide) rfl rfl (fun w l l2 h => by unfold decodeLane; rw [h]; rfl) (of_decide_eq_true hw)

theorem mov (g : Guard) (d : Dst8) (a : Src8) : Statement (.mov g d a) :=
  fun _ _ _ => reads_LU (by decide)
    (by decide) rfl rfl (fun w l l2 h k => by unfold decodeLane; rw [h]; show decIunary w l = _; unfold decIunary; rw [k]; rfl)

theorem not (g : Guard) (d : Dst8) (a : Src8) : Statement (.not g d a) :=
  fun _ _ _ => reads_LU (by decide)
    (by decide) rfl rfl (fun w l l2 h k => by unfold decodeLane; rw [h]; show decIunary w l = _; unfold decIunary; rw [k]; rfl)

theorem ineg (g : Guard) (d : Dst8) (a : Src8) : Statement (.ineg g d a) :=
  fun _ _ _ => reads_LU (by decide)
    (by decide) rfl rfl (fun w l l2 h k => by unfold decodeLane; rw [h]; show decIunary w l = _; unfold decIunary; rw [k]; rfl)

theorem iabs (g : Guard) (d : Dst8) (a : Src8) : Statement (.iabs g d a) :=
  fun _ _ _ => reads_LU (by decide)
    (by decide) rfl rfl (fun w l l2 h k => by unfold decodeLane; rw [h]; show decIunary w l = _; unfold decIunary; rw [k]; rfl)

theorem popc (g : Guard) (d : Dst8) (a : Src8) : Statement (.popc g d a) :=
  fun _ _ _ => reads_LU (by decide)
    (by decide) rfl rfl (fun w l l2 h k => by unfold decodeLane; rw [h]; show decIunary w l = _; unfold decIunary; rw [k]; rfl)

theorem clz (g : Guard) (d : Dst8) (a : Src8) : Statement (.clz g d a) :=
  fun _ _ _ => reads_LU (by decide)
    (by decide) rfl rfl (fun w l l2 h k => by unfold decodeLane; rw [h]; show decIunary w l = _; unfold decIunary; rw [k]; rfl)

theorem ctz (g : Guard) (d : Dst8) (a : Src8) : Statement (.ctz g d a) :=
  fun _ _ _ => reads_LU (by decide)
    (by decide) rfl rfl (fun w l l2 h k => by unfold decodeLane; rw [h]; show decIunary w l = _; unfold decIunary; rw [k]; rfl)

theorem brev (g : Guard) (d : Dst8) (a : Src8) : Statement (.brev g d a) :=
  fun _ _ _ => reads_LU (by decide)
    (by decide) rfl rfl (fun w l l2 h k => by unfold decodeLane; rw [h]; show decIunary w l = _; unfold decIunary; rw [k]; rfl)

theorem bswap (g : Guard) (d : Dst8) (a : Src8) : Statement (.bswap g d a) :=
  fun _ _ _ => reads_LU (by decide)
    (by decide) rfl rfl (fun w l l2 h k => by unfold decodeLane; rw [h]; show decIunary w l = _; unfold decIunary; rw [k]; rfl)

theorem sext8 (g : Guard) (d : Dst8) (a : Src8) : Statement (.sext8 g d a) :=
  fun _ _ _ => reads_LU (by decide)
    (by decide) rfl rfl (fun w l l2 h k => by unfold decodeLane; rw [h]; show decIunary w l = _; unfold decIunary; rw [k]; rfl)

theorem sext16 (g : Guard) (d : Dst8) (a : Src8) : Statement (.sext16 g d a) :=
  fun _ _ _ => reads_LU (by decide)
    (by decide) rfl rfl (fun w l l2 h k => by unfold decodeLane; rw [h]; show decIunary w l = _; unfold decIunary; rw [k]; rfl)

theorem zext8 (g : Guard) (d : Dst8) (a : Src8) : Statement (.zext8 g d a) :=
  fun _ _ _ => reads_LU (by decide)
    (by decide) rfl rfl (fun w l l2 h k => by unfold decodeLane; rw [h]; show decIunary w l = _; unfold decIunary; rw [k]; rfl)

theorem zext16 (g : Guard) (d : Dst8) (a : Src8) : Statement (.zext16 g d a) :=
  fun _ _ _ => reads_LU (by decide)
    (by decide) rfl rfl (fun w l l2 h k => by unfold decodeLane; rw [h]; show decIunary w l = _; unfold decIunary; rw [k]; rfl)

theorem fadd (g : Guard) (d : Dst8) (a : Src8) (b : Src5) : Statement (.fadd g d a b) :=
  fun hw _ _ => reads_LA (by decide) rfl rfl (fun w l l2 h => by unfold decodeLane; rw [h]; rfl) (of_decide_eq_true hw)

theorem fsub (g : Guard) (d : Dst8) (a : Src8) (b : Src5) : Statement (.fsub g d a b) :=
  fun hw _ _ => reads_LA (by decide) rfl rfl (fun w l l2 h => by unfold decodeLane; rw [h]; rfl) (of_decide_eq_true hw)

theorem fmul (g : Guard) (d : Dst8) (a : Src8) (b : Src5) : Statement (.fmul g d a b) :=
  fun hw _ _ => reads_LA (by decide) rfl rfl (fun w l l2 h => by unfold decodeLane; rw [h]; rfl) (of_decide_eq_true hw)

theorem ffma (g : Guard) (d : Dst8) (a : Src8) (b : Src5) : Statement (.ffma g d a b) :=
  fun hw _ _ => reads_LA (by decide) rfl rfl (fun w l l2 h => by unfold decodeLane; rw [h]; rfl) (of_decide_eq_true hw)

theorem fmin (g : Guard) (d : Dst8) (a : Src8) (b : Src5) : Statement (.fmin g d a b) :=
  fun hw _ _ => reads_LA (by decide) rfl rfl (fun w l l2 h => by unfold decodeLane; rw [h]; rfl) (of_decide_eq_true hw)

theorem fmax (g : Guard) (d : Dst8) (a : Src8) (b : Src5) : Statement (.fmax g d a b) :=
  fun hw _ _ => reads_LA (by decide) rfl rfl (fun w l l2 h => by unfold decodeLane; rw [h]; rfl) (of_decide_eq_true hw)

theorem fscale (g : Guard) (d : Dst8) (a : Src8) (b : Src5) : Statement (.fscale g d a b) :=
  fun hw _ _ => reads_LA (by decide) rfl rfl (fun w l l2 h => by unfold decodeLane; rw [h]; rfl) (of_decide_eq_true hw)

theorem fabs (g : Guard) (d : Dst8) (a : Src8) : Statement (.fabs g d a) :=
  fun _ _ _ => reads_LU (by decide)
    (by decide) rfl rfl (fun w l l2 h k => by unfold decodeLane; rw [h]; show decFunary w l = _; unfold decFunary; rw [k]; rfl)

theorem fneg (g : Guard) (d : Dst8) (a : Src8) : Statement (.fneg g d a) :=
  fun _ _ _ => reads_LU (by decide)
    (by decide) rfl rfl (fun w l l2 h k => by unfold decodeLane; rw [h]; show decFunary w l = _; unfold decFunary; rw [k]; rfl)

theorem frcp (g : Guard) (d : Dst8) (a : Src8) : Statement (.frcp g d a) :=
  fun _ _ _ => reads_LU (by decide)
    (by decide) rfl rfl (fun w l l2 h k => by unfold decodeLane; rw [h]; show decFunary w l = _; unfold decFunary; rw [k]; rfl)

theorem frsq (g : Guard) (d : Dst8) (a : Src8) : Statement (.frsq g d a) :=
  fun _ _ _ => reads_LU (by decide)
    (by decide) rfl rfl (fun w l l2 h k => by unfold decodeLane; rw [h]; show decFunary w l = _; unfold decFunary; rw [k]; rfl)

theorem fsqrt (g : Guard) (d : Dst8) (a : Src8) : Statement (.fsqrt g d a) :=
  fun _ _ _ => reads_LU (by decide)
    (by decide) rfl rfl (fun w l l2 h k => by unfold decodeLane; rw [h]; show decFunary w l = _; unfold decFunary; rw [k]; rfl)

theorem fexp2 (g : Guard) (d : Dst8) (a : Src8) : Statement (.fexp2 g d a) :=
  fun _ _ _ => reads_LU (by decide)
    (by decide) rfl rfl (fun w l l2 h k => by unfold decodeLane; rw [h]; show decFunary w l = _; unfold decFunary; rw [k]; rfl)

theorem flog2 (g : Guard) (d : Dst8) (a : Src8) : Statement (.flog2 g d a) :=
  fun _ _ _ => reads_LU (by decide)
    (by decide) rfl rfl (fun w l l2 h k => by unfold decodeLane; rw [h]; show decFunary w l = _; unfold decFunary; rw [k]; rfl)

theorem fsinr (g : Guard) (d : Dst8) (a : Src8) : Statement (.fsinr g d a) :=
  fun _ _ _ => reads_LU (by decide)
    (by decide) rfl rfl (fun w l l2 h k => by unfold decodeLane; rw [h]; show decFunary w l = _; unfold decFunary; rw [k]; rfl)

theorem fcosr (g : Guard) (d : Dst8) (a : Src8) : Statement (.fcosr g d a) :=
  fun _ _ _ => reads_LU (by decide)
    (by decide) rfl rfl (fun w l l2 h k => by unfold decodeLane; rw [h]; show decFunary w l = _; unfold decFunary; rw [k]; rfl)

theorem ftanh (g : Guard) (d : Dst8) (a : Src8) : Statement (.ftanh g d a) :=
  fun _ _ _ => reads_LU (by decide)
    (by decide) rfl rfl (fun w l l2 h k => by unfold decodeLane; rw [h]; show decFunary w l = _; unfold decFunary; rw [k]; rfl)

theorem fsigm (g : Guard) (d : Dst8) (a : Src8) : Statement (.fsigm g d a) :=
  fun _ _ _ => reads_LU (by decide)
    (by decide) rfl rfl (fun w l l2 h k => by unfold decodeLane; rw [h]; show decFunary w l = _; unfold decFunary; rw [k]; rfl)

theorem ffloor (g : Guard) (d : Dst8) (a : Src8) : Statement (.ffloor g d a) :=
  fun _ _ _ => reads_LU (by decide)
    (by decide) rfl rfl (fun w l l2 h k => by unfold decodeLane; rw [h]; show decFunary w l = _; unfold decFunary; rw [k]; rfl)

theorem fceil (g : Guard) (d : Dst8) (a : Src8) : Statement (.fceil g d a) :=
  fun _ _ _ => reads_LU (by decide)
    (by decide) rfl rfl (fun w l l2 h k => by unfold decodeLane; rw [h]; show decFunary w l = _; unfold decFunary; rw [k]; rfl)

theorem ftrunc (g : Guard) (d : Dst8) (a : Src8) : Statement (.ftrunc g d a) :=
  fun _ _ _ => reads_LU (by decide)
    (by decide) rfl rfl (fun w l l2 h k => by unfold decodeLane; rw [h]; show decFunary w l = _; unfold decFunary; rw [k]; rfl)

theorem frint (g : Guard) (d : Dst8) (a : Src8) : Statement (.frint g d a) :=
  fun _ _ _ => reads_LU (by decide)
    (by decide) rfl rfl (fun w l l2 h k => by unfold decodeLane; rw [h]; show decFunary w l = _; unfold decFunary; rw [k]; rfl)

theorem ffrac (g : Guard) (d : Dst8) (a : Src8) : Statement (.ffrac g d a) :=
  fun _ _ _ => reads_LU (by decide)
    (by decide) rfl rfl (fun w l l2 h k => by unfold decodeLane; rw [h]; show decFunary w l = _; unfold decFunary; rw [k]; rfl)

theorem fsat (g : Guard) (d : Dst8) (a : Src8) : Statement (.fsat g d a) :=
  fun _ _ _ => reads_LU (by decide)
    (by decide) rfl rfl (fun w l l2 h k => by unfold decodeLane; rw [h]; show decFunary w l = _; unfold decFunary; rw [k]; rfl)

theorem fclass (g : Guard) (d : Dst8) (a : Src8) : Statement (.fclass g d a) :=
  fun _ _ _ => reads_LU (by decide)
    (by decide) rfl rfl (fun w l l2 h k => by unfold decodeLane; rw [h]; show decFunary w l = _; unfold decFunary; rw [k]; rfl)

theorem hadd2 (g : Guard) (d : Dst8) (a : Src8) (b : Src5) : Statement (.hadd2 g d a b) :=
  fun hw _ _ => reads_LA (by decide) rfl rfl (fun w l l2 h => by unfold decodeLane; rw [h]; rfl) (of_decide_eq_true hw)

theorem hmul2 (g : Guard) (d : Dst8) (a : Src8) (b : Src5) : Statement (.hmul2 g d a b) :=
  fun hw _ _ => reads_LA (by decide) rfl rfl (fun w l l2 h => by unfold decodeLane; rw [h]; rfl) (of_decide_eq_true hw)

theorem hfma2 (g : Guard) (d : Dst8) (a : Src8) (b : Src5) : Statement (.hfma2 g d a b) :=
  fun hw _ _ => reads_LA (by decide) rfl rfl (fun w l l2 h => by unfold decodeLane; rw [h]; rfl) (of_decide_eq_true hw)

theorem bfma2 (g : Guard) (d : Dst8) (a : Src8) (b : Src5) : Statement (.bfma2 g d a b) :=
  fun hw _ _ => reads_LA (by decide) rfl rfl (fun w l l2 h => by unfold decodeLane; rw [h]; rfl) (of_decide_eq_true hw)

theorem hmin2 (g : Guard) (d : Dst8) (a : Src8) (b : Src5) : Statement (.hmin2 g d a b) :=
  fun hw _ _ => reads_LA (by decide) rfl rfl (fun w l l2 h => by unfold decodeLane; rw [h]; rfl) (of_decide_eq_true hw)

theorem hmax2 (g : Guard) (d : Dst8) (a : Src8) (b : Src5) : Statement (.hmax2 g d a b) :=
  fun hw _ _ => reads_LA (by decide) rfl rfl (fun w l l2 h => by unfold decodeLane; rw [h]; rfl) (of_decide_eq_true hw)

theorem cvtF32S32 (g : Guard) (d : Dst8) (a : Src8) : Statement (.cvtF32S32 g d a) :=
  fun _ _ _ => reads_LU (by decide)
    (by decide) rfl rfl (fun w l l2 h k => by unfold decodeLane; rw [h]; show decCvt w l = _; unfold decCvt; rw [k]; rfl)

theorem cvtF32N32 (g : Guard) (d : Dst8) (a : Src8) : Statement (.cvtF32N32 g d a) :=
  fun _ _ _ => reads_LU (by decide)
    (by decide) rfl rfl (fun w l l2 h k => by unfold decodeLane; rw [h]; show decCvt w l = _; unfold decCvt; rw [k]; rfl)

theorem cvtS32F32 (g : Guard) (d : Dst8) (a : Src8) : Statement (.cvtS32F32 g d a) :=
  fun _ _ _ => reads_LU (by decide)
    (by decide) rfl rfl (fun w l l2 h k => by unfold decodeLane; rw [h]; show decCvt w l = _; unfold decCvt; rw [k]; rfl)

theorem cvtN32F32 (g : Guard) (d : Dst8) (a : Src8) : Statement (.cvtN32F32 g d a) :=
  fun _ _ _ => reads_LU (by decide)
    (by decide) rfl rfl (fun w l l2 h k => by unfold decodeLane; rw [h]; show decCvt w l = _; unfold decCvt; rw [k]; rfl)

theorem cvtS32F32Rn (g : Guard) (d : Dst8) (a : Src8) : Statement (.cvtS32F32Rn g d a) :=
  fun _ _ _ => reads_LU (by decide)
    (by decide) rfl rfl (fun w l l2 h k => by unfold decodeLane; rw [h]; show decCvt w l = _; unfold decCvt; rw [k]; rfl)

theorem cvtF16F32 (g : Guard) (d : Dst8) (a : Src8) : Statement (.cvtF16F32 g d a) :=
  fun _ _ _ => reads_LU (by decide)
    (by decide) rfl rfl (fun w l l2 h k => by unfold decodeLane; rw [h]; show decCvt w l = _; unfold decCvt; rw [k]; rfl)

theorem cvtF32F16l (g : Guard) (d : Dst8) (a : Src8) : Statement (.cvtF32F16l g d a) :=
  fun _ _ _ => reads_LU (by decide)
    (by decide) rfl rfl (fun w l l2 h k => by unfold decodeLane; rw [h]; show decCvt w l = _; unfold decCvt; rw [k]; rfl)

theorem cvtF32F16h (g : Guard) (d : Dst8) (a : Src8) : Statement (.cvtF32F16h g d a) :=
  fun _ _ _ => reads_LU (by decide)
    (by decide) rfl rfl (fun w l l2 h k => by unfold decodeLane; rw [h]; show decCvt w l = _; unfold decCvt; rw [k]; rfl)

theorem cvtBf16F32 (g : Guard) (d : Dst8) (a : Src8) : Statement (.cvtBf16F32 g d a) :=
  fun _ _ _ => reads_LU (by decide)
    (by decide) rfl rfl (fun w l l2 h k => by unfold decodeLane; rw [h]; show decCvt w l = _; unfold decCvt; rw [k]; rfl)

theorem cvtF32Bf16l (g : Guard) (d : Dst8) (a : Src8) : Statement (.cvtF32Bf16l g d a) :=
  fun _ _ _ => reads_LU (by decide)
    (by decide) rfl rfl (fun w l l2 h k => by unfold decodeLane; rw [h]; show decCvt w l = _; unfold decCvt; rw [k]; rfl)

theorem cvtF32Bf16h (g : Guard) (d : Dst8) (a : Src8) : Statement (.cvtF32Bf16h g d a) :=
  fun _ _ _ => reads_LU (by decide)
    (by decide) rfl rfl (fun w l l2 h k => by unfold decodeLane; rw [h]; show decCvt w l = _; unfold decCvt; rw [k]; rfl)

theorem cvtE4m3F32 (g : Guard) (d : Dst8) (a : Src8) : Statement (.cvtE4m3F32 g d a) :=
  fun _ _ _ => reads_LU (by decide)
    (by decide) rfl rfl (fun w l l2 h k => by unfold decodeLane; rw [h]; show decCvt w l = _; unfold decCvt; rw [k]; rfl)

theorem cvtE5m2F32 (g : Guard) (d : Dst8) (a : Src8) : Statement (.cvtE5m2F32 g d a) :=
  fun _ _ _ => reads_LU (by decide)
    (by decide) rfl rfl (fun w l l2 h k => by unfold decodeLane; rw [h]; show decCvt w l = _; unfold decCvt; rw [k]; rfl)

theorem cvtF32E4m3 (g : Guard) (d : Dst8) (a : Src8) : Statement (.cvtF32E4m3 g d a) :=
  fun _ _ _ => reads_LU (by decide)
    (by decide) rfl rfl (fun w l l2 h k => by unfold decodeLane; rw [h]; show decCvt w l = _; unfold decCvt; rw [k]; rfl)

theorem cvtF32E5m2 (g : Guard) (d : Dst8) (a : Src8) : Statement (.cvtF32E5m2 g d a) :=
  fun _ _ _ => reads_LU (by decide)
    (by decide) rfl rfl (fun w l l2 h k => by unfold decodeLane; rw [h]; show decCvt w l = _; unfold decCvt; rw [k]; rfl)

theorem cvtLns6F32 (g : Guard) (d : Dst8) (a : Src8) : Statement (.cvtLns6F32 g d a) :=
  fun _ _ _ => reads_LU (by decide)
    (by decide) rfl rfl (fun w l l2 h k => by unfold decodeLane; rw [h]; show decCvt w l = _; unfold decCvt; rw [k]; rfl)

theorem cvtF32Lns6 (g : Guard) (d : Dst8) (a : Src8) : Statement (.cvtF32Lns6 g d a) :=
  fun _ _ _ => reads_LU (by decide)
    (by decide) rfl rfl (fun w l l2 h k => by unfold decodeLane; rw [h]; show decCvt w l = _; unfold decCvt; rw [k]; rfl)

theorem cvtS8F32 (g : Guard) (d : Dst8) (a : Src8) : Statement (.cvtS8F32 g d a) :=
  fun _ _ _ => reads_LU (by decide)
    (by decide) rfl rfl (fun w l l2 h k => by unfold decodeLane; rw [h]; show decCvt w l = _; unfold decCvt; rw [k]; rfl)

theorem cvtN8F32 (g : Guard) (d : Dst8) (a : Src8) : Statement (.cvtN8F32 g d a) :=
  fun _ _ _ => reads_LU (by decide)
    (by decide) rfl rfl (fun w l l2 h k => by unfold decodeLane; rw [h]; show decCvt w l = _; unfold decCvt; rw [k]; rfl)

theorem icmp (g : Guard) (pd : PReg) (cc : ICond) (a : Src8) (b : Src5) : Statement (.icmp g pd cc a b) :=
  fun hw _ _ => reads_LPI (by decide) rfl rfl (fun w l l2 h => by unfold decodeLane; rw [h]; rfl) (of_decide_eq_true hw)

theorem ncmp (g : Guard) (pd : PReg) (cc : ICond) (a : Src8) (b : Src5) : Statement (.ncmp g pd cc a b) :=
  fun hw _ _ => reads_LPI (by decide) rfl rfl (fun w l l2 h => by unfold decodeLane; rw [h]; rfl) (of_decide_eq_true hw)

theorem fcmp (g : Guard) (pd : PReg) (cc : FCond) (a : Src8) (b : Src5) : Statement (.fcmp g pd cc a b) :=
  fun hw _ _ => reads_LPF (by decide) rfl rfl (fun w l l2 h => by unfold decodeLane; rw [h]; rfl) (of_decide_eq_true hw)

theorem plop (g : Guard) (pd pa pb : PReg) (tt : BitVec 4) : Statement (.plop g pd pa pb tt) :=
  fun _ _ _ => reads_plop (op := 43) (by decide) rfl rfl (fun w l l2 h => by unfold decodeLane; rw [h]; rfl)

theorem ptov (g : Guard) (d : Dst8) : Statement (.ptov g d) :=
  fun _ _ _ => reads_ptov (op := 44) (by decide) rfl rfl (fun w l l2 h => by unfold decodeLane; rw [h]; rfl)

theorem vtop (g : Guard) (a : Src8) : Statement (.vtop g a) :=
  fun _ _ _ => reads_vtop (op := 44) (by decide) rfl rfl (fun w l l2 h => by unfold decodeLane; rw [h]; rfl)

theorem fld (g : Guard) (d : Dst8) (dep : Fin 8) (slot : Fin 1024) : Statement (.fld g d dep slot) :=
  fun _ _ _ => reads_fld (op := 45) (by decide) rfl rfl (fun w l l2 h => by unfold decodeLane; rw [h]; rfl)

theorem fst (g : Guard) (a : Src8) (dep : Fin 8) (slot : Fin 1024) : Statement (.fst g a dep slot) :=
  fun _ _ _ => reads_FST (by decide) rfl rfl (fun w l l2 h => by unfold decodeLane; rw [h]; rfl)

theorem fadda (g : Guard) (a : Src8) (dep : Fin 8) (slot : Fin 1024) : Statement (.fadda g a dep slot) :=
  fun _ _ _ => reads_FST (by decide) rfl rfl (fun w l l2 h => by unfold decodeLane; rw [h]; rfl)

theorem ldb (g : Guard) (t : Dst8) (m : MemArg) : Statement (.ldb g t m) :=
  fun _ _ _ => reads_LD (by decide) rfl rfl (fun w l l2 h => by unfold decodeLane; rw [h]; rfl)

theorem ldbs (g : Guard) (t : Dst8) (m : MemArg) : Statement (.ldbs g t m) :=
  fun _ _ _ => reads_LD (by decide) rfl rfl (fun w l l2 h => by unfold decodeLane; rw [h]; rfl)

theorem ldh (g : Guard) (t : Dst8) (m : MemArg) : Statement (.ldh g t m) :=
  fun _ _ _ => reads_LD (by decide) rfl rfl (fun w l l2 h => by unfold decodeLane; rw [h]; rfl)

theorem ldhs (g : Guard) (t : Dst8) (m : MemArg) : Statement (.ldhs g t m) :=
  fun _ _ _ => reads_LD (by decide) rfl rfl (fun w l l2 h => by unfold decodeLane; rw [h]; rfl)

theorem ldw (g : Guard) (t : Dst8) (m : MemArg) : Statement (.ldw g t m) :=
  fun _ _ _ => reads_LD (by decide) rfl rfl (fun w l l2 h => by unfold decodeLane; rw [h]; rfl)

theorem ldd (g : Guard) (t : VReg) (m : MemArg) : Statement (.ldd g t m) :=
  fun hw _ _ => reads_PAIR (eq_of_beq hw) (by decide) rfl rfl (fun w l l2 h => by unfold decodeLane; rw [h]; rfl)

theorem ldq (g : Guard) (t : VReg) (m : MemArg) : Statement (.ldq g t m) :=
  fun hw _ _ => reads_QUAD (eq_of_beq hw) (by decide) rfl rfl (fun w l l2 h => by unfold decodeLane; rw [h]; rfl)

theorem ldx (g : Guard) (t : LdxT) (m : MemArg) (scope : Scope) (acq : Bool) (hint : Hint) : Statement (.ldx g t m scope acq hint) :=
  fun hw _ _ => reads_ldx (op := 55) (by decide) rfl (by rfl) (fun w l l2 h => by unfold decodeLane; rw [h]; rfl) hw

theorem stb (g : Guard) (t : Src8) (m : MemArg) : Statement (.stb g t m) :=
  fun hw _ _ => reads_ST (by decide) rfl rfl (fun w l l2 h => by unfold decodeLane; rw [h]; rfl) (of_decide_eq_true hw)

theorem sth (g : Guard) (t : Src8) (m : MemArg) : Statement (.sth g t m) :=
  fun hw _ _ => reads_ST (by decide) rfl rfl (fun w l l2 h => by unfold decodeLane; rw [h]; rfl) (of_decide_eq_true hw)

theorem stw (g : Guard) (t : Src8) (m : MemArg) : Statement (.stw g t m) :=
  fun hw _ _ => reads_ST (by decide) rfl rfl (fun w l l2 h => by unfold decodeLane; rw [h]; rfl) (of_decide_eq_true hw)

theorem std (g : Guard) (t : VReg) (m : MemArg) : Statement (.std g t m) :=
  fun hw _ _ => reads_PAIR (eq_of_beq hw) (by decide) rfl rfl (fun w l l2 h => by unfold decodeLane; rw [h]; rfl)

theorem stq (g : Guard) (t : VReg) (m : MemArg) : Statement (.stq g t m) :=
  fun hw _ _ => reads_QUAD (eq_of_beq hw) (by decide) rfl rfl (fun w l l2 h => by unfold decodeLane; rw [h]; rfl)

theorem stx (g : Guard) (t : StxT) (m : MemArg) (scope : Scope) (rel : Bool) (hint : Hint) : Statement (.stx g t m scope rel hint) :=
  fun hw _ _ => reads_stx (op := 61) (Bool.and_eq_true _ _ ▸ hw).1 (by decide) rfl (by rfl)
    (fun w l l2 h => by unfold decodeLane; rw [h]; rfl) (of_decide_eq_true (Bool.and_eq_true _ _ ▸ hw).2)

theorem atomAdd (g : Guard) (t : AtomT) (m : MemArg) (oa : OrdArg) : Statement (.atomAdd g t m oa) :=
  fun hw _ _ => reads_atom (aop := 0) (mx := 3) (by decide) (by decide) rfl (by rfl)
    (fun w l l2 h => by unfold decodeLane; rw [h]; rfl) (fun w l l2 h => by unfold decodeAtom; rw [h]; rfl)
    (atom_int _ hw).1 (atom_int _ hw).2

theorem atomMin (g : Guard) (t : AtomT) (m : MemArg) (oa : OrdArg) : Statement (.atomMin g t m oa) :=
  fun hw _ _ => reads_atom (aop := 1) (mx := 3) (by decide) (by decide) rfl (by rfl)
    (fun w l l2 h => by unfold decodeLane; rw [h]; rfl) (fun w l l2 h => by unfold decodeAtom; rw [h]; rfl)
    (atom_int _ hw).1 (atom_int _ hw).2

theorem atomMax (g : Guard) (t : AtomT) (m : MemArg) (oa : OrdArg) : Statement (.atomMax g t m oa) :=
  fun hw _ _ => reads_atom (aop := 2) (mx := 3) (by decide) (by decide) rfl (by rfl)
    (fun w l l2 h => by unfold decodeLane; rw [h]; rfl) (fun w l l2 h => by unfold decodeAtom; rw [h]; rfl)
    (atom_int _ hw).1 (atom_int _ hw).2

theorem atomAnd (g : Guard) (t : AtomT) (m : MemArg) (oa : OrdArg) : Statement (.atomAnd g t m oa) :=
  fun hw _ _ => reads_atom (aop := 3) (mx := 3) (by decide) (by decide) rfl (by rfl)
    (fun w l l2 h => by unfold decodeLane; rw [h]; rfl) (fun w l l2 h => by unfold decodeAtom; rw [h]; rfl)
    (atom_int _ hw).1 (atom_int _ hw).2

theorem atomOr (g : Guard) (t : AtomT) (m : MemArg) (oa : OrdArg) : Statement (.atomOr g t m oa) :=
  fun hw _ _ => reads_atom (aop := 4) (mx := 3) (by decide) (by decide) rfl (by rfl)
    (fun w l l2 h => by unfold decodeLane; rw [h]; rfl) (fun w l l2 h => by unfold decodeAtom; rw [h]; rfl)
    (atom_int _ hw).1 (atom_int _ hw).2

theorem atomXor (g : Guard) (t : AtomT) (m : MemArg) (oa : OrdArg) : Statement (.atomXor g t m oa) :=
  fun hw _ _ => reads_atom (aop := 5) (mx := 3) (by decide) (by decide) rfl (by rfl)
    (fun w l l2 h => by unfold decodeLane; rw [h]; rfl) (fun w l l2 h => by unfold decodeAtom; rw [h]; rfl)
    (atom_int _ hw).1 (atom_int _ hw).2

theorem atomExch (g : Guard) (t : AtomT) (m : MemArg) (oa : OrdArg) : Statement (.atomExch g t m oa) :=
  fun hw _ _ => reads_atom (aop := 6) (mx := 5) (by decide) (by decide) rfl (by rfl)
    (fun w l l2 h => by unfold decodeLane; rw [h]; rfl)
    (fun w l l2 h => by unfold decodeAtom; rw [h]; rfl) hw (Nat.le_of_lt_succ (atom_lt _).1)

theorem atomCas (g : Guard) (t : AtomT) (m : MemArg) (oa : OrdArg) (c : CasC) : Statement (.atomCas g t m oa c) :=
  fun hw _ _ => reads_cas (aop := 7) (op := 62) (by decide) (by decide) rfl (by rfl) (fun w l l2 h => by unfold decodeLane; rw [h]; rfl) (fun w l l2 h => by unfold decodeAtom; rw [h]; rfl) (Bool.and_eq_true _ _ ▸ (Bool.and_eq_true _ _ ▸ hw).1).1 (Bool.and_eq_true _ _ ▸ (Bool.and_eq_true _ _ ▸ hw).1).2
    (by have := of_decide_eq_true (Bool.and_eq_true _ _ ▸ hw).2; omega)

theorem atomIncw (g : Guard) (t : Dst8) (m : MemArg) (oa : OrdArg) : Statement (.atomIncw g t m oa) :=
  fun _ _ _ => reads_atom1 (aop := 8) (ty := 0) (by decide) (by decide) (by decide) rfl (by rfl)
    (fun w l l2 h => by unfold decodeLane; rw [h]; rfl) (fun w l l2 h => by unfold decodeAtom; rw [h]; rfl)

theorem atomFadd (g : Guard) (t : Dst8) (m : MemArg) (oa : OrdArg) : Statement (.atomFadd g t m oa) :=
  fun _ _ _ => reads_atom1 (aop := 9) (ty := 4) (by decide) (by decide) (by decide) rfl (by rfl)
    (fun w l l2 h => by unfold decodeLane; rw [h]; rfl) (fun w l l2 h => by unfold decodeAtom; rw [h]; rfl)

theorem atomHadd2 (g : Guard) (t : Dst8) (m : MemArg) (oa : OrdArg) : Statement (.atomHadd2 g t m oa) :=
  fun _ _ _ => reads_atom1 (aop := 10) (ty := 5) (by decide) (by decide) (by decide) rfl (by rfl)
    (fun w l l2 h => by unfold decodeLane; rw [h]; rfl) (fun w l l2 h => by unfold decodeAtom; rw [h]; rfl)

theorem nop (bits : BitVec 25) : Statement (.nop bits) := fun _ _ _ => reads_nop _

theorem wadd (g : Guard) (d a : XReg) (b : SrcB9) : Statement (.wadd g d a b) :=
  fun _ _ _ => reads_GA (by decide) rfl rfl (fun w l l2 h => by unfold decodeGroup; rw [h]; rfl)

theorem wsub (g : Guard) (d a : XReg) (b : SrcB9) : Statement (.wsub g d a b) :=
  fun _ _ _ => reads_GA (by decide) rfl rfl (fun w l l2 h => by unfold decodeGroup; rw [h]; rfl)

theorem wmul (g : Guard) (d a : XReg) (b : SrcB9) : Statement (.wmul g d a b) :=
  fun _ _ _ => reads_GA (by decide) rfl rfl (fun w l l2 h => by unfold decodeGroup; rw [h]; rfl)

theorem wmulhs (g : Guard) (d a : XReg) (b : SrcB9) : Statement (.wmulhs g d a b) :=
  fun _ _ _ => reads_GA (by decide) rfl rfl (fun w l l2 h => by unfold decodeGroup; rw [h]; rfl)

theorem wmulhn (g : Guard) (d a : XReg) (b : SrcB9) : Statement (.wmulhn g d a b) :=
  fun _ _ _ => reads_GA (by decide) rfl rfl (fun w l l2 h => by unfold decodeGroup; rw [h]; rfl)

theorem wand (g : Guard) (d a : XReg) (b : SrcB9) : Statement (.wand g d a b) :=
  fun _ _ _ => reads_GA (by decide) rfl rfl (fun w l l2 h => by unfold decodeGroup; rw [h]; rfl)

theorem wor (g : Guard) (d a : XReg) (b : SrcB9) : Statement (.wor g d a b) :=
  fun _ _ _ => reads_GA (by decide) rfl rfl (fun w l l2 h => by unfold decodeGroup; rw [h]; rfl)

theorem wxor (g : Guard) (d a : XReg) (b : SrcB9) : Statement (.wxor g d a b) :=
  fun _ _ _ => reads_GA (by decide) rfl rfl (fun w l l2 h => by unfold decodeGroup; rw [h]; rfl)

theorem wshl (g : Guard) (d a : XReg) (b : SrcB9) : Statement (.wshl g d a b) :=
  fun _ _ _ => reads_GA (by decide) rfl rfl (fun w l l2 h => by unfold decodeGroup; rw [h]; rfl)

theorem wshr (g : Guard) (d a : XReg) (b : SrcB9) : Statement (.wshr g d a b) :=
  fun _ _ _ => reads_GA (by decide) rfl rfl (fun w l l2 h => by unfold decodeGroup; rw [h]; rfl)

theorem wsar (g : Guard) (d a : XReg) (b : SrcB9) : Statement (.wsar g d a b) :=
  fun _ _ _ => reads_GA (by decide) rfl rfl (fun w l l2 h => by unfold decodeGroup; rw [h]; rfl)

theorem wmin (g : Guard) (d a : XReg) (b : SrcB9) : Statement (.wmin g d a b) :=
  fun _ _ _ => reads_GA (by decide) rfl rfl (fun w l l2 h => by unfold decodeGroup; rw [h]; rfl)

theorem wmax (g : Guard) (d a : XReg) (b : SrcB9) : Statement (.wmax g d a b) :=
  fun _ _ _ => reads_GA (by decide) rfl rfl (fun w l l2 h => by unfold decodeGroup; rw [h]; rfl)

theorem wnmin (g : Guard) (d a : XReg) (b : SrcB9) : Statement (.wnmin g d a b) :=
  fun _ _ _ => reads_GA (by decide) rfl rfl (fun w l l2 h => by unfold decodeGroup; rw [h]; rfl)

theorem wnmax (g : Guard) (d a : XReg) (b : SrcB9) : Statement (.wnmax g d a b) :=
  fun _ _ _ => reads_GA (by decide) rfl rfl (fun w l l2 h => by unfold decodeGroup; rw [h]; rfl)

theorem wcmp (g : Guard) (pd : PReg) (cc : ICond) (a : XReg) (b : SrcB7) : Statement (.wcmp g pd cc a b) :=
  fun _ _ _ => reads_GPI (by decide) rfl rfl (fun w l l2 h => by unfold decodeGroup; rw [h]; rfl)

theorem wncmp (g : Guard) (pd : PReg) (cc : ICond) (a : XReg) (b : SrcB7) : Statement (.wncmp g pd cc a b) :=
  fun _ _ _ => reads_GPI (by decide) rfl rfl (fun w l l2 h => by unfold decodeGroup; rw [h]; rfl)

theorem wsel (g : Guard) (d a : XReg) (b : SrcB9) : Statement (.wsel g d a b) :=
  fun _ _ _ => reads_GA (by decide) rfl rfl (fun w l l2 h => by unfold decodeGroup; rw [h]; rfl)

theorem wmov (g : Guard) (d a : XReg) : Statement (.wmov g d a) :=
  fun _ _ _ => reads_GU (by decide)
    (by decide) rfl rfl (fun w l l2 h k => by unfold decodeGroup; rw [h]; show (decWunary w).map Row.early = _; unfold decWunary; rw [k]; rfl)

theorem wnot (g : Guard) (d a : XReg) : Statement (.wnot g d a) :=
  fun _ _ _ => reads_GU (by decide)
    (by decide) rfl rfl (fun w l l2 h k => by unfold decodeGroup; rw [h]; show (decWunary w).map Row.early = _; unfold decWunary; rw [k]; rfl)

theorem wneg (g : Guard) (d a : XReg) : Statement (.wneg g d a) :=
  fun _ _ _ => reads_GU (by decide)
    (by decide) rfl rfl (fun w l l2 h k => by unfold decodeGroup; rw [h]; show (decWunary w).map Row.early = _; unfold decWunary; rw [k]; rfl)

theorem wabs (g : Guard) (d a : XReg) : Statement (.wabs g d a) :=
  fun _ _ _ => reads_GU (by decide)
    (by decide) rfl rfl (fun w l l2 h k => by unfold decodeGroup; rw [h]; show (decWunary w).map Row.early = _; unfold decWunary; rw [k]; rfl)

theorem wpopc (g : Guard) (d a : XReg) : Statement (.wpopc g d a) :=
  fun _ _ _ => reads_GU (by decide)
    (by decide) rfl rfl (fun w l l2 h k => by unfold decodeGroup; rw [h]; show (decWunary w).map Row.early = _; unfold decWunary; rw [k]; rfl)

theorem wclz (g : Guard) (d a : XReg) : Statement (.wclz g d a) :=
  fun _ _ _ => reads_GU (by decide)
    (by decide) rfl rfl (fun w l l2 h k => by unfold decodeGroup; rw [h]; show (decWunary w).map Row.early = _; unfold decWunary; rw [k]; rfl)

theorem wctz (g : Guard) (d a : XReg) : Statement (.wctz g d a) :=
  fun _ _ _ => reads_GU (by decide)
    (by decide) rfl rfl (fun w l l2 h k => by unfold decodeGroup; rw [h]; show (decWunary w).map Row.early = _; unfold decWunary; rw [k]; rfl)

theorem wbrev (g : Guard) (d a : XReg) : Statement (.wbrev g d a) :=
  fun _ _ _ => reads_GU (by decide)
    (by decide) rfl rfl (fun w l l2 h k => by unfold decodeGroup; rw [h]; show (decWunary w).map Row.early = _; unfold decWunary; rw [k]; rfl)

theorem wbswap (g : Guard) (d a : XReg) : Statement (.wbswap g d a) :=
  fun _ _ _ => reads_GU (by decide)
    (by decide) rfl rfl (fun w l l2 h k => by unfold decodeGroup; rw [h]; show (decWunary w).map Row.early = _; unfold decWunary; rw [k]; rfl)

theorem wsext32 (g : Guard) (d a : XReg) : Statement (.wsext32 g d a) :=
  fun _ _ _ => reads_GU (by decide)
    (by decide) rfl rfl (fun w l l2 h k => by unfold decodeGroup; rw [h]; show (decWunary w).map Row.early = _; unfold decWunary; rw [k]; rfl)

theorem wzext32 (g : Guard) (d a : XReg) : Statement (.wzext32 g d a) :=
  fun _ _ _ => reads_GU (by decide)
    (by decide) rfl rfl (fun w l l2 h k => by unfold decodeGroup; rw [h]; show (decWunary w).map Row.early = _; unfold decWunary; rw [k]; rfl)

theorem dadd (g : Guard) (d a : XReg) (b : SrcB9) : Statement (.dadd g d a b) :=
  fun _ _ _ => reads_GA (by decide) rfl rfl (fun w l l2 h => by unfold decodeGroup; rw [h]; rfl)

theorem dsub (g : Guard) (d a : XReg) (b : SrcB9) : Statement (.dsub g d a b) :=
  fun _ _ _ => reads_GA (by decide) rfl rfl (fun w l l2 h => by unfold decodeGroup; rw [h]; rfl)

theorem dmul (g : Guard) (d a : XReg) (b : SrcB9) : Statement (.dmul g d a b) :=
  fun _ _ _ => reads_GA (by decide) rfl rfl (fun w l l2 h => by unfold decodeGroup; rw [h]; rfl)

theorem dfma (g : Guard) (d a : XReg) (b : SrcB9) : Statement (.dfma g d a b) :=
  fun _ _ _ => reads_GA (by decide) rfl rfl (fun w l l2 h => by unfold decodeGroup; rw [h]; rfl)

theorem dmin (g : Guard) (d a : XReg) (b : SrcB9) : Statement (.dmin g d a b) :=
  fun _ _ _ => reads_GA (by decide) rfl rfl (fun w l l2 h => by unfold decodeGroup; rw [h]; rfl)

theorem dmax (g : Guard) (d a : XReg) (b : SrcB9) : Statement (.dmax g d a b) :=
  fun _ _ _ => reads_GA (by decide) rfl rfl (fun w l l2 h => by unfold decodeGroup; rw [h]; rfl)

theorem dabs (g : Guard) (d a : XReg) : Statement (.dabs g d a) :=
  fun _ _ _ => reads_GU (by decide)
    (by decide) rfl rfl (fun w l l2 h k => by unfold decodeGroup; rw [h]; show (decDunary w).map Row.early = _; unfold decDunary; rw [k]; rfl)

theorem dneg (g : Guard) (d a : XReg) : Statement (.dneg g d a) :=
  fun _ _ _ => reads_GU (by decide)
    (by decide) rfl rfl (fun w l l2 h k => by unfold decodeGroup; rw [h]; show (decDunary w).map Row.early = _; unfold decDunary; rw [k]; rfl)

theorem dsqrt (g : Guard) (d a : XReg) : Statement (.dsqrt g d a) :=
  fun _ _ _ => reads_GU (by decide)
    (by decide) rfl rfl (fun w l l2 h k => by unfold decodeGroup; rw [h]; show (decDunary w).map Row.early = _; unfold decDunary; rw [k]; rfl)

theorem drcp (g : Guard) (d a : XReg) : Statement (.drcp g d a) :=
  fun _ _ _ => reads_GU (by decide)
    (by decide) rfl rfl (fun w l l2 h k => by unfold decodeGroup; rw [h]; show (decDunary w).map Row.early = _; unfold decDunary; rw [k]; rfl)

theorem dfloor (g : Guard) (d a : XReg) : Statement (.dfloor g d a) :=
  fun _ _ _ => reads_GU (by decide)
    (by decide) rfl rfl (fun w l l2 h k => by unfold decodeGroup; rw [h]; show (decDunary w).map Row.early = _; unfold decDunary; rw [k]; rfl)

theorem dceil (g : Guard) (d a : XReg) : Statement (.dceil g d a) :=
  fun _ _ _ => reads_GU (by decide)
    (by decide) rfl rfl (fun w l l2 h k => by unfold decodeGroup; rw [h]; show (decDunary w).map Row.early = _; unfold decDunary; rw [k]; rfl)

theorem dtrunc (g : Guard) (d a : XReg) : Statement (.dtrunc g d a) :=
  fun _ _ _ => reads_GU (by decide)
    (by decide) rfl rfl (fun w l l2 h k => by unfold decodeGroup; rw [h]; show (decDunary w).map Row.early = _; unfold decDunary; rw [k]; rfl)

theorem drint (g : Guard) (d a : XReg) : Statement (.drint g d a) :=
  fun _ _ _ => reads_GU (by decide)
    (by decide) rfl rfl (fun w l l2 h k => by unfold decodeGroup; rw [h]; show (decDunary w).map Row.early = _; unfold decDunary; rw [k]; rfl)

theorem dclass (g : Guard) (d a : XReg) : Statement (.dclass g d a) :=
  fun _ _ _ => reads_GU (by decide)
    (by decide) rfl rfl (fun w l l2 h k => by unfold decodeGroup; rw [h]; show (decDunary w).map Row.early = _; unfold decDunary; rw [k]; rfl)

theorem dcmp (g : Guard) (pd : PReg) (cc : FCond) (a : XReg) (b : SrcB7) : Statement (.dcmp g pd cc a b) :=
  fun _ _ _ => reads_GPF (by decide) rfl rfl (fun w l l2 h => by unfold decodeGroup; rw [h]; rfl)

theorem dcvtDS64 (g : Guard) (d a : XReg) : Statement (.dcvtDS64 g d a) :=
  fun _ _ _ => reads_GU (by decide)
    (by decide) rfl rfl (fun w l l2 h k => by unfold decodeGroup; rw [h]; show (decDcvt w).map Row.early = _; unfold decDcvt; rw [k]; rfl)

theorem dcvtDN64 (g : Guard) (d a : XReg) : Statement (.dcvtDN64 g d a) :=
  fun _ _ _ => reads_GU (by decide)
    (by decide) rfl rfl (fun w l l2 h k => by unfold decodeGroup; rw [h]; show (decDcvt w).map Row.early = _; unfold decDcvt; rw [k]; rfl)

theorem dcvtS64D (g : Guard) (d a : XReg) : Statement (.dcvtS64D g d a) :=
  fun _ _ _ => reads_GU (by decide)
    (by decide) rfl rfl (fun w l l2 h k => by unfold decodeGroup; rw [h]; show (decDcvt w).map Row.early = _; unfold decDcvt; rw [k]; rfl)

theorem dcvtN64D (g : Guard) (d a : XReg) : Statement (.dcvtN64D g d a) :=
  fun _ _ _ => reads_GU (by decide)
    (by decide) rfl rfl (fun w l l2 h k => by unfold decodeGroup; rw [h]; show (decDcvt w).map Row.early = _; unfold decDcvt; rw [k]; rfl)

theorem dcvtDF32l (g : Guard) (d a : XReg) : Statement (.dcvtDF32l g d a) :=
  fun _ _ _ => reads_GU (by decide)
    (by decide) rfl rfl (fun w l l2 h k => by unfold decodeGroup; rw [h]; show (decDcvt w).map Row.early = _; unfold decDcvt; rw [k]; rfl)

theorem dcvtF32D (g : Guard) (d a : XReg) : Statement (.dcvtF32D g d a) :=
  fun _ _ _ => reads_GU (by decide)
    (by decide) rfl rfl (fun w l l2 h k => by unfold decodeGroup; rw [h]; show (decDcvt w).map Row.early = _; unfold decDcvt; rw [k]; rfl)

theorem dcvtDS32 (g : Guard) (d a : XReg) : Statement (.dcvtDS32 g d a) :=
  fun _ _ _ => reads_GU (by decide)
    (by decide) rfl rfl (fun w l l2 h k => by unfold decodeGroup; rw [h]; show (decDcvt w).map Row.early = _; unfold decDcvt; rw [k]; rfl)

theorem dcvtS32D (g : Guard) (d a : XReg) : Statement (.dcvtS32D g d a) :=
  fun _ _ _ => reads_GU (by decide)
    (by decide) rfl rfl (fun w l l2 h k => by unfold decodeGroup; rw [h]; show (decDcvt w).map Row.early = _; unfold decDcvt; rw [k]; rfl)

theorem v2x (g : Guard) (d : XReg) (a : Src8) : Statement (.v2x g d a) :=
  fun _ _ _ => reads_MVS (fn := 0) (op := 29) (by decide)
    (by decide) rfl rfl (fun w l l2 h k => by unfold decodeGroup; rw [h]; show (decMvxv w l).map Row.early = _; unfold decMvxv; rw [k]; rfl)

theorem v2xs (g : Guard) (d : XReg) (a : Src8) : Statement (.v2xs g d a) :=
  fun _ _ _ => reads_MVS (fn := 1) (op := 29) (by decide)
    (by decide) rfl rfl (fun w l l2 h k => by unfold decodeGroup; rw [h]; show (decMvxv w l).map Row.early = _; unfold decMvxv; rw [k]; rfl)

theorem vp2x (g : Guard) (d : XReg) (v : VReg) : Statement (.vp2x g d v) :=
  fun hw _ _ => reads_MVP (fn := 2) (op := 29) (by decide)
    (by decide) rfl rfl (fun w l l2 h k => by unfold decodeGroup; rw [h]; show (decMvxv w l).map Row.early = _; unfold decMvxv; rw [k]; rfl)
    (eq_of_beq hw)

theorem x2v (g : Guard) (d : Dst8) (a : XReg) : Statement (.x2v g d a) :=
  fun _ _ _ => reads_MVD (fn := 3) (op := 29) (by decide)
    (by decide) rfl rfl (fun w l l2 h k => by unfold decodeGroup; rw [h]; show (decMvxv w l).map Row.early = _; unfold decMvxv; rw [k]; rfl)

theorem x2vh (g : Guard) (d : Dst8) (a : XReg) : Statement (.x2vh g d a) :=
  fun _ _ _ => reads_MVD (fn := 4) (op := 29) (by decide)
    (by decide) rfl rfl (fun w l l2 h k => by unfold decodeGroup; rw [h]; show (decMvxv w l).map Row.early = _; unfold decMvxv; rw [k]; rfl)

theorem x2vp (g : Guard) (v : VReg) (a : XReg) : Statement (.x2vp g v a) :=
  fun hw _ _ => reads_MVQ (fn := 5) (op := 29) (by decide)
    (by decide) rfl rfl (fun w l l2 h k => by unfold decodeGroup; rw [h]; show (decMvxv w l).map Row.early = _; unfold decMvxv; rw [k]; rfl)
    (eq_of_beq hw)

theorem wld (g : Guard) (t b : XReg) (imm : BitVec 9) : Statement (.wld g t b imm) :=
  fun _ _ _ => reads_GM (by decide) rfl rfl (fun w l l2 h => by unfold decodeGroup; rw [h]; rfl)

theorem wst (g : Guard) (t b : XReg) (imm : BitVec 9) : Statement (.wst g t b imm) :=
  fun _ _ _ => reads_GM (by decide) rfl rfl (fun w l l2 h => by unfold decodeGroup; rw [h]; rfl)

theorem bra (g : Guard) (disp : BitVec 21) : Statement (.bra g disp) :=
  fun _ _ _ => reads_GB (by decide) rfl rfl (fun w l l2 h => by unfold decodeGroup; rw [h]; rfl)

theorem brd (g : Guard) (disp : BitVec 21) : Statement (.brd g disp) :=
  fun _ _ _ => reads_GB (by decide) rfl rfl (fun w l l2 h => by unfold decodeGroup; rw [h]; rfl)

theorem call (g : Guard) (disp : BitVec 21) : Statement (.call g disp) :=
  fun _ _ _ => reads_GB (by decide) rfl rfl (fun w l l2 h => by unfold decodeGroup; rw [h]; rfl)

theorem callr (g : Guard) (a : XReg) : Statement (.callr g a) :=
  fun _ _ _ => reads_A (by decide) rfl rfl (fun w l l2 h => by unfold decodeGroup; rw [h]; rfl)

theorem ret (g : Guard) : Statement (.ret g) :=
  fun _ _ _ => reads_G0 (by decide) rfl rfl (fun w l l2 h => by unfold decodeGroup; rw [h]; rfl)

theorem jmp (g : Guard) (a : XReg) : Statement (.jmp g a) :=
  fun _ _ _ => reads_A (by decide) rfl rfl (fun w l l2 h => by unfold decodeGroup; rw [h]; rfl)

theorem exit (g : Guard) : Statement (.exit g) :=
  fun _ _ _ => reads_G0 (by decide) rfl rfl (fun w l l2 h => by unfold decodeGroup; rw [h]; rfl)

theorem yield (g : Guard) : Statement (.yield g) :=
  fun _ _ _ => reads_G0 (by decide) rfl rfl (fun w l l2 h => by unfold decodeGroup; rw [h]; rfl)

theorem trap (g : Guard) (n : BitVec 8) : Statement (.trap g n) :=
  fun _ _ _ => reads_trap (op := 40) (by decide) rfl rfl (fun w l l2 h => by unfold decodeGroup; rw [h]; rfl)

theorem tret (g : Guard) : Statement (.tret g) :=
  fun _ _ _ => reads_G0 (by decide) rfl rfl (fun w l l2 h => by unfold decodeGroup; rw [h]; rfl)

theorem srd (g : Guard) (d : XReg) (idx : BitVec 15) : Statement (.srd g d idx) :=
  fun _ _ _ => reads_GS (by decide) rfl rfl (fun w l l2 h => by unfold decodeGroup; rw [h]; rfl)

theorem swr (g : Guard) (t : XReg) (idx : BitVec 15) : Statement (.swr g t idx) :=
  fun _ _ _ => reads_GS (by decide) rfl rfl (fun w l l2 h => by unfold decodeGroup; rw [h]; rfl)

theorem tagof (g : Guard) (d : XReg) (r : VXReg) : Statement (.tagof g d r) :=
  fun _ _ _ => reads_shape (fn := 0) (op := 44) (by decide)
    (by decide) rfl rfl (fun w l l2 h k => by unfold decodeGroup; rw [h]; show (decShape w).map Row.early = _; unfold decShape; rw [k]; rfl)

theorem fmtof (g : Guard) (d : XReg) (r : VXReg) : Statement (.fmtof g d r) :=
  fun _ _ _ => reads_shape (fn := 1) (op := 44) (by decide)
    (by decide) rfl rfl (fun w l l2 h k => by unfold decodeGroup; rw [h]; show (decShape w).map Row.early = _; unfold decShape; rw [k]; rfl)

theorem waitc (g : Guard) (loads : BitVec 6) (stores copies tiles : BitVec 5) : Statement (.waitc g loads stores copies tiles) :=
  fun _ _ _ => reads_waitc (op := 45) (by decide) rfl rfl (fun w l l2 h => by unfold decodeGroup; rw [h]; rfl)

theorem fence (g : Guard) (scope : Scope) (kinds : BitVec 4) : Statement (.fence g scope kinds) :=
  fun hw _ _ => reads_fence (op := 46) (by decide) rfl rfl (fun w l l2 h => by unfold decodeGroup; rw [h]; rfl) (bne_iff_ne.mp hw)

theorem ftok (g : Guard) (d : XReg) (scope : Scope) (kinds : BitVec 6) : Statement (.ftok g d scope kinds) :=
  fun hw _ _ => reads_ftok (op := 47) (by decide) rfl rfl (fun w l l2 h => by unfold decodeGroup; rw [h]; rfl) (bne_iff_ne.mp hw)

theorem fwait (g : Guard) (a : XReg) : Statement (.fwait g a) :=
  fun _ _ _ => reads_A (by decide) rfl rfl (fun w l l2 h => by unfold decodeGroup; rw [h]; rfl)

theorem bar (g : Guard) (cluster : Bool) (id : Fin 16) (cnt : Option (Fin 63)) : Statement (.bar g cluster id cnt) :=
  fun _ _ _ => reads_bar (op := 49) (by decide) rfl rfl (fun w l l2 h => by unfold decodeGroup; rw [h]; rfl)

theorem ksetCount (g : Guard) (k : Fin 8) (cluster : Bool) (a : XReg) : Statement (.ksetCount g k cluster a) :=
  fun _ _ _ => reads_ksetCount (op := 50) (by decide) rfl rfl (fun w l l2 h => by unfold decodeGroup; rw [h]; rfl)

theorem ksetMask (g : Guard) (k : Fin 8) (cluster : Bool) (a : XReg) : Statement (.ksetMask g k cluster a) :=
  fun _ _ _ => reads_ksetMask (op := 50) (by decide) rfl rfl (fun w l l2 h => by unfold decodeGroup; rw [h]; rfl)

theorem ksign (g : Guard) (k : Fin 8) (cluster : Bool) (a : XReg) : Statement (.ksign g k cluster a) :=
  fun _ _ _ => reads_ksign (op := 51) (by decide) rfl rfl (fun w l l2 h => by unfold decodeGroup; rw [h]; rfl)

theorem kxchTid (g : Guard) (k : Fin 8) (cluster : Bool) (d : Dst8) (a i : Src8) : Statement (.kxchTid g k cluster d a i) :=
  fun hw _ _ => reads_kxch (op := 52) (mode := 0) (by decide) (by decide) rfl (by rfl)
    (fun w l l2 h k => by unfold decodeGroup; rw [h]; show (decKxch w l l2).map Row.early = _; unfold decKxch; rw [k]; rfl)
    (of_decide_eq_true hw)

theorem kxchPos (g : Guard) (k : Fin 8) (cluster : Bool) (d : Dst8) (a i : Src8) : Statement (.kxchPos g k cluster d a i) :=
  fun hw _ _ => reads_kxch (op := 52) (mode := 1) (by decide) (by decide) rfl (by rfl)
    (fun w l l2 h k => by unfold decodeGroup; rw [h]; show (decKxch w l l2).map Row.early = _; unfold decKxch; rw [k]; rfl)
    (of_decide_eq_true hw)

theorem kredAddN32 (g : Guard) (k : Fin 8) (cluster : Bool) (d : Dst8) (a : Src8) : Statement (.kredAddN32 g k cluster d a) :=
  fun _ _ _ => reads_kred (op := 53) (rop := 0) (by decide) (by decide) rfl (by rfl)
    (fun w l l2 h k => by unfold decodeGroup; rw [h]; show (decKred w l l2).map Row.early = _; unfold decKred; rw [k]; rfl)

theorem kredAddF32 (g : Guard) (k : Fin 8) (cluster : Bool) (d : Dst8) (a : Src8) : Statement (.kredAddF32 g k cluster d a) :=
  fun _ _ _ => reads_kred (op := 53) (rop := 1) (by decide) (by decide) rfl (by rfl)
    (fun w l l2 h k => by unfold decodeGroup; rw [h]; show (decKred w l l2).map Row.early = _; unfold decKred; rw [k]; rfl)

theorem kredMinS32 (g : Guard) (k : Fin 8) (cluster : Bool) (d : Dst8) (a : Src8) : Statement (.kredMinS32 g k cluster d a) :=
  fun _ _ _ => reads_kred (op := 53) (rop := 2) (by decide) (by decide) rfl (by rfl)
    (fun w l l2 h k => by unfold decodeGroup; rw [h]; show (decKred w l l2).map Row.early = _; unfold decKred; rw [k]; rfl)

theorem kredMaxS32 (g : Guard) (k : Fin 8) (cluster : Bool) (d : Dst8) (a : Src8) : Statement (.kredMaxS32 g k cluster d a) :=
  fun _ _ _ => reads_kred (op := 53) (rop := 3) (by decide) (by decide) rfl (by rfl)
    (fun w l l2 h k => by unfold decodeGroup; rw [h]; show (decKred w l l2).map Row.early = _; unfold decKred; rw [k]; rfl)

theorem kredMinF32 (g : Guard) (k : Fin 8) (cluster : Bool) (d : Dst8) (a : Src8) : Statement (.kredMinF32 g k cluster d a) :=
  fun _ _ _ => reads_kred (op := 53) (rop := 4) (by decide) (by decide) rfl (by rfl)
    (fun w l l2 h k => by unfold decodeGroup; rw [h]; show (decKred w l l2).map Row.early = _; unfold decKred; rw [k]; rfl)

theorem kredMaxF32 (g : Guard) (k : Fin 8) (cluster : Bool) (d : Dst8) (a : Src8) : Statement (.kredMaxF32 g k cluster d a) :=
  fun _ _ _ => reads_kred (op := 53) (rop := 5) (by decide) (by decide) rfl (by rfl)
    (fun w l l2 h k => by unfold decodeGroup; rw [h]; show (decKred w l l2).map Row.early = _; unfold decKred; rw [k]; rfl)

theorem kredAnd (g : Guard) (k : Fin 8) (cluster : Bool) (d : Dst8) (a : Src8) : Statement (.kredAnd g k cluster d a) :=
  fun _ _ _ => reads_kred (op := 53) (rop := 6) (by decide) (by decide) rfl (by rfl)
    (fun w l l2 h k => by unfold decodeGroup; rw [h]; show (decKred w l l2).map Row.early = _; unfold decKred; rw [k]; rfl)

theorem kredOr (g : Guard) (k : Fin 8) (cluster : Bool) (d : Dst8) (a : Src8) : Statement (.kredOr g k cluster d a) :=
  fun _ _ _ => reads_kred (op := 53) (rop := 7) (by decide) (by decide) rfl (by rfl)
    (fun w l l2 h k => by unfold decodeGroup; rw [h]; show (decKred w l l2).map Row.early = _; unfold decKred; rw [k]; rfl)

theorem kredXor (g : Guard) (k : Fin 8) (cluster : Bool) (d : Dst8) (a : Src8) : Statement (.kredXor g k cluster d a) :=
  fun _ _ _ => reads_kred (op := 53) (rop := 8) (by decide) (by decide) rfl (by rfl)
    (fun w l l2 h k => by unfold decodeGroup; rw [h]; show (decKred w l l2).map Row.early = _; unfold decKred; rw [k]; rfl)

theorem kredNz (g : Guard) (k : Fin 8) (cluster : Bool) (d : Dst8) (a : Src8) : Statement (.kredNz g k cluster d a) :=
  fun _ _ _ => reads_kred (op := 53) (rop := 9) (by decide) (by decide) rfl (by rfl)
    (fun w l l2 h k => by unfold decodeGroup; rw [h]; show (decKred w l l2).map Row.early = _; unfold decKred; rw [k]; rfl)

theorem mma (g : Guard) (xa xb xc : XReg) (c : MmaCtl) : Statement (.mma g xa xb xc c) :=
  fun hw _ _ => reads_mma (op := 54) (by decide) rfl rfl (fun w l l2 h => by unfold decodeGroup; rw [h]; rfl) hw

theorem mdrain (g : Guard) (xa xb xc : XReg) (c : DrainCtl) : Statement (.mdrain g xa xb xc c) :=
  fun hw _ _ => reads_mdrain (op := 55) (by decide) rfl rfl (fun w l l2 h => by unfold decodeGroup; rw [h]; rfl) hw

theorem mzero (g : Guard) (slot : Fin 8) : Statement (.mzero g slot) :=
  fun _ _ _ => reads_mzero (op := 56) (by decide) rfl rfl (fun w l l2 h => by unfold decodeGroup; rw [h]; rfl)

theorem mldsc (g : Guard) (d a : XReg) : Statement (.mldsc g d a) :=
  fun _ _ _ => reads_mldsc (op := 56) (by decide) rfl rfl (fun w l l2 h => by unfold decodeGroup; rw [h]; rfl)

theorem mstat (g : Guard) (d : XReg) (slot : Fin 8) : Statement (.mstat g d slot) :=
  fun _ _ _ => reads_mstat (op := 56) (by decide) rfl rfl (fun w l l2 h => by unfold decodeGroup; rw [h]; rfl)

theorem tbinit (g : Guard) (a : XReg) (c : TbCnt) : Statement (.tbinit g a c) :=
  fun _ _ _ => reads_tbinit (op := 57) (by decide) rfl rfl (fun w l l2 h => by unfold decodeGroup; rw [h]; rfl)

theorem tbarrive (g : Guard) (d a : XReg) (c : TbCnt) : Statement (.tbarrive g d a c) :=
  fun _ _ _ => reads_tbarrive (op := 57) (by decide) rfl rfl (fun w l l2 h => by unfold decodeGroup; rw [h]; rfl)

theorem tbexpect (g : Guard) (a : XReg) (c : TbCnt) : Statement (.tbexpect g a c) :=
  fun _ _ _ => reads_tbexpect (op := 57) (by decide) rfl rfl (fun w l l2 h => by unfold decodeGroup; rw [h]; rfl)

theorem tbtest (g : Guard) (d a : XReg) (c : TbCnt) : Statement (.tbtest g d a c) :=
  fun _ _ _ => reads_tbtest (op := 57) (by decide) rfl rfl (fun w l l2 h => by unfold decodeGroup; rw [h]; rfl)

theorem tbwait (g : Guard) (a p : XReg) : Statement (.tbwait g a p) :=
  fun _ _ _ => reads_tbwait (op := 58) (by decide) rfl rfl (fun w l l2 h => by unfold decodeGroup; rw [h]; rfl)

theorem wlpush (g : Guard) (wl : Fin 4) (v : VReg) (dep : Fin 8) : Statement (.wlpush g wl v dep) :=
  fun hw _ _ => reads_wlpush (op := 59) (by decide) rfl rfl (fun w l l2 h => by unfold decodeGroup; rw [h]; rfl) (eq_of_beq hw)

theorem wlpop (g : Guard) (xa : XReg) (ps : PReg) (wl : Fin 4) (v : VReg) : Statement (.wlpop g xa ps wl v) :=
  fun hw _ _ => reads_wlpop (op := 59) (by decide) rfl rfl (fun w l l2 h => by unfold decodeGroup; rw [h]; rfl) (eq_of_beq hw)

theorem wltry (g : Guard) (xa : XReg) (ps : PReg) (wl : Fin 4) (v : VReg) : Statement (.wltry g xa ps wl v) :=
  fun hw _ _ => reads_wltry (op := 59) (by decide) rfl rfl (fun w l l2 h => by unfold decodeGroup; rw [h]; rfl) (eq_of_beq hw)

theorem wldone (g : Guard) (wl : Fin 4) : Statement (.wldone g wl) :=
  fun _ _ _ => reads_wldone (op := 59) (by decide) rfl rfl (fun w l l2 h => by unfold decodeGroup; rw [h]; rfl)

theorem wlfloor (g : Guard) (xa : XReg) (wl : Fin 4) : Statement (.wlfloor g xa wl) :=
  fun _ _ _ => reads_wlfloor (op := 59) (by decide) rfl rfl (fun w l l2 h => by unfold decodeGroup; rw [h]; rfl)

theorem wlstat (g : Guard) (xa : XReg) (wl : Fin 4) : Statement (.wlstat g xa wl) :=
  fun _ _ _ => reads_wlstat (op := 59) (by decide) rfl rfl (fun w l l2 h => by unfold decodeGroup; rw [h]; rfl)

theorem fenter (g : Guard) (dep : Fin 8) (a : XReg) : Statement (.fenter g dep a) :=
  fun _ _ _ => reads_fenter (op := 60) (by decide) rfl rfl (fun w l l2 h => by unfold decodeGroup; rw [h]; rfl)

theorem fleave (g : Guard) (dep : Fin 8) : Statement (.fleave g dep) :=
  fun _ _ _ => reads_fleave (op := 60) (by decide) rfl rfl (fun w l l2 h => by unfold decodeGroup; rw [h]; rfl)

theorem fopen (g : Guard) (cluster : Bool) (dep : Fin 8) (a : XReg) (k : Fin 8) : Statement (.fopen g cluster dep a k) :=
  fun _ _ _ => reads_fopen (op := 60) (by decide) rfl rfl (fun w l l2 h => by unfold decodeGroup; rw [h]; rfl)

theorem flink (g : Guard) (dep : Fin 8) (a : XReg) : Statement (.flink g dep a) :=
  fun _ _ _ => reads_flink (op := 60) (by decide) rfl rfl (fun w l l2 h => by unfold decodeGroup; rw [h]; rfl)

theorem fhnd (g : Guard) (d : XReg) (dep : Fin 8) : Statement (.fhnd g d dep) :=
  fun _ _ _ => reads_fhnd (op := 60) (by decide) rfl rfl (fun w l l2 h => by unfold decodeGroup; rw [h]; rfl)

theorem fdrop (g : Guard) (a : XReg) : Statement (.fdrop g a) :=
  fun _ _ _ => reads_fdrop (op := 60) (by decide) rfl rfl (fun w l l2 h => by unfold decodeGroup; rw [h]; rfl)

theorem fsync (g : Guard) (dep : Fin 8) : Statement (.fsync g dep) :=
  fun _ _ _ => reads_fsync (op := 60) (by decide) rfl rfl (fun w l l2 h => by unfold decodeGroup; rw [h]; rfl)

theorem funlink (g : Guard) (dep : Fin 8) : Statement (.funlink g dep) :=
  fun _ _ _ => reads_funlink (op := 60) (by decide) rfl rfl (fun w l l2 h => by unfold decodeGroup; rw [h]; rfl)

theorem rcall (g : Guard) (region : Fin 1024) (argv resv : VReg) (argc resc : Fin 8) : Statement (.rcall g region argv resv argc resc) :=
  fun hw _ _ => reads_rcall (op := 61) (mode := 0) (by decide) (by decide) rfl rfl
    (fun w l l2 h j k => by unfold decodeGroup; rw [h]; show decRsur w l = _; unfold decRsur; rw [j]; show (decRcall w l).map Row.early = _; unfold decRcall; rw [k]; rfl)
    ⟨of_decide_eq_true (Bool.and_eq_true _ _ ▸ hw).1, of_decide_eq_true (Bool.and_eq_true _ _ ▸ hw).2⟩

theorem rcallExact (g : Guard) (region : Fin 1024) (argv resv : VReg) (argc resc : Fin 8) : Statement (.rcallExact g region argv resv argc resc) :=
  fun hw _ _ => reads_rcall (op := 61) (mode := 1) (by decide) (by decide) rfl rfl
    (fun w l l2 h j k => by unfold decodeGroup; rw [h]; show decRsur w l = _; unfold decRsur; rw [j]; show (decRcall w l).map Row.early = _; unfold decRcall; rw [k]; rfl)
    ⟨of_decide_eq_true (Bool.and_eq_true _ _ ▸ hw).1, of_decide_eq_true (Bool.and_eq_true _ _ ▸ hw).2⟩

theorem rcallSonly (g : Guard) (region : Fin 1024) (argv resv : VReg) (argc resc : Fin 8) : Statement (.rcallSonly g region argv resv argc resc) :=
  fun hw _ _ => reads_rcall (op := 61) (mode := 2) (by decide) (by decide) rfl rfl
    (fun w l l2 h j k => by unfold decodeGroup; rw [h]; show decRsur w l = _; unfold decRsur; rw [j]; show (decRcall w l).map Row.early = _; unfold decRcall; rw [k]; rfl)
    ⟨of_decide_eq_true (Bool.and_eq_true _ _ ▸ hw).1, of_decide_eq_true (Bool.and_eq_true _ _ ▸ hw).2⟩

theorem rret (g : Guard) : Statement (.rret g) :=
  fun _ _ _ => reads_rret (op := 61) (by decide) rfl rfl (fun w l l2 h => by unfold decodeGroup; rw [h]; rfl)

theorem rload (g : Guard) (xb : XReg) : Statement (.rload g xb) :=
  fun _ _ _ => reads_rload (op := 61) (by decide) rfl rfl (fun w l l2 h => by unfold decodeGroup; rw [h]; rfl)

theorem rctlEvict (g : Guard) (xa xb : XReg) : Statement (.rctlEvict g xa xb) :=
  fun _ _ _ => reads_rctlEvict (op := 61) (by decide) rfl rfl (fun w l l2 h => by unfold decodeGroup; rw [h]; rfl)

theorem rctlPin (g : Guard) (xa xb : XReg) : Statement (.rctlPin g xa xb) := fun _ _ h => absurd h Bool.noConfusion

theorem rctlUnpin (g : Guard) (xa xb : XReg) : Statement (.rctlUnpin g xa xb) := fun _ _ h => absurd h Bool.noConfusion

theorem rctlFlush (g : Guard) (xa xb : XReg) : Statement (.rctlFlush g xa xb) := fun _ _ h => absurd h Bool.noConfusion

theorem rctr (g : Guard) (xa xb : XReg) : Statement (.rctr g xa xb) :=
  fun _ _ _ => reads_rctr (op := 61) (by decide) rfl rfl (fun w l l2 h => by unfold decodeGroup; rw [h]; rfl)

theorem rinfo (g : Guard) (xa xb : XReg) : Statement (.rinfo g xa xb) :=
  fun _ _ _ => reads_rinfo (op := 61) (by decide) rfl rfl (fun w l l2 h => by unfold decodeGroup; rw [h]; rfl)

theorem collAllreduce (g : Guard) (xa xb xc : XReg) (send recv : BitVec 8) (ty : DType) (op : ROp) : Statement (.collAllreduce g xa xb xc send recv ty op) :=
  fun hw _ _ => reads_collAllreduce (op := 62) (by decide) rfl rfl (fun w l l2 h => by unfold decodeGroup; rw [h]; rfl) hw

theorem collReducescatter (g : Guard) (xa xb xc : XReg) (send recv : BitVec 8) (ty : DType) (op : ROp) : Statement (.collReducescatter g xa xb xc send recv ty op) :=
  fun hw _ _ => reads_collReducescatter (op := 62) (by decide) rfl rfl (fun w l l2 h => by unfold decodeGroup; rw [h]; rfl) hw

theorem collAllgather (g : Guard) (xa xb xc : XReg) (send recv : BitVec 8) (ty : DType) : Statement (.collAllgather g xa xb xc send recv ty) :=
  fun _ _ _ => reads_collAllgather (op := 62) (by decide) rfl rfl (fun w l l2 h => by unfold decodeGroup; rw [h]; rfl)

theorem collBroadcast (g : Guard) (xa xb xc : XReg) (send recv : BitVec 8) (ty : DType) : Statement (.collBroadcast g xa xb xc send recv ty) :=
  fun _ _ _ => reads_collBroadcast (op := 62) (by decide) rfl rfl (fun w l l2 h => by unfold decodeGroup; rw [h]; rfl)

theorem collAlltoall (g : Guard) (xa xb xc : XReg) (send recv : BitVec 8) (ty : DType) : Statement (.collAlltoall g xa xb xc send recv ty) :=
  fun _ _ _ => reads_collAlltoall (op := 62) (by decide) rfl rfl (fun w l l2 h => by unfold decodeGroup; rw [h]; rfl)

theorem bkpt (g : Guard) : Statement (.bkpt g) :=
  fun _ _ _ => reads_bkpt (op := 63) (by decide) rfl rfl (fun w l l2 h => by unfold decodeGroup; rw [h]; rfl)

theorem tlbinv (g : Guard) (a : XReg) : Statement (.tlbinv g a) :=
  fun _ _ _ => reads_sys (op := 63) (fn := 1) (r := Row.tlbinv)
    (by decide) rfl (by decide) rfl rfl (fun w l l2 h k => by unfold decodeGroup; rw [h]; show decSys w = _; unfold decSys; rw [k]; rfl)

theorem l1clean (g : Guard) (a : XReg) : Statement (.l1clean g a) :=
  fun _ _ _ => reads_sys (op := 63) (fn := 2) (r := Row.l1clean)
    (by decide) rfl (by decide) rfl rfl (fun w l l2 h k => by unfold decodeGroup; rw [h]; show decSys w = _; unfold decSys; rw [k]; rfl)

theorem archive (g : Guard) (a : XReg) : Statement (.archive g a) :=
  fun _ _ _ => reads_sys (op := 63) (fn := 3) (r := Row.archive)
    (by decide) rfl (by decide) rfl rfl (fun w l l2 h k => by unfold decodeGroup; rw [h]; show decSys w = _; unfold decSys; rw [k]; rfl)

theorem qlaunch (g : Guard) (a : XReg) : Statement (.qlaunch g a) :=
  fun _ _ _ => reads_sys (op := 63) (fn := 4) (r := Row.qlaunch)
    (by decide) rfl (by decide) rfl rfl (fun w l l2 h k => by unfold decodeGroup; rw [h]; show decSys w = _; unfold decSys; rw [k]; rfl)

theorem qsignal (g : Guard) (a : XReg) : Statement (.qsignal g a) :=
  fun _ _ _ => reads_sys (op := 63) (fn := 5) (r := Row.qsignal)
    (by decide) rfl (by decide) rfl rfl (fun w l l2 h k => by unfold decodeGroup; rw [h]; show decSys w = _; unfold decSys; rw [k]; rfl)

theorem qwaitsig (g : Guard) (a : XReg) : Statement (.qwaitsig g a) :=
  fun _ _ _ => reads_sys (op := 63) (fn := 6) (r := Row.qwaitsig)
    (by decide) rfl (by decide) rfl rfl (fun w l l2 h k => by unfold decodeGroup; rw [h]; show decSys w = _; unfold decSys; rw [k]; rfl)

theorem qswitch (g : Guard) (a : XReg) : Statement (.qswitch g a) :=
  fun _ _ _ => reads_sys (op := 63) (fn := 7) (r := Row.qswitch)
    (by decide) rfl (by decide) rfl rfl (fun w l l2 h k => by unfold decodeGroup; rw [h]; show decSys w = _; unfold decSys; rw [k]; rfl)

theorem qphase (g : Guard) (a : XReg) : Statement (.qphase g a) :=
  fun _ _ _ => reads_sys (op := 63) (fn := 8) (r := Row.qphase)
    (by decide) rfl (by decide) rfl rfl (fun w l l2 h k => by unfold decodeGroup; rw [h]; show decSys w = _; unfold decSys; rw [k]; rfl)

theorem qdone (g : Guard) : Statement (.qdone g) :=
  fun _ _ _ => reads_qdone (op := 63) (by decide) rfl rfl (fun w l l2 h => by unfold decodeGroup; rw [h]; rfl)

theorem renable (g : Guard) (a : XReg) : Statement (.renable g a) :=
  fun _ _ _ => reads_sys (op := 63) (fn := 10) (r := Row.renable)
    (by decide) rfl (by decide) rfl rfl (fun w l l2 h k => by unfold decodeGroup; rw [h]; show decSys w = _; unfold decSys; rw [k]; rfl)

theorem wlcfg (g : Guard) (a : XReg) : Statement (.wlcfg g a) :=
  fun _ _ _ => reads_sys (op := 63) (fn := 11) (r := Row.wlcfg)
    (by decide) rfl (by decide) rfl rfl (fun w l l2 h k => by unfold decodeGroup; rw [h]; show decSys w = _; unfold decSys; rw [k]; rfl)

theorem launchDecision (l : Nat) : Statement (.launchDecision l) := fun _ h _ => absurd h Bool.noConfusion

theorem gangPlacement (l gi die cluster first : Nat) (rows : List (List Nat)) (bases : List Nat) (zap : List (Nat × Nat)) : Statement (.gangPlacement l gi die cluster first rows bases zap) :=
  fun _ h _ => absurd h Bool.noConfusion

theorem phaseClean (l : Nat) : Statement (.phaseClean l) := fun _ h _ => absurd h Bool.noConfusion

theorem workgroupEnd (w : Nat) : Statement (.workgroupEnd w) := fun _ h _ => absurd h Bool.noConfusion

theorem gangRetire (gid : Nat) : Statement (.gangRetire gid) := fun _ h _ => absurd h Bool.noConfusion

theorem pick (core : Nat) : Statement (.pick core) := fun _ h _ => absurd h Bool.noConfusion

theorem ageCap (t : TRef) : Statement (.ageCap t) := fun _ h _ => absurd h Bool.noConfusion

theorem regroupRelease (w : Nat) (target : BitVec 64) : Statement (.regroupRelease w target) := fun _ h _ => absurd h Bool.noConfusion

theorem loadReturn (t : TRef) (n : Nat) (ecc : Bool) : Statement (.loadReturn t n ecc) := fun _ h _ => absurd h Bool.noConfusion

theorem storePerformed (t : TRef) (n : Nat) : Statement (.storePerformed t n) := fun _ h _ => absurd h Bool.noConfusion

theorem l1Eviction (core cid line : Nat) : Statement (.l1Eviction core cid line) := fun _ h _ => absurd h Bool.noConfusion

theorem fenceComplete (t : TRef) : Statement (.fenceComplete t) := fun _ h _ => absurd h Bool.noConfusion

theorem fenceRollback (t : TRef) : Statement (.fenceRollback t) := fun _ h _ => absurd h Bool.noConfusion

theorem tokenComplete (t : TRef) (seq : Nat) : Statement (.tokenComplete t seq) := fun _ h _ => absurd h Bool.noConfusion

theorem pageWalk (core cid va : Nat) : Statement (.pageWalk core cid va) := fun _ h _ => absurd h Bool.noConfusion

theorem pageRequest (rid : Nat) : Statement (.pageRequest rid) := fun _ h _ => absurd h Bool.noConfusion

theorem pagerResponse (cid : Nat) : Statement (.pagerResponse cid) := fun _ h _ => absurd h Bool.noConfusion

theorem kill (cid : Nat) (w : Option Nat) : Statement (.kill cid w) := fun _ h _ => absurd h Bool.noConfusion

theorem copyTakeEntry (w : Nat) : Statement (.copyTakeEntry w) := fun _ h _ => absurd h Bool.noConfusion

theorem copy (w : Nat) (ch : Fin 4) : Statement (.copy w ch) := fun _ h _ => absurd h Bool.noConfusion

theorem gather (w : Nat) (ch : Fin 4) : Statement (.gather w ch) := fun _ h _ => absurd h Bool.noConfusion

theorem fill (w : Nat) (ch : Fin 4) : Statement (.fill w ch) := fun _ h _ => absurd h Bool.noConfusion

theorem convert (w : Nat) (ch : Fin 4) : Statement (.convert w ch) := fun _ h _ => absurd h Bool.noConfusion

theorem convertout (w : Nat) (ch : Fin 4) : Statement (.convertout w ch) := fun _ h _ => absurd h Bool.noConfusion

theorem mmaEntry (w : Nat) : Statement (.mmaEntry w) := fun _ h _ => absurd h Bool.noConfusion

theorem mdrainEntry (w : Nat) : Statement (.mdrainEntry w) := fun _ h _ => absurd h Bool.noConfusion

theorem mctlEntry (w : Nat) : Statement (.mctlEntry w) := fun _ h _ => absurd h Bool.noConfusion

theorem matrixEntryComplete (w : Nat) : Statement (.matrixEntryComplete w) := fun _ h _ => absurd h Bool.noConfusion

theorem mmaResume (w : Nat) : Statement (.mmaResume w) := fun _ h _ => absurd h Bool.noConfusion

theorem regionLoad (core cid region : Nat) : Statement (.regionLoad core cid region) := fun _ h _ => absurd h Bool.noConfusion

theorem surrogateEvaluation (core n : Nat) : Statement (.surrogateEvaluation core n) := fun _ h _ => absurd h Bool.noConfusion

theorem restorationStart (core n : Nat) : Statement (.restorationStart core n) := fun _ h _ => absurd h Bool.noConfusion

theorem violationReport (n : Nat) : Statement (.violationReport n) := fun _ h _ => absurd h Bool.noConfusion

theorem disableApply (core cid region : Nat) : Statement (.disableApply core cid region) := fun _ h _ => absurd h Bool.noConfusion

theorem enableApply (core cid region : Nat) : Statement (.enableApply core cid region) := fun _ h _ => absurd h Bool.noConfusion

theorem counterBlockWrite (cid region : Nat) : Statement (.counterBlockWrite cid region) := fun _ h _ => absurd h Bool.noConfusion

theorem floorRefresh (cid : Nat) (wl : Fin 4) : Statement (.floorRefresh cid wl) := fun _ h _ => absurd h Bool.noConfusion

theorem groupFloorRefresh (cid : Nat) (wl : Fin 4) (peer : Option Nat) (quiet : Bool) : Statement (.groupFloorRefresh cid wl peer quiet) :=
  fun _ h _ => absurd h Bool.noConfusion

theorem floorDropAck (t : TRef) : Statement (.floorDropAck t) := fun _ h _ => absurd h Bool.noConfusion

theorem wlpushPlace (t : TRef) : Statement (.wlpushPlace t) := fun _ h _ => absurd h Bool.noConfusion

theorem wlpopServe (t : TRef) (n : Nat) : Statement (.wlpopServe t n) := fun _ h _ => absurd h Bool.noConfusion

theorem frontBufferSend (core n : Nat) : Statement (.frontBufferSend core n) := fun _ h _ => absurd h Bool.noConfusion

theorem chunkSpill (cid : Nat) (wl : Fin 4) (die : Nat) (bucket : Nat) : Statement (.chunkSpill cid wl die bucket) :=
  fun _ h _ => absurd h Bool.noConfusion

theorem chunkReadBack (cid : Nat) (wl : Fin 4) (die n : Nat) : Statement (.chunkReadBack cid wl die n) :=
  fun _ h _ => absurd h Bool.noConfusion

theorem chunkMigrate (cid : Nat) (wl : Fin 4) (src dst count : Nat) : Statement (.chunkMigrate cid wl src dst count) :=
  fun _ h _ => absurd h Bool.noConfusion

theorem spillRefill (w : Nat) (r : VXReg) : Statement (.spillRefill w r) := fun _ h _ => absurd h Bool.noConfusion

theorem contextCreate (cid : Nat) : Statement (.contextCreate cid) := fun _ h _ => absurd h Bool.noConfusion

theorem contextDestroy (cid : Nat) : Statement (.contextDestroy cid) := fun _ h _ => absurd h Bool.noConfusion

theorem contextSelect (cid : Nat) : Statement (.contextSelect cid) := fun _ h _ => absurd h Bool.noConfusion

theorem queueEnable (q : Nat) : Statement (.queueEnable q) := fun _ h _ => absurd h Bool.noConfusion

theorem queueDisable (q : Nat) : Statement (.queueDisable q) := fun _ h _ => absurd h Bool.noConfusion

theorem queueQuiesce (q : Nat) : Statement (.queueQuiesce q) := fun _ h _ => absurd h Bool.noConfusion

theorem queueNotify (f q : Nat) (tail : BitVec 32) : Statement (.queueNotify f q tail) := fun _ h _ => absurd h Bool.noConfusion

theorem packetStart (c q : Nat) : Statement (.packetStart c q) := fun _ h _ => absurd h Bool.noConfusion

theorem qwaitsigResume (q : Nat) : Statement (.qwaitsigResume q) := fun _ h _ => absurd h Bool.noConfusion

theorem tickstopWrite (v : BitVec 64) : Statement (.tickstopWrite v) := fun _ h _ => absurd h Bool.noConfusion

theorem tickStop : Statement (.tickStop) := fun _ h _ => absurd h Bool.noConfusion

theorem registerWrite (off : Nat) (v : BitVec 64) : Statement (.registerWrite off v) := fun _ h _ => absurd h Bool.noConfusion

theorem preemptRequest (gids : List Nat) (bound : Option Nat) : Statement (.preemptRequest gids bound) :=
  fun _ h _ => absurd h Bool.noConfusion

theorem drainExpire (gid : Nat) : Statement (.drainExpire gid) := fun _ h _ => absurd h Bool.noConfusion

theorem gangSave (gid : Nat) : Statement (.gangSave gid) := fun _ h _ => absurd h Bool.noConfusion

theorem gangRestore (slot die cluster : Nat) (rows : List (List Nat)) (bases : List Nat) : Statement (.gangRestore slot die cluster rows bases) :=
  fun _ h _ => absurd h Bool.noConfusion

theorem switchTick : Statement (.switchTick) := fun _ h _ => absurd h Bool.noConfusion

theorem switchComplete : Statement (.switchComplete) := fun _ h _ => absurd h Bool.noConfusion

theorem haltRequest (ts : List TRef) : Statement (.haltRequest ts) := fun _ h _ => absurd h Bool.noConfusion

theorem threadHalt (t : TRef) : Statement (.threadHalt t) := fun _ h _ => absurd h Bool.noConfusion

theorem resumeRequest (ts : List TRef) : Statement (.resumeRequest ts) := fun _ h _ => absurd h Bool.noConfusion

theorem sample (core : Nat) : Statement (.sample core) := fun _ h _ => absurd h Bool.noConfusion

theorem checkpoint (cid : Nat) : Statement (.checkpoint cid) := fun _ h _ => absurd h Bool.noConfusion

theorem gatePass (t : TRef) : Statement (.gatePass t) := fun _ h _ => absurd h Bool.noConfusion

theorem intervalClose (cid : Nat) : Statement (.intervalClose cid) := fun _ h _ => absurd h Bool.noConfusion

theorem collChunk (cid g k : Nat) (peers : List (List (BitVec 8))) : Statement (.collChunk cid g k peers) :=
  fun _ h _ => absurd h Bool.noConfusion

theorem collectiveComplete (cid g k : Nat) (ok : Bool) : Statement (.collectiveComplete cid g k ok) :=
  fun _ h _ => absurd h Bool.noConfusion

theorem ingressWrite (f va : Nat) (bytes : List (BitVec 8)) : Statement (.ingressWrite f va bytes) :=
  fun _ h _ => absurd h Bool.noConfusion

theorem ingressRead (f va n : Nat) : Statement (.ingressRead f va n) := fun _ h _ => absurd h Bool.noConfusion

theorem functionLevelReset (f : Nat) : Statement (.functionLevelReset f) := fun _ h _ => absurd h Bool.noConfusion

theorem coreFailure (core : Nat) : Statement (.coreFailure core) := fun _ h _ => absurd h Bool.noConfusion

theorem memoryRetire (hbm : Bool) (n : Nat) : Statement (.memoryRetire hbm n) := fun _ h _ => absurd h Bool.noConfusion

theorem moduleReset : Statement (.moduleReset) := fun _ h _ => absurd h Bool.noConfusion

theorem attestationQuote (cid : Nat) (nonce : List (BitVec 8)) : Statement (.attestationQuote cid nonce) :=
  fun _ h _ => absurd h Bool.noConfusion

theorem linkFailure (port : Fin 36) : Statement (.linkFailure port) := fun _ h _ => absurd h Bool.noConfusion

theorem flitRetry (port : Fin 36) : Statement (.flitRetry port) := fun _ h _ => absurd h Bool.noConfusion

theorem podLeave : Statement (.podLeave) := fun _ h _ => absurd h Bool.noConfusion

theorem linkUp (port : Fin 36) : Statement (.linkUp port) := fun _ h _ => absurd h Bool.noConfusion

theorem ngurilIngress (port : Fin 36) (pa : Nat) (acc : PeerAcc) : Statement (.ngurilIngress port pa acc) :=
  fun _ h _ => absurd h Bool.noConfusion

theorem vmodeWrite (v : BitVec 192) : Statement (.vmodeWrite v) := fun _ h _ => absurd h Bool.noConfusion

theorem instructionFetch (t : TRef) : Statement (.instructionFetch t) := fun _ h _ => absurd h Bool.noConfusion

theorem resultWriteback (t : TRef) (r : RegName) : Statement (.resultWriteback t r) := fun _ h _ => absurd h Bool.noConfusion

end RoundTrip

end Sys2Proof.Laws
end

