-- ==== Sys2Proof/Laws/Translate.lean ====
section
/-! SUPPORT. What a translation changes: TLBs only (R314); and what issuing an access comes to (R129). -/

namespace Sys2Proof.Machine

theorem find_updFirst {α : Type} (p : α → Bool) (f : α → α) (hf : ∀ a, p a = true → p (f a) = true) (l : List α) :
    (updFirst p f l).find? p = (l.find? p).map f := by
  induction l with
  | nil => rfl
  | cons a t ih =>
    by_cases h : p a = true
    · simp [updFirst, h, hf a h]
    · simp [updFirst, h, ih]

theorem find_updFirst_ne {α : Type} (p q : α → Bool) (f : α → α) (hf : ∀ a, p a = true → q (f a) = false ∧ q a = false) (l : List α) :
    (updFirst p f l).find? q = l.find? q := by
  induction l with
  | nil => rfl
  | cons a t ih =>
    by_cases h : p a = true
    · simp [updFirst, h, (hf a h).1, (hf a h).2]
    · by_cases h' : q a = true
      · simp [updFirst, h, h']
      · simp [updFirst, h, h', ih]

theorem State.core_onCore (s : State) (n : Nat) (f : Core → Core) (hf : ∀ c, (f c).num = c.num) (k : Nat) :
    (s.onCore n f).core k = if k = n then f (s.core n) else s.core k := by
  unfold State.onCore
  split
  · rename_i h
    by_cases hk : k = n
    · subst hk
      rw [if_pos rfl]
      show ((updFirst (fun c => c.num == k) f s.cores).find? (fun c => c.num == k)).getD (Core.init k) = f (s.core k)
      rw [find_updFirst _ _ (fun a h => by rw [hf]; exact h)]
      have : (s.cores.find? (fun c => c.num == k)).isSome := by simpa [List.find?_isSome] using h
      unfold State.core
      obtain ⟨c, hc⟩ := Option.isSome_iff_exists.mp this
      simp [hc]
    · rw [if_neg hk]
      show ((updFirst (fun c => c.num == n) f s.cores).find? (fun c => c.num == k)).getD (Core.init k) = s.core k
      rw [find_updFirst_ne]
      · rfl
      · intro a h
        rw [hf]
        have e : a.num = n := by simpa using h
        have : (a.num == k) = false := by rw [e]; simp; omega
        exact ⟨this, this⟩
  · rename_i h
    have hn : s.cores.find? (fun c => c.num == n) = none := by simpa [List.find?_eq_none] using h
    by_cases hk : k = n
    · subst hk
      rw [if_pos rfl]
      show ((s.cores ++ [f (Core.init k)]).find? (fun c => c.num == k)).getD (Core.init k) = f (s.core k)
      unfold State.core
      simp [List.find?_append, hn, hf, Core.init]
    · rw [if_neg hk]
      show ((s.cores ++ [f (Core.init n)]).find? (fun c => c.num == k)).getD (Core.init k) = s.core k
      unfold State.core
      have : ((f (Core.init n)).num == k) = false := by rw [hf]; simp [Core.init]; omega
      simp [List.find?_append, this]

theorem OnlyTlbs.refl (s : State) : OnlyTlbs s s := ⟨rfl, fun _ => rfl⟩

theorem OnlyTlbs.trans {s t u : State} (h : OnlyTlbs s t) (k : OnlyTlbs t u) : OnlyTlbs s u :=
  ⟨by rw [k.state, h.state], fun n => (k.cores n).trans (h.cores n)⟩

theorem OnlyTlbs.onCore (s : State) (n : Nat) (g : List TlbEnt → List TlbEnt) :
    OnlyTlbs s (s.onCore n (fun c => { c with tlb := g c.tlb })) := by
  refine ⟨?_, fun k => ?_⟩
  · unfold State.onCore; split <;> rfl
  · have e := State.core_onCore s n (fun c => { c with tlb := g c.tlb }) (fun _ => rfl) k
    split at e
    · rename_i h; subst h; rw [e]
    · rw [e]

theorem tlbFill_only (s : State) (core : Nat) (e : TlbEnt) : OnlyTlbs s (tlbFill s core e) := by
  unfold tlbFill
  split
  · have h := OnlyTlbs.onCore s core (fun l => e :: l.take 511)
    refine ⟨?_, h.cores⟩
    have := h.state
    simp only at this ⊢
    rw [this]
  · exact .refl s

theorem xlate_only (s : State) (core cid va kind : Nat) : OnlyTlbs s (xlate s core cid va kind).2 := by
  unfold xlate
  dsimp only
  split
  · exact .refl s
  · split
    · rename_i e _
      exact OnlyTlbs.onCore s core (fun l => e :: l.take 511)
    · split
      · exact tlbFill_only _ _ _
      all_goals exact .refl s

theorem resolve_only (s : State) (w : Option Wg) (core cid va n kind : Nat) : OnlyTlbs s (resolve s w core cid va n kind).2 := by
  unfold resolve
  split
  · exact xlate_only _ _ _ _ _
  · split
    · exact .refl s
    · split
      · exact .refl s
      · split
        · exact .refl s
        · exact .refl s

/-! ## Issuing an access -/

theorem map_updFirst {α β : Type} (p : α → Bool) (f : α → α) (k : α → β) (h : ∀ a, k (f a) = k a) (l : List α) :
    (updFirst p f l).map k = l.map k := by
  induction l with
  | nil => rfl
  | cons a t ih => by_cases q : p a = true <;> simp [updFirst, q, h, ih]

theorem sideOn_only (s : State) : sideOn s = { s with wgs := (sideOn s).wgs } := by
  unfold sideOn; split <;> rfl

theorem sideOn_wgs (s : State) :
    (sideOn s).wgs.map (fun (w : Wg) => { w with side := true }) = s.wgs.map (fun (w : Wg) => { w with side := true }) := by
  unfold sideOn
  split
  · exact map_updFirst _ (fun (x : Wg) => { x with side := true }) _ (fun _ => rfl) _
  · rfl

theorem noteSide_only (s : State) (a : MReq) (key : Nat) :
    noteSide s a key = { s with wgs := (noteSide s a key).wgs } ∧
      (if a.kind = .load then (noteSide s a key).wgs = s.wgs
       else (noteSide s a key).wgs.map (fun (w : Wg) => { w with side := true }) = s.wgs.map (fun (w : Wg) => { w with side := true })) := by
  unfold noteSide
  split
  · rename_i h
    have hk : a.kind ≠ .load := by
      intro e; rw [e] at h; simp at h
    exact ⟨sideOn_only s, by rw [if_neg hk]; exact sideOn_wgs s⟩
  · exact ⟨rfl, by split <;> rfl⟩

/-- What issuing an access does when nothing turns it away. -/
theorem issue_issued {s s' : State} (a : MReq) (n key : Nat) (h : Reaches s s' a.kind a.va a.size a.xb key) :
    ∃ t, issue s a (fun s => s.adv n) = .next t ∧ Issued s t n (a.mop s.cur key) := by
  have only := resolve_only s (s.wgOf s.cur) s.cur.core s.cur.cid a.va.toNat a.size a.kind.code
  rw [h.place] at only
  change OnlyTlbs s s' at only
  have hcur : s'.cur = s.cur := by rw [only.state]
  have htail : (s'.cur.fence.isSome && (tailOf s' key a.size).isSome && a.kind != .load) = false := by
    rw [hcur]
    rcases h.tail with e | e | e
    · simp [e]
    · simp [e]
    · rw [e]; simp
  have key' := noteSide_only s' a key
  refine ⟨((noteSide s' a key).onCur (fun t => { t with mops := t.mops ++ [a.mop t key], nmop := t.nmop + 1 })).adv n, ?_, ?_⟩
  · unfold issue withPlace
    rw [if_neg (by rw [h.aligned]; simp)]
    have hw : curatorReason s a = none := h.window
    rw [hw]
    simp only [h.place]
    have hrej : rejected s'.cur a.va.toNat = false := by rw [hcur, rejected, h.known]; rfl
    rw [htail, hrej]
    simp only [Bool.and_false, Bool.false_eq_true, if_false]
  · have hc : (noteSide s' a key).cur = s.cur := by rw [key'.1]; exact hcur
    refine ⟨?_, ?_, ?_, ?_, ?_⟩
    · simp only [State.adv_cur, State.onCur_cur, hc, Regs.adv]
    · rw [State.adv, State.onRegs, State.onCur]
      simp only
      rw [key'.1, only.state]
    · intro k
      rw [show (((noteSide s' a key).onCur fun t => { t with mops := t.mops ++ [a.mop t key], nmop := t.nmop + 1 }).adv n).core k
        = (noteSide s' a key).core k from rfl]
      rw [key'.1]
      exact only.cores k
    · show (if (a.mop s.cur key).kind = .load then _ else _)
      have e : s'.wgs = s.wgs := by rw [only.state]
      have hk : (a.mop s.cur key).kind = a.kind := rfl
      rw [hk, ← e]
      exact key'.2
    · intro x
      rw [State.adv_mem, State.onCur_mem, key'.1, only.state]

end Sys2Proof.Machine
end

