-- ==== Sys2Proof/Tests/Slice0.lean ====
section
/-! SUPPORT. Tests: words that decode to the instruction they stand for, assembled from the encoding tables of the specification; ill-formed
terms that the checks refuse; single steps on the specification's worked values; and, for each statement with hypotheses, states and
operands that meet them. -/

section

/-! The tests are elaborated one after another: side by side they take more threads than the limits allow. -/

set_option Elab.async false

open Sys2Proof Sys2Proof.Machine

/-! ## Words (R20-R36, R50-R59): every constructor with an encoding -/

theorem test_decode_lane_integer_1 :
    decode 0x022FD188 0 0 = .ok (.iadd (some 0) (.v 126) .lane .lr) ∧
    decode 0x0411502A 0 0 = .ok (.isub none .zero (.o 1) .zero) ∧
    decode 0x06111FEC 0 0 = .ok (.imul none .lr (.x 63) .negOne) ∧
    decode 0x0980310D 0 0 = .ok (.imulhs (some 11) (.v 1) .lr .fOne) ∧
    decode 0x0A2FCFEF 0 0 = .ok (.imulhn (some 0) (.v 126) (.v 127) .tid) ∧
    decode 0x0C31515F 0 0 = .ok (.imad (some 0) .zero .zero (.x 15)) ∧
    decode 0x0E110048 0 0 = .ok (.isad none .lr (.v 2) .lr) ∧
    decode 0x1190D16A 0 0 = .ok (.imin (some 11) (.o 6) .tid .zero) ∧
    decode 0x138FD02C 0 0 = .ok (.imax (some 11) (.v 126) (.o 1) .negOne) ∧
    decode 0x1431518D 0 0 = .ok (.nmin (some 0) .zero .lane .fOne) ∧
    decode 0x1611110E 0 0 = .ok (.nmax none .lr .lr .fHalf) ∧
    decode 0x1810DFFF 0 0 = .ok (.and none (.o 6) (.x 63) (.x 15)) := by
  refine ⟨rfl, rfl, rfl, rfl, rfl, rfl, rfl, rfl, rfl, rfl, rfl, rfl⟩

theorem test_decode_lane_integer_2 :
    decode 0x1B803147 0 0 = .ok (.or (some 11) (.v 1) .zero (.o 7)) ∧
    decode 0x1C314FEA 0 0 = .ok (.xor (some 0) .zero (.v 127) .zero) ∧
    decode 0x1E31116B 0 0 = .ok (.andn (some 0) .lr .tid .one) ∧
    decode 0x2010C04D 0 0 = .ok (.shl none (.o 6) (.v 2) .fOne) ∧
    decode 0x2380318E 0 0 = .ok (.shr (some 11) (.v 1) .lane .fHalf) ∧
    decode 0x258FD03F 0 0 = .ok (.sar (some 11) (.v 126) (.o 1) (.x 15)) ∧
    decode 0x26311FE7 0 0 = .ok (.bfen (some 0) .lr (.x 63) (.o 7)) ∧
    decode 0x2810D108 0 0 = .ok (.bfes none (.o 6) .lr .lr) ∧
    decode 0x2A002FEB 0 0 = .ok (.bfi none (.v 1) (.v 127) .one) ∧
    decode 0x2D8FD14C 0 0 = .ok (.prmt (some 11) (.v 126) .zero .negOne) ∧
    decode 0x2E31404E 0 0 = .ok (.csel (some 0) .zero (.v 2) .fHalf) ∧
    decode 0x02006069 0x000003E8 0 = .ok (.iadd none (.v 3) (.v 3) (.lit 1000)) := by
  refine ⟨rfl, rfl, rfl, rfl, rfl, rfl, rfl, rfl, rfl, rfl, rfl, rfl⟩

theorem test_decode_lane_integer_3 :
    decode 0x04007122 0x00000007 0 = .ok (.isub none (.v 3) (.lit 7) (.o 2)) := by
  rfl

theorem test_decode_iunary_1 :
    decode 0x3030D160 0 0 = .ok (.mov (some 0) (.o 6) .tid) ∧
    decode 0x31915101 0 0 = .ok (.not (some 11) .zero .lr) ∧
    decode 0x30002FE2 0 0 = .ok (.ineg none (.v 1) (.v 127)) ∧
    decode 0x3030D183 0 0 = .ok (.iabs (some 0) (.o 6) .lane) ∧
    decode 0x31915104 0 0 = .ok (.popc (some 11) .zero .lr) ∧
    decode 0x300FCFE5 0 0 = .ok (.clz none (.v 126) (.v 127)) ∧
    decode 0x3030D186 0 0 = .ok (.ctz (some 0) (.o 6) .lane) ∧
    decode 0x31915107 0 0 = .ok (.brev (some 11) .zero .lr) ∧
    decode 0x300FCFE8 0 0 = .ok (.bswap none (.v 126) (.v 127)) ∧
    decode 0x3030D189 0 0 = .ok (.sext8 (some 0) (.o 6) .lane) ∧
    decode 0x3191110A 0 0 = .ok (.sext16 (some 11) .lr .lr) ∧
    decode 0x300FC04B 0 0 = .ok (.zext8 none (.v 126) (.v 2)) := by
  refine ⟨rfl, rfl, rfl, rfl, rfl, rfl, rfl, rfl, rfl, rfl, rfl, rfl⟩

theorem test_decode_iunary_2 :
    decode 0x3030D18C 0 0 = .ok (.zext16 (some 0) (.o 6) .lane) := by
  rfl

theorem test_decode_lane_float_1 :
    decode 0x3391110E 0 0 = .ok (.fadd (some 11) .lr .lr .fHalf) ∧
    decode 0x3430CFEF 0 0 = .ok (.fsub (some 0) (.o 6) (.v 127) .tid) ∧
    decode 0x3600315F 0 0 = .ok (.fmul none (.v 1) .zero (.x 15)) ∧
    decode 0x380FC048 0 0 = .ok (.ffma none (.v 126) (.v 2) .lr) ∧
    decode 0x3B91116A 0 0 = .ok (.fmin (some 11) .lr .tid .zero) ∧
    decode 0x3C30D02C 0 0 = .ok (.fmax (some 0) (.o 6) (.o 1) .negOne) ∧
    decode 0x3E20318D 0 0 = .ok (.fscale (some 0) (.v 1) .lane .fOne) ∧
    decode 0x420FD10F 0 0 = .ok (.hadd2 none (.v 126) .lr .tid) ∧
    decode 0x45915FFF 0 0 = .ok (.hmul2 (some 11) .zero (.x 63) (.x 15)) ∧
    decode 0x4790D148 0 0 = .ok (.hfma2 (some 11) (.o 6) .zero .lr) ∧
    decode 0x48202FEA 0 0 = .ok (.bfma2 (some 0) (.v 1) (.v 127) .zero) ∧
    decode 0x4A0FD16B 0 0 = .ok (.hmin2 none (.v 126) .tid .one) := by
  refine ⟨rfl, rfl, rfl, rfl, rfl, rfl, rfl, rfl, rfl, rfl, rfl, rfl⟩

theorem test_decode_lane_float_2 :
    decode 0x4C11404D 0 0 = .ok (.hmax2 none .zero (.v 2) .fOne) := by
  rfl

theorem test_decode_funary_1 :
    decode 0x41911180 0 0 = .ok (.fabs (some 11) .lr .lane) ∧
    decode 0x40115101 0 0 = .ok (.fneg none .zero .lr) ∧
    decode 0x40202042 0 0 = .ok (.frcp (some 0) (.v 1) (.v 2)) ∧
    decode 0x4190D183 0 0 = .ok (.frsq (some 11) (.o 6) .lane) ∧
    decode 0x40115104 0 0 = .ok (.fsqrt none .zero .lr) ∧
    decode 0x40202045 0 0 = .ok (.fexp2 (some 0) (.v 1) (.v 2)) ∧
    decode 0x4190D186 0 0 = .ok (.flog2 (some 11) (.o 6) .lane) ∧
    decode 0x40115107 0 0 = .ok (.fsinr none .zero .lr) ∧
    decode 0x402FC048 0 0 = .ok (.fcosr (some 0) (.v 126) (.v 2)) ∧
    decode 0x4190D189 0 0 = .ok (.ftanh (some 11) (.o 6) .lane) ∧
    decode 0x4011514A 0 0 = .ok (.fsigm none .zero .zero) ∧
    decode 0x402FC04B 0 0 = .ok (.ffloor (some 0) (.v 126) (.v 2)) := by
  refine ⟨rfl, rfl, rfl, rfl, rfl, rfl, rfl, rfl, rfl, rfl, rfl, rfl⟩

theorem test_decode_funary_2 :
    decode 0x4190D18C 0 0 = .ok (.fceil (some 11) (.o 6) .lane) ∧
    decode 0x4011114D 0 0 = .ok (.ftrunc none .lr .zero) ∧
    decode 0x402FC04E 0 0 = .ok (.frint (some 0) (.v 126) (.v 2)) ∧
    decode 0x4190D18F 0 0 = .ok (.ffrac (some 11) (.o 6) .lane) ∧
    decode 0x40111150 0 0 = .ok (.fsat none .lr .zero) ∧
    decode 0x402FC051 0 0 = .ok (.fclass (some 0) (.v 126) (.v 2)) := by
  refine ⟨rfl, rfl, rfl, rfl, rfl, rfl⟩

theorem test_decode_cvt_1 :
    decode 0x4F803FE0 0 0 = .ok (.cvtF32S32 (some 11) (.v 1) (.x 63)) ∧
    decode 0x4E111141 0 0 = .ok (.cvtF32N32 none .lr .zero) ∧
    decode 0x4E2FC042 0 0 = .ok (.cvtS32F32 (some 0) (.v 126) (.v 2)) ∧
    decode 0x4F803FE3 0 0 = .ok (.cvtN32F32 (some 11) (.v 1) (.x 63)) ∧
    decode 0x4E111144 0 0 = .ok (.cvtS32F32Rn none .lr .zero) ∧
    decode 0x4E314045 0 0 = .ok (.cvtF16F32 (some 0) .zero (.v 2)) ∧
    decode 0x4F803FE6 0 0 = .ok (.cvtF32F16l (some 11) (.v 1) (.x 63)) ∧
    decode 0x4E111147 0 0 = .ok (.cvtF32F16h none .lr .zero) ∧
    decode 0x4E315028 0 0 = .ok (.cvtBf16F32 (some 0) .zero (.o 1)) ∧
    decode 0x4F803FE9 0 0 = .ok (.cvtF32Bf16l (some 11) (.v 1) (.x 63)) ∧
    decode 0x4E10D14A 0 0 = .ok (.cvtF32Bf16h none (.o 6) .zero) ∧
    decode 0x4E31502B 0 0 = .ok (.cvtE4m3F32 (some 0) .zero (.o 1)) := by
  refine ⟨rfl, rfl, rfl, rfl, rfl, rfl, rfl, rfl, rfl, rfl, rfl, rfl⟩

theorem test_decode_cvt_2 :
    decode 0x4F803FEC 0 0 = .ok (.cvtE5m2F32 (some 11) (.v 1) (.x 63)) ∧
    decode 0x4E10D14D 0 0 = .ok (.cvtF32E4m3 none (.o 6) .zero) ∧
    decode 0x4E31502E 0 0 = .ok (.cvtF32E5m2 (some 0) .zero (.o 1)) ∧
    decode 0x4F8FDFEF 0 0 = .ok (.cvtLns6F32 (some 11) (.v 126) (.x 63)) ∧
    decode 0x4E10D170 0 0 = .ok (.cvtF32Lns6 none (.o 6) .tid) ∧
    decode 0x4E315031 0 0 = .ok (.cvtS8F32 (some 0) .zero (.o 1)) ∧
    decode 0x4F8FDFF2 0 0 = .ok (.cvtN8F32 (some 11) (.v 126) (.x 63)) := by
  refine ⟨rfl, rfl, rfl, rfl, rfl, rfl, rfl⟩

theorem test_decode_predicates :
    decode 0x5006A12B 0 0 = .ok (.icmp none 3 .ge (.v 9) .one) ∧
    decode 0x52B65112 0 0 = .ok (.ncmp (some 4) 11 .lt .lr (.x 2)) ∧
    decode 0x540580E8 0 0 = .ok (.fcmp none 2 .equ (.v 7) .lr) ∧
    decode 0x56062500 0 0 = .ok (.plop none 3 1 2 8) ∧
    decode 0x58706000 0 0 = .ok (.ptov (some 2) (.o 3)) ∧
    decode 0x58000081 0 0 = .ok (.vtop none (.v 4)) := by
  refine ⟨rfl, rfl, rfl, rfl, rfl, rfl⟩

theorem test_decode_loads :
    decode 0x60013FE8 0 0 = .ok (.ldb none (.v 9) ⟨63, .none, -8⟩) ∧
    decode 0x62104213 0 0 = .ok (.ldbs none (.o 2) ⟨4, .o 1, 3⟩) ∧
    decode 0x65910057 0 0 = .ok (.ldh (some 11) .lr ⟨0, .o 5, 7⟩) ∧
    decode 0x67914370 0x00001000 0 = .ok (.ldhs (some 11) .zero ⟨6, .lit 4096, 0⟩) ∧
    decode 0x698FE213 0 0 = .ok (.ldw (some 11) (.v 127) ⟨4, .o 1, 3⟩) ∧
    decode 0x6A2FDFE8 0 0 = .ok (.ldd (some 0) 126 ⟨63, .none, -8⟩) ∧
    decode 0x6C2F8370 0x00001000 0 = .ok (.ldq (some 0) 124 ⟨6, .lit 4096, 0⟩) ∧
    decode 0x6E00A260 0x0A800C00 0 = .ok (.ldx none (.b1 (.v 5)) ⟨4, .none, 0⟩ .device true .bypass) ∧
    decode 0x6E41027F 0x00400400 0x00000040 = .ok (.ldx (some 1) (.b16 8) ⟨4, .lit 64, -1⟩ .thread false .stream) := by
  refine ⟨rfl, rfl, rfl, rfl, rfl, rfl, rfl, rfl, rfl⟩

theorem test_decode_stores :
    decode 0x70212057 0 0 = .ok (.stb (some 0) (.v 9) ⟨0, .o 5, 7⟩) ∧
    decode 0x72117FE8 0 0 = .ok (.sth none .tid ⟨63, .none, -8⟩) ∧
    decode 0x7418A213 0 0 = .ok (.stw none (.x 5) ⟨4, .o 1, 3⟩) ∧
    decode 0x76004057 0 0 = .ok (.std none 2 ⟨0, .o 5, 7⟩) ∧
    decode 0x79808370 0x00001000 0 = .ok (.stq (some 11) 4 ⟨6, .lit 4096, 0⟩) ∧
    decode 0x7A00A260 0x0D200800 0 = .ok (.stx none (.b4 (.v 5)) ⟨4, .none, 0⟩ .system true .keep) ∧
    decode 0x7A41020F 0x02300000 0 = .ok (.stx (some 1) (.b8 8) ⟨4, .o 0, -1⟩ .wg false .default) := by
  refine ⟨rfl, rfl, rfl, rfl, rfl, rfl, rfl⟩

theorem test_decode_atomics :
    decode 0x7C0020E0 0x0A000000 0 = .ok (.atomAdd none (.n32 (.v 1)) ⟨1, .none, 0⟩ ⟨.device, .relaxed, .default⟩) ∧
    decode 0x7C1100E0 0x10900400 0 = .ok (.atomMin none (.s32 .lr) ⟨1, .none, 0⟩ ⟨.thread, .acquire, .stream⟩) ∧
    decode 0x7C0040E0 0x23200800 0 = .ok (.atomMax none (.n64 2) ⟨1, .none, 0⟩ ⟨.wg, .release, .keep⟩) ∧
    decode 0x7C0FC0E0 0x35B00C00 0 = .ok (.atomAnd none (.s64 126) ⟨1, .none, 0⟩ ⟨.core, .acqRel, .bypass⟩) ∧
    decode 0x7C1140E0 0x46000000 0 = .ok (.atomOr none (.n32 .zero) ⟨1, .none, 0⟩ ⟨.cluster, .relaxed, .default⟩) ∧
    decode 0x7C10E0E0 0x58000000 0 = .ok (.atomXor none (.n32 (.o 7)) ⟨1, .none, 0⟩ ⟨.die, .relaxed, .default⟩) ∧
    decode 0x7C0020E0 0x6A500000 0 = .ok (.atomExch none (.f16x2 (.v 1)) ⟨1, .none, 0⟩ ⟨.device, .relaxed, .default⟩) ∧
    decode 0x7C0080E0 0x7DA08000 0 = .ok (.atomCas none (.n64 4) ⟨1, .none, 0⟩ ⟨.system, .acqRel, .default⟩ (.w64 8)) ∧
    decode 0x7C0080E0 0x7D889000 0x00000009 = .ok (.atomCas none (.n32 (.v 4)) ⟨1, .none, 0⟩ ⟨.system, .acqRel, .default⟩ (.w32 (.lit 9))) ∧
    decode 0x7C0020E0 0x8A000000 0 = .ok (.atomIncw none (.v 1) ⟨1, .none, 0⟩ ⟨.device, .relaxed, .default⟩) ∧
    decode 0x7C0020E0 0x9A400000 0 = .ok (.atomFadd none (.v 1) ⟨1, .none, 0⟩ ⟨.device, .relaxed, .default⟩) ∧
    decode 0x7C0020E0 0xAA500000 0 = .ok (.atomHadd2 none (.v 1) ⟨1, .none, 0⟩ ⟨.device, .relaxed, .default⟩) := by
  refine ⟨rfl, rfl, rfl, rfl, rfl, rfl, rfl, rfl, rfl, rfl, rfl, rfl⟩

theorem test_decode_frame_slots :
    decode 0x5A00C811 0 0 = .ok (.fld none (.v 6) 2 17) ∧
    decode 0x5C317FFF 0 0 = .ok (.fst (some 0) .tid 7 1023) ∧
    decode 0x5E112600 0x00000005 0 = .ok (.fadda none (.lit 5) 1 512) := by
  refine ⟨rfl, rfl, rfl⟩

theorem test_decode_group_integer_1 :
    decode 0x839F8BFD 0 0 = .ok (.wadd (some 11) 63 5 (.imm (-3))) ∧
    decode 0x859F8A0C 0 0 = .ok (.wsub (some 11) 63 5 (.x 12)) ∧
    decode 0x863F8B04 0 0 = .ok (.wmul (some 0) 63 5 (.imm 4)) ∧
    decode 0x883F8A42 0 0 = .ok (.wmulhs (some 0) 63 5 .zero) ∧
    decode 0x8A3F8A0C 0 0 = .ok (.wmulhn (some 0) 63 5 (.x 12)) ∧
    decode 0x8C1F8BFD 0 0 = .ok (.wand none 63 5 (.imm (-3))) ∧
    decode 0x8E1F8A42 0 0 = .ok (.wor none 63 5 .zero) ∧
    decode 0x901F8B04 0 0 = .ok (.wxor none 63 5 (.imm 4)) ∧
    decode 0x939F8BFD 0 0 = .ok (.wshl (some 11) 63 5 (.imm (-3))) ∧
    decode 0x959F8A0C 0 0 = .ok (.wshr (some 11) 63 5 (.x 12)) ∧
    decode 0x979F8B04 0 0 = .ok (.wsar (some 11) 63 5 (.imm 4)) ∧
    decode 0x983F8A42 0 0 = .ok (.wmin (some 0) 63 5 .zero) := by
  refine ⟨rfl, rfl, rfl, rfl, rfl, rfl, rfl, rfl, rfl, rfl, rfl, rfl⟩

theorem test_decode_group_integer_2 :
    decode 0x9A3F8A0C 0 0 = .ok (.wmax (some 0) 63 5 (.x 12)) ∧
    decode 0x9C3F8BFD 0 0 = .ok (.wnmin (some 0) 63 5 (.imm (-3))) ∧
    decode 0x9E1F8A42 0 0 = .ok (.wnmax none 63 5 .zero) ∧
    decode 0xA41F8B04 0 0 = .ok (.wsel none 63 5 (.imm 4)) ∧
    decode 0x82041040 0x00000080 0 = .ok (.wadd none 8 8 (.lit32 128)) ∧
    decode 0x82038E41 0x00020002 0x00000020 = .ok (.wadd none 7 7 (.lit64 0x2000020002)) ∧
    decode 0xA00024C0 0 0 = .ok (.wcmp none 0 .ne 9 (.imm 0)) ∧
    decode 0xA266A3BF 0 0 = .ok (.wncmp (some 2) 3 .ge 7 (.x 63)) := by
  refine ⟨rfl, rfl, rfl, rfl, rfl, rfl, rfl, rfl⟩

theorem test_decode_wunary :
    decode 0xA6027C00 0 0 = .ok (.wmov none 4 62) ∧
    decode 0xA6227C01 0 0 = .ok (.wnot (some 0) 4 62) ∧
    decode 0xA7827C02 0 0 = .ok (.wneg (some 11) 4 62) ∧
    decode 0xA6227C03 0 0 = .ok (.wabs (some 0) 4 62) ∧
    decode 0xA7827C04 0 0 = .ok (.wpopc (some 11) 4 62) ∧
    decode 0xA6027C05 0 0 = .ok (.wclz none 4 62) ∧
    decode 0xA7827C06 0 0 = .ok (.wctz (some 11) 4 62) ∧
    decode 0xA6027C07 0 0 = .ok (.wbrev none 4 62) ∧
    decode 0xA6227C08 0 0 = .ok (.wbswap (some 0) 4 62) ∧
    decode 0xA6027C09 0 0 = .ok (.wsext32 none 4 62) ∧
    decode 0xA6227C0A 0 0 = .ok (.wzext32 (some 0) 4 62) := by
  refine ⟨rfl, rfl, rfl, rfl, rfl, rfl, rfl, rfl, rfl, rfl, rfl⟩

theorem test_decode_group_float_1 :
    decode 0xA99F8A42 0 0 = .ok (.dadd (some 11) 63 5 .zero) ∧
    decode 0xAB9F8A0C 0 0 = .ok (.dsub (some 11) 63 5 (.x 12)) ∧
    decode 0xAD9F8BFD 0 0 = .ok (.dmul (some 11) 63 5 (.imm (-3))) ∧
    decode 0xAE3F8A42 0 0 = .ok (.dfma (some 0) 63 5 .zero) ∧
    decode 0xB03F8B04 0 0 = .ok (.dmin (some 0) 63 5 (.imm 4)) ∧
    decode 0xB23F8BFD 0 0 = .ok (.dmax (some 0) 63 5 (.imm (-3))) ∧
    decode 0xB4027C00 0 0 = .ok (.dabs none 4 62) ∧
    decode 0xB5827C01 0 0 = .ok (.dneg (some 11) 4 62) ∧
    decode 0xB4027C02 0 0 = .ok (.dsqrt none 4 62) ∧
    decode 0xB4227C03 0 0 = .ok (.drcp (some 0) 4 62) ∧
    decode 0xB4027C04 0 0 = .ok (.dfloor none 4 62) ∧
    decode 0xB4227C05 0 0 = .ok (.dceil (some 0) 4 62) := by
  refine ⟨rfl, rfl, rfl, rfl, rfl, rfl, rfl, rfl, rfl, rfl, rfl, rfl⟩

theorem test_decode_group_float_2 :
    decode 0xB5827C06 0 0 = .ok (.dtrunc (some 11) 4 62) ∧
    decode 0xB4227C07 0 0 = .ok (.drint (some 0) 4 62) ∧
    decode 0xB5827C08 0 0 = .ok (.dclass (some 11) 4 62) ∧
    decode 0xB60502C0 0 0 = .ok (.dcmp none 2 .ltu 5 (.imm 0)) := by
  refine ⟨rfl, rfl, rfl, rfl⟩

theorem test_decode_dcvt :
    decode 0xB8027C00 0 0 = .ok (.dcvtDS64 none 4 62) ∧
    decode 0xB9827C01 0 0 = .ok (.dcvtDN64 (some 11) 4 62) ∧
    decode 0xB8027C02 0 0 = .ok (.dcvtS64D none 4 62) ∧
    decode 0xB8227C03 0 0 = .ok (.dcvtN64D (some 0) 4 62) ∧
    decode 0xB8027C04 0 0 = .ok (.dcvtDF32l none 4 62) ∧
    decode 0xB8227C05 0 0 = .ok (.dcvtF32D (some 0) 4 62) ∧
    decode 0xB9827C06 0 0 = .ok (.dcvtDS32 (some 11) 4 62) ∧
    decode 0xB8227C07 0 0 = .ok (.dcvtS32D (some 0) 4 62) := by
  refine ⟨rfl, rfl, rfl, rfl, rfl, rfl, rfl, rfl⟩

theorem test_decode_moves :
    decode 0xBA038700 0 0 = .ok (.v2x none 7 (.v 14)) ∧
    decode 0xBA03C481 0x00000005 0 = .ok (.v2xs none 7 (.lit 5)) ∧
    decode 0xBA028402 0 0 = .ok (.vp2x none 5 8) ∧
    decode 0xBA014003 0 0 = .ok (.x2v none (.o 0) 2) ∧
    decode 0xBAC28184 0 0 = .ok (.x2vh (some 5) (.v 3) 5) ∧
    decode 0xBA028505 0 0 = .ok (.x2vp none 10 5) ∧
    decode 0xD8008A00 0 0 = .ok (.tagof none 1 (.v 20)) ∧
    decode 0xD800E481 0 0 = .ok (.fmtof none 1 (.x 9)) ∧
    decode 0xBC010001 0 0 = .ok (.wld none 2 0 1) ∧
    decode 0xBE218300 0 0 = .ok (.wst (some 0) 3 1 (-256)) := by
  refine ⟨rfl, rfl, rfl, rfl, rfl, rfl, rfl, rfl, rfl, rfl⟩

theorem test_decode_control_1 :
    decode 0xC07FFFEA 0 0 = .ok (.bra (some 2) (-22)) ∧
    decode 0xC20FFFFF 0 0 = .ok (.brd none 1048575) ∧
    decode 0xC4000005 0 0 = .ok (.call none 5) ∧
    decode 0xC6001200 0 0 = .ok (.callr none 9) ∧
    decode 0xC8A00000 0 0 = .ok (.ret (some 4)) ∧
    decode 0xCA000400 0 0 = .ok (.jmp none 2) ∧
    decode 0xCCA00000 0 0 = .ok (.exit (some 4)) ∧
    decode 0xCE000000 0 0 = .ok (.yield none) ∧
    decode 0xD0800021 0 0 = .ok (.trap (some 3) 0x21) ∧
    decode 0xD2000000 0 0 = .ok (.tret none) ∧
    decode 0x80123456 0 0 = .ok (.nop 0x123456) ∧
    decode 0xD4018022 0 0 = .ok (.srd none 3 0x22) := by
  refine ⟨rfl, rfl, rfl, rfl, rfl, rfl, rfl, rfl, rfl, rfl, rfl, rfl⟩

theorem test_decode_control_2 :
    decode 0xD6010022 0 0 = .ok (.swr none 2 0x22) := by
  rfl

theorem test_decode_ordering :
    decode 0xDA1FFFC1 0 0 = .ok (.waitc none 63 31 30 1) ∧
    decode 0xDC0CC000 0 0 = .ok (.fence none .cluster 3) ∧
    decode 0xDE02D4C0 0 0 = .ok (.ftok none 5 .device 19) ∧
    decode 0xE0000A00 0 0 = .ok (.fwait none 5) := by
  refine ⟨rfl, rfl, rfl, rfl⟩

theorem test_decode_barriers_sets_1 :
    decode 0xE2043F00 0 0 = .ok (.bar none false 0 none) ∧
    decode 0xE20D4700 0 0 = .ok (.bar none true 5 (some 7)) ∧
    decode 0xE4000C00 0 0 = .ok (.ksetCount none 0 false 6) ∧
    decode 0xE41F0C00 0 0 = .ok (.ksetMask none 7 true 6) ∧
    decode 0xE64A1200 0 0 = .ok (.ksign (some 1) 2 true 9) ∧
    decode 0xE8000000 0x038B0201 0 = .ok (.kxchTid none 3 false (.v 1) (.v 2) .tid) ∧
    decode 0xE8200000 0x1FC48988 0x00000003 = .ok (.kxchPos (some 0) 7 true .lr (.lit 3) (.x 4)) ∧
    decode 0xEA000000 0x00D08201 0 = .ok (.kredAddN32 none 5 true (.v 1) (.o 2)) ∧
    decode 0xEA000000 0x00D18201 0 = .ok (.kredAddF32 none 5 true (.v 1) (.o 2)) ∧
    decode 0xEA000000 0x00D28201 0 = .ok (.kredMinS32 none 5 true (.v 1) (.o 2)) ∧
    decode 0xEA000000 0x00D38201 0 = .ok (.kredMaxS32 none 5 true (.v 1) (.o 2)) ∧
    decode 0xEA000000 0x00D48201 0 = .ok (.kredMinF32 none 5 true (.v 1) (.o 2)) := by
  refine ⟨rfl, rfl, rfl, rfl, rfl, rfl, rfl, rfl, rfl, rfl, rfl, rfl⟩

theorem test_decode_barriers_sets_2 :
    decode 0xEA000000 0x00D58201 0 = .ok (.kredMaxF32 none 5 true (.v 1) (.o 2)) ∧
    decode 0xEA000000 0x00D68201 0 = .ok (.kredAnd none 5 true (.v 1) (.o 2)) ∧
    decode 0xEA000000 0x00D78201 0 = .ok (.kredOr none 5 true (.v 1) (.o 2)) ∧
    decode 0xEA000000 0x00D88201 0 = .ok (.kredXor none 5 true (.v 1) (.o 2)) ∧
    decode 0xEA000000 0x00D98201 0 = .ok (.kredNz none 5 true (.v 1) (.o 2)) := by
  refine ⟨rfl, rfl, rfl, rfl, rfl⟩

theorem test_decode_matrix :
    decode 0xEC008438 0x006BCE08 0 = .ok (.mma none 1 2 7 { kcl := true, k := 5, split := .two, scale := true, zero := true, n := 2, m := 1, slot := 6, bsgn := false, asgn := false, bfmt := .e5m2, afmt := .e4m3 }) ∧
    decode 0xEE019048 0x02FBCE00 0 = .ok (.mdrain none 3 8 9 { kcl := true, k := 3, keep := true, scale := true, add := true, dfmt := .s32, n := 2, m := 1, slot := 6 }) ∧
    decode 0xF0000028 0 0 = .ok (.mzero none 5) ∧
    decode 0xF0028840 0 0 = .ok (.mldsc none 5 4) ∧
    decode 0xF00280B8 0 0 = .ok (.mstat none 5 7) := by
  refine ⟨rfl, rfl, rfl, rfl, rfl⟩

theorem test_decode_transaction_barriers :
    decode 0xF2000802 0 0 = .ok (.tbinit none 4 (some 2)) ∧
    decode 0xF201887F 0 0 = .ok (.tbarrive none 3 4 none) ∧
    decode 0xF20008BE 0 0 = .ok (.tbexpect none 4 (some 62)) ∧
    decode 0xF20188C1 0 0 = .ok (.tbtest none 3 4 (some 1)) ∧
    decode 0xF4000828 0 0 = .ok (.tbwait none 4 5) := by
  refine ⟨rfl, rfl, rfl, rfl, rfl⟩

theorem test_decode_worklists :
    decode 0xF6000000 0x00003201 0 = .ok (.wlpush none 1 16 3) ∧
    decode 0xF6038000 0x00040205 0 = .ok (.wlpop none 7 2 1 16) ∧
    decode 0xF6038000 0x00160F8B 0 = .ok (.wltry none 7 11 3 124) ∧
    decode 0xF6200000 0x0000000E 0 = .ok (.wldone (some 0) 2) ∧
    decode 0xF6038000 0x00000012 0 = .ok (.wlfloor none 7 2) ∧
    decode 0xF6038000 0x00000016 0 = .ok (.wlstat none 7 2) := by
  refine ⟨rfl, rfl, rfl, rfl, rfl, rfl⟩

theorem test_decode_frames :
    decode 0xF8000A10 0 0 = .ok (.fenter none 2 5) ∧
    decode 0xF8200078 0 0 = .ok (.fleave (some 0) 7) ∧
    decode 0xF8008A9E 0 0 = .ok (.fopen none true 3 5 6) ∧
    decode 0xF8000680 0 0 = .ok (.fopen none false 0 3 0) ∧
    decode 0xF80008C8 0 0 = .ok (.flink none 1 4) ∧
    decode 0xF8048110 0 0 = .ok (.fhnd none 9 2) ∧
    decode 0xF8001340 0 0 = .ok (.fdrop none 9) ∧
    decode 0xF8000188 0 0 = .ok (.fsync none 1) ∧
    decode 0xF80001E0 0 0 = .ok (.funlink none 4) := by
  refine ⟨rfl, rfl, rfl, rfl, rfl, rfl, rfl, rfl, rfl⟩

theorem test_decode_regions :
    decode 0xFA000000 0x00100003 0 = .ok (.rcall none 3 0 1 0 0) ∧
    decode 0xFA600000 0x40420007 0 = .ok (.rcallExact (some 2) 7 0 4 1 0) ∧
    decode 0xFA000000 0x9086080C 0 = .ok (.rcallSonly none 12 2 8 3 2) ∧
    decode 0xFA000008 0 0 = .ok (.rret none) ∧
    decode 0xFA000810 0 0 = .ok (.rload none 4) ∧
    decode 0xFA028C18 0 0 = .ok (.rctlEvict none 5 6) ∧
    decode 0xFA039020 0 0 = .ok (.rctr none 7 8) ∧
    decode 0xFA010628 0 0 = .ok (.rinfo none 2 3) := by
  refine ⟨rfl, rfl, rfl, rfl, rfl, rfl, rfl, rfl⟩

theorem test_decode_collectives :
    decode 0xFC030E28 0x00403000 0 = .ok (.collAllreduce none 6 7 5 3 4 .f32 .sum) ∧
    decode 0xFC030E28 0x004FF571 0 = .ok (.collReducescatter none 6 7 5 255 4 .n64 .xor) ∧
    decode 0xFC030E28 0x00403092 0 = .ok (.collAllgather none 6 7 5 3 4 .e5m2) ∧
    decode 0xFC230E28 0x00403033 0 = .ok (.collBroadcast (some 0) 6 7 5 3 4 .f64) ∧
    decode 0xFC030E28 0x00403044 0 = .ok (.collAlltoall none 6 7 5 3 4 .s32) := by
  refine ⟨rfl, rfl, rfl, rfl, rfl⟩

theorem test_decode_system :
    decode 0xFE000000 0 0 = .ok (.bkpt none) ∧
    decode 0xFE020001 0 0 = .ok (.tlbinv none 4) ∧
    decode 0xFE020002 0 0 = .ok (.l1clean none 4) ∧
    decode 0xFE020003 0 0 = .ok (.archive none 4) ∧
    decode 0xFE020004 0 0 = .ok (.qlaunch none 4) ∧
    decode 0xFE020005 0 0 = .ok (.qsignal none 4) ∧
    decode 0xFE020006 0 0 = .ok (.qwaitsig none 4) ∧
    decode 0xFE020007 0 0 = .ok (.qswitch none 4) ∧
    decode 0xFE020008 0 0 = .ok (.qphase none 4) ∧
    decode 0xFE400009 0 0 = .ok (.qdone (some 1)) ∧
    decode 0xFE02000A 0 0 = .ok (.renable none 4) ∧
    decode 0xFE1F800B 0 0 = .ok (.wlcfg none 63) := by
  refine ⟨rfl, rfl, rfl, rfl, rfl, rfl, rfl, rfl, rfl, rfl, rfl, rfl⟩

/-! ## States for tests -/

/-- The next state of an outcome, or a state that no witness uses. -/
def nextOf : Out → State
  | .next t => t
  | .fault _ | .refused _ => State.reset

/-- A launched thread of a running context on core 0, selected, a NOP at its PC. -/
def tS : State := State.reset.withFetchWord 32 0x80000000

/-- The same with other registers. -/
def tR (f : Regs → Regs) : State := tS.onRegs f

/-- x4 names the local window's byte 64, x5 the mapped page, x6 is 1, x7 is 4, o1 is 2, p1 true. -/
def tM : State :=
  tR (fun r => { (((((r.setX 4 0xFD00000000000040).setX 5 0x10000).setX 6 1).setX 7 4).setP 1 true) with o := r.o.set 1 2 })

/-- Another launch record. -/
def withRec (f : LRec → LRec) (s : State) : State := { s with launches := s.launches.map (fun l => { l with lrec := f l.lrec }) }

/-- An access that reaches its place, from checks that evaluate. -/
theorem reaches_of {s s' : State} {kind : MopKind} {va : W64} {n : Nat} {xb : Option XReg} {key : Nat}
    (h : va.toNat % n = 0 ∧ curatorReason s (MReq.plain kind va n xb) = none ∧
      resolve s (s.wgOf s.cur) s.cur.core s.cur.cid va.toNat n kind.code = (.ok key, s') ∧ s.cur.fence = none ∧ s.cur.rej = none) :
    Reaches s s' kind va n xb key :=
  ⟨h.1, h.2.1, h.2.2.1, Or.inl h.2.2.2.1, h.2.2.2.2⟩

/-! ## Witnesses: states and operands that meet the hypotheses of the statements -/

theorem witness_StepRunsDecoded_step :
    let s0 := tS.onCur (fun t => { t with wait := .none })
    let sf := (fetchInstr s0 s0.cur).2
    let row : Row := .early (.nop 0)
    tS.stopped = false ∧ tS.recovery = false ∧ tS.cfg.tickstop = 0 ∧ nextTrap tS = none ∧ tS.cur.ref ≠ .none ∧ able tS tS.cur = true ∧
    fetchInstr s0 s0.cur = (.ok (0x80000000, .ok row), sf) ∧ rowFault sf row = none ∧ spilledReg sf sf.cur row = none ∧
    failedCall sf.cur 0x80000000 row = none ∧ stalled sf.cur row = false ∧ fenceFull sf.cur = false ∧ budgetOut sf sf.cur = false := by
  decide +kernel

/-- Both words of a KRED stand in the instruction cache. -/
def tI : State :=
  tS.onCore 0 (fun c => { c with icache := [⟨0, 65536, 0xEA000000⟩, ⟨0, 65540, 0x00000101⟩] })

theorem witness_StepRunsDecoded_fetch :
    let ws : List W32 := [0xEA000000, 0x00000101]
    let row : Row := .early (.kredAddN32 none 0 false (.v 1) (.v 1))
    tI.cur.ref = .thr 0 0 ∧ tI.cur.rej = none ∧ tI.cur.r.pc.toNat % 4 = 0 ∧ tI.cur.r.pc.toNat + 4 * ws.length ≤ 2 ^ 56 ∧
    ws.length = rowLen row ∧ (∀ k < ws.length, iFind (tI.core tI.cur.core) tI.cur.cid (tI.cur.r.pc.toNat + 4 * k) = ws[k]?) ∧
    hasCtl 0xEA000000 = true ∧ decodeRow 0xEA000000 0x00000101 0 = .ok row ∧
    iFind (tS.core 0) 0 65536 = none ∧ (xlate tS 0 0 65536 4).1 = .ok 65536 ∧ isSys 65536 = false ∧
    (xlate tS 0 0 65536 4).2.poisoned 65536 4 = false := by
  decide +kernel

theorem witness_DecodeEncode : Instr.wf (.std none 126 ⟨63, .lit 7, -8⟩) = true ∧ Instr.isEvent (.std none 126 ⟨63, .lit 7, -8⟩) = false ∧
    Instr.isRctlTwin (.std none 126 ⟨63, .lit 7, -8⟩) = false := by decide +kernel

theorem witness_StepKeepsMemoryForm : Memory.wf tS.mem = true ∧ (match step tS with | .next _ => true | .fault _ | .refused _ => false) = true := by
  decide +kernel

theorem witness_FalseGuardSkips : tM.cur.r.holds (guardOf ((encode (.iadd (some 0) .zero .zero .zero)).getD 0 0)) = false ∧
    Instr.wf (.iadd (some 0) .zero .zero .zero) = true ∧ Instr.isEvent (.iadd (some 0) .zero .zero .zero) = false ∧
    13 ≤ fld 0x03A02040 21 4 ∧ bit 0x03A02040 31 = false := by decide +kernel

/-- The one hypothesis of the statements on lane and group arithmetic, moves, comparisons: a guard that holds. -/
theorem witness_guard : tM.cur.r.holds (some 1) = true ∧ tM.cur.r.holds none = true := by decide +kernel

theorem witness_LaneIntegerResults : tM.cur.r.holds (some 1) = true := witness_guard.1
theorem witness_LaneThirdSourceResults : tM.cur.r.holds (some 1) = true := witness_guard.1
theorem witness_LaneShiftResults : tM.cur.r.holds (some 1) = true := witness_guard.1
theorem witness_LaneFieldResults : tM.cur.r.holds (some 1) = true := witness_guard.1
theorem witness_LaneSelectResults : tM.cur.r.holds (some 1) = true := witness_guard.1
theorem witness_LaneUnaryResults : tM.cur.r.holds (some 1) = true := witness_guard.1
theorem witness_LaneFloatArithmetic : tM.cur.r.holds (some 1) = true := witness_guard.1
theorem witness_LaneFloatFunctions : tM.cur.r.holds (some 1) = true := witness_guard.1
theorem witness_LanePackedResults : tM.cur.r.holds (some 1) = true := witness_guard.1
theorem witness_ConversionResults : tM.cur.r.holds (some 1) = true := witness_guard.1
theorem witness_PredicateResults : tM.cur.r.holds (some 1) = true := witness_guard.1
theorem witness_GroupIntegerResults : tM.cur.r.holds (some 1) = true := witness_guard.1
theorem witness_GroupUnaryResults : tM.cur.r.holds (some 1) = true := witness_guard.1
theorem witness_GroupFloatArithmetic : tM.cur.r.holds (some 1) = true := witness_guard.1
theorem witness_GroupFloatFunctions : tM.cur.r.holds (some 1) = true := witness_guard.1
theorem witness_GroupComparisons : tM.cur.r.holds (some 1) = true := witness_guard.1

theorem witness_LoadsIssue : tM.cur.r.holds (some 1) = true ∧
    (Reaches tM tM .load (lmAddr tM.cur ⟨4, .o 1, 3⟩ 1) 1 (some 4) (scratchKey 0 69) ∧
      Reaches tM tM .load (lmAddr tM.cur ⟨4, .o 1, 3⟩ 2) 2 (some 4) (scratchKey 0 74) ∧
      Reaches tM tM .load (lmAddr tM.cur ⟨4, .o 1, 3⟩ 4) 4 (some 4) (scratchKey 0 84) ∧
      Reaches tM tM .load (lmAddr tM.cur ⟨4, .o 1, 3⟩ 8) 8 (some 4) (scratchKey 0 104) ∧
      Reaches tM tM .load (lmAddr tM.cur ⟨4, .o 1, 3⟩ 16) 16 (some 4) (scratchKey 0 144)) ∧
    Reaches tM tM .load (tM.cur.r.getX 5 + (1 : BitVec 9).signExtend 64 * 8) 8 (some 5) 65544 :=
  ⟨by decide +kernel, ⟨reaches_of (by decide +kernel), reaches_of (by decide +kernel), reaches_of (by decide +kernel),
    reaches_of (by decide +kernel), reaches_of (by decide +kernel)⟩, reaches_of (by decide +kernel)⟩

theorem witness_StoresIssue : tM.cur.r.holds (some 1) = true ∧ tM.cur.rest = none ∧
    (Reaches tM tM .store (lmAddr tM.cur ⟨4, .o 1, 3⟩ 1) 1 (some 4) (scratchKey 0 69) ∧
      Reaches tM tM .store (lmAddr tM.cur ⟨4, .o 1, 3⟩ 2) 2 (some 4) (scratchKey 0 74) ∧
      Reaches tM tM .store (lmAddr tM.cur ⟨4, .o 1, 3⟩ 4) 4 (some 4) (scratchKey 0 84) ∧
      Reaches tM tM .store (lmAddr tM.cur ⟨4, .o 1, 3⟩ 8) 8 (some 4) (scratchKey 0 104) ∧
      Reaches tM tM .store (lmAddr tM.cur ⟨4, .o 1, 3⟩ 16) 16 (some 4) (scratchKey 0 144)) ∧
    Reaches tM tM .store (tM.cur.r.getX 5 + (1 : BitVec 9).signExtend 64 * 8) 8 (some 5) 65544 :=
  ⟨by decide +kernel, by decide +kernel, ⟨reaches_of (by decide +kernel), reaches_of (by decide +kernel), reaches_of (by decide +kernel),
    reaches_of (by decide +kernel), reaches_of (by decide +kernel)⟩, reaches_of (by decide +kernel)⟩

theorem witness_AtomicsIssue : tM.cur.r.holds (some 1) = true ∧ tM.cur.rest = none ∧ tM.cur.fence = none ∧
    Reaches tM tM (.atom .add .n32) (lmAddr tM.cur ⟨5, .none, 0⟩ 4) 4 (some 5) 65536 ∧
    Reaches tM tM (.atom .cas .s64) (lmAddr tM.cur ⟨5, .o 1, 0⟩ 8) 8 (some 5) 65552 :=
  ⟨by decide +kernel, by decide +kernel, by decide +kernel, reaches_of (by decide +kernel), reaches_of (by decide +kernel)⟩

/-- A private frame of 4 slots in d2, made by FENTER. -/
def tF : State := nextOf (exec (.fenter none 2 7) tM)

theorem witness_FrameSlotAccessesIssue :
    let va : W64 := BitVec.ofNat 64 (hAddr (tF.cur.r.getD 2) + 16 + 4 * 3)
    let f : Nat × Hdr := (scratchKey 0 4304, { refc := 1, size := 4, depth := 2, scope := 0, live := true, pad := 1, gen := 1, retain := 0 })
    (tF.cur.r.holds none = true ∧ tF.cur.rest = none ∧ tF.cur.fence = none ∧
      (∀ k ∈ [1, 2, 3], headerBusy tF (tF.cur.r.getD 2) k = false) ∧ frameCheck tF tF.cur (tF.cur.r.getD 2) 1 = .ok f ∧
      frameCheck tF tF.cur (tF.cur.r.getD 2) 2 = .ok f ∧ frameCheck tF tF.cur (tF.cur.r.getD 2) 3 = .ok f ∧ 3 < f.2.size) ∧
    Reaches tF tF .load va 4 none (scratchKey 0 4332) ∧ Reaches tF tF .store va 4 none (scratchKey 0 4332) ∧
    Reaches tF tF (.atom .fadda .n32) va 4 none (scratchKey 0 4332) :=
  ⟨by decide +kernel, reaches_of (by decide +kernel), reaches_of (by decide +kernel), reaches_of (by decide +kernel)⟩

theorem witness_BranchesAndJumps : tM.cur.r.holds (some 1) = true ∧ regroupOf tM = 0 ∧
    regroupOf (withRec (fun l => { l with regroup := 8 }) tM) ≠ 0 ∧ (tM.cur.r.getX 5).toNat % 4 = 0 := by decide +kernel

/-- The thread has called: its return address is on the stack. -/
def tCalled : State := nextOf (exec (.call none 5) tM)

theorem witness_CallsAndReturns : tM.cur.r.holds (some 1) = true ∧ tM.cur.rest = none ∧
    pushCheck tM tM.cur (tM.cur.r.sp - 8).toNat (tM.cur.r.sp - 8).toNat = .ok (scratchKey 0 4344) ∧ (tM.cur.r.getX 5).toNat % 4 = 0 ∧
    tCalled.cur.r.holds none = true ∧ tCalled.cur.rest = none ∧
    (2 ^ 56 ≤ tCalled.cur.r.sp.toNat ∧ blocked tCalled.cur (scratchKey 0 4344) 8 false = false) ∧
    popCheck tCalled tCalled.cur tCalled.cur.r.sp.toNat = .ok (scratchKey 0 4344) ∧ viewN tCalled tCalled.cur (scratchKey 0 4344) 8 % 4 = 0 ∧
    (let s := tR (fun r => { r with sp := 0x10008 })
     s.cur.r.holds none = true ∧ s.cur.rej = none ∧ s.cur.fence = none ∧ blocked s.cur 0x10008 8 false = false ∧
       (match resolve s (s.wgOf s.cur) s.cur.core s.cur.cid 0x10008 8 5 with
         | (.ok key, u) => key == 0x10008 && (let x := agentRead u u.cur.core u.cur.cid 0 .default key 8
             !x.1.2 && ofBytes (overlay u.cur.mops key x.1.1) % 4 == 0)
         | _ => false) = true) := by
  decide +kernel

theorem witness_TrapEntry : tM.cur.r.holds none = true ∧ tM.cur.ref = .thr 0 0 ∧ tM.cur.rest = none ∧ tM.cur.fence = none ∧
    (tM.wgOf tM.cur).any (fun w => w.id == 0) = true ∧ tM.cur.tmode = false ∧ (lmAddr tM.cur ⟨6, .none, 0⟩ 4).toNat % 4 ≠ 0 ∧
    (tM.cur.r.getX 6 + (0 : BitVec 9).signExtend 64 * 8).toNat % 8 ≠ 0 ∧ (tM.cur.r.getX 6).toNat % 4 ≠ 0 := by decide +kernel

theorem witness_TrapReturn :
    let s := tM.onCur (fun t => { t with tmode := true, tpc := 0x10004 })
    s.cur.r.holds none = true ∧ s.cur.fence = none ∧ s.cur.tmode = true := by decide +kernel

theorem witness_ExitCompletes : tM.cur.r.holds none = true ∧ tM.cur.ref = .thr 0 0 ∧ tM.cur.rest = none ∧ tM.cur.fence = none := by
  decide +kernel

theorem witness_PrivilegedForms : tM.cur.r.holds none = true ∧ tM.cur.ref = .thr 0 0 ∧ tM.cur.rest = none ∧ tM.cur.fence = none ∧
    (256 ≤ (256 : BitVec 15).toNat ∧ (511 : BitVec 15).toNat ≤ 511) ∧
    (srListed (0 : BitVec 15).toNat = true ∧ (0 : BitVec 15).toNat ≠ 33 ∧ (0 : BitVec 15).toNat ≠ 34 ∧ (0 : BitVec 15).toNat ≠ 49) := by
  decide +kernel

theorem witness_SpecialRegisters : tM.cur.r.holds none = true ∧ tM.cur.rest = none ∧ tM.cur.fence = none ∧
    (srBad tM (34 : BitVec 15).toNat = false ∧ ¬256 ≤ (34 : BitVec 15).toNat ∧ (34 : BitVec 15).toNat ≠ 32) ∧
    replaying tM tM.cur.cid = false := by decide +kernel

theorem witness_ShapeQueries : tM.cur.r.holds none = true ∧ tM.cur.ref = .thr 0 0 ∧ (liveOf tM 0).length = 1 := by decide +kernel

theorem witness_OrderingCompletes :
    let s := nextOf (exec (.ftok none 9 .wg 0) tM)
    let c := tM.onRegs (fun r => r.setX 9 (BitVec.ofNat 64 (2 * 2 ^ 56 + 0)))
    tM.cur.r.holds none = true ∧ loadsOut tM.cur = 0 ∧ storesOut tM.cur = 0 ∧ ((tM.wgOf tM.cur).map (copiesOut tM)).getD 0 ≤ 0 ∧
    ((tM.wgOf tM.cur).map tilesOut).getD 0 ≤ 0 ∧ tM.cur.fence = none ∧ Scope.die.code ≤ 4 ∧ 5 ≤ Scope.device.code ∧ tM.cur.mops = [] ∧
    tM.cur.toks.length < 8 ∧ replaying tM tM.cur.cid = false ∧
    (let u := { s with cur := { s.cur with toks := [] } }
     let tok := (u.cur.r.getX 9).toNat
     u.cur.fence = none ∧ bits tok 56 8 = 1 ∧ bits tok 44 12 = u.cur.tid ∧ bits tok 0 35 ≠ 0 ∧ bits tok 0 35 ≤ u.cur.seq ∧ u.cur.toks = []) ∧
    (let tok := (c.cur.r.getX 9).toNat
     bits tok 56 8 = 2 ∧ (c.ctx? c.cur.cid).any (fun x => bits tok 0 40 ≤ lastColl x (bits tok 46 10) && x.colls.isEmpty) = true) := by
  decide +kernel

/-! ### Rounds: a workgroup of two threads, both at the same registers -/

/-- The workgroup of the selected thread. -/
def wgIn (s : State) : Wg := (s.wgOf s.cur).getD (startWg s 0 0 0 0 0 0 0 (hostLRec 0) [0] 0 0)

/-- Two threads; x8 is 0, x9 is 2. -/
def t2 : State :=
  let s := withRec (fun l => { l with wgsize := 2 }) (tM.onRegs (fun r => r.setX 9 2))
  { s with threads := [{ s.cur with ref := .thr 0 1, slot := 1, tid := 1 }] }

/-- The other thread is selected. -/
def swap (s : State) : State :=
  match s.threads with
  | u :: us => { s with cur := u, threads := us ++ [s.cur] }
  | [] => s

/-- Signing conditions that evaluate. -/
theorem lastSigner_of {s : State} {w : Wg} {cl : Bool} {k : Fin 8} {g : Signing}
    (h1 : s.wgOf s.cur = some w ∧ (s.cur.ref ≠ .none ∧ s.cur.rest = none) ∧ (s.cur.fence = none ∧ s.cur.mops = []) ∧ replaying s s.cur.cid = false)
    (h2 : ((getK s w cl k).st = .armed ∨ (getK s w cl k).st = .gathering) ∧ (signedRound s w cl k g).op = g.op ∧
      g.words = (signedRound s w cl k g).words ∧ g.sw = (signedRound s w cl k g).sw)
    (h3 : (getK s w cl k).maskMode = true →
      let base := (getK s w cl k).val.toNat
      let i := setIndex s w cl s.cur
      base ≤ i ∧ i < base + 64 ∧ (signedRound s w cl k g).mask.getLsbD (i - base) = true)
    (h4 : roundFull (signedRound s w cl k g) = true ∧ ∀ x ∈ (getK s w cl k).signs, (getK s w cl k).st = .gathering → x.ref ≠ s.cur.ref) :
    LastSigner s w cl k g :=
  ⟨h1.1, h1.2.1, h1.2.2.1, h1.2.2.2, h2.1, h2.2.1, h2.2.2.1, h2.2.2.2, h3, h4.1, h4.2⟩

/-- Both have arrived but the selected one. -/
def tBar : State := swap (nextOf (exec (.bar none false 3 none) t2))

theorem witness_BarrierCompletes :
    let w := wgIn t2
    let v := wgIn tBar
    (t2.cur.r.holds none = true ∧ t2.cur.rest = none ∧ t2.cur.ref ≠ .none ∧ t2.cur.fence = none ∧ t2.cur.mops = [] ∧
      replaying t2 t2.cur.cid = false ∧ t2.wgOf t2.cur = some w ∧ (t2.gang? w.gang).isSome = true ∧ (t2.cur.r.getX 6).toNat = 1 ∧
      (getBar t2 w true 0).arr = [] ∧ 1 - exitsOf t2 w true ≤ (getBar t2 w true 0).arr.length + 1) ∧
    (tBar.cur.r.holds none = true ∧ tBar.cur.rest = none ∧ tBar.cur.ref ≠ .none ∧ tBar.cur.fence = none ∧ tBar.cur.mops = [] ∧
      replaying tBar tBar.cur.cid = false ∧ tBar.wgOf tBar.cur = some v ∧ scopeCount tBar v false = 2 ∧ (getBar tBar v false 3).arr ≠ [] ∧
      (getBar tBar v false 3).c = 2 ∧ 2 - exitsOf tBar v false ≤ (getBar tBar v false 3).arr.length + 1 ∧
      ∀ x ∈ (getBar tBar v false 3).arr, x.1 ≠ tBar.cur.ref) := by
  decide +kernel

/-- KSET.COUNT of 2 on register 0, KSET.MASK from 0 on register 7. -/
def tK : State := nextOf (exec (.ksetMask none 7 false 8) (nextOf (exec (.ksetCount none 0 false 9) t2)))

/-- The other thread has signed both: a KSIGN under the mask 1 on register 7 waits for nobody, so it has gone on. -/
def tG (i : Instr) : State := swap (nextOf (exec i tK))

theorem witness_SetDeclarations :
    let w := wgIn t2
    let s := tG (.ksign none 0 false 6)
    let v := wgIn s
    t2.cur.r.holds none = true ∧ t2.cur.rest = none ∧ t2.cur.fence = none ∧ t2.wgOf t2.cur = some w ∧ scopeCount t2 w false = 2 ∧
    (t2.cur.r.getX 6).toNat = 1 ∧ (t2.cur.r.getX 9).toNat = 2 ∧ (t2.cur.r.getX 8).toNat = 0 ∧ (getK t2 w false 0).st ≠ .gathering ∧
    s.cur.r.holds none = true ∧ s.cur.rest = none ∧ s.cur.fence = none ∧ s.wgOf s.cur = some v ∧ (getK s v false 0).st = .gathering ∧
    (getK s v false 0).maskMode = false ∧ (getK s v false 0).val = s.cur.r.getX 9 := by
  decide +kernel

theorem witness_SigningCompletes_count (i : Instr) (g : Signing)
    (h : (i, g) ∈ [(Instr.ksign none 0 false 6, Signing.plain .ksign (encode (.ksign none 0 false 6)) [] 1),
      (.kxchTid none 0 false (.v 1) (.v 2) (.o 0), { Signing.plain (.kxch false) (encode (.kxchTid none 0 false (.v 1) (.v 2) (.o 0))) [] 2 with
        dst := .v 1 }),
      (.kxchPos none 0 false (.v 1) (.v 2) (.o 0), { Signing.plain (.kxch true) (encode (.kxchPos none 0 false (.v 1) (.v 2) (.o 0))) [] 2 with
        dst := .v 1 }),
      (.kredAddN32 none 0 false (.v 1) (.lit 7), { Signing.plain (.kred 0) (encode (.kredAddN32 none 0 false (.v 1) (.lit 7))) [] 3 with
        a := 7, dst := .v 1 })]) :
    (tG i).cur.r.holds none = true ∧ LastSigner (tG i) (wgIn (tG i)) false 0 g := by
  simp only [List.mem_cons, Prod.mk.injEq, List.not_mem_nil, or_false] at h
  rcases h with ⟨rfl, rfl⟩ | ⟨rfl, rfl⟩ | ⟨rfl, rfl⟩ | ⟨rfl, rfl⟩ <;>
    exact ⟨by decide +kernel, lastSigner_of (by decide +kernel) (by decide +kernel) (by decide +kernel) (by decide +kernel)⟩

theorem witness_SigningCompletes_mask :
    tK.cur.r.holds none = true ∧
    LastSigner tK (wgIn tK) false 7 { Signing.plain .ksign (encode (.ksign none 7 false 6)) [1] 1 with mask := some 1 } :=
  ⟨by decide +kernel, lastSigner_of (by decide +kernel) (by decide +kernel) (by decide +kernel) (by decide +kernel)⟩

/-! ### The matrix unit, transaction barriers, frames -/

/-- Other control words differ from this one. -/
def mctl : MmaCtl :=
  { kcl := false, k := 0, split := .one, scale := false, zero := true, n := 0, m := 0, slot := 0, bsgn := false, asgn := false, bfmt := .e4m3, afmt := .e4m3 }

/-- The least drain. -/
def dctl : DrainCtl := { kcl := false, k := 0, keep := false, scale := false, add := false, dfmt := .f32, n := 0, m := 0, slot := 0 }

/-- Register 0 waits for one; x12 is K 32 with rows of 32 bytes, x13 to x15 are a source count, 0 and 64, x16 the barrier's address. -/
def tX : State :=
  nextOf (exec (.ksetCount none 0 false 6)
    (tM.onRegs (fun r => (((((r.setX 12 (BitVec.ofNat 64 (2 + 2 * 2 ^ 16 + 32 * 2 ^ 32))).setX 13 4).setX 15 64).setX 16 0xFD00000000000020).setX 17 65535))))

/-- A gang of two members on cores 0 and 1, each of one thread; the other member's thread has signed the cluster's register 0. -/
def tC (i : Instr) : State :=
  let s := withRec (fun l => { l with gang := 2 }) (tX.onRegs (fun r => r.setX 9 2))
  let w := wgIn s
  let s := { s with
    wgs := [w, { w with id := 1, member := 1, core := 1 }], cores := s.cores ++ [{ s.core 0 with num := 1 }]
    gangs := s.gangs.map (fun (g : Gang) => { g with members := [0, 1] })
    threads := [{ s.cur with ref := .thr 1 0, core := 1 }] }
  swap (nextOf (exec i (nextOf (exec (.ksetCount none 0 true 9) s))))

theorem witness_MatrixRoundsEnter_mma :
    let g := Signing.plain (.mma mctl) (encode (.mma none 4 4 12 mctl)) [tX.cur.r.getX 4, tX.cur.r.getX 4, tX.cur.r.getX 12] 2
    (tX.cur.r.holds none = true ∧ tX.wgOf tX.cur = some (wgIn tX) ∧ tX.cur.rest = none ∧ tX.cur.fence = none ∧ tX.cur.mops = [] ∧
      mmaCheck (wgIn tX) (tX.cur.r.getX 4) (tX.cur.r.getX 4) (tX.cur.r.getX 12) mctl = none ∧ Split.num mctl.split = 1) ∧
    LastSigner tX (wgIn tX) false 0 g :=
  ⟨by decide +kernel, lastSigner_of (by decide +kernel) (by decide +kernel) (by decide +kernel) (by decide +kernel)⟩

theorem witness_MatrixRoundsEnter_split :
    let c := { mctl with kcl := true, split := .two, n := 1 }
    let s := tC (.mma none 5 5 12 c)
    let g := Signing.plain (.mma c) (encode (.mma none 5 5 12 c)) [s.cur.r.getX 5, s.cur.r.getX 5, s.cur.r.getX 12] 2
    let ps := participants s (wgIn s) true (signedRound s (wgIn s) true 0 g)
    (s.cur.r.holds none = true ∧ s.wgOf s.cur = some (wgIn s) ∧ s.cur.rest = none ∧ s.cur.fence = none ∧ s.cur.mops = [] ∧
      mmaCheck (wgIn s) (s.cur.r.getX 5) (s.cur.r.getX 5) (s.cur.r.getX 12) c = none ∧ ps.length = 2 ∧ (ps.map (·.member)) = [0, 1]) ∧
    LastSigner s (wgIn s) true 0 g :=
  ⟨by decide +kernel, lastSigner_of (by decide +kernel) (by decide +kernel) (by decide +kernel) (by decide +kernel)⟩

theorem witness_MatrixRoundsEnter_mdrain :
    let g := Signing.plain (.mdrain dctl) (encode (.mdrain none 4 15 8 dctl)) [tX.cur.r.getX 4, tX.cur.r.getX 15, tX.cur.r.getX 8] 2
    (mdrainCheck (wgIn tX) (tX.cur.r.getX 4) (tX.cur.r.getX 15) dctl = none ∧
      (inLocal (tX.cur.r.getX 4).toNat && inLocal (tX.cur.r.getX 4 + BitVec.ofNat 64 63 * tX.cur.r.getX 15).toNat) = true) ∧
    LastSigner tX (wgIn tX) false 0 g :=
  ⟨by decide +kernel, lastSigner_of (by decide +kernel) (by decide +kernel) (by decide +kernel) (by decide +kernel)⟩

/-- A barrier of 65535 arrivals at offset 32, and one of a single arrival. -/
def tB1 : State := nextOf (exec (.tbinit none 16 none) tX)

theorem witness_TransactionBarriers :
    let b := TBar.ofNat (tB1.get (scratchKey 0 32) 16)
    (tX.cur.r.holds none = true ∧ tX.cur.rest = none ∧ tX.cur.fence = none ∧ Memory.wf tX.mem = true ∧
      barPlace tX tX.cur (tX.cur.r.getX 16) 2 = .ok (scratchKey 0 32, 1) ∧ blocked tX.cur (scratchKey 0 32) 16 true = false ∧ (tbCount tX.cur none).toNat = 1 ∧
      (tbCount tX.cur (some 17)).toNat = 65535) ∧
    (tB1.cur.r.holds none = true ∧ tB1.cur.rest = none ∧ tB1.cur.fence = none ∧ Memory.wf tB1.mem = true ∧
      barPlace tB1 tB1.cur (tB1.cur.r.getX 16) 3 = .ok (scratchKey 0 32, 1) ∧ blocked tB1.cur (scratchKey 0 32) 16 true = false ∧ b.poison = false ∧ (tbCount tB1.cur none).toNat ≤ b.pendarr ∧
      tB1.cur.mops = [] ∧ (tbCount tB1.cur (some 17)).toNat < 2147483648 ∧ b.pendsec + 65535 < 2147483648) ∧
    barPlace tB1 tB1.cur (tB1.cur.r.getX 16) 1 = .ok (scratchKey 0 32, 1) ∧ b.phase ≠ (tB1.cur.r.getX 6).toNat % 16 := by
  decide +kernel

/-- An entry that may run stands at the head of the matrix queue. -/
def headWaits (s : State) : Bool :=
  (s.wg? 0).any (fun w => match w.mq with
    | e :: _ => !e.begun && e.susp.isNone && ((s.gang? w.gang).map (fun m => m.way != .save)).getD false
    | [] => false)

theorem witness_MatrixQueueEntries :
    let w := wgIn tX
    let m := nextOf (exec (.mstat none 9 0) tX)
    (tX.cur.r.holds none = true ∧ tX.cur.rest = none ∧ tX.cur.fence = none ∧ tX.wgOf tX.cur = some w ∧ (0 : Fin 8).val < w.slots.length ∧
      mldscCheck w (tX.cur.r.getX 13) (tX.cur.r.getX 4) = none ∧
      blocked tX.cur (scratchKey w.core (w.base + ((tX.cur.r.getX 4).toNat - localBase))) (bits (tX.cur.r.getX 13).toNat 0 17) true = false) ∧
    (∀ i ∈ [Instr.mzero none 0, .mldsc none 13 4, .mstat none 9 0], headWaits (nextOf (exec i tX)) = true) ∧
    ((m.wg? 0).bind (fun w => w.mq.head?)).any (fun e => decide ((m.thread? (.thr 0 0)).map (·.wait) = some (.mstat e.uid))) = true := by
  decide +kernel

/-- The workgroup has a frame heap of 1 KiB. -/
def tH : State := tX.onWg 0 (fun w => { w with heap := { off := 6144, size := 1024, runs := [], hgc := 1 } })

theorem witness_SharedFrameOpens :
    let g := Signing.plain (.fopen 3) (encode (.fopen none false 3 7 0)) [tH.cur.r.getX 7] 1
    let hp := getHeap tH (wgIn tH) false
    let s1 := release tH tH.cur.core tH.cur.cid 1
    (tH.cur.r.holds none = true ∧ (tH.cur.r.getX 7).toNat = 4 ∧
      (signedRound tH (wgIn tH) false 0 g).signs.map (·.ref) = [tH.cur.ref] ∧ s1.thread? tH.cur.ref = some tH.cur ∧ tH.cur.hold.length < 8 ∧
      pushCheck s1 tH.cur (tH.cur.r.sp - 8).toNat (tH.cur.r.sp - 8).toNat = .ok (scratchKey 0 4344) ∧
      hp.off + hp.size ≤ 16777216 ∧ heapAlloc hp (frameBytes 4) = some 0) ∧
    LastSigner tH (wgIn tH) false 0 g :=
  ⟨by decide +kernel, lastSigner_of (by decide +kernel) (by decide +kernel) (by decide +kernel) (by decide +kernel)⟩

/-- A stack of 4224 bytes from offset 128. -/
def tBig : State := withRec (fun l => { l with loc := 128, stack := 4224 }) (tM.onRegs (fun r => r.setX 9 1024))

theorem witness_PrivateFrames :
    let sp (s : State) : Nat := (s.cur.r.sp - 8).toNat
    let base (s : State) (n : Nat) : Nat := ((s.cur.r.sp - 8 - BitVec.ofNat 64 (16 * ((16 + 4 * n + 15) / 16))) &&& ~~~15).toNat
    (tM.cur.r.holds none = true ∧ tM.cur.rest = none ∧ (tM.cur.r.getX 6).toNat = 1 ∧
      pushCheck tM tM.cur (sp tM) (base tM 1) = .ok (scratchKey 0 4344)) ∧
    ((tBig.cur.r.getX 9).toNat = 1024 ∧ pushCheck tBig tBig.cur (sp tBig) (base tBig 1024) = .ok (scratchKey 0 4344)) ∧
    (tF.cur.r.holds none = true ∧ tF.cur.rest = none ∧ tF.cur.fence = none ∧ headerBusy tF (tF.cur.r.getD 2) 3 = false ∧
      (match frameCheck tF tF.cur (tF.cur.r.getD 2) 3 with
        | .ok (_, h) =>
          let up : W64 := BitVec.ofNat 64 (hAddr (tF.cur.r.getD 2) + frameBytes h.size + 8 * h.pad)
          h.retain == 0 && decide (2 ^ 56 ≤ up.toNat) && (match popCheck tF tF.cur up.toNat with | .ok pk => !blocked tF.cur pk 8 false | .error _ => false)
        | .error _ => false) = true ∧ hScope (tF.cur.r.getD 2) = 0 ∧ hAddr (tF.cur.r.getD 2) = tF.cur.r.sp.toNat) := by
  decide +kernel

/-- The frame's handle stands in x9 too, retained once. -/
def tF1 : State := nextOf (exec (.fhnd none 9 2) tF)

/-- A shared frame is open in d3, and its stores are performed. -/
def tO : State := (nextOf (exec (.fopen none false 3 7 0) tH)).onCur (fun t => { t with mops := [] })

/-- What a check answers. -/
def okOf {α : Type} (x : Except TrapInfo α) : Bool := match x with | .ok _ => true | .error _ => false

theorem witness_FrameHandles :
    let h := tF1.cur.r.getX 9
    (tF1.cur.r.holds none = true ∧ tF1.cur.rest = none ∧ tF1.cur.fence = none ∧ okOf (frameCheck tF1 tF1.cur h 1) = true ∧
      okOf (pushCheck tF1 tF1.cur (tF1.cur.r.sp - 8).toNat (tF1.cur.r.sp - 8).toNat) = true ∧
      (match popCheck tF1 tF1.cur tF1.cur.r.sp.toNat with | .ok kp => !blocked tF1.cur kp 8 false | .error _ => false) = true ∧
      2 ^ 56 ≤ tF1.cur.r.sp.toNat ∧ headerBusy tF1 h 1 = false ∧ headerBusy tF1 h 3 = false ∧ headerBusy tF1 (tF1.cur.r.getD 2) 1 = false ∧
      headerBusy tF1 (tF1.cur.r.getD 2) 3 = false ∧ okOf (frameCheck tF1 tF1.cur (tF1.cur.r.getD 2) 3) = true) ∧
    (match frameCheck tF1 tF1.cur (tF1.cur.r.getD 2) 1 with | .ok (key, d) => slotsDone tF1.cur key d.size | .error _ => false) = true ∧
    (match frameCheck tF1 tF1.cur h 3 with | .ok (_, d) => d.retain == 1 | .error _ => false) = true ∧
    (match frameCheck (nextOf (exec (.fhnd none 9 2) tF1)) (nextOf (exec (.fhnd none 9 2) tF1)).cur h 3 with
      | .ok (_, d) => d.retain == 2 | .error _ => false) = true ∧
    (tO.cur.r.holds none = true ∧ tO.cur.rest = none ∧ tO.cur.fence = none ∧ okOf (frameCheck tO tO.cur (tO.cur.r.getD 3) 3) = true ∧
      headerBusy tO (tO.cur.r.getD 3) 3 = false ∧ 2 ^ 56 ≤ tO.cur.r.sp.toNat ∧ hScope (tO.cur.r.getD 3) = 1 ∧ tO.cur.r.getD 3 ∈ tO.cur.hold ∧ okOf (popCheck tO tO.cur tO.cur.r.sp.toNat) = true ∧ tO.cur.mops = [] ∧
      Memory.wf tO.mem = true) := by
  decide +kernel

/-! ### Worklists, regions, collectives, system functions: the first GiB is mapped at itself -/

/-- A context whose page table maps the first GiB at itself; x18 is 0x20000, x19 is 0x40000, x20 and x21 a pair. -/
def tP : State :=
  let s := { tX with mem := writeLE (writeLE tX.mem 0x100000 8 0x101001) 0x101000 8 0x1F }
  let s := s.onCtx 0 (fun c => { c with desc := { c.desc with troot := 0x100000, rtab := 0x20000, pager := 0x50000 } })
  s.onRegs (fun r => (((r.setX 18 0x20000).setX 19 0x40000).setX 20 0x10100).setX 21 9)

/-- A record of bucket k. -/
def rec1 (k : Nat) (wl : Nat) : WRec :=
  { cid := 0, wl, words := [BitVec.ofNat 32 k, 1, 2, 3], core := 0, slot := 0, num := 0, resv := none }

/-- Worklist 3 is active from floor 0 with a record at the core, worklist 2 is active and empty, 1 has terminated. -/
def tW : State :=
  let act : Worklist := { Worklist.init with st := .active, fseen := some 0, units := Vector.replicate 4 ⟨some 0, [], []⟩ }
  let s := (tP.onWl 0 3 (fun _ => act)).onWl 0 2 (fun _ => act)
  (s.onWl 0 1 (fun _ => { act with st := .terminated })).onCore 0 (fun c => { c with front := [rec1 0 3] })

theorem witness_WorklistCalls :
    let s := tW.onRegs (fun r => r.setRange 4 [5, 0, 0, 0])
    (s.cur.r.holds none = true ∧ s.cur.ref ≠ .none ∧ s.cur.rest = none ∧ s.cur.fence = none ∧ replaying s s.cur.cid = false ∧ s.cur.mops = []) ∧
    (∀ wl : Fin 4, (s.wl? s.cur.cid wl).any (fun w => w.delta < 64 && (wlHeld w s.cur.ref).isNone) = true) ∧
    (s.wl? s.cur.cid 1).map (·.st) = some .terminated ∧
    (∀ wl : Fin 4, 2 ≤ wl.val → (s.wl? s.cur.cid wl).any (fun w => w.st == .active && (w.units[dieOf s.cur.core]).chunks.isEmpty) = true) ∧
    (s.wl? s.cur.cid 3).any (fun w => (frontOf s 0 0 3).any (fun r => eligible w (w.units[dieOf 0]).fseen (bucket w r.key))) = true ∧
    (s.wl? s.cur.cid 2).any (fun w => frontOf s 0 0 2 ++ (w.units[dieOf 0]).recs == []) = true ∧
    generalUsed (s.core s.cur.core) < 256 ∧
    (let full (r : WRec) (n : Nat) : Core := { Core.init 0 with front := List.replicate n r }
     generalUsed (full (rec1 0 3) 256) = 256 ∧ (full (rec1 0 3) 256).front.any (fun r => r.resv == some 0) = false ∧
       ((full (rec1 0 3) 256).front.find? (fun r => r.resv.isNone)).isSome = true) ∧ dieHeld s (dieOf s.cur.core) < unitRoom ∧
    (s.wl? s.cur.cid 3).any (fun w => !belowSeen w (bucket w ((s.cur.r.range 4 4).headD 0))) = true := by
  decide +kernel

/-- The 64 bytes of a region descriptor: exact path at 0x30000, state 1, one argument, one result, counters at 0x21000. -/
def rdesc (kind : Nat) : List Byte :=
  bytesLE 8 0x30000 ++ bytesLE 8 (2 ^ 48 + 2 ^ 16 + 2 ^ 12 + kind) ++ bytesLE 32 0 ++ bytesLE 8 0x21000 ++ bytesLE 8 0

/-- Regions 0 and 1 are resident with KIND 0 and 1, region 2 stands in the table; the aggregator holds region 2. -/
def tRg : State :=
  let s := withRec (fun l => { l with rslots := 1 }) ((sideOn tP).onCore 0 (fun c => { c with
    store := [{ cid := 0, region := 0, pin := false, desc := rdesc 0, image := [] }, { cid := 0, region := 1, pin := true, desc := rdesc 1, image := [] }] }))
  let s := { s with mem := writeLE s.mem 0x20080 64 (ofBytes (rdesc 0)) }
  (s.onRegs (fun r => ((r.setX 22 2).setX 23 (2 + 7 * 65536)).setX 24 3)).onCtx 0 (fun c => { c with agg := [{ region := 2, c := Vector.replicate 8 5, state := 1 }] })

theorem witness_RegionCalls :
    let d0 := RDesc.ofBytes (rdesc 0)
    let d1 := RDesc.ofBytes (rdesc 1)
    (tRg.cur.r.holds none = true ∧ tRg.cur.fence = none ∧ tRg.cur.mops = [] ∧ tRg.cur.rest = none ∧ replaying tRg tRg.cur.cid = false ∧
      tRg.wgOf tRg.cur = some (wgIn tRg) ∧ (tRg.ctx? tRg.cur.cid).isSome = true) ∧
    ((residentOf tRg 0 0 0).map (·.desc) = some (rdesc 0) ∧ (residentOf tRg 0 0 1).map (·.desc) = some (rdesc 1)) ∧
    (d0.argc = (0 : Fin 8).val + 1 ∧ d0.resc = (0 : Fin 8).val + 1 ∧ d0.kind = 0 ∧ d1.argc = 1 ∧ d1.resc = 1 ∧ d1.kind ≠ 0 ∧ appliedState tRg 0 0 1 ≠ 2) ∧
    ((tRg.lrecOf (wgIn tRg)).map (·.rslots)).getD 0 ≠ 0 ∧ sheafGoes tRg none (restUse (tRg.core 0)) = true ∧
    (let e := restEntry tRg .exact tRg.cur 0 0 d0 [] 4
     let s := { tRg with cur := { tRg.cur with ref := .rest 0 0, rest := some e }, threads := [{ tRg.cur with rpend := [⟨e.call, 4, 1, none⟩] }] }
     s.cur.r.holds none = true ∧ s.cur.fence = none ∧ s.cur.mops = [] ∧ s.cur.rest = some e ∧ e.caller ≠ .none ∧ e.caller ≠ s.cur.ref ∧
       (s.thread? e.caller).any (fun c => !c.exited && c.rpend.any (fun p => p.call == e.call)) = true) := by
  decide +kernel

theorem witness_RegionControl :
    (tRg.cur.r.holds none = true ∧ tRg.cur.rest = none ∧ tRg.cur.rej = none ∧ tRg.cur.mops.any (fun m => m.acq || m.isAtom) = false) ∧
    ((tRg.cur.r.getX 22).toNat = 2 ∧ residentOf tRg 0 0 2 = none ∧
      (match fetchRegion tRg tRg.cur 2 (fun _ => false) with
        | (.ok _ _ im, u) => storeRoom (u.core 0) 0 2 im.length && decide (pinned (u.core 0) + im.length ≤ Config.pinBytes)
        | _ => false) = true) ∧
    ((tRg.core 0).evals.any (fun e => e.cid == 0 && e.region == 0) = false ∧ tRg.viol.any (fun v => v.1 == 0 && v.2.1 == 0 && v.2.2 == 0) = false) ∧
    ((tRg.cur.r.getX 6).toNat = 1 ∧ (residentOf tRg 0 0 1).any (fun r => r.pin) = true) ∧
    (tRg.cur.r.getX 8 = 0 ∧ tRg.cur.r.getX 6 = 1 ∧ tRg.cur.r.getX 22 = 2 ∧ tRg.cur.r.getX 24 = 3) ∧
    ((residentOf tRg 0 0 0).any (fun r => !r.pin && pinned (tRg.core 0) + r.image.length ≤ Config.pinBytes) = true) ∧
    ((tRg.cur.r.getX 23).toNat = 2 + 65536 * (7 : Fin 8).val ∧ descVa (sendCounts tRg 0 0 2) 0 2 = some 0x20080 ∧
      (match engineRead (sendCounts tRg 0 0 2) ((sendCounts tRg 0 0 2).wgOf tRg.cur) 0 0 tRg.cur.mops 0x20080 64 6 with
        | (.ok desc, s) => (RDesc.ofBytes desc).state == 1 && (aggOf s 0 2).isSome
        | _ => false) = true) := by
  decide +kernel

/-- The collective table of context 0 at 0x40000: group 1023 of two members, buffers 0 and 255 of 128 bytes. -/
def tCo : State :=
  { tP.onRegs (fun r => (r.setX 25 1023).setX 26 8) with
    cfg := { tP.cfg with coltab := 0x40000 }
    mem := writeLE (writeLE (writeLE tP.mem (0x41000 + 32 * 1023) 32 (1 + 2 ^ 64 * 0x10000)) 0x40000 16 (0x10000 + 2 ^ 64 * 128))
      (0x40000 + 16 * 255) 16 (0x10080 + 2 ^ 64 * 128) }

theorem witness_CollectivesIssue :
    (tCo.cur.r.holds none = true ∧ tCo.cur.rest = none ∧ tCo.cur.fence = none ∧ tCo.cur.mops = [] ∧
      (tCo.ctx? 0).any (fun c => c.colls.length < 64) = true ∧ (tCo.cur.r.getX 25).toNat = 1023 ∧ (tCo.cur.r.getX 26).toNat = 8 ∧ 8 % dtSize .f64 = 0) ∧
    (let r1 := tCo.take (0x40000 + 4096 + 32 * 1023) 32
     let r2 := r1.2.take (0x40000 + 16 * (0 : BitVec 8).toNat) 16
     let r3 := r2.2.take (0x40000 + 16 * (255 : BitVec 8).toNat) 16
     GroupEnt.ofBytes r1.1 = some ⟨2, 0, 0x10000⟩ ∧ bufOf r2.1 = some (0x10000, 128) ∧ bufOf r3.1 = some (0x10080, 128)) ∧
    (keyOk (0x41000 + 32 * 1023 + 31) = true ∧ keyOk 0x40000 = true ∧ keyOk (0x40000 + 16 * 255 + 15) = true ∧ 2 * 8 ≤ 128) := by
  decide +kernel

theorem witness_SystemFunctions :
    let s := (tP.onCur (fun t => { t with tmode := true })).onCtx 0 (fun c => { c with desc := { c.desc with syssw := true } })
    let b := tP.onCtx 0 (fun c => { c with dbg := { c.dbg with bken := true } })
    (s.cur.r.holds none = true ∧ s.cur.rest = none ∧ s.cur.fence = none ∧ privileged s = true ∧ (s.cur.r.getX 6).toNat < 256 ∧
      replaying s s.cur.cid = false) ∧
    ((tP.ctx? 0).map (·.dbg.bken)).getD false = false ∧
    (b.cur.r.holds none = true ∧ b.cur.rest = none ∧ b.cur.fence = none ∧ ((b.ctx? 0).map (·.dbg.bken)).getD false = true ∧ b.cur.ref ≠ .none ∧
      b.cur.exited = false ∧ b.cur.halted = false) := by
  decide +kernel

/-- Queue 0, which may switch; its windows reach 4 KiB from 0x10000. -/
def que : Queue :=
  { q := 0, ring := 0x10000, vf := 0, log2e := 4, cur := 0, sw := true, cid := 0, prog := 0x10000, words := [0x80000000], wins := []
    phase := 0, head := 0, tail := 1, verr := 0, st := .enabled, waddr := 0, wthr := 0, fresh := true, launches := [], quiesce := false, paused := none }

/-- A curator serves it; x20 and x21 name 0x10100 and 9. A worklist block with the number w stands at 0x10140. -/
def tCur (w : Nat) : State :=
  let s := { tP with
    cur := { tP.cur with ref := .cur 0, core := 384 }, queues := [que]
    curators := [{ c := 0, q := 0, left := 4096, wins := [(0x10000, 0x1000), (0x10000, 0x1000), (0x10000, 0x1000), (0x10000, 0x1000)] }]
    mem := writeLE (writeLE tP.mem 0x20080 64 (ofBytes (rdesc 0))) 0x10140 64 w }
  (s.onRegs (fun r => (((r.setX 22 2).setX 28 0x10140).setX 30 0x10120))).onWl 0 1 (fun _ => { Worklist.init with st := .active })

/-- What an engine read answers. -/
def readOk (x : Rd × State) (p : List Byte → State → Bool) : Bool := match x with | (.ok bs, s) => p bs s | _ => false

theorem witness_CuratorFunctions :
    let s := tCur (2 ^ 64 * 0 + 0)
    let rd (va n : Nat) := engineRead s none s.cur.core s.cur.cid s.cur.mops va n 1
    (s.cur.r.holds none = true ∧ s.cur.ref = .cur 0 ∧ (s.curator? 0).map (·.q) = some 0 ∧ s.queue? 0 = some que ∧ s.cur.fence = none ∧ s.cur.rej = none ∧
      s.cur.mops = [] ∧ que.quiesce = false ∧ que.sw = true) ∧
    ((s.cur.r.getX 6).toNat < 2 ^ 32 ∧ (20 : XReg).val % 2 = 0 ∧ (20 : XReg).val ≤ 58 ∧ (s.cur.r.getX 20).toNat % 256 = 0) ∧
    (∀ kind ∈ [1, 3], (match resolve s (s.wgOf s.cur) s.cur.core s.cur.cid 0x10100 8 kind with
      | (.ok key, u) => key == 0x10100 && !u.poisoned key 8
      | _ => false) = true) ∧
    (readOk (rd 0x10100 256) (fun _ _ => true) = true) ∧
    (readOk (rd 0x10120 32) (fun bs u => let d := dword bs 8; decide (bits d 63 1 = 0 ∧ bits d 6 57 = 0 ∧ dword bs 24 = 0 ∧
      (dword bs 0).testBit (bits d 0 6) = false) && u.gangs.all (fun g1 => !(dword bs 0).testBit g1.cid)) = true) ∧
    (descVa s 0 2 = some 0x20080 ∧ readOk (rd 0x20080 64) (fun bs u => (RDesc.ofBytes bs).state == 1 &&
      readOk (engineRead u none u.cur.core u.cur.cid u.cur.mops (RDesc.ofBytes bs).ctrs 64 1) (fun _ _ => true)) = true) ∧
    ((s.cur.r.getX 28).toNat % 64 = 0 ∧ readOk (rd 0x10140 64) (fun bs u => wlBlockOk bs && bits (dword bs 0) 24 1 == 0 &&
      (u.wl? 0 (Fin.ofNat 4 (bits (dword bs 0) 0 2))).any (fun w => w.st != .active)) = true) ∧
    (readOk (engineRead (tCur 1) none 384 0 [] 0x10140 64 1) (fun bs u =>
      (u.wl? 0 (Fin.ofNat 4 (bits (dword bs 0) 0 2))).any (fun w => w.st == .active)) = true) := by
  decide +kernel

/-! ### Events: the dispatcher, the picker, accesses, copies -/

/-- The 256 bytes of a launch record: entry 0x10000, one thread, one level of domain 0 at scope 5, a gang of 1. -/
def lrecBytes : List Byte :=
  bytesLE 8 0x10000 ++ bytesLE 8 0 ++ bytesLE 8 (2 ^ 48 + 2 ^ 32) ++ bytesLE 8 (1 + 5 * 2 ^ 35) ++ bytesLE 56 0
    ++ bytesLE 8 (2 ^ 20 + 2 ^ 16 + 4 * 2 ^ 8 + 8) ++ bytesLE 8 (256 * 2 ^ 32 + 4096) ++ bytesLE 152 0

/-- Queue 0's curator has handed over a launch: the record, or zeros. -/
def tLa (bs : List Byte) : State :=
  let s := (tCur 0).onLaunch 0 (fun l => { l with q := 9 })
  let s := { s with mem := writeLE s.mem 0x10100 256 (ofBytes bs) }
  nextOf (execQlaunch none 20 (s.onCtx 0 (fun c => { c with desc := { c.desc with part := 1, savebytes := 16777216 } })))

/-- The launch's name. -/
def theLaunch (s : State) : Nat := (s.launches.getLast?.map (·.id)).getD 0

/-- The launch stands undecided, and its curator waits for it. -/
def undecided (s : State) (p : Launch → Ctx → Bool) : Bool :=
  (s.launch? (theLaunch s)).any (fun x => !x.accepted && (s.ctx? x.cid).any (p x) &&
    (launchWaiter s (theLaunch s)).any (fun th => decide (s.thread? th.ref = some th) && th.ref != .none))

/-- Accepted, and clean of the phase before. -/
def tDec : State := nextOf (execLaunchDecision (theLaunch (tLa lrecBytes)) (tLa lrecBytes))
/-- Ready to be placed. -/
def tPlace : State := nextOf (execPhaseClean (theLaunch tDec) tDec)

theorem witness_DispatcherEvents_decision :
    undecided (tLa lrecBytes) (fun x c => launchError (tLa lrecBytes) c.desc x.raw == none) = true ∧
    undecided (tLa []) (fun x c => launchError (tLa []) c.desc x.raw == some 0x14) = true ∧
    (tDec.launch? (theLaunch tDec)).any (fun x => x.accepted && x.phase && tDec.launches.all (fun y => y.q != x.q || theLaunch tDec ≤ y.id)) = true := by
  decide +kernel

theorem witness_DispatcherEvents_placement :
    let s0 := refreshDescs tPlace
    (s0.launch? (theLaunch tPlace)).any (fun x => (s0.ctx? x.cid).any (fun c => ((List.range x.total).find? (gangNext s0 x)).any (fun gi =>
      let r := x.lrec
      x.accepted && !x.phase && (s0.gang? s0.uid).isNone && c.st == .running && clusterOk s0 c.desc.part 0 0 && 1 + r.gang ≤ 8 && r.gang == 1
        && memberFits s0 1 r [0] 0 && unitsAgree x.units (unitKeys r gi 0 0)
        && placedRight s0 x.cid { addr := x.addr, g := gi, core := 1, rows := [[0]] } && mayPlace c && servedNow s0 c
        && (findSlot c (slotBytes r)).isSome && decide (0 < (visit s0.turn c).deficit)))) = true := by
  decide +kernel

theorem witness_DispatcherEvents_end :
    let s := nextOf (exec (.exit none) tS)
    (s.wg? 0).any (fun x => !x.ended && wgDone s x) = true ∧
    (let t := { s with tick := 2, gangs := s.gangs.map (fun (g : Gang) => { g with endTick := some 1 }) }
     (t.gang? 0).any (fun g => g.endTick.any (fun k => k < t.tick)) = true) := by
  decide +kernel

/-- Both threads stand ready; the second has waited longer. -/
def tPk : State :=
  ({ t2 with cur := Thread.idle, threads := t2.cur :: t2.threads.map (fun (t : Thread) => { t with age := 5000 }) }).onCore 0
    (fun c => { c with icache := [⟨0, 65536, 0x80000000⟩] })

theorem witness_PickerEvents :
    (tickFull tPk 0 = false ∧ (tPk.core 0).urgent = none ∧
      (let rs := tPk.threads.filter (fun t => t.core == 0 && !t.picked && ready tPk t)
       (rs.filter (fun t => (canIssue tPk 0 rs t).isSome)).length = 2)) ∧
    (let u := tPk.onCore 0 (fun c => { c with urgent := some (.thr 0 0) })
     let rs := u.threads.filter (fun t => t.core == 0 && !t.picked && ready u t)
     (u.core 0).urgent = some (.thr 0 0) ∧ (rs.filter (fun t => (canIssue u 0 rs t).isSome)).any (fun y => y.ref == .thr 0 0) = true) ∧
    (let u := tPk.onCore 0 (fun c => { c with picks := (0, 2) })
     tickFull u 0 = true ∧ (tickUp u).tick = tPk.tick + 1) ∧
    (tPk.threads.find? (fun y => y.ref == .thr 0 1)).any (fun x => Config.ageCap ≤ x.age && ready tPk x) = true ∧
    (let h := t2.onCur (fun t => { t with wait := .hold 0x10040 0 })
     heldAt h 0 0x10040 = [(.thr 0 0, 0)] ∧
       (least ((heldAt h 0 0x10040).map (·.2))).getD h.tick + (((h.wg? 0).bind h.lrecOf).map (·.regroup)).getD 0 ≤ h.tick) ∧
    (let u := tPk.onCore 0 (fun c => { c with icache := [] })
     (u.threads.find? (fun y => y.ref == .thr 0 0)).any (fun x => !x.exited && x.wait == .none && !x.halted &&
      (match fetchInstr (iDrop u x) x with | (.ok _, _) => true | _ => false)) = true) := by
  decide +kernel

/-- A load and a store to the local window are outstanding. -/
def tMo : State := nextOf (exec (.stw none (.v 9) ⟨4, .none, 2⟩) (nextOf (exec (.ldw none (.v 8) ⟨4, .none, 0⟩) tM)))

/-- A request of the pager stands in the context, the answer to another in its ring. -/
def tPg : State :=
  let s := tP.onCtx 0 (fun c => { c with preqs := [{ rid := 7, va := 0x10000, kind := 1, who := [], posted := true }, { rid := 8, va := 0x20000, kind := 1, who := [], posted := false }] })
  { s with mem := writeLE (writeLE s.mem 0x50800 4 1) 0x50840 8 (7 + 2 ^ 32) }

theorem witness_AccessEvents_accesses :
    (tMo.thread? (.thr 0 0)).any (fun x => x.fence.isNone && x.mops.map (·.id) == [0, 1] &&
      x.mops.all (fun m => mayPerform x.mops m && isScratch m.key && !m.acq && !m.rel && !spilledDst tMo x m) &&
      x.mops.map (fun m => m.isLoad) == [true, false]) = true ∧ Memory.wf tMo.mem = true ∧
    (let f := nextOf (exec (.fence none .die 3) tM)
     (f.thread? (.thr 0 0)).any (fun x => x.fence.any (fun q => fenceReady x q && q.scope != 2)) = true ∧
     (let h := f.onCur (fun t => { t with fence := t.fence.map (fun (q : Fence) => { q with hit := true }) })
      (h.thread? (.thr 0 0)).any (fun x => x.fence.any (fun q => q.hit && !q.rolled)) = true)) ∧
    (let keep := (tMo.core 0).l1.filter (fun e => e.hint == .keep)
     keep.all (fun e => e.line != (0, 512)) = true) ∧
    (let k := nextOf (exec (.ftok none 9 .wg 0) tM)
     (k.thread? (.thr 0 0)).any (fun x => x.toks.any (fun q => tokenMet k x q)) = true) := by
  decide +kernel

theorem witness_AccessEvents_pages :
    (hasL1 1 = true ∧ tlbFind (tP.core 1).tlb 0 0 = none ∧ (match walk tP 0 0 with | .leaf _ _ => true | _ => false) = true) ∧
    (reqOf tPg 8).any (fun p => decide (tPg.ctx? p.1.cid = some p.1) && !p.2.posted &&
      decide ((devNum tPg p.1.cid p.1.desc.pager 4 + 4294967296 - devNum tPg p.1.cid (p.1.desc.pager + 4) 4) % 4294967296 < 62)) = true ∧
    (tPg.ctx? 0).any (fun c =>
      let ring := c.desc.pager + 0x800
      let head := devNum tPg 0 (ring + 4) 4
      let w := devNum tPg 0 (ring + 0x40 + 16 * (head % 124)) 8
      let s1 := devPut tPg 0 (ring + 4) (bytesLE 4 (head + 1))
      devNum tPg 0 ring 4 != head && bits w 32 1 == 1 &&
        (c.preqs.find? (fun r => r.posted && r.rid % 2 ^ 32 == bits w 0 32)).any (fun r => decide (walk s1 0 r.va ≠ .absent))) = true ∧
    (tP.wg? 0).any (fun x => x.cid == 0 && !x.term && !x.ended) = true ∧ (tP.ctx? 0).any (fun c => c.saved.isEmpty) = true := by
  decide +kernel

/-- A ring of 16 entries at offset 1024 of the local window holds one command with an opcode: 16 bytes, or a converted row of 64,
from offset 2048 to offset 3072; its barrier is at offset 0. -/
def tRing (opc conv : Nat) : State :=
  let k := scratchKey 0 1024
  let s := withRec (fun l => { l with ringOff := 1024, ringEnt := 16 }) tP
  let src : Nat := if opc = 5 then 0x01020304 else localBase + 2048
  let cmd : Nat := opc + conv * 2 ^ 10 + 2 ^ 16 + (if conv = 0 then 1 else 4) * 2 ^ 32 + src * 2 ^ 64 + (localBase + 3072) * 2 ^ 128
  let s := { s with mem := writeLE (writeLE s.mem k 4 1) (k + 64) 32 cmd }
  let s := { s with mem := writeLE s.mem (scratchKey 0 2048) 8 (localBase + 2064) }
  s.onWg 0 (fun w => { w with woken := true })

theorem witness_CopyEvents_take :
    ∀ i ∈ [(1, 0), (2, 0), (3, 9), (4, 9), (5, 0)], (let s := tRing i.1 i.2
      (s.wg? 0).any (fun x => (s.lrecOf x).any (fun l =>
        let ring := scratchKey x.core (x.base + l.ringOff)
        let tail := if x.woken then s.get ring 4 else x.tail
        let n := (tail + 4294967296 - x.head % 4294967296) % 4294967296
        let s1 := s.onWg 0 (fun y => { y with tail, woken := false })
        l.ringEnt != 0 && !x.copyStop && engineGoes s x (tokenOn s 0 (fun k => k.kinds.getLsbD 4 && x.head < k.ring)) && n != 0 && n ≤ l.ringEnt &&
          (match takeErr s1 x (readBytes s.mem (ring + 64 + 32 * (x.head % 4294967296 % l.ringEnt)) 32) with | (none, _) => true | _ => false)))) = true := by
  decide +kernel

theorem witness_CopyEvents_move :
    ∀ i ∈ [(1, 0), (2, 0), (3, 9), (4, 9), (5, 0)], (let s := nextOf (exec (.copyTakeEntry 0) (tRing i.1 i.2))
      (s.wg? 0).any (fun x => match x.chans[0] with
        | e :: _ =>
          let c := Cmd.ofBytes e.raw
          !x.copyStop && c.opc == i.1 && c.ch == 0 &&
            (match movePiece s x c e e.done with
              | .ok s1 => c.total ≤ e.done + 16 || (match movePiece s1 x c (headEnt s1 0 0 e) (e.done + 16) with | .ok _ => true | .err _ _ => false)
              | .err _ _ => false)
        | [] => false)) = true := by
  decide +kernel

/-! ### Events: the matrix unit, the replica engines, worklists, contexts and queues, pre-emption and debug, the host -/

/-- An MMA of 64 by 64 by 32, and an MDRAIN of 64 by 64, of register 0's only signer. -/
def tMma : State := nextOf (exec (.mma none 4 4 12 mctl) (tX.onRegs (fun r => r.setX 4 0xFD00000000000000)))
/-- The drain. -/
def tDrain : State := nextOf (exec (.mdrain none 4 15 8 dctl) (tX.onRegs (fun r => r.setX 4 0xFD00000000000000)))

/-- The oldest matrix entry of workgroup 0. -/
def headOf (s : State) (p : Wg → MEnt → Bool) : Bool :=
  (s.wg? 0).any (fun x => match x.mq with
    | e :: _ => engineGoes s x (entryMust s 0 e) && p x e
    | [] => false)

theorem witness_MatrixEvents_mma :
    headOf tMma (fun x e => match e.op with
      | .mma xa xb xc c rank =>
        let s1 := if e.begun then tMma else onHead (beginMma tMma x xc c rank) 0 (fun e => { e with begun := true })
        e.susp.isNone && x.mstep < mmaSteps xc c && (s1.wg? 0).any (fun y =>
          match readRows y c.afmt xa.toNat (bits xc.toNat 0 16) (y.mstep * mfmtStep c.afmt) (ctlM c.m) 0 s1 [] with
          | ((.ok _, _), s2) =>
            (match readRows y c.bfmt xb.toNat (bits xc.toNat 16 16) (y.mstep * mfmtStep c.afmt) (ctlM c.n / Split.num c.split)
                (rank * (ctlM c.n / Split.num c.split)) s2 [] with
              | ((.ok _, _), s3) => (s3.wg? 0).any (fun z => cellSlot (kindOf c.afmt) c.slot.val < z.slots.length)
              | _ => false)
          | _ => false)
      | _ => false) = true := by
  decide +kernel

theorem witness_MatrixEvents_drain :
    headOf tDrain (fun x e => match e.op with
      | .mdrain xa xb xc c =>
        let s1 := onHead tDrain 0 (fun e => { e with begun := true })
        let base := (xa.toNat + e.row * xb.toNat) % 2 ^ 64
        let a := slotAt x c.slot.val
        let g := gridOf (slotAt x (cellSlot a.kind c.slot.val)).cells
        e.susp.isNone && e.row < ctlM c.m && !c.add &&
          (match spanErr x 2 (pieces base (ctlM c.n * dfmtBytes c.dfmt)) s1 with
            | (none, s2) =>
              (match engineWrite s2 (some x) x.core x.cid base ((List.range (ctlM c.n)).flatMap (fun j => bytesLE (dfmtBytes c.dfmt)
                  (drainCell a a.kind c xc e.row j (g.getD (e.row * 256 + j) 0) 0))) with
                | ((.ok [], _), _) => true
                | _ => false)
            | _ => false)
      | _ => false) = true := by
  decide +kernel

theorem witness_MatrixEvents_end :
    headOf (nextOf (exec (.mctlEntry 0) (nextOf (exec (.mzero none 0) tX)))) (fun x e => e.susp.isNone && entryOver x e) = true ∧
    (let s := onHead tMma 0 (fun e => { e with susp := some 77 })
     headOf s (fun x e => decide (e.susp = some 77) && !((s.ctx? x.cid).map (fun c => c.preqs.any (fun r => r.rid == 77))).getD false) = true) := by
  decide +kernel

/-- The thread waits for region 2 to be resident. -/
def tWaitR : State := tRg.onCur (fun t => { t with wait := .region 2 })
/-- An exact call stands in the restoration queue; DISABLE of region 0 and ENABLE of region 1 are to apply; region 2 has a violation. -/
def tRest : State :=
  let s := nextOf (exec (.rcallExact none 0 4 6 0 0) tRg)
  { s.onCore 0 (fun c => { c with todo := [(0, 0, true), (0, 1, false)] }) with viol := [(0, 0, 2)] }
/-- An evaluation of region 1 with MODE 2 is under way, and one with MODE 0 whose answer is a sample. -/
def tEval : State := nextOf (exec (.rcall none 1 4 8 0 0) (nextOf (exec (.rcallSonly none 1 4 6 0 0) tRg)))

theorem witness_ReplicaEvents :
    ((regionWaiter tWaitR 0 0 2).any (fun th => (residentOf tWaitR 0 0 2).isNone &&
      !th.mops.any (fun m => m.acq || m.isAtom) &&
      (match fetchRegion tWaitR th 2 (fun _ => false) with | (.ok _ _ im, u) => storeRoom (u.core 0) 0 2 im.length | _ => false)) = true) ∧
    (∀ n ∈ [0, 1], ((tEval.core 0).evals[n]?).any (fun v => (tEval.thread? v.caller).any (fun c =>
      !c.exited && v.caller != .none && c.rpend.any (fun p => p.call == v.call) && (v.sonly == (n == 0)) &&
      (n == 0 || isSampled (RDesc.ofBytes v.desc) v.c))) = true) ∧
    ((tRest.core 0).restq[0]?).any (fun e => (tRest.wg? e.w).any (fun w => (tRest.lrecOf w).any (fun l =>
      ((tRest.gang? w.gang).map (fun g => g.way != .save)).getD false && (freeRest tRest w l).isSome &&
      (tRest.thread? e.caller).any (fun c => c.mops.all (fun m => e.upto ≤ m.id))))) = true ∧
    (tRest.viol[0]? = some (0, 0, 2) ∧ (aggOf tRest 0 2).isSome = true ∧ replaying tRest 0 = false) ∧
    ((tRest.core 0).todo.find? (fun x => x.1 == 0 && x.2.1 == 0) = some (0, 0, true) ∧
      (tRest.core 0).todo.find? (fun x => x.1 == 0 && x.2.1 == 1) = some (0, 1, false)) := by
  decide +kernel

/-- Worklist 3 with the records of some units, and a spill region of two chunks; the thread of core 0 waits as told. -/
def tWl (f : Worklist → Worklist) (w : Wait) : State :=
  (tW.onWl 0 3 (fun l => f { l with spill := 0x30000, spillbytes := 8192, dbal := true })).onCur (fun t => { t with wait := w })

/-- A unit with records, or with a chunk. -/
def unitOf (rs : List WRec) (cs : List (Nat × List WRec)) : WUnit := ⟨some 0, rs, cs⟩

theorem witness_WorklistEvents_floor :
    (∀ wl : Fin 4, 2 ≤ wl.val → (tW.wl? 0 wl).any (fun w => w.st == .active && !w.sys && refreshDue tW w 64 && (wlIdle tW 0 wl w == (wl == 2))) = true) ∧
    (let s := tW.onWl 0 2 (fun w => { w with last := some w.counts })
     (s.wl? 0 2).any (fun w => w.st == .active && !w.sys && refreshDue s w 64 && wlIdle s 0 2 w && w.last == some w.counts) = true) ∧
    (let s := tW.onWl 0 2 (fun w => { w with sys := true })
     (s.wl? 0 2).any (fun w => w.st == .active && w.sys && refreshDue s w 1024) = true) := by
  decide +kernel

theorem witness_WorklistEvents_waits :
    (let s := tWl id (.wlpush 3 [4, 0, 0, 0] 7 true)
     (s.thread? (.thr 0 0)).any (fun x => x.wait == .wlpush 3 [4, 0, 0, 0] 7 true && !replaying s x.cid && frontRoom ((sendFull s x.core).core x.core) 7 == some none && generalUsed (s.core x.core) < 256 &&
       (s.wl? x.cid 3).any (fun w => !belowSeen w (bucket w 4))) = true) ∧
    (let s := tWl id (.wlpop 3 6 1 4)
     (s.thread? (.thr 0 0)).any (fun x => x.wait == .wlpop 3 6 1 4 && (s.wl? x.cid 3).any (fun w => w.st == .active && gangIssues s x && !x.halted &&
       !replaying s x.cid && firstPop s x 3 && ((popChoices s x.core x.cid 3 w)[0]?).any (fun r => (frontOf s x.core x.cid 3).contains r))) = true) ∧
    ((tW.core 0).front[0]?).any (fun r => (tW.wl? r.cid (Fin.ofNat 4 r.wl)).isSome && dieHeld tW (dieOf 0) < unitRoom) = true := by
  decide +kernel

theorem witness_WorklistEvents_chunks :
    (let s := tWl (fun l => { l with units := l.units.set 1 (unitOf [rec1 64 3] []) }) .none
     (s.wl? 0 3).any (fun w => w.st == .active && isFar w.units[(1 : Fin 4)] 64 && freeChunk w == some 0 &&
       (((w.units[(1 : Fin 4)]).recs.filter (fun r => bucket w r.key == 64)).take 256) != [] &&
       (match chunkAt s 0 w 0 false with | .ok _ => true | _ => false)) = true) ∧
    (let s := tWl (fun l => { l with units := l.units.set 1 (unitOf [] [(1, [rec1 63 3])]) }) .none
     (s.wl? 0 3).any (fun w => w.st == .active && ((w.units[(1 : Fin 4)]).chunks.find? (fun c => c.1 == 1)).any (fun c =>
       !c.2.any (fun r => isFar w.units[(1 : Fin 4)] (bucket w r.key)) && dieHeld s 1 + c.2.length ≤ unitRoom && (match chunkAt s 0 w 1 true with | .ok _ => true | _ => false))) = true) ∧
    (let s := tWl (fun l => { l with units := l.units.set 1 (unitOf [rec1 0 3] []), parts := [.thr 0 0] }) (.wlpop 3 6 1 4)
     (s.wl? 0 3).any (fun w => w.st == .active && w.dbal && dieParked s 0 3 0 && !dieEligible w 0 &&
       (List.finRange 4).all (fun k => (unitEligible w k).length ≤ (unitEligible w 1).length)) = true) ∧
    (let s := tWl (fun l => { l with sys := true, xbal := true, fseen := some 0, parts := [.thr 0 0] }) (.wlpop 3 6 1 4)
     (s.wl? 0 3).any (fun w => w.st == .active && w.sys && w.xbal && w.fseen == some 0 && dieParked s 0 3 0 &&
       (List.finRange 4).all (fun k => !dieEligible w k)) = true) := by
  decide +kernel

theorem witness_WorklistEvents_refill :
    let s := (withRec (fun l => { l with spill := 0x30000 }) tP).onWg 0 (fun w => { w with spilled := [(.v 3, 4)] })
    (s.wg? 0).any (fun x => (x.spilled.find? (fun z => z.1 == VXReg.v 3)).any (fun y => (s.lrecOf x).any (fun l =>
      readOk (engineRead s (some x) x.core x.cid [] (recordAddr l (.v 3) + 16) (fmtBytes y.2 (regWidth (.v 3)) l.wgsize) 1) (fun _ _ => true)))) = true := by
  decide +kernel

/-- Tables: context 1's descriptor and queue 4095's; the context is selected next. -/
def tTab : State :=
  { tP with
    cfg := { tP.cfg with cdtab := 0x60000, dbgtab := 0x70000, qdtab := 0x200000 }
    mem := writeLE (writeLE tP.mem (0x60000 + 128) 128
        (2 ^ 64 * 0x20000 + 2 ^ 128 * 0x30000 + 2 ^ 192 * 16 + 2 ^ 448 * 1 + 2 ^ 512 * 2 ^ 16))
      (0x200000 + 128 * 4095) 128 (0x10000 + 2 ^ 64 * (4 * 2 ^ 16) + 2 ^ 128 * 0x10000 + 2 ^ 192 * 1)
    queues := [{ que with st := .waiting, waddr := 0x10100, wthr := 0, paused := some tP.cur }, { que with q := 1, cur := 1, st := .faulted }] }

theorem witness_ContextAndQueueEvents_contexts :
    (let s1 : State := { tTab with cfg := { tTab.cfg with ccid := BitVec.ofNat 6 1 } }
     let r := s1.take (0x60000 + 128) 128
     tTab.ctx? 1 = none ∧ keyOk (0x60000 + 128) = true ∧ keyOk (0x60000 + 255) = true ∧ cdescOk r.2 r.1 = true) ∧
    (let s := tTab.onCtx 0 (fun c => { c with st := .idle })
     let r := s.take 0x70000 64
     ctxState s 0 = .idle ∧ runningCount s < 8 ∧ keyOk 0x70000 = true ∧ keyOk (0x70000 + 63) = true ∧ ddescBad r.1 = none ∧
       (DDesc.ofBytes r.1).amode ≠ 2) := by
  decide +kernel

theorem witness_ContextAndQueueEvents_queues :
    (let r := (nameQueue tTab 4095).take (0x200000 + 128 * 4095) 128
     mayEnable tTab 4095 = true ∧ keyOk (0x200000 + 128 * 4095) = true ∧ keyOk (0x200000 + 128 * 4095 + 127) = true ∧ qdescOk r.1 = true ∧
       (tTab.ctx? (bits (dword r.1 8) 0 6)).isSome = true ∧ (devGet r.2 (bits (dword r.1 8) 0 6) (dword r.1 0x10) (4 * dword r.1 0x18)).isSome = true) ∧
    (tTab.queue? 0).any (fun x => x.st == .waiting && x.vf == 0) = true ∧
    (let s : State := { tTab with queues := [que] }
     let s0 := refreshDescs s
     (s0.queue? 0).any (fun x => (s0.curator? 0).isNone && servedQueue s0 0 x && decide ((s0.round 0).last ≠ x.cid) &&
       decide (0 < min ((s0.round 0).deficit x.cid + ((s0.ctx? x.cid).map (·.desc.weight)).getD 0 * 4096) 1099511627776)) = true) ∧
    (tTab.queue? 0).any (fun x => x.st == .waiting && ctxState tTab x.cid != .saved && (tTab.curator? x.cur).isNone && x.paused.isSome &&
      (match xlate tTab (Config.cores + x.cur) x.cid x.waddr.toNat 1 with
        | (.ok key, s1) => !isSys key && !s1.poisoned key 8 && x.wthr.toNat ≤ ofBytes (readBytes s1.mem key 8)
        | _ => false)) = true ∧
    (tTab.tick < (1 : W64).toNat ∧ (let s : State := { tTab with tick := 5, cfg := { tTab.cfg with tickstop := 5 } }
      s.cfg.tickstop ≠ 0 ∧ s.cfg.tickstop.toNat ≤ s.tick)) := by
  decide +kernel

/-- A gang with a save area. -/
def tSv : State := tP.onCtx 0 (fun c => { c with desc := { c.desc with part := 1, save := 0x400000, savebytes := 0x1000000 } })
/-- The gang is to be saved. -/
def tGs (w : Way) : State := { tSv with gangs := tSv.gangs.map (fun (g : Gang) => { g with way := w, slot := 0x400000 }) }
/-- A saved gang as a save leaves it, in an area of memory that reads as a slot's header. -/
def tSaved : State :=
  let g := (tSv.gangs.headD hostGang)
  let v : Saved := { slot := 0x400000, bytes := 0, gang := { g with slot := 0x400000 }, wgs := [wgIn tSv], threads := [tSv.cur], rests := [], tick := 0, rejected := [], allots := [[]], pops := [] }
  { (tSv.onCtx 0 (fun c => { c with saved := [v] })) with cur := Thread.idle, wgs := [], gangs := [] }

/-- A launch of a context of PRIO 7, which no cluster takes, asks for gang 0. -/
def tAsk : State :=
  let c := (tP.ctx? 0).map (fun (c : Ctx) => { c with cid := 1, desc := { c.desc with prio := 7, part := 0 } })
  { tP with ctxs := tP.ctxs ++ c.toList, launches := tP.launches ++ (tP.launches.map (fun (l : Launch) =>
      { l with id := 9, cid := 1, accepted := true, phase := false, next := 0, total := 1, pending := [] })) }

theorem witness_PreemptAndDebugEvents_gangs :
    ((tGs .run).gang? 0).any (fun g => ((tGs .run).launch? g.launch).isSome && g.endTick.isNone && g.way == .run) = true ∧
    (priorityAsks tAsk [0]).isSome = true ∧
    ((tGs (.drain (some 0))).gang? 0).any (fun g => g.way == .drain (some 0) && 0 ≤ (tGs (.drain (some 0))).tick && g.endTick.isNone) = true ∧
    ((tGs .save).gang? 0).any (fun g => g.way == .save && g.endTick.isNone && ((tGs .save).launch? g.launch).isSome && ((tGs .save).ctx? g.cid).isSome &&
      (gangThreads (tGs .save) g).all (fun t => t.fence.isNone) && (membersOf (tGs .save) g).all (memberSettled (tGs .save))) = true ∧
    (let s := refreshDescs tSaved
     (s.ctxs.find? (fun c => c.saved.any (fun v => v.slot == 0x400000))).any (fun c => (c.saved.find? (fun v => v.slot == 0x400000)).any (fun v =>
       (s.launch? v.gang.launch).any (fun la => c.st == .running && !c.leaving && v.rejected.isEmpty && v.pops.isEmpty &&
         (v.wgs.zip [([0], 0)]).all (fun x => memberFits s (0 + x.1.member) la.lrec x.2.1 x.2.2) && clusterOk s c.desc.part 0 0 && v.wgs.length == 1 &&
         !replaying s c.cid && !c.saved.any (inherits c) && notOutranked s c &&
         v.wgs.all (fun w => !(s.core (0 + w.member)).todo.any (fun x => x.1 == c.cid)) &&
         headerOk ((devGet s c.cid 0x400000 256).getD []) la.addr))) = true) ∧
    (let s : State := { tP with switches := [⟨[0], none, 0, false, 0⟩] }
     (s.switches.find? (fun w => !w.begun && w.when ≤ s.tick)).any (fun w => w.inc == none) = true) ∧
    (let s : State := { tP with switches := [⟨[1], none, 0, true, 0⟩] }
     (s.switches.find? (switchDone s)).isSome = true) := by
  decide +kernel

/-- A context that records: AMODE 1, or replays: AMODE 2. -/
def tAr (amode : Nat) (f : Arch → Arch) : State :=
  tP.onCtx 0 (fun c => { c with dbg := { c.dbg with amode, tms := 1, archbytes := 0x1000000, arch := 0x400000, logbytes := 4096 }, arch := f c.arch })

/-- A checkpoint with nothing in it. -/
def cp0 : Checkpoint :=
  { tick := 0, seq := 1, ended := [], live := [(0, 0, 0)], log := [], placed := [], ingress := [], gangs := [], launches := [], counts := [], wls := Vector.replicate 4 Worklist.init, img := [] }

theorem witness_PreemptAndDebugEvents_debug :
    (tP.thread? (.thr 0 0)).any (fun x => !x.exited && !x.halted && (refWg x.ref).isSome && x.fence.isNone) = true ∧
    (let s := nextOf (exec (.haltRequest [.thr 0 0]) tP)
     (s.thread? (.thr 0 0)).any (fun x => !x.halted && x.haltReq && x.fence.isNone && !x.exited) = true ∧
     ((nextOf (exec (.threadHalt (.thr 0 0)) s)).thread? (.thr 0 0)).any (fun x => x.halted && !x.exited) = true) ∧
    (let s := (tAr 2 (fun a => { a with on := true, left := [orderChunk 0 0 0 1] })).onCur (fun t => { t with wait := .gate 0 0 })
     (s.thread? (.thr 0 0)).any (fun x => replaying s x.cid && !x.halted && x.wait == .gate 0 0 && !x.exited &&
       (s.ctx? x.cid).any (fun c => ((gateRequests s x).findSome? (fun q => gateCase s c x q.1 q.2)).isNone) &&
       (gateTake s x.cid 0 x.core x.slot 0).isSome) = true) ∧
    (let s := tP.onCtx 0 (fun c => { c with dbg := { c.dbg with sen := true, sn := 10 } })
     (s.core 0).sampAt ≠ some s.tick ∧ ((sortBy (fun t => (t.slot + 4096 - (s.core 0).samp) % 4096) (sampleable s 0)).head?).isSome = true) ∧
    ((tAr 1 id).ctx? 0).any (fun c => c.dbg.amode == 1 && !c.arch.full && c.st == .running && !c.arch.settling && checkpointDue (tAr 1 id) c) = true ∧
    (let s := tAr 1 (fun a => { a with settling := true })
     (s.ctx? 0).any (fun c => c.arch.settling && !c.arch.full && c.st == .running && (ctxGangs s 0).all (fun g => (membersOf s g).all (memberSettled s))) = true) ∧
    (let s := tAr 2 (fun a => { a with on := true, want := [cp0] })
     (s.ctx? 0).any (fun c => c.arch.want == [cp0] && replaying s 0 && intervalDone s c cp0 && (hashMismatch s c cp0).isNone) = true) := by
  decide +kernel

/-- Two devices reduce 8 bytes; function 64 is bound to context 0. -/
def tHo : State :=
  { (tCo.onCtx 0 (fun c => { c with colls := [⟨1023, 1, 0, .f64, .sum, 8, 0x10000, 128, 0x10080, 128, 0⟩, ⟨1023, 2, 0, .f64, .sum, 8, 0x10000, 128, 0x10080, 128, 1⟩] })) with
    cfg := { tCo.cfg with functx := tCo.cfg.functx.set 64 0x100 }, links := 1, queues := [{ que with vf := 64 }] }

theorem witness_HostAndFabricEvents :
    ((collOf tHo 0 1023 1).any (fun x => (groupAt tHo 0 1023).any (fun e => ctxState tHo 0 == .running && 0 < recvBytes x.cop e.n x.b && e.n == 2 &&
      min 65536 (recvBytes x.cop e.n x.b - 0) == 8 && (ownPart tHo 0 x e.n e.rank 0 8).isSome)) = true) ∧
    ((collOf tHo 0 1023 2).any (fun x => recvBytes x.cop (groupSize tHo 0 1023) x.b ≤ 65536 * x.next) = true) ∧
    (boundCtx tHo 0 = none ∧ boundCtx tHo 64 = some 0 ∧ replaying tHo 0 = false ∧ sectorPieces 0x10010 16 = [(0x10010, 16)] ∧
      hubPlaces tHo 0 2 [(0x10010, 16)] = some [(0x10010, 0x10010, 16)] ∧ hubPlaces tHo 0 1 [(0x10010, 16)] = some [(0x10010, 0x10010, 16)] ∧
      Memory.wf tHo.mem = true ∧ tHo.poisoned 0x10010 16 = false ∧ isSys 0x10010 = false) ∧
    (tHo.queue? 0).any (fun x => x.vf == 64) = true ∧ tHo.outClusters.contains (383 / 8) = false ∧
    (tHo.ctx? 0).isSome = true ∧ (List.replicate 32 (0 : Byte)).length = 32 ∧ tHo.inPod = true ∧
    (tHo.links.getLsbD (0 : Fin 36) = true ∧ 0x10010 < 2 ^ 44 ∧ keyOk 0x10010 = true ∧ keyOk (0x10010 + 16 - 1) = true ∧ archMapped tHo 2 0x10010 = []) := by
  decide +kernel

/-! ## Well-formedness: each check refuses an ill-formed term -/

theorem test_wf_refuses :
    -- two literals (R21)
    Instr.wf (.iadd none (.v 1) (.lit 1) (.lit 2)) = false ∧
    Instr.wf (.stw none (.lit 1) ⟨4, .lit 2, 0⟩) = false ∧
    Instr.wf (.kxchTid none 0 false (.v 1) (.lit 1) (.lit 2)) = false ∧
    -- a pair of an odd register, a quad off a multiple of 4 (R51)
    Instr.wf (.ldd none 3 ⟨4, .none, 0⟩) = false ∧ Instr.wf (.ldq none 2 ⟨4, .none, 0⟩) = false ∧
    Instr.wf (.std none 5 ⟨4, .none, 0⟩) = false ∧ Instr.wf (.stq none 6 ⟨4, .none, 0⟩) = false ∧
    Instr.wf (.ldx none (.b8 3) ⟨4, .none, 0⟩ .thread false .default) = false ∧
    Instr.wf (.stx none (.b16 2) ⟨4, .none, 0⟩ .thread false .default) = false ∧
    Instr.wf (.vp2x none 4 3) = false ∧ Instr.wf (.x2vp none 3 4) = false ∧
    -- a type that the atomic has not, a compare value of another width (R53)
    Instr.wf (.atomAdd none (.f32 (.v 1)) ⟨4, .none, 0⟩ ⟨.device, .relaxed, .default⟩) = false ∧
    Instr.wf (.atomExch none (.n64 3) ⟨4, .none, 0⟩ ⟨.device, .relaxed, .default⟩) = false ∧
    Instr.wf (.atomCas none (.n64 2) ⟨4, .none, 0⟩ ⟨.device, .relaxed, .default⟩ (.w32 (.v 1))) = false ∧
    Instr.wf (.atomCas none (.n32 (.v 2)) ⟨4, .none, 0⟩ ⟨.device, .relaxed, .default⟩ (.w64 2)) = false := by
  decide

theorem test_wf_refuses_more :
    -- no kind named (R208, R211)
    Instr.wf (.fence none .device 0) = false ∧ Instr.wf (.ftok none 1 .device 0) = false ∧
    -- control words (R54, R55)
    Instr.wf (.mma none 4 5 6 { mctl with afmt := .int8 }) = false ∧ Instr.wf (.mma none 4 5 6 { mctl with asgn := true }) = false ∧
    Instr.wf (.mma none 4 5 6 { mctl with afmt := .f64, bfmt := .f64, slot := 1 }) = false ∧
    Instr.wf (.mma none 4 5 6 { mctl with afmt := .f64, bfmt := .f64, scale := true }) = false ∧
    Instr.wf (.mdrain none 4 5 6 { dctl with dfmt := .xf40, add := true }) = false ∧
    -- a record off a multiple of 4 (R57)
    Instr.wf (.wlpush none 0 2 0) = false ∧ Instr.wf (.wlpop none 1 2 0 5) = false ∧ Instr.wf (.wltry none 1 2 0 6) = false ∧
    -- registers past v127 (R56)
    Instr.wf (.rcall none 0 124 0 4 0) = false ∧ Instr.wf (.rcallExact none 0 0 127 0 1) = false ∧ Instr.wf (.rcallSonly none 0 121 0 7 0) = false ∧
    -- a bitwise reduction of a float (R59, R366)
    Instr.wf (.collAllreduce none 1 2 3 0 0 .f32 .xor) = false ∧ Instr.wf (.collReducescatter none 1 2 3 0 0 .bf16 .and) = false := by
  decide

/-- The words of every RCTL operation are one encoding: x[XB] chooses (R271). -/
theorem test_decode_rctl :
    encode (.rctlPin none 4 5) = encode (.rctlEvict none 4 5) ∧ encode (.rctlUnpin none 4 5) = encode (.rctlEvict none 4 5) ∧
    encode (.rctlFlush none 4 5) = encode (.rctlEvict none 4 5) := by
  decide

/-! ## One step on fixed values: the specification's tables of worked values (chapters 4, 5 and 6) and rules -/

/-- v1 is a, o1 is b, v3 is c, the latch is l. -/
def tV (a b c l : W32) : State :=
  tS.onRegs (fun r => { ((r.setV 1 a).setV 3 c) with o := r.o.set 1 b, lr := l })

/-- v3, the latch and FSR after an instruction. -/
def gives (i : Instr) (s : State) (w : W32) (f : BitVec 5) : Bool :=
  match exec i s with
  | .next t => t.cur.r.getV 3 == w && t.cur.r.lr == w && t.cur.r.fsr == f && t.cur.r.pc == 0x10004
  | .fault _ | .refused _ => false

/-- p2 and FSR after a comparison. -/
def givesP (i : Instr) (s : State) (p : Bool) (f : BitVec 5) : Bool :=
  match exec i s with
  | .next t => t.cur.r.getP 2 == p && t.cur.r.fsr == f && t.cur.r.pc == 0x10004
  | .fault _ | .refused _ => false

/-- x3 and FSR after a group instruction on x1 and x2. -/
def givesX (i : Instr) (a b w : W64) (f : BitVec 5) : Bool :=
  match exec i (tS.onRegs (fun r => (r.setX 1 a).setX 2 b)) with
  | .next t => t.cur.r.getX 3 == w && t.cur.r.fsr == f && t.cur.r.pc == 0x10004
  | .fault _ | .refused _ => false

theorem test_lane_integer_values :
    gives (.imulhs none (.v 3) (.v 1) (.o 1)) (tV 0x80000000 0x80000000 0 0) 0x40000000 0 = true ∧
    gives (.imulhn none (.v 3) (.v 1) (.o 1)) (tV 0xFFFFFFFF 0xFFFFFFFF 0 0) 0xFFFFFFFE 0 = true ∧
    gives (.isad none (.v 3) (.v 1) (.o 1)) (tV 0xFFFFFFFB 7 10 0) 0x16 0 = true ∧
    gives (.shr none (.v 3) (.v 1) (.o 1)) (tV 0x80000000 32 0 0) 0 0 = true ∧
    gives (.sar none (.v 3) (.v 1) (.o 1)) (tV 0x80000000 40 0 0) 0xFFFFFFFF 0 = true ∧
    gives (.iabs none (.v 3) (.v 1)) (tV 0x80000000 0 0 0) 0x80000000 0 = true := by
  decide +kernel

theorem test_lane_field_values :
    gives (.bfes none (.v 3) (.v 1) (.o 1)) (tV 0x00000F00 0x408 0 0) 0xFFFFFFFF 0 = true ∧
    gives (.bfen none (.v 3) (.v 1) (.o 1)) (tV 0xF0000000 0x81C 0 0) 0xF 0 = true ∧
    gives (.bfi none (.v 3) (.v 1) (.o 1)) (tV 0x12345678 0x808 0 0xAB) 0x1234AB78 0 = true ∧
    gives (.prmt none (.v 3) (.v 1) (.o 1)) (tV 0x11223344 0x0123 0 0) 0x44332211 0 = true ∧
    gives (.prmt none (.v 3) (.v 1) (.o 1)) (tV 0x00000080 0x8880 0 0) 0xFFFFFF80 0 = true := by
  decide +kernel

theorem test_lane_float_values :
    gives (.fmin none (.v 3) (.v 1) (.o 1)) (tV 0 0x80000000 0 0) 0x80000000 0 = true ∧
    gives (.fmin none (.v 3) (.v 1) (.o 1)) (tV 0x7FC00000 0x40400000 0 0) 0x40400000 0 = true ∧
    gives (.fscale none (.v 3) (.v 1) (.o 1)) (tV 0x3FC00000 0xFFFFFF6A 0 0) 1 (flUF ||| flIX) = true ∧
    gives (.ffrac none (.v 3) (.v 1)) (tV 0xB0800000 0 0 0) 0x3F7FFFFF flIX = true ∧
    gives (.fceil none (.v 3) (.v 1)) (tV 0xBF000000 0 0 0) 0x80000000 0 = true ∧
    gives (.fsat none (.v 3) (.v 1)) (tV 0x7FC00000 0 0 0) 0 0 = true ∧
    gives (.fclass none (.v 3) (.v 1)) (tV 0x80000001 0 0 0) 4 0 = true ∧
    gives (.hadd2 none (.v 3) (.v 1) (.o 1)) (tV 0x3C007BFF 0x3C000400 0 0) 0x40007BFF flIX = true := by
  decide +kernel

theorem test_rounding_values :
    gives (.fadd none (.v 3) (.v 1) (.o 1)) (tV 0x3F800000 0x33800000 0 0) 0x3F800000 flIX = true ∧
    gives (.fadd none (.v 3) (.v 1) (.o 1)) (tV 0x3F800000 0x34400000 0 0) 0x3F800002 flIX = true ∧
    gives (.fmul none (.v 3) (.v 1) (.o 1)) (tV 1 0x3FC00000 0 0) 2 (flUF ||| flIX) = true ∧
    gives (.cvtF16F32 none (.v 3) (.v 1)) (tV 0x477FEF00 0 0 0) 0x7BFF flIX = true ∧
    gives (.cvtF16F32 none (.v 3) (.v 1)) (tV 0x477FF000 0 0 0) 0x7C00 (flOF ||| flIX) = true ∧
    gives (.cvtBf16F32 none (.v 3) (.v 1)) (tV 0x3F808000 0 0 0) 0x3F80 flIX = true ∧
    gives (.cvtE4m3F32 none (.v 3) (.v 1)) (tV 0x43EB0000 0 0 0) 0x7E (flOF ||| flIX) = true ∧
    gives (.cvtE4m3F32 none (.v 3) (.v 1)) (tV 0x43880000 0 0 0) 0x78 flIX = true ∧
    gives (.cvtE5m2F32 none (.v 3) (.v 1)) (tV 0x47723000 0 0 0) 0x7C (flOF ||| flIX) = true := by
  decide +kernel

theorem test_conversion_values :
    gives (.cvtLns6F32 none (.v 3) (.v 1)) (tV 0xC0400000 0 0 0) 0x36 flIX = true ∧
    gives (.cvtLns6F32 none (.v 3) (.v 1)) (tV 0x3D800000 0 0 0) 0 (flUF ||| flIX) = true ∧
    gives (.cvtF32Lns6 none (.v 3) (.v 1)) (tV 0x16 0 0 0) 0x40350500 0 = true ∧
    gives (.cvtS8F32 none (.v 3) (.v 1)) (tV 0x42FF0000 0 0 0) 0x7F flIV = true ∧
    gives (.cvtN8F32 none (.v 3) (.v 1)) (tV 0x437F6666 0 0 0) 0xFF flIX = true ∧
    gives (.cvtN8F32 none (.v 3) (.v 1)) (tV 0x7FC00000 0 0 0) 0 flIV = true ∧
    gives (.cvtS32F32 none (.v 3) (.v 1)) (tV 0xC0200000 0 0 0) 0xFFFFFFFE flIX = true ∧
    gives (.cvtS32F32Rn none (.v 3) (.v 1)) (tV 0xC0200000 0 0 0) 0xFFFFFFFE flIX = true ∧
    gives (.cvtS32F32 none (.v 3) (.v 1)) (tV 0x4FC00000 0 0 0) 0x7FFFFFFF flIV = true := by
  decide +kernel

theorem test_comparison_values :
    givesP (.fcmp none 2 .ne (.v 1) (.o 1)) (tV 0x7FC00000 0x3F800000 0 0) true 0 = true ∧
    givesP (.fcmp none 2 .lt (.v 1) (.o 1)) (tV 0x7FC00000 0x3F800000 0 0) false flIV = true ∧
    (match exec (.dcmp none 2 .lt 1 (.x 2)) (tS.onRegs (fun r => (r.setX 1 0x7FF8000000000000).setX 2 0x3FF0000000000000)) with
      | .next t => t.cur.r.getP 2 == false && t.cur.r.fsr == flIV
      | .fault _ | .refused _ => false) = true := by
  decide +kernel

theorem test_group_values :
    givesX (.wmulhs none 3 1 (.x 2)) 0x8000000000000000 0x8000000000000000 0x4000000000000000 0 = true ∧
    givesX (.wsar none 3 1 (.x 2)) 0x8000000000000000 64 0xFFFFFFFFFFFFFFFF 0 = true ∧
    givesX (.wclz none 3 1) 0 0 64 0 = true ∧
    givesX (.dcvtS64D none 3 1) 0x43E0000000000000 0 0x7FFFFFFFFFFFFFFF flIV = true ∧
    givesX (.dcvtN64D none 3 1) 0xBFE0000000000000 0 0 flIX = true ∧
    givesX (.dcvtS32D none 3 1) 0xC00E000000000000 0 0xFFFFFFFFFFFFFFFD flIX = true ∧
    givesX (.dcvtDS64 none 3 1) 0x20000000000001 0 0x4340000000000000 flIX = true ∧
    givesX (.dcvtF32D none 3 1) 0x3FF0000010000000 0 0x3F800000 flIX = true ∧
    givesX (.dmin none 3 1 (.x 2)) 0 0x8000000000000000 0x8000000000000000 0 = true := by
  decide +kernel

/-- A false guard moves PC past the literal too (R29); CSEL executes and takes b (R86). -/
theorem test_false_guard :
    exec (.iadd (some 3) (.v 1) (.v 2) (.lit 5)) tS = .next (tS.adv 2) ∧
    gives (.csel (some 3) (.v 3) (.v 1) (.o 1)) (tV 7 9 0 0) 9 0 = true := by
  exact ⟨rfl, by decide +kernel⟩

/-- FENTER then FLEAVE gives the stack pointer back (R144, R145); CALL then RET gives PC back (R116). -/
theorem test_frames_and_calls :
    (let t := nextOf (exec (.fleave none 2) tF)
     t.cur.r.sp = tM.cur.r.sp ∧ t.cur.r.getD 2 = tM.cur.r.getD 2 ∧ t.cur.r.fgc = 2) ∧
    (let t := nextOf (exec (.ret none) tCalled)
     t.cur.r.sp = tM.cur.r.sp ∧ t.cur.r.pc = 0x10004) ∧ tCalled.cur.r.pc = 0x10014 := by
  decide +kernel

/-- A misaligned load takes ALIGN at the handler; TRET goes back to it (R304, R305, R306, R307). -/
theorem test_trap_and_return :
    let s := withRec (fun l => { l with handler := 0x10040 }) tM
    let t := nextOf (exec (.ldw none (.v 9) ⟨6, .none, 0⟩) s)
    let u := nextOf (exec (.tret none) t)
    (t.cur.r.pc = 0x10040 ∧ t.cur.tmode = true ∧ t.cur.tcause = cALIGN ∧ t.cur.tpc = 0x10000 ∧ t.cur.taddr = 1 ∧ t.cur.tinfo = 1) ∧
      u.cur.r.pc = 0x10000 ∧ u.cur.tmode = false ∧ u.cur.tcause = 0 := by
  decide +kernel

/-- The last of two signers gets the sum, and so does the other (R179). -/
theorem test_kred_sum :
    let i := Instr.kredAddN32 none 0 false (.v 1) (.lit 7)
    let t := nextOf (exec i (tG i))
    t.cur.r.getV 1 = 14 ∧ (t.threads.map (fun x => x.r.getV 1)) = [14] ∧ t.cur.r.pc = 0x1000C := by
  decide +kernel

/-- ATOM.ADD reads memory and writes the sum there when it is performed (R136). -/
theorem test_atom_add :
    let s := { tM with mem := writeLE tM.mem 65540 4 40 }
    let t := nextOf (exec (.atomAdd none (.n32 (.v 8)) ⟨5, .none, 1⟩ ⟨.cluster, .relaxed, .default⟩) (s.onRegs (fun r => r.setV 8 2)))
    let u := nextOf (exec (.loadReturn (.thr 0 0) 0 false) t)
    u.cur.r.getV 8 = 40 ∧ u.cur.mops = [] := by
  decide +kernel

/-- The decoded instruction of withFetchWord runs: IADD v9, v9, 1 (R81). -/
theorem test_step_runs :
    let s := State.reset.withFetchWord 32 0x0201212B
    let t := nextOf (step s)
    (t.threads.map (fun x => x.r.getV 9)) = [1] ∧ (t.threads.map (fun x => x.r.pc)) = [0x10004] := by
  decide +kernel

end
end

section
/-! PROOFS. Every kind of step keeps memory in its canonical form, and in that form memories that read alike are equal lists
(R2, log entry 1). -/

namespace Sys2Proof.Machine

/-! ## The canonical form is unique -/

theorem memWfFrom_cons {lo k : Nat} {v : Byte} {m : List (Nat × Byte)} :
    memWfFrom lo ((k, v) :: m) = true ↔ lo ≤ k ∧ v ≠ 0 ∧ memWfFrom (k + 1) m = true := by
  simp [memWfFrom, and_assoc]

@[simp] theorem memGet_cons_self (k : Nat) (v : Byte) (m : List (Nat × Byte)) : memGet ((k, v) :: m) k = v := by
  simp [memGet]

theorem memGet_cons_of_lt {k a : Nat} (v : Byte) (m : List (Nat × Byte)) (h : k < a) : memGet ((k, v) :: m) a = memGet m a := by
  simp [memGet, Nat.ne_of_gt h, Nat.lt_asymm h]

/-- The first listed place of a memory is at or after the first listed place of one that reads the same: below the latter
everything reads 0, and no listed byte is 0. -/
theorem head_le_of_memGet_eq {lo k k' : Nat} {v v' : Byte} {m m' : List (Nat × Byte)} (h : memWfFrom lo ((k, v) :: m) = true)
    (h' : memWfFrom lo ((k', v') :: m') = true) (e : ∀ a, memGet ((k, v) :: m) a = memGet ((k', v') :: m') a) : k' ≤ k := by
  obtain ⟨-, hv, -⟩ := memWfFrom_cons.mp h
  obtain ⟨-, hv', hm'⟩ := memWfFrom_cons.mp h'
  by_contra hk
  have below : memGet ((k', v') :: m') k = 0 :=
    memGet_below (memWfFrom_cons.mpr ⟨Nat.le_refl k', hv', hm'⟩) (Nat.lt_of_not_le hk)
  exact hv (by rw [← memGet_cons_self k v m, e k, below])

/-- Memories in the canonical form that read the same everywhere are equal lists. -/
theorem memWfFrom_ext {m : List (Nat × Byte)} : ∀ {m' : List (Nat × Byte)} {lo : Nat}, memWfFrom lo m = true →
    memWfFrom lo m' = true → (∀ a, memGet m a = memGet m' a) → m = m' := by
  induction m with
  | nil =>
    intro m' lo _ h' e
    cases m' with
    | nil => rfl
    | cons p' t' =>
      obtain ⟨k', v'⟩ := p'
      obtain ⟨-, hv', -⟩ := memWfFrom_cons.mp h'
      exact absurd ((e k').trans (memGet_cons_self k' v' t')).symm hv'
  | cons p t ih =>
    obtain ⟨k, v⟩ := p
    intro m' lo h h' e
    obtain ⟨-, hv, ht⟩ := memWfFrom_cons.mp h
    cases m' with
    | nil => exact absurd ((memGet_cons_self k v t).symm.trans (e k)) hv
    | cons p' t' =>
      obtain ⟨k', v'⟩ := p'
      obtain rfl : k = k' := Nat.le_antisymm (head_le_of_memGet_eq h' h fun a => (e a).symm) (head_le_of_memGet_eq h h' e)
      obtain ⟨-, -, ht'⟩ := memWfFrom_cons.mp h'
      have ev : v = v' := by simpa using e k
      have et : t = t' := ih ht ht' fun a => by
        by_cases ha : k < a
        · simpa only [memGet_cons_of_lt _ _ ha] using e a
        · rw [memGet_below ht (by omega), memGet_below ht' (by omega)]
      rw [ev, et]

/-! ## The parts of a step -/

theorem WfOut.fault (f : Fault) : WfOut (.fault f) := ⟨fun _ e => by cases e⟩

theorem WfOut.refused (r : Refusal) : WfOut (.refused r) := ⟨fun _ e => by cases e⟩

theorem stepTrap_wf (x : TrapReq) {s : State} (hw : Memory.wf s.mem = true) : WfOut (.next (stepTrap s x)) :=
  .next ((stepTrap_keeps x (Keeps.refl s)).wf hw)

theorem stepEvent_wf (e : Instr) {s : State} (hw : Memory.wf s.mem = true) : WfOut (stepEvent e s) := by
  have h := exec_wf e s hw
  unfold stepEvent
  split
  · split
    · rename_i t he
      exact .next ((makeRooms_keeps (Keeps.refl t)).wf (h.wf t he))
    · exact .fault _
    · exact .refused _
  · exact .next hw

/-- A stopped device executes module reset alone; any other event leaves memory as it was. -/
theorem stepStopped_wf {s : State} (hw : Memory.wf s.mem = true) : WfOut (stepStopped s) := by
  unfold stepStopped
  split
  · exact .next hw
  · split
    · exact exec_wf _ _ hw
    · exact .next hw

/-- Every kind of step (a stopped device, a tick stop, a trap, an instruction, an event, a tick) keeps the canonical form. -/
theorem step_wf {s : State} (hw : Memory.wf s.mem = true) : WfOut (step s) := by
  unfold step
  split
  · exact stepStopped_wf hw
  split
  · exact execTickStop_wf hw
  split
  · exact stepTrap_wf _ hw
  split
  · have h := issueCur_wf hw
    split
    · rename_i t ht
      exact .next ((rotate_keeps (Keeps.refl t)).wf (h.wf t ht))
    · exact .fault _
    · exact .refused _
  · split
    · exact .next (tickUp_wf hw)
    · exact stepEvent_wf _ hw

/-- After steps from states in the canonical form, memories that read the same are equal lists: the consequence that the words of
O5 name. -/
theorem step_mem_eq_iff {s s' t t' : State} (hs : Memory.wf s.mem = true) (hs' : Memory.wf s'.mem = true) (h : step s = .next t)
    (h' : step s' = .next t') : t.mem = t'.mem ↔ ∀ a, memGet t.mem a = memGet t'.mem a :=
  ⟨fun e a => by rw [e], memWfFrom_ext ((step_wf hs).wf t h) ((step_wf hs').wf t' h')⟩

end Sys2Proof.Machine

namespace Sys2Proof

/-- Settles O5: each kind of step keeps the canonical form of memory (`Machine.step_wf`). -/
theorem stepKeepsMemoryForm : Obligations.StepKeepsMemoryForm := by
  unfold Obligations.StepKeepsMemoryForm
  intro s t hw h
  exact (Machine.step_wf hw).wf t h

end Sys2Proof
end

section
/-! PROOFS. What a push, a pop and a read made at issue come to (R12, R13, R130), and with them the calls, the returns and the frames
of a thread (R115, R116, R144, R145). -/

namespace Sys2Proof.Machine

/-! ## What stands before an instruction's work -/

theorem outside_none {s : State} (h : s.cur.rest = none) (k : Out) : outside s k = k := by
  simp only [outside, h]

theorem settled_none {s : State} (h : s.cur.fence = none) (k : Out) : settled s k = k := by
  simp [settled, h]

theorem rejected_none {t : Thread} (h : t.rej = none) (va : Nat) : rejected t va = false := by
  simp [rejected, h]

theorem OnlyTlbs.cur {s t : State} (h : OnlyTlbs s t) : t.cur = s.cur := by rw [h.state]

/-! ## Branch targets -/

theorem badTarget_false {tgt : W64} (h : tgt.toNat % 4 = 0) : badTarget tgt = false := by
  simp [badTarget, h]

theorem badTarget_ofNat {v : Nat} (h : v % 4 = 0) : badTarget (BitVec.ofNat 64 v) = false :=
  badTarget_false (by rw [BitVec.toNat_ofNat]; omega)

/-! ## Pushes -/

/-- The kind bit of a plain store (R208). -/
theorem covOf_store {a : MReq} (hf : a.frame = false) (hn : a.named = false) (hk : a.kind = .store) : covOf a = covBit a.va 1 := by
  simp [covOf, hf, hn, hk, covBit]

/-- The outstanding store that a push of the thread itself is (R12, R130). -/
def pushedMop (s : State) (va : W64) (key n : Nat) (data : BitVec 128) : Mop :=
  { plainMop s .store va key n (covBit va 1) with data, push := true }

theorem pushMop_eq (s : State) (va : W64) (key n : Nat) (data : BitVec 128) :
    pushMop s va key n data =
      { s with cur := { s.cur with mops := s.cur.mops ++ [pushedMop s va key n data], nmop := s.cur.nmop + 1 } } := by
  have hcov : covOf { MReq.plain .store va n none with data, push := true } = covBit va 1 := covOf_store rfl rfl rfl
  simp only [pushMop, MReq.mop, hcov]
  rfl

/-- A push whose checks pass (R12, R13, R116). -/
theorem pushThen_ok {s : State} {key : Nat} (h : pushCheck s s.cur (s.cur.r.sp - 8).toNat (s.cur.r.sp - 8).toNat = .ok key)
    (v : W64) (k : State → Out) :
    pushThen s v k = k ((pushMop s (s.cur.r.sp - 8) key 8 (v.setWidth 128)).onRegs (fun r => { r with sp := s.cur.r.sp - 8 })) := by
  simp only [pushThen, h, orTrap]

/-! ## Places in the windows -/

theorem isScratch_scratchKey (core off : Nat) : isScratch (scratchKey core off) = true :=
  decide_eq_true (by unfold scratchKey; omega)

theorem isScratch_of_room {c : Prop} [Decidable c] {core off key : Nat}
    (h : (if c then .ok (scratchKey core off) else .prot 2 : Xl) = .ok key) : isScratch key = true := by
  split at h
  · obtain rfl := Xl.ok.inj h
    exact isScratch_scratchKey _ _
  · exact nomatch h

/-- An address at or above 2^56 is in no page: its place is a scratchpad's, and finding it changes nothing (R18, R155). -/
theorem resolve_window {s s' : State} {w : Option Wg} {core cid va n kind key : Nat} (hva : 2 ^ 56 ≤ va)
    (h : resolve s w core cid va n kind = (.ok key, s')) : s' = s ∧ isScratch key = true := by
  have hva' : ¬ va < 72057594037927936 := by omega
  unfold resolve at h
  rw [if_neg hva'] at h
  split at h
  · exact nomatch (Prod.mk.inj h).1
  split at h
  · obtain ⟨hp, hs⟩ := Prod.mk.inj h
    exact ⟨hs.symm, isScratch_of_room hp⟩
  split at h
  · obtain ⟨hp, hs⟩ := Prod.mk.inj h
    refine ⟨hs.symm, ?_⟩
    split at hp
    · exact nomatch hp
    · exact isScratch_of_room hp
  · exact nomatch (Prod.mk.inj h).1
/-- A read in a scratchpad takes the bytes there and changes nothing (R190). -/
theorem agentRead_scratch {s : State} {key : Nat} (h : isScratch key = true) (core cid scope : Nat) (hint : Hint) (n : Nat) :
    agentRead s core cid scope hint key n = ((readBytes s.mem key n, false), s) := by
  have hsys : isSys key = false := by
    simp only [isScratch, decide_eq_true_eq] at h
    simp only [isSys, Bool.and_eq_false_iff, decide_eq_false_iff_not]; omega
  simp [agentRead, h, State.take, hsys]

/-! ## What a read leaves of the selected thread -/

@[simp] theorem State.take_cur (s : State) (key n : Nat) : (s.take key n).2.cur = s.cur := by
  unfold State.take; split <;> rfl

/-- A write by another agent can only tell a pending fence (R209). -/
theorem touch_cur {s : State} (h : s.cur.fence = none) (who : TRef) (key n : Nat) : (touch s who key n).cur = s.cur := by
  simp only [touch, State.onAll, h, ite_self]

theorem State.put_cur {s : State} (h : s.cur.fence = none) (who : TRef) (key : Nat) (bs : List Byte) :
    (s.put who key bs).cur = s.cur := by
  unfold State.put
  split
  · rfl
  · exact touch_cur h who key bs.length

theorem State.onCur_of_fixed {s : State} {f : Thread → Thread} (h : f s.cur = s.cur) : s.onCur f = s := by
  simp only [State.onCur, h]

/-- What keeps a selected thread at each element keeps it along a list. -/
theorem foldl_cur {α : Type} {c : Thread} {f : State → α → State} (hf : ∀ s a, s.cur = c → (f s a).cur = c) (l : List α) {s : State}
    (hs : s.cur = c) : (l.foldl f s).cur = c :=
  List.foldlRecOn l f hs (fun s hs a _ => hf s a hs)

section
variable {c : Thread} (hc : c.fence = none) {s : State} (hs : s.cur = c)
include hc hs

theorem writeBack_cur (core : Nat) (x : Sector) (drop : Bool) : (writeBack s core x drop).cur = c := by
  have put {s : State} (hs : s.cur = c) (key : Nat) (bs : List Byte) : (s.put .none key bs).cur = c := by
    rw [State.put_cur (by rw [hs, hc]), hs]
  unfold writeBack
  rw [State.onCore_cur]
  have bytes := foldl_cur (f := fun (s : State) i =>
      if x.dirty.getLsbD i && x.dirty != BitVec.allOnes 32 then s.put .none (32 * x.sec + i) [x.byte i] else s)
    (fun s i hs => by split; exacts [put hs _ _, hs]) (List.range 32) hs
  split
  · exact put bytes _ _
  · exact bytes

theorem flushSector_cur (core cid key n : Nat) : (flushSector s core cid key n).cur = c := by
  refine foldl_cur (fun s sec hs => ?_) _ hs
  split
  · split
    · exact hs
    · exact writeBack_cur hc hs _ _ _
  · exact hs

theorem l1Room_cur (core cid sec : Nat) (hint : Hint) : (l1Room s core cid sec hint).cur = c := by
  unfold l1Room
  dsimp only
  split
  · exact hs
  split
  · exact hs
  · exact foldl_cur (fun s x hs => writeBack_cur hc hs core x true) _ hs

theorem goHome_cur (core cid scope key n : Nat) : (goHome s core cid scope key n).cur = c := by
  have drained : (if scope = 6 then s.drainEgress else s).cur = c := by split <;> exact hs
  unfold goHome
  dsimp only
  split
  · exact flushSector_cur hc drained _ _ _ _
  · exact drained

omit hc in
theorem l1Load_cur (core cid key n : Nat) : (l1Load s core cid key n).2.cur = c :=
  foldl_cur (fun s sec hs => by dsimp only; split; exacts [hs, (State.onCore_cur _ _ _).trans hs]) _ hs

omit hc in
theorem l1Mark_cur (core cid sec : Nat) (hint : Hint) : (l1Mark s core cid sec hint).cur = c := by
  unfold l1Mark
  split
  · rw [State.onCore_cur, hs]
  · exact hs

/-- A read leaves the selected thread as it is while no fence of it is pending: what it may move or evict is in the L1s (R191). -/
theorem agentRead_cur (core cid scope : Nat) (hint : Hint) (key n : Nat) : (agentRead s core cid scope hint key n).2.cur = c := by
  unfold agentRead
  split
  · exact (State.take_cur s key n).trans hs
  split
  · exact l1Mark_cur (l1Load_cur (l1Room_cur hc hs _ _ _ _) _ _ _ _) _ _ _ _
  · exact goHome_cur hc hs _ _ _ _ _

end

/-! ## Pops -/

theorem addWatch_none {t : Thread} (h : t.fence = none) (m : Mop) : addWatch t m = t := by
  simp only [addWatch, h]

@[simp] theorem addWatch_r (t : Thread) (m : Mop) : (addWatch t m).r = t.r := by
  unfold addWatch; split
  · split <;> rfl
  · rfl

/-- The load that a pop makes (R116, R130). -/
def popMop (s : State) (va : W64) (key : Nat) : Mop := (MReq.plain .load va 8 none).mop s.cur key

theorem popCheck_ok {s : State} {t : Thread} {addr key : Nat} (h : popCheck s t addr = .ok key) :
    popStack s t addr = none ∧ (resolve s (s.wgOf t) t.core t.cid addr 8 5).1 = .ok key := by
  unfold popCheck at h
  split at h
  · exact nomatch h
  · rename_i hstack
    split at h
    · rename_i k hplace
      exact ⟨hstack, hplace.trans (congrArg _ (Except.ok.inj h))⟩
    all_goals exact nomatch h

theorem withPlace_ok {s s' : State} {va : W64} {n kind key : Nat}
    (h : resolve s (s.wgOf s.cur) s.cur.core s.cur.cid va.toNat n kind = (.ok key, s'))
    (hrej : 2 ^ 56 ≤ va.toNat ∨ s.cur.rej = none) (k : Nat → State → Out) : withPlace s va n kind k = k key s' := by
  have only := resolve_only s (s.wgOf s.cur) s.cur.core s.cur.cid va.toNat n kind
  rw [h] at only
  have hr : ¬(decide (va.toNat < 72057594037927936) && rejected s'.cur va.toNat) = true := by
    rcases hrej with hva | hrej
    · simp; omega
    · rw [rejected_none (by rw [only.cur, hrej])]; simp
  simp only [withPlace, h, if_neg hr]

/-- A pop in a window whose checks pass takes what the thread sees there; a pending fence watches it (R13, R116, R209). -/
theorem popAt_window {s : State} {va : W64} {key : Nat} (hva : 2 ^ 56 ≤ va.toNat) (h : popCheck s s.cur va.toNat = .ok key)
    (hb : blocked s.cur key 8 false = false) (k : W64 → State → Out) :
    popAt s va k = k (BitVec.ofNat 64 (viewN s s.cur key 8)) (s.onCur (fun t => addWatch t (popMop s va key))) := by
  obtain ⟨hstack, hplace⟩ := popCheck_ok h
  have hres : resolve s (s.wgOf s.cur) s.cur.core s.cur.cid va.toNat 8 5 = (.ok key, _) := Prod.ext hplace rfl
  obtain ⟨hstate, hscratch⟩ := resolve_window hva hres
  rw [hstate] at hres
  simp only [popAt, hstack, withPlace_ok hres (.inl hva), hb, agentRead_scratch hscratch]
  rfl

/-- The stack lies in the local window (R12). -/
theorem localBase_le_stackRange (s : State) (t : Thread) : localBase ≤ (stackRange s t).2 := by
  unfold stackRange
  split
  · dsimp only; omega
  · exact Nat.le_refl _

/-- A pop at a mapped global address (R13, R116, R129). -/
theorem popAt_global {s s' : State} {va : W64} {key : Nat} (hva : va.toNat < 2 ^ 56) (hal : va.toNat % 8 = 0) (hrej : s.cur.rej = none)
    (hf : s.cur.fence = none) (h : resolve s (s.wgOf s.cur) s.cur.core s.cur.cid va.toNat 8 5 = (.ok key, s'))
    (hb : blocked s.cur key 8 false = false) (hp : (agentRead s' s.cur.core s.cur.cid 0 .default key 8).1.2 = false)
    (k : W64 → State → Out) :
    popAt s va k = k (BitVec.ofNat 64 (ofBytes (overlay s.cur.mops key (agentRead s' s.cur.core s.cur.cid 0 .default key 8).1.1)))
      (agentRead s' s.cur.core s.cur.cid 0 .default key 8).2 := by
  have hstack : popStack s s.cur va.toNat = none := by
    have := localBase_le_stackRange s s.cur
    unfold localBase at this
    unfold popStack
    rw [if_neg (by omega), if_neg (by omega)]
  have only := resolve_only s (s.wgOf s.cur) s.cur.core s.cur.cid va.toNat 8 5
  rw [h] at only
  have hcur : s'.cur = s.cur := only.cur
  have hscope : effScope s.cur ((MReq.plain .load va 8 none).mop s.cur key) = 0 := by
    simp only [effScope, hf, MReq.mop, MReq.plain]
  have hread := agentRead_cur hf hcur s.cur.core s.cur.cid 0 .default key 8
  simp only [popAt, hstack, withPlace_ok h (.inr hrej), hcur, hb, hscope, hp, Bool.false_eq_true, if_false]
  rw [State.onCur_of_fixed (addWatch_none (by rw [hread, hf]) _)]

/-! ## CALL, CALLR, RET -/

section
variable {g : Guard} {s : State} {key : Nat} (hg : s.cur.r.holds g = true) (hrest : s.cur.rest = none)
include hg hrest

theorem execCall_pushes (disp : BitVec 21) (h : pushCheck s s.cur (s.cur.r.sp - 8).toNat (s.cur.r.sp - 8).toNat = .ok key) :
    execCall g disp s = .next { s with cur := { s.cur with
      mops := s.cur.mops ++ [pushedMop s (s.cur.r.sp - 8) key 8 ((s.cur.r.pc + 4).setWidth 128)], nmop := s.cur.nmop + 1
      r := { s.cur.r with sp := s.cur.r.sp - 8, pc := branchTarget s.cur disp } } } := by
  rw [execCall, guarded_true hg, outside_none hrest, pushThen_ok h, pushMop_eq]
  rfl

theorem execCallr_pushes (a : XReg) (h : pushCheck s s.cur (s.cur.r.sp - 8).toNat (s.cur.r.sp - 8).toNat = .ok key)
    (hal : (s.cur.r.getX a).toNat % 4 = 0) :
    execCallr g a s = .next { s with cur := { s.cur with
      mops := s.cur.mops ++ [pushedMop s (s.cur.r.sp - 8) key 8 ((s.cur.r.pc + 4).setWidth 128)], nmop := s.cur.nmop + 1
      r := { s.cur.r with sp := s.cur.r.sp - 8, pc := s.cur.r.getX a } } } := by
  simp only [execCallr, guarded_true hg, outside_none hrest, badTarget_false hal, Bool.false_and, Bool.false_eq_true, if_false,
    pushThen_ok h, pushMop_eq]
  rfl

/-- RET at a window address (R116). -/
theorem execRet_window (hsp : 2 ^ 56 ≤ s.cur.r.sp.toNat) (h : popCheck s s.cur s.cur.r.sp.toNat = .ok key)
    (hb : blocked s.cur key 8 false = false) (hal : viewN s s.cur key 8 % 4 = 0) :
    execRet g s = .next { s with cur := { addWatch s.cur (popMop s s.cur.r.sp key) with
      r := { s.cur.r with sp := s.cur.r.sp + 8, pc := BitVec.ofNat 64 (viewN s s.cur key 8) } } } := by
  simp only [execRet, guarded_true hg, outside_none hrest, popThen, popAt_window hsp h hb, badTarget_ofNat hal, Bool.false_eq_true,
    if_false, State.onRegs, State.onCur, addWatch_r]

/-- RET at a global address (R116). -/
theorem execRet_global {s' : State} (hsp : s.cur.r.sp.toNat < 2 ^ 56) (hal : s.cur.r.sp.toNat % 8 = 0) (hrej : s.cur.rej = none)
    (hf : s.cur.fence = none)
    (h : resolve s (s.wgOf s.cur) s.cur.core s.cur.cid s.cur.r.sp.toNat 8 5 = (.ok key, s')) (hb : blocked s.cur key 8 false = false)
    (hp : (agentRead s' s.cur.core s.cur.cid 0 .default key 8).1.2 = false)
    (hv : ofBytes (overlay s.cur.mops key (agentRead s' s.cur.core s.cur.cid 0 .default key 8).1.1) % 4 = 0) :
    ∃ t, execRet g s = .next t ∧ Keeps s t ∧ t.cur = { s.cur with r := { s.cur.r with
      sp := s.cur.r.sp + 8
      pc := BitVec.ofNat 64 (ofBytes (overlay s.cur.mops key (agentRead s' s.cur.core s.cur.cid 0 .default key 8).1.1)) } } := by
  have hkeeps : Keeps s s' := .of_snd (resolve_keeps _ _ _ _ _ _ (.refl s)) h
  have hcur : s'.cur = s.cur := by
    have only := resolve_only s (s.wgOf s.cur) s.cur.core s.cur.cid s.cur.r.sp.toNat 8 5
    rw [h] at only
    exact only.cur
  have hread := agentRead_cur hf hcur s.cur.core s.cur.cid 0 .default key 8
  have hkeeps' := agentRead_keeps s.cur.core s.cur.cid 0 .default key 8 hkeeps
  simp only [execRet, guarded_true hg, outside_none hrest, popThen, popAt_global hsp hal hrej hf h hb hp, badTarget_ofNat hv,
    Bool.false_eq_true, if_false]
  exact ⟨_, rfl, State.onRegs_keeps _ (State.onRegs_keeps _ hkeeps'), by simp only [State.onRegs_cur, hread]⟩

end

/-! ## FENTER and FLEAVE of a thread frame -/

/-- Where the word stands that a thread frame saved: above its slots and its padding (R144). -/
def frameTop (f : W64) (h : Hdr) : Nat := hAddr f + frameBytes h.size + 8 * h.pad

section
variable {g : Guard} {s : State} {key : Nat} (hg : s.cur.r.holds g = true) (hrest : s.cur.rest = none)
include hg hrest

theorem execFenter_enters (dep : Fin 8) (a : XReg) (h1 : 1 ≤ (s.cur.r.getX a).toNat) (h2 : (s.cur.r.getX a).toNat ≤ 1024) :
    execFenter g dep a s = enterFrame s dep (s.cur.r.getX a).toNat := by
  simp only [execFenter, guarded_true hg, outside_none hrest]
  exact if_neg (by omega)

/-- FLEAVE of a thread frame that is at SP and not retained: the header is stored with LIVE 0 and the next generation, and the word
above the frame is popped (R145). -/
theorem execFleave_leaves {dep : Fin 8} {h : Hdr} {pk : Nat} (hf : s.cur.fence = none)
    (hbusy : headerBusy s (s.cur.r.getD dep) 3 = false) (hc : frameCheck s s.cur (s.cur.r.getD dep) 3 = .ok (key, h))
    (hs : hScope (s.cur.r.getD dep) = 0) (hat : hAddr (s.cur.r.getD dep) = s.cur.r.sp.toNat) (hret : h.retain = 0)
    (hup : 2 ^ 56 ≤ (BitVec.ofNat 64 (frameTop (s.cur.r.getD dep) h)).toNat)
    (hpop : popCheck s s.cur (BitVec.ofNat 64 (frameTop (s.cur.r.getD dep) h)).toNat = .ok pk) (hb : blocked s.cur pk 8 false = false) :
    execFleave g dep s = .next ((pushMop s (BitVec.ofNat 64 (hAddr (s.cur.r.getD dep))) key 16
        (BitVec.ofNat 128 { h with live := false, gen := nextGen h.gen }.toNat)).onRegs (fun r =>
      ({ r with sp := BitVec.ofNat 64 (frameTop (s.cur.r.getD dep) h + 8) }.setD dep (BitVec.ofNat 64 (viewN s s.cur pk 8))).adv 1)) := by
  have leaves := popAt_window hup hpop hb
  rw [State.onCur_of_fixed (addWatch_none hf _)] at leaves
  simp only [execFleave, guarded_true hg, outside_none hrest, settled_none hf, withFrame, hbusy, Bool.false_eq_true, if_false, hc, orTrap,
    hs, if_true, leaveThread, hat, ne_eq, not_true, hret]
  simp only [frameTop, hat] at leaves ⊢
  rw [leaves]

end

end Sys2Proof.Machine

namespace Sys2Proof
open Machine

/-- Settles O28: a push is an outstanding store of the thread (`execCall_pushes`, `execCallr_pushes`), and the pop of RET is a read made at
issue, in a window (`execRet_window`) or at a mapped global address (`execRet_global`). -/
theorem callsAndReturns : Obligations.CallsAndReturns := by
  unfold Obligations.CallsAndReturns
  intro g disp x s key hg hrest
  refine ⟨fun h => ⟨execCall_pushes hg hrest disp h, execCallr_pushes hg hrest x h⟩, execRet_window hg hrest, ?_⟩
  intro s' hsp hal hrej hf h hb y v hp hv
  exact execRet_global hg hrest hsp hal hrej hf h hb hp hv

/-- Settles O43: FENTER's two stores are pushes (`pushMop_eq`); FLEAVE stores the header and pops the word above the frame
(`execFleave_leaves`). -/
theorem privateFrames : Obligations.PrivateFrames := by
  unfold Obligations.PrivateFrames
  intro g dep a s key hg hrest
  constructor
  · intro h1 h2 h
    refine (execFenter_enters hg hrest dep a h1 h2).trans ?_
    simp only [enterFrame, frameBytes, h, orTrap, pushMop_eq]
    rfl
  · intro h pk hf f at' up hbusy hc hs hat hret hup hpop hb
    refine (execFleave_leaves hg hrest hf hbusy hc hs hat hret hup hpop hb).trans ?_
    rw [pushMop_eq]
    rfl

end Sys2Proof
end

section
/-! PROOFS. Special registers (R15, R16, R121), and what takes PRIV on a launched thread (R52). -/

namespace Sys2Proof.Machine

/-! ## PRIV -/

/-- A function for curators traps on a launched thread (R52). -/
theorem sysCurator_thr {g : Guard} {s : State} {w i : Nat} (hg : s.cur.r.holds g = true) (href : s.cur.ref = .thr w i)
    (k : Curator → Queue → Out) : sysCurator g s k = trap s cPRIV 0 0 := by
  rw [sysCurator, guarded_true hg, href]

theorem onCurator_thr {s : State} {w i : Nat} (h : s.cur.ref = .thr w i) : onCurator s = false := by
  simp only [onCurator, h]

theorem onCurator_cur {s : State} {c : Nat} (h : s.cur.ref = .cur c) : onCurator s = true := by
  simp only [onCurator, h]

theorem srBad_thr {s : State} {w i n : Nat} (h : s.cur.ref = .thr w i) (hn : srListed n = true) : srBad s n = false := by
  simp [srBad, hn, onCurator_thr h]

/-- A curator register is listed (R15). -/
theorem srListed_curator {n : Nat} (h1 : 256 ≤ n) (h2 : n ≤ 511) : srListed n = true := by
  simp [srListed, h1, h2]

theorem execSrd_curatorReg_thr {g : Guard} {s : State} {w i : Nat} {idx : BitVec 15} (hg : s.cur.r.holds g = true)
    (href : s.cur.ref = .thr w i) (h1 : 256 ≤ idx.toNat) (h2 : idx.toNat ≤ 511) (d : XReg) :
    execSrd g d idx s = trap s cPRIV 0 0 := by
  have hcur : srCurator idx.toNat = true := by simp [srCurator, h1, h2]
  simp [execSrd, srBad_thr href (srListed_curator h1 h2), guarded_true hg, hcur, onCurator_thr href]

theorem execSwr_readOnly_thr {g : Guard} {s : State} {w i : Nat} {idx : BitVec 15} (hg : s.cur.r.holds g = true)
    (href : s.cur.ref = .thr w i) (hl : srListed idx.toNat = true) (hw : ¬(idx.toNat = 33 ∨ idx.toNat = 34 ∨ idx.toNat = 49)) (d : XReg) :
    execSwr g d idx s = trap s cPRIV 0 0 := by
  simp only [execSwr, srBad_thr href hl, guarded_true hg, if_neg hw, Bool.false_eq_true, if_false]

/-! ## SRD and SWR -/

theorem GroupDone.of_setX (s : State) (d : XReg) (w : W64) : GroupDone s (s.onRegs (fun r => (r.setX d w).adv 1)) d 1 w 0 := by
  refine ⟨.of_onRegs _ _, ?_⟩
  have := GroupRegs.of_setX s.cur.r d 1 w 0
  rwa [fsr_or_zero] at this

/-- SRD of a register that the thread may read (R16, R121). -/
theorem execSrd_reads {g : Guard} {s : State} {idx : BitVec 15} (hg : s.cur.r.holds g = true) (hbad : srBad s idx.toNat = false)
    (hcur : 256 ≤ idx.toNat → ∃ c, s.cur.ref = .cur c) (htick : idx.toNat ≠ 32) (d : XReg) :
    execSrd g d idx s = .next (s.onRegs (fun r => (r.setX d (srValue s idx.toNat)).adv 1)) := by
  have hpriv : (srCurator idx.toNat && !onCurator s) = false := by
    by_cases h : 256 ≤ idx.toNat
    · obtain ⟨c, hc⟩ := hcur h
      simp [onCurator_cur hc]
    · simp [srCurator, h]
  simp only [execSrd, hbad, guarded_true hg, hpriv, if_neg htick, Bool.false_eq_true, if_false]

/-- Outside a replay the gate is open: nothing but the context's log may change (R351). -/
theorem gateTake_open {s : State} {cid : Nat} (h : replaying s cid = false) (arb core slot code : Nat) :
    ∃ f, gateTake s cid arb core slot code = some (s.onCtx cid f, none) := by
  have hgate : ∃ l, gateOf s cid arb core slot = .pass l none := by
    unfold gateOf
    split
    · rename_i c hc
      have hoff : (c.dbg.amode == 2 && c.arch.on) = false := by simpa [replaying, hc] using h
      exact ⟨c.arch.left, by simp [hoff]⟩
    · exact ⟨[], rfl⟩
  obtain ⟨l, hl⟩ := hgate
  refine ⟨fun c => { c with arch := { c.arch with left := l } }, ?_⟩
  simp only [gateTake, hl, h, Bool.false_and, Bool.false_eq_true, if_false]

/-- SRD of TICK in a context that does not replay (R348, R349). -/
theorem readTick_reads {s : State} (h : replaying s s.cur.cid = false) (d : XReg) :
    ∃ ctxs, readTick s d = .next ({ s with ctxs }.onRegs (fun r => (r.setX d (BitVec.ofNat 64 s.tick)).adv 1)) := by
  obtain ⟨f, hf⟩ := gateTake_open h s.cur.core s.cur.core s.cur.slot 0xFFFE
  exact ⟨_, by simp only [readTick, hf]; rfl⟩

theorem execSrd_tick {g : Guard} {s : State} (hg : s.cur.r.holds g = true) (d : XReg) : execSrd g d 32 s = readTick s d := by
  simp [execSrd, guarded_true hg, srBad, srListed, srCurator]

/-- SWR of SP, FSR or TPC (R121). -/
theorem execSwr_writes {g : Guard} {s : State} {idx : BitVec 15} (hg : s.cur.r.holds g = true) (hrest : s.cur.rest = none)
    (hf : s.cur.fence = none) (hbad : srBad s idx.toNat = false) (hw : idx.toNat = 33 ∨ idx.toNat = 34 ∨ idx.toNat = 49) (d : XReg) :
    execSwr g d idx s = .next ((s.onCur (fun x => srWrite x idx.toNat (x.r.getX d))).adv 1) := by
  simp only [execSwr, hbad, guarded_true hg, if_pos hw, outside_none hrest, settled_none hf, Bool.false_eq_true, if_false]

theorem srBad_writable (s : State) {n : Nat} (h : n = 33 ∨ n = 34 ∨ n = 49) : srBad s n = false := by
  rcases h with rfl | rfl | rfl <;> simp [srBad, srListed]

end Sys2Proof.Machine

namespace Sys2Proof
open Machine

/-- Settles O32: a launched thread is no curator, so each form comes to its trap PRIV. -/
theorem privilegedForms : Obligations.PrivilegedForms := by
  unfold Obligations.PrivilegedForms
  intro g a idx w i s hg href _ _
  have curator := @sysCurator_thr g s w i hg href
  refine ⟨curator _, curator _, curator _, curator _, curator _, curator _, curator _, curator _, ?_, ?_⟩
  · exact fun h1 h2 => execSrd_curatorReg_thr hg href h1 h2 a
  · exact fun hl h33 h34 h49 => execSwr_readOnly_thr hg href hl (by simp [h33, h34, h49]) a

/-- Settles O33: SRD writes one x register, of TICK behind an open gate (`readTick_reads`); SWR's three registers are those of `srWrite`. -/
theorem specialRegisters : Obligations.SpecialRegisters := by
  unfold Obligations.SpecialRegisters
  intro g d idx s hg
  refine ⟨fun hbad hcur htick => ?_, fun hlive => ?_, fun hrest hf => ?_⟩
  · exact ⟨_, execSrd_reads hg hbad hcur htick d, .of_setX s d _⟩
  · obtain ⟨ctxs, h⟩ := readTick_reads hlive d
    exact ⟨_, (execSrd_tick hg d).trans h, (GroupDone.of_setX s d _).regs, rfl, fun _ => rfl⟩
  · have writes {n : BitVec 15} (hn : n.toNat = 33 ∨ n.toNat = 34 ∨ n.toNat = 49) :=
      execSwr_writes hg hrest hf (srBad_writable s hn) hn d
    exact ⟨writes (n := 33) (.inl rfl), writes (n := 34) (.inr (.inl rfl)), writes (n := 49) (.inr (.inr rfl))⟩

end Sys2Proof
end

section
/-! PROOFS. The picker and the events beside it (R19, R158, R159, R161, R163). -/

namespace Sys2Proof.Machine

/-! ## Threads by name -/

/-- What a change of one thread makes of a thread's name being looked up. -/
theorem State.thread?_onThread (s : State) {f : Thread → Thread} (hf : ∀ x, (f x).ref = x.ref) (r : TRef) {q : TRef} (hq : q ≠ .none) :
    (s.onThread r f).thread? q = if q = r then (s.thread? q).map f else s.thread? q := by
  have hne : (q != .none) = true := by simpa using hq
  by_cases hc : s.cur.ref = r
  · have hon : s.onThread r f = { s with cur := f s.cur } := by simp [State.onThread, hc]
    rw [hon]
    by_cases hqr : q = r
    · subst hqr
      simp [State.thread?, hf, hc, hne]
    · have : s.cur.ref ≠ q := fun e => hqr (e.symm.trans hc)
      simp [State.thread?, hf, this, hqr]
  · have hon : s.onThread r f = { s with threads := updFirst (fun x => x.ref == r) f s.threads } := by simp [State.onThread, hc]
    rw [hon]
    by_cases hqr : q = r
    · subst hqr
      simp only [State.thread?, beq_iff_eq, hc, Bool.and_eq_true, false_and, if_false, if_true]
      exact find_updFirst _ _ (fun a h => by rw [hf]; exact h) _
    · have := find_updFirst_ne (fun x : Thread => x.ref == r) (fun x => x.ref == q) f
        (fun a h => by
          have e : a.ref ≠ q := fun e => hqr (e.symm.trans (by simpa using h))
          simp [hf, e]) s.threads
      simp only [State.thread?, this, if_neg hqr]

theorem State.thread?_onThread_self {s : State} {f : Thread → Thread} (hf : ∀ x, (f x).ref = x.ref) {r : TRef} (hr : r ≠ .none)
    {x : Thread} (hx : s.thread? r = some x) : (s.onThread r f).thread? r = some (f x) := by
  rw [State.thread?_onThread s hf r hr, if_pos rfl, hx]; rfl

/-- A change that does no more the second time, made to the threads of a list of names. -/
theorem State.thread?_foldl_onThread {α : Type} (ref : α → TRef) {f : Thread → Thread} (hf : ∀ x, (f x).ref = x.ref)
    (hff : ∀ x, f (f x) = f x) {q : TRef} (hq : q ≠ .none) (l : List α) : ∀ s : State,
    (l.foldl (fun s a => s.onThread (ref a) f) s).thread? q = if q ∈ l.map ref then (s.thread? q).map f else s.thread? q := by
  induction l with
  | nil => intro s; simp
  | cons a l ih =>
    intro s
    rw [List.foldl_cons, ih, State.thread?_onThread s hf (ref a) hq]
    by_cases ha : q = ref a
    · have hmap : ((s.thread? q).map f).map f = (s.thread? q).map f := by
        rw [Option.map_map]; exact congrArg (fun k => (s.thread? q).map k) (funext hff)
      simp only [List.map_cons, List.mem_cons, ha, true_or, if_true]
      rw [← ha, hmap, ite_self]
    · simp only [List.map_cons, List.mem_cons, ha, false_or, if_false]

theorem State.thread?_of_mem_all {s : State} {t : Thread} (h : t ∈ s.all) (hne : t.ref ≠ .none) : ∃ x, s.thread? t.ref = some x := by
  by_cases hc : s.cur.ref = t.ref
  · exact ⟨s.cur, by simp [State.thread?, hc, hne]⟩
  · have hmem : t ∈ s.threads := by
      unfold State.all at h
      split at h
      · exact h
      · rcases List.mem_cons.mp h with rfl | h
        · exact absurd rfl hc
        · exact h
    have hsome : (s.threads.find? (fun x => x.ref == t.ref)).isSome = true := List.find?_isSome.mpr ⟨t, hmem, by simp⟩
    obtain ⟨x, hx⟩ := Option.isSome_iff_exists.mp hsome
    exact ⟨x, by simp [State.thread?, hc, hx]⟩

/-! ## The order of a sheaf -/

theorem mem_insertBy {α : Type} {k : α → Nat} {a x : α} {l : List α} : x ∈ insertBy k a l ↔ x = a ∨ x ∈ l := by
  induction l with
  | nil => simp [insertBy]
  | cons b l ih =>
    unfold insertBy
    split
    · simp
    · simp only [List.mem_cons, ih]; tauto

/-- Sorting neither adds nor drops. -/
theorem mem_sortBy {α : Type} {k : α → Nat} {x : α} {l : List α} : x ∈ sortBy k l ↔ x ∈ l := by
  have go : ∀ (l r : List α), x ∈ l.foldl (fun r a => insertBy k a r) r ↔ x ∈ r ∨ x ∈ l := by
    intro l
    induction l with
    | nil => simp
    | cons a l ih => intro r; simp only [List.foldl_cons, ih, mem_insertBy, List.mem_cons]; tauto
  exact (go l []).trans (by simp)

/-! ## The thread that a pick prefers (R159) -/

/-- a is no younger than b and, of one age, in no higher slot. -/
def Precedes (a b : Thread) : Prop := b.age < a.age ∨ b.age = a.age ∧ a.slot ≤ b.slot

theorem Precedes.refl (a : Thread) : Precedes a a := .inr ⟨rfl, Nat.le_refl _⟩

theorem Precedes.trans {a b c : Thread} (h : Precedes a b) (k : Precedes b c) : Precedes a c := by
  unfold Precedes at *; omega

theorem precedes_of_prefers {a b : Thread} (h : prefers a b = true) : Precedes a b := by
  simp only [prefers, Bool.or_eq_true, Bool.and_eq_true, decide_eq_true_eq, beq_iff_eq] at h
  unfold Precedes; omega

theorem precedes_of_not_prefers {a b : Thread} (h : ¬prefers a b = true) : Precedes b a := by
  simp only [prefers, Bool.or_eq_true, Bool.and_eq_true, decide_eq_true_eq, beq_iff_eq] at h
  unfold Precedes; omega

theorem preferred_isSome {l : List Thread} (h : l ≠ []) : ∃ t, preferred l = some t := by
  cases l with
  | nil => exact absurd rfl h
  | cons a l =>
    unfold preferred
    split
    · exact ⟨_, rfl⟩
    · split <;> exact ⟨_, rfl⟩

theorem preferred_spec {l : List Thread} : ∀ {t : Thread}, preferred l = some t → t ∈ l ∧ ∀ y ∈ l, Precedes t y := by
  induction l with
  | nil => exact fun h => nomatch h
  | cons a l ih =>
    intro t h
    unfold preferred at h
    split at h
    · rename_i hnone
      obtain rfl := Option.some.inj h
      have hl : l = [] := by
        by_contra hl
        obtain ⟨u, hu⟩ := preferred_isSome hl
        rw [hu] at hnone
        exact nomatch hnone
      subst hl
      exact ⟨List.mem_cons_self, fun y hy => by rw [List.mem_singleton.mp hy]; exact .refl _⟩
    · rename_i u hu
      obtain ⟨hmem, hfirst⟩ := ih hu
      split at h
      · rename_i hp
        obtain rfl := Option.some.inj h
        refine ⟨List.mem_cons_of_mem _ hmem, fun y hy => ?_⟩
        rcases List.mem_cons.mp hy with rfl | hy
        · exact precedes_of_prefers hp
        · exact hfirst y hy
      · rename_i hp
        obtain rfl := Option.some.inj h
        refine ⟨List.mem_cons_self, fun y hy => ?_⟩
        rcases List.mem_cons.mp hy with rfl | hy
        · exact .refl _
        · exact (precedes_of_not_prefers hp).trans (hfirst y hy)

theorem mem_of_mem_sheafWith {rs : List Thread} {t0 t : Thread} (h : t ∈ sheafWith rs t0) : t ∈ rs := by
  obtain ⟨l, -, hl⟩ := List.mem_filterMap.mp h
  split at hl
  · exact nomatch hl
  · exact List.mem_of_mem_filter (preferred_spec hl).1

/-! ## PICK (R159, R161) -/

/-- The state in which a pick takes place: of the next tick, where this one has no place for it (log entry 5). -/
def pickState (s : State) (core : Nat) : State := if tickFull s core then tickUp s else s

/-- The ready threads of a core that no pick of this tick has taken. -/
def pickReady (s : State) (core : Nat) : List Thread := s.threads.filter (fun t => t.core == core && !t.picked && ready s t)

/-- Those of some ready threads that can issue. -/
def issuable (s : State) (core : Nat) (rs : List Thread) : List Thread := rs.filter (fun t => (canIssue s core rs t).isSome)

/-- What a pick of the threads `out` among the ready threads `rs` does to a thread (R161). -/
def pickAges (rs : List Thread) (out : List TRef) (t : Thread) : Thread :=
  if out.contains t.ref then { t with age := 0, picked := true }
  else if rs.any (fun x => x.ref == t.ref) then { t with age := t.age + 1 } else t

@[simp] theorem pickAges_ref (rs : List Thread) (out : List TRef) (t : Thread) : (pickAges rs out t).ref = t.ref := by
  unfold pickAges; split
  · rfl
  · split <;> rfl

theorem pickAges_of_mem {rs : List Thread} {out : List TRef} {t : Thread} (h : t.ref ∈ out) :
    pickAges rs out t = { t with age := 0, picked := true } := by
  rw [pickAges, if_pos (by simpa using h)]

theorem firstOf_none {s : State} {core : Nat} {rs : List Thread} (h : issuable s core rs = []) : firstOf s core rs = none := by
  unfold issuable at h
  simp only [firstOf, h, List.find?_nil]
  cases (s.core core).urgent <;> rfl

/-- The thread a pick takes: the reserved one if it can issue, else the one that precedes all others that can (R159, R161). -/
theorem firstOf_some {s : State} {core : Nat} {rs : List Thread} (h : issuable s core rs ≠ []) :
    ∃ x ∈ issuable s core rs, ∃ p f, firstOf s core rs = some (x, p, f) ∧ canIssue s core rs x = some (p, f) ∧
      (∀ u, (s.core core).urgent = some u → (∃ y ∈ issuable s core rs, y.ref = u) → x.ref = u) ∧
      ((∀ u, (s.core core).urgent = some u → ∀ y ∈ issuable s core rs, y.ref ≠ u) → ∀ y ∈ issuable s core rs, Precedes x y) := by
  have pipe {x : Thread} (hx : x ∈ issuable s core rs) : ∃ p f, canIssue s core rs x = some (p, f) := by
    obtain ⟨⟨p, f⟩, hpf⟩ := Option.isSome_iff_exists.mp (List.mem_filter.mp hx).2
    exact ⟨p, f, hpf⟩
  cases hu : (s.core core).urgent.bind (fun u => (issuable s core rs).find? (fun t => t.ref == u)) with
  | some x =>
    obtain ⟨u, hurg, hfind⟩ := Option.bind_eq_some_iff.mp hu
    have hx := List.mem_of_find?_eq_some hfind
    have href : x.ref = u := by simpa using List.find?_some hfind
    obtain ⟨p, f, hpf⟩ := pipe hx
    refine ⟨x, hx, p, f, ?_, hpf, ?_, ?_⟩
    · simp only [issuable] at hu
      simp only [firstOf, hu, Option.bind_some, hpf, Option.map_some]
    · intro v hv _
      rw [hurg] at hv
      exact href.trans (Option.some.inj hv)
    · exact fun hno => absurd href (hno u hurg x hx)
  | none =>
    obtain ⟨x, hpref⟩ := preferred_isSome h
    obtain ⟨hx, hfirst⟩ := preferred_spec hpref
    obtain ⟨p, f, hpf⟩ := pipe hx
    refine ⟨x, hx, p, f, ?_, hpf, ?_, fun _ => hfirst⟩
    · simp only [issuable] at hu hpref
      simp only [firstOf, hu, hpref, Option.bind_some, hpf, Option.map_some]
    · rintro v hv ⟨y, hy, hyv⟩
      rw [hv, Option.bind_some] at hu
      exact absurd hyv (by simpa using List.find?_eq_none.mp hu y hy)

/-- A pick that finds no thread selects none. -/
theorem execPick_idle {s : State} {core : Nat} (h : firstOf (pickState s core) core (pickReady (pickState s core) core) = none) :
    ∃ t, execPick core s = .next t ∧ t.tick = (pickState s core).tick ∧ t.cur = (pickState s core).cur := by
  simp only [pickState, pickReady] at h ⊢
  simp only [execPick, h]
  exact ⟨_, rfl, by simp, by simp⟩

theorem selectNext_cons {s : State} {r : TRef} {x : Thread} (h : s.threads.find? (fun t => t.ref == r) = some x) (rs : List TRef) :
    selectNext (r :: rs) s = { s with cur := x, sheaf := rs, threads := s.threads.filter (fun x => x.ref != r) } := by
  simp only [selectNext, h]

/-- The first of the threads that a pick takes is selected, its age 0. -/
theorem selectNext_pickAges {s : State} {rs : List Thread} {r : TRef} {out : List TRef} (hr : ∃ y ∈ s.threads, y.ref = r) :
    ∃ t, selectNext (r :: out) { s with threads := s.threads.map (pickAges rs (r :: out)) } = t ∧ t.tick = s.tick ∧
      t.cur.ref = r ∧ t.cur.age = 0 ∧ t.cur.picked = true := by
  obtain ⟨y, hy, hyr⟩ := hr
  have hsome : (s.threads.find? (fun t => t.ref == r)).isSome = true := List.find?_isSome.mpr ⟨y, hy, by simp [hyr]⟩
  obtain ⟨x, hx⟩ := Option.isSome_iff_exists.mp hsome
  have hxr : x.ref = r := by simpa using List.find?_some hx
  have hfind : (s.threads.map (pickAges rs (r :: out))).find? (fun t => t.ref == r) = some (pickAges rs (r :: out) x) := by
    rw [List.find?_map]
    have : ((fun t : Thread => t.ref == r) ∘ pickAges rs (r :: out)) = fun t => t.ref == r := by funext t; simp
    rw [this, hx]; rfl
  refine ⟨_, selectNext_cons hfind out, rfl, ?_⟩
  rw [pickAges_of_mem (by simp [hxr])]
  exact ⟨hxr, rfl, rfl⟩

/-- A pick that finds a thread marks its core's pick, ages the ready threads and selects the first of the sheaf (R159, R161). -/
theorem execPick_eq {s : State} {core : Nat} {x : Thread} {p : Pipe} {f : Fetched}
    (h : firstOf (pickState s core) core (pickReady (pickState s core) core) = some (x, p, f)) :
    ∃ s1 : State, s1.threads = (pickState s core).threads ∧ s1.tick = (pickState s core).tick ∧
      execPick core s = .next (selectNext ((sheafOrder f.1 (x :: sheafWith (pickReady (pickState s core) core) x)).map (·.ref))
        { s1 with threads := s1.threads.map (pickAges (pickReady (pickState s core) core)
          ((sheafOrder f.1 (x :: sheafWith (pickReady (pickState s core) core) x)).map (·.ref))) }) := by
  simp only [pickState, pickReady] at h ⊢
  simp only [execPick, h]
  exact ⟨_, by simp only [State.onCore_threads], by simp only [State.onCore_tick], rfl⟩

/-- The thread that a pick selects is the first of its sheaf, its age 0 (R159, R161). -/
theorem execPick_takes {s : State} {core : Nat} {x : Thread} {p : Pipe} {f : Fetched} (hx : x ∈ pickReady (pickState s core) core)
    (h : firstOf (pickState s core) core (pickReady (pickState s core) core) = some (x, p, f)) :
    ∃ t, execPick core s = .next t ∧ t.tick = (pickState s core).tick ∧
      (sheafOrder f.1 (x :: sheafWith (pickReady (pickState s core) core) x)).head?.map (·.ref) = some t.cur.ref ∧
      t.cur.age = 0 ∧ t.cur.picked = true := by
  obtain ⟨s1, hthreads, htick, hexec⟩ := execPick_eq h
  have hsheaf {y : Thread} (hy : y ∈ sheafOrder f.1 (x :: sheafWith (pickReady (pickState s core) core) x)) : y ∈ s1.threads := by
    rw [hthreads]
    rcases List.mem_cons.mp (mem_sortBy.mp hy) with rfl | hy
    · exact List.mem_of_mem_filter hx
    · exact List.mem_of_mem_filter (mem_of_mem_sheafWith hy)
  obtain ⟨y, ys, hys⟩ : ∃ y ys, sheafOrder f.1 (x :: sheafWith (pickReady (pickState s core) core) x) = y :: ys :=
    List.exists_cons_of_ne_nil (List.ne_nil_of_mem (mem_sortBy.mpr List.mem_cons_self))
  rw [hys] at hsheaf hexec ⊢
  obtain ⟨t, hsel, ht, href, hage, hpick⟩ := selectNext_pickAges (rs := pickReady (pickState s core) core) (out := ys.map (·.ref))
    ⟨y, hsheaf List.mem_cons_self, rfl⟩
  rw [List.map_cons, hsel] at hexec
  exact ⟨t, hexec, ht.trans htick, by rw [href]; rfl, hage, hpick⟩

/-- AGE_CAP of a ready thread of full age reserves its pipe (R161). -/
theorem execAgeCap_reserves {s : State} {r : TRef} {x : Thread} (hx : s.threads.find? (fun y => y.ref == r) = some x)
    (hage : Config.ageCap ≤ x.age) (hready : ready s x = true) (hu : (s.core x.core).urgent = none) :
    ∃ t, execAgeCap r s = .next t ∧ (t.core x.core).urgent = some r := by
  refine ⟨s.onCore x.core (fun c => { c with urgent := some r }), by simp [execAgeCap, hx, due, hage, hready, hu], ?_⟩
  rw [State.core_onCore s x.core (fun c => { c with urgent := some r }) (fun _ => rfl), if_pos rfl]

/-! ## REGROUP_RELEASE (R163) -/

theorem thread?_of_mem_heldAt {s : State} {w : Nat} {target : W64} {h : TRef × Nat} (hh : h ∈ heldAt s w target) :
    h.1 ≠ .none ∧ ∃ x, s.thread? h.1 = some x := by
  obtain ⟨t, ht, hw⟩ := List.mem_filterMap.mp hh
  obtain ⟨hall, hlive⟩ := List.mem_filter.mp ht
  have hne : t.ref ≠ .none := by
    intro e
    simp [isMember, e] at hlive
  split at hw
  · split at hw
    · obtain rfl := Option.some.inj hw
      exact ⟨hne, State.thread?_of_mem_all hall hne⟩
    · exact nomatch hw
  · exact nomatch hw

theorem execRegroupRelease_releases {s : State} {w : Nat} {target : W64} (hne : heldAt s w target ≠ [])
    (hdue : (least ((heldAt s w target).map (·.2))).getD s.tick + (((s.wg? w).bind s.lrecOf).map (·.regroup)).getD 0 ≤ s.tick ∨
      allGathered s w = true) :
    ∃ t, execRegroupRelease w target s = .next t ∧ ∀ h ∈ heldAt s w target, ∃ u, t.thread? h.1 = some u ∧ u.wait = .none := by
  have hgo : (heldAt s w target != [] && (decide ((least ((heldAt s w target).map (·.2))).getD s.tick +
      (((s.wg? w).bind s.lrecOf).map (·.regroup)).getD 0 ≤ s.tick) || allGathered s w)) = true := by
    simpa [hne] using hdue
  refine ⟨_, by rw [execRegroupRelease, due]; exact if_pos hgo, fun h hh => ?_⟩
  obtain ⟨hname, x, hx⟩ := thread?_of_mem_heldAt hh
  refine ⟨{ x with wait := .none }, ?_, rfl⟩
  rw [State.thread?_foldl_onThread (fun h : TRef × Nat => h.1) (f := fun t => { t with wait := .none }) (fun _ => rfl) (fun _ => rfl) hname,
    if_pos (List.mem_map_of_mem hh), hx]
  rfl

/-! ## INSTRUCTION_FETCH (R14, R194) -/

theorem xlate_threads (s : State) (core cid va kind : Nat) : (xlate s core cid va kind).2.threads = s.threads := by
  rw [(xlate_only s core cid va kind).state]

@[simp] theorem State.take_threads (s : State) (key n : Nat) : (s.take key n).2.threads = s.threads := by
  unfold State.take; split <;> rfl

theorem fetchGlobal_threads (s : State) (t : Thread) (va : Nat) : (fetchGlobal s t va).2.threads = s.threads := by
  have hx := xlate_threads s t.core t.cid va 4
  unfold fetchGlobal
  dsimp only
  split
  · rfl
  split
  · rfl
  split
  all_goals rename_i hk; rw [hk] at hx
  iterate 4 exact hx
  split
  · exact hx
  · rw [State.onCore_threads, State.take_threads]; exact hx

theorem fetchWord_threads (s : State) (t : Thread) (va : Nat) : (fetchWord s t va).2.threads = s.threads := by
  unfold fetchWord
  dsimp only
  split
  · rfl
  split
  · split <;> rfl
  all_goals
    split
    · rfl
    · exact fetchGlobal_threads s t va

theorem fetchWords_threads (t : Thread) (n : Nat) : ∀ (va : Nat) (s : State), (fetchWords t va n s).2.threads = s.threads := by
  induction n with
  | zero => exact fun _ _ => rfl
  | succ n ih =>
    intro va s
    have hw := fetchWord_threads s t va
    unfold fetchWords
    split
    · rename_i w s' hk
      have hws := ih ((va + 4) % 2 ^ 64) s'
      rw [hk] at hw
      split
      all_goals rename_i hks; rw [hks] at hws; exact hws.trans hw
    all_goals rename_i hk; rw [hk] at hw; exact hw

/-- A fetch brings words into the instruction cache and leaves every thread as it is. -/
theorem fetchInstr_threads (s : State) (t : Thread) : (fetchInstr s t).2.threads = s.threads := by
  have main := fetchWords_threads t 1 t.r.pc.toNat s
  unfold fetchInstr
  dsimp only
  split
  · rename_i ws s1 h1
    rw [h1] at main
    have ctl := (fetchWords_threads t (if hasCtl (ws.headD 0) then 2 else 1) t.r.pc.toNat s1).trans main
    split
    · rename_i ws2 s2 h2
      rw [h2] at ctl
      split
      · exact ctl
      · rename_i row _
        have all := (fetchWords_threads t (rowLen row) t.r.pc.toNat s2).trans ctl
        split
        all_goals rename_i h3; rw [h3] at all; exact all
    · rename_i h2
      rw [h2] at ctl
      split <;> exact ctl
  all_goals rename_i h1; rw [h1] at main; exact main

theorem execInstructionFetch_ok {s t : State} {r : TRef} {x : Thread} {f : Fetched} (hx : s.threads.find? (fun y => y.ref == r) = some x)
    (hex : x.exited = false) (hw : x.wait = .none) (hh : x.halted = false) (h : fetchInstr (iDrop s x) x = (.ok f, t)) :
    execInstructionFetch r s = .next t ∧ t.threads = s.threads := by
  have hthreads := fetchInstr_threads (iDrop s x) x
  rw [h] at hthreads
  refine ⟨by simp [execInstructionFetch, hx, due, hex, hw, hh, h], hthreads.trans ?_⟩
  rw [iDrop, State.onCore_threads]

/-! ## RESULT_WRITEBACK (R19) -/

theorem execResultWriteback_readies {s : State} {r : TRef} {x : Thread} (hr : r ≠ .none) (hx : s.thread? r = some x) (n : RegName) :
    ∃ t u, execResultWriteback r n s = .next t ∧ t.thread? r = some u ∧ u.r = x.r ∧ u.board = x.board.filter (fun b => b.reg != n) := by
  have hon := State.thread?_onThread_self (f := fun x => { x with board := x.board.filter (fun b => b.reg != n) }) (fun _ => rfl) hr hx
  exact ⟨_, _, rfl, hon, rfl, rfl⟩

end Sys2Proof.Machine

namespace Sys2Proof
open Machine

/-- Settles O52: what a pick takes is the head of its sheaf (`execPick_takes`), and each other event is an update of one field. -/
theorem pickerEvents : Obligations.PickerEvents := by
  unfold Obligations.PickerEvents
  intro s
  refine ⟨fun core => ?_, fun r x hx hage hready hu => execAgeCap_reserves hx hage hready hu,
    fun w target hne hdue => execRegroupRelease_releases hne hdue,
    fun r x words t hx hex hw hh h => execInstructionFetch_ok hx hex hw hh h, fun r x n hr hx => ?_⟩
  · intro s1 rs can urgent
    by_cases hcan : can = []
    · obtain ⟨t, ht, htick, hcur⟩ := execPick_idle (firstOf_none (s := s1) (core := core) (rs := rs) hcan)
      exact ⟨t, ht, htick, fun _ => hcur, fun h => absurd hcan h⟩
    · obtain ⟨x, hx, p, f, hfirst, hpf, hurg, hold⟩ := firstOf_some (s := s1) (core := core) (rs := rs) hcan
      obtain ⟨t, ht, htick, hhead, hage, hpick⟩ := execPick_takes (List.mem_of_mem_filter hx) hfirst
      exact ⟨t, ht, htick, fun h => absurd h hcan, fun _ => ⟨x, hx, p, f, hpf, hurg, hold, hhead, hage, hpick⟩⟩
  · exact execResultWriteback_readies hr hx n

end Sys2Proof
end

section
/-! PROOFS. The decoder reads every encoding back: the lemmas of each constructor put together (R20-R36, R47-R60, R271); and the
worked words of the encoding. -/

namespace Sys2Proof.Laws

/-- Every encoded instruction is read back; an event has no words to read. -/
theorem roundTrip (i : Instr) : RoundTrip.Statement i := by
  cases i with
  | iadd g d a b => exact RoundTrip.iadd g d a b
  | isub g d a b => exact RoundTrip.isub g d a b
  | imul g d a b => exact RoundTrip.imul g d a b
  | imulhs g d a b => exact RoundTrip.imulhs g d a b
  | imulhn g d a b => exact RoundTrip.imulhn g d a b
  | imad g d a b => exact RoundTrip.imad g d a b
  | isad g d a b => exact RoundTrip.isad g d a b
  | imin g d a b => exact RoundTrip.imin g d a b
  | imax g d a b => exact RoundTrip.imax g d a b
  | nmin g d a b => exact RoundTrip.nmin g d a b
  | nmax g d a b => exact RoundTrip.nmax g d a b
  | and g d a b => exact RoundTrip.and g d a b
  | or g d a b => exact RoundTrip.or g d a b
  | xor g d a b => exact RoundTrip.xor g d a b
  | andn g d a b => exact RoundTrip.andn g d a b
  | shl g d a b => exact RoundTrip.shl g d a b
  | shr g d a b => exact RoundTrip.shr g d a b
  | sar g d a b => exact RoundTrip.sar g d a b
  | bfen g d a b => exact RoundTrip.bfen g d a b
  | bfes g d a b => exact RoundTrip.bfes g d a b
  | bfi g d a b => exact RoundTrip.bfi g d a b
  | prmt g d a b => exact RoundTrip.prmt g d a b
  | csel g d a b => exact RoundTrip.csel g d a b
  | mov g d a => exact RoundTrip.mov g d a
  | not g d a => exact RoundTrip.not g d a
  | ineg g d a => exact RoundTrip.ineg g d a
  | iabs g d a => exact RoundTrip.iabs g d a
  | popc g d a => exact RoundTrip.popc g d a
  | clz g d a => exact RoundTrip.clz g d a
  | ctz g d a => exact RoundTrip.ctz g d a
  | brev g d a => exact RoundTrip.brev g d a
  | bswap g d a => exact RoundTrip.bswap g d a
  | sext8 g d a => exact RoundTrip.sext8 g d a
  | sext16 g d a => exact RoundTrip.sext16 g d a
  | zext8 g d a => exact RoundTrip.zext8 g d a
  | zext16 g d a => exact RoundTrip.zext16 g d a
  | fadd g d a b => exact RoundTrip.fadd g d a b
  | fsub g d a b => exact RoundTrip.fsub g d a b
  | fmul g d a b => exact RoundTrip.fmul g d a b
  | ffma g d a b => exact RoundTrip.ffma g d a b
  | fmin g d a b => exact RoundTrip.fmin g d a b
  | fmax g d a b => exact RoundTrip.fmax g d a b
  | fscale g d a b => exact RoundTrip.fscale g d a b
  | fabs g d a => exact RoundTrip.fabs g d a
  | fneg g d a => exact RoundTrip.fneg g d a
  | frcp g d a => exact RoundTrip.frcp g d a
  | frsq g d a => exact RoundTrip.frsq g d a
  | fsqrt g d a => exact RoundTrip.fsqrt g d a
  | fexp2 g d a => exact RoundTrip.fexp2 g d a
  | flog2 g d a => exact RoundTrip.flog2 g d a
  | fsinr g d a => exact RoundTrip.fsinr g d a
  | fcosr g d a => exact RoundTrip.fcosr g d a
  | ftanh g d a => exact RoundTrip.ftanh g d a
  | fsigm g d a => exact RoundTrip.fsigm g d a
  | ffloor g d a => exact RoundTrip.ffloor g d a
  | fceil g d a => exact RoundTrip.fceil g d a
  | ftrunc g d a => exact RoundTrip.ftrunc g d a
  | frint g d a => exact RoundTrip.frint g d a
  | ffrac g d a => exact RoundTrip.ffrac g d a
  | fsat g d a => exact RoundTrip.fsat g d a
  | fclass g d a => exact RoundTrip.fclass g d a
  | hadd2 g d a b => exact RoundTrip.hadd2 g d a b
  | hmul2 g d a b => exact RoundTrip.hmul2 g d a b
  | hfma2 g d a b => exact RoundTrip.hfma2 g d a b
  | bfma2 g d a b => exact RoundTrip.bfma2 g d a b
  | hmin2 g d a b => exact RoundTrip.hmin2 g d a b
  | hmax2 g d a b => exact RoundTrip.hmax2 g d a b
  | cvtF32S32 g d a => exact RoundTrip.cvtF32S32 g d a
  | cvtF32N32 g d a => exact RoundTrip.cvtF32N32 g d a
  | cvtS32F32 g d a => exact RoundTrip.cvtS32F32 g d a
  | cvtN32F32 g d a => exact RoundTrip.cvtN32F32 g d a
  | cvtS32F32Rn g d a => exact RoundTrip.cvtS32F32Rn g d a
  | cvtF16F32 g d a => exact RoundTrip.cvtF16F32 g d a
  | cvtF32F16l g d a => exact RoundTrip.cvtF32F16l g d a
  | cvtF32F16h g d a => exact RoundTrip.cvtF32F16h g d a
  | cvtBf16F32 g d a => exact RoundTrip.cvtBf16F32 g d a
  | cvtF32Bf16l g d a => exact RoundTrip.cvtF32Bf16l g d a
  | cvtF32Bf16h g d a => exact RoundTrip.cvtF32Bf16h g d a
  | cvtE4m3F32 g d a => exact RoundTrip.cvtE4m3F32 g d a
  | cvtE5m2F32 g d a => exact RoundTrip.cvtE5m2F32 g d a
  | cvtF32E4m3 g d a => exact RoundTrip.cvtF32E4m3 g d a
  | cvtF32E5m2 g d a => exact RoundTrip.cvtF32E5m2 g d a
  | cvtLns6F32 g d a => exact RoundTrip.cvtLns6F32 g d a
  | cvtF32Lns6 g d a => exact RoundTrip.cvtF32Lns6 g d a
  | cvtS8F32 g d a => exact RoundTrip.cvtS8F32 g d a
  | cvtN8F32 g d a => exact RoundTrip.cvtN8F32 g d a
  | icmp g pd cc a b => exact RoundTrip.icmp g pd cc a b
  | ncmp g pd cc a b => exact RoundTrip.ncmp g pd cc a b
  | fcmp g pd cc a b => exact RoundTrip.fcmp g pd cc a b
  | plop g pd pa pb tt => exact RoundTrip.plop g pd pa pb tt
  | ptov g d => exact RoundTrip.ptov g d
  | vtop g a => exact RoundTrip.vtop g a
  | fld g d dep slot => exact RoundTrip.fld g d dep slot
  | fst g a dep slot => exact RoundTrip.fst g a dep slot
  | fadda g a dep slot => exact RoundTrip.fadda g a dep slot
  | ldb g t m => exact RoundTrip.ldb g t m
  | ldbs g t m => exact RoundTrip.ldbs g t m
  | ldh g t m => exact RoundTrip.ldh g t m
  | ldhs g t m => exact RoundTrip.ldhs g t m
  | ldw g t m => exact RoundTrip.ldw g t m
  | ldd g t m => exact RoundTrip.ldd g t m
  | ldq g t m => exact RoundTrip.ldq g t m
  | ldx g t m scope acq hint => exact RoundTrip.ldx g t m scope acq hint
  | stb g t m => exact RoundTrip.stb g t m
  | sth g t m => exact RoundTrip.sth g t m
  | stw g t m => exact RoundTrip.stw g t m
  | std g t m => exact RoundTrip.std g t m
  | stq g t m => exact RoundTrip.stq g t m
  | stx g t m scope rel hint => exact RoundTrip.stx g t m scope rel hint
  | atomAdd g t m oa => exact RoundTrip.atomAdd g t m oa
  | atomMin g t m oa => exact RoundTrip.atomMin g t m oa
  | atomMax g t m oa => exact RoundTrip.atomMax g t m oa
  | atomAnd g t m oa => exact RoundTrip.atomAnd g t m oa
  | atomOr g t m oa => exact RoundTrip.atomOr g t m oa
  | atomXor g t m oa => exact RoundTrip.atomXor g t m oa
  | atomExch g t m oa => exact RoundTrip.atomExch g t m oa
  | atomCas g t m oa c => exact RoundTrip.atomCas g t m oa c
  | atomIncw g t m oa => exact RoundTrip.atomIncw g t m oa
  | atomFadd g t m oa => exact RoundTrip.atomFadd g t m oa
  | atomHadd2 g t m oa => exact RoundTrip.atomHadd2 g t m oa
  | nop bits => exact RoundTrip.nop bits
  | wadd g d a b => exact RoundTrip.wadd g d a b
  | wsub g d a b => exact RoundTrip.wsub g d a b
  | wmul g d a b => exact RoundTrip.wmul g d a b
  | wmulhs g d a b => exact RoundTrip.wmulhs g d a b
  | wmulhn g d a b => exact RoundTrip.wmulhn g d a b
  | wand g d a b => exact RoundTrip.wand g d a b
  | wor g d a b => exact RoundTrip.wor g d a b
  | wxor g d a b => exact RoundTrip.wxor g d a b
  | wshl g d a b => exact RoundTrip.wshl g d a b
  | wshr g d a b => exact RoundTrip.wshr g d a b
  | wsar g d a b => exact RoundTrip.wsar g d a b
  | wmin g d a b => exact RoundTrip.wmin g d a b
  | wmax g d a b => exact RoundTrip.wmax g d a b
  | wnmin g d a b => exact RoundTrip.wnmin g d a b
  | wnmax g d a b => exact RoundTrip.wnmax g d a b
  | wcmp g pd cc a b => exact RoundTrip.wcmp g pd cc a b
  | wncmp g pd cc a b => exact RoundTrip.wncmp g pd cc a b
  | wsel g d a b => exact RoundTrip.wsel g d a b
  | wmov g d a => exact RoundTrip.wmov g d a
  | wnot g d a => exact RoundTrip.wnot g d a
  | wneg g d a => exact RoundTrip.wneg g d a
  | wabs g d a => exact RoundTrip.wabs g d a
  | wpopc g d a => exact RoundTrip.wpopc g d a
  | wclz g d a => exact RoundTrip.wclz g d a
  | wctz g d a => exact RoundTrip.wctz g d a
  | wbrev g d a => exact RoundTrip.wbrev g d a
  | wbswap g d a => exact RoundTrip.wbswap g d a
  | wsext32 g d a => exact RoundTrip.wsext32 g d a
  | wzext32 g d a => exact RoundTrip.wzext32 g d a
  | dadd g d a b => exact RoundTrip.dadd g d a b
  | dsub g d a b => exact RoundTrip.dsub g d a b
  | dmul g d a b => exact RoundTrip.dmul g d a b
  | dfma g d a b => exact RoundTrip.dfma g d a b
  | dmin g d a b => exact RoundTrip.dmin g d a b
  | dmax g d a b => exact RoundTrip.dmax g d a b
  | dabs g d a => exact RoundTrip.dabs g d a
  | dneg g d a => exact RoundTrip.dneg g d a
  | dsqrt g d a => exact RoundTrip.dsqrt g d a
  | drcp g d a => exact RoundTrip.drcp g d a
  | dfloor g d a => exact RoundTrip.dfloor g d a
  | dceil g d a => exact RoundTrip.dceil g d a
  | dtrunc g d a => exact RoundTrip.dtrunc g d a
  | drint g d a => exact RoundTrip.drint g d a
  | dclass g d a => exact RoundTrip.dclass g d a
  | dcmp g pd cc a b => exact RoundTrip.dcmp g pd cc a b
  | dcvtDS64 g d a => exact RoundTrip.dcvtDS64 g d a
  | dcvtDN64 g d a => exact RoundTrip.dcvtDN64 g d a
  | dcvtS64D g d a => exact RoundTrip.dcvtS64D g d a
  | dcvtN64D g d a => exact RoundTrip.dcvtN64D g d a
  | dcvtDF32l g d a => exact RoundTrip.dcvtDF32l g d a
  | dcvtF32D g d a => exact RoundTrip.dcvtF32D g d a
  | dcvtDS32 g d a => exact RoundTrip.dcvtDS32 g d a
  | dcvtS32D g d a => exact RoundTrip.dcvtS32D g d a
  | v2x g d a => exact RoundTrip.v2x g d a
  | v2xs g d a => exact RoundTrip.v2xs g d a
  | vp2x g d v => exact RoundTrip.vp2x g d v
  | x2v g d a => exact RoundTrip.x2v g d a
  | x2vh g d a => exact RoundTrip.x2vh g d a
  | x2vp g v a => exact RoundTrip.x2vp g v a
  | wld g t b imm => exact RoundTrip.wld g t b imm
  | wst g t b imm => exact RoundTrip.wst g t b imm
  | bra g disp => exact RoundTrip.bra g disp
  | brd g disp => exact RoundTrip.brd g disp
  | call g disp => exact RoundTrip.call g disp
  | callr g a => exact RoundTrip.callr g a
  | ret g => exact RoundTrip.ret g
  | jmp g a => exact RoundTrip.jmp g a
  | exit g => exact RoundTrip.exit g
  | yield g => exact RoundTrip.yield g
  | trap g n => exact RoundTrip.trap g n
  | tret g => exact RoundTrip.tret g
  | srd g d idx => exact RoundTrip.srd g d idx
  | swr g t idx => exact RoundTrip.swr g t idx
  | tagof g d r => exact RoundTrip.tagof g d r
  | fmtof g d r => exact RoundTrip.fmtof g d r
  | waitc g loads stores copies tiles => exact RoundTrip.waitc g loads stores copies tiles
  | fence g scope kinds => exact RoundTrip.fence g scope kinds
  | ftok g d scope kinds => exact RoundTrip.ftok g d scope kinds
  | fwait g a => exact RoundTrip.fwait g a
  | bar g cluster id cnt => exact RoundTrip.bar g cluster id cnt
  | ksetCount g k cluster a => exact RoundTrip.ksetCount g k cluster a
  | ksetMask g k cluster a => exact RoundTrip.ksetMask g k cluster a
  | ksign g k cluster a => exact RoundTrip.ksign g k cluster a
  | kxchTid g k cluster d a j => exact RoundTrip.kxchTid g k cluster d a j
  | kxchPos g k cluster d a j => exact RoundTrip.kxchPos g k cluster d a j
  | kredAddN32 g k cluster d a => exact RoundTrip.kredAddN32 g k cluster d a
  | kredAddF32 g k cluster d a => exact RoundTrip.kredAddF32 g k cluster d a
  | kredMinS32 g k cluster d a => exact RoundTrip.kredMinS32 g k cluster d a
  | kredMaxS32 g k cluster d a => exact RoundTrip.kredMaxS32 g k cluster d a
  | kredMinF32 g k cluster d a => exact RoundTrip.kredMinF32 g k cluster d a
  | kredMaxF32 g k cluster d a => exact RoundTrip.kredMaxF32 g k cluster d a
  | kredAnd g k cluster d a => exact RoundTrip.kredAnd g k cluster d a
  | kredOr g k cluster d a => exact RoundTrip.kredOr g k cluster d a
  | kredXor g k cluster d a => exact RoundTrip.kredXor g k cluster d a
  | kredNz g k cluster d a => exact RoundTrip.kredNz g k cluster d a
  | mma g xa xb xc c => exact RoundTrip.mma g xa xb xc c
  | mdrain g xa xb xc c => exact RoundTrip.mdrain g xa xb xc c
  | mzero g slot => exact RoundTrip.mzero g slot
  | mldsc g d a => exact RoundTrip.mldsc g d a
  | mstat g d slot => exact RoundTrip.mstat g d slot
  | tbinit g a c => exact RoundTrip.tbinit g a c
  | tbarrive g d a c => exact RoundTrip.tbarrive g d a c
  | tbexpect g a c => exact RoundTrip.tbexpect g a c
  | tbtest g d a c => exact RoundTrip.tbtest g d a c
  | tbwait g a p => exact RoundTrip.tbwait g a p
  | wlpush g wl v dep => exact RoundTrip.wlpush g wl v dep
  | wlpop g xa ps wl v => exact RoundTrip.wlpop g xa ps wl v
  | wltry g xa ps wl v => exact RoundTrip.wltry g xa ps wl v
  | wldone g wl => exact RoundTrip.wldone g wl
  | wlfloor g xa wl => exact RoundTrip.wlfloor g xa wl
  | wlstat g xa wl => exact RoundTrip.wlstat g xa wl
  | fenter g dep a => exact RoundTrip.fenter g dep a
  | fleave g dep => exact RoundTrip.fleave g dep
  | fopen g cluster dep a k => exact RoundTrip.fopen g cluster dep a k
  | flink g dep a => exact RoundTrip.flink g dep a
  | fhnd g d dep => exact RoundTrip.fhnd g d dep
  | fdrop g a => exact RoundTrip.fdrop g a
  | fsync g dep => exact RoundTrip.fsync g dep
  | funlink g dep => exact RoundTrip.funlink g dep
  | rcall g region argv resv argc resc => exact RoundTrip.rcall g region argv resv argc resc
  | rcallExact g region argv resv argc resc => exact RoundTrip.rcallExact g region argv resv argc resc
  | rcallSonly g region argv resv argc resc => exact RoundTrip.rcallSonly g region argv resv argc resc
  | rret g => exact RoundTrip.rret g
  | rload g xb => exact RoundTrip.rload g xb
  | rctlEvict g xa xb => exact RoundTrip.rctlEvict g xa xb
  | rctlPin g xa xb => exact RoundTrip.rctlPin g xa xb
  | rctlUnpin g xa xb => exact RoundTrip.rctlUnpin g xa xb
  | rctlFlush g xa xb => exact RoundTrip.rctlFlush g xa xb
  | rctr g xa xb => exact RoundTrip.rctr g xa xb
  | rinfo g xa xb => exact RoundTrip.rinfo g xa xb
  | collAllreduce g xa xb xc send recv ty op => exact RoundTrip.collAllreduce g xa xb xc send recv ty op
  | collReducescatter g xa xb xc send recv ty op => exact RoundTrip.collReducescatter g xa xb xc send recv ty op
  | collAllgather g xa xb xc send recv ty => exact RoundTrip.collAllgather g xa xb xc send recv ty
  | collBroadcast g xa xb xc send recv ty => exact RoundTrip.collBroadcast g xa xb xc send recv ty
  | collAlltoall g xa xb xc send recv ty => exact RoundTrip.collAlltoall g xa xb xc send recv ty
  | bkpt g => exact RoundTrip.bkpt g
  | tlbinv g a => exact RoundTrip.tlbinv g a
  | l1clean g a => exact RoundTrip.l1clean g a
  | archive g a => exact RoundTrip.archive g a
  | qlaunch g a => exact RoundTrip.qlaunch g a
  | qsignal g a => exact RoundTrip.qsignal g a
  | qwaitsig g a => exact RoundTrip.qwaitsig g a
  | qswitch g a => exact RoundTrip.qswitch g a
  | qphase g a => exact RoundTrip.qphase g a
  | qdone g => exact RoundTrip.qdone g
  | renable g a => exact RoundTrip.renable g a
  | wlcfg g a => exact RoundTrip.wlcfg g a
  | _ => exact fun _ h _ => absurd h Bool.noConfusion

/-- The words of each RCTL operation are those of the first (R271): x[XB] chooses among the four. -/
theorem decode_rctl (g : Guard) (xa xb : XReg) (l l2 : Nat) :
    decode ((encode (.rctlEvict g xa xb)).getD 0 0) l l2 = .ok (.rctlEvict g xa xb) :=
  (RoundTrip.rctlEvict g xa xb rfl rfl rfl).back [l, l2]

/-- What the encoder writes, the decoder reads: the round trip at three given words. -/
theorem decode_of_encode {i : Instr} (hi : (i.wf && !i.isEvent && !i.isRctlTwin) = true) {w l l2 : Nat} (tail : List Nat)
    (h : encode i ++ tail = [w, l, l2]) : decode w l l2 = .ok i := by
  simp only [Bool.and_eq_true, Bool.not_eq_true'] at hi
  obtain ⟨⟨hw, he⟩, ht⟩ := hi
  have back := (roundTrip i hw he ht).back tail
  rwa [h] at back

end Sys2Proof.Laws

namespace Sys2Proof

/-- Settles O4: the round trip of each constructor (`Laws.roundTrip`); RCTL's other spellings have the words of its first. -/
theorem decodeEncode : Obligations.DecodeEncode := by
  unfold Obligations.DecodeEncode
  refine ⟨fun i hw he ht tail => ?_, fun g xa xb l l2 i hi => ?_⟩
  · obtain ⟨back, len⟩ := Laws.roundTrip i hw he ht
    exact ⟨back tail, len⟩
  · have words : encode i = encode (.rctlEvict g xa xb) := by
      simp only [List.mem_cons, List.not_mem_nil, or_false] at hi
      obtain rfl | rfl | rfl := hi <;> rfl
    rw [words]
    exact Laws.decode_rctl g xa xb l l2

/-- Settles O3: the printed instructions encode to their worked words, which the round trip reads back; the faulting words are
decoded. -/
theorem decodeWords : Obligations.DecodeWords := by
  unfold Obligations.DecodeWords
  refine ⟨Laws.decode_of_encode rfl [0] rfl, Laws.decode_of_encode rfl [0, 0] rfl, Laws.decode_of_encode rfl [0, 0] rfl,
    Laws.decode_of_encode rfl [0, 0] rfl, Laws.decode_of_encode rfl [0, 0] rfl, Laws.decode_of_encode rfl [0, 0] rfl,
    Laws.decode_of_encode rfl [0] rfl, Laws.decode_of_encode rfl [0, 0] rfl, Laws.decode_of_encode rfl [] rfl,
    Laws.decode_of_encode rfl [0, 0] rfl, Laws.decode_of_encode rfl [0, 0] rfl, Laws.decode_of_encode rfl [0] rfl,
    Laws.decode_of_encode rfl [0, 0] rfl, Laws.decode_of_encode rfl [0, 0] rfl, ?refused⟩
  case refused => exact ⟨rfl, rfl, rfl, rfl, rfl, rfl, rfl, rfl, rfl⟩

end Sys2Proof
end

section
/-! PROOFS. The instructions that only move PC (R115, R116, R123, R163). -/

namespace Sys2Proof.Machine

theorem execNop_next (bits : BitVec 25) (s : State) :
    execNop bits s = .next { s with cur := { s.cur with r := { s.cur.r with pc := s.cur.r.pc + 4 } } } := rfl

section
variable {g : Guard} {s : State} (h : s.cur.r.holds g = true)
include h

theorem execBra_next (disp : BitVec 21) :
    execBra g disp s = .next { s with cur := { s.cur with r := { s.cur.r with pc := branchTarget s.cur disp } } } :=
  guarded_true h _ _

theorem execBrd_next (disp : BitVec 21) (hr : regroupOf s = 0) :
    execBrd g disp s = .next { s with cur := { s.cur with r := { s.cur.r with pc := branchTarget s.cur disp } } } := by
  rw [execBrd, guarded_true h]
  exact congrArg _ (if_pos hr)

theorem execBrd_hold (disp : BitVec 21) (hr : regroupOf s ≠ 0) :
    execBrd g disp s = .next { s with cur := { s.cur with
      r := { s.cur.r with pc := branchTarget s.cur disp }, wait := .hold (branchTarget s.cur disp) s.tick } } := by
  rw [execBrd, guarded_true h]
  exact congrArg _ (if_neg hr)

theorem execJmp_next {a : XReg} (ha : (s.cur.r.getX a).toNat % 4 = 0) :
    execJmp g a s = .next { s with cur := { s.cur with r := { s.cur.r with pc := s.cur.r.getX a } } } := by
  rw [execJmp, guarded_true h]
  exact if_neg (by rw [badTarget_false ha]; exact Bool.false_ne_true)

end

end Sys2Proof.Machine

namespace Sys2Proof
open Machine

/-- Settles O27: under a true guard each is one update of PC, and a held BRD also of what its thread waits for. -/
theorem branchesAndJumps : Obligations.BranchesAndJumps := by
  unfold Obligations.BranchesAndJumps
  intro g disp a bits s
  exact ⟨execNop_next bits s, fun h => ⟨execBra_next h disp, execBrd_next h disp, execBrd_hold h disp, execJmp_next h⟩⟩

end Sys2Proof
end

section
/-! PROOFS. A step as the execution of the decoded instruction, and the words that a fetch gives (R20-R23, R158, R159, R194). -/

namespace Sys2Proof.Machine

/-! ## Fetching words that are cached, and caching words that are not -/

theorem fetchWord_launched {t : Thread} (ht : ∀ c, t.ref ≠ .cur c) {va : Nat} (h4 : va % 4 = 0) (hva : va < 2 ^ 56) (s : State) :
    fetchWord s t va = fetchGlobal s t va := by
  have hlow : ¬72057594037927936 ≤ va := by omega
  unfold fetchWord
  rw [if_neg (by simp [h4])]
  cases hr : t.ref with
  | cur c => exact absurd hr (ht c)
  | none => exact if_neg hlow
  | thr w k => exact if_neg hlow
  | rest w k => exact if_neg hlow

theorem fetchWord_cached {s : State} {t : Thread} (ht : ∀ c, t.ref ≠ .cur c) (hrej : t.rej = none) {va : Nat} (h4 : va % 4 = 0)
    (hva : va < 2 ^ 56) {w : W32} (hw : iFind (s.core t.core) t.cid va = some w) : fetchWord s t va = (.ok w, s) := by
  rw [fetchWord_launched ht h4 hva]
  simp [fetchGlobal, hrej, hw]

/-- A word that is not cached is read at its translated place and is cached from then on. -/
theorem fetchWord_caches {s s1 : State} {t : Thread} (ht : ∀ c, t.ref ≠ .cur c) (hrej : t.rej = none) {va key : Nat} (h4 : va % 4 = 0)
    (hva : va < 2 ^ 56) (hmiss : iFind (s.core t.core) t.cid va = none) (hx : xlate s t.core t.cid va 4 = (.ok key, s1))
    (hp : s1.poisoned key 4 = false) :
    ∃ u, fetchWord s t va = (.ok (BitVec.ofNat 32 (ofBytes (s1.take key 4).1)), u) ∧
      iFind (u.core t.core) t.cid va = some (BitVec.ofNat 32 (ofBytes (s1.take key 4).1)) := by
  rw [fetchWord_launched ht h4 hva]
  refine ⟨_, by simp [fetchGlobal, hrej, hmiss, hx, hp]; rfl, ?_⟩
  rw [State.core_onCore _ _ _ (by exact fun _ => rfl), if_pos rfl]
  simp [iFind]

/-- Words that stand in the instruction cache are fetched as they stand, and nothing changes. -/
theorem fetchWords_cached {s : State} {t : Thread} (ht : ∀ c, t.ref ≠ .cur c) (hrej : t.rej = none) (ws : List W32) :
    ∀ va, va % 4 = 0 → va + 4 * ws.length ≤ 2 ^ 56 →
      (∀ k, k < ws.length → iFind (s.core t.core) t.cid (va + 4 * k) = ws[k]?) →
      fetchWords t va ws.length s = (.ok (ws.map BitVec.toNat), s) := by
  induction ws with
  | nil => exact fun _ _ _ _ => rfl
  | cons w ws ih =>
    intro va h4 hva hc
    simp only [List.length_cons] at hva hc
    have first : fetchWord s t va = (.ok w, s) := fetchWord_cached ht hrej h4 (by omega) (hc 0 (by omega))
    have next : (va + 4) % 2 ^ 64 = va + 4 := Nat.mod_eq_of_lt (by omega)
    have rest := ih (va + 4) (by omega) (by omega) fun k hk => by
      have := hc (k + 1) (by omega)
      rwa [List.getElem?_cons_succ, show va + 4 * (k + 1) = va + 4 + 4 * k by omega] at this
    simp only [List.length_cons, fetchWords, first, next, rest, List.map_cons]

/-- The k-th of some words as the decoder takes it: 0 where there is none. -/
def wordAt (ws : List W32) (k : Nat) : Nat := ((ws[k]?).map BitVec.toNat).getD 0

theorem getD_map_toNat (ws : List W32) (k : Nat) : ((ws.map BitVec.toNat)[k]?).getD 0 = wordAt ws k := by
  rw [List.getElem?_map, wordAt]

theorem wordAt_take (ws : List W32) (n k : Nat) : wordAt (ws.take n) k = if k < n then wordAt ws k else 0 := by
  unfold wordAt
  split
  · rw [List.getElem?_take_of_lt ‹_›]
  · rw [List.getElem?_take_eq_none (by omega)]; rfl

section
variable {s : State} {t : Thread} {ws : List W32} (ht : ∀ c, t.ref ≠ .cur c) (hrej : t.rej = none) (h4 : t.r.pc.toNat % 4 = 0)
  (hva : t.r.pc.toNat + 4 * ws.length ≤ 2 ^ 56)
  (hc : ∀ k, k < ws.length → iFind (s.core t.core) t.cid (t.r.pc.toNat + 4 * k) = ws[k]?)
include ht hrej h4 hva hc

theorem fetchWords_take {n : Nat} (hn : n ≤ ws.length) :
    fetchWords t t.r.pc.toNat n s = (.ok ((ws.take n).map BitVec.toNat), s) := by
  have hl : (ws.take n).length = n := List.length_take_of_le hn
  have fetched := fetchWords_cached ht hrej (ws.take n) t.r.pc.toNat h4 (by omega) fun k hk => by
    rw [List.getElem?_take_of_lt (by omega)]
    exact hc k (by omega)
  rwa [hl] at fetched

theorem fetchInstr_cached {row : Row} (hlen : ws.length = rowLen row) (hctl : (if hasCtl (wordAt ws 0) then 2 else 1) ≤ ws.length)
    (hrow : decodeRow (wordAt ws 0) (if hasCtl (wordAt ws 0) then wordAt ws 1 else 0) 0 = .ok row) :
    fetchInstr s t = (.ok (wordAt ws 0, decodeRow (wordAt ws 0) (wordAt ws 1) (wordAt ws 2)), s) := by
  have hpos : 1 ≤ ws.length := le_trans (by split <;> decide) hctl
  have main : ((ws.take 1).map BitVec.toNat).headD 0 = wordAt ws 0 := by
    rw [List.headD_eq_head?_getD, List.head?_eq_getElem?, getD_map_toNat, wordAt_take, if_pos Nat.one_pos]
  have ctl : wordAt (ws.take (if hasCtl (wordAt ws 0) then 2 else 1)) 1 = if hasCtl (wordAt ws 0) then wordAt ws 1 else 0 := by
    rw [wordAt_take]
    split <;> simp
  have all : fetchWords t t.r.pc.toNat (rowLen row) s = (.ok (ws.map BitVec.toNat), s) := by
    rw [fetchWords_take ht hrej h4 hva hc (Nat.le_of_eq hlen.symm), ← hlen, List.take_length]
  unfold fetchInstr
  simp only [fetchWords_take ht hrej h4 hva hc hpos, main, fetchWords_take ht hrej h4 hva hc hctl, getD_map_toNat, ctl, hrow, all]

end

/-! ## Issuing -/

theorem step_eq_issueCur {s : State} (hs : s.stopped = false) (hr : s.recovery = false)
    (ht : s.cfg.tickstop = 0 ∨ s.tick < s.cfg.tickstop.toNat) (hq : nextTrap s = none) (hc : s.cur.ref ≠ .none) :
    step s = match issueCur s with
      | .next t => .next (rotate t)
      | .fault f => .fault f
      | .refused r => .refused r := by
  have tick : ¬(s.cfg.tickstop != 0 && decide (s.cfg.tickstop.toNat ≤ s.tick)) = true := by
    obtain h | h := ht
    · simp [h]
    · simp [Nat.not_le.mpr h]
  unfold step
  rw [if_neg (by simp [hs, hr]), if_neg tick, hq]
  exact if_pos (bne_iff_ne.mpr hc)

theorem tryRow_eq_runRow {s : State} {w : Nat} {row : Row} (hf : rowFault s row = none) (hsp : spilledReg s s.cur row = none)
    (hcall : failedCall s.cur w row = none) (hst : stalled s.cur row = false) (hfence : fenceFull s.cur = false)
    (hb : budgetOut s s.cur = false) : tryRow w row s = runRow w row s := by
  simp [tryRow, hf, hsp, hcall, hst, hfence, hb]

theorem issueCur_eq_tryRow {s sf : State} {w : Nat} {row : Row} (ha : able s s.cur = true)
    (hf : fetchInstr (s.onCur (fun t => { t with wait := .none })) (s.onCur (fun t => { t with wait := .none })).cur = (.ok (w, .ok row), sf)) :
    issueCur s = tryRow w row sf := by
  unfold issueCur
  rw [ha]
  simp only [Bool.not_true, Bool.false_eq_true, if_false, hf]

end Sys2Proof.Machine

namespace Sys2Proof
open Machine

theorem decode_eq_ok_iff {w l l2 : Nat} {i : Instr} : decode w l l2 = .ok i ↔ ∃ row, decodeRow w l l2 = .ok row ∧ row.instr = i := by
  unfold decode
  cases decodeRow w l l2 <;> simp [Dec.map]

/-- Settles O2: the step is `runRow` of the fetched row, and a fetch gives the words of the instruction cache or caches the word at
its place. -/
theorem stepRunsDecoded : Obligations.StepRunsDecoded := by
  unfold Obligations.StepRunsDecoded
  refine ⟨?issues, ?cached, fun s s1 t va key ht hrej h4 hva hmiss hx _ hp => fetchWord_caches ht hrej h4 hva hmiss hx hp,
    fun w l l2 i => decode_eq_ok_iff⟩
  case issues =>
    intro s sf w row hs hr ht hq hc ha s0 hf hfault hsp hcall hst hfence hb
    rw [step_eq_issueCur hs hr ht hq hc, issueCur_eq_tryRow ha hf, tryRow_eq_runRow hfault hsp hcall hst hfence hb, runRow, execRow]
    cases exec row.instr (countIssue sf) <;> rfl
  case cached =>
    intro s t ws row ht hrej h4 hva hlen hc word hctl hrow
    exact fetchInstr_cached ht hrej h4 hva hc hlen hctl hrow

end Sys2Proof
end

section
/-! PROOFS. The guard of R29: what its field in the main word names, what a false one leaves of an instruction, and the codes that no
word may have there. -/

namespace Sys2Proof.Machine

/-! ## The guard field of an encoded word -/

theorem guardOf_of_fld {w : Nat} {g : Guard} (h : fld w 21 4 = encG g) : guardOf w = g := by
  unfold guardOf
  rw [h]
  cases g with
  | none => rfl
  | some n => simp [encG]

theorem fld_laneW (op : Nat) (g : Guard) {rest : Nat} (h : rest < 2097152) : fld (laneW op g rest) 21 4 = encG g := by
  have := Laws.encG_lt g
  simp only [fld, laneW]
  omega

theorem fld_groupW (op : Nat) (g : Guard) {rest : Nat} (h : rest < 2097152) : fld (groupW op g rest) 21 4 = encG g := by
  have := Laws.encG_lt g
  simp only [fld, groupW]
  omega

/-! ## What stands under a guard -/

/-- No SRD or SWR whose index is a decode fault (R16): that fault is the words', whatever the guard (R23). -/
def IndexFine (i : Instr) (s : State) : Prop := ∀ g x idx, i = .srd g x idx ∨ i = .swr g x idx → srBad s idx.toNat = false

/-- An instruction stands under `g`: the guard field of its main word names `g`, and while `g` is false its meaning is to move PC
past its words (R29). -/
structure UnderGuard (i : Instr) (g : Guard) : Prop where
  field : guardOf ((encode i).getD 0 0) = g
  skips : ∀ s, IndexFine i s → s.cur.r.holds g = false → exec i s = .next (s.adv (encode i).length)

namespace UnderGuard

section
variable {i : Instr} {g : Guard} {op n : Nat}

theorem of_fld {w : Nat} {ls : List Nat} (he : encode i = w :: ls) (hw : fld w 21 4 = encG g)
    (hx : ∀ s, IndexFine i s → ∃ k, exec i s = guarded g n s k) (hn : n = 1 + ls.length) : UnderGuard i g where
  field := by rw [he]; exact guardOf_of_fld hw
  skips s hi h := by
    obtain ⟨k, hk⟩ := hx s hi
    rw [hk, guarded_false h, he, hn, List.length_cons, Nat.add_comm]

theorem lane {rest : Nat} {ls : List Nat} (he : encode i = laneW op g rest :: ls) (hr : rest < 2097152)
    (hx : ∀ s, IndexFine i s → ∃ k, exec i s = guarded g n s k) (hn : n = 1 + ls.length) : UnderGuard i g :=
  of_fld he (fld_laneW op g hr) hx hn

theorem group {rest : Nat} {ls : List Nat} (he : encode i = groupW op g rest :: ls) (hr : rest < 2097152)
    (hx : ∀ s, IndexFine i s → ∃ k, exec i s = guarded g n s k) (hn : n = 1 + ls.length) : UnderGuard i g :=
  of_fld he (fld_groupW op g hr) hx hn

/-! ### The formats whose words hold literals or codes (R30, R33, R36, R53) -/

theorem of_LA {d : Dst8} {a : Src8} {b : Src5} (he : encode i = encLA op g d a b)
    (hx : ∀ s, IndexFine i s → ∃ k, exec i s = guarded g (1 + a.lits + b.lits) s k) : UnderGuard i g := by
  have h1 := Laws.dst8_lt d; have h2 := Laws.src8_lt a; have h3 := Laws.src5_lt b
  exact lane (he.trans rfl) (by omega) hx (by rw [List.length_append, Laws.src8_len, Laws.src5_len, Nat.add_assoc])

theorem of_LU {fn : Nat} {d : Dst8} {a : Src8} (he : encode i = encLU op fn g d a) (hf : fn < 32)
    (hx : ∀ s, IndexFine i s → ∃ k, exec i s = guarded g (1 + a.lits) s k) : UnderGuard i g := by
  have h1 := Laws.dst8_lt d; have h2 := Laws.src8_lt a
  exact lane (he.trans rfl) (by omega) hx (by rw [Laws.src8_len])

theorem of_LP {pd : PReg} {cc : Nat} {a : Src8} {b : Src5} (he : encode i = encLP op g pd cc a b) (hcc : cc < 16)
    (hx : ∀ s, IndexFine i s → ∃ k, exec i s = guarded g (1 + a.lits + b.lits) s k) : UnderGuard i g := by
  have h1 := Laws.src8_lt a; have h2 := Laws.src5_lt b
  exact lane (he.trans rfl) (by omega) hx (by rw [List.length_append, Laws.src8_len, Laws.src5_len, Nat.add_assoc])

theorem of_LF {t : Nat} {dep : Fin 8} {slot : Fin 1024} {lit : List Nat} (he : encode i = encLF op g t dep slot lit) (ht : t < 256)
    (hx : ∀ s, IndexFine i s → ∃ k, exec i s = guarded g n s k) (hn : n = 1 + lit.length) : UnderGuard i g :=
  lane (he.trans rfl) (by omega) hx hn

theorem of_LM {t : Nat} {m : MemArg} {lit : List Nat} (he : encode i = encLM op g t m lit) (ht : t < 256)
    (hx : ∀ s, IndexFine i s → ∃ k, exec i s = guarded g n s k) (hn : n = 1 + lit.length + m.lits) : UnderGuard i g := by
  have h1 := Laws.mem_lt m
  exact lane (he.trans rfl) (by omega) hx (by rw [hn, List.length_append, Laws.mem_len, Nat.add_assoc])

theorem of_LMX {t ctl : Nat} {m : MemArg} {lit : List Nat} (he : encode i = encLMX op g t m ctl lit) (ht : t < 256)
    (hx : ∀ s, IndexFine i s → ∃ k, exec i s = guarded g n s k) (hn : n = 2 + lit.length + m.lits) : UnderGuard i g := by
  have h1 := Laws.mem_lt m
  exact lane (he.trans rfl) (by omega) hx (by rw [hn, List.length_cons, List.length_append, Laws.mem_len]; omega)

theorem of_GA {d a : XReg} {b : SrcB9} (he : encode i = encGA op g d a b)
    (hx : ∀ s, IndexFine i s → ∃ k, exec i s = guarded g (1 + b.lits) s k) : UnderGuard i g := by
  have h1 := Laws.b9_lt b
  exact group (he.trans rfl) (by omega) hx (by rw [Laws.b9_len])

theorem of_GP {pd : PReg} {cc : Nat} {a : XReg} {b : SrcB7} (he : encode i = encGP op g pd cc a b) (hcc : cc < 16)
    (hx : ∀ s, IndexFine i s → ∃ k, exec i s = guarded g 1 s k) : UnderGuard i g := by
  have h1 := Laws.b7_lt b
  exact group (he.trans rfl) (by omega) hx rfl

theorem of_MVXV {fn v : Nat} {x : XReg} {lit : List Nat} (he : encode i = encMvxv fn g x v lit) (hv : v < 256) (hf : fn < 128)
    (hx : ∀ s, IndexFine i s → ∃ k, exec i s = guarded g n s k) (hn : n = 1 + lit.length) : UnderGuard i g :=
  group (he.trans rfl) (by omega) hx hn

end

end UnderGuard

theorem execSrd_guarded {g : Guard} {d : XReg} {idx : BitVec 15} {s : State} (h : srBad s idx.toNat = false) :
    execSrd g d idx s = guarded g 1 s
      (if srCurator idx.toNat && !onCurator s then trap s cPRIV 0 0
       else if idx.toNat = 32 then readTick s d
       else .next (s.onRegs (fun r => (r.setX d (srValue s idx.toNat)).adv 1))) :=
  if_neg (by rw [h]; exact Bool.false_ne_true)

theorem execSwr_guarded {g : Guard} {t : XReg} {idx : BitVec 15} {s : State} (h : srBad s idx.toNat = false) :
    execSwr g t idx s = guarded g 1 s
      (if idx.toNat = 33 ∨ idx.toNat = 34 ∨ idx.toNat = 49 then
         outside s (settled s (.next ((s.onCur (fun x => srWrite x idx.toNat (x.r.getX t))).adv 1)))
       else trap s cPRIV 0 0) :=
  if_neg (by rw [h]; exact Bool.false_ne_true)

/-- Every encoded instruction but CSEL, WSEL and NOP stands under the guard of its main word, format by format. -/
theorem underGuard (i : Instr) (he : i.isEvent = false) (hc : ∀ g d a b, i ≠ .csel g d a b) (hs : ∀ g d a b, i ≠ .wsel g d a b)
    (hn : ∀ bits, i ≠ .nop bits) : ∃ g, UnderGuard i g := by
  cases i with
  | iadd | isub | imul | imulhs | imulhn | imad | isad | imin | imax | nmin | nmax | and | or | xor | andn
  | shl | shr | sar | bfen | bfes | bfi | prmt | fadd | fsub | fmul | ffma | fmin | fmax | fscale | hadd2
  | hmul2 | hfma2 | bfma2 | hmin2 | hmax2 =>
    exact ⟨_, .of_LA rfl fun _ _ => ⟨_, rfl⟩⟩
  | csel g d a b => exact absurd rfl (hc g d a b)
  | mov | not | ineg | iabs | popc | clz | ctz | brev | bswap | sext8 | sext16 | zext8 | zext16 | fabs
  | fneg | frcp | frsq | fsqrt | fexp2 | flog2 | fsinr | fcosr | ftanh | fsigm | ffloor | fceil | ftrunc
  | frint | ffrac | fsat | fclass | cvtF32S32 | cvtF32N32 | cvtS32F32 | cvtN32F32 | cvtS32F32Rn
  | cvtF16F32 | cvtF32F16l | cvtF32F16h | cvtBf16F32 | cvtF32Bf16l | cvtF32Bf16h | cvtE4m3F32 | cvtE5m2F32
  | cvtF32E4m3 | cvtF32E5m2 | cvtLns6F32 | cvtF32Lns6 | cvtS8F32 | cvtN8F32 =>
    exact ⟨_, .of_LU rfl (by decide) fun _ _ => ⟨_, rfl⟩⟩
  | icmp | ncmp => exact ⟨_, .of_LP rfl (Laws.icond_lt _) fun _ _ => ⟨_, rfl⟩⟩
  | fcmp => exact ⟨_, .of_LP rfl (Laws.fcond_lt _) fun _ _ => ⟨_, rfl⟩⟩
  | plop g pd pa pb tt => exact ⟨_, .lane rfl (by have := tt.isLt; omega) (fun _ _ => ⟨_, rfl⟩) rfl⟩
  | ptov g d => exact ⟨_, .lane rfl (by have := Laws.dst8_lt d; omega) (fun _ _ => ⟨_, rfl⟩) rfl⟩
  | vtop g a => exact ⟨_, .lane rfl (by have := Laws.src8_lt a; omega) (fun _ _ => ⟨_, rfl⟩) (by rw [Laws.src8_len])⟩
  | fld => exact ⟨_, .of_LF rfl (Laws.dst8_lt _) (fun _ _ => ⟨_, rfl⟩) rfl⟩
  | fst | fadda => exact ⟨_, .of_LF rfl (Laws.src8_lt _) (fun _ _ => ⟨_, rfl⟩) (by rw [Laws.src8_len])⟩
  | ldb | ldbs | ldh | ldhs | ldw => exact ⟨_, .of_LM rfl (Laws.dst8_lt _) (fun _ _ => ⟨_, rfl⟩) rfl⟩
  | ldd | ldq | std | stq => exact ⟨_, .of_LM rfl (by omega) (fun _ _ => ⟨_, rfl⟩) rfl⟩
  | stb | sth | stw => exact ⟨_, .of_LM rfl (Laws.src8_lt _) (fun _ _ => ⟨_, rfl⟩) (by rw [Laws.src8_len])⟩
  | ldx => exact ⟨_, .of_LMX rfl (Laws.ldx_lt _).2 (fun _ _ => ⟨_, rfl⟩) rfl⟩
  | stx => exact ⟨_, .of_LMX rfl (Laws.stx_lt _).2 (fun _ _ => ⟨_, rfl⟩) (by rw [Laws.stx_len])⟩
  | atomAdd | atomMin | atomMax | atomAnd | atomOr | atomXor | atomExch =>
    exact ⟨_, .of_LMX rfl (Laws.atom_lt _).2 (fun _ _ => ⟨_, rfl⟩) rfl⟩
  | atomCas => exact ⟨_, .of_LMX rfl (Laws.atom_lt _).2 (fun _ _ => ⟨_, rfl⟩) (by rw [Laws.cas_len, Nat.add_right_comm])⟩
  | atomIncw | atomFadd | atomHadd2 => exact ⟨_, .of_LMX rfl (Laws.dst8_lt _) (fun _ _ => ⟨_, rfl⟩) rfl⟩
  | nop bits => exact absurd rfl (hn bits)
  | wadd | wsub | wmul | wmulhs | wmulhn | wand | wor | wxor | wshl | wshr | wsar | wmin | wmax | wnmin
  | wnmax | dadd | dsub | dmul | dfma | dmin | dmax =>
    exact ⟨_, .of_GA rfl fun _ _ => ⟨_, rfl⟩⟩
  | wsel g d a b => exact absurd rfl (hs g d a b)
  | wcmp | wncmp => exact ⟨_, .of_GP rfl (Laws.icond_lt _) fun _ _ => ⟨_, rfl⟩⟩
  | dcmp => exact ⟨_, .of_GP rfl (Laws.fcond_lt _) fun _ _ => ⟨_, rfl⟩⟩
  | wmov | wnot | wneg | wabs | wpopc | wclz | wctz | wbrev | wbswap | wsext32 | wzext32 | dabs | dneg
  | dsqrt | drcp | dfloor | dceil | dtrunc | drint | dclass | dcvtDS64 | dcvtDN64 | dcvtS64D | dcvtN64D
  | dcvtDF32l | dcvtF32D | dcvtDS32 | dcvtS32D =>
    exact ⟨_, .group rfl (by omega) (fun _ _ => ⟨_, rfl⟩) rfl⟩
  | v2x | v2xs => exact ⟨_, .of_MVXV rfl (Laws.src8_lt _) (by decide) (fun _ _ => ⟨_, rfl⟩) (by rw [Laws.src8_len])⟩
  | vp2x | x2vp => exact ⟨_, .of_MVXV rfl (by omega) (by decide) (fun _ _ => ⟨_, rfl⟩) rfl⟩
  | x2v | x2vh => exact ⟨_, .of_MVXV rfl (Laws.dst8_lt _) (by decide) (fun _ _ => ⟨_, rfl⟩) rfl⟩
  | callr | jmp | fwait | ret | exit | yield | tret | mzero | mldsc | mstat | tbwait | mma | mdrain
  | wlpush | wlpop | wltry | wldone | wlfloor | wlstat | fenter | fleave | flink | fhnd | fdrop | fsync
  | funlink | rcall | rcallExact | rcallSonly | rret | rload | rctlEvict | rctlPin | rctlUnpin | rctlFlush
  | rctr | rinfo | collAllreduce | collReducescatter | collAllgather | collBroadcast | collAlltoall | bkpt
  | tlbinv | l1clean | archive | qlaunch | qsignal | qwaitsig | qswitch | qphase | qdone | renable | wlcfg =>
    exact ⟨_, .group rfl (by omega) (fun _ _ => ⟨_, rfl⟩) rfl⟩
  | kxchTid | kxchPos =>
    exact ⟨_, .group rfl (by decide) (fun _ _ => ⟨_, rfl⟩) (by simp only [List.length_cons, List.length_append, Laws.src8_len]; omega)⟩
  | kredAddN32 | kredAddF32 | kredMinS32 | kredMaxS32 | kredMinF32 | kredMaxF32 | kredAnd | kredOr
  | kredXor | kredNz =>
    exact ⟨_, .group rfl (by decide) (fun _ _ => ⟨_, rfl⟩) (by rw [List.length_cons, Laws.src8_len]; omega)⟩
  | wld g t b imm | wst g t b imm => exact ⟨_, .group rfl (by have := imm.isLt; omega) (fun _ _ => ⟨_, rfl⟩) rfl⟩
  | bra g disp | brd g disp | call g disp => exact ⟨_, .group rfl (by have := disp.isLt; omega) (fun _ _ => ⟨_, rfl⟩) rfl⟩
  | trap g n => exact ⟨_, .group rfl (by have := n.isLt; omega) (fun _ _ => ⟨_, rfl⟩) rfl⟩
  | tagof g d r | fmtof g d r => exact ⟨_, .group rfl (by have := Laws.vx_lt r; omega) (fun _ _ => ⟨_, rfl⟩) rfl⟩
  | waitc g loads stores copies tiles =>
    have h1 := loads.isLt; have h2 := stores.isLt; have h3 := copies.isLt; have h4 := tiles.isLt
    exact ⟨_, .group rfl (by omega) (fun _ _ => ⟨_, rfl⟩) rfl⟩
  | fence g scope kinds | ftok g d scope kinds =>
    have h1 := Laws.scope_lt scope; have h2 := kinds.isLt
    exact ⟨_, .group rfl (by omega) (fun _ _ => ⟨_, rfl⟩) rfl⟩
  | bar g cluster id cnt =>
    have h1 := Laws.b1_lt cluster; have h2 := Laws.c63_lt cnt
    exact ⟨_, .group rfl (by omega) (fun _ _ => ⟨_, rfl⟩) rfl⟩
  | ksetCount g k cluster a | ksetMask g k cluster a | ksign g k cluster a | fopen g cluster dep a k =>
    have h1 := Laws.b1_lt cluster
    exact ⟨_, .group rfl (by omega) (fun _ _ => ⟨_, rfl⟩) rfl⟩
  | tbinit g a c | tbarrive g d a c | tbexpect g a c | tbtest g d a c =>
    have h1 := Laws.c63_lt c
    exact ⟨_, .group rfl (by omega) (fun _ _ => ⟨_, rfl⟩) rfl⟩
  | srd g d idx =>
    have h1 := idx.isLt
    exact ⟨_, .group rfl (by omega) (fun _ h => ⟨_, execSrd_guarded (h g d idx (.inl rfl))⟩) rfl⟩
  | swr g t idx =>
    have h1 := idx.isLt
    exact ⟨_, .group rfl (by omega) (fun _ h => ⟨_, execSwr_guarded (h g t idx (.inr rfl))⟩) rfl⟩
  | _ => exact absurd he Bool.noConfusion

end Sys2Proof.Machine
end

section
/-! PROOFS. No word names a guard beyond p11 (R29, R61): every decoder refuses a guard field of 13 to 15, with reason 3 or a lower
one. -/

namespace Sys2Proof

/-- A refusal with the reason of a guard field beyond 12, or a lower one (R61). -/
def Dec.LowRefusal {α : Type} : Dec α → Prop
  | .ok _ => False
  | .err r => r ≤ 3

namespace Dec.LowRefusal
variable {α β : Type}

theorem iff_err {d : Dec α} : d.LowRefusal ↔ ∃ r, d = .err r ∧ r ≤ 3 := by
  cases d <;> simp [LowRefusal]

@[simp] theorem of_ok (a : α) : ¬(Dec.ok a).LowRefusal := id

@[simp] theorem of_err (r : Nat) : (Dec.err r : Dec α).LowRefusal ↔ r ≤ 3 := Iff.rfl

@[simp] theorem of_ap (f : Dec (α → β)) (x : Dec α) : (f.ap x).LowRefusal ↔ f.LowRefusal ∨ x.LowRefusal := by
  cases f <;> cases x <;> simp [Dec.ap]

@[simp] theorem of_need (x : Dec α) (c : Bool) (r : Nat) : (x.need c r).LowRefusal ↔ x.LowRefusal ∨ c = false ∧ r ≤ 3 := by
  cases c <;> cases x <;> simp [Dec.need]

@[simp] theorem of_map (f : α → β) (x : Dec α) : (x.map f).LowRefusal ↔ x.LowRefusal := by
  cases x <;> simp [Dec.map]

@[simp] theorem of_xCtl (x : Dec α) (c : Nat) : (x.xCtl c).LowRefusal ↔ x.LowRefusal ∨ (fld c 28 4 == 0) = false := by
  simp [Dec.xCtl]

theorem of_wl {x : Dec α} (h : x.LowRefusal) (w c : Nat) : (x.wl w c).LowRefusal := by
  simp [Dec.wl, h]

theorem of_guardF {f : Nat} (h : 13 ≤ f) : (guardF f).LowRefusal := by
  unfold guardF
  rw [if_neg (by omega), if_neg (by omega)]
  exact Nat.le_refl 3

end Dec.LowRefusal

/-! ## The decoders of the formats (R30-R36, R53-R59) -/

section
variable {w : Nat} (h : (guardF (fld w 21 4)).LowRefusal)
include h

theorem decLA_refuses (c : Guard → Dst8 → Src8 → Src5 → Instr) (l : Nat) : (decLA c w l).LowRefusal := by simp [decLA, h]
theorem decLU_refuses (c : Guard → Dst8 → Src8 → Instr) (l : Nat) : (decLU c w l).LowRefusal := by simp [decLU, h]
theorem decLPI_refuses (c : Guard → PReg → ICond → Src8 → Src5 → Instr) (l : Nat) : (decLPI c w l).LowRefusal := by simp [decLPI, h]
theorem decLPF_refuses (c : Guard → PReg → FCond → Src8 → Src5 → Instr) (l : Nat) : (decLPF c w l).LowRefusal := by simp [decLPF, h]
theorem decLoad_refuses (c : Guard → Dst8 → MemArg → Instr) (l : Nat) : (decLoad c w l).LowRefusal := by simp [decLoad, h]
theorem decStore_refuses (c : Guard → Src8 → MemArg → Instr) (l : Nat) : (decStore c w l).LowRefusal := by simp [decStore, h]
theorem decMulti_refuses (vf : Nat → Dec VReg) (c : Guard → VReg → MemArg → Instr) (l : Nat) : (decMulti vf c w l).LowRefusal := by
  simp [decMulti, h]
theorem decLdx_refuses (c l : Nat) : (decLdx w c l).LowRefusal := by simp [decLdx, h]
theorem decStx_refuses (c l : Nat) : (decStx w c l).LowRefusal := by simp [decStx, h]
theorem decAtom_refuses (k : Guard → AtomT → MemArg → OrdArg → Instr) (n c l : Nat) : (decAtom k n w c l).LowRefusal := by
  simp [decAtom, h]
theorem decAtom1_refuses (k : Guard → Dst8 → MemArg → OrdArg → Instr) (n c l : Nat) : (decAtom1 k n w c l).LowRefusal := by
  simp [decAtom1, h]
theorem decCas_refuses (c l : Nat) : (decCas w c l).LowRefusal := by simp [decCas, h]
theorem decFld_refuses : (decFld w).LowRefusal := by simp [decFld, h]
theorem decFst_refuses (c : Guard → Src8 → Fin 8 → Fin 1024 → Instr) (l : Nat) : (decFst c w l).LowRefusal := by simp [decFst, h]
theorem decPlop_refuses : (decPlop w).LowRefusal := by simp [decPlop, h]
theorem decPtov_refuses : (decPtov w).LowRefusal := by simp [decPtov, h]
theorem decVtop_refuses (l : Nat) : (decVtop w l).LowRefusal := by simp [decVtop, h]
theorem decGA_refuses (c : Guard → XReg → XReg → SrcB9 → Instr) (l l2 : Nat) : (decGA c w l l2).LowRefusal := by simp [decGA, h]
theorem decGU_refuses (c : Guard → XReg → XReg → Instr) : (decGU c w).LowRefusal := by simp [decGU, h]
theorem decGPI_refuses (c : Guard → PReg → ICond → XReg → SrcB7 → Instr) : (decGPI c w).LowRefusal := by simp [decGPI, h]
theorem decGPF_refuses (c : Guard → PReg → FCond → XReg → SrcB7 → Instr) : (decGPF c w).LowRefusal := by simp [decGPF, h]
theorem decGM_refuses (c : Guard → XReg → XReg → BitVec 9 → Instr) : (decGM c w).LowRefusal := by simp [decGM, h]
theorem decGB_refuses (c : Guard → BitVec 21 → Instr) : (decGB c w).LowRefusal := by simp [decGB, h]
theorem decA_refuses (c : Guard → XReg → Instr) : (decA c w).LowRefusal := by simp [decA, h]
theorem decG0_refuses (c : Guard → Instr) : (decG0 c w).LowRefusal := by simp [decG0, h]
theorem decTrap_refuses : (decTrap w).LowRefusal := by simp [decTrap, h]
theorem decGS_refuses (c : Guard → XReg → BitVec 15 → Instr) : (decGS c w).LowRefusal := by simp [decGS, h]
theorem decWaitc_refuses : (decWaitc w).LowRefusal := by simp [decWaitc, h]
theorem decFence_refuses : (decFence w).LowRefusal := by simp [decFence, h]
theorem decFtok_refuses : (decFtok w).LowRefusal := by simp [decFtok, h]
theorem decBar_refuses : (decBar w).LowRefusal := by simp [decBar, h]
theorem decKset_refuses : (decKset w).LowRefusal := by simp [decKset, h]
theorem decKsign_refuses : (decKsign w).LowRefusal := by simp [decKsign, h]
theorem decMma_refuses (c : Nat) : (decMma w c).LowRefusal := by simp [decMma, h]
theorem decMdrain_refuses (c : Nat) : (decMdrain w c).LowRefusal := by simp [decMdrain, h]
theorem decTbwait_refuses : (decTbwait w).LowRefusal := by simp [decTbwait, h]

/-! ### Decoders that choose by a function field (R49, R51, R53, R56-R59) -/

theorem decodeAtom_refuses (c l : Nat) : (decodeAtom w c l).LowRefusal := by
  unfold decodeAtom
  split <;> simp [decAtom_refuses h, decAtom1_refuses h, decCas_refuses h]

theorem decIunary_refuses (l : Nat) : (decIunary w l).LowRefusal := by
  unfold decIunary
  split <;> simp [decLU_refuses h]

theorem decFunary_refuses (l : Nat) : (decFunary w l).LowRefusal := by
  unfold decFunary
  split <;> simp [decLU_refuses h]

theorem decCvt_refuses (l : Nat) : (decCvt w l).LowRefusal := by
  unfold decCvt
  split <;> simp [decLU_refuses h]

theorem decWunary_refuses : (decWunary w).LowRefusal := by
  unfold decWunary
  split <;> simp [decGU_refuses h]

theorem decDunary_refuses : (decDunary w).LowRefusal := by
  unfold decDunary
  split <;> simp [decGU_refuses h]

theorem decDcvt_refuses : (decDcvt w).LowRefusal := by
  unfold decDcvt
  split <;> simp [decGU_refuses h]

theorem decShape_refuses : (decShape w).LowRefusal := by
  unfold decShape
  dsimp only
  split <;> simp [h]

theorem decMvxv_refuses (l : Nat) : (decMvxv w l).LowRefusal := by
  unfold decMvxv
  dsimp only
  split <;> simp [h]

theorem decKxch_refuses (c l : Nat) : (decKxch w c l).LowRefusal := by
  unfold decKxch
  dsimp only
  split <;> simp [h]

theorem decKred_refuses (c l : Nat) : (decKred w c l).LowRefusal := by
  unfold decKred
  dsimp only
  split <;> simp [h]

theorem decMctl_refuses : (decMctl w).LowRefusal := by
  unfold decMctl
  dsimp only
  split <;> simp [h]

theorem decTbar_refuses : (decTbar w).LowRefusal := by
  unfold decTbar
  dsimp only
  split <;> simp [h]

theorem decWlist_refuses (c : Nat) : (decWlist w c).LowRefusal := by
  unfold decWlist
  dsimp only
  split <;> simp [Dec.LowRefusal.of_wl, h]

theorem decFrame_refuses : (decFrame w).LowRefusal := by
  unfold decFrame
  dsimp only
  split <;> simp [h]

theorem decRcall_refuses (c : Nat) : (decRcall w c).LowRefusal := by
  unfold decRcall
  dsimp only
  split <;> simp [h]

theorem decRsur_refuses (c : Nat) : (decRsur w c).LowRefusal := by
  unfold decRsur
  dsimp only
  split <;> simp [decRcall_refuses h, h]

theorem decColl_refuses (c : Nat) : (decColl w c).LowRefusal := by
  unfold decColl
  dsimp only
  split <;> simp [h]

theorem decSys_refuses : (decSys w).LowRefusal := by
  unfold decSys
  dsimp only
  split <;> simp [h]

/-! ### The two sets (R47, R48) -/

theorem decodeLane_refuses (l l2 : Nat) : (decodeLane w l l2).LowRefusal := by
  unfold decodeLane
  split
  case h_44 => split <;> simp [decPtov_refuses h, decVtop_refuses h]
  all_goals simp [decLA_refuses h, decIunary_refuses h, decFunary_refuses h, decCvt_refuses h, decLPI_refuses h, decLPF_refuses h,
    decPlop_refuses h, decFld_refuses h, decFst_refuses h, decLoad_refuses h, decMulti_refuses h, decLdx_refuses h, decStore_refuses h,
    decStx_refuses h, decodeAtom_refuses h]

/-- NOP, major 0, is the one group word without a guard field (R29, R123). -/
theorem decodeGroup_refuses (h0 : fld w 25 6 ≠ 0) (l l2 : Nat) : (decodeGroup w l l2).LowRefusal := by
  unfold decodeGroup
  split
  case h_1 nop => exact absurd nop h0
  all_goals simp [decGA_refuses h, decGPI_refuses h, decGPF_refuses h, decWunary_refuses h, decDunary_refuses h, decDcvt_refuses h,
    decMvxv_refuses h, decGM_refuses h, decGB_refuses h, decA_refuses h, decG0_refuses h, decTrap_refuses h, decGS_refuses h,
    decShape_refuses h, decWaitc_refuses h, decFence_refuses h, decFtok_refuses h, decBar_refuses h, decKset_refuses h,
    decKsign_refuses h, decKxch_refuses h, decKred_refuses h, decMma_refuses h, decMdrain_refuses h, decMctl_refuses h,
    decTbar_refuses h, decTbwait_refuses h, decWlist_refuses h, decFrame_refuses h, decRsur_refuses h, decColl_refuses h,
    decSys_refuses h]

end

theorem decode_refuses {w : Nat} (h : 13 ≤ fld w 21 4) (h0 : bit w 31 = true → fld w 25 6 ≠ 0) (l l2 : Nat) :
    (decode w l l2).LowRefusal := by
  have hg := Dec.LowRefusal.of_guardF h
  unfold decode decodeRow
  split
  · rename_i hb
    simp [decodeGroup_refuses hg (h0 hb)]
  · simp [decodeLane_refuses hg]

open Machine

/-- Settles O6: each encoded instruction stands under the guard of its main word (`Machine.underGuard`), and no decoder takes a guard
field of 13 to 15 (`decode_refuses`). -/
theorem falseGuardSkips : Obligations.FalseGuardSkips := by
  unfold Obligations.FalseGuardSkips
  refine ⟨fun i s _ he hc hs hn hidx hfalse => ?_, fun w l l2 h h0 => Dec.LowRefusal.iff_err.mp (decode_refuses h h0 l l2)⟩
  obtain ⟨g, hg⟩ := underGuard i he hc hs hn
  rw [hg.field] at hfalse
  exact hg.skips s hidx hfalse

end Sys2Proof
end

section
/-! PROOFS. Taking a trap on a launched thread, and what takes one: TRAP, ILLEGAL, ALIGN (R62, R115, R119, R129, R304, R305, R306). -/

namespace Sys2Proof.Machine

/-! ## Taking a trap -/

/-- The trap registers are written, and the selected thread neither waits nor holds a rejection any more (R304). -/
def trapEntered (s : State) (c : BitVec 9) (tpc addr info : W64) : State :=
  s.onCur (fun t => { t with tcause := c, tpc, taddr := addr, tinfo := info, wait := .none, rej := none, trapped := true })

/-- Where the selected launched thread of a workgroup goes with a trap: DOUBLE, termination, or the handler (R304, R305). -/
def trapTaken (s : State) (w : Wg) (c : BitVec 9) (tpc addr info : W64) : Out :=
  let h := ((s.lrecOf w).map (·.handler)).getD 0
  let s' := trapEntered s c tpc addr info
  if s.cur.tmode then .next (terminate s' w (Report.trap cDOUBLE tpc addr (BitVec.ofNat 64 c.toNat) s.cur.tid))
  else if h = 0 then .next (terminate s' w (Report.trap c tpc addr info s.cur.tid))
  else .next (s'.onCur (fun t => { t with tmode := true, r := { t.r with pc := h } }))

theorem State.onThread_selected {s : State} {r : TRef} (h : s.cur.ref = r) (f : Thread → Thread) : s.onThread r f = s.onCur f := by
  simp [State.onThread, State.onCur, h]

theorem State.thread?_selected {s : State} {r : TRef} (h : s.cur.ref = r) (hr : r ≠ .none) : s.thread? r = some s.cur := by
  simp [State.thread?, h, hr]

section
variable {s : State} {w : Wg} {wid i : Nat} (href : s.cur.ref = .thr wid i) (hfence : s.cur.fence = none)
  (hw : s.wgOf s.cur = some w)
include href hfence hw

theorem takeTrap_launched (c : BitVec 9) (tpc addr info : W64) :
    .next (takeTrap s s.cur.ref c tpc addr info) = trapTaken s w c tpc addr info := by
  have entered : s.onThread (.thr wid i) (fun t => { t with
      tcause := c, tpc, taddr := addr, tinfo := info, wait := .none, rej := none, trapped := true }) = trapEntered s c tpc addr info :=
    State.onThread_selected href _
  have hw' : (trapEntered s c tpc addr info).wgOf s.cur = some w := hw
  have hlrec : (trapEntered s c tpc addr info).lrecOf w = s.lrecOf w := rfl
  have handled := State.onThread_selected (s := trapEntered s c tpc addr info) (r := .thr wid i) href
  simp only [takeTrap, href, State.thread?_selected href TRef.noConfusion, hfence, Option.isSome_none, Bool.false_eq_true, if_false,
    entered, hw', hlrec, handled, trapTaken]
  split
  · rfl
  · split <;> rfl

theorem trap_launched (c : BitVec 9) (addr info : W64) : trap s c addr info = trapTaken s w c s.cur.r.pc addr info :=
  takeTrap_launched href hfence hw c s.cur.r.pc addr info

end

/-! ## What takes ALIGN -/

/-- ALIGN comes before every other check of an access (R129). -/
theorem issue_misaligned {a : MReq} (h : a.va.toNat % a.size ≠ 0) (s : State) (k : State → State) :
    issue s a k = trap s cALIGN a.va (info306 0 a.kind.code) := if_pos h

theorem badTarget_true {tgt : W64} (h : tgt.toNat % 4 ≠ 0) : badTarget tgt = true := by
  simp [badTarget, h]

section
variable {g : Guard} {s : State} (hg : s.cur.r.holds g = true)
include hg

theorem plainLoad_misaligned {size : Nat} {m : MemArg} (h : (lmAddr s.cur m size).toNat % size ≠ 0) (dst : LdDst) (lrw : Bool) :
    plainLoad g dst lrw size m s = trap s cALIGN (lmAddr s.cur m size) 1 := by
  rw [plainLoad, lmAccess, guarded_true hg]
  exact issue_misaligned h s _

theorem plainStore_misaligned (hrest : s.cur.rest = none) {size : Nat} {m : MemArg} (h : (lmAddr s.cur m size).toNat % size ≠ 0)
    (data : BitVec 128) (l : Nat) : plainStore g data l size m s = trap s cALIGN (lmAddr s.cur m size) 2 := by
  rw [plainStore, guarded_true hg, outside_none hrest, lmAccess, guarded_true (g := none) rfl]
  exact issue_misaligned h s _

theorem atomAccess_misaligned (hrest : s.cur.rest = none) (hfence : s.cur.fence = none) {t : AtomT} {m : MemArg}
    (h : (lmAddr s.cur m (atomPlan s.cur t).2.1).toNat % (atomPlan s.cur t).2.1 ≠ 0) (op : AtomOp) (oa : OrdArg) (n : Nat) (cmp : W64) :
    atomAccess g op t m oa n cmp s = trap s cALIGN (lmAddr s.cur m (atomPlan s.cur t).2.1) 3 := by
  rw [atomAccess, guarded_true hg, outside_none hrest, settled_none hfence]
  exact issue_misaligned h s _

theorem execWld_misaligned {b : XReg} {imm : BitVec 9} (h : (gmAddr s.cur b imm).toNat % 8 ≠ 0) (t : XReg) :
    execWld g t b imm s = trap s cALIGN (gmAddr s.cur b imm) 1 := by
  rw [execWld, guarded_true hg]
  exact issue_misaligned h s _

theorem execJmp_misaligned {a : XReg} (h : (s.cur.r.getX a).toNat % 4 ≠ 0) :
    execJmp g a s = trap s cALIGN (s.cur.r.getX a) 4 := by
  rw [execJmp, guarded_true hg]
  exact if_pos (badTarget_true h)

/-! ## TRAP, and TRET outside trap mode -/

theorem execTrap_traps (hrest : s.cur.rest = none) (hfence : s.cur.fence = none) (n : BitVec 8) :
    execTrap g n s = .next (takeTrap s s.cur.ref (BitVec.ofNat 9 (256 + n.toNat)) (s.cur.r.pc + 4) 0 (n.setWidth 64)) := by
  rw [execTrap, guarded_true hg, outside_none hrest, settled_none hfence]

theorem execTret_illegal (hfence : s.cur.fence = none) (hm : s.cur.tmode = false) : execTret g s = trap s cILLEGAL 0 8 := by
  rw [execTret, guarded_true hg, settled_none hfence, hm]
  rfl

end

end Sys2Proof.Machine

namespace Sys2Proof
open Machine

/-- Settles O29: each form comes to `takeTrap` of the selected thread under its own registers, and there `takeTrap` is `trapTaken`. -/
theorem trapEntry : Obligations.TrapEntry := by
  unfold Obligations.TrapEntry
  intro g n d b x y imm m oa w i s hg href hrest hfence hw
  have taken := takeTrap_launched href hfence hw
  have trapped := trap_launched href hfence hw
  refine ⟨?trap, fun hm => ?illegal, fun hal => ⟨?ldw, ?stw, ?atom⟩, fun hal => ?wld, fun hal => ?jmp⟩
  case trap => exact (execTrap_traps hg hrest hfence n).trans (taken _ _ _ _)
  case illegal => exact (execTret_illegal hg hfence hm).trans (trapped _ _ _)
  case ldw => exact (plainLoad_misaligned hg hal _ _).trans (trapped _ _ _)
  case stw => exact (plainStore_misaligned hg hrest hal _ _).trans (trapped _ _ _)
  case atom => exact (atomAccess_misaligned hg hrest hfence (t := .n32 d) hal _ _ _ _).trans (trapped _ _ _)
  case wld => exact (execWld_misaligned hg hal x).trans (trapped _ _ _)
  case jmp => exact (execJmp_misaligned hg hal).trans (trapped _ _ _)

end Sys2Proof
end

section
/-! PROOFS. The entries of the matrix unit (R74, R251, R253, R256, R257, R327): what each event makes of its workgroup, and that the
engine's accesses leave the matrix queue alone. -/

namespace Sys2Proof.Machine

/-! ## Workgroups by name -/

theorem State.wg?_id {s : State} {n : Nat} {x : Wg} (h : s.wg? n = some x) : x.id = n := by
  simpa using List.find?_some h

theorem State.wg?_congr {s t : State} (h : t.wgs = s.wgs) (n : Nat) : t.wg? n = s.wg? n := by
  rw [State.wg?, State.wg?, h]

/-- What a change of one workgroup makes of a workgroup's name being looked up. -/
theorem State.wg?_onWg (s : State) {f : Wg → Wg} (hf : ∀ x, (f x).id = x.id) (m n : Nat) :
    (s.onWg m f).wg? n = if n = m then (s.wg? n).map f else s.wg? n := by
  unfold State.onWg State.wg?
  split
  · subst n
    exact find_updFirst _ _ (fun x hx => by rw [hf]; exact hx) _
  · rename_i hne
    refine find_updFirst_ne _ _ _ (fun x hx => ?_) _
    have hx' : x.id ≠ n := fun e => hne (e.symm.trans (by simpa using hx))
    simp [hf, hx']

theorem State.wg?_onWg_self {s : State} {f : Wg → Wg} (hf : ∀ x, (f x).id = x.id) {n : Nat} {x : Wg} (h : s.wg? n = some x) :
    (s.onWg n f).wg? n = some (f x) := by
  rw [State.wg?_onWg s hf, if_pos rfl, h]; rfl

theorem onHead_wg? {s : State} {n : Nat} {x : Wg} {e : MEnt} {es : List MEnt} (h : s.wg? n = some x) (hq : x.mq = e :: es)
    (f : MEnt → MEnt) : (onHead s n f).wg? n = some { x with mq := f e :: es } := by
  refine (State.wg?_onWg_self ?_ h).trans (by rw [hq])
  exact fun _ => rfl

/-! ## Accumulator slots -/

/-- A workgroup after a change of its slot i. -/
def Wg.withSlot (x : Wg) (i : Nat) (f : Acc → Acc) : Wg :=
  { x with slots := x.slots.zipIdx.map (fun a => if a.2 = i then f a.1 else a.1) }

theorem onSlot_wg? {s : State} {n : Nat} {x : Wg} (h : s.wg? n = some x) (i : Nat) (f : Acc → Acc) :
    (onSlot s n i f).wg? n = some (x.withSlot i f) :=
  State.wg?_onWg_self (f := fun x => x.withSlot i f) (fun _ => rfl) h

@[simp] theorem Wg.withSlot_mq (x : Wg) (i : Nat) (f : Acc → Acc) : (x.withSlot i f).mq = x.mq := rfl

@[simp] theorem Wg.withSlot_length (x : Wg) (i : Nat) (f : Acc → Acc) : (x.withSlot i f).slots.length = x.slots.length := by
  simp [Wg.withSlot]

theorem slotAt_withSlot {x : Wg} {j : Nat} (hj : j < x.slots.length) (i : Nat) (f : Acc → Acc) :
    slotAt (x.withSlot i f) j = if j = i then f (slotAt x j) else slotAt x j := by
  simp [slotAt, Wg.withSlot, List.getElem?_eq_getElem hj]

theorem cells_slotAt_withSlot {x : Wg} {i j : Nat} {f : Acc → Acc} (hj : j < x.slots.length) (hf : ∀ a, (f a).cells = a.cells) :
    (slotAt (x.withSlot i f) j).cells = (slotAt x j).cells := by
  rw [slotAt_withSlot hj]
  split
  · exact hf _
  · rfl

/-! ## The engine's accesses and the workgroups -/

/-- What leaves the workgroups at each element leaves them along a list. -/
theorem foldl_wgs {α : Type} {f : State → α → State} (hf : ∀ s a, (f s a).wgs = s.wgs) (l : List α) (s : State) :
    (l.foldl f s).wgs = s.wgs :=
  List.foldlRecOn (motive := fun t => t.wgs = s.wgs) l f rfl (fun t ht a _ => (hf t a).trans ht)

@[simp] theorem State.take_wgs (s : State) (key n : Nat) : (s.take key n).2.wgs = s.wgs := by
  unfold State.take; split <;> rfl

@[simp] theorem State.put_wgs (s : State) (who : TRef) (key : Nat) (bs : List Byte) : (s.put who key bs).wgs = s.wgs := by
  unfold State.put; split <;> rfl

@[simp] theorem writeBack_wgs (s : State) (core : Nat) (x : Sector) (drop : Bool) : (writeBack s core x drop).wgs = s.wgs := by
  unfold writeBack
  rw [State.onCore_wgs]
  have bytes := foldl_wgs (f := fun (s : State) i =>
      if x.dirty.getLsbD i && x.dirty != BitVec.allOnes 32 then s.put .none (32 * x.sec + i) [x.byte i] else s)
    (fun s i => by split; exacts [State.put_wgs _ _ _ _, rfl]) (List.range 32) s
  split
  · exact (State.put_wgs _ _ _ _).trans bytes
  · exact bytes

theorem flushSector_wgs (s : State) (core cid key n : Nat) : (flushSector s core cid key n).wgs = s.wgs := by
  refine foldl_wgs (fun s sec => ?_) _ s
  split
  · split
    · rfl
    · exact writeBack_wgs _ _ _ _
  · rfl

theorem l1Room_wgs (s : State) (core cid sec : Nat) (hint : Hint) : (l1Room s core cid sec hint).wgs = s.wgs := by
  unfold l1Room
  dsimp only
  split
  · rfl
  split
  · rfl
  · exact foldl_wgs (fun s x => writeBack_wgs s core x true) _ _

theorem goHome_wgs (s : State) (core cid scope key n : Nat) : (goHome s core cid scope key n).wgs = s.wgs := by
  have drained : (if scope = 6 then s.drainEgress else s).wgs = s.wgs := by split <;> rfl
  unfold goHome
  dsimp only
  split
  · exact (flushSector_wgs _ _ _ _ _).trans drained
  · exact drained

theorem l1Load_wgs (s : State) (core cid key n : Nat) : (l1Load s core cid key n).2.wgs = s.wgs :=
  foldl_wgs (fun s sec => by dsimp only; split; exacts [rfl, State.onCore_wgs _ _ _]) _ s

theorem l1Store_wgs (s : State) (who : TRef) (core cid key : Nat) (bs : List Byte) : (l1Store s who core cid key bs).wgs = s.wgs := by
  unfold l1Store
  rw [State.onCore_wgs]
  exact foldl_wgs (fun s b => State.onCore_wgs _ _ _) _ _

theorem l1Mark_wgs (s : State) (core cid sec : Nat) (hint : Hint) : (l1Mark s core cid sec hint).wgs = s.wgs := by
  unfold l1Mark
  split
  · exact State.onCore_wgs _ _ _
  · rfl

@[simp] theorem agentRead_wgs (s : State) (core cid scope : Nat) (hint : Hint) (key n : Nat) :
    (agentRead s core cid scope hint key n).2.wgs = s.wgs := by
  unfold agentRead
  split
  · exact State.take_wgs s key n
  split
  · exact (l1Mark_wgs _ _ _ _ _).trans ((l1Load_wgs _ _ _ _ _).trans (l1Room_wgs _ _ _ _ _))
  · exact goHome_wgs _ _ _ _ _ _

@[simp] theorem agentWrite_wgs (s : State) (who : TRef) (core cid scope : Nat) (hint : Hint) (key : Nat) (bs : List Byte) :
    (agentWrite s who core cid scope hint key bs).wgs = s.wgs := by
  have home : ((goHome s core cid scope key bs.length).put who key bs).wgs = s.wgs :=
    (State.put_wgs _ _ _ _).trans (goHome_wgs _ _ _ _ _ _)
  unfold agentWrite
  split
  · exact State.put_wgs _ _ _ _
  split
  · exact (l1Mark_wgs _ _ _ _ _).trans ((l1Store_wgs _ _ _ _ _ _).trans (l1Room_wgs _ _ _ _ _))
  dsimp only
  split
  · exact (State.onCore_wgs _ _ _).trans home
  · exact home

@[simp] theorem resolve_wgs (s : State) (w : Option Wg) (core cid va n kind : Nat) : (resolve s w core cid va n kind).2.wgs = s.wgs := by
  rw [(resolve_only s w core cid va n kind).state]

theorem readPiece_wgs (s : State) (w : Option Wg) (core cid : Nat) (ms : List Mop) (kind va n : Nat) :
    (readPiece s w core cid ms kind va n).2.wgs = s.wgs := by
  unfold readPiece
  dsimp only
  split
  iterate 4 exact resolve_wgs _ _ _ _ _ _ _
  split
  all_goals exact (agentRead_wgs _ _ _ _ _ _ _).trans (resolve_wgs _ _ _ _ _ _ _)

theorem readPieces_wgs (w : Option Wg) (core cid : Nat) (ms : List Mop) (kind : Nat) (ps : List (Nat × Nat)) :
    ∀ (s : State) (acc : List (List Byte)), (readPieces w core cid ms kind ps s acc).2.wgs = s.wgs := by
  induction ps with
  | nil => exact fun _ _ => rfl
  | cons p ps ih =>
    intro s acc
    have piece := readPiece_wgs s w core cid ms kind p.1 p.2
    unfold readPieces
    split
    all_goals rename_i hp; rw [hp] at piece
    · exact (ih _ _).trans piece
    all_goals exact piece

theorem engineRead_wgs (s : State) (w : Option Wg) (core cid : Nat) (ms : List Mop) (va n kind : Nat) :
    (engineRead s w core cid ms va n kind).2.wgs = s.wgs :=
  readPieces_wgs w core cid ms kind _ s []

theorem spanErr_wgs (w : Wg) (kind : Nat) (ps : List (Nat × Nat)) : ∀ s : State, (spanErr w kind ps s).2.wgs = s.wgs := by
  induction ps with
  | nil => exact fun _ => rfl
  | cons p ps ih =>
    intro s
    unfold spanErr
    dsimp only
    split
    · exact (ih _).trans (resolve_wgs _ _ _ _ _ _ _)
    all_goals exact resolve_wgs _ _ _ _ _ _ _

/-! ## The engine's writes and the matrix queue -/

/-- The matrix queue of a workgroup by name. -/
def State.mq? (s : State) (n : Nat) : Option (List MEnt) := (s.wg? n).map (·.mq)

theorem State.mq?_congr {s t : State} (h : t.wgs = s.wgs) (n : Nat) : t.mq? n = s.mq? n := by
  rw [State.mq?, State.mq?, State.wg?_congr h]

theorem State.mq?_onWg (s : State) {f : Wg → Wg} (hid : ∀ x, (f x).id = x.id) (hmq : ∀ x, (f x).mq = x.mq) (m n : Nat) :
    (s.onWg m f).mq? n = s.mq? n := by
  unfold State.mq?
  rw [State.wg?_onWg s hid]
  split
  · rw [Option.map_map]; exact congrArg (fun k => (s.wg? n).map k) (funext hmq)
  · rfl

/-- A store to TAIL is noted with the copy ring alone (R231). -/
theorem noteTail_mq? (s : State) (tid : Nat) (t : TRef) (key len n : Nat) : (noteTail s tid t key len).mq? n = s.mq? n := by
  unfold noteTail
  split
  · split
    · rfl
    · refine (State.mq?_congr (State.onThread_wgs _ _ _) n).trans (State.mq?_onWg s ?_ ?_ _ n) <;> exact fun _ => rfl
  · rfl

theorem writePiece_mq? (s : State) (w : Option Wg) (core cid va : Nat) (bs : List Byte) (n : Nat) :
    (writePiece s w core cid va bs).2.mq? n = s.mq? n := by
  have placed := State.mq?_congr (resolve_wgs s w core cid va bs.length 2) n
  unfold writePiece
  dsimp only
  split
  iterate 4 exact placed
  exact (noteTail_mq? _ _ _ _ _ n).trans ((State.mq?_congr (agentWrite_wgs _ _ _ _ _ _ _ _) n).trans placed)

theorem writePieces_mq? (w : Option Wg) (core cid : Nat) (ps : List (Nat × Nat)) (n : Nat) :
    ∀ (bs : List Byte) (s : State) (done : Nat), (writePieces w core cid ps bs s done).2.mq? n = s.mq? n := by
  induction ps with
  | nil => exact fun _ _ _ => rfl
  | cons p ps ih =>
    intro bs s done
    have piece := writePiece_mq? s w core cid p.1 (bs.take p.2) n
    unfold writePieces
    split
    all_goals rename_i hp; rw [hp] at piece
    · exact (ih _ _ _).trans piece
    · exact piece

theorem engineWrite_mq? (s : State) (w : Option Wg) (core cid va : Nat) (bs : List Byte) (n : Nat) :
    (engineWrite s w core cid va bs).2.mq? n = s.mq? n :=
  writePieces_mq? w core cid _ n bs s 0

/-! ## The oldest entry -/

/-- The state in which an MMA runs its next K-step: an entry that had not begun has set KIND, cells and scales (R251). -/
def mmaBegun (s : State) (x : Wg) (e : MEnt) (xc : W64) (c : MmaCtl) (rank : Nat) : State :=
  if e.begun then s else onHead (beginMma s x xc c rank) x.id (fun e => { e with begun := true })

section
variable {s : State} {w : Nat} {x : Wg} {e : MEnt} {es : List MEnt} (hx : s.wg? w = some x) (hq : x.mq = e :: es)
include hx hq

/-- A suspended entry whose page request is answered goes on (R256). -/
theorem execMmaResume_next {rid : Nat} (hsusp : e.susp = some rid)
    (hans : ((s.ctx? x.cid).map (fun c => c.preqs.any (fun r => r.rid == rid))).getD false = false) :
    ∃ t, execMmaResume w s = .next t ∧ t.wg? w = some { x with mq := { e with susp := none } :: es } := by
  have hhead : x.mq.head?.bind (·.susp) = some rid := by rw [hq]; exact hsusp
  refine ⟨_, ?_, onHead_wg? hx hq (fun e => { e with susp := none })⟩
  simp only [execMmaResume, hx, hhead, hans, due, Bool.not_false, if_true]

variable (hsusp : e.susp = none) (hgoes : engineGoes s x (entryMust s w e) = true)
include hsusp hgoes

theorem onEntry_runs (k : Wg → MEnt → Out) : onEntry w s k = k x e := by
  simp only [onEntry, hx, hq, hsusp, hgoes, due, Option.isNone_none, Bool.and_self, if_true]

theorem execMmaEntry_runs {xa xb xc : W64} {c : MmaCtl} {rank : Nat} (hop : e.op = .mma xa xb xc c rank)
    (hstep : x.mstep < mmaSteps xc c) {y : Wg} (hy : (mmaBegun s x e xc c rank).wg? w = some y) :
    execMmaEntry w s = mmaStep (mmaBegun s x e xc c rank) y xa xb xc c rank := by
  obtain rfl := State.wg?_id hx
  refine (onEntry_runs hx hq hsusp hgoes _).trans ?_
  simp only [hop]
  refine (if_pos (decide_eq_true hstep)).trans ?_
  exact congrArg (fun y => mmaStep (mmaBegun s x e xc c rank) y xa xb xc c rank) (by rw [← mmaBegun, hy]; rfl)

theorem execMdrainEntry_runs {xa xb xc : W64} {c : DrainCtl} (hop : e.op = .mdrain xa xb xc c) (hrow : e.row < ctlM c.m) :
    execMdrainEntry w s = drainRow (onHead s w (fun e => { e with begun := true })) x e xa xb xc c := by
  refine (onEntry_runs hx hq hsusp hgoes _).trans ?_
  simp only [hop, due, hrow, decide_true, if_true]

/-- An entry that is over leaves the queue (R253). -/
theorem execMatrixEntryComplete_next (hover : entryOver x e = true) :
    ∃ t, execMatrixEntryComplete w s = .next t ∧ t.wg? w = some { x with mq := es, mstep := 0 } := by
  have left := State.wg?_onWg_self (f := fun y => { y with mq := y.mq.drop 1, mstep := 0 }) (fun _ => rfl) hx
  rw [hq] at left
  exact ⟨_, (onEntry_runs hx hq hsusp hgoes _).trans (if_pos hover), left⟩

end

/-! ## One K-step (R74, R251) -/

/-- A workgroup after K-step q of an MMA whose cells and overflow are r. -/
def Wg.stepped (x : Wg) (c : MmaCtl) (r : Array W64 × Bool) (q : Nat) : Wg :=
  { (x.withSlot (cellSlot (kindOf c.afmt) c.slot.val) (fun a => { a with cells := cellsOf r.1 })).withSlot c.slot.val
      (fun a => { a with ovf := a.ovf || r.2 }) with mstep := q + 1 }

@[simp] theorem Wg.stepped_mstep (x : Wg) (c : MmaCtl) (r : Array W64 × Bool) (q : Nat) : (x.stepped c r q).mstep = q + 1 := rfl

theorem Wg.stepped_cells {x : Wg} {c : MmaCtl} (h : cellSlot (kindOf c.afmt) c.slot.val < x.slots.length) (r : Array W64 × Bool)
    (q : Nat) : (slotAt (x.stepped c r q) (cellSlot (kindOf c.afmt) c.slot.val)).cells = cellsOf r.1 := by
  have ovf : ∀ a : Acc, ({ a with ovf := a.ovf || r.2 } : Acc).cells = a.cells := fun _ => rfl
  refine (cells_slotAt_withSlot (i := c.slot.val) (by rwa [Wg.withSlot_length]) ovf).trans ?_
  rw [slotAt_withSlot h, if_pos rfl]

theorem mmaStep_next {s1 s2 s3 : State} {y z : Wg} {xa xb xc : W64} {c : MmaCtl} {rank : Nat} {p q : List Byte} {as bs : List (List Nat)}
    (hA : readRows y c.afmt xa.toNat (bits xc.toNat 0 16) (y.mstep * mfmtStep c.afmt) (ctlM c.m) 0 s1 [] = ((.ok p, as), s2))
    (hB : readRows y c.bfmt xb.toNat (bits xc.toNat 16 16) (y.mstep * mfmtStep c.afmt) (ctlM c.n / Split.num c.split)
      (rank * (ctlM c.n / Split.num c.split)) s2 [] = ((.ok q, bs), s3))
    (hz : s3.wg? y.id = some z) :
    ∃ t, mmaStep s1 y xa xb xc c rank = .next t ∧ t.wg? y.id = some (z.stepped c
      (stepGrid c as bs (gridOf (slotAt z (cellSlot (kindOf c.afmt) c.slot.val)).cells)) y.mstep) := by
  refine ⟨_, by simp only [mmaStep, hA, hB, hz, Option.getD_some]; rfl, ?_⟩
  exact State.wg?_onWg_self (f := fun x => { x with mstep := y.mstep + 1 }) (fun _ => rfl) (onSlot_wg? (onSlot_wg? hz _ _) _ _)

/-! ## One row of a drain (R76, R257) -/

/-- The bytes of row i that a drain of a workgroup writes over `old`. -/
def drainBytes (x : Wg) (c : DrainCtl) (xc : W64) (i : Nat) (old : List Byte) : List Byte :=
  let a := slotAt x c.slot.val
  let g := gridOf (slotAt x (cellSlot a.kind c.slot.val)).cells
  (List.range (ctlM c.n)).flatMap (fun j => bytesLE (dfmtBytes c.dfmt) (drainCell a a.kind c xc i j (g.getD (i * 256 + j) 0)
    (ofBytes ((old.drop (j * dfmtBytes c.dfmt)).take (dfmtBytes c.dfmt)))))

theorem onHead_mq? {s : State} {n : Nat} {e : MEnt} {es : List MEnt} (h : s.mq? n = some (e :: es)) (f : MEnt → MEnt) :
    (onHead s n f).mq? n = some (f e :: es) := by
  obtain ⟨x, hx, hq⟩ := Option.map_eq_some_iff.mp h
  simp only [State.mq?, onHead_wg? hx hq, Option.map_some]

theorem onSlot_mq? (s : State) (m i : Nat) (f : Acc → Acc) (n : Nat) : (onSlot s m i f).mq? n = s.mq? n :=
  State.mq?_onWg s (f := fun x => x.withSlot i f) (fun _ => rfl) (fun _ => rfl) m n

/-- A row that can be written is drained: the oldest entry, whose row it was, goes to the next. -/
theorem drainRow_next {s1 s2 s3 r : State} {x : Wg} {e b : MEnt} {es : List MEnt} {xa xb xc : W64} {c : DrainCtl} {old done : List Byte}
    {base len k : Nat} (hbase : base = (xa.toNat + e.row * xb.toNat) % 2 ^ 64) (hlen : len = ctlM c.n * dfmtBytes c.dfmt)
    (hq : s1.mq? x.id = some (b :: es)) (hspan : spanErr x (if c.add then 3 else 2) (pieces base len) s1 = (none, s2))
    (hread : (if c.add then engineRead s2 (some x) x.core x.cid [] base len 1 else (.ok [], s2)) = (.ok old, s3))
    (hwrite : engineWrite s3 (some x) x.core x.cid base (drainBytes x c xc e.row old) = ((.ok done, k), r)) :
    ∃ t, drainRow s1 x e xa xb xc c = .next t ∧ t.mq? x.id = some ({ b with row := e.row + 1 } :: es) := by
  have span := spanErr_wgs x (if c.add then 3 else 2) (pieces base len) s1
  rw [hspan] at span
  have read : s3.wgs = s2.wgs := by
    split at hread
    · have := engineRead_wgs s2 (some x) x.core x.cid [] base len 1
      rwa [hread] at this
    · rw [(Prod.mk.inj hread).2]
  have write := engineWrite_mq? s3 (some x) x.core x.cid base (drainBytes x c xc e.row old) x.id
  rw [hwrite, State.mq?_congr (read.trans span), hq] at write
  have next := onHead_mq? write (fun e' => { e' with row := e.row + 1 })
  subst hbase hlen
  unfold drainBytes at hwrite
  simp only [drainRow, hspan, hread, hwrite]
  split
  · exact ⟨_, rfl, next⟩
  · exact ⟨_, rfl, (onSlot_mq? _ _ _ _ _).trans next⟩

end Sys2Proof.Machine

namespace Sys2Proof
open Machine

/-- Settles O55: what an entry reads and writes leaves the matrix queue as it stands (`engineWrite_mq?`), so that a K-step and a row come
to `mmaStep_next` and `drainRow_next`; completion and resumption are updates of the workgroup. -/
theorem matrixEvents : Obligations.MatrixEvents := by
  unfold Obligations.MatrixEvents
  refine fun s => ⟨fun w x e es hx hq hsusp hgoes => ⟨?mma, ?mdrain, ?complete⟩, fun w x e es rid hx hq hsusp hans => ?resume⟩
  case mma =>
    intro xa xb xc c rank y p q as bs s2 s3 z hop hstep s1 nc k slot hy hA hB hz hslot
    obtain rfl := State.wg?_id hx
    have runs := execMmaEntry_runs hx hq hsusp hgoes hop hstep hy
    have hid := State.wg?_id hy
    rw [← hid] at hz
    obtain ⟨t, hnext, hv⟩ := mmaStep_next hA hB hz
    exact ⟨t, _, runs.trans hnext, hid ▸ hv, Wg.stepped_mstep _ _ _ _, Wg.stepped_cells hslot _ _⟩
  case mdrain =>
    intro xa xb xc c old s2 s3 bytes k r hop hrow s1 base n a g hspan hread hbytes hwrite
    subst hbytes
    obtain rfl := State.wg?_id hx
    have begun : s1.mq? x.id = some ({ e with begun := true } :: es) := by
      rw [State.mq?, onHead_wg? hx hq, Option.map_some]
    obtain ⟨t, hnext, hmq⟩ := drainRow_next rfl rfl begun hspan hread hwrite
    obtain ⟨v, hv, hvq⟩ := Option.map_eq_some_iff.mp hmq
    exact ⟨t, v, (execMdrainEntry_runs hx hq hsusp hgoes hop hrow).trans hnext, hv, hvq⟩
  case complete => exact execMatrixEntryComplete_next hx hq hsusp hgoes
  case resume => exact execMmaResume_next hx hq hsusp hans

end Sys2Proof
end

section
/-! PROOFS. The integer instructions of the lane set (R78, R81-R87): what a write of a result comes to, and each function of words as
its rule has it. -/

namespace Sys2Proof.Machine

/-! ## An instruction that writes a word (R78) -/

section
variable {g : Guard} {s : State} (hg : s.cur.r.holds g = true) {d : Dst8} {n : Nat} {w : W32}
include hg

/-- The result by another name. -/
theorem laneWrite_done_eq {w' : W32} (hw : w = w') : ∃ t, laneWrite g d n w s = .next t ∧ LaneDone s t d n w' 0 :=
  hw ▸ laneWrite_done hg d n w

/-- The result characterised and not named. -/
theorem laneWrite_done_of {P : W32 → Prop} (hw : P w) : ∃ t r, laneWrite g d n w s = .next t ∧ LaneDone s t d n r 0 ∧ P r :=
  let ⟨t, hex, hdone⟩ := laneWrite_done hg d n w
  ⟨t, w, hex, hdone, hw⟩

/-- A count delivered as a word, the count characterised and not named. -/
theorem laneWrite_done_count {c : Nat} {P : Nat → Prop} (hc : P c) :
    ∃ t k, laneWrite g d n (BitVec.ofNat 32 c) s = .next t ∧ LaneDone s t d n (BitVec.ofNat 32 k) 0 ∧ P k :=
  let ⟨t, hex, hdone⟩ := laneWrite_done hg d n (BitVec.ofNat 32 c)
  ⟨t, c, hex, hdone, hc⟩

end

/-! ## Products, minima, maxima (R81, R82) -/

theorem ofInt_mul_ediv_high (x y : W32) :
    BitVec.ofInt 32 (x.toInt * y.toInt / 4294967296) = (x.signExtend 64 * y.signExtend 64).extractLsb' 32 32 := by
  have hprod : x.signExtend 64 * y.signExtend 64 = BitVec.ofInt 64 (x.toInt * y.toInt) := (BitVec.ofInt_mul ..).symm
  rw [hprod]
  apply BitVec.eq_of_toNat_eq
  simp only [BitVec.toNat_ofInt, BitVec.extractLsb'_toNat, Nat.shiftRight_eq_div_pow, Nat.reducePow, Nat.cast_ofNat]
  omega

theorem ofNat_mul_div_high (x y : W32) :
    BitVec.ofNat 32 (x.toNat * y.toNat / 4294967296) = (x.setWidth 64 * y.setWidth 64).extractLsb' 32 32 := by
  have hprod : x.setWidth 64 * y.setWidth 64 = BitVec.ofNat 64 (x.toNat * y.toNat) := by
    rw [BitVec.ofNat_mul, BitVec.ofNat_toNat, BitVec.ofNat_toNat]
  rw [hprod]
  apply BitVec.eq_of_toNat_eq
  simp only [BitVec.toNat_ofNat, BitVec.extractLsb'_toNat, Nat.shiftRight_eq_div_pow, Nat.reducePow]
  omega

/-- The second operand where it lies strictly before the first is the first where it lies at or before the second. -/
theorem ite_lt_eq_ite_le {α β : Type} [LinearOrder α] {i j : α} {c : Bool} (hc : c = true ↔ j < i) (x y : β) :
    (if c then y else x) = if i ≤ j then x else y := by
  by_cases h : i ≤ j
  · rw [if_pos h, if_neg (hc.not.mpr (not_lt.mpr h))]
  · rw [if_neg h, if_pos (hc.mpr (not_le.mp h))]

theorem natAbs_sub_add (x y z : W32) :
    BitVec.ofNat 32 (x.toInt - y.toInt).natAbs + z = BitVec.ofInt 32 ((x.toInt - y.toInt).natAbs + z.toNat) := by
  rw [← Nat.cast_add, BitVec.ofInt_natCast, BitVec.ofNat_add, BitVec.ofNat_toNat, BitVec.setWidth_eq]

/-! ## Shifts (R83) -/

/-- A word times a power of two beyond its width is 0. -/
theorem shl_eq (x y : W32) : (if y.toNat < 32 then x <<< y.toNat else 0) = BitVec.ofNat 32 (x.toNat * 2 ^ y.toNat) := by
  split
  · exact BitVec.eq_of_toNat_eq (by simp [BitVec.toNat_shiftLeft, Nat.shiftLeft_eq])
  · rename_i h
    obtain ⟨k, hk⟩ := Nat.exists_eq_add_of_le (Nat.le_of_not_lt h)
    apply BitVec.eq_of_toNat_eq
    rw [BitVec.toNat_ofNat, hk, Nat.pow_add, Nat.mul_left_comm, Nat.mul_mod_right]
    rfl

theorem shr_eq (x y : W32) : (if y.toNat < 32 then x >>> y.toNat else 0) = BitVec.ofNat 32 (x.toNat / 2 ^ y.toNat) := by
  split
  · apply BitVec.eq_of_toNat_eq
    rw [BitVec.toNat_ushiftRight, Nat.shiftRight_eq_div_pow, BitVec.toNat_ofNat,
      Nat.mod_eq_of_lt (Nat.lt_of_le_of_lt (Nat.div_le_self _ _) x.isLt)]
  · rename_i h
    rw [Nat.div_eq_of_lt (Nat.lt_of_lt_of_le x.isLt (Nat.pow_le_pow_right (by decide) (Nat.le_of_not_lt h)))]
    rfl

/-- Beyond the width of the word the quotient is −1 or 0, as bit 31 says. -/
theorem sarW_eq (x y : W32) : sarW x y = BitVec.ofInt 32 (x.toInt / 2 ^ y.toNat) := by
  unfold sarW
  split
  · rw [BitVec.sshiftRight, Int.shiftRight_eq_div_pow, Nat.cast_pow, Nat.cast_ofNat]
  · rename_i h
    have hpow : (2 : Int) ^ 32 ≤ 2 ^ y.toNat := pow_le_pow_right₀ (by decide) (Nat.le_of_not_lt h)
    have hlo := BitVec.le_toInt x
    have hhi := BitVec.toInt_lt (x := x)
    split <;> rename_i hm
    · have hneg := BitVec.toInt_neg_of_msb_true hm
      have hq : x.toInt / 2 ^ y.toNat = -1 := ((Int.ediv_emod_unique (r := x.toInt + 2 ^ y.toNat) (by omega)).mpr (by omega)).1
      rw [hq]
      rfl
    · have hneg := BitVec.toInt_nonneg_of_msb_false (by simpa using hm)
      rw [Int.ediv_eq_zero_of_lt hneg (by omega)]
      rfl

/-! ## Bit fields (R84) -/

@[simp] theorem getLsbD_bfMask (y : W32) (i : Nat) :
    (bfMask y).getLsbD i = decide (bfPos y ≤ i ∧ i < bfPos y + bfWidth y) := by
  have hw : bfPos y + bfWidth y ≤ 32 := by unfold bfWidth bfPos; omega
  rw [bfMask, BitVec.getLsbD_ofNat, Nat.testBit_mul_two_pow, Nat.testBit_two_pow_sub_one]
  grind

theorem getLsbD_bfenW (x y : W32) (i : Nat) : (bfenW x y).getLsbD i = (decide (i < bfWidth y) && x.getLsbD (bfPos y + i)) := by
  rw [bfenW, BitVec.getLsbD_ushiftRight, BitVec.getLsbD_and, getLsbD_bfMask, Bool.and_comm]
  congr 1
  simp

theorem testBit_ones_above {w i : Nat} (hw : w ≤ 32) (hi : i < 32) : (4294967296 - 2 ^ w).testBit i = decide (w ≤ i) := by
  have h : 4294967296 - 2 ^ w = (2 ^ (32 - w) - 1) * 2 ^ w := by
    rw [Nat.sub_mul, ← Nat.pow_add, Nat.sub_add_cancel hw, Nat.one_mul]
  rw [h, Nat.testBit_mul_two_pow, Nat.testBit_two_pow_sub_one]
  grind

theorem getLsbD_bfesW (x y : W32) {i : Nat} (hi : i < 32) :
    (bfesW x y).getLsbD i = (decide (0 < bfWidth y) && x.getLsbD (bfPos y + min i (bfWidth y - 1))) := by
  have hw : bfWidth y ≤ 32 := by unfold bfWidth bfPos; omega
  have hones : (BitVec.ofNat 32 (4294967296 - 2 ^ bfWidth y)).getLsbD i = decide (bfWidth y ≤ i) := by
    rw [BitVec.getLsbD_ofNat, testBit_ones_above hw hi]; simp [hi]
  simp only [bfesW]
  split
  · rename_i h
    rw [getLsbD_bfenW] at h
    rw [BitVec.getLsbD_or, getLsbD_bfenW, hones]
    grind
  · rename_i h
    rw [getLsbD_bfenW] at h ⊢
    grind

theorem getLsbD_bfiW (l x y : W32) {i : Nat} (hi : i < 32) :
    (bfiW l x y).getLsbD i = if bfPos y ≤ i ∧ i < bfPos y + bfWidth y then l.getLsbD (i - bfPos y) else x.getLsbD i := by
  rw [bfiW, BitVec.getLsbD_or, BitVec.getLsbD_and, BitVec.getLsbD_and, BitVec.getLsbD_not, BitVec.getLsbD_shiftLeft, getLsbD_bfMask]
  split <;> rename_i h <;> simp [hi, h]

/-! ## Counts (R87) -/

theorem foldl_count {α : Type} (q : α → Bool) (l : List α) (c : Nat) :
    l.foldl (fun c i => if q i then c + 1 else c) c = c + l.countP q := by
  induction l generalizing c with
  | nil => rfl
  | cons x xs ih =>
    rw [List.foldl_cons, ih, List.countP_cons]
    split <;> omega

theorem popcount_eq_countP {n : Nat} (w : BitVec n) : popcount w = (List.range n).countP (fun i => w.getLsbD i) :=
  (foldl_count _ _ 0).trans (Nat.zero_add _)

/-- The count of zeros is the place in the search of the first 1, or the width where there is none. -/
theorem zerosFrom_eq_findIdx {n : Nat} (w : BitVec n) (p : Nat → Nat) :
    zerosFrom w p = (List.range n).findIdx (fun j => w.getLsbD (p j)) := by
  rw [zerosFrom, List.takeWhile_eq_take_findIdx_not, List.length_take, Nat.min_eq_left List.findIdx_le_length]
  simp only [Bool.not_not]

/-- What characterises a count of zeros: R87 for CLZ and CTZ. -/
theorem zerosFrom_spec {n : Nat} (w : BitVec n) (p : Nat → Nat) :
    zerosFrom w p ≤ n ∧ (∀ j, j < zerosFrom w p → w.getLsbD (p j) = false) ∧
      (zerosFrom w p < n → w.getLsbD (p (zerosFrom w p)) = true) := by
  rw [zerosFrom_eq_findIdx]
  refine ⟨List.findIdx_le_length.trans_eq List.length_range, fun j hj => ?_, fun h => ?_⟩
  · simpa using List.not_of_lt_findIdx hj
  · simpa using List.findIdx_getElem (p := fun j => w.getLsbD (p j)) (w := h.trans_eq List.length_range.symm)

/-! ## Bytes (R85, R87) -/

/-- The word that four bytes make, byte 0 lowest. -/
def word4 (c : Nat → Nat) : W32 := BitVec.ofNat 32 (c 0 + 256 * c 1 + 65536 * c 2 + 16777216 * c 3)

theorem extractLsb'_word4 {c : Nat → Nat} (hc : ∀ i, c i < 256) {i : Nat} (hi : i < 4) :
    (word4 c).extractLsb' (8 * i) 8 = BitVec.ofNat 8 (c i) := by
  have h0 := hc 0
  have h1 := hc 1
  have h2 := hc 2
  have h3 := hc 3
  apply BitVec.eq_of_toNat_eq
  simp only [word4, BitVec.extractLsb'_toNat, BitVec.toNat_ofNat, Nat.shiftRight_eq_div_pow]
  interval_cases i <;> omega

theorem ofNat_byte (x : W32) (k : Nat) : BitVec.ofNat 8 (x.toNat / 2 ^ k % 256) = x.extractLsb' k 8 :=
  BitVec.eq_of_toNat_eq (by simp [BitVec.extractLsb'_toNat, Nat.shiftRight_eq_div_pow])

theorem toNat_byte (x : W32) (k : Nat) : (x.extractLsb' k 8).toNat = x.toNat / 2 ^ k % 256 := by
  rw [BitVec.extractLsb'_toNat, Nat.shiftRight_eq_div_pow]

theorem bswapW_eq_word4 (x : W32) : bswapW x = word4 (fun i => x.toNat / 2 ^ (8 * (3 - i)) % 256) := by
  apply BitVec.eq_of_toNat_eq
  simp only [bswapW, word4, List.range, List.range.loop, List.foldl, BitVec.toNat_ofNat]
  norm_num
  omega

theorem extractLsb'_bswapW (x : W32) {i : Nat} (hi : i < 4) : (bswapW x).extractLsb' (8 * i) 8 = x.extractLsb' (8 * (3 - i)) 8 := by
  rw [bswapW_eq_word4, extractLsb'_word4 (fun _ => Nat.mod_lt _ (by decide)) hi, ofNat_byte]

theorem getLsbD_add (y : W32) (k m : Nat) : y.getLsbD (k + m) = decide (y.toNat / 2 ^ k / 2 ^ m % 2 = 1) := by
  rw [BitVec.getLsbD, Nat.testBit_eq_decide_div_mod_eq, Nat.pow_add, Nat.div_div_eq_div_mul]

theorem prmtByte_lt (x y : W32) (i : Nat) : prmtByte x y i < 256 := by
  simp only [prmtByte]
  split_ifs <;> omega

/-- What R85 makes byte i of: the byte of `x` that its selector nibble names. -/
theorem ofNat_prmtByte (x y : W32) (i : Nat) :
    BitVec.ofNat 8 (prmtByte x y i) =
      let byte := x.extractLsb' (8 * (y.extractLsb' (4 * i) 2).toNat) 8
      if y.getLsbD (4 * i + 2) then 0 else if y.getLsbD (4 * i + 3) then (if byte.getLsbD 7 then 0xFF else 0) else byte := by
  have hq : (y.extractLsb' (4 * i) 2).toNat = y.toNat / 2 ^ (4 * i) % 16 % 4 := by
    rw [BitVec.extractLsb'_toNat, Nat.shiftRight_eq_div_pow]; omega
  have h2 : y.getLsbD (4 * i + 2) = true ↔ y.toNat / 2 ^ (4 * i) % 16 / 4 % 2 = 1 := by
    rw [getLsbD_add, decide_eq_true_iff]; omega
  have h3 : y.getLsbD (4 * i + 3) = true ↔ y.toNat / 2 ^ (4 * i) % 16 / 8 = 1 := by
    rw [getLsbD_add, decide_eq_true_iff]; omega
  have h7 (k : Nat) : (x.extractLsb' k 8).getLsbD 7 = true ↔ 128 ≤ x.toNat / 2 ^ k % 256 := by
    rw [← toNat_byte, BitVec.getLsbD, Nat.testBit_eq_decide_div_mod_eq, decide_eq_true_iff]; omega
  simp only [prmtByte, hq, h2, h3, h7, apply_ite (BitVec.ofNat 8), ofNat_byte]
  rfl

theorem extractLsb'_prmtW (x y : W32) {i : Nat} (hi : i < 4) : (prmtW x y).extractLsb' (8 * i) 8 = BitVec.ofNat 8 (prmtByte x y i) :=
  extractLsb'_word4 (prmtByte_lt x y) hi

/-! ## Absolute value, extension, reversal (R87) -/

theorem ofNat_natAbs_toInt (x : W32) : (if x.msb then -x else x) = BitVec.ofInt 32 x.toInt.natAbs := by
  split <;> rename_i h
  · have := BitVec.toInt_neg_of_msb_true h
    rw [Int.natCast_natAbs, abs_of_neg this, BitVec.ofInt_neg, BitVec.ofInt_toInt]
  · have := BitVec.toInt_nonneg_of_msb_false (by simpa using h)
    rw [Int.natCast_natAbs, abs_of_nonneg this, BitVec.ofInt_toInt]

theorem setWidth_setWidth_eq_and (x : W32) (k : Nat) :
    (x.setWidth k).setWidth 32 = x &&& BitVec.ofNat 32 (2 ^ k - 1) := by
  apply BitVec.eq_of_getLsbD_eq
  intro i hi
  rw [BitVec.getLsbD_setWidth, BitVec.getLsbD_setWidth, BitVec.getLsbD_and, BitVec.getLsbD_ofNat, Nat.testBit_two_pow_sub_one]
  grind

theorem getLsbD_reverse (x : W32) {i : Nat} (hi : i < 32) : x.reverse.getLsbD i = x.getLsbD (31 - i) := by
  rw [BitVec.getLsbD_reverse, BitVec.getMsbD]
  simp [hi]

end Sys2Proof.Machine

namespace Sys2Proof
open Machine

/-- Settles O7: the model's high words and its choices by `slt` and `ult` are those of R81. -/
theorem laneIntegerResults : Obligations.LaneIntegerResults := by
  unfold Obligations.LaneIntegerResults
  intro g d a b s hg
  refine ⟨?iadd, ?isub, ?imul, ?imulhs, ?imulhn, ?imin, ?imax, ?nmin, ?nmax, ?and, ?or, ?xor, ?andn⟩ <;> refine laneWrite_done_eq hg ?_
  case iadd | isub | imul | and | or | xor | andn => rfl
  case imulhs => exact ofInt_mul_ediv_high _ _
  case imulhn => exact ofNat_mul_div_high _ _
  case imin | imax => exact ite_lt_eq_ite_le BitVec.slt_iff_toInt_lt _ _
  case nmin | nmax => exact ite_lt_eq_ite_le BitVec.ult_iff_toNat_lt _ _

/-- Settles O8: the third source is the destination's former value. -/
theorem laneThirdSourceResults : Obligations.LaneThirdSourceResults := by
  unfold Obligations.LaneThirdSourceResults
  intro g d a b s hg
  refine ⟨?imad, ?isad⟩ <;> refine laneWrite_done_eq hg ?_
  case imad => rfl
  case isad => exact natAbs_sub_add _ _ _

/-- Settles O9: each shift is a product or a quotient by a power of two, whatever the count. -/
theorem laneShiftResults : Obligations.LaneShiftResults := by
  unfold Obligations.LaneShiftResults
  intro g d a b s hg
  refine ⟨?shl, ?shr, ?sar⟩ <;> refine laneWrite_done_eq hg ?_
  case shl => exact shl_eq _ _
  case shr => exact shr_eq _ _
  case sar => exact sarW_eq _ _

/-- Settles O10, by the bits of the field mask. -/
theorem laneFieldResults : Obligations.LaneFieldResults := by
  unfold Obligations.LaneFieldResults
  intro g d a b s hg
  refine ⟨?bfen, ?bfes, ?bfi⟩ <;> refine laneWrite_done_of hg fun i hi => ?_
  case bfen => exact getLsbD_bfenW _ _ i
  case bfes => exact getLsbD_bfesW _ _ hi
  case bfi => exact getLsbD_bfiW _ _ _ hi

/-- Settles O11: PRMT byte by byte; CSEL is an instruction without a guard, and the truth of the guard that it names selects. -/
theorem laneSelectResults : Obligations.LaneSelectResults := by
  unfold Obligations.LaneSelectResults
  intro g d a b s
  refine ⟨fun hg => laneWrite_done_of hg ?prmt, laneWrite_done_eq (g := none) rfl ?csel⟩
  case prmt => exact fun i hi => (extractLsb'_prmtW _ _ hi).trans (ofNat_prmtByte _ _ i)
  case csel => cases g <;> rfl

/-- Settles O12: the counts by the place of the first 1, the others by bits and bytes. -/
theorem laneUnaryResults : Obligations.LaneUnaryResults := by
  unfold Obligations.LaneUnaryResults
  intro g d a s hg
  refine ⟨?mov, ?not, ?ineg, ?iabs, ?popc, ?clz, ?ctz, ?brev, ?bswap, ?sext8, ?sext16, ?zext8, ?zext16⟩
  case clz | ctz => exact laneWrite_done_count hg (zerosFrom_spec _ _)
  case brev => exact laneWrite_done_of hg fun i hi => getLsbD_reverse _ hi
  case bswap => exact laneWrite_done_of hg fun i hi => extractLsb'_bswapW _ hi
  all_goals refine laneWrite_done_eq hg ?_
  case mov | sext8 | sext16 => rfl
  case not => exact BitVec.xor_allOnes.symm
  case ineg => exact (BitVec.zero_sub _).symm
  case iabs => exact ofNat_natAbs_toInt _
  case popc => exact congrArg _ (popcount_eq_countP _)
  case zext8 | zext16 => exact setWidth_setWidth_eq_and _ _

end Sys2Proof
end

section
/-! PROOFS. The floating instructions of the lane set (R88-R94): their formats, the order of R89 on encodings, and the words, halves and
bytes that they read. -/

namespace Sys2Proof.Machine

/-! ## An instruction with a result and flags (R17, R78) -/

section
variable {g : Guard} {s : State} (hg : s.cur.r.holds g = true) {d : Dst8} {n : Nat}
include hg

/-- The result and the flags by another name. -/
theorem laneFl_done_eq {w w' : Nat × Fl} (hw : w = w') : ∃ t, laneFl g d n w s = .next t ∧ LaneDoneFl s t d n w' :=
  hw ▸ laneFl_done hg d n w

/-- An integer delivered in two's complement (R68). -/
theorem laneFl_done_ofInt (v : Int × Fl) :
    ∃ t, laneFl g d n ((BitVec.ofInt 32 v.1).toNat, v.2) s = .next t ∧ LaneDone s t d n (BitVec.ofInt 32 v.1) v.2 := by
  obtain ⟨t, hex, hdone⟩ := laneFl_done hg d n ((BitVec.ofInt 32 v.1).toNat, v.2)
  exact ⟨t, hex, by rwa [BitVec.ofNat_toNat, BitVec.setWidth_eq] at hdone⟩

end

/-! ## The order of values (R50, R89) -/

/-- Two finite values compare by their signed mantissas at the lower of the two exponents. -/
theorem Val.lt_fin (s t : Bool) (m n : Nat) (e k : Int) :
    (Val.fin s m e).lt (.fin t n k) = true ↔ signedAt s m e (min e k) < signedAt t n k (min e k) := by
  have hq : (if e < k then e else k) = min e k := by omega
  simp only [Val.lt, hq, decide_eq_true_iff]

theorem Val.lt_asymm {a b : Val} (h : a.lt b = true) : b.lt a = false := by
  cases a with
  | nan q => simp [Val.lt] at h
  | inf s =>
    cases b with
    | nan q => rfl
    | inf t => revert h; cases s <;> cases t <;> decide
    | fin t n k => simpa [Val.lt] using h
  | fin s m e =>
    cases b with
    | nan q => rfl
    | inf t => simpa [Val.lt] using h
    | fin t n k =>
      rw [Val.lt_fin] at h
      rw [Bool.eq_false_iff, ne_eq, Val.lt_fin, min_comm]
      exact h.asymm

theorem Val.lt_zeros {a b : Val} (ha : a.isZero = true) (hb : b.isZero = true) : a.lt b = false := by
  cases a with
  | nan q => rfl
  | inf s => cases ha
  | fin s m e =>
    cases b with
    | nan q => rfl
    | inf t => cases hb
    | fin t n k =>
      obtain rfl : m = 0 := by simpa [Val.isZero] using ha
      obtain rfl : n = 0 := by simpa [Val.isZero] using hb
      simp [Val.lt, signedAt]

theorem Val.below_iff (a b : Val) :
    a.below b = true ↔ a.lt b = true ∨ a.isZero = true ∧ b.isZero = true ∧ a.isNeg = true ∧ b.isNeg = false := by
  simp [Val.below, and_assoc]

theorem Val.below_asymm {a b : Val} (h : a.below b = true) : b.below a = false := by
  rw [Val.below_iff] at h
  rw [Bool.eq_false_iff, ne_eq, Val.below_iff]
  rcases h with h | ⟨ha, hb, hna, hnb⟩
  · rintro (h' | ⟨hb, ha, -⟩)
    · rw [Val.lt_asymm h] at h'; cases h'
    · rw [Val.lt_zeros ha hb] at h; cases h
  · rw [Val.lt_zeros hb ha, hnb]
    simp

/-! ## Encodings of one value (R64) -/

/-- An encoding is made of its sign, its exponent field and its fraction. -/
theorem Fmt.word_split (f : Fmt) {w : Nat} (hw : w < 2 * f.signW) :
    w = f.sgn (w / f.signW % 2 == 1) + w / 2 ^ f.fw % 2 ^ f.ew * 2 ^ f.fw + w % 2 ^ f.fw := by
  have hs : f.signW = 2 ^ f.fw * 2 ^ f.ew := by rw [Fmt.signW, Nat.pow_add, Nat.mul_comm]
  have hhi : w / f.signW < 2 := Nat.div_lt_of_lt_mul (by rwa [Nat.mul_comm])
  have hsgn : f.sgn (w / f.signW % 2 == 1) = w / f.signW * f.signW := by
    rcases Nat.lt_succ_iff_lt_or_eq.mp hhi with h | h
    · simp [Fmt.sgn, Nat.lt_one_iff.mp h]
    · simp [Fmt.sgn, h]
  have h1 := Nat.div_add_mod w (2 ^ f.fw)
  have h2 := Nat.div_add_mod (w / 2 ^ f.fw) (2 ^ f.ew)
  rw [Nat.div_div_eq_div_mul, ← hs] at h2
  rw [hsgn]
  conv_lhs => rw [← h1, ← h2]
  rw [hs]
  ring

/-- The encoding of an infinity. -/
theorem Fmt.eq_of_dec_inf {f : Fmt} {w : Nat} (hw : w < 2 * f.signW) {s : Bool} (h : f.dec w = .inf s) : w = f.inf s := by
  have hsplit := f.word_split hw
  simp only [Fmt.dec] at h
  split_ifs at h with h0 h1 h2
  · cases h
    simp only [Bool.and_eq_true, beq_iff_eq] at h1
    rwa [h1.2, h2] at hsplit

/-- The encoding of a finite value, by the place of its exponent above the lowest. -/
theorem Fmt.eq_of_dec_fin {f : Fmt} {w : Nat} (hw : w < 2 * f.signW) {s : Bool} {m : Nat} {e : Int} (h : f.dec w = .fin s m e) :
    ∃ i : Nat, e = f.emin - f.fw + i ∧ m < 2 * 2 ^ f.fw ∧ (0 < i → 2 ^ f.fw ≤ m) ∧ w = f.sgn s + i * 2 ^ f.fw + m := by
  have hsplit := f.word_split hw
  have hfr : w % 2 ^ f.fw < 2 ^ f.fw := Nat.mod_lt _ (by positivity)
  simp only [Fmt.dec] at h
  split_ifs at h with h0 h1 h2 h3
  · cases h
    exact ⟨0, by simp, by omega, by omega, by rwa [h0] at hsplit⟩
  · cases h
    obtain ⟨i, hi⟩ := Nat.exists_eq_succ_of_ne_zero h0
    refine ⟨i, by rw [hi, Fmt.emin]; push_cast; ring, by omega, fun _ => Nat.le_add_right _ _, ?_⟩
    rw [hi, Nat.succ_mul] at hsplit
    omega

/-- A value of a format has one mantissa and exponent. -/
theorem mantissa_unique {A m n i j : Nat} (hm : m < 2 * A) (hi : 0 < i → A ≤ m) (hn : n < 2 * A) (hj : 0 < j → A ≤ n)
    (h : m * 2 ^ (i - min i j) = n * 2 ^ (j - min i j)) : m = n ∧ i = j := by
  have step {a b r l : Nat} (ha : a < 2 * A) (hb : 0 < r → A ≤ b) (hlt : l < r) : a ≠ b * 2 ^ (r - l) := by
    have h2 : 2 ^ 1 ≤ 2 ^ (r - l) := Nat.pow_le_pow_right (by decide) (by omega)
    have := Nat.mul_le_mul (hb (by omega)) h2
    omega
  rcases lt_trichotomy i j with hlt | rfl | hlt
  · rw [min_eq_left hlt.le, Nat.sub_self, Nat.pow_zero, Nat.mul_one] at h
    exact absurd h (step hm hj hlt)
  · simpa using h
  · rw [min_eq_right hlt.le, Nat.sub_self, Nat.pow_zero, Nat.mul_one] at h
    exact absurd h.symm (step hn hi hlt)

/-- What two finite values have in common whose signed mantissas agree. -/
theorem signedAt_inj {s t : Bool} {m n : Nat} {e k q : Int} (h : signedAt s m e q = signedAt t n k q) :
    m * 2 ^ (e - q).toNat = n * 2 ^ (k - q).toNat ∧ (s = t ∨ m = 0 ∧ n = 0) := by
  have hzero {a l : Nat} (ha : a * 2 ^ l = 0) : a = 0 := (Nat.mul_eq_zero.mp ha).resolve_right (by positivity)
  simp only [signedAt] at h
  refine ⟨by split_ifs at h <;> omega, ?_⟩
  cases s <;> cases t
  case false.false | true.true => exact .inl rfl
  case false.true | true.false =>
    simp only [Bool.false_eq_true, if_false, if_true] at h
    exact .inr ⟨hzero (l := (e - q).toNat) (by omega), hzero (l := (k - q).toNat) (by omega)⟩

/-- Finite values neither of which lies below the other have one encoding: their mantissas and exponents agree, and their signs do
too, for where both are zeros R89 puts −0 first. -/
theorem Fmt.eq_of_fin_not_below {f : Fmt} {x y : Nat} (hx : x < 2 * f.signW) (hy : y < 2 * f.signW) {s t : Bool} {m n : Nat} {e k : Int}
    (hu : f.dec x = .fin s m e) (hv : f.dec y = .fin t n k)
    (h : ¬(Val.fin s m e).below (.fin t n k) = true) (h' : ¬(Val.fin t n k).below (.fin s m e) = true) : x = y := by
  simp only [Val.below_iff, not_or, Val.lt_fin] at h h'
  obtain ⟨hlt, hzero⟩ := h
  obtain ⟨hgt, hzero'⟩ := h'
  rw [min_comm] at hgt
  obtain ⟨hmant, hsign⟩ := signedAt_inj (le_antisymm (not_lt.mp hgt) (not_lt.mp hlt))
  obtain ⟨i, rfl, hm, hi, rfl⟩ := Fmt.eq_of_dec_fin hx hu
  obtain ⟨j, rfl, hn, hj, rfl⟩ := Fmt.eq_of_dec_fin hy hv
  have hi' : (f.emin - f.fw + i - min (f.emin - f.fw + i) (f.emin - f.fw + j)).toNat = i - min i j := by omega
  have hj' : (f.emin - f.fw + j - min (f.emin - f.fw + i) (f.emin - f.fw + j)).toNat = j - min i j := by omega
  rw [hi', hj'] at hmant
  obtain ⟨rfl, rfl⟩ := mantissa_unique hm hi hn hj hmant
  rcases hsign with rfl | ⟨rfl, -⟩
  · rfl
  · revert hzero hzero'
    cases s <;> cases t <;> simp [Val.isZero, Val.isNeg]

/-- Encodings of values that are not NaN are equal where neither value lies below the other in the order of R89. -/
theorem Fmt.eq_of_not_below {f : Fmt} {x y : Nat} (hx : x < 2 * f.signW) (hy : y < 2 * f.signW)
    (hxn : ¬(f.dec x).isNan = true) (hyn : ¬(f.dec y).isNan = true)
    (h : ¬(f.dec x).below (f.dec y) = true) (h' : ¬(f.dec y).below (f.dec x) = true) : x = y := by
  cases hu : f.dec x with
  | nan q => exact absurd (hu ▸ rfl) hxn
  | inf s =>
    cases hv : f.dec y with
    | nan q => exact absurd (hv ▸ rfl) hyn
    | inf t =>
      have hst : s = t := by
        rw [hu, hv] at h h'
        revert h h'
        cases s <;> cases t <;> decide
      rw [Fmt.eq_of_dec_inf hx hu, Fmt.eq_of_dec_inf hy hv, hst]
    | fin t n k =>
      rw [hu, hv] at h h'
      cases s
      · exact absurd rfl h'
      · exact absurd rfl h
  | fin s m e =>
    cases hv : f.dec y with
    | nan q => exact absurd (hv ▸ rfl) hyn
    | inf t =>
      rw [hu, hv] at h h'
      cases t
      · exact absurd rfl h
      · exact absurd rfl h'
    | fin t n k => exact Fmt.eq_of_fin_not_below hx hy hu hv (hu ▸ hv ▸ h) (hu ▸ hv ▸ h')

/-- A choice by a strict relation is the choice by its converse, where what neither puts first is equal. -/
theorem ite_eq_ite_converse {α : Type} {P Q : Prop} [Decidable P] [Decidable Q] {x y : α} (hpq : P → ¬Q) (hxy : ¬P → ¬Q → x = y) :
    (if P then y else x) = if Q then x else y := by
  by_cases hp : P
  · rw [if_pos hp, if_neg (hpq hp)]
  · by_cases hq : Q
    · rw [if_neg hp, if_pos hq]
    · rw [if_neg hp, if_neg hq, hxy hp hq]

/-- FMIN gives the first operand where that lies below the second, FMAX where the second lies below the first (R89). -/
theorem Fmt.minmax_eq {f : Fmt} (isMax : Bool) {x y : Nat} (hx : x < 2 * f.signW) (hy : y < 2 * f.signW) :
    f.minmax isMax x y = (if (f.dec x).isNan ∧ (f.dec y).isNan then f.nan else if (f.dec x).isNan then y
      else if (f.dec y).isNan ∨ (bif isMax then (f.dec y).below (f.dec x) else (f.dec x).below (f.dec y)) then x else y,
      (f.dec x).sigFl ||| (f.dec y).sigFl) := by
  by_cases hxn : (f.dec x).isNan = true
  · by_cases hyn : (f.dec y).isNan = true <;> simp [Fmt.minmax, hxn, hyn]
  by_cases hyn : (f.dec y).isNan = true
  · simp [Fmt.minmax, hxn, hyn]
  have hasymm {a b : Val} (h : a.below b = true) : ¬b.below a = true := by simp [Val.below_asymm h]
  have htie (h : ¬(f.dec x).below (f.dec y) = true) (h' : ¬(f.dec y).below (f.dec x) = true) : x = y :=
    Fmt.eq_of_not_below hx hy hxn hyn h h'
  cases isMax
  case true => simpa [Fmt.minmax, hxn, hyn] using ite_eq_ite_converse hasymm htie
  case false => simpa [Fmt.minmax, hxn, hyn] using ite_eq_ite_converse hasymm (fun h h' => htie h' h)

/-! ## Scaling (R88), halves (R93) -/

theorem valScale_word (x y : W32) :
    valScale .f32 x.toNat (BitVec.ofNat 32 y.toNat).toInt = match Fmt.f32.dec x.toNat with
      | .nan q => (0x7FC00000, (Val.nan q).sigFl)
      | .inf k => (Fmt.f32.inf k, 0)
      | .fin k 0 e => Fmt.f32.round (.fin k 0 e)
      | .fin k m e => Fmt.f32.round (.fin k m (e + y.toInt)) := by
  rw [BitVec.ofNat_toNat, BitVec.setWidth_eq, valScale]
  cases Fmt.f32.dec x.toNat with
  | nan q => cases q <;> rfl
  | inf k => cases k <;> rfl
  | fin k m e => cases m <;> simp [Fmt.out]

theorem toNat_half_low (x : W32) : (x.extractLsb' 0 16).toNat = x.toNat % 65536 := by
  simp [BitVec.extractLsb'_toNat]

theorem toNat_half_high (x : W32) : (x.extractLsb' 16 16).toNat = x.toNat / 65536 % 65536 := by
  simp [BitVec.extractLsb'_toNat, Nat.shiftRight_eq_div_pow]

theorem halves_words (f : Nat → Nat → Nat → Nat × Fl) (c a b : W32) :
    halves f c.toNat a.toNat b.toNat =
      ((f (c.extractLsb' 16 16).toNat (a.extractLsb' 16 16).toNat (b.extractLsb' 16 16).toNat).1 * 65536 +
          (f (c.extractLsb' 0 16).toNat (a.extractLsb' 0 16).toNat (b.extractLsb' 0 16).toNat).1,
        (f (c.extractLsb' 16 16).toNat (a.extractLsb' 16 16).toNat (b.extractLsb' 16 16).toNat).2 |||
          (f (c.extractLsb' 0 16).toNat (a.extractLsb' 0 16).toNat (b.extractLsb' 0 16).toNat).2) := by
  simp only [halves, toNat_half_low, toNat_half_high]

end Sys2Proof.Machine

namespace Sys2Proof
open Machine

/-- Settles O13: FMIN and FMAX choose by the strict order of R89, and encodings neither of which that puts first are equal. -/
theorem laneFloatArithmetic : Obligations.LaneFloatArithmetic := by
  unfold Obligations.LaneFloatArithmetic
  intro g d a b s hg
  refine ⟨?fadd, ?fsub, ?fmul, ?ffma, ?fscale, ?fmin, ?fmax⟩ <;> refine laneFl_done_eq hg ?_
  case fadd | fsub | fmul | ffma => rfl
  case fscale => exact valScale_word _ _
  case fmin => exact Fmt.minmax_eq false (BitVec.isLt _) (BitVec.isLt _)
  case fmax => exact Fmt.minmax_eq true (BitVec.isLt _) (BitVec.isLt _)

/-- Settles O14: R90's functions and R91's are rounded by `Fmt.out`; FFRAC, FSAT and FCLASS answer words of their own. -/
theorem laneFloatFunctions : Obligations.LaneFloatFunctions := by
  unfold Obligations.LaneFloatFunctions
  intro g d a s hg
  refine ⟨?frcp, ?frsq, ?fsqrt, ?fexp2, ?flog2, ?fsinr, ?fcosr, ?ftanh, ?fsigm, ?fabs, ?fneg, ?ffloor, ?fceil, ?ftrunc, ?frint, ?ffrac,
    ?fsat, ?fclass⟩ <;> refine laneFl_done_eq hg ?_
  case frcp | frsq | fsqrt | fexp2 | flog2 | fsinr | fcosr | ftanh | fsigm => rfl
  case fabs | fneg | ffloor | fceil | ftrunc | frint => rfl
  case ffrac | fsat | fclass => rfl

/-- Settles O15: each half of the operands is a number by itself; HADD2, HMUL2, HMIN2 and HMAX2 take no third source. -/
theorem lanePackedResults : Obligations.LanePackedResults := by
  unfold Obligations.LanePackedResults
  intro g d a b s hg
  refine ⟨?hadd2, ?hmul2, ?hfma2, ?bfma2, ?hmin2, ?hmax2⟩ <;> refine laneFl_done_eq hg ?_
  case hfma2 | bfma2 => exact halves_words _ _ _ _
  case hadd2 | hmul2 | hmin2 | hmax2 => exact halves_words _ 0 _ _

/-- Settles O16: what a form reads of `a` is a remainder or a quotient of its number, and an integer is delivered as a word. -/
theorem conversionResults : Obligations.ConversionResults := by
  unfold Obligations.ConversionResults
  intro g d a s hg
  refine ⟨?f32s32, ?f32n32, ?s32f32, ?n32f32, ?s32f32rn, ?f16f32, ?f32f16l, ?f32f16h, ?bf16f32, ?f32bf16l, ?f32bf16h, ?e4m3f32, ?e5m2f32,
    ?f32e4m3, ?f32e5m2, ?lns6f32, ?f32lns6, ?s8f32, ?n8f32⟩
  case s32f32 | n32f32 | s32f32rn | s8f32 | n8f32 => exact laneFl_done_ofInt hg _
  all_goals refine laneFl_done_eq hg ?_
  case f32s32 => simp only [BitVec.ofNat_toNat, BitVec.setWidth_eq, cvtFromInt]
  case f32f16l | f32bf16l => rw [toNat_half_low]; rfl
  case f32f16h | f32bf16h => rw [toNat_half_high, Nat.mod_eq_of_lt (by omega)]; rfl
  case f32e4m3 | f32e5m2 | f32lns6 => rw [BitVec.extractLsb'_toNat]; rfl
  case f32n32 | f16f32 | bf16f32 | e4m3f32 | e5m2f32 | lns6f32 => rfl

end Sys2Proof
end

section
/-! PROOFS. Comparisons and predicates of the lane set (R50, R95-R98). -/

namespace Sys2Proof.Machine

/-! ## Conditions (R50) -/

/-- An integer condition is the truth of its relation. -/
theorem icond_iff (cc : ICond) {lt eq : Bool} {L E : Prop} (hl : lt = true ↔ L) (he : eq = true ↔ E) :
    icond cc lt eq = true ↔ match cc with | .eq => E | .ne => ¬E | .lt => L | .le => L ∨ E | .gt => ¬(L ∨ E) | .ge => ¬L := by
  cases cc <;> simp [icond, ← hl, ← he]

theorem Val.lt_of_isNan {a b : Val} (h : a.isNan = true ∨ b.isNan = true) : a.lt b = false := by
  rcases h with h | h
  · cases a with
    | nan q => rfl
    | inf s | fin s m e => cases h
  · cases b with
    | nan q => cases a <;> rfl
    | inf s | fin s m e => cases h

theorem Val.eqv_of_isNan {a b : Val} (h : a.isNan = true ∨ b.isNan = true) : a.eqv b = false := by
  rcases h with h | h <;> simp [Val.eqv, h]

/-- A comparison with a NaN: the conditions that hold, and those that set IV. -/
theorem fcond_nan (cc : FCond) {a b : Val} (h : a.isNan = true ∨ b.isNan = true) :
    ((fcond cc a b).1 = true ↔ cc ∈ [.ne, .un, .ltu, .leu, .gtu, .geu, .equ]) ∧
      (fcond cc a b).2 = if cc ∈ [.lt, .le, .gt, .ge] then flIV else 0 := by
  have hun : (a.isNan || b.isNan) = true := by simpa using h
  have hlt := Val.lt_of_isNan h
  have hgt := Val.lt_of_isNan h.symm
  have heq := Val.eqv_of_isNan h
  cases cc <;> simp [fcond, hun, hlt, hgt, heq, flIf]

/-- A comparison without a NaN is by the order of values, and sets no flag. -/
theorem fcond_ordered (cc : FCond) {a b : Val} (h : ¬(a.isNan = true ∨ b.isNan = true)) :
    (fcond cc a b).2 = 0 ∧ ((fcond cc a b).1 = true ↔ match cc with
      | .eq | .equ => a.lt b = false ∧ b.lt a = false
      | .ne => a.lt b = true ∨ b.lt a = true
      | .lt | .ltu => a.lt b = true
      | .le | .leu => b.lt a = false
      | .gt | .gtu => b.lt a = true
      | .ge | .geu => a.lt b = false
      | .un => False
      | .ord => True) := by
  obtain ⟨ha, hb⟩ : a.isNan = false ∧ b.isNan = false := by simpa using h
  cases hlt : a.lt b with
  | true =>
    have hgt := Val.lt_asymm hlt
    cases cc <;> simp [fcond, Val.eqv, ha, hb, hlt, hgt, flIf]
  | false => cases hgt : b.lt a <;> cases cc <;> simp [fcond, Val.eqv, ha, hb, hlt, hgt, flIf]

/-! ## What a comparison and VTOP come to -/

theorem getP_setWidth (r : Regs) (x : W32) (n : Nat) (k : PReg) :
    (({ r with p := x.setWidth 12 } : Regs).adv n).getP k = x.getLsbD k.val := by
  simp [Regs.getP]

section
variable {g : Guard} {s : State} (hg : s.cur.r.holds g = true)
include hg

/-- The truth of a comparison characterised and not named. -/
theorem predWrite_done_of {pd : PReg} {n : Nat} {b : Bool} {f : Fl} {P : Bool → Prop} (hb : P b) :
    ∃ t z, predWrite g pd n b f s = .next t ∧ PredDone s t pd n z f ∧ P z :=
  let ⟨t, hex, hdone⟩ := predWrite_done hg pd n b f
  ⟨t, b, hex, hdone, hb⟩

/-- The truth and the flags of a comparison characterised and not named. -/
theorem predWrite_done_of_flags {pd : PReg} {n : Nat} {b : Bool} {f : Fl} {P : Bool → Fl → Prop} (hb : P b f) :
    ∃ t z fl, predWrite g pd n b f s = .next t ∧ PredDone s t pd n z fl ∧ P z fl :=
  let ⟨t, hex, hdone⟩ := predWrite_done hg pd n b f
  ⟨t, b, f, hex, hdone, hb⟩

theorem execVtop_done (a : Src8) :
    ∃ t, execVtop g a s = .next t ∧ OnlyRegs s t ∧ (∀ k : PReg, t.cur.r.getP k = (s.cur.src8 a).getLsbD k.val) ∧
      t.cur.r = { s.cur.r with p := t.cur.r.p, pc := s.cur.r.pc + BitVec.ofNat 64 (4 * (1 + a.lits)) } :=
  ⟨_, guarded_true hg _ _, .of_onRegs _ _, getP_setWidth _ _ _, rfl⟩

end

end Sys2Proof.Machine

namespace Sys2Proof
open Machine

/-- Settles O17: a NaN makes no value lower than another, and of two other values at most one is lower. -/
theorem predicateResults : Obligations.PredicateResults := by
  unfold Obligations.PredicateResults
  intro g d pd pa pb tt ic fc a b s hg
  refine ⟨?icmp, ?ncmp, ?fcmp, ?plop, ?vtop, ?ptov⟩
  case icmp => exact predWrite_done_of hg (icond_iff ic BitVec.slt_iff_toInt_lt (by rw [beq_iff_eq, BitVec.toInt_inj]))
  case ncmp => exact predWrite_done_of hg (icond_iff ic BitVec.ult_iff_toNat_lt (by rw [beq_iff_eq, BitVec.toNat_inj]))
  case fcmp =>
    refine predWrite_done_of_flags hg ?_
    intro u v
    by_cases hnan : u.isNan = true ∨ v.isNan = true
    · rw [if_pos hnan]
      exact fcond_nan fc hnan
    · rw [if_neg hnan]
      exact fcond_ordered fc hnan
  case plop => exact predWrite_done hg _ _ _ _
  case vtop => exact execVtop_done hg a
  case ptov => exact laneWrite_done_eq hg (BitVec.ofNat_toNat _ _).symm

end Sys2Proof
end

section
/-! PROOFS. The 64-bit integer instructions of the group set (R99, R103-R107) and the moves between v and x (R113): what a write of a
result to an x register comes to, and each function of 64-bit words as its rule has it. -/

namespace Sys2Proof.Machine

/-! ## An instruction that writes an x register (R99) -/

section
variable {g : Guard} {s : State} (hg : s.cur.r.holds g = true) {d : XReg} {n : Nat} {w : W64}
include hg

/-- The result by another name. -/
theorem groupWrite_done_eq {w' : W64} (hw : w = w') : ∃ t, groupWrite g d n w s = .next t ∧ GroupDone s t d n w' 0 :=
  hw ▸ groupWrite_done hg d n w

/-- The result characterised and not named. -/
theorem groupWrite_done_of {P : W64 → Prop} (hw : P w) : ∃ t r, groupWrite g d n w s = .next t ∧ GroupDone s t d n r 0 ∧ P r :=
  let ⟨t, hex, hdone⟩ := groupWrite_done hg d n w
  ⟨t, w, hex, hdone, hw⟩

/-- A count delivered as a word, the count characterised and not named. -/
theorem groupWrite_done_count {c : Nat} {P : Nat → Prop} (hc : P c) :
    ∃ t k, groupWrite g d n (BitVec.ofNat 64 c) s = .next t ∧ GroupDone s t d n (BitVec.ofNat 64 k) 0 ∧ P k :=
  let ⟨t, hex, hdone⟩ := groupWrite_done hg d n (BitVec.ofNat 64 c)
  ⟨t, c, hex, hdone, hc⟩

end

/-! ## Products (R103), shifts (R104) -/

theorem extractLsb'_ofInt_high (i : Int) : (BitVec.ofInt 128 i).extractLsb' 64 64 = BitVec.ofInt 64 (i / 18446744073709551616) := by
  apply BitVec.eq_of_toNat_eq
  simp only [BitVec.toNat_ofInt, BitVec.extractLsb'_toNat, Nat.shiftRight_eq_div_pow, Nat.reducePow, Nat.cast_ofNat]
  omega

theorem signExtend_mul_signExtend (x y : W64) : x.signExtend 128 * y.signExtend 128 = BitVec.ofInt 128 (x.toInt * y.toInt) :=
  (BitVec.ofInt_mul ..).symm

theorem setWidth_mul_setWidth (x y : W64) : x.setWidth 128 * y.setWidth 128 = BitVec.ofInt 128 (x.toNat * y.toNat : Nat) := by
  rw [BitVec.ofInt_natCast, BitVec.ofNat_mul, BitVec.ofNat_toNat, BitVec.ofNat_toNat]

/-- A word of any width times a power of two: 0 from its width on. -/
theorem shiftLeft_clipped_eq {n : Nat} (x : BitVec n) (k : Nat) : (if k < n then x <<< k else 0) = BitVec.ofNat n (x.toNat * 2 ^ k) := by
  have hshift : x <<< k = BitVec.ofNat n (x.toNat * 2 ^ k) :=
    BitVec.eq_of_toNat_eq (by rw [BitVec.toNat_shiftLeft, Nat.shiftLeft_eq, BitVec.toNat_ofNat])
  split
  · exact hshift
  · rename_i h
    rw [← hshift, BitVec.shiftLeft_eq_zero (Nat.le_of_not_lt h)]; rfl

/-- A word of any width divided by a power of two: 0 from its width on. -/
theorem ushiftRight_clipped_eq {n : Nat} (x : BitVec n) (k : Nat) : (if k < n then x >>> k else 0) = BitVec.ofNat n (x.toNat / 2 ^ k) := by
  have hshift : x >>> k = BitVec.ofNat n (x.toNat / 2 ^ k) := by
    apply BitVec.eq_of_toNat_eq
    rw [BitVec.toNat_ushiftRight, Nat.shiftRight_eq_div_pow, BitVec.toNat_ofNat,
      Nat.mod_eq_of_lt (Nat.lt_of_le_of_lt (Nat.div_le_self _ _) x.isLt)]
  split
  · exact hshift
  · rename_i h
    rw [← hshift, BitVec.ushiftRight_eq_zero (Nat.le_of_not_lt h)]; rfl

/-- From 64 on every bit of an arithmetic shift is the sign. -/
theorem sshiftRight_of_le {x : W64} {k : Nat} (h : 64 ≤ k) : x.sshiftRight k = if x.msb then BitVec.allOnes 64 else 0 := by
  apply BitVec.eq_of_getLsbD_eq
  intro i hi
  rw [BitVec.getLsbD_sshiftRight, if_neg (by omega), decide_eq_false (Nat.not_le.mpr hi)]
  cases x.msb with
  | false => exact BitVec.getLsbD_zero.symm
  | true => rw [if_pos rfl, BitVec.getLsbD_allOnes, decide_eq_true hi]; rfl

theorem wsarW_eq (x y : W64) : wsarW x y = BitVec.ofInt 64 (x.toInt / 2 ^ y.toNat) := by
  have hshift : wsarW x y = x.sshiftRight y.toNat := by
    unfold wsarW
    split
    · rfl
    · rename_i h
      exact (sshiftRight_of_le (Nat.le_of_not_lt h)).symm
  rw [hshift, BitVec.sshiftRight, Int.shiftRight_eq_div_pow, Nat.cast_pow, Nat.cast_ofNat]

/-! ## The WUNARY functions (R106) -/

theorem ofInt_natAbs_toInt {n : Nat} (x : BitVec n) : (if x.msb then -x else x) = BitVec.ofInt n x.toInt.natAbs := by
  split <;> rename_i h
  · have hneg := BitVec.toInt_neg_of_msb_true h
    rw [Int.natCast_natAbs, abs_of_neg hneg, BitVec.ofInt_neg, BitVec.ofInt_toInt]
  · have hpos := BitVec.toInt_nonneg_of_msb_false (by simpa using h)
    rw [Int.natCast_natAbs, abs_of_nonneg hpos, BitVec.ofInt_toInt]

theorem getLsbD_reversed {n : Nat} (x : BitVec n) {i : Nat} (hi : i < n) : x.reverse.getLsbD i = x.getLsbD (n - 1 - i) := by
  rw [BitVec.getLsbD_reverse, BitVec.getMsbD, decide_eq_true hi, Bool.true_and]

/-- The bytes of a number that is put together from the top byte down. -/
theorem foldl_bytes_div {b : Nat → Nat} (hb : ∀ j, b j < 256) (k : Nat) : ∀ {i : Nat}, i < k →
    (List.range k).foldl (fun r j => r * 256 + b j) 0 / 256 ^ i % 256 = b (k - 1 - i) := by
  induction k with
  | zero => exact fun h => absurd h (Nat.not_lt_zero _)
  | succ k ih =>
    intro i hi
    have hlast := hb k
    rw [List.range_succ, List.foldl_append, List.foldl_cons, List.foldl_nil]
    cases i with
    | zero => rw [Nat.pow_zero, Nat.div_one, Nat.add_sub_cancel, Nat.sub_zero]; omega
    | succ i =>
      have hdrop (r : Nat) : (r * 256 + b k) / 256 = r := by omega
      rw [Nat.pow_succ', ← Nat.div_div_eq_div_mul, hdrop, ih (by omega)]
      congr 1
      omega

theorem extractLsb'_bswap64 (x : W64) {i : Nat} (hi : i < 8) : (bswapW x).extractLsb' (8 * i) 8 = x.extractLsb' (8 * (7 - i)) 8 := by
  have hbyte := foldl_bytes_div (b := fun j => x.toNat / 2 ^ (8 * j) % 256) (fun _ => Nat.mod_lt _ (by decide)) 8 hi
  have hpow : 2 ^ (8 * i) = 256 ^ i := Nat.pow_mul 2 8 i
  have hdvd : 2 ^ 64 = 256 ^ i * (256 * 256 ^ (7 - i)) := by
    rw [← Nat.pow_succ', ← Nat.pow_add, show i + (7 - i + 1) = 8 by omega]; rfl
  apply BitVec.eq_of_toNat_eq
  rw [BitVec.extractLsb'_toNat, BitVec.extractLsb'_toNat, Nat.shiftRight_eq_div_pow, Nat.shiftRight_eq_div_pow, bswapW,
    BitVec.toNat_ofNat, hpow, hdvd, Nat.mod_mul_right_div_self, Nat.mod_mul_right_mod]
  exact hbyte

theorem setWidth32_setWidth (x : W64) : (x.setWidth 32).setWidth 64 = x &&& 0xFFFFFFFF := by
  apply BitVec.eq_of_toNat_eq
  rw [BitVec.toNat_setWidth, BitVec.toNat_setWidth, BitVec.toNat_and]
  have hmask := Nat.and_two_pow_sub_one_eq_mod x.toNat 32
  have hlt : x.toNat % 2 ^ 32 < 2 ^ 64 := by omega
  rw [Nat.mod_eq_of_lt hlt, ← hmask]
  rfl

/-! ## The moves between v and x (R113) -/

theorem pair_eq_ofNat (r : Regs) (v : VReg) :
    r.pair v = BitVec.ofNat 64 ((r.vAt (v.val + 1)).toNat * 2 ^ 32 + (r.getV v).toNat) := by
  have hlo := (r.getV v).isLt
  have hhi := (r.vAt (v.val + 1)).isLt
  apply BitVec.eq_of_toNat_eq
  rw [Regs.pair, BitVec.toNat_append, BitVec.toNat_ofNat, Nat.shiftLeft_eq, Nat.mul_comm, ← Nat.two_pow_add_eq_or_of_lt hlo]
  omega

theorem MoveDone.of_put8 (s : State) (d : Dst8) (w : W32) : MoveDone s (s.onRegs (fun r => (r.put8 d w).adv 1)) d w := by
  have hlane := LaneRegs.of_write8 s.cur.r d 1 w 0
  refine ⟨.of_onRegs _ _, ?pc, ?lr, hlane.v, hlane.o, ?rest⟩
  case pc => rw [State.onRegs_cur, Regs.adv_pc, Regs.put8_pc]; rfl
  case lr => cases d <;> rfl
  case rest => cases d <;> rfl

section
variable {g : Guard} {s : State} (hg : s.cur.r.holds g = true)
include hg

/-- A move of one word to an F8 destination. -/
theorem guarded_put8_done (d : Dst8) (w : W32) :
    ∃ t, guarded g 1 s (.next (s.onRegs (fun r => (r.put8 d w).adv 1))) = .next t ∧ MoveDone s t d w :=
  ⟨_, guarded_true hg _ _, .of_put8 s d w⟩

theorem execX2vp_done (v : VReg) (a : XReg) :
    ∃ t, execX2vp g v a s = .next t ∧ OnlyRegs s t ∧ t.cur.r = { s.cur.r with v := t.cur.r.v, pc := s.cur.r.pc + 4 } ∧
      ∀ k : VReg, t.cur.r.getV k = if k = Fin.ofNat 128 (v.val + 1) then (s.cur.r.getX a).extractLsb' 32 32
        else if k = v then (s.cur.r.getX a).extractLsb' 0 32 else s.cur.r.getV k := by
  refine ⟨_, guarded_true hg _ _, .of_onRegs _ _, rfl, fun k => ?_⟩
  have hset : (((s.cur.r.setPair v (s.cur.r.getX a)).adv 1).getV k) = (s.cur.r.setPair v (s.cur.r.getX a)).getV k := rfl
  rw [State.onRegs_cur, hset, Regs.setPair, Regs.setVAt, Regs.getV_setV, Regs.getV_setV, BitVec.setWidth_eq_extractLsb' (by decide)]

end

end Sys2Proof.Machine

namespace Sys2Proof
open Machine

/-- Settles O18: the high words by the exact product in 128 bits, each shift as a product or a quotient by a power of two; WSEL is an
instruction without a guard, and the truth of the guard that it names selects. -/
theorem groupIntegerResults : Obligations.GroupIntegerResults := by
  unfold Obligations.GroupIntegerResults
  intro g d a b s
  refine ⟨fun hg => ?_, groupWrite_done_eq (g := none) rfl ?wsel⟩
  case wsel => cases g <;> rfl
  refine ⟨?wadd, ?wsub, ?wmul, ?wmulhs, ?wmulhn, ?wand, ?wor, ?wxor, ?wmin, ?wmax, ?wnmin, ?wnmax, ?wshl, ?wshr, ?wsar⟩ <;>
    refine groupWrite_done_eq hg ?_
  case wadd | wsub | wmul | wand | wor | wxor => rfl
  case wmulhs => rw [signExtend_mul_signExtend, extractLsb'_ofInt_high]
  case wmulhn => rw [setWidth_mul_setWidth, extractLsb'_ofInt_high]; rfl
  case wmin | wmax => exact ite_lt_eq_ite_le BitVec.slt_iff_toInt_lt _ _
  case wnmin | wnmax => exact ite_lt_eq_ite_le BitVec.ult_iff_toNat_lt _ _
  case wshl => exact shiftLeft_clipped_eq _ _
  case wshr => exact ushiftRight_clipped_eq _ _
  case wsar => exact wsarW_eq _ _

/-- Settles O19: the counts by the place of the first 1, reversals by bits and bytes, the moves by the halves of the x register. -/
theorem groupUnaryResults : Obligations.GroupUnaryResults := by
  unfold Obligations.GroupUnaryResults
  intro g d a e b v s hg
  refine ⟨?wmov, ?wnot, ?wneg, ?wabs, ?wpopc, ?wclz, ?wctz, ?wbrev, ?wbswap, ?wsext32, ?wzext32, ?v2x, ?v2xs, ?vp2x, ?x2v, ?x2vh, ?x2vp⟩
  case wclz | wctz => exact groupWrite_done_count hg (zerosFrom_spec _ _)
  case wbrev => exact groupWrite_done_of hg fun i hi => getLsbD_reversed _ hi
  case wbswap => exact groupWrite_done_of hg fun i hi => extractLsb'_bswap64 _ hi
  case x2v => exact BitVec.setWidth_eq_extractLsb' (w := 32) (x := s.cur.r.getX a) (by decide) ▸ guarded_put8_done hg e _
  case x2vh => exact guarded_put8_done hg e _
  case x2vp => exact execX2vp_done hg v a
  all_goals refine groupWrite_done_eq hg ?_
  case wmov | wsext32 | v2xs => rfl
  case wnot => exact BitVec.xor_allOnes.symm
  case wneg => exact (BitVec.zero_sub _).symm
  case wabs => exact ofInt_natAbs_toInt _
  case wpopc => exact congrArg _ (popcount_eq_countP _)
  case wzext32 => exact setWidth32_setWidth _
  case v2x => exact (BitVec.ofNat_toNat _ _).symm
  case vp2x => exact pair_eq_ofNat _ _

/-- Settles O22: the conditions of R50 on the orders of signed and of unsigned words. -/
theorem groupComparisons : Obligations.GroupComparisons := by
  unfold Obligations.GroupComparisons
  intro g pd ic a b s hg
  refine ⟨?wcmp, ?wncmp⟩
  case wcmp => exact predWrite_done_of hg (icond_iff ic BitVec.slt_iff_toInt_lt (by rw [beq_iff_eq, BitVec.toInt_inj]))
  case wncmp => exact predWrite_done_of hg (icond_iff ic BitVec.ult_iff_toNat_lt (by rw [beq_iff_eq, BitVec.toNat_inj]))

end Sys2Proof
end

section
/-! PROOFS. The binary64 instructions of the group set (R108-R112). -/

namespace Sys2Proof.Machine

section
variable {g : Guard} {s : State} (hg : s.cur.r.holds g = true) {d : XReg} {n : Nat}
include hg

/-- The result and the flags by another name. -/
theorem groupFl_done_eq {w w' : Nat × Fl} (hw : w = w') : ∃ t, groupFl g d n w s = .next t ∧ GroupDoneFl s t d n w' :=
  hw ▸ groupFl_done hg d n w

/-- An integer delivered in 64 bits of two's complement (R68, R112). -/
theorem groupFl_done_ofInt (v : Int × Fl) :
    ∃ t, groupFl g d n ((BitVec.ofInt 64 v.1).toNat, v.2) s = .next t ∧ GroupDone s t d n (BitVec.ofInt 64 v.1) v.2 := by
  obtain ⟨t, hex, hdone⟩ := groupFl_done hg d n ((BitVec.ofInt 64 v.1).toNat, v.2)
  exact ⟨t, hex, by rwa [BitVec.ofNat_toNat, BitVec.setWidth_eq] at hdone⟩

end

theorem toNat_word_low (x : W64) : (x.extractLsb' 0 32).toNat = x.toNat % 4294967296 := by
  rw [BitVec.extractLsb'_toNat, Nat.shiftRight_zero]

theorem ofNat_toNat_word_low (x : W64) : BitVec.ofNat 32 x.toNat = x.extractLsb' 0 32 := by
  rw [BitVec.ofNat_toNat, BitVec.setWidth_eq_extractLsb' (by decide)]

end Sys2Proof.Machine

namespace Sys2Proof
open Machine

/-- Settles O20: one rounding of the exact value by `Fmt.out`; DMIN and DMAX are R89's choice on encodings. -/
theorem groupFloatArithmetic : Obligations.GroupFloatArithmetic := by
  unfold Obligations.GroupFloatArithmetic
  intro g d a b s hg
  refine ⟨?dadd, ?dsub, ?dmul, ?dfma, ?dmin, ?dmax⟩ <;> refine groupFl_done_eq hg ?_
  case dadd | dsub | dmul | dfma | dmin | dmax => rfl

/-- Settles O21: R110's functions are rounded by `Fmt.out`, R112's integers are delivered in 64 bits, and DCMP is R50's condition. -/
theorem groupFloatFunctions : Obligations.GroupFloatFunctions := by
  unfold Obligations.GroupFloatFunctions
  intro g d a pd fc b s hg
  refine ⟨?dabs, ?dneg, ?dsqrt, ?drcp, ?dfloor, ?dceil, ?dtrunc, ?drint, ?dclass, ?ds64, ?dn64, ?s64d, ?n64d, ?df32l, ?f32d, ?ds32, ?s32d,
    ?dcmp⟩
  case s64d | n64d | s32d => exact groupFl_done_ofInt hg _
  case dcmp =>
    refine predWrite_done_of_flags hg ?_
    intro u v
    by_cases hnan : u.isNan = true ∨ v.isNan = true
    · rw [if_pos hnan]
      exact fcond_nan fc hnan
    · rw [if_neg hnan]
      exact fcond_ordered fc hnan
  all_goals refine groupFl_done_eq hg ?_
  case dabs | dneg | dsqrt | drcp | dfloor | dceil | dtrunc | drint | dclass => rfl
  case ds64 => simp only [BitVec.ofNat_toNat, BitVec.setWidth_eq, cvtFromInt]
  case df32l => rw [toNat_word_low]; rfl
  case ds32 => rw [← ofNat_toNat_word_low]; rfl
  case dn64 | f32d => rfl

end Sys2Proof
end

section
/-! PROOFS. The return from a trap (R120, R307). -/

namespace Sys2Proof.Machine

theorem execTret_returns {g : Guard} {s : State} (hg : s.cur.r.holds g = true) (hfence : s.cur.fence = none) (hm : s.cur.tmode = true) :
    execTret g s = .next (s.onCur trapReturn) := by
  rw [execTret, guarded_true hg, settled_none hfence, if_pos hm]

end Sys2Proof.Machine

namespace Sys2Proof
open Machine

/-- Settles O30. -/
theorem trapReturn : Obligations.TrapReturn := by
  unfold Obligations.TrapReturn
  intro g s hg hfence hm
  exact execTret_returns hg hfence hm

end Sys2Proof
end

section
/-! PROOFS. Shape queries (R114, R166): the one slope that a tag test tries fits wherever some slope does. -/

namespace Sys2Proof.Machine

/-! ## The head of a sorted list -/

theorem head_insertBy_le {α : Type} {k : α → Nat} {a : α} {l : List α} (h : ∀ x, l.head? = some x → ∀ y ∈ l, k x ≤ k y) :
    ∀ x, (insertBy k a l).head? = some x → ∀ y ∈ insertBy k a l, k x ≤ k y := by
  intro x hx y hy
  rw [mem_insertBy] at hy
  cases l with
  | nil =>
    obtain rfl : a = x := Option.some.inj hx
    rcases hy with rfl | hy
    · exact Nat.le_refl _
    · cases hy
  | cons b l =>
    have hb := h b rfl
    unfold insertBy at hx
    split at hx
    · rename_i hab
      obtain rfl : a = x := Option.some.inj hx
      rcases hy with rfl | hy
      · exact Nat.le_refl _
      · exact Nat.le_trans (Nat.le_of_lt hab) (hb y hy)
    · rename_i hab
      obtain rfl : b = x := Option.some.inj hx
      rcases hy with rfl | hy
      · exact Nat.le_of_not_lt hab
      · exact hb y hy

/-- The head of a sorted list is a least element. -/
theorem head_sortBy_le {α : Type} {k : α → Nat} {l : List α} {x : α} (h : (sortBy k l).head? = some x) {y : α} (hy : y ∈ l) :
    k x ≤ k y := by
  have hall : ∀ x, (sortBy k l).head? = some x → ∀ y ∈ sortBy k l, k x ≤ k y :=
    List.foldlRecOn (motive := fun r => ∀ x, r.head? = some x → ∀ y ∈ r, k x ≤ k y) l (fun r a => insertBy k a r)
      (fun x hx => by cases hx) (fun r hr a _ => head_insertBy_le hr)
  exact hall x h y (mem_sortBy.mpr hy)

/-! ## Powers of two and inverses of words -/

variable {n : Nat}

theorem ushiftRight_mul_twoPow {w y : BitVec n} {k : Nat} (h : w = y * BitVec.twoPow n k) : (w >>> k) * BitVec.twoPow n k = w := by
  rw [← BitVec.shiftLeft_eq_mul_twoPow] at h ⊢
  subst h
  apply BitVec.eq_of_getLsbD_eq
  intro i hi
  simp only [BitVec.getLsbD_shiftLeft, BitVec.getLsbD_ushiftRight]
  by_cases hk : i < k
  · simp [hk]
  · have hi' : k + (i - k) = i := by omega
    simp [hk, hi, hi']

/-- A word is a multiple of the power of two at which its lowest 1 stands, and of every lower one. -/
theorem eq_mul_twoPow_of_le_ctzW {w : BitVec n} {k : Nat} (h : k ≤ ctzW w) : w = (w >>> k) * BitVec.twoPow n k := by
  obtain ⟨-, hzero, -⟩ := zerosFrom_spec w (fun j => j)
  rw [← BitVec.shiftLeft_eq_mul_twoPow]
  apply BitVec.eq_of_getLsbD_eq
  intro i hi
  simp only [BitVec.getLsbD_shiftLeft, BitVec.getLsbD_ushiftRight]
  by_cases hk : i < k
  · simp [hk, hzero i (Nat.lt_of_lt_of_le hk h)]
  · have hi' : k + (i - k) = i := by omega
    simp [hk, hi, hi']

/-- What is left of a word above its trailing zeros is odd, or the word is 0 and as many zeros as bits stand before it. -/
theorem odd_or_twoPow_ctzW_eq_zero (w : BitVec n) : (w >>> ctzW w).getLsbD 0 = true ∨ BitVec.twoPow n (ctzW w) = 0 := by
  obtain ⟨hle, -, hone⟩ := zerosFrom_spec w (fun j => j)
  rcases Nat.lt_or_eq_of_le hle with h | h
  · left
    rw [BitVec.getLsbD_ushiftRight]
    exact hone h
  · right
    have hc : ctzW w = n := h
    apply BitVec.eq_of_toNat_eq
    rw [hc, BitVec.toNat_twoPow, Nat.mod_self]; rfl

theorem eq_one_add_two_mul {o : BitVec n} (h : o.getLsbD 0 = true) : o = 1 + 2 * BitVec.ofNat n (o.toNat / 2) := by
  have hodd : o.toNat = 1 + 2 * (o.toNat / 2) := by
    have : o.toNat % 2 = 1 := by simpa [BitVec.getLsbD, Nat.testBit_zero] using h
    omega
  have hcast := congrArg (BitVec.ofNat n) hodd
  rwa [BitVec.ofNat_add, BitVec.ofNat_mul, BitVec.ofNat_toNat, BitVec.setWidth_eq] at hcast

/-- Each of Newton's steps squares the error, which is even at first. -/
theorem mul_oddInv (hn : n ≤ 64) {o : BitVec n} (h : o.getLsbD 0 = true) : o * oddInv o = 1 := by
  have herr : 1 - o * oddInv o = (1 - o * o) ^ 64 := by
    simp only [oddInv, List.range, List.range.loop, List.foldl]
    ring
  have heven : 1 - o * o = 2 * (-2 * BitVec.ofNat n (o.toNat / 2) * (1 + BitVec.ofNat n (o.toNat / 2))) := by
    conv_lhs => rw [eq_one_add_two_mul h]
    ring
  have hpow : (2 : BitVec n) ^ 64 = 0 := by
    have hcast : (2 : BitVec n) ^ 64 = BitVec.ofNat n (2 ^ 64) := (Nat.cast_pow 2 64).symm
    rw [hcast]
    exact BitVec.eq_of_toNat_eq (by rw [BitVec.toNat_ofNat, Nat.mod_eq_zero_of_dvd (Nat.pow_dvd_pow 2 hn)]; rfl)
  rw [heven, mul_pow, hpow, zero_mul, sub_eq_zero] at herr
  exact herr.symm

/-! ## One slope (R166) -/

theorem affine_iff (hn : n ≤ 64) {ds : List (BitVec n × BitVec n)} (hne : ds ≠ []) :
    affine ds = true ↔ ∃ m : BitVec n, ∀ x ∈ ds, x.2 = m * x.1 := by
  unfold affine
  cases hhead : (sortBy (fun x => ctzW x.1) ds).head? with
  | none =>
    obtain ⟨x, hx⟩ := List.exists_mem_of_ne_nil ds hne
    rw [List.head?_eq_none_iff] at hhead
    have := (mem_sortBy (k := fun x => ctzW x.1)).mpr hx
    rw [hhead] at this
    cases this
  | some de =>
    obtain ⟨d, e⟩ := de
    have hmem : (d, e) ∈ ds := mem_sortBy.mp (List.mem_of_head? hhead)
    simp only [List.all_eq_true, beq_iff_eq]
    refine ⟨fun h => ⟨_, h⟩, fun ⟨m, hm⟩ x hx => ?_⟩
    have hdk := eq_mul_twoPow_of_le_ctzW (Nat.le_refl (ctzW d))
    have hxk : x.1 = (x.1 >>> ctzW d) * BitVec.twoPow n (ctzW d) := eq_mul_twoPow_of_le_ctzW (head_sortBy_le hhead hx)
    have he : e = m * (d >>> ctzW d) * BitVec.twoPow n (ctzW d) := by rw [mul_assoc, ← hdk]; exact hm (d, e) hmem
    have hslope : (e >>> ctzW d) * oddInv (d >>> ctzW d) * BitVec.twoPow n (ctzW d) = m * BitVec.twoPow n (ctzW d) := by
      rcases odd_or_twoPow_ctzW_eq_zero d with hodd | hz
      · calc (e >>> ctzW d) * oddInv (d >>> ctzW d) * BitVec.twoPow n (ctzW d)
            = (e >>> ctzW d) * BitVec.twoPow n (ctzW d) * oddInv (d >>> ctzW d) := by ring
          _ = m * (d >>> ctzW d) * BitVec.twoPow n (ctzW d) * oddInv (d >>> ctzW d) := by rw [ushiftRight_mul_twoPow he, ← he]
          _ = m * BitVec.twoPow n (ctzW d) * ((d >>> ctzW d) * oddInv (d >>> ctzW d)) := by ring
          _ = m * BitVec.twoPow n (ctzW d) := by rw [mul_oddInv hn hodd, mul_one]
      · rw [hz, mul_zero, mul_zero]
    rw [hm x hx, hxk]
    linear_combination (-(x.1 >>> ctzW d)) * hslope

/-- All values are equal. -/
def Uniform (l : List (Nat × BitVec n)) : Prop := ∀ p ∈ l, ∀ q ∈ l, p.2 = q.2

/-- Some base and some slope give every value from its TID. -/
def OnLine (l : List (Nat × BitVec n)) : Prop := ∃ b m : BitVec n, ∀ p ∈ l, p.2 = b + m * BitVec.ofNat n p.1

theorem uniform_cons (t : Nat) (v : BitVec n) (xs : List (Nat × BitVec n)) :
    Uniform ((t, v) :: xs) ↔ xs.all (fun x => x.2 == v) = true := by
  simp only [List.all_eq_true, beq_iff_eq]
  constructor
  · intro h x hx
    exact h x (List.mem_cons_of_mem _ hx) (t, v) List.mem_cons_self
  · intro h p hp q hq
    have hall (p) (hp : p ∈ (t, v) :: xs) : p.2 = v := by
      rcases List.mem_cons.mp hp with rfl | hp
      · rfl
      · exact h p hp
    rw [hall p hp, hall q hq]

/-- Values lie on a line when their differences from the first fit one slope. -/
theorem onLine_cons (hn : n ≤ 64) (t : Nat) (v : BitVec n) {xs : List (Nat × BitVec n)} (hne : xs ≠ []) :
    OnLine ((t, v) :: xs) ↔ affine (xs.map (fun x => (BitVec.ofNat n x.1 - BitVec.ofNat n t, x.2 - v))) = true := by
  rw [affine_iff hn (by simpa using hne)]
  simp only [List.forall_mem_map]
  constructor
  · rintro ⟨b, m, h⟩
    have hv : v = b + m * BitVec.ofNat n t := h (t, v) List.mem_cons_self
    refine ⟨m, fun x hx => ?_⟩
    rw [h x (List.mem_cons_of_mem _ hx), hv]
    ring
  · rintro ⟨m, h⟩
    refine ⟨v - m * BitVec.ofNat n t, m, fun p hp => ?_⟩
    rcases List.mem_cons.mp hp with rfl | hp
    · dsimp only; ring
    · linear_combination h p hp

/-- The tag of R166 by what it says of the values. -/
theorem tagOfVals_spec (hn : n ≤ 64) (l : List (Nat × BitVec n)) :
    (Uniform l → tagOfVals l = 0) ∧ (¬Uniform l → (OnLine l → tagOfVals l = 1) ∧ (¬OnLine l → tagOfVals l = 2)) := by
  cases l with
  | nil => exact ⟨fun _ => rfl, fun h => absurd (fun p hp => nomatch hp) h⟩
  | cons p xs =>
    obtain ⟨t, v⟩ := p
    rw [uniform_cons]
    refine ⟨fun h => if_pos h, fun h => ?_⟩
    have hne : xs ≠ [] := fun e => h (by rw [e]; rfl)
    rw [onLine_cons hn t v hne]
    exact ⟨fun hl => (if_neg h).trans (if_pos hl), fun hl => (if_neg h).trans (if_neg hl)⟩

theorem tagGroup_thr {s : State} {w i : Nat} (href : s.cur.ref = .thr w i) : tagGroup s s.cur = liveOf s w := by
  simp only [tagGroup, href]

/-- The tag of a register over a list of threads, by their contents of it. -/
theorem tagOfVals_map (hn : n ≤ 64) (f : Thread → BitVec n) (ls : List Thread) :
    ((∀ a ∈ ls, ∀ b ∈ ls, f a = f b) → BitVec.ofNat 64 (tagOfVals (ls.map (fun x => (x.tid, f x)))) = 0) ∧
      ((¬∀ a ∈ ls, ∀ b ∈ ls, f a = f b) →
        ((∃ b m : BitVec n, ∀ a ∈ ls, f a = b + m * BitVec.ofNat n a.tid) →
          BitVec.ofNat 64 (tagOfVals (ls.map (fun x => (x.tid, f x)))) = 1) ∧
        ((¬∃ b m : BitVec n, ∀ a ∈ ls, f a = b + m * BitVec.ofNat n a.tid) →
          BitVec.ofNat 64 (tagOfVals (ls.map (fun x => (x.tid, f x)))) = 2)) := by
  obtain ⟨huni, hrest⟩ := tagOfVals_spec hn (ls.map (fun x => (x.tid, f x)))
  simp only [Uniform, OnLine, List.forall_mem_map] at huni hrest
  refine ⟨fun h => by rw [huni h]; rfl, fun h => ?_⟩
  obtain ⟨hline, helse⟩ := hrest h
  exact ⟨fun hl => by rw [hline hl]; rfl, fun hl => by rw [helse hl]; rfl⟩

end Sys2Proof.Machine

namespace Sys2Proof
open Machine

/-- Settles O34: the difference with the fewest trailing zeros fixes the slope on every bit that matters (`affine_iff`). -/
theorem shapeQueries : Obligations.ShapeQueries := by
  unfold Obligations.ShapeQueries
  intro g d v x q w i s hg href
  refine ⟨?tagofV, ?tagofX, ?fmtof⟩
  case tagofV =>
    refine groupWrite_done_of hg ?_
    rw [tagOf, tagGroup_thr href]
    exact tagOfVals_map (by decide) _ _
  case tagofX =>
    refine groupWrite_done_of hg ?_
    rw [tagOf, tagGroup_thr href]
    exact tagOfVals_map (by decide) _ _
  case fmtof => exact groupWrite_done hg d 1 _

end Sys2Proof
end

section
/-! PROOFS. WAITC, YIELD, FENCE, FTOK and FWAIT (R118, R122, R208-R212, R368): what a release and an acquire leave of the selected
thread and of its core's L1 (R204, R205), and the order point of scope 2 (R348). -/

namespace Sys2Proof.Machine

/-! ## Release and acquire (R204, R205) -/

section
variable {c : Thread} (hc : c.fence = none) {s : State} (hs : s.cur = c)
include hc hs

theorem writeBackAll_cur (core : Nat) (p : Sector → Bool) (drop : Bool) : (writeBackAll s core p drop).cur = c :=
  foldl_cur (fun _ x hs => writeBack_cur hc hs core x drop) _ hs

theorem release_cur (core cid scope : Nat) : (release s core cid scope).cur = c := by
  unfold release
  dsimp only
  have written : (if 3 ≤ scope && hasL1 core then writeBackAll s core (fun x => x.cid == cid && x.dirty != 0) false else s).cur = c := by
    split
    · exact writeBackAll_cur hc hs _ _ _
    · exact hs
  split <;> exact written

end

@[simp] theorem acquire_cur (s : State) (core cid scope : Nat) : (acquire s core cid scope).cur = s.cur := by
  unfold acquire
  split
  · exact State.onCore_cur _ _ _
  · rfl

theorem l1_invalidateClean (s : State) (core cid : Nat) :
    ((invalidateClean s core cid).core core).l1 = ((s.core core).l1.filter (fun x => !(x.cid == cid && x.dirty == 0))).map
      (fun x => if x.cid == cid then { x with valid := false } else x) := by
  rw [invalidateClean, State.core_onCore, if_pos rfl]
  exact fun _ => rfl

/-- An acquire from cluster scope on leaves its context no clean line (R205). -/
theorem dirty_of_mem_acquire {s : State} {core cid scope : Nat} (hscope : 3 ≤ scope) (hcore : core < 384) {x : Sector}
    (hx : x ∈ ((acquire s core cid scope).core core).l1) (hcid : x.cid = cid) : x.dirty ≠ 0 := by
  have hl1 : (decide (3 ≤ scope) && hasL1 core) = true := by simp [hscope, hasL1, Config.cores, hcore]
  rw [acquire, if_pos hl1, l1_invalidateClean, List.mem_map] at hx
  obtain ⟨y, hy, hyx⟩ := hx
  have hkept : y.cid ≠ cid ∨ y.dirty ≠ 0 := by simpa using (List.mem_filter.mp hy).2
  have hsame : y.cid = x.cid ∧ y.dirty = x.dirty := by
    subst hyx
    split <;> exact ⟨rfl, rfl⟩
  obtain ⟨hc, hd⟩ := hsame
  exact hd ▸ hkept.resolve_left (fun h => h (hc.trans hcid))

/-! ## The order point of scope 2 (R348) -/

theorem atScope2_open {s : State} {sc : Nat} (h : sc = 2 → replaying s s.cur.cid = false) (k : State → Out) :
    ∃ ctxs, atScope2 s sc k = k { s with ctxs } := by
  unfold atScope2
  split
  · rename_i hsc
    obtain ⟨f, hf⟩ := gateTake_open (h hsc) s.cur.core s.cur.core s.cur.slot 0
    exact ⟨_, by simp only [orderPoint, hf]; rfl⟩
  · exact ⟨s.ctxs, rfl⟩

/-! ## What is met -/

theorem waitcOk_iff (n field ones : Nat) : waitcOk n field ones = true ↔ field = ones ∨ n ≤ field := by
  simp [waitcOk]

theorem coveredDone_iff (t : Thread) (kinds : BitVec 6) (upto : Nat) :
    coveredDone t kinds upto = true ↔ ∀ m ∈ t.mops, m.id < upto → covers kinds m = false := by
  simp [coveredDone]

/-- A token of the thread's own that is not among the incomplete ones (R212). -/
theorem fwaitTest_fence {s : State} {t : Thread} {tok : W64} (h1 : bits tok.toNat 56 8 = 1) (htid : bits tok.toNat 44 12 = t.tid)
    (h0 : bits tok.toNat 0 35 ≠ 0) (hseq : bits tok.toNat 0 35 ≤ t.seq) (hdone : ∀ k ∈ t.toks, k.seq ≠ bits tok.toNat 0 35) :
    fwaitTest s t tok = .complete (bits tok.toNat 41 3) := by
  have hlegal : ¬(bits tok.toNat 44 12 ≠ t.tid ∨ bits tok.toNat 0 35 = 0 ∨ t.seq < bits tok.toNat 0 35) := by
    simp [htid, h0, hseq]
  have hnone : t.toks.any (fun k => k.seq == bits tok.toNat 0 35) = false := by simpa using hdone
  simp only [fwaitTest, if_pos h1, if_neg hlegal, hnone, Bool.false_eq_true, if_false]

/-- A collective's token whose collective has started and is not in flight (R368). -/
theorem fwaitTest_coll {s : State} {t : Thread} {tok : W64} {c : Ctx} (h2 : bits tok.toNat 56 8 = 2) (hc : s.ctx? t.cid = some c)
    (hlast : bits tok.toNat 0 40 ≤ lastColl c (bits tok.toNat 46 10))
    (hdone : ∀ x ∈ c.colls, x.g = bits tok.toNat 46 10 → x.k ≠ bits tok.toNat 0 40) : fwaitTest s t tok = .complete 6 := by
  have hnone : c.colls.any (fun x => x.g == bits tok.toNat 46 10 && x.k == bits tok.toNat 0 40) = false := by
    simpa using hdone
  have h1 : ¬bits tok.toNat 56 8 = 1 := by omega
  rw [lastColl] at hlast
  simp only [fwaitTest, if_neg h1, if_pos h2, hc, if_neg (Nat.not_lt.mpr hlast), hnone, Bool.false_eq_true, if_false]

/-! ## The instructions -/

section
variable {g : Guard} {s : State} (hg : s.cur.r.holds g = true)
include hg

theorem execWaitc_next {lo : BitVec 6} {st co ti : BitVec 5} (h : waitcMet s s.cur lo st co ti = true) :
    execWaitc g lo st co ti s = .next (s.adv 1) := by
  rw [execWaitc, guarded_true hg, if_pos h]

variable (hfence : s.cur.fence = none)
include hfence

theorem execYield_next : execYield g s = .next ((s.onCur (fun t => { t with age := 0 })).adv 1) := by
  rw [execYield, guarded_true hg, settled_none hfence]

/-- The fence that stands pending once the thread goes on (R209). -/
def newFence (s : State) (scope : Nat) (kinds : BitVec 4) : Fence :=
  { scope, kinds, upto := s.cur.nmop, snap := { s.cur.r with pc := s.cur.r.pc + 4 }, count := 0, watch := [], hit := false, rolled := false }

theorem execFence_speculates {sc : Scope} (hsc : sc.code ≤ 4) (kinds : BitVec 4) :
    execFence g sc kinds s = .next { s with cur := { s.cur with
      mops := s.cur.mops.map (fun (m : Mop) => { m with lrs := m.lrw }), fence := some (newFence s sc.code kinds)
      r := { s.cur.r with pc := s.cur.r.pc + 4 } } } := by
  rw [execFence, guarded_true hg, settled_none hfence]
  exact if_pos (by omega)

theorem execFence_waited {sc : Scope} {kinds : BitVec 4} (hsc : 5 ≤ sc.code) (htoks : s.cur.toks.length < 8)
    (hcov : ∀ m ∈ s.cur.mops, m.id < s.cur.nmop → covers (kinds.setWidth 6) m = false) :
    execFence g sc kinds s =
      .next ((acquire (release s s.cur.core s.cur.cid sc.code) s.cur.core s.cur.cid sc.code).adv 1) := by
  rw [execFence, guarded_true hg, settled_none hfence]
  dsimp only
  rw [if_neg (by omega), if_neg (by omega), if_pos ((coveredDone_iff _ _ _).mpr hcov)]

theorem execFtok_next (d : XReg) {sc : Scope} {kinds : BitVec 6} (htoks : s.cur.toks.length < 8)
    (hopen : sc.code = 2 → replaying s s.cur.cid = false) :
    ∃ ctxs, execFtok g d sc kinds s = .next { s with ctxs, cur := { s.cur with
      seq := s.cur.seq + 1
      toks := s.cur.toks ++
        [{ seq := s.cur.seq + 1, scope := sc.code, kinds, upto := s.cur.nmop, ring := publishedRing s s.cur, mx := s.cur.lastMx }]
      r := (s.cur.r.setX d (fenceToken s.cur.tid sc.code kinds (s.cur.seq + 1))).adv 1 } } := by
  rw [execFtok, guarded_true hg, settled_none hfence, if_neg (by omega)]
  obtain ⟨ctxs, h⟩ := atScope2_open hopen (fun s' => .next (s'.onCur (fun t =>
    { t with
      seq := t.seq + 1
      toks := t.toks ++
        [{ seq := s.cur.seq + 1, scope := sc.code, kinds, upto := s.cur.nmop, ring := publishedRing s s.cur, mx := s.cur.lastMx }]
      r := (t.r.setX d (fenceToken t.tid sc.code kinds (t.seq + 1))).adv 1 })))
  exact ⟨ctxs, h⟩

theorem execFwait_done {a : XReg} {n : Nat} (h : fwaitTest s s.cur (s.cur.r.getX a) = .complete n) :
    ∃ t, execFwait g a s = .next t ∧ Keeps s t ∧ t.cur = { s.cur with r := { s.cur.r with pc := s.cur.r.pc + 4 } } ∧
      (3 ≤ n → s.cur.core < 384 → ∀ x ∈ (t.core s.cur.core).l1, x.cid = s.cur.cid → x.dirty ≠ 0) := by
  have hex : execFwait g a s = .next ((acquire s s.cur.core s.cur.cid n).adv 1) := by
    rw [execFwait, guarded_true hg, settled_none hfence, h]
  refine ⟨_, hex, (execFwait_keeps g a (Keeps.refl s)).keeps _ hex, ?_, fun hn hcore x hx hcid => dirty_of_mem_acquire hn hcore hx hcid⟩
  rw [State.adv_cur, acquire_cur]; rfl

end

end Sys2Proof.Machine

namespace Sys2Proof
open Machine

/-- Settles O35: FENCE at the scopes that wait and FWAIT end in an acquire, which leaves no clean line (`dirty_of_mem_acquire`). -/
theorem orderingCompletes : Obligations.OrderingCompletes := by
  unfold Obligations.OrderingCompletes
  intro g lo st co ti sc k4 k6 d a s hg
  refine ⟨fun hlo hst hco hti => ?waitc, fun hfence => ⟨?yield, fun hsc => ?speculative, fun hsc htoks hcov => ?waited,
    fun htoks hopen => ?ftok, fun h1 htid h0 hseq hdone => ?fenceToken, fun h2 c hc hlast hdone => ?collToken⟩⟩
  case waitc =>
    refine execWaitc_next hg ?_
    simp only [waitcMet, Bool.and_eq_true, waitcOk_iff]
    exact ⟨⟨⟨hlo, hst⟩, hco⟩, hti⟩
  case yield => exact execYield_next hg hfence
  case speculative =>
    refine ⟨_, _, execFence_speculates hg hfence hsc k4, ?_, rfl, rfl, rfl, rfl, rfl, rfl, rfl, rfl⟩
    exact List.map_map
  case waited =>
    have hex := execFence_waited hg hfence hsc htoks hcov
    refine ⟨_, hex, (execFence_keeps g sc k4 (Keeps.refl s)).keeps _ hex, ?_, fun hcore x hx hcid => ?_⟩
    · rw [State.adv_cur, acquire_cur, release_cur hfence rfl]; rfl
    · exact dirty_of_mem_acquire (by omega) hcore hx hcid
  case ftok =>
    obtain ⟨ctxs, hex⟩ := execFtok_next hg hfence d htoks hopen
    exact ⟨_, hex, rfl, rfl⟩
  case fenceToken => exact execFwait_done hg hfence (fwaitTest_fence h1 htid h0 hseq hdone)
  case collToken => exact execFwait_done hg hfence (fwaitTest_coll h2 hc hlast hdone)

end Sys2Proof
end

section
/-! PROOFS. BKPT, TLBINV, L1CLEAN and ARCHIVE (R124-R126, R350): the lines that a write-back drops (R191), the halt of the selected thread
(R346), and the order point of a marker (R348). -/

namespace Sys2Proof.Machine

/-! ## Privileged functions (R52) -/

theorem sysPriv_runs {g : Guard} {s : State} (hg : s.cur.r.holds g = true) (hp : privileged s = true) (hrest : s.cur.rest = none)
    (hfence : s.cur.fence = none) (k : Out) : sysPriv g s k = k := by
  rw [sysPriv, guarded_true hg, if_pos hp, outside_none hrest, settled_none hfence]

@[simp] theorem sideOn_cur (s : State) : (sideOn s).cur = s.cur := by rw [sideOn_only]

theorem sideOn_core (s : State) (k : Nat) : (sideOn s).core k = s.core k := by rw [sideOn_only]; rfl

@[simp] theorem sideOn_ctxs (s : State) : (sideOn s).ctxs = s.ctxs := by rw [sideOn_only]

/-! ## TLBINV (R125) -/

/-- The state once TLBINV has invalidated what x names (R125). -/
def tlbsCleared (s : State) (x : Nat) : State :=
  let s' := (sideOn s).onCore (sideOn s).cur.core (fun c => { c with tlb := c.tlb.filter (fun e => !invNames x e) })
  let d := dieOf s.cur.core
  { s' with l2 := s'.l2.set d.val ((s'.l2[d]).filter (fun e => !invNames x e)) d.isLt }

theorem execTlbinv_next {g : Guard} {s : State} (hg : s.cur.r.holds g = true) (hp : privileged s = true) (hrest : s.cur.rest = none)
    (hfence : s.cur.fence = none) (a : XReg) : execTlbinv g a s = .next ((tlbsCleared s (s.cur.r.getX a).toNat).adv 1) := by
  rw [execTlbinv, sysPriv_runs hg hp hrest hfence]; rfl

theorem tlbsCleared_state (s : State) (x : Nat) :
    tlbsCleared s x = { s with wgs := (tlbsCleared s x).wgs, cores := (tlbsCleared s x).cores, l2 := (tlbsCleared s x).l2 } := by
  have honly := (OnlyTlbs.onCore (sideOn s) (sideOn s).cur.core (fun l => l.filter (fun e => !invNames x e))).state
  unfold tlbsCleared
  rw [honly, sideOn_only]

theorem tlbsCleared_l2 (s : State) (x : Nat) :
    (tlbsCleared s x).l2[dieOf s.cur.core] = (s.l2[dieOf s.cur.core]).filter (fun e => !invNames x e) := by
  have hl2 : ((sideOn s).onCore (sideOn s).cur.core (fun c => { c with tlb := c.tlb.filter (fun e => !invNames x e) })).l2 = s.l2 := by
    rw [State.onCore_l2, sideOn_only]
  unfold tlbsCleared
  simp only [hl2]
  exact Vector.getElem_set_self _

theorem tlbsCleared_core (s : State) (x k : Nat) :
    (tlbsCleared s x).core k = if k = s.cur.core then { s.core k with tlb := (s.core k).tlb.filter (fun e => !invNames x e) }
      else s.core k := by
  have hcore : (tlbsCleared s x).core k =
    ((sideOn s).onCore (sideOn s).cur.core (fun c => { c with tlb := c.tlb.filter (fun e => !invNames x e) })).core k := rfl
  rw [hcore, State.core_onCore, sideOn_cur, sideOn_core, sideOn_core]
  · split
    · rename_i h; rw [h]
    · rfl
  · exact fun _ => rfl

/-! ## L1CLEAN (R126) -/

@[simp] theorem State.put_cores (s : State) (who : TRef) (key : Nat) (bs : List Byte) : (s.put who key bs).cores = s.cores := by
  unfold State.put; split <;> rfl

theorem State.core_congr {s t : State} (h : t.cores = s.cores) (k : Nat) : t.core k = s.core k := by
  unfold State.core; rw [h]

/-- A write-back that invalidates takes the sector out of the L1 and no other (R191). -/
theorem l1_writeBack_drop (s : State) (core : Nat) (x : Sector) :
    ((writeBack s core x true).core core).l1 = (s.core core).l1.filter (fun y => !(y.cid == x.cid && y.sec == x.sec)) := by
  have hbytes : ((List.range 32).foldl (fun (s : State) i =>
      if x.dirty.getLsbD i && x.dirty != BitVec.allOnes 32 then s.put .none (32 * x.sec + i) [x.byte i] else s) s).cores = s.cores :=
    List.foldlRecOn (motive := fun t : State => t.cores = s.cores) _ _ rfl
      (fun t ht i _ => by split; exacts [(State.put_cores _ _ _ _).trans ht, ht])
  unfold writeBack
  rw [State.core_onCore, if_pos rfl]
  · simp only [Bool.true_or, if_true]
    rw [State.core_congr (s := s)]
    split
    · exact (State.put_cores _ _ _ _).trans hbytes
    · exact hbytes
  · exact fun _ => rfl

/-- What stands in the L1 after write-backs that invalidate was there, and is none of their sectors. -/
theorem mem_l1_foldl_writeBack {core : Nat} {y : Sector} (xs : List Sector) : ∀ {s : State},
    y ∈ ((xs.foldl (fun s x => writeBack s core x true) s).core core).l1 →
      y ∈ (s.core core).l1 ∧ ∀ x ∈ xs, y.cid ≠ x.cid ∨ y.sec ≠ x.sec := by
  induction xs with
  | nil => exact fun h => ⟨h, fun _ hx => nomatch hx⟩
  | cons x xs ih =>
    intro s h
    obtain ⟨hmem, hne⟩ := ih h
    rw [l1_writeBack_drop, List.mem_filter] at hmem
    obtain ⟨hmem, hx⟩ := hmem
    refine ⟨hmem, fun z hz => ?_⟩
    rcases List.mem_cons.mp hz with rfl | hz
    · simpa using hx
    · exact hne z hz

/-- A write-back of all that fits, with invalidation, leaves nothing that fits. -/
theorem not_of_mem_writeBackAll_drop {s : State} {core : Nat} {p : Sector → Bool} {y : Sector}
    (h : y ∈ ((writeBackAll s core p true).core core).l1) : ¬p y = true := by
  obtain ⟨hmem, hne⟩ := mem_l1_foldl_writeBack _ h
  intro hp
  rcases hne y (List.mem_filter.mpr ⟨hmem, hp⟩) with h | h <;> exact h rfl

/-- The sectors that L1CLEAN's operand names: those of its scope, and of them the dirty ones only where it does not invalidate (R126). -/
def cleanNames (x : Nat) (l : Sector) : Bool := (bits x 6 1 == 1 || l.cid == bits x 0 6) && (bits x 7 1 == 1 || l.dirty != 0)

theorem execL1clean_done {g : Guard} {s : State} (hg : s.cur.r.holds g = true) (hp : privileged s = true) (hrest : s.cur.rest = none)
    (hfence : s.cur.fence = none) {a : XReg} (ha : (s.cur.r.getX a).toNat < 256) :
    ∃ t, execL1clean g a s = .next t ∧ Keeps s t ∧ t.cur.r = s.cur.r.adv 1 ∧ (bits (s.cur.r.getX a).toNat 7 1 = 1 →
      ∀ l ∈ (t.core s.cur.core).l1, ¬(bits (s.cur.r.getX a).toNat 6 1 = 1 ∨ l.cid = bits (s.cur.r.getX a).toNat 0 6)) := by
  have hex : execL1clean g a s = .next ((writeBackAll (sideOn s) s.cur.core (cleanNames (s.cur.r.getX a).toNat)
      (bits (s.cur.r.getX a).toNat 7 1 == 1)).adv 1) := by
    rw [execL1clean, sysPriv_runs hg hp hrest hfence]
    exact if_neg (Nat.not_le.mpr ha)
  refine ⟨_, hex, (execL1clean_keeps g a (Keeps.refl s)).keeps _ hex, ?_, fun hdrop l hl hscope => ?_⟩
  · rw [State.adv_cur, writeBackAll_cur hfence (sideOn_cur s)]
  · have hd : (bits (s.cur.r.getX a).toNat 7 1 == 1) = true := by rw [hdrop]; rfl
    rw [hd] at hl
    exact not_of_mem_writeBackAll_drop hl (by simpa [cleanNames, hdrop] using hscope)

/-! ## BKPT (R124, R346) -/

section
variable {c : Thread} (hc : c.fence = none)
include hc

theorem devPut_cur (cid : Nat) (bs : List Byte) : ∀ {s : State}, s.cur = c → ∀ va, (devPut s cid va bs).cur = c := by
  induction bs with
  | nil => exact fun hs _ => hs
  | cons b bs ih =>
    intro s hs va
    refine ih ?_ (va + 1)
    split
    · rw [State.put_cur (by rw [hs, hc]), hs]
    · exact hs

theorem ringPost_cur {s : State} (hs : s.cur = c) (cid base ents esz : Nat) (entry : List Byte) :
    (ringPost s cid base ents esz entry).cur = c := by
  unfold ringPost
  dsimp only
  split
  · exact hs
  split
  · exact devPut_cur hc _ _ (by exact hs) _
  · exact devPut_cur hc _ _ ((State.drainEgress_cur _).trans (devPut_cur hc _ _ (by exact hs) _)) _

theorem postEvent_cur {s : State} (hs : s.cur = c) (cid type arg0 arg1 : Nat) : (postEvent s cid type arg0 arg1).cur = c := by
  unfold postEvent postEntry
  split
  · exact hs
  · exact ringPost_cur hc hs _ _ _ _ _

end

/-- The selected thread is halted with its registers as they are; its breakpoint is told in the event queue (R346). -/
theorem haltThread_selected {s : State} (href : s.cur.ref ≠ .none) (hfence : s.cur.fence = none) (hexited : s.cur.exited = false)
    (hhalted : s.cur.halted = false) (bk : Bool) :
    (haltThread s s.cur.ref bk).cur = { s.cur with halted := true, haltReq := false, bkpt := bk } := by
  have hself := State.thread?_selected (s := s) rfl href
  have hroll : rollBack s s.cur.ref = s := by simp [rollBack, hself, hfence]
  have hon := State.onThread_selected (s := s) rfl (fun t => { t with halted := true, haltReq := false, bkpt := bk })
  have hthen := State.thread?_selected (s := s.onCur (fun t => { t with halted := true, haltReq := false, bkpt := bk })) (r := s.cur.ref)
    rfl href
  have hhalt : haltThread s s.cur.ref bk = haltEvent (s.onCur (fun t => { t with halted := true, haltReq := false, bkpt := bk }))
      (s.onCur (fun t => { t with halted := true, haltReq := false, bkpt := bk })).cur bk := by
    simp only [haltThread, hself, hexited, hhalted, Bool.or_self, Bool.false_eq_true, if_false, hroll, hon, hthen]
  rw [hhalt]
  exact postEvent_cur (by exact hfence) rfl _ _ _ _

section
variable {g : Guard} {s : State} (hg : s.cur.r.holds g = true) (hrest : s.cur.rest = none) (hfence : s.cur.fence = none)
include hg hrest hfence

theorem execBkpt_off (hb : ((s.ctx? s.cur.cid).map (·.dbg.bken)).getD false = false) : execBkpt g s = .next (s.adv 1) := by
  rw [execBkpt, guarded_true hg, outside_none hrest, settled_none hfence, hb]; rfl

theorem execBkpt_halts (hb : ((s.ctx? s.cur.cid).map (·.dbg.bken)).getD false = true) (href : s.cur.ref ≠ .none)
    (hexited : s.cur.exited = false) (hhalted : s.cur.halted = false) :
    ∃ t u, execBkpt g s = .next t ∧ t.thread? s.cur.ref = some u ∧ u.halted = true ∧ u.bkpt = true ∧ u.r = s.cur.r := by
  have hcur := haltThread_selected href hfence hexited hhalted true
  refine ⟨haltThread s s.cur.ref true, _, ?_, State.thread?_selected ?_ href, ?_⟩
  · rw [execBkpt, guarded_true hg, outside_none hrest, settled_none hfence, hb]; rfl
  · rw [hcur]
  · rw [hcur]; exact ⟨rfl, rfl, rfl⟩

end

/-! ## ARCHIVE (R350) -/

theorem State.ctx?_onCtx_self (s : State) {f : Ctx → Ctx} (hf : ∀ c, (f c).cid = c.cid) (cid : Nat) :
    (s.onCtx cid f).ctx? cid = (s.ctx? cid).map f :=
  find_updFirst _ _ (fun a h => by rw [hf]; exact h) _

theorem replaying_congr {s t : State} (h : t.ctxs = s.ctxs) (cid : Nat) : replaying t cid = replaying s cid := by
  unfold replaying State.ctx?; rw [h]

/-- A change of a context that leaves its number, its debug mode and its recorder's switch leaves whether it replays. -/
theorem replaying_onCtx (s : State) {f : Ctx → Ctx} (hf : ∀ c, (f c).cid = c.cid ∧ (f c).dbg = c.dbg ∧ (f c).arch.on = c.arch.on)
    (cid : Nat) : replaying (s.onCtx cid f) cid = replaying s cid := by
  unfold replaying
  rw [State.ctx?_onCtx_self s (fun c => (hf c).1), Option.map_map]
  congr 2
  funext c
  obtain ⟨-, hdbg, hon⟩ := hf c
  simp only [Function.comp_apply, hdbg, hon]

theorem replaying_logValue (s : State) (cid arb core slot code val : Nat) :
    replaying (logValue s cid arb core slot code val) cid = replaying s cid := by
  refine replaying_onCtx s (fun c => ?_) cid
  split <;> exact ⟨rfl, rfl, rfl⟩

/-- What passing a gate changes (R351). -/
theorem gateTake_some {s t : State} {v : Option W64} {cid arb core slot code : Nat}
    (h : gateTake s cid arb core slot code = some (t, v)) : t.cur = s.cur ∧ replaying t cid = replaying s cid := by
  unfold gateTake at h
  split at h
  · split at h
    · cases h
    · cases h
      refine ⟨rfl, replaying_onCtx s ?_ cid⟩
      exact fun _ => ⟨rfl, rfl, rfl⟩
  · cases h
  · cases h

theorem execArchive_done {g : Guard} {s : State} (hg : s.cur.r.holds g = true) (hrest : s.cur.rest = none)
    (hfence : s.cur.fence = none) (hlive : replaying s s.cur.cid = false) (a : XReg) :
    ∃ t, execArchive g a s = .next t ∧ Keeps s t ∧ t.cur = { s.cur with r := s.cur.r.adv 1 } := by
  obtain ⟨f, hgate⟩ := gateTake_open hlive s.cur.core s.cur.core s.cur.slot 0xFFFD
  obtain ⟨hcur, hrep⟩ := gateTake_some hgate
  have hafter : replaying ((logValue (sideOn (s.onCtx s.cur.cid f)) s.cur.cid s.cur.core s.cur.core s.cur.slot 0xFFFD
      (agentVal s.cur.core s.cur.slot (bits (s.cur.r.getX a).toNat 0 24))).adv 1) s.cur.cid = false := by
    rw [replaying_congr (State.adv_ctxs _ _), replaying_logValue, replaying_congr (sideOn_ctxs _), hrep, hlive]
  have hex : execArchive g a s = .next ((logValue (sideOn (s.onCtx s.cur.cid f)) s.cur.cid s.cur.core s.cur.core s.cur.slot 0xFFFD
      (agentVal s.cur.core s.cur.slot (bits (s.cur.r.getX a).toNat 0 24))).adv 1) := by
    rw [execArchive, guarded_true hg, outside_none hrest, settled_none hfence]
    simp only [hgate, hafter, Bool.false_and, Bool.false_eq_true, if_false]
  refine ⟨_, hex, (execArchive_keeps g a (Keeps.refl s)).keeps _ hex, ?_⟩
  rw [State.adv_cur, logValue, State.onCtx_cur, sideOn_cur]; rfl

end Sys2Proof.Machine

namespace Sys2Proof
open Machine

/-- Settles O49: L1CLEAN with bit 7 drops each sector that it names; BKPT posts its event, which leaves the halted thread as it is. -/
theorem systemFunctions : Obligations.SystemFunctions := by
  unfold Obligations.SystemFunctions
  intro g a s hg hrest hfence
  refine ⟨fun hp => ?tlbinv, fun hp ha => ?l1clean, fun hb => ?bkptOff, fun hb href hexited hhalted => ?bkptOn, fun hlive => ?archive⟩
  case tlbinv =>
    refine ⟨_, execTlbinv_next hg hp hrest hfence a, ?_, ?_, ?_, fun k => ⟨fun hk => ?_, ?_⟩⟩
    · rw [State.adv, State.onRegs, tlbsCleared_state]
    · exact congrArg Core.tlb ((tlbsCleared_core s _ _).trans (if_pos rfl))
    · exact tlbsCleared_l2 s _
    · exact (tlbsCleared_core s _ k).trans (if_neg hk)
    · have hcore := tlbsCleared_core s (s.cur.r.getX a).toNat k
      change { (tlbsCleared s (s.cur.r.getX a).toNat).core k with tlb := [] } = _
      rw [hcore]
      split <;> rfl
  case l1clean => exact execL1clean_done hg hp hrest hfence ha
  case bkptOff => exact execBkpt_off hg hrest hfence hb
  case bkptOn => exact execBkpt_halts hg hrest hfence hb href hexited hhalted
  case archive => exact execArchive_done hg hrest hfence hlive a

end Sys2Proof
end

section
/-! PROOFS. EXIT (R117, R165): which threads there are and which of them have exited, through everything that the end of a thread gives
rise to in its tick. -/

namespace Sys2Proof.Machine

/-! ## Who has exited -/

/-- A thread's name, and whether it has exited. -/
def Thread.ends (t : Thread) : TRef × Bool := (t.ref, t.exited)

theorem Thread.ends_congr {t u : Thread} (href : t.ref = u.ref) (hexited : t.exited = u.exited) : t.ends = u.ends := by
  rw [Thread.ends, Thread.ends, href, hexited]

/-- The names of all threads, the selected one first, and whether they have exited. -/
def State.ends (s : State) : (TRef × Bool) × List (TRef × Bool) := (s.cur.ends, s.threads.map Thread.ends)

theorem State.ends_congr {s t : State} (hcur : t.cur = s.cur) (hthreads : t.threads = s.threads) : t.ends = s.ends := by
  rw [State.ends, State.ends, hcur, hthreads]

theorem find_ends (l : List Thread) (r : TRef) :
    (l.map Thread.ends).find? (fun x => x.1 == r) = (l.find? (fun x => x.ref == r)).map Thread.ends := List.find?_map

/-- A thread stands under its name wherever the same have exited. -/
theorem State.thread?_of_ends {s t : State} (h : t.ends = s.ends) {r : TRef} {u : Thread} (hu : s.thread? r = some u) :
    ∃ v, t.thread? r = some v ∧ v.exited = u.exited := by
  obtain ⟨hcur, hthreads⟩ := Prod.mk.inj h
  obtain ⟨href, hexited⟩ := Prod.mk.inj hcur
  by_cases hc : (s.cur.ref == r && r != .none) = true
  · rw [State.thread?, if_pos hc] at hu
    obtain rfl := Option.some.inj hu
    exact ⟨t.cur, by rw [State.thread?, if_pos (by rw [href]; exact hc)], hexited⟩
  · rw [State.thread?, if_neg hc] at hu
    have hfind := congrArg (List.find? (fun x => x.1 == r)) hthreads
    rw [find_ends, find_ends, hu, Option.map_some, Option.map_eq_some_iff] at hfind
    obtain ⟨v, hv, hvu⟩ := hfind
    exact ⟨v, by rw [State.thread?, if_neg (by rw [href]; exact hc), hv], (Prod.mk.inj hvu).2⟩

/-- What leaves them at each element leaves them along a list. -/
theorem foldl_ends {α : Type} (l : List α) (s : State) {f : State → α → State} (hf : ∀ s a, (f s a).ends = s.ends) :
    (l.foldl f s).ends = s.ends :=
  List.foldlRecOn (motive := fun t : State => t.ends = s.ends) l f rfl (fun t ht a _ => (hf t a).trans ht)

theorem ite_ends {c : Prop} [Decidable c] {s t u : State} (ht : t.ends = s.ends) (hu : u.ends = s.ends) :
    (if c then t else u).ends = s.ends := by
  split <;> assumption

/-! ## Changes of threads -/

theorem State.onThread_ends (s : State) (r : TRef) {f : Thread → Thread} (hf : ∀ t, (f t).ends = t.ends) : (s.onThread r f).ends = s.ends := by
  unfold State.onThread
  split
  · exact Prod.ext (hf _) rfl
  · exact Prod.ext rfl (map_updFirst _ f _ hf _)

theorem State.onAll_ends (s : State) {f : Thread → Thread} (hf : ∀ t, (f t).ends = t.ends) : (s.onAll f).ends = s.ends := by
  refine Prod.ext ?_ ?_
  · show (if s.cur.ref == .none then s.cur else f s.cur).ends = s.cur.ends
    split
    · rfl
    · exact hf _
  · show (s.threads.map f).map Thread.ends = s.threads.map Thread.ends
    rw [List.map_map]
    exact List.map_congr_left (fun t _ => hf t)

@[simp] theorem State.onCore_ends (s : State) (n : Nat) (f : Core → Core) : (s.onCore n f).ends = s.ends :=
  State.ends_congr (State.onCore_cur _ _ _) (State.onCore_threads _ _ _)

/-! ## Memory and the L1s -/

@[simp] theorem touch_ends (s : State) (who : TRef) (key n : Nat) : (touch s who key n).ends = s.ends := by
  refine State.onAll_ends s (fun t => ?_)
  split
  · rfl
  · split <;> rfl

@[simp] theorem State.put_ends (s : State) (who : TRef) (key : Nat) (bs : List Byte) : (s.put who key bs).ends = s.ends := by
  unfold State.put
  split
  · rfl
  · exact touch_ends s who key bs.length

@[simp] theorem State.putN_ends (s : State) (who : TRef) (key n v : Nat) : (s.putN who key n v).ends = s.ends := State.put_ends _ _ _ _

@[simp] theorem State.take_ends (s : State) (key n : Nat) : (s.take key n).2.ends = s.ends :=
  State.ends_congr (State.take_cur _ _ _) (State.take_threads _ _ _)

@[simp] theorem writeBack_ends (s : State) (core : Nat) (x : Sector) (drop : Bool) : (writeBack s core x drop).ends = s.ends := by
  unfold writeBack
  rw [State.onCore_ends]
  have hbytes := foldl_ends (List.range 32) s (f := fun (s : State) i =>
      if x.dirty.getLsbD i && x.dirty != BitVec.allOnes 32 then s.put .none (32 * x.sec + i) [x.byte i] else s)
    (fun s i => ite_ends (State.put_ends _ _ _ _) rfl)
  exact ite_ends ((State.putN_ends _ _ _ _ _).trans hbytes) hbytes

@[simp] theorem writeBackAll_ends (s : State) (core : Nat) (p : Sector → Bool) (drop : Bool) :
    (writeBackAll s core p drop).ends = s.ends :=
  foldl_ends _ s (fun s x => writeBack_ends s core x drop)

@[simp] theorem flushSector_ends (s : State) (core cid key n : Nat) : (flushSector s core cid key n).ends = s.ends := by
  refine foldl_ends _ s (fun s sec => ?_)
  split
  · exact ite_ends rfl (writeBack_ends _ _ _ _)
  · rfl

@[simp] theorem l1Room_ends (s : State) (core cid sec : Nat) (hint : Hint) : (l1Room s core cid sec hint).ends = s.ends := by
  refine ite_ends rfl ?_
  split
  · rfl
  · exact writeBackAll_ends _ _ _ _

@[simp] theorem l1Mark_ends (s : State) (core cid sec : Nat) (hint : Hint) : (l1Mark s core cid sec hint).ends = s.ends :=
  ite_ends (State.onCore_ends _ _ _) rfl

@[simp] theorem l1Load_ends (s : State) (core cid key n : Nat) : (l1Load s core cid key n).2.ends = s.ends :=
  foldl_ends _ s (fun _ _ => ite_ends rfl (State.onCore_ends _ _ _))

@[simp] theorem l1Store_ends (s : State) (who : TRef) (core cid key : Nat) (bs : List Byte) :
    (l1Store s who core cid key bs).ends = s.ends := by
  simp only [l1Store]
  rw [State.onCore_ends, foldl_ends, touch_ends]
  exact fun _ _ => State.onCore_ends _ _ _

@[simp] theorem goHome_ends (s : State) (core cid scope key n : Nat) : (goHome s core cid scope key n).ends = s.ends := by
  have hdrained : (if scope = 6 then s.drainEgress else s).ends = s.ends := ite_ends rfl rfl
  exact ite_ends ((flushSector_ends _ _ _ _ _).trans hdrained) hdrained

@[simp] theorem agentRead_ends (s : State) (core cid scope : Nat) (hint : Hint) (key n : Nat) :
    (agentRead s core cid scope hint key n).2.ends = s.ends := by
  unfold agentRead
  split
  · exact State.take_ends s key n
  split
  · simp only [l1Mark_ends, l1Load_ends, l1Room_ends]
  · exact goHome_ends _ _ _ _ _ _

@[simp] theorem agentWrite_ends (s : State) (who : TRef) (core cid scope : Nat) (hint : Hint) (key : Nat) (bs : List Byte) :
    (agentWrite s who core cid scope hint key bs).ends = s.ends := by
  have hhome : ((goHome s core cid scope key bs.length).put who key bs).ends = s.ends := by rw [State.put_ends, goHome_ends]
  refine ite_ends (State.put_ends _ _ _ _) (ite_ends ?_ (ite_ends ((State.onCore_ends _ _ _).trans hhome) hhome))
  simp only [l1Mark_ends, l1Store_ends, l1Room_ends]

@[simp] theorem release_ends (s : State) (core cid scope : Nat) : (release s core cid scope).ends = s.ends := by
  have hwritten : (if 3 ≤ scope && hasL1 core then writeBackAll s core (fun x => x.cid == cid && x.dirty != 0) false else s).ends = s.ends :=
    ite_ends (writeBackAll_ends _ _ _ _) rfl
  exact ite_ends hwritten hwritten

@[simp] theorem acquire_ends (s : State) (core cid scope : Nat) : (acquire s core cid scope).ends = s.ends :=
  ite_ends (State.onCore_ends _ _ _) rfl

@[simp] theorem acquireBy_ends (s : State) (ref : TRef) (scope : Nat) : (acquireBy s ref scope).ends = s.ends := by
  unfold acquireBy
  split
  · exact acquire_ends _ _ _ _
  · rfl

/-! ## Outstanding accesses (R117) -/

theorem addWatch_ends (t : Thread) (m : Mop) : (addWatch t m).ends = t.ends := by
  unfold addWatch
  split
  · split <;> rfl
  · rfl

theorem returnTo_ends (t : Thread) (m : Mop) (v : Nat) : (returnTo t m v).ends = t.ends := by
  unfold returnTo
  dsimp only
  split <;> rfl

@[simp] theorem onThread_dropMop_ends (s : State) (r : TRef) (id : Nat) : (s.onThread r (fun x => dropMop x id)).ends = s.ends :=
  State.onThread_ends s r (fun _ => rfl)

@[simp] theorem onThread_loaded_ends (s : State) (r : TRef) (m : Mop) (v : Nat) :
    (s.onThread r (fun x => addWatch (dropMop (returnTo x m v) m.id) m)).ends = s.ends :=
  State.onThread_ends s r (fun _ => (addWatch_ends _ m).trans (returnTo_ends _ m v))

@[simp] theorem onThread_returned_ends (s : State) (r : TRef) (m : Mop) (v : Nat) :
    (s.onThread r (fun x => dropMop (returnTo x m v) m.id)).ends = s.ends :=
  State.onThread_ends s r (fun _ => returnTo_ends _ m v)

@[simp] theorem logWin_ends (s : State) (cid arb core slot : Nat) : (logWin s cid arb core slot).ends = s.ends := rfl

@[simp] theorem noteStore_ends (s : State) (t : TRef) (cid : Nat) (m : Mop) (data : Nat) : (noteStore s t cid m data).ends = s.ends := by
  refine ite_ends (State.onThread_ends s t (fun x => ?_)) rfl
  unfold settleHash
  split <;> rfl

theorem published_ends (s : State) (w : Wg) (tid v : Nat) (t : TRef) :
    ((s.onWg w.id (fun w => { w with woken := true, pubs := w.pubs ++ [(tid, v)] })).onThread t
      (fun x => if refWg x.ref == some w.id then { x with lastRing := ringIndex w v } else x)).ends = s.ends := by
  refine (State.onThread_ends _ t (fun x => ?_)).trans (State.ends_congr rfl rfl)
  split <;> exact Thread.ends_congr rfl rfl

@[simp] theorem noteTail_ends (s : State) (tid : Nat) (t : TRef) (key n : Nat) : (noteTail s tid t key n).ends = s.ends := by
  unfold noteTail
  split
  · split
    · rfl
    · exact published_ends s _ tid _ t
  · rfl

/-- Who has exited in the state that performing an access comes to. -/
def Perf.ends : Perf → (TRef × Bool) × List (TRef × Bool)
  | .done s | .poison s _ _ => s.ends

@[simp] theorem Perf.done_ends (s : State) : (Perf.done s).ends = s.ends := rfl

@[simp] theorem Perf.poison_ends (s : State) (va pc : W64) : (Perf.poison s va pc).ends = s.ends := rfl

theorem perform_ends (s : State) (t : Thread) (m : Mop) : (perform s t m).ends = s.ends := by
  unfold perform
  cases m.kind with
  | load => simp [apply_ite Perf.ends, apply_ite State.ends]
  | store => simp [apply_ite State.ends]
  | atom op ty =>
    dsimp only
    cases atomNew op ty _ _ _ <;> simp [apply_ite Perf.ends, apply_ite State.ends]

@[simp] theorem performAll_ends (ref : TRef) (ms : List Mop) : ∀ s : State, (performAll s ref ms).ends = s.ends := by
  induction ms with
  | nil => exact fun _ => rfl
  | cons m ms ih =>
    intro s
    unfold performAll
    split
    · rfl
    · rename_i t _
      have hperf := perform_ends s t m
      rw [ih]
      split <;> (rename_i h; rw [h] at hperf; exact hperf)

/-! ## Sets, barriers and shared frames (R165, R175, R181, R185) -/

@[simp] theorem setK_ends (s : State) (w : Wg) (cluster : Bool) (k : Fin 8) (r : KReg) : (setK s w cluster k r).ends = s.ends :=
  ite_ends rfl rfl

@[simp] theorem setBar_ends (s : State) (w : Wg) (cluster : Bool) (id : Fin 16) (b : Bar) : (setBar s w cluster id b).ends = s.ends :=
  ite_ends rfl rfl

@[simp] theorem setHeap_ends (s : State) (w : Wg) (cluster : Bool) (h : Heap) : (setHeap s w cluster h).ends = s.ends :=
  ite_ends rfl rfl

@[simp] theorem wake_ends (s : State) (ref : TRef) (n : Nat) (f : Regs → Regs) : (wake s ref n f).ends = s.ends :=
  State.onThread_ends s ref (fun _ => rfl)

@[simp] theorem askTrap_ends (s : State) (t : Thread) (cause : BitVec 9) (taddr tinfo : W64) : (askTrap s t cause taddr tinfo).ends = s.ends :=
  rfl

@[simp] theorem finishRound_ends (s : State) (w : Wg) (cluster : Bool) (k : Fin 8) (kr : KReg) (f : Sign → Regs → Regs) :
    (finishRound s w cluster k kr f).ends = s.ends := by
  simp only [finishRound]
  rw [foldl_ends, setK_ends]
  exact fun s g => (acquireBy_ends _ _ _).trans (wake_ends s g.ref g.words (f g))

@[simp] theorem failRound_ends (s : State) (w : Wg) (cluster : Bool) (k : Fin 8) (kr : KReg) (st : KState)
    (p : Thread → Option (BitVec 9 × W64 × W64)) : (failRound s w cluster k kr st p).ends = s.ends := by
  simp only [failRound]
  rw [foldl_ends, setK_ends]
  intro s g
  split
  · split
    · rw [askTrap_ends]
      exact State.onThread_ends s _ (fun _ => rfl)
    · rfl
  · rfl

@[simp] theorem finishFopen_ends (s : State) (w : Wg) (cluster : Bool) (k : Fin 8) (kr : KReg) (dep : Nat) :
    (finishFopen s w cluster k kr dep).ends = s.ends := by
  simp only [finishFopen]
  refine ite_ends (failRound_ends _ _ _ _ _ _ _) (ite_ends (failRound_ends _ _ _ _ _ _ _) ?_)
  split
  · exact failRound_ends _ _ _ _ _ _ _
  · rw [finishRound_ends, foldl_ends]
    · split
      · rw [State.put_ends, setHeap_ends]
      all_goals exact setHeap_ends _ _ _ _
    · intro s g
      split
      · rw [State.onThread_ends]
        · split
          · exact State.putN_ends _ _ _ _ _
          · rfl
        · exact fun _ => rfl
      · rfl

@[simp] theorem enqueue_ends (s : State) (w : Nat) (op : MOp) : (enqueue s w op).2.ends = s.ends := rfl

@[simp] theorem enqueueAll_ends (s : State) (ps : List Wg) (kr : KReg) (op : Nat → MOp) : (enqueueAll s ps kr op).ends = s.ends := by
  refine foldl_ends ps s (fun s p => ?_)
  rw [foldl_ends, enqueue_ends]
  exact fun s g => ite_ends (State.onThread_ends s g.ref (fun _ => rfl)) rfl

@[simp] theorem finishMma_ends (s : State) (w : Wg) (cluster : Bool) (k : Fin 8) (kr : KReg) (c : MmaCtl) :
    (finishMma s w cluster k kr c).ends = s.ends :=
  ite_ends (failRound_ends _ _ _ _ _ _ _) ((finishRound_ends _ _ _ _ _ _).trans (enqueueAll_ends _ _ _ _))

@[simp] theorem finishMdrain_ends (s : State) (w : Wg) (cluster : Bool) (k : Fin 8) (kr : KReg) (c : DrainCtl) :
    (finishMdrain s w cluster k kr c).ends = s.ends :=
  (finishRound_ends _ _ _ _ _ _).trans (enqueueAll_ends _ _ _ _)

@[simp] theorem completeRound_ends (s : State) (w : Wg) (cluster : Bool) (k : Fin 8) (kr : KReg) :
    (completeRound s w cluster k kr).ends = s.ends := by
  unfold completeRound
  split
  · exact finishRound_ends _ _ _ _ _ _
  · exact finishRound_ends _ _ _ _ _ _
  · exact finishRound_ends _ _ _ _ _ _
  · exact finishFopen_ends _ _ _ _ _ _
  · exact finishMma_ends _ _ _ _ _ _
  · exact finishMdrain_ends _ _ _ _ _ _

@[simp] theorem testRound_ends (s : State) (w : Wg) (cluster : Bool) (k : Fin 8) : (testRound s w cluster k).ends = s.ends :=
  ite_ends (completeRound_ends _ _ _ _ _) rfl

@[simp] theorem testBar_ends (s : State) (w : Wg) (cluster : Bool) (id : Fin 16) : (testBar s w cluster id).ends = s.ends := by
  refine ite_ends ?_ rfl
  rw [foldl_ends, setBar_ends]
  exact fun s a => (acquireBy_ends _ _ _).trans (wake_ends s a.1 a.2 _)

@[simp] theorem testScope_ends (s : State) (w : Nat) (cluster : Bool) : (testScope s w cluster).ends = s.ends := by
  simp only [testScope]
  rw [foldl_ends, foldl_ends]
  · intro s i
    split
    · exact testBar_ends _ _ _ _
    · rfl
  · intro s i
    split
    · exact testRound_ends _ _ _ _
    · rfl

@[simp] theorem testGroups_ends (s : State) (w : Nat) : (testGroups s w).ends = s.ends :=
  (testScope_ends _ _ _).trans (testScope_ends _ _ _)

@[simp] theorem freeFrame_ends (s : State) (w : Wg) (h : W64) (key : Nat) (d : Hdr) : (freeFrame s w h key d).ends = s.ends :=
  (setHeap_ends _ _ _ _).trans (State.putN_ends _ _ _ _ _)

@[simp] theorem releaseHold_ends (s : State) (w : Wg) (h : W64) : (releaseHold s w h).ends = s.ends := by
  unfold releaseHold
  split
  · exact ite_ends (freeFrame_ends _ _ _ _ _) (State.putN_ends _ _ _ _ _)
  all_goals rfl

/-! ## The end of a thread (R117, R165) -/

@[simp] theorem exitGroups_ends (s : State) (t : Thread) (w : Wg) : (exitGroups s t w).ends = s.ends := rfl

@[simp] theorem wlDone_ends (s : State) (t : Thread) (wl : Fin 4) : (wlDone s t wl).ends = s.ends := by
  unfold wlDone
  split
  · rfl
  · exact ite_ends (release_ends _ _ _ _) rfl

@[simp] theorem exitHolds_ends (s : State) (t : Thread) (hold : List W64) : (exitHolds s t hold).ends = s.ends := by
  unfold exitHolds
  split
  · rfl
  · refine ite_ends rfl ?_
    rw [foldl_ends, performAll_ends]
    exact fun s h => (releaseHold_ends _ _ _).trans (release_ends _ _ _ _)

/-- What EXIT leaves of an exiting thread (R117). -/
def Thread.exitedNow (x : Thread) : Thread :=
  { x with
    exited := true, wait := .none, toks := [], fence := none, hold := [], rpend := [], board := []
    mops := (x.mops.filter (fun m => !m.isLoad)).map (fun m => { m with dst := .none, lrw := false, lrs := false }) }

@[simp] theorem wlLeave_ends (s : State) (t : Thread) : (wlLeave s t).ends = s.ends := rfl

@[simp] theorem cancelRest_ends (s : State) (core : Nat) (p : RestEntry → Bool) : (cancelRest s core p).ends = s.ends :=
  State.onCore_ends _ _ _

/-- All that the end of a thread changes beyond the thread changes nothing of who has exited. -/
theorem exitEffects_ends (s : State) (t : Thread) : (exitEffects s t false).ends = (s.onThread t.ref Thread.exitedNow).ends := by
  simp only [exitEffects]
  rw [cancelRest_ends, exitHolds_ends, wlLeave_ends, foldl_ends]
  · split
    · exact exitGroups_ends _ _ _
    · rfl
  · exact fun s wl => wlDone_ends s t wl

theorem exitThread_ends (s : State) (t : Thread) : (exitThread s t false).ends = (s.onThread t.ref Thread.exitedNow).ends := by
  unfold exitThread
  split
  · exact (testGroups_ends _ _).trans (exitEffects_ends s t)
  · exact exitEffects_ends s t

/-- The selected thread has exited once its end is done with (R117). -/
theorem exited_exitThread {s : State} (href : s.cur.ref ≠ .none) :
    ∃ u, (exitThread s s.cur false).thread? s.cur.ref = some u ∧ u.exited = true := by
  have hself := State.thread?_onThread_self (f := Thread.exitedNow) (fun _ => rfl) href (State.thread?_selected rfl href)
  obtain ⟨u, hu, hexited⟩ := State.thread?_of_ends (exitThread_ends s s.cur) hself
  exact ⟨u, hu, hexited⟩

theorem execExit_next {g : Guard} {s : State} (hg : s.cur.r.holds g = true) (hrest : s.cur.rest = none) (hfence : s.cur.fence = none) :
    execExit g s = .next (exitThread s s.cur false) := by
  rw [execExit, guarded_true hg, outside_none hrest, settled_none hfence]

end Sys2Proof.Machine

namespace Sys2Proof
open Machine

/-- Settles O31: all that an exit gives rise to leaves the names of the threads and who has exited (`State.ends`). -/
theorem exitCompletes : Obligations.ExitCompletes := by
  unfold Obligations.ExitCompletes
  intro g w i s hg href hrest hfence
  have hex := execExit_next hg hrest hfence
  exact ⟨_, hex, (execExit_keeps g (Keeps.refl s)).keeps _ hex, exited_exitThread (by rw [href]; exact TRef.noConfusion)⟩

end Sys2Proof
end

section
/-! PROOFS. The accesses of loads, stores, atomics and frame slots as they stand once they have issued (R127-R138, R142, R143). -/

namespace Sys2Proof.Machine

/-! ## The kind bits of an access (R208) -/

theorem covOf_load {a : MReq} (hf : a.frame = false) (hn : a.named = false) (hk : a.kind = .load) : covOf a = covBit a.va 0 := by
  simp [covOf, hf, hn, hk, covBit]

/-- The outstanding access of a request of plain shape: the request's own fields stand over those of a plain access. -/
theorem MReq.mop_eq (a : MReq) (s : State) (key cov : Nat) (hcov : covOf a = cov) :
    a.mop s.cur key = { plainMop s a.kind a.va key a.size cov with
      scope := a.scope, acq := a.acq, rel := a.rel, hint := a.hint, data := a.data, cmp := a.cmp, dst := a.dst, lrw := a.lrw,
      lrs := a.lrw, push := a.push } := by
  subst hcov
  rfl

/-- A request issues as an access m. -/
theorem issue_as {s s' : State} {a : MReq} {key : Nat} (h : Reaches s s' a.kind a.va a.size a.xb key) (n : Nat) {m : Mop}
    (hm : a.mop s.cur key = m) : ∃ t, issue s a (fun s => s.adv n) = .next t ∧ Issued s t n m :=
  hm ▸ issue_issued a n key h

theorem Order.isAcq_eq (o : Order) : Order.isAcq o = (o == .acquire || o == .acqRel) := by cases o <;> rfl

theorem Order.isRel_eq (o : Order) : Order.isRel o = (o == .release || o == .acqRel) := by cases o <;> rfl

theorem withFrame_ok {s : State} {h : W64} {kind : Nat} {f : Nat × Hdr} (hbusy : headerBusy s h kind = false)
    (hc : frameCheck s s.cur h kind = .ok f) (k : Nat × Hdr → Out) : withFrame s h kind k = k f := by
  simp only [withFrame, hbusy, Bool.false_eq_true, if_false, hc, orTrap]

section
variable {g : Guard} {s s' : State} {key : Nat} {i : Instr} (hg : s.cur.r.holds g = true)
include hg

/-! ## Loads (R127, R133, R138) -/

theorem plainLoad_issues (dst : LdDst) (lrw : Bool) {size : Nat} {m : MemArg} (hi : exec i s = plainLoad g dst lrw size m s)
    (h : Reaches s s' .load (lmAddr s.cur m size) size (some m.xb) key) :
    ∃ t, exec i s = .next t ∧ Issued s t (1 + m.lits)
      { plainMop s .load (lmAddr s.cur m size) key size (covBit (lmAddr s.cur m size) 0) with dst, lrw, lrs := lrw } := by
  rw [hi, plainLoad, lmAccess, guarded_true hg]
  exact issue_as h _ (MReq.mop_eq _ s key _ (covOf_load rfl rfl rfl))

theorem execLdx_issues {lt : LdxT} {p : Nat × LdDst × Bool} (hp : ldxPlan lt = p) {m : MemArg} (sc : Scope) (acq : Bool) (hint : Hint)
    (h : Reaches s s' .load (lmAddr s.cur m p.1) p.1 (some m.xb) key) :
    ∃ t, exec (.ldx g lt m sc acq hint) s = .next t ∧ Issued s t (2 + m.lits)
      { plainMop s .load (lmAddr s.cur m p.1) key p.1 (covBit (lmAddr s.cur m p.1) 0) with
        dst := p.2.1, lrw := p.2.2, lrs := p.2.2, scope := sc.code, acq, hint, cov := 0 } := by
  change ∃ t, execLdx g lt m sc acq hint s = .next t ∧ _
  rw [execLdx, hp, lmAccess, guarded_true hg]
  exact issue_as h _ (MReq.mop_eq _ s key 0 rfl)

theorem execWld_issues (x b : XReg) (imm : BitVec 9) (h : Reaches s s' .load (gmAddr s.cur b imm) 8 (some b) key) :
    ∃ t, exec (.wld g x b imm) s = .next t ∧ Issued s t 1
      { plainMop s .load (gmAddr s.cur b imm) key 8 (covBit (gmAddr s.cur b imm) 0) with
        dst := .x x, lrw := false, lrs := false, cov := 0 } := by
  change ∃ t, execWld g x b imm s = .next t ∧ _
  rw [execWld, guarded_true hg]
  exact issue_as h 1 (MReq.mop_eq _ s key 0 rfl)

/-! ## Stores (R127, R133, R138) -/

variable (hrest : s.cur.rest = none)
include hrest

theorem plainStore_issues (data : BitVec 128) (l : Nat) {size : Nat} {m : MemArg} (hi : exec i s = plainStore g data l size m s)
    (h : Reaches s s' .store (lmAddr s.cur m size) size (some m.xb) key) :
    ∃ t, exec i s = .next t ∧ Issued s t (1 + l + m.lits)
      { plainMop s .store (lmAddr s.cur m size) key size (covBit (lmAddr s.cur m size) 1) with data } := by
  rw [hi, plainStore, guarded_true hg, outside_none hrest]
  exact issue_as h _ (MReq.mop_eq _ s key _ (covOf_store rfl rfl rfl))

/-- At scope system a pending fence comes first (R210). -/
theorem execStx_issues {st : StxT} {p : Nat × BitVec 128} (hp : stxPlan s.cur st = p) {m : MemArg} {sc : Scope} (rel : Bool)
    (hint : Hint) (hsys : sc = .system → s.cur.fence = none)
    (h : Reaches s s' .store (lmAddr s.cur m p.1) p.1 (some m.xb) key) :
    ∃ t, exec (.stx g st m sc rel hint) s = .next t ∧ Issued s t (2 + st.lits + m.lits)
      { plainMop s .store (lmAddr s.cur m p.1) key p.1 (covBit (lmAddr s.cur m p.1) 1) with
        data := p.2, scope := sc.code, rel, hint, cov := 1 } := by
  have hwait (k : Out) : (if sc = .system then settled s k else k) = k := by
    split
    · rename_i hsc; exact settled_none (hsys hsc) k
    · rfl
  change ∃ t, execStx g st m sc rel hint s = .next t ∧ _
  rw [execStx, guarded_true hg, outside_none hrest, hwait, hp]
  exact issue_as h _ (MReq.mop_eq _ s key 1 rfl)

theorem execWst_issues (x b : XReg) (imm : BitVec 9) (h : Reaches s s' .store (gmAddr s.cur b imm) 8 (some b) key) :
    ∃ t, exec (.wst g x b imm) s = .next t ∧ Issued s t 1
      { plainMop s .store (gmAddr s.cur b imm) key 8 (covBit (gmAddr s.cur b imm) 1) with
        data := (s.cur.r.getX x).setWidth 128, cov := 1 } := by
  change ∃ t, execWst g x b imm s = .next t ∧ _
  rw [execWst, guarded_true hg, outside_none hrest]
  exact issue_as h 1 (MReq.mop_eq _ s key 1 rfl)

/-! ## Atomics (R136, R137) -/

theorem atomAccess_issues (hfence : s.cur.fence = none) (op : AtomOp) (ty : AtomT) (m : MemArg) (oa : OrdArg) (n : Nat) (cmp : W64)
    (hi : exec i s = atomAccess g op ty m oa n cmp s) : AtomIssues s s' i op ty m oa n cmp key := by
  unfold AtomIssues
  intro p va h
  have hplan : atomPlan s.cur ty = p := by cases ty <;> simp only [p, atomPlan, BitVec.ofNat_toNat]
  clear_value p
  rw [hi, atomAccess, hplan, guarded_true hg, outside_none hrest, settled_none hfence, Order.isAcq_eq, Order.isRel_eq,
    ← BitVec.ofNat_toNat]
  exact issue_as h n (MReq.mop_eq _ s key 1 rfl)

/-! ## Frame slots (R142, R143) -/

/-- An access to a slot issues: kind bit 2, at the address of R143, with what the instruction adds to the request. -/
theorem slotAccess_issues {n : Nat} {dep : Fin 8} {slot : Fin 1024} {kind : MopKind} {mk : MReq → MReq} {f : Nat × Hdr} {p : Mop}
    (hi : exec i s = slotAccess g n dep slot kind mk s) (hbusy : headerBusy s (s.cur.r.getD dep) kind.code = false)
    (hc : frameCheck s s.cur (s.cur.r.getD dep) kind.code = .ok f) (hslot : slot.val < f.2.size) {a : MReq}
    (ha : mk { MReq.plain kind (BitVec.ofNat 64 (hAddr (s.cur.r.getD dep) + 16 + 4 * slot.val)) 4 none with frame := true } = a)
    (h : Reaches s s' a.kind a.va a.size a.xb key) (hp : a.mop s.cur key = p) : ∃ t, exec i s = .next t ∧ Issued s t n p := by
  rw [hi, slotAccess, guarded_true hg, outside_none hrest, withFrame_ok hbusy hc]
  dsimp only
  rw [if_neg (Nat.not_le.mpr hslot), ha]
  exact issue_as h n hp

end

end Sys2Proof.Machine

namespace Sys2Proof
open Machine

/-- Settles O23: each form is a load whose request reaches its place (`plainLoad_issues`, `execLdx_issues`, `execWld_issues`). -/
theorem loadsIssue : Obligations.LoadsIssue := by
  unfold Obligations.LoadsIssue
  intro g d v x b imm m lt sc acq hint s hg
  refine ⟨?ldb, ?ldbs, ?ldh, ?ldhs, ?ldw, ?ldd, ?ldq, fun s' key => ?ldx, fun s' key => execWld_issues hg x b imm⟩
  case ldb | ldh | ldw => exact fun s' key => plainLoad_issues hg (.z32 d) true rfl
  case ldbs | ldhs => exact fun s' key => plainLoad_issues hg (.s32 d) true rfl
  case ldd => exact fun s' key => plainLoad_issues hg (.pair v) false rfl
  case ldq => exact fun s' key => plainLoad_issues hg (.quad v) false rfl
  case ldx =>
    intro p
    have hp : ldxPlan lt = p := by cases lt <;> rfl
    exact execLdx_issues hg hp sc acq hint

/-- Settles O24: each form is a store whose request reaches its place (`plainStore_issues`, `execStx_issues`, `execWst_issues`). -/
theorem storesIssue : Obligations.StoresIssue := by
  unfold Obligations.StoresIssue
  intro g a v x b imm m st sc rel hint s hg hrest
  refine ⟨?stb, ?sth, ?stw, ?std, ?stq, fun s' key hsys => ?stx, fun s' key => execWst_issues hg hrest x b imm⟩
  case stb | sth | stw => exact fun s' key => plainStore_issues hg hrest _ a.lits rfl
  case std | stq => exact fun s' key => plainStore_issues hg hrest _ 0 rfl
  case stx =>
    intro p
    have hp : stxPlan s.cur st = p := by cases st <;> rfl
    exact execStx_issues hg hrest hp rel hint hsys

/-- Settles O25: the eleven forms are one access with their operation, type and compare value (`atomAccess_issues`). -/
theorem atomicsIssue : Obligations.AtomicsIssue := by
  unfold Obligations.AtomicsIssue
  intro g t d m oa c s hg hrest hfence
  refine ⟨?_, ?_, ?_, ?_, ?_, ?_, ?_, ?_, ?_, ?_, ?_⟩ <;> exact fun s' key => atomAccess_issues hg hrest hfence _ _ m oa _ _ rfl

/-- Settles O26: the three are accesses to one slot (`slotAccess_issues`). -/
theorem frameSlotAccessesIssue : Obligations.FrameSlotAccessesIssue := by
  unfold Obligations.FrameSlotAccessesIssue
  intro g d a dep slot f s s' key hg hrest va
  refine ⟨fun hbusy hc hslot h => ?fld, fun hbusy hc hslot h => ?fst, fun hfence hbusy hc hslot h => ?fadda⟩
  case fld =>
    have hi : exec (.fld g d dep slot) s = slotAccess g 1 dep slot .load (fun q => { q with dst := .z32 d, lrw := true }) s := rfl
    exact slotAccess_issues hg hrest hi hbusy hc hslot rfl h (MReq.mop_eq _ s key 2 rfl)
  case fst =>
    have hi : exec (.fst g a dep slot) s = slotAccess g (1 + a.lits) dep slot .store
        (fun q => { q with data := (s.cur.src8 a).setWidth 128 }) s := rfl
    exact slotAccess_issues hg hrest hi hbusy hc hslot rfl h (MReq.mop_eq _ s key 2 rfl)
  case fadda =>
    have hi : exec (.fadda g a dep slot) s = slotAccess none (1 + a.lits) dep slot (.atom .fadda .n32)
        (fun q => { q with data := (s.cur.src8 a).setWidth 128 }) s := by
      change execFadda g a dep slot s = _
      rw [execFadda, guarded_true hg, outside_none hrest, settled_none hfence]
    exact slotAccess_issues rfl hrest hi hbusy hc hslot rfl h (MReq.mop_eq _ s key 2 rfl)

end Sys2Proof
end

section
/-! PROOFS. The instructions on handles (R142-R147, R185, R186): the header of a frame before and after, and what FLEAVE of a shared frame
leaves of the thread. -/

namespace Sys2Proof.Machine

/-! ## Numbers in memory (R127) -/

@[simp] theorem length_bytesLE (n : Nat) : ∀ v, (bytesLE n v).length = n := by
  induction n with
  | zero => exact fun _ => rfl
  | succ n ih => exact fun v => congrArg (· + 1) (ih (v / 256))

/-- A number reads back as it was written. -/
theorem readLE_writeBytes_bytesLE (n : Nat) : ∀ {m : List (Nat × Byte)} (a v : Nat), Memory.wf m = true →
    readLE (writeBytes m a (bytesLE n v)) a n = v % 256 ^ n := by
  induction n with
  | zero => intro m a v _; simp [readLE, Nat.mod_one]
  | succ n ih =>
    intro m a v hwf
    have hwf' := memSet_wf a (BitVec.ofNat 8 v) hwf
    have hlow : memGet (writeBytes (memSet m a (BitVec.ofNat 8 v)) (a + 1) (bytesLE n (v / 256))) a = BitVec.ofNat 8 v := by
      rw [memGet_writeBytes _ _ _ hwf', if_neg (by omega), memGet_memSet hwf, if_pos rfl]
    have hmod : v % 256 ^ (n + 1) = v % 2 ^ 8 + 256 * (v / 256 % 256 ^ n) := by rw [Nat.pow_succ', Nat.mod_mul]; rfl
    rw [bytesLE, writeBytes, readLE, hlow, ih _ _ hwf', BitVec.toNat_ofNat, hmod]

@[simp] theorem State.put_mem {s : State} {key : Nat} (h : isSys key = false) (who : TRef) (bs : List Byte) :
    (s.put who key bs).mem = writeBytes s.mem key bs := by
  simp [State.put, h, touch, State.onAll]

/-! ## The header of a frame (R146) -/

/-- What a new header of the frame of a handle is in the next state: of a thread frame an outstanding store, of a shared frame 16 bytes
in memory. -/
structure HeaderSet (s t : State) (h : W64) (key : Nat) (d : Hdr) : Prop where
  thread : hScope h = 0 → t.mem = s.mem ∧
    t.cur.mops = s.cur.mops ++ [pushedMop s (BitVec.ofNat 64 (hAddr h)) key 16 (BitVec.ofNat 128 d.toNat)]
  shared : hScope h ≠ 0 → Memory.wf s.mem = true → isSys key = false → readLE t.mem key 16 = d.toNat % 2 ^ 128 ∧
    t.cur.mops = s.cur.mops ∧ ∀ b, b < key ∨ key + 16 ≤ b → memGet t.mem b = memGet s.mem b

@[simp] theorem setHeap_cur (s : State) (w : Wg) (cluster : Bool) (h : Heap) : (setHeap s w cluster h).cur = s.cur := by
  unfold setHeap; split <;> rfl

section
variable {s : State} (hfence : s.cur.fence = none)
include hfence

theorem setHeader_r (h : W64) (key : Nat) (d : Hdr) : (setHeader s h key d).cur.r = s.cur.r := by
  unfold setHeader
  split
  · rfl
  · rw [State.putN, State.put_cur hfence]

theorem setHeader_sets (h : W64) (key : Nat) (d : Hdr) (f : Regs → Regs) :
    HeaderSet s ((setHeader s h key d).onRegs f) h key d where
  thread hscope := by
    rw [setHeader, if_pos hscope, pushMop_eq]
    exact ⟨rfl, rfl⟩
  shared hscope hwf hsys := by
    rw [setHeader, if_neg hscope, State.onRegs_cur, State.onRegs_mem, State.putN, State.put_mem hsys, State.put_cur hfence]
    refine ⟨readLE_writeBytes_bytesLE 16 key _ hwf, rfl, fun b hb => ?_⟩
    rw [memGet_writeBytes _ _ _ hwf, length_bytesLE, if_neg (by omega)]

theorem freeFrame_cur (w : Wg) (h : W64) (key : Nat) (d : Hdr) : (freeFrame s w h key d).cur = s.cur := by
  simp only [freeFrame, setHeap_cur, State.putN, State.put_cur hfence]

theorem releaseHold_cur (w : Wg) (h : W64) : (releaseHold s w h).cur = s.cur := by
  unfold releaseHold
  split
  · dsimp only
    split
    · exact freeFrame_cur hfence _ _ _ _
    · exact State.put_cur hfence _ _ _
  all_goals rfl

end

/-! ## FLINK, FUNLINK, FSYNC -/

section
variable {g : Guard} {s : State} {key kp : Nat} {hd : Hdr} (hg : s.cur.r.holds g = true) (hrest : s.cur.rest = none)
include hg hrest

theorem execFlink_pushes (dep : Fin 8) {a : XReg} (hbusy : headerBusy s (s.cur.r.getX a) 1 = false)
    (hc : frameCheck s s.cur (s.cur.r.getX a) 1 = .ok (key, hd))
    (hp : pushCheck s s.cur (s.cur.r.sp - 8).toNat (s.cur.r.sp - 8).toNat = .ok kp) :
    execFlink g dep a s = .next { s with cur := { s.cur with
      mops := s.cur.mops ++ [pushedMop s (s.cur.r.sp - 8) kp 8 ((s.cur.r.getD dep).setWidth 128)], nmop := s.cur.nmop + 1
      r := ({ s.cur.r with sp := s.cur.r.sp - 8 }.setD dep (s.cur.r.getX a)).adv 1 } } := by
  rw [execFlink, guarded_true hg, outside_none hrest]
  simp only [hbusy, Bool.false_eq_true, if_false, hc, hp, firstTrap, orTrap, pushThen_ok hp, pushMop_eq]
  rfl

/-- FUNLINK in a window (R147). -/
theorem execFunlink_pops (dep : Fin 8) (hsp : 2 ^ 56 ≤ s.cur.r.sp.toNat) (hp : popCheck s s.cur s.cur.r.sp.toNat = .ok kp)
    (hb : blocked s.cur kp 8 false = false) :
    execFunlink g dep s = .next { s with cur := { addWatch s.cur (popMop s s.cur.r.sp kp) with
      r := ({ s.cur.r with sp := s.cur.r.sp + 8 }.setD dep (BitVec.ofNat 64 (viewN s s.cur kp 8))).adv 1 } } := by
  simp only [execFunlink, guarded_true hg, outside_none hrest, popThen, popAt_window hsp hp hb, State.onRegs, State.onCur, addWatch_r]

theorem execFsync_goes {dep : Fin 8} (hbusy : headerBusy s (s.cur.r.getD dep) 1 = false)
    (hc : frameCheck s s.cur (s.cur.r.getD dep) 1 = .ok (key, hd)) (hdone : slotsDone s.cur key hd.size = true) :
    execFsync g dep s = .next (s.adv 1) := by
  rw [execFsync, guarded_true hg, outside_none hrest, withFrame_ok hbusy hc]
  exact if_pos hdone

/-! ## FHND and FDROP (R146) -/

variable (hfence : s.cur.fence = none)
include hfence

theorem execFhnd_next (d : XReg) {dep : Fin 8} (hbusy : headerBusy s (s.cur.r.getD dep) 3 = false)
    (hc : frameCheck s s.cur (s.cur.r.getD dep) 3 = .ok (key, hd)) :
    execFhnd g d dep s = .next ((setHeader s (s.cur.r.getD dep) key { hd with retain := (hd.retain + 1) % 2 ^ 32 }).onRegs
      (fun r => (r.setX d (s.cur.r.getD dep)).adv 1)) := by
  rw [execFhnd, guarded_true hg, outside_none hrest, settled_none hfence]
  exact withFrame_ok hbusy hc _

/-- FDROP of a frame that stays retained. -/
theorem execFdrop_lowers {a : XReg} (hbusy : headerBusy s (s.cur.r.getX a) 3 = false)
    (hc : frameCheck s s.cur (s.cur.r.getX a) 3 = .ok (key, hd)) (h0 : hd.retain ≠ 0) (h1 : hd.retain ≠ 1) :
    execFdrop g a s = .next ((setHeader s (s.cur.r.getX a) key { hd with retain := hd.retain - 1 }).adv 1) := by
  rw [execFdrop, guarded_true hg, outside_none hrest, settled_none hfence]
  dsimp only
  rw [withFrame_ok hbusy hc, if_neg h0]
  split
  · rw [if_neg (by dsimp only; omega)]
  · rfl

/-- FDROP of a retained frame, which the last retention may free (R185). -/
theorem execFdrop_next {a : XReg} (hbusy : headerBusy s (s.cur.r.getX a) 3 = false)
    (hc : frameCheck s s.cur (s.cur.r.getX a) 3 = .ok (key, hd)) (h0 : hd.retain ≠ 0) :
    ∃ t, execFdrop g a s = .next t ∧ t.cur.r = s.cur.r.adv 1 := by
  rw [execFdrop, guarded_true hg, outside_none hrest, settled_none hfence]
  dsimp only
  rw [withFrame_ok hbusy hc, if_neg h0]
  refine ⟨_, rfl, ?_⟩
  rw [State.adv_cur]
  refine congrArg (Regs.adv · 1) ?_
  split
  · split
    · rw [freeFrame_cur hfence]
    · exact setHeader_r hfence _ _ _
  · exact setHeader_r hfence _ _ _

/-! ## FLEAVE of a shared frame (R185) -/

theorem execFleave_shared {dep : Fin 8} (hbusy : headerBusy s (s.cur.r.getD dep) 3 = false)
    (hc : frameCheck s s.cur (s.cur.r.getD dep) 3 = .ok (key, hd)) (hscope : hScope (s.cur.r.getD dep) ≠ 0)
    (hhold : s.cur.r.getD dep ∈ s.cur.hold) (hsp : 2 ^ 56 ≤ s.cur.r.sp.toNat)
    (hp : popCheck s s.cur s.cur.r.sp.toNat = .ok kp) (hmops : s.cur.mops = []) :
    ∃ t, execFleave g dep s = .next t ∧ t.cur = { s.cur with
      hold := dropHold s.cur.hold (s.cur.r.getD dep)
      r := ({ s.cur.r with sp := s.cur.r.sp + 8 }.setD dep (BitVec.ofNat 64 (viewN s s.cur kp 8))).adv 1 } := by
  have hb : blocked s.cur kp 8 false = false := by simp [blocked, hmops]
  have hempty : s.cur.mops.isEmpty = true := by rw [hmops]; rfl
  have hheld : (!s.cur.hold.contains (s.cur.r.getD dep)) = false := by simpa using hhold
  have hpop := popAt_window hsp hp hb
  rw [State.onCur_of_fixed (addWatch_none hfence _)] at hpop
  rw [execFleave, guarded_true hg, outside_none hrest, settled_none hfence, withFrame_ok hbusy hc, if_neg hscope]
  simp only [leaveShared, hheld, Bool.false_eq_true, if_false, hpop, drained, hempty, if_true]
  refine ⟨_, rfl, ?_⟩
  have hrel := release_cur hfence rfl s.cur.core s.cur.cid (hScope (s.cur.r.getD dep))
  split
  · rw [releaseHold_cur, State.onCur_cur, hrel]
    rw [State.onCur_cur, hrel]; exact hfence
  · rw [State.onCur_cur, hrel]

end

end Sys2Proof.Machine

namespace Sys2Proof
open Machine

/-- Settles O44: FLINK pushes and FUNLINK pops as a call and a return do; FHND and FDROP set the header (`setHeader_sets`); the release and
the free of FLEAVE leave the thread as it is. -/
theorem frameHandles : Obligations.FrameHandles := by
  unfold Obligations.FrameHandles
  intro g dep d a s key kp hd hg hrest h x sp retains
  refine ⟨execFlink_pushes hg hrest dep, execFunlink_pops hg hrest dep, execFsync_goes hg hrest, fun hfence =>
    ⟨fun hbusy hc => ?fhnd, fun hbusy hc h0 => ⟨?fdrop, fun h1 => ?lowers⟩, fun hbusy hc hscope hhold hsp hp hmops => ?fleave⟩⟩
  case fhnd =>
    have hex := execFhnd_next hg hrest hfence d hbusy hc
    obtain ⟨hthread, hshared⟩ := setHeader_sets hfence h key { hd with retain := (hd.retain + 1) % 2 ^ 32 } (fun r => (r.setX d h).adv 1)
    refine ⟨_, hex, (execFhnd_keeps g d dep (Keeps.refl s)).keeps _ hex, ?_, hthread, hshared⟩
    rw [State.onRegs_cur, setHeader_r hfence]
  case fdrop =>
    obtain ⟨t, hex, hr⟩ := execFdrop_next hg hrest hfence hbusy hc h0
    exact ⟨t, hex, (execFdrop_keeps g a (Keeps.refl s)).keeps _ hex, hr⟩
  case lowers =>
    have hex := execFdrop_lowers hg hrest hfence hbusy hc h0 h1
    obtain ⟨hthread, hshared⟩ := setHeader_sets hfence x key { hd with retain := hd.retain - 1 } (fun r => r.adv 1)
    refine ⟨_, hex, (execFdrop_keeps g a (Keeps.refl s)).keeps _ hex, ?_, hthread, hshared⟩
    rw [State.adv_cur, setHeader_r hfence]; rfl
  case fleave =>
    obtain ⟨t, hex, hcur⟩ := execFleave_shared hg hrest hfence hbusy hc hscope hhold hsp hp hmops
    exact ⟨t, hex, (execFleave_keeps g dep (Keeps.refl s)).keeps _ hex, hcur⟩

end Sys2Proof
end

section
/-! PROOFS. The events of accesses. Other agents' writes and write-backs leave what a thread has (R191, R204, R209); from that, what
accesses, fences and tokens come to when they complete (R130, R131, R208-R211). Walks and the pager's rings (R314, R320); kills (R309,
R335). -/

namespace Sys2Proof.Machine

/-! ## What a thread has -/

/-- A thread's registers, its outstanding accesses and its tokens. -/
def Thread.holdings (t : Thread) : Regs × List Mop × List Token := (t.r, t.mops, t.toks)

/-- The registers, the accesses and the tokens of a thread by name. -/
def State.holdings (s : State) (r : TRef) : Option (Regs × List Mop × List Token) := (s.thread? r).map Thread.holdings

theorem State.thread?_congr {s t : State} (hcur : t.cur = s.cur) (hthreads : t.threads = s.threads) (r : TRef) :
    t.thread? r = s.thread? r := by
  rw [State.thread?, State.thread?, hcur, hthreads]

theorem State.holdings_congr {s t : State} (hcur : t.cur = s.cur) (hthreads : t.threads = s.threads) (r : TRef) :
    t.holdings r = s.holdings r := by
  rw [State.holdings, State.holdings, State.thread?_congr hcur hthreads]

theorem State.thread?_ref {s : State} {r : TRef} {x : Thread} (h : s.thread? r = some x) : x.ref = r := by
  unfold State.thread? at h
  split at h
  · rename_i hc
    obtain rfl := Option.some.inj h
    simp only [Bool.and_eq_true, beq_iff_eq] at hc
    exact hc.1
  · simpa using List.find?_some h

/-- A thread is there with what it has wherever that is the same. -/
theorem State.thread?_of_holdings {s t : State} {r : TRef} (h : t.holdings r = s.holdings r) {x : Thread} (hx : s.thread? r = some x) :
    ∃ u, t.thread? r = some u ∧ u.r = x.r ∧ u.mops = x.mops ∧ u.toks = x.toks := by
  rw [State.holdings, State.holdings, hx, Option.map_some, Option.map_eq_some_iff] at h
  obtain ⟨u, hu, hux⟩ := h
  obtain ⟨hr, hrest⟩ := Prod.mk.inj hux
  obtain ⟨hmops, htoks⟩ := Prod.mk.inj hrest
  exact ⟨u, hu, hr, hmops, htoks⟩

theorem State.thread?_onAll (s : State) {f : Thread → Thread} (hf : ∀ x, (f x).ref = x.ref) {r : TRef} (hr : r ≠ .none) :
    (s.onAll f).thread? r = (s.thread? r).map f := by
  have hfind : (s.threads.map f).find? (fun x => x.ref == r) = (s.threads.find? (fun x => x.ref == r)).map f := by
    rw [List.find?_map]
    exact congrArg (fun p => (s.threads.find? p).map f) (funext fun x => by rw [Function.comp_apply, hf])
  by_cases hc : s.cur.ref = r
  · simp [State.onAll, State.thread?, hf, hc, hr]
  · have hc' : (if s.cur.ref == .none then s.cur else f s.cur).ref ≠ r := by
      split
      · exact hc
      · rwa [hf]
    simp only [State.onAll, State.thread?, hfind, beq_eq_false_iff_ne.mpr hc, beq_eq_false_iff_ne.mpr hc', Bool.false_and,
      Bool.false_eq_true, if_false]

theorem State.holdings_onThread (s : State) {f : Thread → Thread} (hf : ∀ x, (f x).ref = x.ref) (hv : ∀ x, (f x).holdings = x.holdings)
    (q : TRef) {r : TRef} (hr : r ≠ .none) : (s.onThread q f).holdings r = s.holdings r := by
  unfold State.holdings
  rw [State.thread?_onThread s hf q hr]
  split
  · rw [Option.map_map]; exact congrArg (fun k => (s.thread? r).map k) (funext hv)
  · rfl

/-! ## Writes and write-backs (R191, R204, R209) -/

section
variable {r : TRef} (hr : r ≠ .none)
include hr

/-- Another agent's write can only tell a thread's pending fence (R209). -/
theorem holdings_touch (s : State) (who : TRef) (key n : Nat) : (touch s who key n).holdings r = s.holdings r := by
  unfold State.holdings
  rw [touch, State.thread?_onAll s _ hr, Option.map_map]
  · refine congrArg (fun k => (s.thread? r).map k) (funext fun x => ?_)
    rw [Function.comp_apply]
    split
    · rfl
    · split <;> rfl
  · intro x
    split
    · rfl
    · split <;> rfl

theorem State.holdings_put (s : State) (who : TRef) (key : Nat) (bs : List Byte) : (s.put who key bs).holdings r = s.holdings r := by
  unfold State.put
  split
  · rfl
  · exact holdings_touch hr s who key bs.length

omit hr in
/-- What leaves them at each element leaves them along a list. -/
theorem foldl_holdings {α : Type} (l : List α) (s : State) {f : State → α → State} (hf : ∀ s a, (f s a).holdings r = s.holdings r) :
    (l.foldl f s).holdings r = s.holdings r :=
  List.foldlRecOn (motive := fun t : State => t.holdings r = s.holdings r) l f rfl (fun t ht a _ => (hf t a).trans ht)

omit hr in
theorem State.holdings_onCore (s : State) (n : Nat) (f : Core → Core) : (s.onCore n f).holdings r = s.holdings r :=
  State.holdings_congr (State.onCore_cur _ _ _) (State.onCore_threads _ _ _) r

theorem holdings_writeBack (s : State) (core : Nat) (x : Sector) (drop : Bool) : (writeBack s core x drop).holdings r = s.holdings r := by
  have hbytes := foldl_holdings (r := r) (List.range 32) s (f := fun (s : State) i =>
      if x.dirty.getLsbD i && x.dirty != BitVec.allOnes 32 then s.put .none (32 * x.sec + i) [x.byte i] else s)
    (fun s i => by split; exacts [State.holdings_put hr _ _ _ _, rfl])
  unfold writeBack
  rw [State.holdings_onCore]
  split
  · exact (State.holdings_put hr _ _ _ _).trans hbytes
  · exact hbytes

theorem holdings_release (s : State) (core cid scope : Nat) : (release s core cid scope).holdings r = s.holdings r := by
  have hwritten : (if 3 ≤ scope && hasL1 core then writeBackAll s core (fun x => x.cid == cid && x.dirty != 0) false else s).holdings r
      = s.holdings r := by
    split
    · exact foldl_holdings _ s (fun s x => holdings_writeBack hr s core x false)
    · rfl
  unfold release
  dsimp only
  split <;> exact hwritten

omit hr in
theorem holdings_acquire (s : State) (core cid scope : Nat) : (acquire s core cid scope).holdings r = s.holdings r := by
  unfold acquire
  split
  · exact State.holdings_onCore _ _ _
  · rfl

/-! ## What a performed store is noted in (R231, R352) -/

theorem holdings_noteStore (s : State) (q : TRef) (cid : Nat) (m : Mop) (data : Nat) :
    (noteStore s q cid m data).holdings r = s.holdings r := by
  unfold noteStore
  split
  · refine State.holdings_onThread s (fun x => ?_) (fun x => ?_) q hr
    all_goals split <;> rfl
  · rfl

/-- What a publication leaves its thread: the count of the ring (R231). -/
theorem holdings_published (s : State) (w : Nat) (f : Wg → Wg) (p : Thread → Bool) (k : Nat) (q : TRef) :
    ((s.onWg w f).onThread q (fun x => if p x then { x with lastRing := k } else x)).holdings r = s.holdings r := by
  refine (State.holdings_onThread (s.onWg w f) (fun x => ?_) (fun x => ?_) q hr).trans (State.holdings_congr rfl rfl r)
  all_goals split <;> rfl

theorem holdings_noteTail (s : State) (tid : Nat) (q : TRef) (key n : Nat) : (noteTail s tid q key n).holdings r = s.holdings r := by
  unfold noteTail
  split
  · split
    · rfl
    · exact holdings_published hr s _ _ (fun x => refWg x.ref == some _) _ q
  · rfl

end

@[simp] theorem noteStore_mem (s : State) (q : TRef) (cid : Nat) (m : Mop) (data : Nat) : (noteStore s q cid m data).mem = s.mem := by
  unfold noteStore
  split
  · exact State.onThread_mem _ _ _
  · rfl

@[simp] theorem noteTail_mem (s : State) (tid : Nat) (q : TRef) (key n : Nat) : (noteTail s tid q key n).mem = s.mem := by
  unfold noteTail
  split
  · split
    · rfl
    · rw [State.onThread_mem]; rfl
  · rfl

/-! ## Plain accesses to a scratchpad (R130, R131, R190) -/

theorem isSys_of_isScratch {key : Nat} (h : isScratch key = true) : isSys key = false := by
  simp only [isScratch, decide_eq_true_eq] at h
  simp only [isSys, Bool.and_eq_false_iff, decide_eq_false_iff_not]; omega

theorem getD_bytesLE (n : Nat) : ∀ (v : Nat) {i : Nat}, i < n → (bytesLE n v).getD i 0 = BitVec.ofNat 8 (v / 256 ^ i) := by
  induction n with
  | zero => exact fun _ _ hi => absurd hi (Nat.not_lt_zero _)
  | succ n ih =>
    intro v i hi
    cases i with
    | zero => rw [pow_zero, Nat.div_one]; rfl
    | succ i =>
      rw [bytesLE, List.getD_cons_succ, ih _ (Nat.lt_of_succ_lt_succ hi), Nat.div_div_eq_div_mul, Nat.pow_succ']

/-- What a load in a scratchpad reads: the bytes there, under the thread's own earlier stores (R130). -/
def loadValue (s : State) (x : Thread) (m : Mop) : Nat := ofBytes (overlay (before x.mops m.id) m.key (readBytes s.mem m.key m.size))

/-- A thread's outstanding access n that may be performed: plain, in a scratchpad, no fence pending and no destination spilled. -/
structure PlainScratch (s : State) (r : TRef) (n : Nat) (x : Thread) (m : Mop) : Prop where
  named : r ≠ .none
  thread : s.thread? r = some x
  fence : x.fence = none
  stands : x.mops.find? (fun m => m.id == n) = some m
  may : mayPerform x.mops m = true
  place : isScratch m.key = true
  acq : m.acq = false
  rel : m.rel = false
  spill : spilledDst s x m = false

section
variable {s : State} {r : TRef} {n : Nat} {x : Thread} {m : Mop} (h : PlainScratch s r n x m)
include h

theorem PlainScratch.mop_id : m.id = n := by simpa using List.find?_some h.stands

/-- Neither an order point nor a release (R204, R348): performing it is the access alone. -/
theorem PlainScratch.performMop_eq {p : Mop → Bool} (hp : p m = true) (hatom : m.isAtom = false) (prep : Thread → Mop → State → State) :
    performMop s r n p prep = afterPerform x m (perform (prep x m s) x m) := by
  have hact : actual s x m = m := by
    have hrel : (m.rel && casHits s x m) = m.rel := by rw [h.rel]; rfl
    rw [actual, hrel]
  have hpoint : isOrderPoint m = false := by simp [isOrderPoint, hatom, h.acq, h.rel]
  simp only [performMop, h.thread, h.stands, hp, hact, h.may, h.spill, gated, hpoint, due, Bool.false_and, Bool.and_false, Bool.not_false,
    Bool.and_self, Bool.false_eq_true, if_true, if_false]

theorem PlainScratch.perform_load (hkind : m.kind = .load) :
    perform s x m = .done (s.onThread r (fun y => addWatch (dropMop (returnTo y m (loadValue s x m)) m.id) m)) := by
  have hatom : m.isAtom = false := by rw [Mop.isAtom, hkind]
  have hpoint : isOrderPoint m = false := by simp [isOrderPoint, hatom, h.acq, h.rel]
  simp only [perform, hpoint, h.rel, hkind, h.acq, Bool.false_and, Bool.false_eq_true, if_false, agentRead_scratch h.place,
    State.thread?_ref h.thread, loadValue]

theorem PlainScratch.perform_store (hkind : m.kind = .store) :
    perform s x m = .done (noteTail (noteStore ((s.onThread r (fun y => dropMop y m.id)).put r m.key (bytesLE m.size m.data.toNat))
      r x.cid m m.data.toNat) x.tid r m.key m.size) := by
  have hatom : m.isAtom = false := by rw [Mop.isAtom, hkind]
  have hpoint : isOrderPoint m = false := by simp [isOrderPoint, hatom, h.acq, h.rel]
  simp only [perform, hpoint, h.rel, hkind, Bool.false_and, Bool.false_eq_true, if_false, agentWrite, h.place, Bool.true_or, if_true,
    State.thread?_ref h.thread]

theorem PlainScratch.execLoadReturn_delivers (hkind : m.kind = .load) :
    ∃ t u, execLoadReturn r n false s = .next t ∧ t.mem = s.mem ∧ t.thread? r = some u ∧ u.mops = x.mops.filter (fun m => m.id != n) ∧
      u.r = deliver x.r m.dst m.lrw m.size (loadValue s x m) := by
  have hatom : m.isAtom = false := by rw [Mop.isAtom, hkind]
  have hp : returns m = true := by rw [returns, Mop.isLoad, hkind]; rfl
  have hself := State.thread?_onThread_self (f := fun y => addWatch (dropMop (returnTo y m (loadValue s x m)) m.id) m)
    (fun y => congrArg Prod.fst ((addWatch_ends (dropMop (returnTo y m (loadValue s x m)) m.id) m).trans (returnTo_ends y m _))) h.named h.thread
  refine ⟨_, _, ?_, State.onThread_mem _ _ _, hself, ?_⟩
  · rw [execLoadReturn, h.performMop_eq hp hatom]
    rw [if_neg Bool.false_ne_true, h.perform_load hkind]
    rfl
  · simp only [returnTo, addWatch, dropMop, h.fence, h.mop_id]
    exact ⟨trivial, trivial⟩

theorem PlainScratch.execStorePerformed_writes (hkind : m.kind = .store) (hwf : Memory.wf s.mem = true) :
    ∃ t u, execStorePerformed r n s = .next t ∧ t.thread? r = some u ∧ u.mops = x.mops.filter (fun m => m.id != n) ∧ u.r = x.r ∧
      ∀ a, memGet t.mem a = if m.key ≤ a ∧ a < m.key + m.size then BitVec.ofNat 8 (m.data.toNat / 256 ^ (a - m.key))
        else memGet s.mem a := by
  have hatom : m.isAtom = false := by rw [Mop.isAtom, hkind]
  have hp : (!returns m) = true := by rw [returns, Mop.isLoad, hkind]; rfl
  have hself := State.thread?_onThread_self (f := fun y => dropMop y m.id) (fun _ => rfl) h.named h.thread
  obtain ⟨u, hu, hur, humops, -⟩ := State.thread?_of_holdings ((holdings_noteTail h.named _ _ _ _ _).trans
    ((holdings_noteStore h.named _ _ _ _ _).trans (State.holdings_put h.named _ _ _ _))) hself
  refine ⟨_, u, ?_, hu, humops.trans (by rw [dropMop, h.mop_id]), hur, fun a => ?_⟩
  · rw [execStorePerformed, h.performMop_eq hp hatom, h.perform_store hkind]
    rfl
  · rw [noteTail_mem, noteStore_mem, State.put_mem (isSys_of_isScratch h.place), State.onThread_mem, memGet_writeBytes _ _ _ hwf,
      length_bytesLE]
    split
    · rename_i ha
      exact getD_bytesLE _ _ (by omega)
    · rfl

end

/-! ## L1_EVICTION (R135, R191) -/

theorem execL1Eviction_drops {s : State} {core cid line : Nat}
    (hkeep : (∃ e ∈ (s.core core).l1.filter (fun e => e.hint == .keep), e.line = (cid, line)) →
      ∃ e ∈ (s.core core).l1.filter (fun e => e.hint == .keep), e.line ≠ (cid, line)) :
    ∃ t, execL1Eviction core cid line s = .next t ∧ ∀ e ∈ (t.core core).l1, e.line ≠ (cid, line) := by
  refine ⟨writeBackAll (hopError s core cid line) core (fun x => x.line == (cid, line)) true, if_pos ?_, fun e he => ?_⟩
  · by_cases hany : ∃ e ∈ (s.core core).l1.filter (fun e => e.hint == .keep), e.line = (cid, line)
    · obtain ⟨e, he, hne⟩ := hkeep hany
      have hother : ((s.core core).l1.filter (fun e => e.hint == .keep)).any (fun e => e.line != (cid, line)) = true :=
        List.any_eq_true.mpr ⟨e, he, by simpa using hne⟩
      simp only [hother, Bool.not_true, Bool.and_false, Bool.not_false]
    · have hnone : ((s.core core).l1.filter (fun e => e.hint == .keep)).any (fun e => e.line == (cid, line)) = false :=
        List.any_eq_false.mpr (fun e he h => hany ⟨e, he, by simpa using h⟩)
      simp only [hnone, Bool.false_and, Bool.not_false]
  · simpa using not_of_mem_writeBackAll_drop he

/-! ## Fences and tokens (R208-R211) -/

section
variable {s : State} {r : TRef} {x : Thread} (hr : r ≠ .none) (hx : s.thread? r = some x)
include hr hx

theorem finishFence_ends {f : Fence} (hf : x.fence = some f) :
    ∃ u, (finishFence s r).thread? r = some u ∧ u.fence = none ∧ u.r = x.r ∧ u.mops = x.mops.map (fun m => { m with held := false }) := by
  obtain ⟨y, hy, hyr, hymops, -⟩ := State.thread?_of_holdings ((holdings_acquire (release s x.core x.cid f.scope) x.core x.cid f.scope).trans
    (holdings_release hr s x.core x.cid f.scope)) hx
  simp only [finishFence, hx, hf]
  refine ⟨_, State.thread?_onThread_self ?_ hr hy, rfl, hyr, congrArg _ hymops⟩
  exact fun _ => rfl

theorem execFenceComplete_ends {f : Fence} (hf : x.fence = some f) (hready : fenceReady x f = true)
    (hgate : f.scope ≠ 2 ∨ replaying s x.cid = false) :
    ∃ t u, execFenceComplete r s = .next t ∧ t.thread? r = some u ∧ u.fence = none ∧ u.r = x.r ∧
      u.mops = x.mops.map (fun m => { m with held := false }) := by
  have hdue : (fenceReady x f && !(x.halted && f.scope == 2 && replaying s x.cid)) = true := by
    rcases hgate with h | h <;> simp [hready, h]
  simp only [execFenceComplete, hx, hf, hdue, due, if_true]
  by_cases hscope : f.scope = 2
  · obtain ⟨k, hk⟩ := gateTake_open (hgate.resolve_left (fun h => h hscope)) x.core x.core x.slot 0
    simp only [hscope, if_true, hk]
    obtain ⟨u, hu⟩ := finishFence_ends (s := logWin (s.onCtx x.cid k) x.cid x.core x.core x.slot) hr hx hf
    exact ⟨_, u, rfl, hu⟩
  · simp only [hscope, if_false]
    obtain ⟨u, hu⟩ := finishFence_ends hr hx hf
    exact ⟨_, u, rfl, hu⟩

theorem execFenceRollback_undoes {f : Fence} (hf : x.fence = some f) (hhit : f.hit = true) (hrolled : f.rolled = false) :
    ∃ t u, execFenceRollback r s = .next t ∧ t.thread? r = some u ∧ u.r = f.snap ∧ u.wait = .fence ∧ t.mem = s.mem := by
  have hthread : (s.thread? r).bind (·.fence) = some f := by rw [hx]; exact hf
  simp only [execFenceRollback, rollBack, hthread, hhit, hrolled, due, Bool.not_false, Bool.and_self, if_true, Bool.false_eq_true, if_false]
  refine ⟨_, _, rfl, State.thread?_onThread_self ?_ hr (x := x) ?_, rfl, rfl, State.onThread_mem _ _ _⟩
  · exact fun _ => rfl
  · exact hx

theorem execTokenComplete_drops {n : Nat} {k : Token} (hk : x.toks.find? (fun k => k.seq == n) = some k) (hmet : tokenMet s x k = true) :
    ∃ t u, execTokenComplete r n s = .next t ∧ t.thread? r = some u ∧ u.toks = x.toks.filter (fun k => k.seq != n) ∧ u.r = x.r := by
  have hseq : k.seq = n := by simpa using List.find?_some hk
  obtain ⟨y, hy, hyr, -, hytoks⟩ := State.thread?_of_holdings (holdings_release hr s x.core x.cid k.scope) hx
  simp only [execTokenComplete, hx, hk, hmet, due, if_true, finishToken, State.thread?_ref hx]
  refine ⟨_, _, rfl, State.thread?_onThread_self ?_ hr hy, ?_, hyr⟩
  · exact fun _ => rfl
  · exact congrArg₂ (fun n l => List.filter (fun k : Token => k.seq != n) l) hseq hytoks

end

/-! ## PAGE_WALK (R314) -/

theorem tlbFind_cons {e : TlbEnt} {l : List TlbEnt} {cid va : Nat} (hcid : e.cid = cid) (hlo : e.va ≤ va) (hhi : va < e.va + e.size) :
    tlbFind (e :: l) cid va = some e := by
  simp [tlbFind, hcid, hlo, hhi]

theorem tlb_onCore (s : State) (core : Nat) (g : List TlbEnt → List TlbEnt) :
    ((s.onCore core (fun c => { c with tlb := g c.tlb })).core core).tlb = g (s.core core).tlb := by
  rw [State.core_onCore, if_pos rfl]
  exact fun _ => rfl

theorem tlbFill_tlb {s : State} {core : Nat} (hl1 : hasL1 core = true) (e : TlbEnt) :
    ((tlbFill s core e).core core).tlb = e :: (s.core core).tlb.take 511 := by
  rw [tlbFill, if_pos hl1]
  exact tlb_onCore s core (fun l => e :: l.take 511)

theorem pageSize_pos (level : Nat) : 0 < pageSize level := by
  unfold pageSize
  split
  · omega
  · split <;> omega

/-- A translation that finds a leaf leaves it in the core's TLB. -/
theorem tlbFind_xlate {s : State} {core cid va kind level : Nat} {ent : W64} (hl1 : hasL1 core = true)
    (hmiss : tlbFind (s.core core).tlb cid va = none) (hwalk : walk s cid va = .leaf ent level) :
    (tlbFind ((xlate s core cid va kind).2.core core).tlb cid va).isSome = true := by
  simp only [xlate, hl1, if_true, hmiss, hwalk]
  split
  · rename_i e he
    have hfits := List.find?_some he
    simp only [Bool.and_eq_true, beq_iff_eq, decide_eq_true_eq] at hfits
    obtain ⟨⟨hcid, hlo⟩, hhi⟩ := hfits
    rw [tlb_onCore s core (fun l => e :: l.take 511), tlbFind_cons hcid hlo hhi]; rfl
  · rw [tlbFill_tlb hl1, tlbFind_cons rfl (Nat.div_mul_le_self _ _) (Nat.lt_div_mul_add (pageSize_pos level))]; rfl

/-! ## The pager's rings (R320) -/

@[simp] theorem State.put_ctxs (s : State) (who : TRef) (key : Nat) (bs : List Byte) : (s.put who key bs).ctxs = s.ctxs := by
  unfold State.put; split <;> rfl

@[simp] theorem devPut_ctxs (cid : Nat) (bs : List Byte) : ∀ (s : State) (va : Nat), (devPut s cid va bs).ctxs = s.ctxs := by
  induction bs with
  | nil => exact fun _ _ => rfl
  | cons b bs ih =>
    intro s va
    refine (ih _ _).trans ?_
    split
    · exact State.put_ctxs _ _ _ _
    · rfl

theorem State.ctx?_congr {s t : State} (h : t.ctxs = s.ctxs) (cid : Nat) : t.ctx? cid = s.ctx? cid := by
  rw [State.ctx?, State.ctx?, h]

/-- A change of the requests of a context that another state also has. -/
theorem ctx?_onPreqs {s t : State} {cid : Nat} {c : Ctx} (ht : t.ctxs = s.ctxs) (hc : s.ctx? cid = some c) (g : List PReq → List PReq) :
    (t.onCtx cid (fun c => { c with preqs := g c.preqs })).ctx? cid = some { c with preqs := g c.preqs } := by
  have hself := State.ctx?_onCtx_self t (f := fun c => { c with preqs := g c.preqs }) (fun _ => rfl) cid
  rw [hself, State.ctx?_congr ht, hc]; rfl

theorem execPageRequest_posts {s : State} {rid : Nat} {c : Ctx} {r : PReq} (hreq : reqOf s rid = some (c, r))
    (hc : s.ctx? c.cid = some c) (hposted : r.posted = false)
    (hroom : (devNum s c.cid c.desc.pager 4 + 4294967296 - devNum s c.cid (c.desc.pager + 4) 4) % 4294967296 < 62) :
    ∃ t d, execPageRequest rid s = .next t ∧ t.ctx? c.cid = some d ∧
      d.preqs = updFirst (fun x => x.rid == rid) (fun x => { x with posted := true }) c.preqs := by
  have hdue := hroom
  rw [← pagerRequests] at hdue
  simp only [execPageRequest, hreq, hposted, hdue, due, Bool.not_false, decide_true, Bool.and_self, if_true]
  refine ⟨_, _, rfl, ctx?_onPreqs ?_ hc _, rfl⟩
  rw [devPut_ctxs, State.drainEgress_ctxs, devPut_ctxs]

theorem answerReq_resolved {s : State} {cid : Nat} {r : PReq} (h : walk s cid r.va ≠ .absent) :
    answerReq s cid r true = dropReq s cid r.rid := by
  unfold answerReq
  rw [if_pos rfl]
  split
  · rename_i habsent; exact absurd habsent h
  all_goals rfl

/-- The state in which the pager's answer is applied: HEAD of its ring has passed it. -/
def answerTaken (s : State) (c : Ctx) (cid : Nat) : State :=
  devPut s cid (c.desc.pager + 0x800 + 4) (bytesLE 4 (devNum s cid (c.desc.pager + 0x800 + 4) 4 + 1))

theorem execPagerResponse_resolves {s : State} {cid : Nat} {c : Ctx} {r : PReq} (hc : s.ctx? cid = some c)
    (hring : devNum s cid (c.desc.pager + 0x800) 4 ≠ devNum s cid (c.desc.pager + 0x800 + 4) 4) {w : Nat}
    (hw : devNum s cid (c.desc.pager + 0x800 + 0x40 + 16 * (devNum s cid (c.desc.pager + 0x800 + 4) 4 % 124)) 8 = w)
    (hreq : c.preqs.find? (fun r => r.posted && r.rid % 2 ^ 32 == bits w 0 32) = some r) (hresolve : bits w 32 1 = 1)
    (hwalk : walk (answerTaken s c cid) cid r.va ≠ .absent) :
    ∃ t d, execPagerResponse cid s = .next t ∧ t.ctx? cid = some d ∧ d.preqs = c.preqs.filter (fun x => x.rid != r.rid) := by
  have hdue : (devNum s cid (c.desc.pager + 0x800) 4 != devNum s cid (c.desc.pager + 0x800 + 4) 4) = true := by simpa using hring
  simp only [execPagerResponse, hc, hdue, due, if_true, pagerResponses, hw, hreq, hresolve, beq_self_eq_true]
  refine ⟨_, { c with preqs := c.preqs.filter (fun x => x.rid != r.rid) }, rfl, ?_, rfl⟩
  rw [← answerTaken, answerReq_resolved hwalk]
  exact ctx?_onPreqs (devPut_ctxs _ _ _ _) hc (fun l => l.filter (fun x => x.rid != r.rid))

/-! ## KILL (R309, R335) -/

theorem execKill_placed {s : State} {cid n : Nat} {x : Wg} (hx : s.wg? n = some x) (hcid : x.cid = cid) (hterm : x.term = false)
    (hended : x.ended = false) (hsaved : ∀ c, s.ctx? cid = some c → c.saved = []) :
    execKill cid (some n) s = .next (terminate s x killReport) := by
  have hnone : ((s.ctx? cid).map (·.saved)).bind (fun vs => vs.find? (fun v => v.wgs.any (fun x => x.id == n))) = none := by
    cases hc : s.ctx? cid with
    | none => rfl
    | some c => simp [hsaved c hc]
  simp [execKill, hnone, hx, hcid, due, killWg, hterm, hended]

theorem execKill_saved {s : State} {cid n : Nat} {c : Ctx} {v : Saved} (hc : s.ctx? cid = some c)
    (hv : c.saved.find? (fun v => v.wgs.any (fun x => x.id == n)) = some v) : execKill cid (some n) s = .next (killSaved s cid v) := by
  simp only [execKill, hc, Option.map_some, Option.bind_some, hv]

end Sys2Proof.Machine

namespace Sys2Proof
open Machine

/-- Settles O53: what other agents do leaves a thread's registers, accesses and tokens (`State.holdings`), so each event changes of them
what it completes; write-backs that invalidate leave nothing of an evicted line (`execL1Eviction_drops`). -/
theorem accessEvents : Obligations.AccessEvents := by
  unfold Obligations.AccessEvents
  intro s
  refine ⟨fun r n x m hr hx hfence hm hmay hplace hacq hrel hspill => ?access, fun core cid line hkeep => ?eviction,
    fun r x f hr hx hf => ⟨fun hready hgate => ?complete, fun hhit hrolled => ?rollback⟩, fun r x n k hr hx hk hmet => ?token,
    fun core cid va ent level hl1 hva hmiss hwalk => ?walk, fun rid c r hreq hc hposted hroom => ?request, fun cid c r hc => ?response,
    fun cid => ⟨fun n x hx hcid hterm hended hsaved => ?placed, fun n c v hc hv => ?saved, rfl⟩⟩
  case access =>
    have h : PlainScratch s r n x m := ⟨hr, hx, hfence, hm, hmay, hplace, hacq, hrel, hspill⟩
    refine ⟨fun hkind => ?_, h.execStorePerformed_writes⟩
    obtain ⟨t, u, hex, hmem, hu, humops, hur⟩ := h.execLoadReturn_delivers hkind
    rw [loadValue, h.mop_id] at hur
    exact ⟨t, u, hex, hmem, hu, humops, hur⟩
  case eviction => exact execL1Eviction_drops hkeep
  case complete => exact execFenceComplete_ends hr hx hf hready hgate
  case rollback => exact execFenceRollback_undoes hr hx hf hhit hrolled
  case token => exact execTokenComplete_drops hr hx hk hmet
  case walk =>
    have hdue : (hasL1 core && va < 72057594037927936 && (tlbFind (s.core core).tlb cid va).isNone) = true := by
      rw [hl1, hmiss, decide_eq_true (show va < 72057594037927936 by omega)]; rfl
    exact ⟨_, if_pos hdue, xlate_only _ _ _ _ _, tlbFind_xlate hl1 hmiss hwalk⟩
  case request => exact execPageRequest_posts hreq hc hposted hroom
  case response =>
    intro ring head w s1 hring hreq hresolve hwalk
    exact execPagerResponse_resolves hc hring rfl hreq hresolve hwalk
  case placed => exact execKill_placed hx hcid hterm hended hsaved
  case saved => exact execKill_saved hc hv

end Sys2Proof
end

section
/-! PROOFS. What agents' accesses leave alone (R191, R202, R204, R209, R231, R314): `State.still` is a state without all that an access of
an agent may change, and every such access leaves it. -/

namespace Sys2Proof.Machine

/-! ## What stands still -/

/-- A thread but for the mark on its pending fence (R209) and the count of the ring that it published (R231). -/
def Thread.still (t : Thread) : Thread := { t with fence := none, lastRing := 0 }

/-- A workgroup but for what a store to TAIL notes (R231). -/
def Wg.still (w : Wg) : Wg := { w with woken := false, pubs := [] }

theorem Thread.r_of_still {t u : Thread} (h : t.still = u.still) : t.r = u.r := (congrArg Thread.r h : t.still.r = u.still.r)

/-- A core but for its L1 and its TLB. -/
def Core.still (c : Core) : Core := { c with l1 := [], tlb := [] }

/-- A state, and its cores by number, but for memory, what is on its way there, and what the places above leave out. -/
def State.still (s : State) : State × (Nat → Core) :=
  ({ s with
      cur := s.cur.still, threads := s.threads.map Thread.still, wgs := s.wgs.map Wg.still, cores := [], l2 := Vector.replicate 4 []
      egress := [], posted := [], mem := [], poison := [], fresh := 0 },
    fun n => (s.core n).still)

section
variable {s t : State} (h : t.still = s.still)
include h

theorem State.ctxs_of_still : t.ctxs = s.ctxs := congrArg (fun x => x.1.ctxs) h
theorem State.launches_of_still : t.launches = s.launches := congrArg (fun x => x.1.launches) h
theorem State.gangs_of_still : t.gangs = s.gangs := congrArg (fun x => x.1.gangs) h
theorem State.turn_of_still : t.turn = s.turn := congrArg (fun x => x.1.turn) h
theorem State.threads_of_still : t.threads.map Thread.still = s.threads.map Thread.still := congrArg (fun x => x.1.threads) h
theorem State.wgs_of_still : t.wgs.map Wg.still = s.wgs.map Wg.still := congrArg (fun x => x.1.wgs) h
theorem State.front_of_still (n : Nat) : (t.core n).front = (s.core n).front := congrArg (fun x => (x.2 n).front) h

/-- A thread stands under its name where all stands still. -/
theorem State.thread?_of_still {r : TRef} {x : Thread} (hx : s.thread? r = some x) : ∃ u, t.thread? r = some u ∧ u.still = x.still := by
  have hcur : t.cur.still = s.cur.still := congrArg (fun x => x.1.cur) h
  have href : t.cur.ref = s.cur.ref := (congrArg Thread.ref hcur : t.cur.still.ref = s.cur.still.ref)
  unfold State.thread? at hx ⊢
  rw [href]
  split at hx
  · rename_i hc
    obtain rfl := Option.some.inj hx
    exact ⟨t.cur, if_pos hc, hcur⟩
  · rename_i hc
    have hfind (l : List Thread) : (l.map Thread.still).find? (fun x => x.ref == r) = (l.find? (fun x => x.ref == r)).map Thread.still :=
      List.find?_map
    have hsame := congrArg (List.find? (fun x => x.ref == r)) (State.threads_of_still h)
    rw [hfind, hfind, hx, Option.map_some, Option.map_eq_some_iff] at hsame
    rwa [if_neg hc]

/-- A workgroup stands under its name where all stands still. -/
theorem State.wg?_of_still {n : Nat} {x : Wg} (hx : s.wg? n = some x) : ∃ y, t.wg? n = some y ∧ y.still = x.still := by
  have hfind (l : List Wg) : (l.map Wg.still).find? (fun x => x.id == n) = (l.find? (fun x => x.id == n)).map Wg.still := List.find?_map
  have hsame := congrArg (List.find? (fun x => x.id == n)) (State.wgs_of_still h)
  rw [State.wg?] at hx
  rwa [hfind, hfind, hx, Option.map_some, Option.map_eq_some_iff] at hsame

end

/-- What leaves all still at each element leaves it along a list. -/
theorem foldl_still {α : Type} {f : State → α → State} (hf : ∀ s a, (f s a).still = s.still) (l : List α) (s : State) :
    (l.foldl f s).still = s.still :=
  List.foldlRecOn (motive := fun t : State => t.still = s.still) l f rfl (fun t ht a _ => (hf t a).trans ht)

theorem ite_still {c : Prop} [Decidable c] {s t u : State} (ht : t.still = s.still) (hu : u.still = s.still) :
    (if c then t else u).still = s.still := by
  split <;> assumption

/-! ## Changes that leave all still -/

theorem State.still_of_cores {s t : State} (hrest : t = { s with cores := t.cores, l2 := t.l2 })
    (hcores : ∀ n, (t.core n).still = (s.core n).still) : t.still = s.still := by
  refine Prod.ext ?_ (funext hcores)
  rw [hrest]; rfl

theorem State.onCore_still (s : State) (n : Nat) {f : Core → Core} (hf : ∀ c, (f c).still = c.still) : (s.onCore n f).still = s.still := by
  refine State.still_of_cores (by unfold State.onCore; split <;> rfl) (fun k => ?_)
  rw [State.core_onCore s n f (fun c => (congrArg Core.num (hf c) : (f c).still.num = c.still.num))]
  split
  · rename_i hk; rw [hf, hk]
  · rfl

theorem State.onThread_still (s : State) (r : TRef) {f : Thread → Thread} (hf : ∀ x, (f x).still = x.still) :
    (s.onThread r f).still = s.still := by
  unfold State.onThread
  split
  · exact Prod.ext (congrArg (fun u => { s.still.1 with cur := u }) (hf s.cur)) rfl
  · exact Prod.ext (congrArg (fun l => { s.still.1 with threads := l }) (map_updFirst _ f _ hf _)) rfl

theorem State.onAll_still (s : State) {f : Thread → Thread} (hf : ∀ x, (f x).still = x.still) : (s.onAll f).still = s.still := by
  have hcur : (if s.cur.ref == .none then s.cur else f s.cur).still = s.cur.still := by
    split
    · rfl
    · exact hf _
  have hthreads : (s.threads.map f).map Thread.still = s.threads.map Thread.still := by
    rw [List.map_map]; exact List.map_congr_left (fun x _ => hf x)
  exact Prod.ext (congrArg₂ (fun u l => { s.still.1 with cur := u, threads := l }) hcur hthreads) rfl

theorem State.onWg_still (s : State) (n : Nat) {f : Wg → Wg} (hf : ∀ x, (f x).still = x.still) : (s.onWg n f).still = s.still :=
  Prod.ext (congrArg (fun l => { s.still.1 with wgs := l }) (map_updFirst _ f _ hf _)) rfl

@[simp] theorem State.drainEgress_still (s : State) : s.drainEgress.still = s.still := rfl

/-! ## Accesses at the homes and in the L1s (R191, R202) -/

theorem touch_still (s : State) (who : TRef) (key n : Nat) : (touch s who key n).still = s.still := by
  refine State.onAll_still s (fun x => ?_)
  split
  · rfl
  · split <;> rfl

@[simp] theorem State.put_still (s : State) (who : TRef) (key : Nat) (bs : List Byte) : (s.put who key bs).still = s.still := by
  unfold State.put
  split
  · rfl
  · exact touch_still s who key bs.length

theorem writeBack_still (s : State) (core : Nat) (x : Sector) (drop : Bool) : (writeBack s core x drop).still = s.still := by
  have hbytes := foldl_still (f := fun (s : State) i =>
      if x.dirty.getLsbD i && x.dirty != BitVec.allOnes 32 then s.put .none (32 * x.sec + i) [x.byte i] else s)
    (fun s i => ite_still (State.put_still _ _ _ _) rfl) (List.range 32) s
  refine (State.onCore_still _ core ?_).trans (ite_still ((State.put_still _ _ _ _).trans hbytes) hbytes)
  exact fun _ => rfl

theorem writeBackAll_still (s : State) (core : Nat) (p : Sector → Bool) (drop : Bool) : (writeBackAll s core p drop).still = s.still :=
  foldl_still (fun s x => writeBack_still s core x drop) _ s

theorem flushSector_still (s : State) (core cid key n : Nat) : (flushSector s core cid key n).still = s.still := by
  refine foldl_still (fun s sec => ?_) _ s
  split
  · exact ite_still rfl (writeBack_still _ _ _ _)
  · rfl

theorem l1Room_still (s : State) (core cid sec : Nat) (hint : Hint) : (l1Room s core cid sec hint).still = s.still := by
  refine ite_still rfl ?_
  split
  · rfl
  · exact writeBackAll_still _ _ _ _

theorem l1Mark_still (s : State) (core cid sec : Nat) (hint : Hint) : (l1Mark s core cid sec hint).still = s.still :=
  ite_still (State.onCore_still _ _ (fun _ => rfl)) rfl

theorem l1Store_still (s : State) (who : TRef) (core cid key : Nat) (bs : List Byte) : (l1Store s who core cid key bs).still = s.still := by
  refine (State.onCore_still _ core ?_).trans ((foldl_still (fun s b => State.onCore_still s core ?_) _ _).trans (touch_still s who key bs.length))
  all_goals exact fun _ => rfl

theorem goHome_still (s : State) (core cid scope key n : Nat) : (goHome s core cid scope key n).still = s.still := by
  have hdrained : (if scope = 6 then s.drainEgress else s).still = s.still := ite_still rfl rfl
  exact ite_still ((flushSector_still _ _ _ _ _).trans hdrained) hdrained

@[simp] theorem agentWrite_still (s : State) (who : TRef) (core cid scope : Nat) (hint : Hint) (key : Nat) (bs : List Byte) :
    (agentWrite s who core cid scope hint key bs).still = s.still := by
  have hhome : ((goHome s core cid scope key bs.length).put who key bs).still = s.still :=
    (State.put_still _ _ _ _).trans (goHome_still _ _ _ _ _ _)
  refine ite_still (State.put_still _ _ _ _) (ite_still ?_ (ite_still ?_ hhome))
  · exact (l1Mark_still _ _ _ _ _).trans ((l1Store_still _ _ _ _ _ _).trans (l1Room_still _ _ _ _ _))
  · refine (State.onCore_still _ core ?_).trans hhome
    exact fun _ => rfl

@[simp] theorem release_still (s : State) (core cid scope : Nat) : (release s core cid scope).still = s.still := by
  have hwritten : (if 3 ≤ scope && hasL1 core then writeBackAll s core (fun x => x.cid == cid && x.dirty != 0) false else s).still = s.still :=
    ite_still (writeBackAll_still _ _ _ _) rfl
  exact ite_still hwritten hwritten

@[simp] theorem acquire_still (s : State) (core cid scope : Nat) : (acquire s core cid scope).still = s.still :=
  ite_still (State.onCore_still _ _ (fun _ => rfl)) rfl

/-! ## The writes of an engine (R213, R231) -/

theorem OnlyTlbs.still {s t : State} (h : OnlyTlbs s t) : t.still = s.still :=
  State.still_of_cores (by rw [h.state]) (fun n => congrArg (fun c : Core => { c with l1 := [] }) (h.cores n))

theorem published_still (s : State) (w : Nat) (p : List (Nat × Nat) → List (Nat × Nat)) (b : Thread → Bool) (k : Nat) (q : TRef) :
    ((s.onWg w (fun w => { w with woken := true, pubs := p w.pubs })).onThread q (fun x => if b x then { x with lastRing := k } else x)).still
      = s.still := by
  refine (State.onThread_still _ q (fun x => ?_)).trans (State.onWg_still s w ?_)
  · split <;> rfl
  · exact fun _ => rfl

@[simp] theorem noteTail_still (s : State) (tid : Nat) (q : TRef) (key n : Nat) : (noteTail s tid q key n).still = s.still := by
  unfold noteTail
  split
  · split
    · rfl
    · exact published_still s _ (fun l => l ++ [(tid, _)]) (fun x => refWg x.ref == some _) _ q
  · rfl

theorem writePiece_still (s : State) (w : Option Wg) (core cid va : Nat) (bs : List Byte) : (writePiece s w core cid va bs).2.still = s.still := by
  have hplaced := (resolve_only s w core cid va bs.length 2).still
  unfold writePiece
  dsimp only
  split
  iterate 4 exact hplaced
  exact (noteTail_still _ _ _ _ _).trans ((agentWrite_still _ _ _ _ _ _ _ _).trans hplaced)

theorem writePieces_still (w : Option Wg) (core cid : Nat) (ps : List (Nat × Nat)) :
    ∀ (bs : List Byte) (s : State) (done : Nat), (writePieces w core cid ps bs s done).2.still = s.still := by
  induction ps with
  | nil => exact fun _ _ _ => rfl
  | cons p ps ih =>
    intro bs s done
    have hpiece := writePiece_still s w core cid p.1 (bs.take p.2)
    unfold writePieces
    split
    all_goals rename_i hp; rw [hp] at hpiece
    · exact (ih _ _ _).trans hpiece
    · exact hpiece

@[simp] theorem engineWrite_still (s : State) (w : Option Wg) (core cid va : Nat) (bs : List Byte) :
    (engineWrite s w core cid va bs).2.still = s.still :=
  writePieces_still w core cid _ bs s 0

/-! ## A thread that an agent wakes -/

/-- A thread that waited goes on with the registers it had. -/
theorem wake_thread? {s t : State} (h : t.still = s.still) {r : TRef} (hr : r ≠ .none) {x : Thread} (hx : s.thread? r = some x) (n : Nat)
    (f : Regs → Regs) : ∃ u, (wake t r n f).thread? r = some u ∧ u.wait = .none ∧ u.r = (f x.r).adv n := by
  obtain ⟨y, hy, hyx⟩ := State.thread?_of_still h hx
  refine ⟨{ y with wait := .none, age := 0, r := (f y.r).adv n }, State.thread?_onThread_self ?_ hr hy, rfl, by rw [Thread.r_of_still hyx]⟩
  exact fun _ => rfl

end Sys2Proof.Machine
end

section
/-! PROOFS. The dispatcher's events (R150, R153, R156, R157, R322, R356, R375, R377): launches that are decided, gangs that are placed, the
coherence phase, the ends of workgroups and gangs. -/

namespace Sys2Proof.Machine

/-! ## Launches and gangs by name -/

theorem State.launch?_onLaunch_self {s : State} {f : Launch → Launch} (hf : ∀ x, (f x).id = x.id) {l : Nat} {x : Launch}
    (h : s.launch? l = some x) : (s.onLaunch l f).launch? l = some (f x) := by
  have hfind := find_updFirst (fun x : Launch => x.id == l) f (fun x hx => by rw [hf]; exact hx) s.launches
  rw [State.launch?] at h
  rw [h] at hfind
  exact hfind

theorem State.gang?_onGang_self {s : State} {f : Gang → Gang} (hf : ∀ x, (f x).id = x.id) {i : Nat} {x : Gang}
    (h : s.gang? i = some x) : (s.onGang i f).gang? i = some (f x) := by
  have hfind := find_updFirst (fun x : Gang => x.id == i) f (fun x hx => by rw [hf]; exact hx) s.gangs
  rw [State.gang?] at h
  rw [h] at hfind
  exact hfind

theorem State.launch?_congr {s t : State} (h : t.launches = s.launches) (l : Nat) : t.launch? l = s.launch? l := by
  rw [State.launch?, State.launch?, h]

theorem find_filter_ne {α : Type} (l : List α) (k : α → Nat) (n : Nat) : (l.filter (fun x => k x != n)).find? (fun x => k x == n) = none := by
  rw [List.find?_filter, List.find?_eq_none]
  intro x _ h
  simp at h

/-! ## The signal of a launch (R375) and what its end gives rise to (R317) -/

theorem signalAt_still (s : State) (core cid key : Nat) (n : W64) : (signalAt s core cid key n).still = s.still :=
  (agentWrite_still _ _ _ _ _ _ _ _).trans (release_still _ _ _ _)

theorem signalEnd_still (s : State) (l : Launch) : (signalEnd s l).still = s.still := by
  refine ite_still rfl ?_
  split
  · exact ite_still rfl (signalAt_still _ _ _ _ _)
  · rfl

/-- An agent without an L1 leaves the cores as they are. -/
theorem signalAt_cores {core : Nat} (hcore : hasL1 core = false) (s : State) (cid key : Nat) (n : W64) :
    (signalAt s core cid key n).cores = s.cores := by
  simp [signalAt, agentWrite, release, atL1, goHome, hcore, apply_ite State.cores]

theorem signalEnd_cores (s : State) (l : Launch) : (signalEnd s l).cores = s.cores := by
  unfold signalEnd
  split
  · rfl
  split
  · split
    · rfl
    · exact signalAt_cores rfl _ _ _ _
  · rfl

/-- What changes of contexts and writes of bytes leave, the test for an IDLE context leaves (R317). -/
theorem testIdle_leaves {α : Type} {π : State → α} (hctx : ∀ s n f, π (s.onCtx n f) = π s)
    (hput : ∀ s who key bs, π (s.put who key bs) = π s) (s : State) (cid : Nat) : π (testIdle s cid) = π s := by
  have hset (s : State) (st : CState) : π (setCtxState s cid st) = π s := by
    unfold setCtxState
    dsimp only
    split
    · rw [hput, hctx]
    · exact hctx _ _ _
  unfold testIdle
  split
  · rfl
  split
  · rfl
  split
  · dsimp only
    split
    · rw [hset, hctx]
    · exact hctx _ _ _
  split
  · rw [hset, hctx]
  · rfl

theorem testIdle_gangs (s : State) (cid : Nat) : (testIdle s cid).gangs = s.gangs :=
  testIdle_leaves (fun _ _ _ => rfl) (fun s who key bs => State.gangs_of_still (State.put_still s who key bs)) s cid

theorem testIdle_cores (s : State) (cid : Nat) : (testIdle s cid).cores = s.cores :=
  testIdle_leaves (fun _ _ _ => rfl) State.put_cores s cid

theorem testLaunch_gangs (s : State) (l : Nat) : (testLaunch s l).gangs = s.gangs := by
  unfold testLaunch
  split
  · rfl
  split
  · rw [testIdle_gangs, State.gangs_of_still (signalEnd_still _ _)]
  · rfl

theorem testLaunch_cores (s : State) (l : Nat) : (testLaunch s l).cores = s.cores := by
  unfold testLaunch
  split
  · rfl
  split
  · exact (testIdle_cores _ _).trans (signalEnd_cores _ _)
  · rfl

/-! ## LAUNCH_DECISION (R150, R375) -/

section
variable {s : State} {l : Nat} {x : Launch} {th : Thread} {c : Ctx} (hx : s.launch? l = some x) (hwaits : launchWaiter s l = some th)
  (hth : s.thread? th.ref = some th) (href : th.ref ≠ .none) (hc : s.ctx? x.cid = some c) (haccepted : x.accepted = false)
include hx hwaits hth href hc haccepted

theorem execLaunchDecision_rejects {off : Nat} (herr : launchError s c.desc x.raw = some off) :
    ∃ t u, execLaunchDecision l s = .next t ∧ t.launch? l = none ∧ t.thread? th.ref = some u ∧ u.wait = .none ∧
      u.r = (th.r.setX x.a (BitVec.ofNat 64 (2 ^ 63 + off))).adv 1 := by
  have hsignal := signalEnd_still { s with launches := s.launches.filter (fun y => y.id != l) } x
  obtain ⟨u, hu, hwait, hr⟩ := wake_thread? hsignal href hth 1 (fun r => r.setX x.a (BitVec.ofNat 64 (2 ^ 63 + off)))
  refine ⟨_, u, by simp only [execLaunchDecision, hx, hwaits, hc, haccepted, herr, due, Bool.not_false, if_true], ?_, hu, hwait, hr⟩
  rw [wake, State.launch?_congr (State.onThread_launches _ _ _), State.launch?_congr (State.launches_of_still hsignal)]
  exact find_filter_ne _ _ _

/-- A launch that is accepted by its record (R149, R151). -/
def Launch.accept (x : Launch) (raw : List Byte) : Launch :=
  { x with accepted := true, lrec := LRec.ofBytes raw, total := gangCount (LRec.ofBytes raw) }

/-- The state once a launch is accepted and stands in its queue, before its curator hears of it (R150, R377). -/
def launchAccepted (s : State) (l : Nat) (x : Launch) : State :=
  (s.onLaunch l (fun y => y.accept x.raw)).onQueue x.q (fun q => { q with fresh := false, launches := q.launches ++ [l] })

omit hwaits hth href hc haccepted in
theorem launchAccepted_launch? : (launchAccepted s l x).launch? l = some (x.accept x.raw) := by
  refine State.launch?_onLaunch_self (s := s) (f := fun y => y.accept x.raw) ?_ hx
  exact fun _ => rfl

theorem execLaunchDecision_accepts (hok : launchError s c.desc x.raw = none) :
    ∃ t y u, execLaunchDecision l s = .next t ∧ t.launch? l = some y ∧ y.accepted = true ∧ y.lrec = LRec.ofBytes x.raw ∧
      y.total = gangCount y.lrec ∧ t.thread? th.ref = some u ∧
      if x.phase = true then u.wait = th.wait ∧ u.r = th.r.setX x.a 0 else u.wait = .none ∧ u.r = (th.r.setX x.a 0).adv 1 := by
  have hlaunch := launchAccepted_launch? hx
  have hwaiter : (launchAccepted s l x).thread? th.ref = some th := hth
  have hex : execLaunchDecision l s = if x.phase then .next ((launchAccepted s l x).onThread th.ref (fun t => { t with r := t.r.setX x.a 0 }))
      else .next (wake (launchAccepted s l x) th.ref 1 (fun r => r.setX x.a 0)) := by
    simp only [execLaunchDecision, hx, hwaits, hc, haccepted, hok, due, Bool.not_false, if_true, launchAccepted, Launch.accept]
  rw [hex]
  cases x.phase with
  | true =>
    refine ⟨_, x.accept x.raw, _, if_pos rfl, ?_, rfl, rfl, rfl, State.thread?_onThread_self ?_ href hwaiter, ?_⟩
    · rw [State.launch?_congr (State.onThread_launches _ _ _), hlaunch]
    · exact fun _ => rfl
    · exact (if_pos rfl).mpr ⟨rfl, rfl⟩
  | false =>
    obtain ⟨u, hu, hwait, hr⟩ := wake_thread? rfl href hwaiter 1 (fun r => r.setX x.a 0)
    refine ⟨_, x.accept x.raw, u, if_neg Bool.false_ne_true, ?_, rfl, rfl, rfl, hu, ?_⟩
    · rw [wake, State.launch?_congr (State.onThread_launches _ _ _), hlaunch]
    · exact (if_neg Bool.false_ne_true).mpr ⟨hwait, hr⟩

end

/-! ## GANG_PLACEMENT (R153, R154, R156) -/

/-- A member of a gang is placed: its workgroup stands, and each of its threads at the entry. -/
def MemberStands (s : State) (r : LRec) (cid gang m : Nat) : Prop :=
  ∃ w ∈ s.wgs, w.id = m ∧ w.gang = gang ∧
    ∀ i < r.wgsize, ∃ th ∈ s.threads, th.ref = .thr m i ∧ th.cid = cid ∧ th.core = w.core ∧ th.r.pc = r.entry

theorem MemberStands.mono {s t : State} {r : LRec} {cid gang m : Nat} (h : MemberStands s r cid gang m) (hwgs : s.wgs ⊆ t.wgs)
    (hthreads : s.threads ⊆ t.threads) : MemberStands t r cid gang m := by
  obtain ⟨w, hw, hid, hgang, hts⟩ := h
  refine ⟨w, hwgs hw, hid, hgang, fun i hi => ?_⟩
  obtain ⟨th, hth, hstands⟩ := hts i hi
  exact ⟨th, hthreads hth, hstands⟩

theorem MemberStands.of_still {s t : State} {r : LRec} {cid gang m : Nat} (h : MemberStands s r cid gang m) (hst : t.still = s.still) :
    MemberStands t r cid gang m := by
  obtain ⟨w, hw, hid, hgang, hts⟩ := h
  obtain ⟨v, hv, hvw⟩ := List.mem_map.mp (State.wgs_of_still hst ▸ List.mem_map_of_mem (f := Wg.still) hw)
  have hcore : v.core = w.core := (congrArg Wg.core hvw : v.still.core = w.still.core)
  refine ⟨v, hv, (congrArg Wg.id hvw : v.still.id = w.still.id).trans hid, (congrArg Wg.gang hvw : v.still.gang = w.still.gang).trans hgang,
    fun i hi => ?_⟩
  obtain ⟨th, hth, href, hcid, hthcore, hpc⟩ := hts i hi
  obtain ⟨u, hu, huth⟩ := List.mem_map.mp (State.threads_of_still hst ▸ List.mem_map_of_mem (f := Thread.still) hth)
  exact ⟨u, hu, (congrArg Thread.ref huth : u.still.ref = th.still.ref).trans href,
    (congrArg Thread.cid huth : u.still.cid = th.still.cid).trans hcid,
    ((congrArg Thread.core huth : u.still.core = th.still.core).trans hthcore).trans hcore.symm, by rw [Thread.r_of_still huth]; exact hpc⟩

/-- A gang of which n members are placed; all else of it is as `g` says. -/
structure GangStands (s : State) (r : LRec) (g : Gang) (n : Nat) : Prop where
  gang : ∃ ms, s.gang? g.id = some { g with members := ms } ∧ ms.length = n ∧ ∀ m ∈ ms, MemberStands s r g.cid g.id m

theorem GangStands.congr {s t : State} {r : LRec} {g : Gang} {n : Nat} (h : GangStands s r g n) (hgangs : t.gangs = s.gangs)
    (hwgs : t.wgs = s.wgs) (hthreads : t.threads = s.threads) : GangStands t r g n := by
  obtain ⟨ms, hg, hlen, hms⟩ := h.gang
  exact ⟨ms, by rw [State.gang?, hgangs]; exact hg, hlen,
    fun m hm => (hms m hm).mono (fun _ h => hwgs ▸ h) (fun _ h => hthreads ▸ h)⟩

theorem GangStands.of_still {s t : State} {r : LRec} {g : Gang} {n : Nat} (h : GangStands s r g n) (hst : t.still = s.still) :
    GangStands t r g n := by
  obtain ⟨ms, hg, hlen, hms⟩ := h.gang
  exact ⟨ms, by rw [State.gang?, State.gangs_of_still hst]; exact hg, hlen, fun m hm => (hms m hm).of_still hst⟩

/-- One member is placed: a step of `placeMembers`. -/
def placeMember (l : LRec) (cid launch gang g first : Nat) (zap : List (Nat × Nat)) (x : List Nat × Nat) (m : Nat) (s : State) : State :=
  let w := startWg s s.uid cid launch gang m g (first + m) l x.1 x.2 s.fresh
  let s := clearAllotment s w l zap
  { s with
    wgs := s.wgs ++ [w], uid := s.uid + 1, fresh := s.fresh + 8192 * l.aslots
    threads := s.threads ++ (List.range l.wgsize).map (startThread w l) }.onGang gang (fun y => { y with members := y.members ++ [w.id] })

theorem placeMembers_cons (l : LRec) (cid launch gang g first : Nat) (zap : List (Nat × Nat)) (x : List Nat × Nat)
    (xs : List (List Nat × Nat)) (m : Nat) (s : State) : placeMembers l cid launch gang g first zap (x :: xs) m s =
      placeMembers l cid launch gang g first zap xs (m + 1) (placeMember l cid launch gang g first zap x m s) := rfl

theorem GangStands.placeMember {s : State} {r : LRec} {g : Gang} {n : Nat} (h : GangStands s r g n) (launch gi first : Nat)
    (zap : List (Nat × Nat)) (x : List Nat × Nat) (m : Nat) :
    GangStands (placeMember r g.cid launch g.id gi first zap x m s) r g (n + 1) := by
  obtain ⟨ms, hg, hlen, hms⟩ := h.gang
  refine ⟨ms ++ [s.uid], ?_, by rw [List.length_append, hlen]; rfl, fun k hk => ?_⟩
  · refine State.gang?_onGang_self (f := fun y => { y with members := y.members ++ [s.uid] }) ?_ hg
    exact fun _ => rfl
  · rcases List.mem_append.mp hk with hk | hk
    · exact (hms k hk).mono (List.subset_append_left _ _) (List.subset_append_left _ _)
    · obtain rfl := List.mem_singleton.mp hk
      refine ⟨_, List.mem_append_right _ (List.mem_singleton_self _), rfl, rfl, fun i hi => ?_⟩
      exact ⟨_, List.mem_append_right _ (List.mem_map_of_mem (List.mem_range.mpr hi)), rfl, rfl, rfl, rfl⟩

theorem GangStands.placeMembers {r : LRec} {g : Gang} (launch gi first : Nat) (zap : List (Nat × Nat)) (xs : List (List Nat × Nat)) :
    ∀ {s : State} {n : Nat} (m : Nat), GangStands s r g n →
      GangStands (placeMembers r g.cid launch g.id gi first zap xs m s) r g (n + xs.length) := by
  induction xs with
  | nil => exact fun _ h => h
  | cons x xs ih =>
    intro s n m h
    rw [placeMembers_cons, List.length_cons, Nat.add_comm xs.length, ← Nat.add_assoc]
    exact ih (m + 1) (h.placeMember launch gi first zap x m)

theorem placeMembers_turn (r : LRec) (cid launch gang gi first : Nat) (zap : List (Nat × Nat)) (xs : List (List Nat × Nat)) :
    ∀ (m : Nat) (s : State), (placeMembers r cid launch gang gi first zap xs m s).turn = s.turn := by
  induction xs with
  | nil => exact fun _ _ => rfl
  | cons x xs ih => exact fun m s => ih (m + 1) _

theorem clearRecords_still (s : State) (w : Wg) : (clearRecords s w).still = s.still := by
  unfold clearRecords
  split
  · rfl
  · exact ite_still rfl (foldl_still (fun s r => engineWrite_still s (some w) _ _ _ _) _ s)

/-- The gang that a placement begins with: no member yet (R153, R173, R181, R184). -/
def gangPlaced (s : State) (x : Launch) (l gi die cluster first slot : Nat) : Gang :=
  { id := s.uid, cid := x.cid, launch := l, g := gi, die, cluster, first, members := [], k := Vector.replicate 8 KReg.init
    bars := Vector.replicate 16 ⟨0, []⟩, exits := 0
    heap := { off := x.lrec.clHeapOff, size := x.lrec.clHeapSz, runs := [], hgc := 1 }
    way := .run, slot, endTick := none, ready := true, by' := none }

/-- The state in which the members of a gang are placed: it is the context's turn, and its slot and the gang are there (R322, R328). -/
def gangOpened (s : State) (x : Launch) (c : Ctx) (g : Gang) : State :=
  let s1 := { s with turn := x.cid }.onCtx x.cid (fun _ => { visit s.turn c with slots := c.slots ++ [(g.slot, slotBytes x.lrec)] })
  { s1 with gangs := s1.gangs ++ [g], uid := s1.uid + 1 }

/-- The state once all members of a gang are placed, and its launch counts the gang and the units that it is on (R153, R154). -/
def gangCounted (s : State) (x : Launch) (c : Ctx) (g : Gang) (core : Nat) (rows : List (List Nat)) (bases : List Nat)
    (zap : List (Nat × Nat)) : State :=
  let keys := unitKeys x.lrec g.g g.die g.cluster
  (placeMembers x.lrec x.cid g.launch g.id g.g core zap (rows.zip bases) 0 (gangOpened s x c g)).onLaunch g.launch (fun y =>
    { y.take g.g with live := y.live + 1, units := y.units ++ keys.filter (fun k => !y.units.contains k) })

/-- The state after a placement: the registers' records are cleared, and a recording has noted it (R170, R356). -/
def gangStood (s : State) (x : Launch) (c : Ctx) (g : Gang) (core : Nat) (rows : List (List Nat)) (bases : List Nat)
    (zap : List (Nat × Nat)) : State :=
  let s := gangCounted s x c g core rows bases zap
  notePlaced ((s.wgs.filter (fun w => w.gang == g.id)).foldl clearRecords s) x.cid { addr := x.addr, g := g.g, core, rows }

theorem gangOpened_stands {s : State} {g : Gang} (hfree : s.gang? g.id = none) (hnone : g.members = []) (x : Launch) (c : Ctx) :
    GangStands (gangOpened s x c g) x.lrec g 0 := by
  refine ⟨[], ?_, rfl, fun m hm => nomatch hm⟩
  have hfind : (s.gangs ++ [g]).find? (fun y => y.id == g.id) = some g := by
    rw [State.gang?] at hfree
    simp [List.find?_append, hfree]
  exact hfind.trans (by rw [← hnone])

theorem gangStood_stands {s : State} {x : Launch} {g : Gang} (hfree : s.gang? g.id = none) (hnone : g.members = []) (hcid : g.cid = x.cid)
    (c : Ctx) (core : Nat) {rows : List (List Nat)} {bases : List Nat} (hrows : rows.length = x.lrec.gang) (hbases : bases.length = x.lrec.gang)
    (zap : List (Nat × Nat)) :
    GangStands (gangStood s x c g core rows bases zap) x.lrec g x.lrec.gang ∧ (gangStood s x c g core rows bases zap).turn = x.cid := by
  have hplaced := (gangOpened_stands hfree hnone x c).placeMembers g.launch g.g core zap (rows.zip bases) 0
  rw [hcid, Nat.zero_add, List.length_zip, hrows, hbases, Nat.min_self] at hplaced
  have hturn := placeMembers_turn x.lrec x.cid g.launch g.id g.g core zap (rows.zip bases) 0 (gangOpened s x c g)
  have hcounted : GangStands (gangCounted s x c g core rows bases zap) x.lrec g x.lrec.gang := hplaced.congr rfl rfl rfl
  have hcleared := foldl_still clearRecords_still ((gangCounted s x c g core rows bases zap).wgs.filter (fun w => w.gang == g.id))
    (gangCounted s x c g core rows bases zap)
  exact ⟨(hcounted.of_still hcleared).congr rfl rfl rfl, (State.turn_of_still hcleared).trans hturn⟩

section
variable {s : State} {l gi die cluster first slot : Nat} {rows : List (List Nat)} {bases : List Nat} (zap : List (Nat × Nat)) {x : Launch}
  {c : Ctx}

/-- May a gang be placed so (R153, R154, R318, R321, R322, R356)? -/
def placeable (s : State) (x : Launch) (c : Ctx) (gi die cluster first : Nat) (rows : List (List Nat)) (bases : List Nat) : Bool :=
  let r := x.lrec
  let core := die * Config.coresPerDie + cluster * 8 + first
  x.accepted && !x.phase && gangNext s x gi && c.st == .running && die < 4 && cluster < 12
    && clusterOk s c.desc.part die cluster && first + r.gang ≤ 8 && rows.length == r.gang && bases.length == r.gang
    && ((rows.zip bases).zipIdx.all (fun y => memberFits s (core + y.2) r y.1.1 y.1.2))
    && unitsAgree x.units (unitKeys r gi die cluster) && placedRight s x.cid { addr := x.addr, g := gi, core, rows } && mayPlace c
    && servedNow s c

theorem execGangPlacement_places (hx : (refreshDescs s).launch? l = some x) (hc : (refreshDescs s).ctx? x.cid = some c)
    (hok : placeable (refreshDescs s) x c gi die cluster first rows bases = true) (hslot : findSlot c (slotBytes x.lrec) = some slot)
    (hturn : 0 < (visit (refreshDescs s).turn c).deficit) :
    execGangPlacement l gi die cluster first rows bases zap s =
      .next (gangStood (refreshDescs s) x c (gangPlaced (refreshDescs s) x l gi die cluster first slot)
        (die * Config.coresPerDie + cluster * 8 + first) rows bases zap) := by
  rw [placeable] at hok
  simp only [execGangPlacement, hx, hc, hok, due, if_true, hslot, if_neg (Int.not_le.mpr hturn)]
  rfl

end

/-! ## PHASE_CLEAN (R377) -/

/-- Write-backs at one core leave the L1s of the others. -/
theorem writeBackAll_core_ne (s : State) {core n : Nat} (hn : n ≠ core) (p : Sector → Bool) (drop : Bool) :
    (writeBackAll s core p drop).core n = s.core n := by
  refine List.foldlRecOn (motive := fun t : State => t.core n = s.core n) _ _ rfl (fun t ht x _ => ?_)
  have hbytes : ((List.range 32).foldl (fun (s : State) i =>
      if x.dirty.getLsbD i && x.dirty != BitVec.allOnes 32 then s.put .none (32 * x.sec + i) [x.byte i] else s) t).cores = t.cores :=
    List.foldlRecOn (motive := fun u : State => u.cores = t.cores) _ _ rfl
      (fun u hu i _ => by split; exacts [(State.put_cores _ _ _ _).trans hu, hu])
  unfold writeBack
  rw [State.core_onCore, if_neg hn, ← ht]
  · refine State.core_congr ?_ n
    split
    · exact (State.put_cores _ _ _ _).trans hbytes
    · exact hbytes
  · exact fun _ => rfl

/-- What stands in a core's L1 after write-backs that invalidate, core by core, was there, and at one of those cores none of it fits. -/
theorem l1_foldl_writeBackAll {p : Sector → Bool} {n : Nat} {y : Sector} (ns : List Nat) : ∀ {s : State},
    y ∈ ((ns.foldl (fun s k => writeBackAll s k p true) s).core n).l1 → y ∈ (s.core n).l1 ∧ (n ∈ ns → ¬p y = true) := by
  induction ns with
  | nil => exact fun h => ⟨h, fun hn => nomatch hn⟩
  | cons k ns ih =>
    intro s h
    obtain ⟨hmem, hrest⟩ := ih h
    by_cases hk : n = k
    · subst hk
      exact ⟨(mem_l1_foldl_writeBack _ hmem).1, fun _ => not_of_mem_writeBackAll_drop hmem⟩
    · rw [writeBackAll_core_ne s hk] at hmem
      exact ⟨hmem, fun hn => hrest ((List.mem_cons.mp hn).resolve_left hk)⟩

theorem l1_eq_nil_of_not_mem {s : State} {n : Nat} (h : n ∉ s.cores.map (·.num)) : (s.core n).l1 = [] := by
  have hnone : s.cores.find? (fun c => c.num == n) = none :=
    List.find?_eq_none.mpr (fun c hc hn => h (List.mem_map.mpr ⟨c, hc, by simpa using hn⟩))
  rw [State.core, hnone]; rfl

/-- The state in which the coherence phase has written back and invalidated a context's lines in every L1 (R377). -/
def linesCleaned (s : State) (cid : Nat) : State :=
  (s.cores.map (·.num)).foldl (fun s n => writeBackAll s n (fun e => e.cid == cid) true) s

theorem linesCleaned_l1 {s : State} {cid n : Nat} {e : Sector} (he : e ∈ ((linesCleaned s cid).core n).l1) : e.cid ≠ cid := by
  obtain ⟨hmem, hclean⟩ := l1_foldl_writeBackAll _ he
  by_cases hn : n ∈ s.cores.map (·.num)
  · simpa using hclean hn
  · rw [l1_eq_nil_of_not_mem hn] at hmem
    exact nomatch hmem

/-- A core without what it holds of a context but for the lines: instruction words, images, region states (R194, R262, R377). -/
def Core.without (c : Core) (cid : Nat) : Core :=
  { c with
    icache := c.icache.filter (fun e => e.cid != cid)
    store := c.store.filter (fun e => e.cid != cid)
    states := c.states.filter (fun e => e.1 != cid) }

theorem core_map_without (s : State) (cid n : Nat) :
    ({ s with cores := s.cores.map (fun (c : Core) => c.without cid) } : State).core n = (s.core n).without cid := by
  have hfind : (s.cores.map (fun (c : Core) => c.without cid)).find? (fun c => c.num == n) =
      (s.cores.find? (fun c => c.num == n)).map (fun c => c.without cid) := List.find?_map
  unfold State.core
  rw [hfind]
  cases s.cores.find? (fun c => c.num == n) <;> rfl

/-- The state in which the coherence phase is done, and nobody has been told yet (R377, R381). -/
def phaseDone (s : State) (l : Nat) (x : Launch) : State :=
  let s := linesCleaned s x.cid
  ({ s with cores := s.cores.map (fun (c : Core) => c.without x.cid) }.onCtx x.cid (fun c => { c with measured := [] })).onLaunch l
    (fun y => { y with phase := false })

theorem phaseDone_core (s : State) (l : Nat) (x : Launch) (n : Nat) : (phaseDone s l x).core n = ((linesCleaned s x.cid).core n).without x.cid :=
  core_map_without (linesCleaned s x.cid) x.cid n

theorem execPhaseClean_cleans {s : State} {l : Nat} {x : Launch} (hx : s.launch? l = some x) (haccepted : x.accepted = true)
    (hphase : x.phase = true) (hfirst : ∀ y ∈ s.launches, y.q = x.q → l ≤ y.id) :
    ∃ t, execPhaseClean l s = .next t ∧ t.cores = (phaseDone s l x).cores := by
  have hnone : s.launches.any (fun y => y.q == x.q && y.id < l) = false := by simpa using hfirst
  have hex : execPhaseClean l s = match launchWaiter (phaseDone s l x) l with
      | some t => .next (testLaunch (wake (phaseDone s l x) t.ref 1 id) l)
      | none => .next (testLaunch (phaseDone s l x) l) := by
    simp only [execPhaseClean, hx, haccepted, hphase, hnone, due, Bool.not_false, Bool.and_self, if_true]
    rfl
  rw [hex]
  split
  · exact ⟨_, rfl, (testLaunch_cores _ _).trans (State.onThread_cores _ _ _)⟩
  · exact ⟨_, rfl, testLaunch_cores _ _⟩

/-! ## WORKGROUP_END, GANG_RETIRE (R157) -/

theorem execWorkgroupEnd_ends {s : State} {w : Nat} {x : Wg} (hx : s.wg? w = some x) (hended : x.ended = false) (hdone : wgDone s x = true) :
    ∃ t, execWorkgroupEnd w s = .next t ∧ t.wg? w = some { x with ended := true } := by
  have hself {s : State} (hx : s.wg? w = some x) : (s.onWg w (fun y => { y with ended := true })).wg? w = some { x with ended := true } := by
    refine State.wg?_onWg_self ?_ hx
    exact fun _ => rfl
  simp only [execWorkgroupEnd, hx, hended, hdone, due, Bool.not_false, Bool.and_self, if_true]
  split
  · exact ⟨_, rfl, hself hx⟩
  · split
    · exact ⟨_, rfl, hself hx⟩
    · exact ⟨_, rfl, hself hx⟩

theorem execGangRetire_retires {s : State} {i : Nat} {g : Gang} {k : Nat} (hg : s.gang? i = some g) (hend : g.endTick = some k)
    (hlate : k < s.tick) : ∃ t, execGangRetire i s = .next t ∧ t.gang? i = none := by
  have hid : g.id = i := by simpa using List.find?_some hg
  simp only [execGangRetire, hg, hend, due, hlate, decide_true, if_true]
  refine ⟨_, rfl, ?_⟩
  rw [State.gang?, testIdle_gangs, testLaunch_gangs, ← hid]
  exact find_filter_ne _ _ _

end Sys2Proof.Machine

namespace Sys2Proof
open Machine

/-- Settles O51: a placement adds member after member (`GangStands.placeMembers`), what agents write leaves it so (`GangStands.of_still`),
and the ends of launches leave gangs and cores. -/
theorem dispatcherEvents : Obligations.DispatcherEvents := by
  unfold Obligations.DispatcherEvents
  intro s
  refine ⟨fun l x th c hx hwaits hth href hc haccepted => ⟨fun off herr => ?rejected, fun hok => ?accepted⟩, ?placement,
    fun l x hx haccepted hphase hfirst => ?phase, fun w x hx hended hdone => ?ended, fun i g k hg hend hlate => ?retired⟩
  case rejected => exact execLaunchDecision_rejects hx hwaits hth href hc haccepted herr
  case accepted => exact execLaunchDecision_accepts hx hwaits hth href hc haccepted hok
  case placement =>
    intro l gi die cluster first rows bases zap x c slot s0 r core free hx hc hgang haccepted hphase hnext hrunning hdie hcluster hpart hfirst
      hrows hbases hfree hunits hright hmay hserved hslot hturn
    have hok : placeable s0 x c gi die cluster first rows bases = true := by
      simp only [placeable, Bool.and_eq_true, Bool.not_eq_true', beq_iff_eq, decide_eq_true_eq, and_assoc]
      exact ⟨haccepted, hphase, hnext, hrunning, hdie, hcluster, hpart, hfirst, hrows, hbases, hfree, hunits, hright, hmay, hserved⟩
    obtain ⟨hstands, htaken⟩ := gangStood_stands (g := gangPlaced s0 x l gi die cluster first slot) hgang rfl rfl c core hrows hbases zap
    obtain ⟨ms, hms, hlen, hmembers⟩ := hstands.gang
    exact ⟨_, _, execGangPlacement_places zap hx hc hok hslot hturn, htaken, List.mem_of_find?_eq_some hms, rfl, rfl, rfl, rfl, rfl, rfl, rfl,
      hlen, hmembers⟩
  case phase =>
    obtain ⟨t, ht, hcores⟩ := execPhaseClean_cleans hx haccepted hphase hfirst
    refine ⟨t, ht, fun n => ?_⟩
    rw [State.core_congr hcores, phaseDone_core]
    exact ⟨fun e he => linesCleaned_l1 he, fun e he => by simpa using (List.mem_filter.mp he).2,
      fun e he => by simpa using (List.mem_filter.mp he).2, fun e he => by simpa using (List.mem_filter.mp he).2⟩
  case ended => exact execWorkgroupEnd_ends hx hended hdone
  case retired => exact execGangRetire_retires hg hend hlate

end Sys2Proof
end

section
/-! PROOFS. The worklists' units (R284, R288, R289, R292-R294, R298) and the refill of a spilled register (R172). A change of one worklist is
told by what it makes of the worklist (`wl?_onWl_self`), of a field of every worklist (`map_wl?_onWl`), and of the threads. -/

namespace Sys2Proof.Machine

/-! ## Contexts and worklists by name -/

/-- What a change of one context makes of a context's number being looked up. -/
theorem State.ctx?_onCtx (s : State) {f : Ctx → Ctx} (hf : ∀ c, (f c).cid = c.cid) (n cid : Nat) :
    (s.onCtx n f).ctx? cid = if cid = n then (s.ctx? cid).map f else s.ctx? cid := by
  split
  · subst n
    exact State.ctx?_onCtx_self s hf cid
  · rename_i hne
    refine find_updFirst_ne _ _ _ (fun c hc => ?_) _
    have hc' : c.cid ≠ cid := fun e => hne (e.symm.trans (by simpa using hc))
    simp [hf, hc']

theorem State.wl?_congr {s t : State} (h : t.ctxs = s.ctxs) (cid : Nat) (wl : Fin 4) : t.wl? cid wl = s.wl? cid wl := by
  rw [State.wl?, State.wl?, State.ctx?_congr h]

theorem State.wl?_onCtx (s : State) {f : Ctx → Ctx} (hf : ∀ c, (f c).cid = c.cid ∧ (f c).wls = c.wls) (n cid : Nat) (wl : Fin 4) :
    (s.onCtx n f).wl? cid wl = s.wl? cid wl := by
  unfold State.wl?
  rw [State.ctx?_onCtx s (fun c => (hf c).1)]
  split
  · rw [Option.map_map]
    exact congrArg (fun k => (s.ctx? cid).map k) (funext fun c => by rw [Function.comp_apply, (hf c).2])
  · rfl

theorem State.wl?_onWl_self {s : State} {cid : Nat} {wl : Fin 4} {w : Worklist} (h : s.wl? cid wl = some w) (f : Worklist → Worklist) :
    (s.onWl cid wl f).wl? cid wl = some (f w) := by
  obtain ⟨c, hc, rfl⟩ := Option.map_eq_some_iff.mp h
  have hself := State.ctx?_onCtx_self s (f := fun c => { c with wls := c.wls.set wl.val (f c.wls[wl]) wl.isLt }) (fun _ => rfl) cid
  rw [State.wl?, State.onWl, hself, hc]
  exact congrArg some (Vector.getElem_set_self _)

/-- A part of a worklist that a change leaves stays in every worklist. -/
theorem State.map_wl?_onWl {α : Type} (π : Worklist → α) (s : State) {f : Worklist → Worklist} (hf : ∀ w, π (f w) = π w) (n cid : Nat)
    (l wl : Fin 4) : ((s.onWl n l f).wl? cid wl).map π = (s.wl? cid wl).map π := by
  unfold State.wl? State.onWl
  rw [State.ctx?_onCtx]
  · split
    · rw [Option.map_map, Option.map_map, Option.map_map]
      refine congrArg (fun k => (s.ctx? cid).map k) (funext fun c => ?_)
      simp only [Function.comp_apply, Fin.getElem_fin, Vector.getElem_set]
      split
      · rename_i h
        obtain rfl := Fin.ext h
        exact hf _
      · rfl
    · rfl
  · exact fun _ => rfl

theorem replaying_onWl (s : State) (f : Worklist → Worklist) (n cid : Nat) (l : Fin 4) :
    replaying (s.onWl n l f) cid = replaying s cid := by
  unfold replaying State.onWl
  rw [State.ctx?_onCtx]
  · split
    · rw [Option.map_map]; rfl
    · rfl
  · exact fun _ => rfl

/-- A worklist after a change of its part on a die. -/
def Worklist.onUnit (w : Worklist) (d : Fin 4) (f : WUnit → WUnit) : Worklist :=
  { w with units := w.units.set d.val (f w.units[d]) d.isLt }

theorem Worklist.onUnit_units (w : Worklist) (d : Fin 4) (f : WUnit → WUnit) (k : Fin 4) :
    (w.onUnit d f).units[k] = if k = d then f w.units[k] else w.units[k] := by
  simp only [Worklist.onUnit, Fin.getElem_fin, Vector.getElem_set, Fin.ext_iff, eq_comm (a := k.val)]
  split
  · rename_i h
    simp only [h]
  · rfl

theorem onUnit_wl? {s : State} {cid : Nat} {wl : Fin 4} {w : Worklist} (h : s.wl? cid wl = some w) (d : Fin 4) (f : WUnit → WUnit) :
    (onUnit s cid wl d f).wl? cid wl = some (w.onUnit d f) :=
  State.wl?_onWl_self h _

/-! ## Refreshes and termination (R284, R294) -/

theorem notePops_wl? (s : State) (cid : Nat) (wl : Fin 4) (a : Option (BitVec 9 × W64)) : (notePops s cid wl a).wl? cid wl = s.wl? cid wl :=
  State.wl?_onCtx s (by exact fun _ => ⟨rfl, rfl⟩) cid cid wl

theorem popEnded_ctxs (s : State) (t : Thread) (wl : Fin 4) (xa : XReg) (ps : PReg) (n : Nat) : (popEnded s t wl xa ps n).ctxs = s.ctxs :=
  (State.onThread_ctxs _ _ _).trans (State.ctxs_of_still (acquire_still _ _ _ _))

/-- A worklist that has terminated (R294). -/
def Worklist.over (w : Worklist) : Worklist :=
  { w with st := .terminated, fseen := none, units := vmap (fun u => { u with fseen := none }) w.units }

theorem wlTerminate_terminates {s : State} {cid : Nat} {wl : Fin 4} {w : Worklist} (h : s.wl? cid wl = some w) :
    ∃ w', (wlTerminate s cid wl).wl? cid wl = some w' ∧ w'.st = .terminated := by
  refine ⟨_, (State.wl?_congr ?_ cid wl).trans (State.wl?_onWl_self ((notePops_wl? s cid wl none).trans h) Worklist.over), rfl⟩
  refine List.foldlRecOn (motive := fun t : State => t.ctxs = _) _ _ rfl (fun t ht u _ => ?_)
  split
  · exact (popEnded_ctxs _ _ _ _ _ _).trans ht
  · exact ht

section
variable {s : State} {cid : Nat} {wl : Fin 4} {w : Worklist} (h : s.wl? cid wl = some w) (fseen : Option Nat)
include h

theorem wlRefresh_gives : ∃ w', (wlRefresh s cid wl w fseen false).wl? cid wl = some w' ∧ w'.st = w.st ∧ w'.refreshed = some s.tick ∧
    w'.fseen = fseen ∧ ∀ d : Fin 4, (w'.units[d]).fseen = fseen := by
  simp only [wlRefresh, Bool.false_and, Bool.false_eq_true, if_false, State.wl?_onWl_self h]
  exact ⟨_, rfl, rfl, rfl, rfl, fun d => by simp [vmap]⟩

theorem wlRefresh_terminates (hlast : w.last = some w.counts) :
    ∃ w', (wlRefresh s cid wl w fseen true).wl? cid wl = some w' ∧ w'.st = .terminated := by
  have hsame : (true && w.last == some w.counts) = true := by simp [hlast]
  rw [wlRefresh, if_pos hsame]
  exact wlTerminate_terminates h

theorem execFloorRefresh_due (hst : w.st = .active) (hsys : w.sys = false) (hdue : refreshDue s w 64 = true) :
    execFloorRefresh cid wl s = .next (wlRefresh s cid wl w (floorOf s cid wl w) (wlIdle s cid wl w)) := by
  simp only [execFloorRefresh, h, hst, hsys, hdue, due, beq_self_eq_true, Bool.not_false, Bool.and_self, if_true]

end

/-- A worklist that has heard from its peers whether they are quiet (R283). -/
def Worklist.heard (w : Worklist) (quiet : Bool) : Worklist := { w with peersReady := w.peersReady || quiet }

theorem execGroupFloorRefresh_due {s : State} {cid : Nat} {wl : Fin 4} {w : Worklist} (h : s.wl? cid wl = some w) (hst : w.st = .active)
    (hsys : w.sys = true) (hdue : refreshDue s w 1024 = true) (peer : Option Nat) (quiet : Bool) :
    execGroupFloorRefresh cid wl peer quiet s = .next (wlRefresh (s.onWl cid wl (fun _ => w.heard quiet)) cid wl (w.heard quiet)
      (minFloor (floorOf s cid wl w) peer) (quiet && wlIdle (s.onWl cid wl (fun _ => w.heard quiet)) cid wl (w.heard quiet))) := by
  have hgo : (w.st == .active && w.sys && refreshDue s w 1024) = true := by simp [hst, hsys, hdue]
  simp only [execGroupFloorRefresh, h, hgo, due, if_true]
  rfl

/-! ## Records that leave the front buffer (R292) -/

theorem core_sendRec (s : State) (core : Nat) (r : WRec) :
    (sendRec s core r).core core = { s.core core with front := (s.core core).front.erase r } := by
  have hcore := State.core_onCore s core (fun c => { c with front := c.front.erase r }) (fun _ => rfl) core
  rw [if_pos rfl] at hcore
  exact hcore

theorem wl?_sendRec {s : State} {r : WRec} {w : Worklist} (h : s.wl? r.cid (Fin.ofNat 4 r.wl) = some w) (core : Nat) :
    ∃ w', (sendRec s core r).wl? r.cid (Fin.ofNat 4 r.wl) = some w' ∧
      (w'.units[dieOf core]).recs = (w.units[dieOf core]).recs ++ [{ r with resv := none }] := by
  refine ⟨_, State.wl?_onWl_self ((State.wl?_congr (State.onCore_ctxs _ _ _) _ _).trans h) _, ?_⟩
  simp

theorem fseen_sendFull (s : State) (core cid : Nat) (wl : Fin 4) :
    ((sendFull s core).wl? cid wl).map (·.fseen) = (s.wl? cid wl).map (·.fseen) := by
  unfold sendFull
  split
  · split
    · rename_i r _
      unfold sendRec
      rw [State.map_wl?_onWl, State.wl?_congr (State.onCore_ctxs _ _ _)]
      exact fun _ => rfl
    · rfl
  · rfl

theorem replaying_sendFull (s : State) (core cid : Nat) : replaying (sendFull s core) cid = replaying s cid := by
  unfold sendFull
  split
  · split
    · exact (replaying_onWl _ _ _ _ _).trans (replaying_congr (State.onCore_ctxs _ _ _) cid)
    · rfl
  · rfl

theorem sendFull_holdings (s : State) (core : Nat) (q : TRef) : (sendFull s core).holdings q = s.holdings q := by
  unfold sendFull
  split
  · split
    · exact State.holdings_onCore _ _ _
    · rfl
  · rfl

theorem sendFull_of_room {s : State} {core : Nat} (h : generalUsed (s.core core) < 256) : sendFull s core = s := by
  rw [sendFull, if_neg (fun hfull => absurd hfull.1 (Nat.not_le.mpr h))]

/-! ## A record that takes an entry (R288) -/

/-- The record of a push that takes an entry of its core's front buffer (R281, R349). -/
def pushedRec (t : Thread) (wl : Fin 4) (words : List W32) (entry : Option Nat) : WRec :=
  { cid := t.cid, wl := wl.val, words, core := t.core, slot := t.slot, num := t.pushes, resv := entry }

section
variable (s : State) (t : Thread) (wl : Fin 4) (words : List W32) (entry : Option Nat)

theorem wlPlace_front : ((wlPlace s t wl words entry).core t.core).front = (s.core t.core).front ++ [pushedRec t wl words entry] := by
  have hcore (s' : State) := State.core_onCore s' t.core (fun c => { c with front := c.front ++ [pushedRec t wl words entry] }) (fun _ => rfl) t.core
  unfold wlPlace
  dsimp only
  rw [logWin, State.core_congr (State.onCtx_cores _ _ _), State.core_congr (State.onThread_cores _ _ _), State.core_congr (State.onWl_cores _ _ _ _)]
  refine (congrArg Core.front (hcore _)).trans ?_
  rw [if_pos rfl, State.front_of_still (release_still _ _ _ _)]

theorem wlPlace_holdings {q : TRef} (hq : q ≠ .none) : (wlPlace s t wl words entry).holdings q = s.holdings q := by
  unfold wlPlace
  dsimp only
  rw [logWin, State.holdings_congr (State.onCtx_cur _ _ _) (State.onCtx_threads _ _ _), State.holdings_onThread _ _ _ _ hq,
    State.holdings_congr (State.onWl_cur _ _ _ _) (State.onWl_threads _ _ _ _), State.holdings_onCore, holdings_release hq]
  all_goals exact fun _ => rfl

theorem wl?_logWin (cid n arb core slot : Nat) : (logWin s n arb core slot).wl? cid wl = s.wl? cid wl := by
  refine State.wl?_onCtx s (fun c => ?_) n cid wl
  split <;> exact ⟨rfl, rfl⟩

theorem fseen_wlPlace (cid : Nat) (l : Fin 4) :
    ((wlPlace s t wl words entry).wl? cid l).map (·.fseen) = (s.wl? cid l).map (·.fseen) := by
  unfold wlPlace
  dsimp only
  rw [wl?_logWin, State.wl?_congr (State.onThread_ctxs _ _ _), State.map_wl?_onWl,
    State.wl?_congr (State.onCore_ctxs _ _ _), State.wl?_congr (State.ctxs_of_still (release_still _ _ _ _))]
  exact fun _ => rfl

end

/-- Passing a gate changes what the log has left, if anything (R351). -/
theorem gateTake_eq {s t : State} {v : Option W64} {cid arb core slot code : Nat} (h : gateTake s cid arb core slot code = some (t, v)) :
    ∃ left, t = s.onCtx cid (fun c => { c with arch := { c.arch with left } }) := by
  unfold gateTake at h
  split at h
  · split at h
    · cases h
    · cases h
      exact ⟨_, rfl⟩
  · cases h
  · cases h

/-! ## Pushes that waited (R284, R288) -/

theorem State.thread?_onThread_const {s : State} {r : TRef} (hr : r ≠ .none) {x y : Thread} (hx : s.thread? r = some x) (hy : y.ref = r) :
    (s.onThread r (fun _ => y)).thread? r = some y := by
  unfold State.thread? at hx
  by_cases hc : s.cur.ref = r
  · simp [State.onThread, State.thread?, hc, hy, hr]
  · simp only [beq_eq_false_iff_ne.mpr hc, Bool.false_and, Bool.false_eq_true, if_false] at hx
    have hfind := find_updFirst (fun x : Thread => x.ref == r) (fun _ => y) (fun _ _ => by simp [hy]) s.threads
    simp [State.onThread, State.thread?, hc, hfind, hx]

theorem belowSeen_congr {w w' : Worklist} (h : w'.fseen = w.fseen) (b : Nat) : belowSeen w' b = belowSeen w b := by
  rw [belowSeen, belowSeen, h]

/-- No bucket is below an Fseen that has been lowered to it (R284). -/
theorem belowSeen_floorDrop (w : Worklist) (b : Nat) : belowSeen (floorDrop w b) b = false := by
  unfold belowSeen floorDrop
  cases w.fseen <;> simp

section
variable {s s' : State} {t : Thread} {wl : Fin 4} {words : List W32} {entry : Option Nat} (h : pushAtGate s t wl words entry = some s')
include h

theorem pushAtGate_eq : ∃ left, s' = wlPlace (s.onCtx t.cid (fun c => { c with arch := { c.arch with left } })) t wl words entry := by
  obtain ⟨⟨u, v⟩, hgate, hplaced⟩ := Option.map_eq_some_iff.mp h
  obtain ⟨left, rfl⟩ := gateTake_eq hgate
  exact ⟨left, hplaced.symm⟩

theorem pushAtGate_holdings {q : TRef} (hq : q ≠ .none) : s'.holdings q = s.holdings q := by
  obtain ⟨left, rfl⟩ := pushAtGate_eq h
  exact (wlPlace_holdings _ t wl words entry hq).trans (State.holdings_congr (State.onCtx_cur _ _ _) (State.onCtx_threads _ _ _) q)

theorem pushAtGate_front : (s'.core t.core).front = (s.core t.core).front ++ [pushedRec t wl words entry] := by
  obtain ⟨left, rfl⟩ := pushAtGate_eq h
  exact wlPlace_front _ t wl words entry

theorem fseen_pushAtGate (cid : Nat) (l : Fin 4) : (s'.wl? cid l).map (·.fseen) = (s.wl? cid l).map (·.fseen) := by
  obtain ⟨left, rfl⟩ := pushAtGate_eq h
  rw [fseen_wlPlace, State.wl?_onCtx]
  exact fun _ => ⟨rfl, rfl⟩

end

theorem pushAtGate_open {s : State} {t : Thread} (h : replaying s t.cid = false) (wl : Fin 4) (words : List W32) (entry : Option Nat) :
    ∃ s', pushAtGate s t wl words entry = some s' := by
  obtain ⟨f, hgate⟩ := gateTake_open h (dieArb t.core) t.core t.slot 0
  exact ⟨_, by rw [pushAtGate, hgate]; rfl⟩

theorem fseen_placeWaiting (s : State) (t : Thread) (wl : Fin 4) (words : List W32) (dep cid : Nat) (l : Fin 4) :
    ((placeWaiting s t wl words dep).wl? cid l).map (·.fseen) = (s.wl? cid l).map (·.fseen) := by
  unfold placeWaiting
  split
  · rfl
  split
  · rfl
  dsimp only
  split
  · exact fseen_sendFull s t.core cid l
  split
  · rename_i hplaced
    rw [wake, State.wl?_congr (State.onThread_ctxs _ _ _), fseen_pushAtGate hplaced, fseen_sendFull]
  · exact fseen_sendFull s t.core cid l

/-- A waiting push that finds an entry goes on, its record the newest of its core's front buffer. -/
theorem placeWaiting_places {s : State} {t x : Thread} (hr : t.ref ≠ .none) (hx : s.thread? t.ref = some x) {wl : Fin 4} {w : Worklist}
    (hw : s.wl? t.cid wl = some w) {words : List W32} (hseen : belowSeen w (bucket w (words.headD 0)) = false)
    (hlive : replaying s t.cid = false) {dep : Nat} {e : Option Nat} (he : frontRoom ((sendFull s t.core).core t.core) dep = some e) :
    (∃ u, (placeWaiting s t wl words dep).thread? t.ref = some u ∧ u.wait = .none ∧ u.r = x.r.adv 2) ∧
      ((placeWaiting s t wl words dep).core t.core).front = ((sendFull s t.core).core t.core).front ++ [pushedRec t wl words e] := by
  obtain ⟨s', hs'⟩ := pushAtGate_open ((replaying_sendFull s t.core t.cid).trans hlive) wl words e
  have hplace : placeWaiting s t wl words dep = wake s' t.ref 2 id := by
    simp only [placeWaiting, hw, hseen, hlive, Bool.and_false, Bool.or_self, Bool.false_eq_true, if_false, he, hs']
  rw [hplace, wake, State.core_congr (State.onThread_cores _ _ _), pushAtGate_front hs']
  obtain ⟨y, hy, hyr, -⟩ := State.thread?_of_holdings ((pushAtGate_holdings hs' hr).trans (sendFull_holdings s t.core t.ref)) hx
  refine ⟨⟨_, State.thread?_onThread_self ?_ hr hy, rfl, by rw [hyr]; rfl⟩, rfl⟩
  exact fun _ => rfl

section
variable {s : State} {r : TRef} {x : Thread} (hr : r ≠ .none) (hx : s.thread? r = some x) {wl : Fin 4} {words : List W32} {dep : Nat}
  {w : Worklist} (hw : s.wl? x.cid wl = some w)

/-- The state in which every unit holds the lower Fseen that a waiting push asked for (R284). -/
def floorLowered (s : State) (r : TRef) (x : Thread) (wl : Fin 4) (words : List W32) (dep : Nat) : State :=
  (s.onWl x.cid wl (fun w => floorDrop w (bucket w (words.headD 0)))).onThread r (fun _ => { x with wait := .wlpush wl words dep true })

include hx in
theorem execFloorDropAck_eq {go : Bool} (hwait : x.wait = .wlpush wl words dep go) :
    execFloorDropAck r s = .next (placeWaiting (floorLowered s r x wl words dep) { x with wait := .wlpush wl words dep true } wl words dep) := by
  simp only [execFloorDropAck, hx, hwait]
  rfl

include hw in
theorem floorLowered_wl? (dep : Nat) : (floorLowered s r x wl words dep).wl? x.cid wl = some (floorDrop w (bucket w (words.headD 0))) :=
  (State.wl?_congr (State.onThread_ctxs _ _ _) _ _).trans (State.wl?_onWl_self hw _)

include hr hx in
theorem floorLowered_thread? (href : x.ref = r) (wl : Fin 4) (words : List W32) (dep : Nat) :
    (floorLowered s r x wl words dep).thread? r = some { x with wait := .wlpush wl words dep true } :=
  State.thread?_onThread_const hr (s := s.onWl x.cid wl (fun w => floorDrop w (bucket w (words.headD 0)))) hx href

include hx hw in
theorem execFloorDropAck_lowers {go : Bool} (hwait : x.wait = .wlpush wl words dep go) :
    ∃ t w', execFloorDropAck r s = .next t ∧ t.wl? x.cid wl = some w' ∧ belowSeen w' (bucket w (words.headD 0)) = false := by
  have hfseen := fseen_placeWaiting (floorLowered s r x wl words dep) { x with wait := .wlpush wl words dep true } wl words dep x.cid wl
  rw [floorLowered_wl? hw dep, Option.map_some, Option.map_eq_some_iff] at hfseen
  obtain ⟨w', hw', hsame⟩ := hfseen
  exact ⟨_, w', execFloorDropAck_eq hx hwait, hw', (belowSeen_congr hsame _).trans (belowSeen_floorDrop w _)⟩

include hr hx hw in
theorem execFloorDropAck_places {go : Bool} (hwait : x.wait = .wlpush wl words dep go) (hlive : replaying s x.cid = false)
    (hroom : generalUsed (s.core x.core) < 256) :
    ∃ t u, execFloorDropAck r s = .next t ∧ t.thread? r = some u ∧ u.wait = .none ∧ u.r = x.r.adv 2 ∧
      (t.core x.core).front = (s.core x.core).front ++ [pushedRec x wl words none] := by
  obtain rfl := State.thread?_ref hx
  have hcore : (floorLowered s x.ref x wl words dep).core x.core = s.core x.core := State.core_congr (State.onThread_cores _ _ _) _
  have hsent : sendFull (floorLowered s x.ref x wl words dep) x.core = floorLowered s x.ref x wl words dep :=
    sendFull_of_room (by rw [hcore]; exact hroom)
  have hentry : frontRoom ((sendFull (floorLowered s x.ref x wl words dep) x.core).core x.core) dep = some none := by
    rw [hsent, hcore, frontRoom, if_pos hroom]
  obtain ⟨⟨u, hu, hwaits, hur⟩, hfront⟩ := placeWaiting_places (t := { x with wait := .wlpush wl words dep true }) hr
    (floorLowered_thread? hr hx rfl wl words dep) (floorLowered_wl? hw dep) (belowSeen_floorDrop w _)
    ((replaying_congr (State.onThread_ctxs _ _ _) _).trans ((replaying_onWl _ _ _ _ _).trans hlive)) hentry
  exact ⟨_, u, execFloorDropAck_eq hx hwait, hu, hwaits, hur, hfront.trans (by rw [hsent, hcore]; rfl)⟩

include hr hx hw in
theorem execWlpushPlace_places (hwait : x.wait = .wlpush wl words dep true) (hlive : replaying s x.cid = false)
    (hseen : belowSeen w (bucket w (words.headD 0)) = false) {e : Option Nat}
    (he : frontRoom ((sendFull s x.core).core x.core) dep = some e) :
    ∃ t u, execWlpushPlace r s = .next t ∧ t.thread? r = some u ∧ u.wait = .none ∧ u.r = x.r.adv 2 ∧
      (t.core x.core).front = ((sendFull s x.core).core x.core).front ++ [pushedRec x wl words e] := by
  obtain rfl := State.thread?_ref hx
  obtain ⟨⟨u, hu, hwaits, hur⟩, hfront⟩ := placeWaiting_places hr hx hw hseen hlive he
  exact ⟨_, u, by simp only [execWlpushPlace, hx, hwait], hu, hwaits, hur, hfront⟩

end

/-! ## Parked pops (R289, R293, R298) -/

theorem takeRec_holdings (s : State) (core cid : Nat) (wl : Fin 4) (r : WRec) (q : TRef) :
    (takeRec s core cid wl r).holdings q = s.holdings q := by
  unfold takeRec
  split
  · exact State.holdings_onCore _ _ _
  · rfl

/-- The state in which a pop has taken its record, noted its task and logged it (R284, R289, R349). -/
def popLogged (s : State) (t : Thread) (wl : Fin 4) (r : WRec) : State :=
  let s := (takeRec s t.core t.cid wl r).onWl t.cid wl (fun w =>
    { w with tasks := w.tasks ++ [(t.ref, r.key)], counts := (w.counts.1, w.counts.2.1 + 1, w.counts.2.2) })
  logValue s t.cid (0x400 + t.core / Config.coresPerDie) t.core t.slot 0xFFFB (agentVal r.core r.slot r.num)

/-- With the side-effect bit of the thread's workgroup: all that a pop changes before its acquire and the thread itself (R289). -/
def popTaken (s : State) (t : Thread) (wl : Fin 4) (r : WRec) : State :=
  match refWg t.ref with
  | some w => (popLogged s t wl r).onWg w (fun x => { x with side := true })
  | none => popLogged s t wl r

theorem popGive_eq (s : State) (t : Thread) (wl : Fin 4) (xa : XReg) (ps : PReg) (v : VReg) (n : Nat) (r : WRec) :
    popGive s t wl xa ps v n r = (acquire (popTaken s t wl r) t.core t.cid (((s.wl? t.cid wl).map wlScope).getD 5)).onThread t.ref (fun x =>
      { x with wait := .none, age := 0, r := ((((x.r.setRange v.val r.words).setX xa 0).setP ps true).adv n) }) := rfl

theorem popTaken_holdings (s : State) (t : Thread) (wl : Fin 4) (r : WRec) (q : TRef) : (popTaken s t wl r).holdings q = s.holdings q := by
  have hlogged : (popLogged s t wl r).holdings q = s.holdings q := by
    rw [popLogged, logValue, State.holdings_congr (State.onCtx_cur _ _ _) (State.onCtx_threads _ _ _),
      State.holdings_congr (State.onWl_cur _ _ _ _) (State.onWl_threads _ _ _ _), takeRec_holdings]
  unfold popTaken
  split
  · exact (State.holdings_congr (State.onWg_cur _ _ _) (State.onWg_threads _ _ _) q).trans hlogged
  · exact hlogged

theorem popGive_gives {s : State} {t x : Thread} (hr : t.ref ≠ .none) (hx : s.thread? t.ref = some x) (wl : Fin 4) (xa : XReg) (ps : PReg)
    (v : VReg) (n : Nat) (r : WRec) : ∃ u, (popGive s t wl xa ps v n r).thread? t.ref = some u ∧ u.wait = .none ∧
      u.r = (((x.r.setRange v.val r.words).setX xa 0).setP ps true).adv n := by
  rw [popGive_eq]
  obtain ⟨y, hy, hyr, -⟩ := State.thread?_of_holdings ((holdings_acquire _ t.core t.cid (((s.wl? t.cid wl).map wlScope).getD 5)).trans
    (popTaken_holdings s t wl r t.ref)) hx
  refine ⟨_, State.thread?_onThread_self ?_ hr hy, rfl, by rw [hyr]⟩
  exact fun _ => rfl

theorem execWlpopServe_serves {s : State} {r : TRef} {x : Thread} {wl : Fin 4} {xa : XReg} {ps : PReg} {v : VReg} {w : Worklist} {n : Nat}
    {rec4 : WRec} (hr : r ≠ .none) (hx : s.thread? r = some x) (hwait : x.wait = .wlpop wl xa ps v) (hw : s.wl? x.cid wl = some w)
    (hst : w.st = .active) (hgo : gangIssues s x = true) (hhalted : x.halted = false) (hlive : replaying s x.cid = false)
    (hfirst : firstPop s x wl = true) (hn : (popChoices s x.core x.cid wl w)[n]? = some rec4)
    (hfront : (frontOf s x.core x.cid wl).contains rec4 = true) :
    ∃ t u, execWlpopServe r n s = .next t ∧ t.thread? r = some u ∧ u.wait = .none ∧
      u.r = (((x.r.setRange v.val rec4.words).setX xa 0).setP ps true).adv 2 := by
  obtain rfl := State.thread?_ref hx
  have hserve : execWlpopServe x.ref n s = .next (popGive s x wl xa ps v 2 rec4) := by
    simp only [execWlpopServe, hx, hwait, hw, hgo, hhalted, hfirst, due, hst, serve, serveFind, hlive, hn, reachRec, hfront, Bool.not_false,
      Bool.and_self, Bool.false_eq_true, if_true, if_false]
  obtain ⟨u, hu⟩ := popGive_gives hr hx wl xa ps v 2 rec4
  exact ⟨_, u, hserve, hu⟩

/-! ## FRONT_BUFFER_SEND, CHUNK_SPILL, CHUNK_READ_BACK (R292) -/

theorem execFrontBufferSend_sends {s : State} {core n : Nat} {r : WRec} {w : Worklist} (hn : (s.core core).front[n]? = some r)
    (hw : s.wl? r.cid (Fin.ofNat 4 r.wl) = some w) (hroom : dieHeld s (dieOf core) < unitRoom) :
    ∃ t w', execFrontBufferSend core n s = .next t ∧ (t.core core).front = (s.core core).front.erase r ∧
      t.wl? r.cid (Fin.ofNat 4 r.wl) = some w' ∧ (w'.units[dieOf core]).recs = (w.units[dieOf core]).recs ++ [{ r with resv := none }] := by
  obtain ⟨w', hw', hrecs⟩ := wl?_sendRec hw core
  exact ⟨_, w', by simp only [execFrontBufferSend, hn, due, hroom, decide_true, if_true], congrArg Core.front (core_sendRec s core r), hw', hrecs⟩

theorem ofNat_val (d : Fin 4) : Fin.ofNat 4 d.val = d := Fin.ext (Nat.mod_eq_of_lt d.isLt)

section
variable {s : State} {cid : Nat} {wl d : Fin 4} {w : Worklist} (hw : s.wl? cid wl = some w) (hst : w.st = .active)
include hw hst

theorem execChunkSpill_spills {b n key : Nat} {rs : List WRec}
    (hrs : rs = ((w.units[d]).recs.filter (fun r => bucket w r.key == b)).take 256) (hsome : rs ≠ [])
    (hfar : isFar w.units[d] b = true ∨ unitRoom ≤ dieHeld s d) (hn : freeChunk w = some n) (hkey : chunkAt s cid w n false = .ok key) :
    ∃ t w', execChunkSpill cid wl d.val b s = .next t ∧ t.wl? cid wl = some w' ∧ (w'.units[d]).recs = dropRecs (w.units[d]).recs rs ∧
      (w'.units[d]).chunks = (w.units[d]).chunks ++ [(n, rs)] := by
  have hgo : (w.st == .active && !rs.isEmpty && (isFar w.units[d] b || decide (unitRoom ≤ dieHeld s d))) = true := by
    have hwhy : (isFar w.units[d] b || decide (unitRoom ≤ dieHeld s d)) = true := by rwa [Bool.or_eq_true, decide_eq_true_eq]
    have hrecs : rs.isEmpty = false := List.isEmpty_eq_false_iff.mpr hsome
    rw [hst, hwhy, hrecs]; rfl
  have hwritten : ((freeBytes s chunkBytes).2.put .none key (freeBytes s chunkBytes).1).wl? cid wl = some w :=
    (State.wl?_congr (State.put_ctxs _ _ _ _) _ _).trans hw
  have hkept := onUnit_wl? hwritten d (fun u => { u with recs := dropRecs u.recs rs })
  have hspilled := onUnit_wl? hkept d (fun u => { u with chunks := u.chunks ++ [(n, rs)] })
  refine ⟨_, _, ?_, hspilled, ?_, ?_⟩
  · simp only [execChunkSpill, hw, ofNat_val, chunkRecs, ← hrs, hgo, due, if_true, hn, hkey]
  all_goals simp only [Worklist.onUnit_units, if_true]

theorem execChunkReadBack_reads {n key : Nat} {c : Nat × List WRec} (hc : (w.units[d]).chunks.find? (fun c => c.1 == n) = some c)
    (hnear : c.2.any (fun r => isFar w.units[d] (bucket w r.key)) = false) (hroom : dieHeld s d + c.2.length ≤ unitRoom)
    (hkey : chunkAt s cid w n true = .ok key) :
    ∃ t w', execChunkReadBack cid wl d.val n s = .next t ∧ t.wl? cid wl = some w' ∧ (w'.units[d]).recs = (w.units[d]).recs ++ c.2 ∧
      (w'.units[d]).chunks = (w.units[d]).chunks.filter (fun c => c.1 != n) := by
  have hgo : (w.st == .active && !c.2.any (fun r => isFar w.units[d] (bucket w r.key)) && decide (dieHeld s d + c.2.length ≤ unitRoom)) = true := by
    simp only [hst, hnear, hroom, beq_self_eq_true, decide_true, Bool.not_false, Bool.and_self]
  have hread := onUnit_wl? hw d (fun u => { u with recs := u.recs ++ c.2, chunks := u.chunks.filter (fun x => x.1 != n) })
  refine ⟨_, _, ?_, hread, ?_, ?_⟩
  · simp only [execChunkReadBack, hw, ofNat_val, hc, hgo, due, if_true, hkey]
  all_goals simp only [Worklist.onUnit_units, if_true]

/-! ## CHUNK_MIGRATE (R293) -/

theorem execChunkMigrate_dies {b : Fin 4} (n : Nat) (hdbal : w.dbal = true) (hne : d ≠ b) (hparked : dieParked s cid wl b = true)
    (heligible : dieEligible w b = false) (hmost : ∀ k : Fin 4, (unitEligible w k).length ≤ (unitEligible w d).length) {rs : List WRec}
    (hrs : rs = chunkOut w d (min n (unitRoom - dieHeld s b))) :
    ∃ t w', execChunkMigrate cid wl d.val b.val n s = .next t ∧ t.wl? cid wl = some w' ∧ (w'.units[d]).recs = dropRecs (w.units[d]).recs rs ∧
      (w'.units[b]).recs = (w.units[b]).recs ++ rs := by
  have hgo : (w.st == .active && w.dbal && d != b && dieParked s cid wl b && !dieEligible w b &&
      (List.finRange 4).all (fun k => decide ((unitEligible w k).length ≤ (unitEligible w d).length))) = true := by
    simp [hst, hdbal, hne, hparked, heligible, hmost]
  have hsrc : ¬4 ≤ d.val := Nat.not_le.mpr d.isLt
  have hdst : ¬4 ≤ b.val := Nat.not_le.mpr b.isLt
  have hleft := onUnit_wl? hw d (fun u => { u with recs := dropRecs u.recs rs })
  have harrived := onUnit_wl? hleft b (fun u => { u with recs := u.recs ++ rs })
  refine ⟨_, _, ?_, harrived, ?_, ?_⟩
  · simp only [execChunkMigrate, hw, ofNat_val, hdst, hsrc, false_and, if_false, migrateDies, hgo, due, if_true, ← hrs]
  · rw [Worklist.onUnit_units, if_neg hne, Worklist.onUnit_units, if_pos rfl]
  · rw [Worklist.onUnit_units, if_pos rfl, Worklist.onUnit_units, if_neg hne.symm]

section
variable {peer : Nat} (hpeer : 4 ≤ peer) (n : Nat) (hsys : w.sys = true) (hxbal : w.xbal = true)
include hpeer hsys hxbal

theorem execChunkMigrate_out : ∃ t w', execChunkMigrate cid wl d.val peer n s = .next t ∧ t.wl? cid wl = some w' ∧
    (w'.units[d]).recs = dropRecs (w.units[d]).recs (chunkOut w d n) := by
  have hgo : (w.st == .active && w.sys && w.xbal) = true := by simp [hst, hsys, hxbal]
  have hsrc : ¬4 ≤ d.val := Nat.not_le.mpr d.isLt
  refine ⟨_, _, ?_, onUnit_wl? hw d (fun u => { u with recs := dropRecs u.recs (chunkOut w d n) }), ?_⟩
  · simp only [execChunkMigrate, hw, ofNat_val, hsrc, hpeer, false_and, if_false, if_true, migrateOut, hgo, due]
  · rw [Worklist.onUnit_units, if_pos rfl]

theorem execChunkMigrate_in {f : Nat} (hf : w.fseen = some f) (hparked : dieParked s cid wl d = true)
    (hnone : ∀ k : Fin 4, dieEligible w k = false) {rs : List WRec}
    (hrs : rs = (List.range (min (min n (unitRoom - dieHeld s d)) 256)).map (peerRec s cid wl w f)) :
    ∃ t w', execChunkMigrate cid wl peer d.val n s = .next t ∧ t.wl? cid wl = some w' ∧ (w'.units[d]).recs = (w.units[d]).recs ++ rs := by
  have hgo : (w.st == .active && w.sys && w.xbal && dieParked s cid wl d && (List.finRange 4).all (fun k => !dieEligible w k)) = true := by
    simp [hst, hsys, hxbal, hparked, hnone]
  have hdst : ¬4 ≤ d.val := Nat.not_le.mpr d.isLt
  have hfresh : ({ s with fresh := s.fresh + 7 * rs.length } : State).wl? cid wl = some w := hw
  refine ⟨_, _, ?_, onUnit_wl? hfresh d (fun u => { u with recs := u.recs ++ rs }), ?_⟩
  · simp only [execChunkMigrate, hw, ofNat_val, hdst, hpeer, and_false, if_false, if_true, migrateIn, hf, hgo, due, chunkRecs, ← hrs]
  · rw [Worklist.onUnit_units, if_pos rfl]

end
end

/-! ## SPILL_REFILL (R172) -/

theorem restoreValues_wgs (s : State) (w : Wg) (r : VXReg) (fmt : Nat) (data : List Byte) : (restoreValues s w r fmt data).wgs = s.wgs :=
  foldl_wgs (fun _ _ => State.onThread_wgs _ _ _) _ s

theorem execSpillRefill_refills {s s1 : State} {w : Nat} {x : Wg} {r : VXReg} {y : VXReg × Nat} {l : LRec} {data : List Byte}
    (hx : s.wg? w = some x) (hy : x.spilled.find? (fun z => z.1 == r) = some y) (hl : s.lrecOf x = some l)
    (hread : engineRead s (some x) x.core x.cid [] (recordAddr l r + 16) (fmtBytes y.2 (regWidth r) l.wgsize) 1 = (.ok data, s1)) :
    ∃ t z, execSpillRefill w r s = .next t ∧ t.wg? w = some z ∧ isSpilled z r = false := by
  have hwgs := engineRead_wgs s (some x) x.core x.cid [] (recordAddr l r + 16) (fmtBytes y.2 (regWidth r) l.wgsize) 1
  rw [hread] at hwgs
  have hrestored : (restoreValues s1 x r y.2 data).wg? w = some x :=
    (State.wg?_congr ((restoreValues_wgs s1 x r y.2 data).trans hwgs) w).trans hx
  obtain ⟨z, hz, -⟩ := State.wg?_of_still (engineWrite_still (restoreValues s1 x r y.2 data) (some x) x.core x.cid (recordAddr l r)
    (recordHeader r 0)) hrestored
  simp only [execSpillRefill, hx, hy, refill, hl, hread, State.wg?_id hx]
  refine ⟨_, _, rfl, State.wg?_onWg_self ?_ hz, ?_⟩
  · exact fun _ => rfl
  · simp [isSpilled]

end Sys2Proof.Machine

namespace Sys2Proof
open Machine

/-- Settles O57: each event changes one worklist (`State.wl?_onWl_self`); a push or a pop that goes on leaves every other holding of its
thread (`State.holdings`), and what it writes back leaves worklists and front buffers (`State.still`). -/
theorem worklistEvents : Obligations.WorklistEvents := by
  unfold Obligations.WorklistEvents
  intro s
  refine ⟨fun cid wl w hw hst => ⟨fun hsys hdue => ⟨fun hidle => ?floor, fun hidle hlast => ?floorEnds⟩, fun hsys hdue peer quiet => ?group⟩,
    fun r x wl words dep w go hr hx hwait hw hlive => ⟨execFloorDropAck_lowers hx hw hwait,
      execFloorDropAck_places hr hx hw hwait hlive, fun e hgo hseen he => ?placed⟩,
    fun r x wl xa ps v w n rec4 => execWlpopServe_serves, fun core n r w => execFrontBufferSend_sends,
    fun cid wl d w hw hst => ⟨fun b n key => execChunkSpill_spills hw hst rfl, fun n c key => execChunkReadBack_reads hw hst,
      fun b n hdbal hne hparked heligible hmost => execChunkMigrate_dies hw hst n hdbal hne hparked heligible hmost rfl,
      fun peer n hpeer hsys hxbal => ⟨execChunkMigrate_out hw hst hpeer n hsys hxbal,
        fun f hf hparked hnone => execChunkMigrate_in hw hst hpeer n hsys hxbal hf hparked hnone rfl⟩⟩,
    fun w x r y l data s1 => execSpillRefill_refills⟩
  case floor =>
    obtain ⟨w', hw', hst', hrefreshed⟩ := wlRefresh_gives hw (floorOf s cid wl w)
    exact ⟨_, w', hidle ▸ execFloorRefresh_due hw hst hsys hdue, hw', hst'.trans hst, hrefreshed⟩
  case floorEnds =>
    obtain ⟨w', hw', hst'⟩ := wlRefresh_terminates hw (floorOf s cid wl w) hlast
    exact ⟨_, w', hidle ▸ execFloorRefresh_due hw hst hsys hdue, hw', hst'⟩
  case group =>
    intro w1 idle
    have hheard := State.wl?_onWl_self hw (fun _ => w.heard quiet)
    refine ⟨fun hidle => ?_, fun hidle hlast => ?_⟩
    · obtain ⟨w', hw', hst', hrefreshed⟩ := wlRefresh_gives hheard (minFloor (floorOf s cid wl w) peer)
      exact ⟨_, w', hidle ▸ execGroupFloorRefresh_due hw hst hsys hdue peer quiet, hw', hst'.trans hst, hrefreshed⟩
    · obtain ⟨w', hw', hst'⟩ := wlRefresh_terminates hheard (minFloor (floorOf s cid wl w) peer) hlast
      exact ⟨_, w', hidle ▸ execGroupFloorRefresh_due hw hst hsys hdue peer quiet, hw', hst'⟩
  case placed =>
    subst hgo
    exact execWlpushPlace_places hr hx hw hwait hlive hseen he

end Sys2Proof
end

section
/-! PROOFS. What the workgroups and gangs of a scope come to when a convergence register, a barrier or a heap of it is written (R173, R181,
R184), and when accesses are performed or threads go on beside it; the last arrival at a barrier (R181), declarations (R174). -/

namespace Sys2Proof.Machine

/-! ## Scopes that stay as they are -/

/-- The workgroups and the gangs are as before. -/
structure SameScopes (s t : State) : Prop where
  wgs : t.wgs = s.wgs
  gangs : t.gangs = s.gangs

theorem SameScopes.refl (s : State) : SameScopes s s := ⟨rfl, rfl⟩

theorem SameScopes.trans {s t u : State} (h : SameScopes s t) (k : SameScopes t u) : SameScopes s u :=
  ⟨k.wgs.trans h.wgs, k.gangs.trans h.gangs⟩

theorem foldl_sameScopes {α : Type} {f : State → α → State} (hf : ∀ s a, SameScopes s (f s a)) (l : List α) (s : State) :
    SameScopes s (l.foldl f s) :=
  List.foldlRecOn (motive := fun t : State => SameScopes s t) l f (.refl s) (fun t ht a _ => ht.trans (hf t a))

theorem State.onThread_sameScopes (s : State) (r : TRef) (f : Thread → Thread) : SameScopes s (s.onThread r f) :=
  ⟨State.onThread_wgs _ _ _, State.onThread_gangs _ _ _⟩

theorem State.put_sameScopes (s : State) (who : TRef) (key : Nat) (bs : List Byte) : SameScopes s (s.put who key bs) :=
  ⟨State.put_wgs _ _ _ _, State.gangs_of_still (State.put_still _ _ _ _)⟩

theorem release_wgs (s : State) (core cid scope : Nat) : (release s core cid scope).wgs = s.wgs := by
  have hwritten : (if 3 ≤ scope && hasL1 core then writeBackAll s core (fun x => x.cid == cid && x.dirty != 0) false else s).wgs = s.wgs := by
    split
    · exact foldl_wgs (fun s x => writeBack_wgs s core x false) _ s
    · rfl
  unfold release
  dsimp only
  split <;> exact hwritten

theorem release_sameScopes (s : State) (core cid scope : Nat) : SameScopes s (release s core cid scope) :=
  ⟨release_wgs _ _ _ _, State.gangs_of_still (release_still _ _ _ _)⟩

theorem wake_sameScopes (s : State) (r : TRef) (n : Nat) (f : Regs → Regs) : SameScopes s (wake s r n f) :=
  State.onThread_sameScopes _ _ _

theorem acquire_sameScopes (s : State) (core cid scope : Nat) : SameScopes s (acquire s core cid scope) := by
  unfold acquire
  split
  · exact ⟨State.onCore_wgs _ _ _, State.onCore_gangs _ _ _⟩
  · exact .refl s

theorem acquireBy_sameScopes (s : State) (r : TRef) (scope : Nat) : SameScopes s (acquireBy s r scope) := by
  unfold acquireBy
  split
  · exact acquire_sameScopes _ _ _ _
  · exact .refl s

/-! ## One scope, read and written -/

/-- A workgroup stands under its name, in its gang, and for the cluster scope the gang stands too. -/
structure Stands (s : State) (w : Wg) (cluster : Bool) (y : Wg) : Prop where
  wg : s.wg? w.id = some y
  gang : y.gang = w.gang
  gang? : cluster = true → ∃ g, s.gang? w.gang = some g

theorem Stands.id {s : State} {w : Wg} {cluster : Bool} {y : Wg} (h : Stands s w cluster y) : y.id = w.id := State.wg?_id h.wg

theorem Stands.congr {s t : State} {w : Wg} {cluster : Bool} {y : Wg} (h : Stands s w cluster y) (hst : SameScopes s t) :
    Stands t w cluster y :=
  ⟨(State.wg?_congr hst.wgs _).trans h.wg, h.gang, fun hc => by rw [State.gang?, hst.gangs]; exact h.gang? hc⟩

/-- It stands so under its own name. -/
theorem Stands.self {s : State} {w : Wg} {cluster : Bool} {y : Wg} (h : Stands s w cluster y) : Stands s y cluster y :=
  ⟨by rw [h.id]; exact h.wg, rfl, by rw [h.gang]; exact h.gang?⟩

/-- What a scope holds: in the workgroup, or in its gang if there is one. `getK`, `getBar` and `getHeap` are such. -/
def scopeGet {α : Type} (s : State) (w : Wg) (cluster : Bool) (rw : Wg → α) (rg : Gang → α) (d : α) : α :=
  if cluster then ((s.gang? w.gang).map rg).getD d else rw w

/-- A change of a scope: of the workgroup, or of its gang. `setK`, `setBar` and `setHeap` are such. -/
def State.onScope (s : State) (w : Wg) (cluster : Bool) (fw : Wg → Wg) (fg : Gang → Gang) : State :=
  if cluster then s.onGang w.gang fg else s.onWg w.id fw

theorem scopeGet_congr {α : Type} {s t : State} (h : SameScopes s t) (w : Wg) (cluster : Bool) (rw : Wg → α) (rg : Gang → α) (d : α) :
    scopeGet t w cluster rw rg d = scopeGet s w cluster rw rg d := by
  unfold scopeGet State.gang?
  rw [h.gangs]

theorem getK_congr {s t : State} (h : SameScopes s t) (w : Wg) (cluster : Bool) (k : Fin 8) : getK t w cluster k = getK s w cluster k :=
  scopeGet_congr h w cluster (·.k[k]) (·.k[k]) KReg.init

theorem getBar_congr {s t : State} (h : SameScopes s t) (w : Wg) (cluster : Bool) (id : Fin 16) :
    getBar t w cluster id = getBar s w cluster id :=
  scopeGet_congr h w cluster (·.bars[id]) (·.bars[id]) ⟨0, []⟩

theorem getHeap_congr {s t : State} (h : SameScopes s t) (w : Wg) (cluster : Bool) : getHeap t w cluster = getHeap s w cluster :=
  scopeGet_congr h w cluster (·.heap) (·.heap) w.heap

theorem exitsOf_congr {s t : State} (h : SameScopes s t) (w : Wg) (cluster : Bool) : exitsOf t w cluster = exitsOf s w cluster := by
  unfold exitsOf State.gang? State.wg?
  rw [h.gangs, h.wgs]

section
variable {s : State} {w : Wg} {cluster : Bool} {y : Wg} (h : Stands s w cluster y)
include h

theorem exitsOf_eq_scopeGet : exitsOf s y cluster = scopeGet s y cluster (·.exits) (·.exits) 0 := by
  cases cluster with
  | true => rfl
  | false => simp [exitsOf, scopeGet, h.id, h.wg]

/-- What a change of a scope makes of its workgroup and of what the scope holds. -/
theorem Stands.onScope (fw : Wg → Wg) (fg : Gang → Gang) (hid : ∀ x, (fw x).id = x.id) (hgang : ∀ x, (fw x).gang = x.gang)
    (hgid : ∀ x, (fg x).id = x.id) : ∃ z, Stands (s.onScope w cluster fw fg) w cluster z ∧ z = (if cluster then y else fw y) ∧
      ∀ {α : Type} (rw : Wg → α) (rg : Gang → α) (u : α → α) (d d' : α), (∀ x, rw (fw x) = u (rw x)) → (∀ x, rg (fg x) = u (rg x)) →
        scopeGet (s.onScope w cluster fw fg) z cluster rw rg d' = u (scopeGet s y cluster rw rg d) := by
  refine ⟨_, ?_, rfl, ?_⟩
  · cases cluster with
    | true =>
      obtain ⟨x, hx⟩ := h.gang? rfl
      exact ⟨h.wg, h.gang, fun _ => ⟨_, State.gang?_onGang_self hgid hx⟩⟩
    | false => exact ⟨State.wg?_onWg_self hid h.wg, (hgang y).trans h.gang, fun hc => nomatch hc⟩
  · intro α rw rg u d d' hw hg
    cases cluster with
    | true =>
      obtain ⟨x, hx⟩ := h.gang? rfl
      have hx' : (s.onGang w.gang fg).gang? w.gang = some (fg x) := State.gang?_onGang_self hgid hx
      simp only [scopeGet, State.onScope, if_true, h.gang, hx, hx', Option.map_some, Option.getD_some, hg]
    | false => simp only [scopeGet, Bool.false_eq_true, if_false, hw]

/-- Writing a convergence register (R173). -/
theorem Stands.setK (k : Fin 8) (r : KReg) : ∃ z, Stands (setK s w cluster k r) w cluster z ∧ z = { y with k := z.k } ∧
    getK (setK s w cluster k r) z cluster k = r ∧ getHeap (setK s w cluster k r) z cluster = getHeap s y cluster := by
  obtain ⟨z, hz, hzy, hget⟩ := h.onScope (fun x => { x with k := x.k.set k.val r k.isLt }) (fun g => { g with k := g.k.set k.val r k.isLt })
    (fun _ => rfl) (fun _ => rfl) (fun _ => rfl)
  refine ⟨z, hz, ?_, hget (·.k[k]) (·.k[k]) (fun _ => r) .init .init (by simp) (by simp),
    hget (·.heap) (·.heap) (fun v => v) _ _ (fun _ => rfl) (fun _ => rfl)⟩
  rw [hzy]
  cases cluster <;> rfl

/-- Writing a barrier (R181). -/
theorem Stands.setBar (id : Fin 16) (b : Bar) : ∃ z, Stands (setBar s w cluster id b) w cluster z ∧
    getBar (setBar s w cluster id b) z cluster id = b ∧ exitsOf (setBar s w cluster id b) z cluster = exitsOf s y cluster := by
  obtain ⟨z, hz, -, hget⟩ := h.onScope (fun x => { x with bars := x.bars.set id.val b id.isLt })
    (fun g => { g with bars := g.bars.set id.val b id.isLt }) (fun _ => rfl) (fun _ => rfl) (fun _ => rfl)
  refine ⟨z, hz, hget (·.bars[id]) (·.bars[id]) (fun _ => b) ⟨0, []⟩ ⟨0, []⟩ (by simp) (by simp), ?_⟩
  refine (exitsOf_eq_scopeGet hz).trans (Eq.trans ?_ (exitsOf_eq_scopeGet h).symm)
  exact hget (·.exits) (·.exits) (fun v => v) _ _ (fun _ => rfl) (fun _ => rfl)

/-- Writing a heap (R184). -/
theorem Stands.setHeap (hp : Heap) : ∃ z, Stands (setHeap s w cluster hp) w cluster z ∧ getHeap (setHeap s w cluster hp) z cluster = hp := by
  obtain ⟨z, hz, -, hget⟩ := h.onScope (fun x => { x with heap := hp }) (fun g => { g with heap := hp })
    (fun _ => rfl) (fun _ => rfl) (fun _ => rfl)
  exact ⟨z, hz, hget (·.heap) (·.heap) (fun _ => hp) hp z.heap (fun _ => rfl) (fun _ => rfl)⟩

end

/-! ## Threads that go on (R175, R181) -/

theorem wgOf_wg? {s : State} {t : Thread} {w : Wg} (h : s.wgOf t = some w) : s.wg? w.id = some w := by
  obtain ⟨n, -, hn⟩ := Option.bind_eq_some_iff.mp h
  rwa [State.wg?_id hn]

theorem State.onThread_other {s : State} {r : TRef} (h : r ≠ s.cur.ref) (f : Thread → Thread) : (s.onThread r f).cur = s.cur := by
  simp only [State.onThread, beq_eq_false_iff_ne.mpr h.symm, Bool.false_eq_true, if_false]

@[simp] theorem acquireBy_cur (s : State) (r : TRef) (scope : Nat) : (acquireBy s r scope).cur = s.cur := by
  unfold acquireBy
  split
  · exact acquire_cur _ _ _ _
  · rfl

section
variable {α : Type} (ref : α → TRef) (n : α → Nat) (f : α → Regs → Regs) (scope : Nat)

/-- The waiting threads of a completed round or phase go on, each with an acquire (R175, R181). `finishRound` and `testBar` do this. -/
def wakeAll (l : List α) (s : State) : State := l.foldl (fun s a => acquireBy (wake s (ref a) (n a) (f a)) (ref a) scope) s

theorem wakeAll_sameScopes (l : List α) (s : State) : SameScopes s (wakeAll ref n f scope l s) :=
  foldl_sameScopes (fun s a => (wake_sameScopes s (ref a) (n a) (f a)).trans (acquireBy_sameScopes _ _ _)) l s

/-- The selected thread goes on as the last, the only one of them under its name. -/
theorem wakeAll_cur {l : List α} {s : State} {z : α} (hl : ∀ a ∈ l, ref a ≠ s.cur.ref) (hz : ref z = s.cur.ref) :
    (wakeAll ref n f scope (l ++ [z]) s).cur = { s.cur with wait := .none, age := 0, r := (f z s.cur.r).adv (n z) } := by
  have hothers : (wakeAll ref n f scope l s).cur = s.cur := by
    refine List.foldlRecOn (motive := fun t : State => t.cur = s.cur) l _ rfl (fun t ht a ha => ?_)
    have hne : ref a ≠ t.cur.ref := by rw [ht]; exact hl a ha
    rw [acquireBy_cur, wake, State.onThread_other hne, ht]
  have hlast : wakeAll ref n f scope (l ++ [z]) s = acquireBy (wake (wakeAll ref n f scope l s) (ref z) (n z) (f z)) (ref z) scope :=
    List.foldl_append
  rw [hlast, acquireBy_cur, wake, State.onThread_selected (by rw [hothers, hz]), State.onCur_cur, hothers]

end

/-! ## An order point of a thread that does not replay (R348, R351) -/

theorem desc_onCtx (s : State) {f : Ctx → Ctx} (hf : ∀ c, (f c).cid = c.cid ∧ (f c).desc = c.desc) (n cid : Nat) :
    ((s.onCtx n f).ctx? cid).map (·.desc) = (s.ctx? cid).map (·.desc) := by
  rw [State.ctx?_onCtx s (fun c => (hf c).1)]
  split
  · rw [Option.map_map]; exact congrArg (fun k => (s.ctx? cid).map k) (funext fun c => (hf c).2)
  · rfl

/-- It goes on at once: nothing changes but logs, and no context's descriptor. -/
theorem orderPoint_open {s : State} (h : replaying s s.cur.cid = false) (arb : Nat) :
    ∃ ctxs, (∀ cid, (({ s with ctxs } : State).ctx? cid).map (·.desc) = (s.ctx? cid).map (·.desc)) ∧
      ∀ k, orderPoint s arb k = k { s with ctxs } := by
  obtain ⟨f, hf⟩ := gateTake_open h arb s.cur.core s.cur.slot 0
  obtain ⟨left, hleft⟩ := gateTake_eq hf
  refine ⟨(logWin (s.onCtx s.cur.cid f) s.cur.cid arb s.cur.core s.cur.slot).ctxs, fun cid => ?_, fun k => by simp only [orderPoint, hf]; rfl⟩
  refine (desc_onCtx (s.onCtx s.cur.cid f) (fun c => ?_) s.cur.cid cid).trans ?_
  · split <;> exact ⟨rfl, rfl⟩
  · rw [hleft]
    refine desc_onCtx s ?_ s.cur.cid cid
    exact fun _ => ⟨rfl, rfl⟩

theorem drained_none {s : State} (h : s.cur.mops = []) (k : Out) : drained s k = k := by
  rw [drained, h]; rfl

/-! ## BAR (R181) -/

theorem setBar_cur (s : State) (w : Wg) (cluster : Bool) (id : Fin 16) (b : Bar) : (setBar s w cluster id b).cur = s.cur := by
  unfold setBar; split <;> rfl

/-- A phase whose arrivals suffice, the selected thread's the last, completes. -/
theorem testBar_completes {s : State} {w y : Wg} {cluster : Bool} {id : Fin 16} {c n : Nat} {arr : List (TRef × Nat)}
    (hy : Stands s w cluster y) (hbar : getBar s y cluster id = ⟨c, arr ++ [(s.cur.ref, n)]⟩)
    (hfull : c - exitsOf s y cluster ≤ arr.length + 1) (hothers : ∀ x ∈ arr, x.1 ≠ s.cur.ref) :
    (testBar s y cluster id).cur = { s.cur with wait := .none, age := 0, r := s.cur.r.adv n } ∧
      ∃ z, (testBar s y cluster id).wg? w.id = some z ∧ getBar (testBar s y cluster id) z cluster id = ⟨c, []⟩ := by
  have htest : testBar s y cluster id =
      wakeAll (·.1) (·.2) (fun _ r => r) (if cluster then 3 else 1) (arr ++ [(s.cur.ref, n)]) (setBar s y cluster id ⟨c, []⟩) := by
    rw [testBar, hbar]
    exact if_pos ⟨by simp, by simpa using hfull⟩
  rw [htest]
  constructor
  · rw [wakeAll_cur]
    · rw [setBar_cur]
    · rw [setBar_cur]; exact hothers
    · rw [setBar_cur]
  · obtain ⟨z, hz, hget, -⟩ := hy.self.setBar id ⟨c, []⟩
    have hsame := wakeAll_sameScopes (fun x : TRef × Nat => x.1) (·.2) (fun _ r => r) (if cluster then 3 else 1)
      (arr ++ [(s.cur.ref, n)]) (setBar s y cluster id ⟨c, []⟩)
    exact ⟨z, hy.id ▸ (hz.congr hsame).wg, (getBar_congr hsame _ _ _).trans hget⟩

/-- The state in which an arrival that joins its phase has it tested (R181). -/
def arrived (s : State) (w : Wg) (cluster : Bool) (id : Fin 16) (c : Nat) : State :=
  (setBar (release s s.cur.core s.cur.cid (if cluster then 3 else 1)) w cluster id
    ⟨c, (getBar s w cluster id).arr ++ [(s.cur.ref, 1)]⟩).onCur (fun t => { t with wait := .bar cluster id.val })

section
variable {s : State} {w : Wg} {cluster : Bool} {id : Fin 16} {c : Nat} (hfence : s.cur.fence = none)
include hfence

theorem arrived_cur : (arrived s w cluster id c).cur = { s.cur with wait := .bar cluster id.val } := by
  rw [arrived, State.onCur_cur, setBar_cur, release_cur hfence rfl]

theorem arrive_joins (hwg : s.wgOf s.cur = some w) (hlive : replaying s s.cur.cid = false) (hc : c ≠ 0)
    (hagree : (getBar s w cluster id).arr ≠ [] → c = (getBar s w cluster id).c) : ∃ ctxs,
      arrive s cluster id c = .next (testBar (arrived { s with ctxs } w cluster id c)
        (((arrived { s with ctxs } w cluster id c).wg? w.id).getD w) cluster id) := by
  obtain ⟨ctxs, -, hopen⟩ := orderPoint_open hlive s.cur.core
  refine ⟨ctxs, ?_⟩
  have hjoin : ¬((getBar s w cluster id).arr ≠ [] ∧ c ≠ (getBar s w cluster id).c) := fun h => h.2 (hagree h.1)
  have hcur : (release { s with ctxs } s.cur.core s.cur.cid (if cluster then 3 else 1)).cur = s.cur :=
    release_cur (s := { s with ctxs }) hfence rfl _ _ _
  simp only [arrive, hwg, if_neg hc, if_neg hjoin, hopen, hcur]
  rfl

/-- The arrival that the phase still needs completes it. -/
theorem arrive_completes (hwg : s.wgOf s.cur = some w) (hgang : cluster = true → ∃ x, s.gang? w.gang = some x)
    (hlive : replaying s s.cur.cid = false) (hc : c ≠ 0) (hagree : (getBar s w cluster id).arr ≠ [] → c = (getBar s w cluster id).c)
    (hfull : c - exitsOf s w cluster ≤ (getBar s w cluster id).arr.length + 1)
    (hothers : ∀ x ∈ (getBar s w cluster id).arr, x.1 ≠ s.cur.ref) :
    ∃ t, arrive s cluster id c = .next t ∧ t.cur = { s.cur with wait := .none, age := 0, r := s.cur.r.adv 1 } ∧
      ∃ z, t.wg? w.id = some z ∧ getBar t z cluster id = ⟨c, []⟩ := by
  obtain ⟨ctxs, hex⟩ := arrive_joins hfence hwg hlive hc hagree
  have hstands : Stands (release { s with ctxs } s.cur.core s.cur.cid (if cluster then 3 else 1)) w cluster w :=
    (show Stands { s with ctxs } w cluster w from ⟨wgOf_wg? hwg, rfl, hgang⟩).congr (release_sameScopes _ _ _ _)
  obtain ⟨y, hy, hbar, hexits⟩ := hstands.setBar id ⟨c, (getBar s w cluster id).arr ++ [(s.cur.ref, 1)]⟩
  replace hexits := hexits.trans (exitsOf_congr (release_sameScopes { s with ctxs } s.cur.core s.cur.cid _) w cluster)
  have hcur := arrived_cur (s := { s with ctxs }) (w := w) (cluster := cluster) (id := id) (c := c) hfence
  have hwg' : (arrived { s with ctxs } w cluster id c).wg? w.id = some y := hy.wg
  have href : (arrived { s with ctxs } w cluster id c).cur.ref = s.cur.ref := by rw [hcur]
  rw [hwg', Option.getD_some] at hex
  obtain ⟨hdone, hempty⟩ := testBar_completes (s := arrived { s with ctxs } w cluster id c) (n := 1)
    (arr := (getBar s w cluster id).arr) (c := c) (hy.congr ⟨rfl, rfl⟩) (by rw [href]; exact hbar)
    (le_of_eq_of_le (congrArg (c - ·) hexits) hfull) (by rw [href]; exact hothers)
  exact ⟨_, hex, by rw [hdone, hcur], hempty⟩

end

theorem execBar_completes {g : Guard} {s : State} (hg : s.cur.r.holds g = true) (hrest : s.cur.rest = none) (hfence : s.cur.fence = none)
    (hmops : s.cur.mops = []) {w : Wg} (hwg : s.wgOf s.cur = some w) (cluster : Bool) (id : Fin 16) (cnt : Option (Fin 63)) :
    execBar g cluster id cnt s = arrive s cluster id (match cnt with
      | some n => (s.cur.r.getX (Fin.castLE (by decide) n)).toNat
      | none => scopeCount s w cluster) := by
  cases cnt <;>
    simp only [execBar, guarded_true hg, hrest, settled_none hfence, drained_none hmops, hwg, Option.map_some, Option.getD_some]

/-! ## KSET (R174) -/

/-- A declaration that the register takes, or has already. -/
theorem kset_declares {g : Guard} {s : State} (hg : s.cur.r.holds g = true) (hrest : s.cur.rest = none) (hfence : s.cur.fence = none)
    {w : Wg} (hwg : s.wgOf s.cur = some w) (k : Fin 8) {cluster mask : Bool} {a : XReg}
    (hv : ¬ if mask then scopeCount s w cluster ≤ (s.cur.r.getX a).toNat else s.cur.r.getX a = 0 ∨ scopeCount s w cluster < (s.cur.r.getX a).toNat) :
    ((getK s w cluster k).st ≠ .gathering → kset g k cluster mask a s =
        .next ((setK s w cluster k { KReg.init with st := .armed, maskMode := mask, val := s.cur.r.getX a }).adv 1)) ∧
      ((getK s w cluster k).st = .gathering → (getK s w cluster k).maskMode = mask → (getK s w cluster k).val = s.cur.r.getX a →
        kset g k cluster mask a s = .next (s.adv 1)) := by
  have hkset : kset g k cluster mask a s =
      if (getK s w cluster k).st = .gathering then
        (if (getK s w cluster k).maskMode = mask ∧ (getK s w cluster k).val = s.cur.r.getX a then .next (s.adv 1)
         else trap (memberFault s w cluster k (getK s w cluster k) 4) cMEMBER 0 (memberInfo 4 k.val cluster))
      else .next ((setK s w cluster k { KReg.init with st := .armed, maskMode := mask, val := s.cur.r.getX a }).adv 1) := by
    simp only [kset, guarded_true hg, hrest, hwg, settled_none hfence, if_neg hv]
  rw [hkset]
  exact ⟨fun hst => if_neg hst, fun hst hmode hval => by rw [if_pos hst, if_pos ⟨hmode, hval⟩]⟩

theorem setK_cur (s : State) (w : Wg) (cluster : Bool) (k : Fin 8) (r : KReg) : (setK s w cluster k r).cur = s.cur := by
  unfold setK; split <;> rfl

end Sys2Proof.Machine

namespace Sys2Proof
open Machine

/-- Settles O36: the arrival joins the phase behind an open gate (`arrive_joins`), and the test that follows finds the phase full
(`testBar_completes`). -/
theorem barrierCompletes : Obligations.BarrierCompletes := by
  unfold Obligations.BarrierCompletes
  intro g cl id cnt w s hg hrest _ hfence hmops hlive hwg hgang c b hc hagree hfull hothers
  have hex := execBar_completes hg hrest hfence hmops hwg cl id cnt
  obtain ⟨t, ht, hcur, hempty⟩ := arrive_completes hfence hwg hgang hlive hc hagree hfull hothers
  exact ⟨t, hex.trans ht, (execBar_keeps g cl id cnt (Keeps.refl s)).keeps t (hex.trans ht), hcur, hempty⟩

/-- Settles O37: the two outcomes of `kset_declares` for both modes. -/
theorem setDeclarations : Obligations.SetDeclarations := by
  unfold Obligations.SetDeclarations
  intro g k cl a w s hg hrest hfence hwg v kr n declares
  have declared {mask : Bool} (hv : ¬ if mask then n ≤ v.toNat else v = 0 ∨ n < v.toNat) := kset_declares hg hrest hfence hwg k hv
  have adv_setK (r : KReg) : (setK s w cl k r).adv 1 = { setK s w cl k r with cur := { s.cur with r := { s.cur.r with pc := s.cur.r.pc + 4 } } } := by
    rw [State.adv, State.onRegs, setK_cur]; rfl
  refine ⟨fun h1 hn => ?count, fun hn => ?mask⟩
  case count =>
    have hv : ¬(v = 0 ∨ n < v.toNat) := by
      rintro (h0 | h0)
      · rw [h0] at h1; exact absurd h1 (by decide)
      · omega
    obtain ⟨hfresh, hagain⟩ := declared (mask := false) (by simpa using hv)
    exact ⟨fun hst => (hfresh hst).trans (by rw [adv_setK]), hagain⟩
  case mask =>
    obtain ⟨hfresh, hagain⟩ := declared (mask := true) (by simpa using hn)
    exact ⟨fun hst => (hfresh hst).trans (by rw [adv_setK]), hagain⟩

end Sys2Proof
end

section
/-! PROOFS. Signing a convergence register (R175-R179): the round as its last signer leaves it, the state in which it completes, what a
completed round gives each signer; KSIGN, KXCH and KRED. -/

namespace Sys2Proof.Machine

/-! ## The round with its last signing (R175) -/

/-- The round that the selected thread finds, or opens. -/
def openedRound (s : State) (w : Wg) (cluster : Bool) (k : Fin 8) (g : Signing) : KReg :=
  if (getK s w cluster k).st = .armed then openRound s w cluster (getK s w cluster k) g else getK s w cluster k

/-- The signing of the selected thread as the round holds it. -/
def ownSign (s : State) (w : Wg) (cluster : Bool) (g : Signing) : Sign :=
  { ref := s.cur.ref, idx := setIndex s w cluster s.cur, a := g.a, i := g.i, dst := g.dst, words := g.len }

theorem signedRound_eq (s : State) (w : Wg) (cluster : Bool) (k : Fin 8) (g : Signing) : signedRound s w cluster k g =
    { openedRound s w cluster k g with signs := (openedRound s w cluster k g).signs ++ [ownSign s w cluster g] } := rfl

@[simp] theorem signedRound_maskMode (s : State) (w : Wg) (cluster : Bool) (k : Fin 8) (g : Signing) :
    (signedRound s w cluster k g).maskMode = (getK s w cluster k).maskMode := by
  rw [signedRound_eq, openedRound]; split <;> rfl

@[simp] theorem signedRound_val (s : State) (w : Wg) (cluster : Bool) (k : Fin 8) (g : Signing) :
    (signedRound s w cluster k g).val = (getK s w cluster k).val := by
  rw [signedRound_eq, openedRound]; split <;> rfl

section
variable {s : State} {w : Wg} {cluster : Bool} {k : Fin 8} {g : Signing} (h : LastSigner s w cluster k g)
include h

theorem LastSigner.gathering : (signedRound s w cluster k g).st = .gathering := by
  rw [signedRound_eq, openedRound]
  rcases h.declared with hst | hst
  · rw [if_pos hst]; rfl
  · rw [if_neg (by rw [hst]; exact nofun)]; exact hst

/-- The selected thread's signing is the last of the round, and the only one under its name. -/
theorem LastSigner.signs : ∃ l, (signedRound s w cluster k g).signs = l ++ [ownSign s w cluster g] ∧ ∀ x ∈ l, x.ref ≠ s.cur.ref := by
  refine ⟨_, rfl, ?_⟩
  rcases h.declared with hst | hst
  · rw [if_pos hst]; exact nofun
  · rw [if_neg (by rw [hst]; exact nofun)]; exact fun x hx => h.others x hx hst

theorem LastSigner.agrees : disagrees (openedRound s w cluster k g) g (setIndex s w cluster s.cur) = none := by
  have hwords : g.words = (openedRound s w cluster k g).words := h.words
  have hwide : g.sw = (openedRound s w cluster k g).sw := h.wide
  have hmode : (openedRound s w cluster k g).maskMode = (getK s w cluster k).maskMode := signedRound_maskMode s w cluster k g
  have hval : (openedRound s w cluster k g).val = (getK s w cluster k).val := signedRound_val s w cluster k g
  rw [disagrees, if_neg (not_not_intro hwords), if_neg (not_not_intro hwide), if_neg]
  rw [hmode, hval]
  cases hm : (getK s w cluster k).maskMode with
  | false => simp
  | true =>
    obtain ⟨hbase, hlt, hbit⟩ := h.member hm
    have hbit' : (openedRound s w cluster k g).mask.getLsbD (setIndex s w cluster s.cur - (getK s w cluster k).val.toNat) = true := hbit
    have hoff : setIndex s w cluster s.cur - (getK s w cluster k).val.toNat < 64 := by omega
    simp [hbase, hoff, hbit']

theorem LastSigner.stands : Stands s w cluster w := by
  refine ⟨wgOf_wg? h.own, rfl, fun hc => ?_⟩
  subst hc
  cases hgang : s.gang? w.gang with
  | some x => exact ⟨x, rfl⟩
  | none =>
    have hinit : getK s w true k = KReg.init := by simp [getK, hgang]
    rcases h.declared with hst | hst <;> rw [hinit] at hst <;> exact nomatch hst

end

/-! ## The state in which the round completes -/

/-- The selected thread has released and signed, and waits (R175). -/
def signed (s : State) (w : Wg) (cluster : Bool) (k : Fin 8) (g : Signing) : State :=
  (setK (release s s.cur.core s.cur.cid (if cluster then 3 else 1)) w cluster k (signedRound s w cluster k g)).onCur
    (fun t => { t with wait := .sign cluster k.val })

theorem signed_cur {s : State} (hfence : s.cur.fence = none) (w : Wg) (cluster : Bool) (k : Fin 8) (g : Signing) :
    (signed s w cluster k g).cur = { s.cur with wait := .sign cluster k.val } := by
  rw [signed, State.onCur_cur, setK_cur, release_cur hfence rfl]

theorem signed_stands {s : State} {w : Wg} {cluster : Bool} (h : Stands s w cluster w) (k : Fin 8) (g : Signing) :
    ∃ y, Stands (signed s w cluster k g) w cluster y ∧ y = { w with k := y.k } ∧
      getK (signed s w cluster k g) y cluster k = signedRound s w cluster k g ∧
      getHeap (signed s w cluster k g) y cluster = getHeap s w cluster := by
  have hsame := release_sameScopes s s.cur.core s.cur.cid (if cluster then 3 else 1)
  obtain ⟨y, hy, hyw, hget, hheap⟩ := (h.congr hsame).setK k (signedRound s w cluster k g)
  exact ⟨y, hy.congr ⟨rfl, rfl⟩, hyw, hget, hheap.trans (getHeap_congr hsame _ _)⟩

/-- What the last signing leads to: the completion of its round, in a state `u` and for the workgroup `y` as it stands there. -/
structure Completes (s : State) (w : Wg) (cluster : Bool) (k : Fin 8) (g : Signing) (ctxs : List Ctx) (u : State) (y : Wg) : Prop where
  state : u = signed { s with ctxs } w cluster k g
  descs : ∀ cid, (({ s with ctxs } : State).ctx? cid).map (·.desc) = (s.ctx? cid).map (·.desc)
  cur : u.cur = { s.cur with wait := .sign cluster k.val }
  stands : Stands u w cluster y
  same : y = { w with k := y.k }
  heap : getHeap u y cluster = getHeap s w cluster

section
variable {s : State} {w : Wg} {cluster : Bool} {k : Fin 8} {g : Signing} (h : LastSigner s w cluster k g)
include h

theorem signRound_signs : ∃ ctxs, (∀ cid, (({ s with ctxs } : State).ctx? cid).map (·.desc) = (s.ctx? cid).map (·.desc)) ∧
    signRound s cluster k g = .next (testRound (signed { s with ctxs } w cluster k g)
      (((signed { s with ctxs } w cluster k g).wg? w.id).getD w) cluster k) := by
  obtain ⟨ctxs, hdescs, hopen⟩ := orderPoint_open h.live s.cur.core
  have hcur : (release { s with ctxs } s.cur.core s.cur.cid (if cluster then 3 else 1)).cur = s.cur :=
    release_cur (s := { s with ctxs }) h.idle.1 rfl _ _ _
  have hagrees := h.agrees
  unfold openedRound at hagrees
  refine ⟨ctxs, hdescs, ?_⟩
  simp only [signRound, h.own]
  split
  case h_1 hst => rcases h.declared with h' | h' <;> exact nomatch hst.symm.trans h'
  case h_2 hst => rcases h.declared with h' | h' <;> exact nomatch hst.symm.trans h'
  all_goals
    simp only [hagrees, hopen, hcur]
    rfl

theorem signRound_completes : ∃ ctxs u y, Completes s w cluster k g ctxs u y ∧
    signRound s cluster k g = .next (completeRound u y cluster k (signedRound s w cluster k g)) := by
  obtain ⟨ctxs, hdescs, hex⟩ := signRound_signs h
  obtain ⟨y, hy, hyw, hget, hheap⟩ := signed_stands (s := { s with ctxs }) (h.stands.congr ⟨rfl, rfl⟩) k g
  refine ⟨ctxs, _, y, ⟨rfl, hdescs, signed_cur (s := { s with ctxs }) h.idle.1 w cluster k g, hy, hyw, hheap⟩, hex.trans ?_⟩
  have hround : signedRound { s with ctxs } w cluster k g = signedRound s w cluster k g := rfl
  rw [hy.wg, Option.getD_some, testRound, hget, hround, if_pos ⟨h.gathering, h.full⟩]

end

/-! ## What a completed round gives (R175) -/

theorem finishRound_eq_wakeAll (s : State) (x : Wg) (cluster : Bool) (k : Fin 8) (kr : KReg) (f : Sign → Regs → Regs) :
    finishRound s x cluster k kr f =
      wakeAll (·.ref) (·.words) f (if cluster then 3 else 1) kr.signs (setK s x cluster k kr.armed) := rfl

theorem finishRound_stands {s : State} {x y : Wg} {cluster : Bool} (h : Stands s x cluster y) (k : Fin 8) (kr : KReg)
    (f : Sign → Regs → Regs) : ∃ z, Stands (finishRound s x cluster k kr f) x cluster z ∧
      getK (finishRound s x cluster k kr f) z cluster k = kr.armed ∧ getHeap (finishRound s x cluster k kr f) z cluster = getHeap s y cluster := by
  obtain ⟨z, hz, -, hget, hheap⟩ := h.setK k kr.armed
  have hsame := wakeAll_sameScopes Sign.ref Sign.words f (if cluster then 3 else 1) kr.signs (setK s x cluster k kr.armed)
  exact ⟨z, hz.congr hsame, (getK_congr hsame _ _ _).trans hget, (getHeap_congr hsame _ _).trans hheap⟩

section
variable {s : State} {w : Wg} {cluster : Bool} {k : Fin 8} {g : Signing} (h : LastSigner s w cluster k g)
include h

theorem finishRound_cur {u : State} (href : u.cur.ref = s.cur.ref) (x : Wg) (f : Sign → Regs → Regs) :
    (finishRound u x cluster k (signedRound s w cluster k g) f).cur =
      { u.cur with wait := .none, age := 0, r := (f (ownSign s w cluster g) u.cur.r).adv g.len } := by
  obtain ⟨l, hl, hothers⟩ := h.signs
  rw [finishRound_eq_wakeAll, hl, wakeAll_cur, setK_cur]
  · rfl
  · rw [setK_cur, href]; exact hothers
  · rw [setK_cur, href]; rfl

/-- The round is done, whatever the selected thread has noted of its matrix queue. -/
theorem finishRound_done {u : State} {x y : Wg} {f : Sign → Regs → Regs} {wait : Wait} {lastMx : Nat}
    (hcur : u.cur = { s.cur with wait, lastMx }) (hstands : Stands u x cluster y) (hid : x.id = w.id)
    (hkeeps : Keeps s (finishRound u x cluster k (signedRound s w cluster k g) f)) :
    RoundDone s (finishRound u x cluster k (signedRound s w cluster k g) f) w cluster k (f (ownSign s w cluster g)) g.len := by
  have hfinal := finishRound_cur h (u := u) (by rw [hcur]) x f
  obtain ⟨z, hz, hget, -⟩ := finishRound_stands hstands k (signedRound s w cluster k g) f
  rw [hcur] at hfinal
  refine ⟨hkeeps, by rw [hfinal], by rw [hfinal], by rw [hfinal], z, hid ▸ hz.wg, ?_⟩
  rw [hget]
  exact ⟨rfl, rfl, signedRound_maskMode _ _ _ _ _, signedRound_val _ _ _ _ _⟩

/-- A round that gives each signer a change of its registers, and nothing more. -/
theorem signRound_finishes {f : Sign → Regs → Regs} (hop : ∀ u x, completeRound u x cluster k (signedRound s w cluster k g) =
    finishRound u x cluster k (signedRound s w cluster k g) f) :
    ∃ t, signRound s cluster k g = .next t ∧ RoundDone s t w cluster k (f (ownSign s w cluster g)) g.len := by
  obtain ⟨ctxs, u, y, hu, hex⟩ := signRound_completes h
  rw [hop] at hex
  exact ⟨_, hex, finishRound_done h hu.cur hu.stands.self hu.stands.id ((signRound_keeps cluster k g (Keeps.refl s)).keeps _ hex)⟩

theorem signExplicit_finishes {p : Guard} (hp : s.cur.r.holds p = true) (n : Nat) {f : Sign → Regs → Regs}
    (hop : ∀ u x, completeRound u x cluster k (signedRound s w cluster k g) =
      finishRound u x cluster k (signedRound s w cluster k g) f) :
    ∃ t, signExplicit p n cluster k g s = .next t ∧ RoundDone s t w cluster k (f (ownSign s w cluster g)) g.len := by
  have hsign : signExplicit p n cluster k g s = signRound s cluster k g := by
    simp only [signExplicit, guarded_true hp, h.thread.2, settled_none h.idle.1, drained_none h.idle.2]
  rw [hsign]
  exact signRound_finishes h hop

end

/-! ## KRED (R179) -/

theorem foldl_add_eq (as : List W32) : ∀ a : W32, as.foldl (· + ·) a = a + BitVec.ofNat 32 (as.map BitVec.toNat).sum := by
  induction as with
  | nil => simp
  | cons b as ih =>
    intro a
    rw [List.foldl_cons, ih, List.map_cons, List.sum_cons, BitVec.ofNat_add, BitVec.ofNat_toNat, BitVec.setWidth_eq, BitVec.add_assoc]

/-- A fold that keeps the one of the lesser key ends with one of the least. -/
theorem foldl_least (key : W32 → Int) {f : W32 → W32 → W32} (hf : ∀ x y, f x y = if key y < key x then y else x) (as : List W32) :
    ∀ a, as.foldl f a ∈ a :: as ∧ ∀ b ∈ a :: as, key (as.foldl f a) ≤ key b := by
  induction as with
  | nil => simp
  | cons b as ih =>
    intro a
    obtain ⟨hmem, hle⟩ := ih (f a b)
    have hhead := hle _ List.mem_cons_self
    rw [List.foldl_cons]
    rw [hf] at hmem hle hhead ⊢
    split at hmem
    · rename_i hlt
      rw [if_pos hlt] at hle hhead ⊢
      refine ⟨List.mem_cons_of_mem _ hmem, fun c hc => ?_⟩
      rcases List.mem_cons.mp hc with rfl | hc
      · omega
      · exact hle c hc
    · rename_i hge
      rw [if_neg hge] at hle hhead ⊢
      refine ⟨?_, fun c hc => ?_⟩
      · rcases List.mem_cons.mp hmem with hm | hm
        · rw [hm]; exact List.mem_cons_self
        · exact List.mem_cons_of_mem _ (List.mem_cons_of_mem _ hm)
      · rcases List.mem_cons.mp hc with rfl | hc
        · exact hhead
        rcases List.mem_cons.mp hc with rfl | hc
        · omega
        · exact hle c (List.mem_cons_of_mem _ hc)

theorem getLsbD_foldl_and (i : Nat) (as : List W32) : ∀ a : W32, (as.foldl (· &&& ·) a).getLsbD i = (a :: as).all (·.getLsbD i) := by
  induction as with
  | nil => simp
  | cons b as ih => intro a; rw [List.foldl_cons, ih]; simp [Bool.and_assoc]

theorem getLsbD_foldl_or (i : Nat) (as : List W32) : ∀ a : W32, (as.foldl (· ||| ·) a).getLsbD i = (a :: as).any (·.getLsbD i) := by
  induction as with
  | nil => simp
  | cons b as ih => intro a; rw [List.foldl_cons, ih]; simp [Bool.or_assoc]

/-- What a KRED gives is its operation's result over the signers' values (R179). -/
theorem kredValue_result (op : Nat) {as : List W32} (hne : as ≠ []) : KredResult op as (kredValue op as) := by
  obtain ⟨a, l, rfl⟩ := List.exists_cons_of_ne_nil hne
  unfold KredResult
  split
  case h_1 => exact (foldl_add_eq (a :: l) 0).trans (BitVec.zero_add _)
  case h_2 => rfl
  case h_3 => exact foldl_least BitVec.toInt (fun x y => by simp only [BitVec.slt_iff_toInt_lt]) l a
  case h_4 =>
    obtain ⟨hmem, hle⟩ := foldl_least (fun x => -x.toInt) (f := fun x y => if BitVec.slt x y then y else x)
      (fun x y => by simp only [BitVec.slt_iff_toInt_lt, neg_lt_neg_iff]) l a
    exact ⟨hmem, fun b hb => neg_le_neg_iff.mp (hle b hb)⟩
  case h_5 => exact fun i _ => getLsbD_foldl_and i l a
  case h_6 => exact fun i _ => getLsbD_foldl_or i l a
  case h_7 => exact congrArg (l.foldl (· ^^^ ·)) (BitVec.zero_xor (x := a)).symm
  case h_8 => exact congrArg (BitVec.ofNat 32) List.countP_eq_length_filter.symm
  case h_9 => rfl

theorem kred_reduces {p : Guard} {s : State} (hp : s.cur.r.holds p = true) {k : Fin 8} {cluster : Bool} {d : Dst8} {a : Src8} {w : Wg}
    {op : Nat} {words : List Nat} {g : Signing}
    (hg : g = { Signing.plain (.kred op) words [] (2 + a.lits) with a := s.cur.src8 a, dst := d }) (h : LastSigner s w cluster k g) :
    ∃ v, KredResult op ((signedRound s w cluster k g).signs.map (·.a)) v ∧
      ∃ t, kred op words p k cluster d a s = .next t ∧ RoundDone s t w cluster k (fun r => r.put8 d v) g.len := by
  have hne : (signedRound s w cluster k g).signs.map (·.a) ≠ [] := by
    obtain ⟨l, hl, -⟩ := h.signs
    simp [hl]
  have hop : (signedRound s w cluster k g).op = .kred op := h.op.trans (by rw [hg]; rfl)
  obtain ⟨t, ht, hdone⟩ := signExplicit_finishes h hp (2 + a.lits)
    (f := fun x r => r.put8 x.dst (kredValue op ((signedRound s w cluster k g).signs.map (·.a))))
    (fun u x => by simp only [completeRound, hop])
  subst hg
  exact ⟨_, kredValue_result op hne, t, ht, hdone⟩

/-! ## KSIGN, KXCH (R177, R178) -/

theorem execKsign_finishes {p : Guard} {s : State} (hp : s.cur.r.holds p = true) {k : Fin 8} {cluster : Bool} {a : XReg} {w : Wg}
    {g : Signing} (hg : g = { Signing.plain .ksign (encode (.ksign none k cluster a))
      (if (getK s w cluster k).maskMode then [s.cur.r.getX a] else []) 1 with
      mask := if (getK s w cluster k).maskMode then some (s.cur.r.getX a) else none }) (h : LastSigner s w cluster k g) :
    ∃ t, execKsign p k cluster a s = .next t ∧ RoundDone s t w cluster k id g.len := by
  have hop : (signedRound s w cluster k g).op = .ksign := h.op.trans (by rw [hg]; rfl)
  have hex : execKsign p k cluster a s = signExplicit p 1 cluster k g s := by
    simp only [execKsign, h.own, Option.map_some, Option.getD_some, hg]
  rw [hex]
  exact signExplicit_finishes h hp 1 (f := fun _ r => r) (fun u x => by simp only [completeRound, hop])

theorem kxch_finishes {p : Guard} {s : State} (hp : s.cur.r.holds p = true) {k : Fin 8} {cluster : Bool} {d : Dst8} {a i : Src8} {w : Wg}
    {pos : Bool} {words : List Nat} {g : Signing}
    (hg : g = { Signing.plain (.kxch pos) words [] (2 + a.lits + i.lits) with a := s.cur.src8 a, i := s.cur.src8 i, dst := d })
    (h : LastSigner s w cluster k g) :
    ∃ t, kxch pos words p k cluster d a i s = .next t ∧
      RoundDone s t w cluster k (fun r => r.put8 d (kxchValue (signedRound s w cluster k g) pos (ownSign s w cluster g))) g.len := by
  have hop : (signedRound s w cluster k g).op = .kxch pos := h.op.trans (by rw [hg]; rfl)
  have hfinish := signExplicit_finishes h hp (2 + a.lits + i.lits)
    (f := fun x r => r.put8 x.dst (kxchValue (signedRound s w cluster k g) pos x)) (fun u x => by simp only [completeRound, hop])
  subst hg
  exact hfinish

end Sys2Proof.Machine

namespace Sys2Proof
open Machine

/-- Settles O38: each operation's round completes by `finishRound` (`signExplicit_finishes`); the reductions are `kredValue_result`. -/
theorem signingCompletes : Obligations.SigningCompletes := by
  unfold Obligations.SigningCompletes
  intro g k cl d a i x s w hg ends mm X A I xch reduces
  have reduced (op : Nat) {n n0 : Instr} (hn : exec n s = kred op (encode n0) g k cl d a s) : reduces op n n0 :=
    fun h => hn ▸ kred_reduces hg rfl h
  refine ⟨execKsign_finishes hg rfl, fun h => kxch_finishes hg rfl h, fun h => ?pos, reduced 0 rfl, reduced 1 rfl, reduced 2 rfl, reduced 3 rfl,
    reduced 4 rfl, reduced 5 rfl, reduced 6 rfl, reduced 7 rfl, reduced 8 rfl, reduced 9 rfl⟩
  case pos =>
    have hpos := kxch_finishes (pos := true) hg rfl h
    simp only [kxchValue, if_true, posOrder, signedRound_maskMode] at hpos
    exact hpos

end Sys2Proof
end

section
/-! PROOFS. MMA and MDRAIN rounds (R250, R253, R257): the members that take part, and the entries that the last signer puts into their
matrix queues. -/

namespace Sys2Proof.Machine

/-! ## The members that take part (R250) -/

theorem insertBy_map {α : Type} {k : α → Nat} {f : α → α} (hf : ∀ a, k (f a) = k a) (a : α) (l : List α) :
    insertBy k (f a) (l.map f) = (insertBy k a l).map f := by
  induction l with
  | nil => rfl
  | cons x xs ih =>
    rw [List.map_cons, insertBy, insertBy, hf, hf, ih]
    split <;> rfl

theorem sortBy_map {α : Type} {k : α → Nat} {f : α → α} (hf : ∀ a, k (f a) = k a) (l : List α) :
    sortBy k (l.map f) = (sortBy k l).map f := by
  rw [sortBy, sortBy, List.foldl_map]
  exact List.foldl_hom (List.map f) (g₁ := fun r a => insertBy k a r) (g₂ := fun r a => insertBy k (f a) r) (init := [])
    (fun r a => insertBy_map hf a r)

theorem wg?_of_mem_scopeWgs {s : State} {w y p : Wg} {cluster : Bool} (h : Stands s w cluster y) (hp : p ∈ scopeWgs s y cluster) :
    ∃ q, s.wg? p.id = some q := by
  cases cluster with
  | false =>
    obtain rfl := List.mem_singleton.mp hp
    exact ⟨p, h.self.wg⟩
  | true =>
    obtain ⟨x, hx⟩ := h.self.gang? rfl
    simp only [scopeWgs, if_true, hx] at hp
    exact Option.isSome_iff_exists.mp (List.find?_isSome.mpr ⟨p, (List.mem_filter.mp hp).1, by simp⟩)

section
variable {s : State} {w : Wg} {cluster : Bool} {k : Fin 8} {g : Signing} (h : LastSigner s w cluster k g) {ctxs : List Ctx} {u : State} {y : Wg}
  (hu : Completes s w cluster k g ctxs u y)
include h hu

/-- Signing leaves the workgroups of the scope as they are but for the register. -/
theorem scopeWgs_signed : ∃ f : Wg → Wg, (∀ p, (f p).id = p.id ∧ (f p).member = p.member) ∧
    scopeWgs u y cluster = (scopeWgs s w cluster).map f := by
  cases cluster with
  | false => exact ⟨fun p => { p with k := y.k }, fun _ => ⟨rfl, rfl⟩, congrArg (fun x => [x]) hu.same⟩
  | true =>
    obtain ⟨x, hx⟩ := h.stands.gang? rfl
    have hsame := release_sameScopes { s with ctxs } s.cur.core s.cur.cid 3
    have hx' : u.gang? w.gang = some { x with k := x.k.set k.val (signedRound s w true k g) k.isLt } := by
      rw [hu.state]
      refine State.gang?_onGang_self (s := release { s with ctxs } s.cur.core s.cur.cid 3) ?_ ?_
      · exact fun _ => rfl
      · rw [State.gang?, hsame.gangs]; exact hx
    have hwgs : u.wgs = s.wgs := by rw [hu.state]; exact hsame.wgs
    refine ⟨fun p => p, fun _ => ⟨rfl, rfl⟩, ?_⟩
    simp only [scopeWgs, if_true, hu.stands.gang, hx, hx', hwgs, List.map_id']

theorem participants_signed (kr : KReg) : ∃ f : Wg → Wg, (∀ p, (f p).id = p.id ∧ (f p).member = p.member) ∧
    participants u y cluster kr = (participants s w cluster kr).map f := by
  obtain ⟨f, hf, hmap⟩ := scopeWgs_signed h hu
  refine ⟨f, hf, ?_⟩
  rw [participants, participants, hmap, List.filter_map, sortBy_map (fun p => (hf p).2)]
  simp only [Function.comp_def, (hf _).1]

end

/-! ## Entries for every member (R253) -/

/-- A fresh entry of an operation stands in the matrix queue of a workgroup. -/
def Queued (s : State) (n : Nat) (op : MOp) : Prop := ∃ q, s.mq? n = some q ∧ ∃ e ∈ q, e.op = op ∧ e.begun = false ∧ e.done = false

theorem finishRound_mq? (s : State) (x : Wg) (cluster : Bool) (k : Fin 8) (kr : KReg) (f : Sign → Regs → Regs) (n : Nat) :
    (finishRound s x cluster k kr f).mq? n = s.mq? n := by
  rw [finishRound_eq_wakeAll, State.mq?_congr (wakeAll_sameScopes _ _ _ _ _ _).wgs]
  unfold setK
  split
  · rfl
  · refine State.mq?_onWg s ?_ ?_ _ n <;> exact fun _ => rfl

/-- One member's part of `enqueueAll`. -/
def enqueueFor (kr : KReg) (op : Nat → MOp) (s : State) (p : Wg) : State :=
  let r := enqueue s p.id (op p.member)
  kr.signs.foldl (fun s g => if refWg g.ref == some p.id then s.onThread g.ref (fun t => { t with lastMx := r.1 + 1 }) else s) r.2

theorem enqueueAll_eq (s : State) (ps : List Wg) (kr : KReg) (op : Nat → MOp) : enqueueAll s ps kr op = ps.foldl (enqueueFor kr op) s := rfl

section
variable (kr : KReg) (op : Nat → MOp) (s : State) (p : Wg)

theorem enqueueFor_sameScopes : SameScopes (enqueue s p.id (op p.member)).2 (enqueueFor kr op s p) := by
  refine foldl_sameScopes (fun s g => ?_) _ _
  split
  · exact State.onThread_sameScopes _ _ _
  · exact .refl s

theorem enqueueFor_wg? (n : Nat) : ∃ e : MEnt, (e.op = op p.member ∧ e.begun = false ∧ e.done = false) ∧
    (enqueueFor kr op s p).wg? n = if n = p.id then (s.wg? n).map (fun x => { x with mq := x.mq ++ [e] }) else s.wg? n := by
  refine ⟨_, ⟨rfl, rfl, rfl⟩, (State.wg?_congr (enqueueFor_sameScopes kr op s p).wgs n).trans (State.wg?_onWg s ?_ p.id n)⟩
  exact fun _ => rfl

/-- The selected thread notes no more than how far its queue has come (R211). -/
theorem enqueueFor_cur : ∃ lastMx, (enqueueFor kr op s p).cur = { s.cur with lastMx } := by
  refine List.foldlRecOn (motive := fun t : State => ∃ lastMx, t.cur = { s.cur with lastMx }) kr.signs _ ⟨s.cur.lastMx, rfl⟩
    (fun t ht g _ => ?_)
  obtain ⟨m, hm⟩ := ht
  split
  · by_cases hr : g.ref = t.cur.ref
    · exact ⟨_, by rw [State.onThread_selected hr.symm, State.onCur_cur, hm]⟩
    · exact ⟨m, by rw [State.onThread_other hr, hm]⟩
  · exact ⟨m, hm⟩

end

section
variable {kr : KReg} {op : Nat → MOp}

theorem Stands.enqueueFor {s : State} {w y : Wg} {cluster : Bool} (h : Stands s w cluster y) (p : Wg) :
    ∃ z, Stands (enqueueFor kr op s p) w cluster z := by
  obtain ⟨e, -, hwg⟩ := enqueueFor_wg? kr op s p w.id
  have hgang (hc : cluster = true) : ∃ x, (Machine.enqueueFor kr op s p).gang? w.gang = some x := by
    rw [State.gang?, (enqueueFor_sameScopes kr op s p).gangs]; exact h.gang? hc
  rw [h.wg] at hwg
  split at hwg
  · exact ⟨_, hwg, h.gang, hgang⟩
  · exact ⟨_, hwg, h.gang, hgang⟩

theorem Queued.enqueueFor {s : State} {n : Nat} {o : MOp} (h : Queued s n o) (p : Wg) : Queued (enqueueFor kr op s p) n o := by
  obtain ⟨q, hq, e, he, hfresh⟩ := h
  obtain ⟨x, hx, rfl⟩ := Option.map_eq_some_iff.mp hq
  obtain ⟨e', -, hwg⟩ := enqueueFor_wg? kr op s p n
  rw [hx] at hwg
  split at hwg
  · exact ⟨_, by rw [State.mq?, hwg]; rfl, e, List.mem_append_left _ he, hfresh⟩
  · exact ⟨_, by rw [State.mq?, hwg]; rfl, e, he, hfresh⟩

theorem queued_enqueueFor {s : State} {p q : Wg} (h : s.wg? p.id = some q) : Queued (enqueueFor kr op s p) p.id (op p.member) := by
  obtain ⟨e, hfresh, hwg⟩ := enqueueFor_wg? kr op s p p.id
  rw [h, if_pos rfl] at hwg
  exact ⟨_, by rw [State.mq?, hwg]; rfl, e, List.mem_append_right _ List.mem_cons_self, hfresh⟩

theorem enqueueAll_stands {w : Wg} {cluster : Bool} (ps : List Wg) (s : State) (h : ∃ y, Stands s w cluster y) :
    ∃ z, Stands (enqueueAll s ps kr op) w cluster z :=
  List.foldlRecOn (motive := fun t : State => ∃ z, Stands t w cluster z) ps _ h (fun _ ⟨_, hy⟩ p _ => hy.enqueueFor p)

theorem enqueueAll_cur (ps : List Wg) (s : State) : ∃ lastMx, (enqueueAll s ps kr op).cur = { s.cur with lastMx } := by
  refine List.foldlRecOn (motive := fun t : State => ∃ lastMx, t.cur = { s.cur with lastMx }) ps _ ⟨s.cur.lastMx, rfl⟩ (fun t ht p _ => ?_)
  obtain ⟨m, hm⟩ := ht
  obtain ⟨m', hm'⟩ := enqueueFor_cur kr op t p
  rw [hm] at hm'
  exact ⟨m', hm'⟩

theorem queued_enqueueAll (ps : List Wg) : ∀ s : State, (∀ p ∈ ps, ∃ q, s.wg? p.id = some q) →
    ∀ p ∈ ps, Queued (enqueueAll s ps kr op) p.id (op p.member) := by
  induction ps with
  | nil => exact fun _ _ _ => nofun
  | cons a ps ih =>
    intro s hs p hp
    rw [enqueueAll_eq, List.foldl_cons, ← enqueueAll_eq]
    rcases List.mem_cons.mp hp with rfl | hp
    · obtain ⟨q, hq⟩ := hs p List.mem_cons_self
      exact List.foldlRecOn (motive := fun t : State => Queued t p.id (op p.member)) ps _ (queued_enqueueFor hq) (fun _ ht b _ => ht.enqueueFor b)
    · refine ih _ (fun b hb => ?_) p hp
      obtain ⟨q, hq⟩ := hs b (List.mem_cons_of_mem _ hb)
      obtain ⟨e, -, hwg⟩ := enqueueFor_wg? kr op s a b.id
      rw [hq] at hwg
      split at hwg <;> exact ⟨_, hwg⟩

end

/-! ## The rounds of the matrix unit (R250, R257) -/

/-- What the last signer of a round that enters an operation leaves behind: the round is done, and each member has its entry. -/
structure Enters (s t : State) (w : Wg) (cluster : Bool) (k : Fin 8) (g : Signing) (op : Nat → MOp) : Prop where
  done : RoundDone s t w cluster k id g.len
  entries : ∀ p ∈ participants s w cluster (signedRound s w cluster k g),
    ∃ q, t.wg? p.id = some q ∧ ∃ e ∈ q.mq, e.op = op p.member ∧ e.begun = false ∧ e.done = false

section
variable {s : State} {w : Wg} {cluster : Bool} {k : Fin 8} {g : Signing} (h : LastSigner s w cluster k g)
include h

theorem signRound_enters {op : Nat → MOp} (hop : ∀ {ctxs u y}, Completes s w cluster k g ctxs u y →
    completeRound u y cluster k (signedRound s w cluster k g) =
      finishRound (enqueueAll u (participants u y cluster (signedRound s w cluster k g)) (signedRound s w cluster k g) op) y cluster k
        (signedRound s w cluster k g) (fun _ r => r)) :
    ∃ t, signRound s cluster k g = .next t ∧ Enters s t w cluster k g op := by
  obtain ⟨ctxs, u, y, hu, hex⟩ := signRound_completes h
  rw [hop hu] at hex
  obtain ⟨f, hf, hps⟩ := participants_signed h hu (signedRound s w cluster k g)
  have hnamed (p : Wg) (hp : p ∈ participants u y cluster (signedRound s w cluster k g)) : ∃ q, u.wg? p.id = some q :=
    wg?_of_mem_scopeWgs hu.stands (List.mem_filter.mp (mem_sortBy.mp hp)).1
  obtain ⟨z, hz⟩ := enqueueAll_stands (kr := signedRound s w cluster k g) (op := op) (participants u y cluster (signedRound s w cluster k g)) u
    ⟨y, hu.stands.self⟩
  obtain ⟨m, hm⟩ := enqueueAll_cur (kr := signedRound s w cluster k g) (op := op) (participants u y cluster (signedRound s w cluster k g)) u
  rw [hu.cur] at hm
  refine ⟨_, hex, finishRound_done h hm hz hu.stands.id ((signRound_keeps cluster k g (Keeps.refl s)).keeps _ hex), fun p hp => ?_⟩
  have hfp : f p ∈ participants u y cluster (signedRound s w cluster k g) := by rw [hps]; exact List.mem_map_of_mem hp
  obtain ⟨q, hq, hentry⟩ := queued_enqueueAll (kr := signedRound s w cluster k g) (op := op) _ u hnamed (f p) hfp
  obtain ⟨hid, hmember⟩ := hf p
  rw [hid, ← finishRound_mq? _ y cluster k (signedRound s w cluster k g) (fun _ r => r)] at hq
  obtain ⟨x, hx, rfl⟩ := Option.map_eq_some_iff.mp hq
  exact ⟨x, hx, hmember ▸ hentry⟩

theorem LastSigner.sw_getD (i : Nat) : (signedRound s w cluster k g).sw.getD i 0 = g.sw.getD i 0 := by rw [← h.wide]

/-- A round of an MMA whose signers lie as SPLIT says (R250). -/
theorem signRound_mma {c : MmaCtl} {a b x : W64} {words : List Nat} (hg : g = Signing.plain (.mma c) words [a, b, x] 2) {m0 : Nat}
    (hm0 : m0 = ((participants s w cluster (signedRound s w cluster k g)).head?.map (·.member)).getD 0)
    (hsplit : Split.num c.split ≠ 1 → (participants s w cluster (signedRound s w cluster k g)).length = Split.num c.split ∧
      m0 % Split.num c.split = 0 ∧ ∀ p ∈ participants s w cluster (signedRound s w cluster k g), p.member < m0 + Split.num c.split) :
    ∃ t, signRound s cluster k g = .next t ∧
      Enters s t w cluster k g (fun m => .mma a b x c (if Split.num c.split = 1 then 0 else m - m0)) := by
  have hop : (signedRound s w cluster k g).op = .mma c := h.op.trans (by rw [hg]; rfl)
  refine signRound_enters h (fun {ctxs u y} hu => ?_)
  obtain ⟨f, hf, hps⟩ := participants_signed h hu (signedRound s w cluster k g)
  have hhead : ((participants u y cluster (signedRound s w cluster k g)).head?.map (·.member)).getD 0 = m0 := by
    rw [hm0, hps, List.head?_map, Option.map_map]
    exact congrArg (fun k => ((participants s w cluster (signedRound s w cluster _ g)).head?.map k).getD 0) (funext fun p => (hf p).2)
  have hfits : ¬(Split.num c.split ≠ 1 ∧ (!((participants u y cluster (signedRound s w cluster k g)).length == Split.num c.split &&
      m0 % Split.num c.split == 0 &&
      (participants u y cluster (signedRound s w cluster k g)).all (fun p => p.member < m0 + Split.num c.split))) = true) := by
    rintro ⟨hne, hbad⟩
    obtain ⟨hlen, hmult, hlt⟩ := hsplit hne
    rw [hps] at hbad
    simp [hlen, hmult, (hf _).2] at hbad
    obtain ⟨p, hp, hge⟩ := hbad
    exact absurd (hlt p hp) (by omega)
  simp only [completeRound, hop, finishMma, hhead, if_neg hfits, h.sw_getD]
  rw [hg]; rfl

theorem signRound_mdrain {c : DrainCtl} {a b x : W64} {words : List Nat} (hg : g = Signing.plain (.mdrain c) words [a, b, x] 2) :
    ∃ t, signRound s cluster k g = .next t ∧ Enters s t w cluster k g (fun _ => .mdrain a b x c) := by
  have hop : (signedRound s w cluster k g).op = .mdrain c := h.op.trans (by rw [hg]; rfl)
  refine signRound_enters h (fun {ctxs u y} _ => ?_)
  simp only [completeRound, hop, finishMdrain, h.sw_getD]
  rw [hg]; rfl

end

section
variable {p : Guard} {s : State} (hp : s.cur.r.holds p = true) {v : Wg} (hv : s.wgOf s.cur = some v) (hrest : s.cur.rest = none)
  (hfence : s.cur.fence = none) (hmops : s.cur.mops = [])
include hp hv hrest hfence

theorem onMatrix_next (n : Nat) (k : Wg → Out) : onMatrix p n s k = k v := by
  simp only [onMatrix, guarded_true hp, outside_none hrest, settled_none hfence, hv]

include hmops

theorem execMma_signs {xa xb xc : XReg} {c : MmaCtl} (hcheck : mmaCheck v (s.cur.r.getX xa) (s.cur.r.getX xb) (s.cur.r.getX xc) c = none) :
    execMma p xa xb xc c s = signRound s c.kcl c.k (Signing.plain (.mma c) (encode (.mma none xa xb xc c))
      [s.cur.r.getX xa, s.cur.r.getX xb, s.cur.r.getX xc] 2) := by
  simp only [execMma, onMatrix_next hp hv hrest hfence, unlessTrap, hcheck, drained_none hmops]

theorem execMdrain_signs {xa xb xc : XReg} {e : DrainCtl} (hcheck : mdrainCheck v (s.cur.r.getX xa) (s.cur.r.getX xb) e = none) :
    execMdrain p xa xb xc e s = signRound
      (if inLocal (s.cur.r.getX xa).toNat && inLocal (s.cur.r.getX xa + BitVec.ofNat 64 (64 * e.m.val + 63) * s.cur.r.getX xb).toNat then s
        else sideOn s) e.kcl e.k
      (Signing.plain (.mdrain e) (encode (.mdrain none xa xb xc e)) [s.cur.r.getX xa, s.cur.r.getX xb, s.cur.r.getX xc] 2) := by
  simp only [execMdrain, onMatrix_next hp hv hrest hfence, unlessTrap, hcheck, drained_none hmops]

end

end Sys2Proof.Machine

namespace Sys2Proof
open Machine

/-- Settles O39: both rounds complete by entering their operation for every participant (`signRound_enters`). -/
theorem matrixRoundsEnter : Obligations.MatrixRoundsEnter := by
  unfold Obligations.MatrixRoundsEnter
  intro g xa xb xc c e v w s hg hv hrest hfence hmops a b x entered
  refine ⟨fun hcheck hlast hsplit => ?mma, fun hcheck hlast => ?mdrain⟩
  case mma =>
    obtain ⟨t, ht, hdone, hentries⟩ := signRound_mma hlast rfl rfl hsplit
    exact ⟨t, (execMma_signs hg hv hrest hfence hmops hcheck).trans ht, hdone, hentries⟩
  case mdrain =>
    obtain ⟨t, ht, hdone, hentries⟩ := signRound_mdrain hlast rfl
    exact ⟨t, (execMdrain_signs hg hv hrest hfence hmops hcheck).trans ht, hdone, hentries⟩

end Sys2Proof
end

section
/-! PROOFS. FOPEN (R182-R184): the pushes are found possible in the state that the signing leaves, since a signing leaves translations
as they are; the heap's run; what each signer is given. -/

namespace Sys2Proof.Machine

/-! ## What the place of an address rests on (R18, R155, R312-R314) -/

/-- A workgroup but for its convergence registers. -/
def Wg.sansK (w : Wg) : Wg := { w with k := Vector.replicate 8 KReg.init }

theorem Wg.allotment_of_sansK {a b : Wg} (h : a.sansK = b.sansK) : a.core = b.core ∧ a.base = b.base ∧ a.size = b.size :=
  ⟨(congrArg Wg.core h : a.sansK.core = b.sansK.core), (congrArg Wg.base h : a.sansK.base = b.sansK.base),
    (congrArg Wg.size h : a.sansK.size = b.sansK.size)⟩

/-- All that the place of an address rests on is the same. -/
structure SamePlaces (s t : State) : Prop where
  mem : t.mem = s.mem
  poison : t.poison = s.poison
  cfg : t.cfg = s.cfg
  cores : t.cores = s.cores
  l2 : t.l2 = s.l2
  launches : t.launches = s.launches
  descs : ∀ cid, (t.ctx? cid).map (·.desc) = (s.ctx? cid).map (·.desc)
  wgs : t.wgs.map Wg.sansK = s.wgs.map Wg.sansK
  members : ∀ n, (t.gang? n).map (·.members) = (s.gang? n).map (·.members)

section
variable {s t : State} (h : SamePlaces s t)
include h

theorem SamePlaces.find? {p : Wg → Bool} (hp : ∀ w, p w.sansK = p w) : (t.wgs.find? p).map Wg.sansK = (s.wgs.find? p).map Wg.sansK := by
  have hfind (l : List Wg) : (l.map Wg.sansK).find? p = (l.find? p).map Wg.sansK := by
    rw [List.find?_map]
    exact congrArg (fun q => (l.find? q).map Wg.sansK) (funext hp)
  rw [← hfind, ← hfind, h.wgs]

theorem SamePlaces.wgOf (x : Thread) : (t.wgOf x).map Wg.sansK = (s.wgOf x).map Wg.sansK := by
  unfold State.wgOf
  cases refWg x.ref with
  | none => rfl
  | some n => exact h.find? (fun _ => rfl)

theorem SamePlaces.stackRange (x : Thread) : stackRange t x = stackRange s x := by
  have hlrec {a b : Option Wg} (hab : a.map Wg.sansK = b.map Wg.sansK) : a.bind t.lrecOf = b.bind s.lrecOf := by
    have hbind (c : Option Wg) (v : State) : c.bind v.lrecOf = (c.map Wg.sansK).bind v.lrecOf := by cases c <;> rfl
    have hlaunch : t.lrecOf = s.lrecOf := by
      funext w
      rw [State.lrecOf, State.lrecOf, State.launch?_congr h.launches]
    rw [hbind a, hbind b, hab, hlaunch]
  rw [Machine.stackRange, Machine.stackRange, hlrec (h.wgOf x)]

theorem SamePlaces.walkGo (va l : Nat) : ∀ tbl, walkGo t va tbl l = walkGo s va tbl l := by
  have hget (a : Nat) : t.get a 8 = s.get a 8 := by rw [State.get, State.get, h.mem]
  have hpoisoned (a : Nat) : t.poisoned a 8 = s.poisoned a 8 := by rw [State.poisoned, State.poisoned, h.poison]
  induction l with
  | zero => intro tbl; simp only [Machine.walkGo, hget, hpoisoned]
  | succ l ih => intro tbl; simp only [Machine.walkGo, hget, hpoisoned, ih]

theorem SamePlaces.walk (cid va : Nat) : walk t cid va = walk s cid va := by
  have hwalk (v : State) : Machine.walk v cid va =
      ((v.ctx? cid).map (·.desc)).elim .absent (fun d => Machine.walkGo v va d.troot 3) := by
    unfold Machine.walk
    cases v.ctx? cid <;> rfl
  rw [hwalk, hwalk, h.descs]
  cases (s.ctx? cid).map (·.desc) with
  | none => rfl
  | some d => exact h.walkGo va 3 d.troot

theorem SamePlaces.xlate (core cid va kind : Nat) : (xlate t core cid va kind).1 = (xlate s core cid va kind).1 := by
  have hleaf (ent : W64) (level : Nat) : leafKey t ent level va kind = leafKey s ent level va kind := by rw [leafKey, leafKey, h.cfg]
  simp only [Machine.xlate, State.core_congr h.cores, h.l2, h.walk]
  cases (if hasL1 core then tlbFind (s.core core).tlb cid va else none) with
  | some e => exact hleaf _ _
  | none =>
    cases (if hasL1 core then tlbFind (s.l2[core / Config.coresPerDie % 4]'(Nat.mod_lt _ (by decide))) cid va else none) with
    | some e => exact hleaf _ _
    | none => cases Machine.walk s cid va with
      | leaf ent level => exact hleaf _ _
      | bad r => rfl
      | absent => rfl
      | memerr => rfl
      | hole pa => rfl

theorem SamePlaces.memberOn {a b : Wg} (hab : a.sansK = b.sansK) (q : Nat) : (memberOn t a q).map Wg.sansK = (memberOn s b q).map Wg.sansK := by
  have hmember (v : State) (w : Wg) : Machine.memberOn v w q =
      ((v.gang? w.sansK.gang).map (·.members)).bind (fun ms => v.wgs.find? (fun x => ms.contains x.id && x.core % 8 == q)) := by
    unfold Machine.memberOn
    rw [Option.bind_map]
    rfl
  rw [hmember, hmember, hab, h.members]
  cases (s.gang? b.sansK.gang).map (·.members) with
  | none => rfl
  | some ms => exact h.find? (fun _ => rfl)

theorem SamePlaces.resolve {a b : Option Wg} (hab : a.map Wg.sansK = b.map Wg.sansK) (core cid va n kind : Nat) :
    (resolve t a core cid va n kind).1 = (resolve s b core cid va n kind).1 := by
  unfold Machine.resolve
  split
  · exact h.xlate core cid va kind
  · cases a with
    | none => cases b with
      | none => rfl
      | some b => exact nomatch hab
    | some a => cases b with
      | none => exact nomatch hab
      | some b =>
        have hab' : a.sansK = b.sansK := Option.some.inj hab
        obtain ⟨hcore, hbase, hsize⟩ := Wg.allotment_of_sansK hab'
        have hmember : (if (va - clusterBase) / 16777216 < 8 then Machine.memberOn t a ((va - clusterBase) / 16777216) else none).map Wg.sansK
            = (if (va - clusterBase) / 16777216 < 8 then Machine.memberOn s b ((va - clusterBase) / 16777216) else none).map Wg.sansK := by
          split
          · exact h.memberOn hab' _
          · rfl
        dsimp only
        rw [hcore, hbase, hsize]
        generalize (if (va - clusterBase) / 16777216 < 8 then Machine.memberOn t a ((va - clusterBase) / 16777216) else none) = x at hmember ⊢
        generalize (if (va - clusterBase) / 16777216 < 8 then Machine.memberOn s b ((va - clusterBase) / 16777216) else none) = y at hmember ⊢
        split
        · rfl
        · split
          · cases x with
            | none => cases y with
              | none => rfl
              | some y => exact nomatch hmember
            | some x => cases y with
              | none => exact nomatch hmember
              | some y =>
                obtain ⟨hcore', hbase', hsize'⟩ := Wg.allotment_of_sansK (Option.some.inj hmember)
                dsimp only
                rw [hcore', hbase', hsize']
          · rfl

theorem SamePlaces.pushCheck (x : Thread) (addr low : Nat) : pushCheck t x addr low = pushCheck s x addr low := by
  unfold Machine.pushCheck
  rw [h.stackRange, h.resolve (h.wgOf x)]

end

/-! ## A release beside other logs (R204) -/

section
variable (s : State) (ctxs : List Ctx)

theorem State.put_withCtxs (who : TRef) (key : Nat) (bs : List Byte) :
    ({ s with ctxs } : State).put who key bs = { s.put who key bs with ctxs } := by
  unfold State.put
  split <;> rfl

theorem State.onCore_withCtxs (n : Nat) (f : Core → Core) : ({ s with ctxs } : State).onCore n f = { s.onCore n f with ctxs } := by
  unfold State.onCore
  dsimp only
  split <;> rfl

theorem foldl_withCtxs {α : Type} {f : State → α → State} (hf : ∀ (s : State) a, f { s with ctxs } a = { f s a with ctxs }) (l : List α) :
    l.foldl f { s with ctxs } = { l.foldl f s with ctxs } :=
  List.foldl_hom (fun s : State => { s with ctxs }) (g₁ := f) (g₂ := f) (init := s) hf

theorem writeBack_withCtxs (core : Nat) (x : Sector) (drop : Bool) :
    writeBack { s with ctxs } core x drop = { writeBack s core x drop with ctxs } := by
  have hbytes := foldl_withCtxs s ctxs (f := fun (s : State) i =>
      if x.dirty.getLsbD i && x.dirty != BitVec.allOnes 32 then s.put .none (32 * x.sec + i) [x.byte i] else s)
    (fun s i => by dsimp only; split; exacts [State.put_withCtxs s ctxs _ _ _, rfl]) (List.range 32)
  unfold writeBack
  dsimp only
  rw [hbytes]
  split
  · rw [State.putN, State.put_withCtxs, State.onCore_withCtxs]; rfl
  · rw [State.onCore_withCtxs]

theorem release_withCtxs (core cid scope : Nat) : release { s with ctxs } core cid scope = { release s core cid scope with ctxs } := by
  have hwritten : (if 3 ≤ scope && hasL1 core then writeBackAll { s with ctxs } core (fun x => x.cid == cid && x.dirty != 0) false
        else { s with ctxs }) =
      { (if 3 ≤ scope && hasL1 core then writeBackAll s core (fun x => x.cid == cid && x.dirty != 0) false else s) with ctxs } := by
    split
    · exact foldl_withCtxs s ctxs (f := fun s x => writeBack s core x false) (fun s x => writeBack_withCtxs s ctxs core x false) _
    · rfl
  unfold release
  dsimp only
  rw [hwritten]
  split <;> rfl

end

/-! ## The pushes that FOPEN tests (R183) -/

theorem setK_places (s : State) (w : Wg) (cluster : Bool) (k : Fin 8) (r : KReg) : SamePlaces s (setK s w cluster k r) := by
  unfold setK
  split
  · refine ⟨rfl, rfl, rfl, rfl, rfl, rfl, fun _ => rfl, rfl, fun n => ?_⟩
    have hfind (l : List Gang) : (l.find? (fun x => x.id == n)).map (·.members) =
        ((l.map (fun x => (x.id, x.members))).find? (fun x => x.1 == n)).map (·.2) := by
      rw [List.find?_map, Option.map_map]; rfl
    unfold State.gang?
    rw [hfind, hfind]
    refine congrArg (fun l : List (Nat × List Nat) => (l.find? (fun x => x.1 == n)).map (·.2)) (map_updFirst _ _ _ ?_ _)
    exact fun _ => rfl
  · refine ⟨rfl, rfl, rfl, rfl, rfl, rfl, fun _ => rfl, map_updFirst _ _ Wg.sansK ?_ _, fun _ => rfl⟩
    exact fun _ => rfl

theorem signed_withCtxs (s : State) (ctxs : List Ctx) (w : Wg) (cluster : Bool) (k : Fin 8) (g : Signing) :
    signed { s with ctxs } w cluster k g =
      (setK { release s s.cur.core s.cur.cid (if cluster then 3 else 1) with ctxs } w cluster k (signedRound s w cluster k g)).onCur
        (fun t => { t with wait := .sign cluster k.val }) :=
  congrArg (fun r : State => (setK r w cluster k (signedRound s w cluster k g)).onCur (fun t => { t with wait := .sign cluster k.val }))
    (release_withCtxs s ctxs _ _ _)

theorem setK_threads (s : State) (w : Wg) (cluster : Bool) (k : Fin 8) (r : KReg) : (setK s w cluster k r).threads = s.threads := by
  unfold setK; split <;> rfl

theorem thread?_onCur_wait {s t : State} (hcur : t.cur = s.cur) (hthreads : t.threads = s.threads) {wait : Wait} {r : TRef} {x : Thread}
    (hx : (t.onCur (fun y => { y with wait })).thread? r = some x) : ∃ z wait, s.thread? r = some z ∧ x = { z with wait } := by
  unfold State.thread? at hx ⊢
  rw [State.onCur_cur, State.onCur_threads, hcur, hthreads] at hx
  split at hx
  · rename_i hc
    exact ⟨s.cur, wait, if_pos hc, (Option.some.inj hx).symm⟩
  · rename_i hc
    exact ⟨x, x.wait, (if_neg hc).trans hx, rfl⟩

section
variable {s : State} {w : Wg} {cluster : Bool} {k : Fin 8} {g : Signing} {ctxs : List Ctx} {u : State} {y : Wg}
  (hu : Completes s w cluster k g ctxs u y)
include hu

/-- The state that the signing leaves differs from the one that its release leaves by nothing that a place rests on. -/
theorem signed_places : SamePlaces (release s s.cur.core s.cur.cid (if cluster then 3 else 1)) u := by
  have hset := setK_places { release s s.cur.core s.cur.cid (if cluster then 3 else 1) with ctxs } w cluster k (signedRound s w cluster k g)
  have hctxs := State.ctxs_of_still (release_still s s.cur.core s.cur.cid (if cluster then 3 else 1))
  have hdescs (cid : Nat) := (hset.descs cid).trans ((hu.descs cid).trans (congrArg (Option.map (·.desc)) (State.ctx?_congr hctxs cid).symm))
  rw [hu.state, signed_withCtxs]
  exact { hset with descs := hdescs }

/-- And a thread differs by no more than what it waits for. -/
theorem signed_thread? {r : TRef} {x : Thread} (hx : u.thread? r = some x) :
    ∃ z wait, (release s s.cur.core s.cur.cid (if cluster then 3 else 1)).thread? r = some z ∧ x = { z with wait } := by
  rw [hu.state, signed_withCtxs] at hx
  refine thread?_onCur_wait ?_ ?_ hx
  · exact setK_cur _ _ _ _ _
  · exact setK_threads _ _ _ _ _

/-- What the pushes are tested for holds in the state that the signing leaves where it holds in the one that its release leaves. -/
theorem signed_pushes {r : TRef} (hpush : ∀ th, (release s s.cur.core s.cur.cid (if cluster then 3 else 1)).thread? r = some th →
      th.hold.length < 8 ∧ ∃ key, pushCheck (release s s.cur.core s.cur.cid (if cluster then 3 else 1)) th (th.r.sp - 8).toNat
        (th.r.sp - 8).toNat = .ok key) {x : Thread} (hx : u.thread? r = some x) :
    x.hold.length < 8 ∧ ∃ key, pushCheck u x (x.r.sp - 8).toNat (x.r.sp - 8).toNat = .ok key := by
  obtain ⟨z, wait, hz, rfl⟩ := signed_thread? hu hx
  obtain ⟨hlen, key, hkey⟩ := hpush z hz
  exact ⟨hlen, key, ((signed_places hu).pushCheck _ _ _).trans hkey⟩

end

/-! ## The handle and the heap's run (R11, R184) -/

theorem handle_fields {scope gen base : Nat} (hscope : scope < 8) (hgen : gen < 8192) (hbase : base < 2 ^ 48) :
    hScope (handle scope gen base) = scope ∧ hGen (handle scope gen base) = gen := by
  have hnat : (handle scope gen base).toNat = scope * 2 ^ 61 + gen * 2 ^ 48 + base := by
    rw [handle, BitVec.toNat_ofNat]; omega
  constructor
  · rw [hScope, hnat, bits]; omega
  · rw [hGen, hnat, bits]; omega

theorem heapFind_le {runs : List (Nat × Nat)} {n lim : Nat} (fuel : Nat) : ∀ {o r : Nat}, heapFind runs n lim fuel o = some r → r + n ≤ lim := by
  induction fuel with
  | zero => exact nofun
  | succ fuel ih =>
    intro o r h
    unfold heapFind at h
    split at h
    · exact nomatch h
    · split at h
      · obtain rfl := Option.some.inj h; omega
      · exact ih h

section
variable (s : State) (y : Wg) (cluster : Bool) (o : Nat)

/-- The handle of the frame at an offset of a scope's heap (R11, R183). -/
def openHandle : W64 :=
  let hp := getHeap s y cluster
  let q := ((scopeWgs s y true).find? (fun x => x.member == 0)).map (fun x => x.core % 8)
  handle (if cluster then 3 else 1) hp.hgc.toNat (if cluster then (q.getD 0) * 16777216 + hp.off + o else hp.off + o)

/-- The frame's run is taken out of the heap (R184). -/
def takeRun (n : Nat) : State :=
  let hp := getHeap s y cluster
  setHeap s y cluster { hp with runs := hp.runs ++ [(o, frameBytes n)], hgc := BitVec.ofNat 13 (nextGen hp.hgc.toNat) }

theorem takeRun_cur (n : Nat) : (takeRun s y cluster o n).cur = s.cur := setHeap_cur _ _ _ _

theorem takeRun_stands {s : State} {y : Wg} {cluster : Bool} (h : Stands s y cluster y) (o n : Nat) :
    ∃ z, Stands (takeRun s y cluster o n) y cluster z ∧
      (getHeap (takeRun s y cluster o n) z cluster).runs = (getHeap s y cluster).runs ++ [(o, frameBytes n)] := by
  obtain ⟨z, hz, hheap⟩ := h.setHeap { getHeap s y cluster with
    runs := (getHeap s y cluster).runs ++ [(o, frameBytes n)], hgc := BitVec.ofNat 13 (nextGen (getHeap s y cluster).hgc.toNat) }
  exact ⟨z, hz, congrArg Heap.runs hheap⟩

theorem openHandle_fields {n : Nat} (hroom : (getHeap s y cluster).off + (getHeap s y cluster).size ≤ 16777216)
    (halloc : heapAlloc (getHeap s y cluster) (frameBytes n) = some o) :
    hScope (openHandle s y cluster o) = (if cluster then 3 else 1) ∧
      hGen (openHandle s y cluster o) = (getHeap s y cluster).hgc.toNat := by
  have hcore : (((scopeWgs s y true).find? (fun x => x.member == 0)).map (fun x => x.core % 8)).getD 0 < 8 := by
    cases (scopeWgs s y true).find? (fun x => x.member == 0) with
    | none => decide
    | some x => exact Nat.mod_lt _ (by decide)
  have hrun := heapFind_le _ halloc
  refine handle_fields ?_ (getHeap s y cluster).hgc.isLt ?_
  · split <;> decide
  · split <;> omega

end

/-- The header and the slots of the frame of a handle are written (R140, R183). -/
def writeFrame (s : State) (y : Wg) (h : W64) (n : Nat) (hd : Hdr) : State :=
  match sharedKey s y h (16 + 4 * n) with
  | .ok key => s.put .none key (bytesLE 16 hd.toNat ++ bytesLE (4 * n) 0)
  | .prot _ | .absent | .memerr | .hole _ => s

theorem writeFrame_of_ok {s : State} {y : Wg} {h : W64} {n key : Nat} (hk : sharedKey s y h (16 + 4 * n) = .ok key) (hd : Hdr) :
    writeFrame s y h n hd = s.put .none key (bytesLE 16 hd.toNat ++ bytesLE (4 * n) 0) := by
  simp only [writeFrame, hk]

theorem writeFrame_of_not_ok {s : State} {y : Wg} {h : W64} {n : Nat} (hk : ∀ key, sharedKey s y h (16 + 4 * n) ≠ .ok key) (hd : Hdr) :
    writeFrame s y h n hd = s := by
  unfold writeFrame
  split
  · rename_i hok; exact absurd hok (hk _)
  all_goals rfl

theorem writeFrame_sameScopes (s : State) (y : Wg) (h : W64) (n : Nat) (hd : Hdr) : SameScopes s (writeFrame s y h n hd) := by
  unfold writeFrame
  split
  · exact State.put_sameScopes _ _ _ _
  all_goals exact .refl s

theorem writeFrame_cur {s : State} (hfence : s.cur.fence = none) (y : Wg) (h : W64) (n : Nat) (hd : Hdr) :
    (writeFrame s y h n hd).cur = s.cur := by
  unfold writeFrame
  split
  · exact State.put_cur hfence _ _ _
  all_goals rfl

/-! ## What FOPEN gives each signer (R183) -/

/-- The push of a signer's old d[D], and its new hold. -/
def pushHandle (d : Fin 8) (h : W64) (s : State) (g : Sign) : State :=
  match s.thread? g.ref with
  | some t =>
    (match pushCheck s t (t.r.sp - 8).toNat (t.r.sp - 8).toNat with
      | .ok key => s.putN t.ref key 8 (t.r.getD d).toNat
      | .error _ => s).onThread t.ref (fun x => { x with hold := x.hold ++ [h], r := { x.r with sp := t.r.sp - 8 } })
  | none => s

theorem pushHandle_sameScopes (d : Fin 8) (h : W64) (s : State) (g : Sign) : SameScopes s (pushHandle d h s g) := by
  unfold pushHandle
  split
  · refine SameScopes.trans ?_ (State.onThread_sameScopes _ _ _)
    split
    · exact State.put_sameScopes _ _ _ _
    · exact .refl s
  · exact .refl s

section
variable {s : State} (hfence : s.cur.fence = none) (d : Fin 8) (h : W64)
include hfence

theorem pushHandle_other {g : Sign} (hne : g.ref ≠ s.cur.ref) : (pushHandle d h s g).cur = s.cur := by
  unfold pushHandle
  split
  · rename_i t ht
    have href : t.ref ≠ s.cur.ref := by rw [State.thread?_ref ht]; exact hne
    split
    · rw [State.onThread_other, State.putN, State.put_cur hfence]
      rw [State.putN, State.put_cur hfence]; exact href
    · rw [State.onThread_other href]
  · rfl

theorem pushHandle_selected {g : Sign} (hr : s.cur.ref ≠ .none) (heq : g.ref = s.cur.ref) :
    (pushHandle d h s g).cur = { s.cur with hold := s.cur.hold ++ [h], r := { s.cur.r with sp := s.cur.r.sp - 8 } } := by
  rw [pushHandle, heq, State.thread?_selected rfl hr]
  dsimp only
  split
  · rw [State.onThread_selected, State.onCur_cur, State.putN, State.put_cur hfence]
    rw [State.putN, State.put_cur hfence]
  · rw [State.onThread_selected rfl, State.onCur_cur]

theorem foldl_pushHandle_cur {l : List Sign} {z : Sign} (hr : s.cur.ref ≠ .none) (hl : ∀ x ∈ l, x.ref ≠ s.cur.ref) (hz : z.ref = s.cur.ref) :
    ((l ++ [z]).foldl (pushHandle d h) s).cur =
      { s.cur with hold := s.cur.hold ++ [h], r := { s.cur.r with sp := s.cur.r.sp - 8 } } := by
  have hothers : (l.foldl (pushHandle d h) s).cur = s.cur :=
    List.foldlRecOn (motive := fun t : State => t.cur = s.cur) l _ rfl (fun t ht x hx => by
      rw [pushHandle_other (by rw [ht, hfence]) d h (by rw [ht]; exact hl x hx), ht])
  rw [List.foldl_append, List.foldl_cons, List.foldl_nil, pushHandle_selected (by rw [hothers, hfence]) d h (by rwa [hothers]) (by rw [hothers, hz]),
    hothers]

end

/-- A round that opens its frame: the run out of the heap, the header in memory, then a push, a hold and the handle for each signer. -/
theorem finishFopen_opens {u : State} {y : Wg} {cluster : Bool} {kr : KReg} {n o : Nat} (hn : (kr.sw.headD 0).toNat = n) (h1 : 1 ≤ n)
    (h2 : n ≤ 1024) (hpush : ∀ x ∈ kr.signs, ∀ th, u.thread? x.ref = some th →
      th.hold.length < 8 ∧ ∃ key, pushCheck u th (th.r.sp - 8).toNat (th.r.sp - 8).toNat = .ok key)
    (halloc : heapAlloc (getHeap u y cluster) (frameBytes n) = some o) (k : Fin 8) (dep : Fin 8) : ∃ hd,
      finishFopen u y cluster k kr dep.val =
        finishRound (kr.signs.foldl (pushHandle dep (openHandle u y cluster o))
          (writeFrame (takeRun u y cluster o n) y (openHandle u y cluster o) n hd)) y cluster k kr
          (fun _ r => r.setD dep (openHandle u y cluster o)) := by
  have hsize : ¬(n = 0 ∨ 1024 < n) := by omega
  have hdep : Fin.ofNat 8 dep.val = dep := Fin.ext (Nat.mod_eq_of_lt dep.isLt)
  refine ⟨{ refc := kr.signs.length, size := n, depth := dep.val, scope := if cluster then 3 else 1, live := true, pad := 0
            gen := (getHeap u y cluster).hgc.toNat, retain := 0 }, ?_⟩
  simp only [finishFopen, hn, if_neg hsize, halloc, hdep]
  rw [if_neg ?good]
  case good =>
    rw [List.any_eq_true]
    rintro ⟨x, hx, hsome⟩
    cases hth : u.thread? x.ref with
    | none => rw [hth] at hsome; exact nomatch hsome
    | some th =>
      obtain ⟨hlen, key, hkey⟩ := hpush x hx th hth
      simp only [hth, Option.bind_some, if_neg (Nat.not_le.mpr hlen), hkey] at hsome
      exact nomatch hsome
  simp only [openHandle]
  generalize handle _ _ _ = h
  refine congrArg₂ (fun f v => finishRound (List.foldl f v kr.signs) y cluster k kr (fun _ r => r.setD dep h)) ?_ ?_
  · funext s g
    unfold pushHandle
    cases s.thread? g.ref with
    | none => rfl
    | some t => cases hk : pushCheck s t (t.r.sp - 8).toNat (t.r.sp - 8).toNat <;> simp only [hk]
  · have htake : setHeap u y cluster { getHeap u y cluster with
        runs := (getHeap u y cluster).runs ++ [(o, frameBytes n)]
        hgc := BitVec.ofNat 13 (nextGen (getHeap u y cluster).hgc.toNat) } = takeRun u y cluster o n := rfl
    rw [htake]
    generalize takeRun u y cluster o n = v
    cases hk : sharedKey v y h (16 + 4 * n) with
    | ok key => exact (writeFrame_of_ok hk _).symm
    | prot | absent | memerr | hole => exact (writeFrame_of_not_ok (by rw [hk]; exact nofun) _).symm

/-! ## FOPEN for its last signer (R182, R183) -/

section
variable {s : State} {w : Wg} {cluster : Bool} {k : Fin 8} {g : Signing} (h : LastSigner s w cluster k g)
include h

theorem signRound_fopen {dep : Fin 8} {x : W64} {words : List Nat} (hg : g = Signing.plain (.fopen dep.val) words [x] 1) {o : Nat}
    (h1 : 1 ≤ x.toNat) (h2 : x.toNat ≤ 1024)
    (hpush : ∀ y ∈ (signedRound s w cluster k g).signs, ∀ th,
      (release s s.cur.core s.cur.cid (if cluster then 3 else 1)).thread? y.ref = some th → th.hold.length < 8 ∧
        ∃ key, pushCheck (release s s.cur.core s.cur.cid (if cluster then 3 else 1)) th (th.r.sp - 8).toNat (th.r.sp - 8).toNat = .ok key)
    (hroom : (getHeap s w cluster).off + (getHeap s w cluster).size ≤ 16777216)
    (halloc : heapAlloc (getHeap s w cluster) (frameBytes x.toNat) = some o) :
    ∃ t hd z, signRound s cluster k g = .next t ∧
      t.cur = { s.cur with wait := .none, age := 0, hold := s.cur.hold ++ [hd]
                           r := ({ s.cur.r with sp := s.cur.r.sp - 8 }.setD dep hd).adv 1 } ∧
      hScope hd = (if cluster then 3 else 1) ∧ hGen hd = (getHeap s w cluster).hgc.toNat ∧
      t.wg? w.id = some z ∧ (getHeap t z cluster).runs = (getHeap s w cluster).runs ++ [(o, frameBytes x.toNat)] ∧
      (getK t z cluster k).st = .armed := by
  obtain ⟨ctxs, u, y, hu, hex⟩ := signRound_completes h
  have hop : (signedRound s w cluster k g).op = .fopen dep.val := h.op.trans (by rw [hg]; rfl)
  have hsize : ((signedRound s w cluster k g).sw.headD 0).toNat = x.toNat := by rw [← h.wide, hg]; rfl
  rw [← hu.heap] at hroom halloc
  obtain ⟨hdr, hopens⟩ := finishFopen_opens hsize h1 h2 (fun z hz th hth => signed_pushes hu (hpush z hz) hth) halloc k dep
  obtain ⟨hscope, hgen⟩ := openHandle_fields u y cluster o hroom halloc
  simp only [completeRound, hop, hopens] at hex
  have hfence : u.cur.fence = none := by rw [hu.cur]; exact h.idle.1
  have hwritten : (writeFrame (takeRun u y cluster o x.toNat) y (openHandle u y cluster o) x.toNat hdr).cur = u.cur := by
    rw [writeFrame_cur, takeRun_cur]
    rw [takeRun_cur]; exact hfence
  have href : u.cur.ref = s.cur.ref := by rw [hu.cur]
  obtain ⟨l, hl, hothers⟩ := h.signs
  have hpushed := foldl_pushHandle_cur (l := l) (z := ownSign s w cluster g) (hwritten ▸ hfence) dep (openHandle u y cluster o)
    (by rw [hwritten, href]; exact h.thread.1) (by rw [hwritten, href]; exact hothers) (by rw [hwritten, href]; rfl)
  rw [← hl, hwritten] at hpushed
  obtain ⟨z, hz, hheap⟩ := takeRun_stands hu.stands.self o x.toNat
  have hsame := (writeFrame_sameScopes (takeRun u y cluster o x.toNat) y (openHandle u y cluster o) x.toNat hdr).trans
    (foldl_sameScopes (pushHandle_sameScopes dep (openHandle u y cluster o)) (signedRound s w cluster k g).signs _)
  obtain ⟨z', hz', harmed, hkept⟩ := finishRound_stands (hz.congr hsame) k (signedRound s w cluster k g)
    (fun _ r => r.setD dep (openHandle u y cluster o))
  have hcur := finishRound_cur h (by rw [hpushed]; exact href) y (fun _ r => r.setD dep (openHandle u y cluster o))
  have hlen : g.len = 1 := by rw [hg]; rfl
  rw [hpushed, hu.cur, hlen] at hcur
  rw [← hu.heap]
  refine ⟨_, openHandle u y cluster o, z', hex, hcur, hscope, hgen, hu.stands.id ▸ hz'.wg, ?_, by rw [harmed]; rfl⟩
  rw [hkept, getHeap_congr hsame, hheap]

end

theorem execFopen_signs {p : Guard} {s : State} (hp : s.cur.r.holds p = true) (hrest : s.cur.rest = none) (hfence : s.cur.fence = none)
    (hmops : s.cur.mops = []) (cluster : Bool) (dep : Fin 8) (a : XReg) (k : Fin 8) : execFopen p cluster dep a k s =
      signRound (if cluster then sideOn s else s) cluster k
        (Signing.plain (.fopen dep.val) (encode (.fopen none cluster dep a k)) [s.cur.r.getX a] 1) := by
  rw [execFopen, guarded_true hp, outside_none hrest, settled_none hfence, drained_none hmops]

end Sys2Proof.Machine

namespace Sys2Proof
open Machine

/-- Settles O42: the round opens its frame (`finishFopen_opens`), since what the signing changes beside its release is nothing that the
pushes rest on (`signed_pushes`). -/
theorem sharedFrameOpens : Obligations.SharedFrameOpens := by
  unfold Obligations.SharedFrameOpens
  intro g cl dep a k w s o hg s0 s1 n sg hp h1 h2 hlast hpush hroom halloc
  have hcur : s0.cur = s.cur := by
    show (if cl then sideOn s else s).cur = s.cur
    split
    · exact sideOn_cur s
    · rfl
  have hrel : s1 = release s0 s0.cur.core s0.cur.cid (if cl then 3 else 1) := by rw [hcur]
  rw [hrel] at hpush
  obtain ⟨t, h, z, ht, htcur, hscope, hgen, hz, hruns, harmed⟩ := signRound_fopen hlast rfl h1 h2 hpush hroom halloc
  obtain ⟨hfence, hmops⟩ := hlast.idle
  have hrest := hlast.thread.2
  rw [hcur] at hfence hmops hrest htcur
  have hex := (execFopen_signs hg hrest hfence hmops cl dep a k).trans ht
  refine ⟨t, h, z, hex, (execFopen_keeps g cl dep a k (Keeps.refl s)).keeps t hex, htcur, hscope, ?_, hz, hruns, harmed⟩
  rw [hgen, Nat.mod_eq_of_lt hp.hgc.isLt]

end Sys2Proof
end

section
/-! PROOFS. What becomes of the queues (R371). What the end of a thread or a workgroup, a kill and the end of a context give rise to leaves
them as they are (R165, R309, R317, R335); from that, the reset of a function (R378). -/

namespace Sys2Proof.Machine

/-! ## What agents' accesses leave of the queues -/

theorem State.queues_of_still {s t : State} (h : t.still = s.still) : t.queues = s.queues := congrArg (fun x => x.1.queues) h

/-- What leaves the queues at each element leaves them along a list. -/
theorem foldl_queues {α : Type} {f : State → α → State} (hf : ∀ s a, (f s a).queues = s.queues) (l : List α) (s : State) :
    (l.foldl f s).queues = s.queues :=
  List.foldlRecOn (motive := fun t : State => t.queues = s.queues) l f rfl (fun t ht a _ => (hf t a).trans ht)

theorem ite_queues {c : Prop} [Decidable c] {s t u : State} (ht : t.queues = s.queues) (hu : u.queues = s.queues) :
    (if c then t else u).queues = s.queues := by
  split <;> assumption

@[simp] theorem State.put_queues (s : State) (who : TRef) (key : Nat) (bs : List Byte) : (s.put who key bs).queues = s.queues :=
  State.queues_of_still (State.put_still _ _ _ _)

@[simp] theorem State.putN_queues (s : State) (who : TRef) (key n v : Nat) : (s.putN who key n v).queues = s.queues := State.put_queues _ _ _ _

@[simp] theorem agentWrite_queues (s : State) (who : TRef) (core cid scope : Nat) (hint : Hint) (key : Nat) (bs : List Byte) :
    (agentWrite s who core cid scope hint key bs).queues = s.queues :=
  State.queues_of_still (agentWrite_still _ _ _ _ _ _ _ _)

@[simp] theorem release_queues (s : State) (core cid scope : Nat) : (release s core cid scope).queues = s.queues :=
  State.queues_of_still (release_still _ _ _ _)

@[simp] theorem acquire_queues (s : State) (core cid scope : Nat) : (acquire s core cid scope).queues = s.queues :=
  State.queues_of_still (acquire_still _ _ _ _)

@[simp] theorem acquireBy_queues (s : State) (r : TRef) (scope : Nat) : (acquireBy s r scope).queues = s.queues := by
  unfold acquireBy
  split
  · exact acquire_queues _ _ _ _
  · rfl

theorem l1Load_still (s : State) (core cid key n : Nat) : (l1Load s core cid key n).2.still = s.still := by
  refine foldl_still (fun s sec => ite_still rfl (State.onCore_still s core ?_)) _ s
  exact fun _ => rfl

theorem agentRead_still (s : State) (core cid scope : Nat) (hint : Hint) (key n : Nat) :
    (agentRead s core cid scope hint key n).2.still = s.still := by
  unfold agentRead State.take
  split
  · split <;> rfl
  split
  · exact (l1Mark_still _ _ _ _ _).trans ((l1Load_still _ _ _ _ _).trans (l1Room_still _ _ _ _ _))
  · exact goHome_still _ _ _ _ _ _

@[simp] theorem agentRead_queues (s : State) (core cid scope : Nat) (hint : Hint) (key n : Nat) :
    (agentRead s core cid scope hint key n).2.queues = s.queues :=
  State.queues_of_still (agentRead_still _ _ _ _ _ _ _)

@[simp] theorem noteTail_queues (s : State) (tid : Nat) (r : TRef) (key n : Nat) : (noteTail s tid r key n).queues = s.queues :=
  State.queues_of_still (noteTail_still _ _ _ _ _)

@[simp] theorem noteStore_queues (s : State) (r : TRef) (cid : Nat) (m : Mop) (data : Nat) : (noteStore s r cid m data).queues = s.queues :=
  ite_queues (State.onThread_queues _ _ _) rfl

@[simp] theorem logWin_queues (s : State) (cid arb core slot : Nat) : (logWin s cid arb core slot).queues = s.queues := rfl

/-- The state that performing an access comes to, poison met or not. -/
def Perf.state : Perf → State
  | .done s | .poison s _ _ => s

@[simp] theorem Perf.done_state (s : State) : (Perf.done s).state = s := rfl

@[simp] theorem Perf.poison_state (s : State) (va pc : W64) : (Perf.poison s va pc).state = s := rfl

theorem perform_queues (s : State) (t : Thread) (m : Mop) : (perform s t m).state.queues = s.queues := by
  unfold perform
  cases m.kind with
  | load => simp [apply_ite Perf.state, apply_ite State.queues]
  | store => simp [apply_ite State.queues]
  | atom op ty =>
    dsimp only
    cases atomNew op ty _ _ _ <;> simp [apply_ite Perf.state, apply_ite State.queues]

@[simp] theorem performAll_queues (r : TRef) (ms : List Mop) : ∀ s : State, (performAll s r ms).queues = s.queues := by
  induction ms with
  | nil => exact fun _ => rfl
  | cons m ms ih =>
    intro s
    unfold performAll
    split
    · rfl
    · exact (ih _).trans (perform_queues s _ m)

/-! ## Rounds, barriers and shared frames (R175, R181, R185) -/

@[simp] theorem setK_queues (s : State) (w : Wg) (cluster : Bool) (k : Fin 8) (r : KReg) : (setK s w cluster k r).queues = s.queues :=
  ite_queues rfl rfl

@[simp] theorem setBar_queues (s : State) (w : Wg) (cluster : Bool) (id : Fin 16) (b : Bar) : (setBar s w cluster id b).queues = s.queues :=
  ite_queues rfl rfl

@[simp] theorem setHeap_queues (s : State) (w : Wg) (cluster : Bool) (h : Heap) : (setHeap s w cluster h).queues = s.queues :=
  ite_queues rfl rfl

/-- Threads that go on, one after the other, with an acquire each. -/
theorem wakeAcquire_queues (s : State) (r : TRef) (n scope : Nat) (f : Regs → Regs) : (acquireBy (wake s r n f) r scope).queues = s.queues :=
  (acquireBy_queues _ _ _).trans (State.onThread_queues _ _ _)

@[simp] theorem finishRound_queues (s : State) (w : Wg) (cluster : Bool) (k : Fin 8) (kr : KReg) (f : Sign → Regs → Regs) :
    (finishRound s w cluster k kr f).queues = s.queues :=
  (foldl_queues (fun _ _ => wakeAcquire_queues _ _ _ _ _) _ _).trans (setK_queues _ _ _ _ _)

@[simp] theorem failRound_queues (s : State) (w : Wg) (cluster : Bool) (k : Fin 8) (kr : KReg) (st : KState)
    (p : Thread → Option (BitVec 9 × W64 × W64)) : (failRound s w cluster k kr st p).queues = s.queues := by
  refine (foldl_queues (fun s g => ?_) _ _).trans (setK_queues _ _ _ _ _)
  split
  · split
    · exact State.onThread_queues _ _ _
    · rfl
  · rfl

@[simp] theorem finishFopen_queues (s : State) (w : Wg) (cluster : Bool) (k : Fin 8) (kr : KReg) (dep : Nat) :
    (finishFopen s w cluster k kr dep).queues = s.queues := by
  simp only [finishFopen]
  refine ite_queues (failRound_queues _ _ _ _ _ _ _) (ite_queues (failRound_queues _ _ _ _ _ _ _) ?_)
  split
  · exact failRound_queues _ _ _ _ _ _ _
  · refine (finishRound_queues _ _ _ _ _ _).trans ((foldl_queues (fun s g => ?_) _ _).trans ?_)
    · split
      · refine (State.onThread_queues _ _ _).trans ?_
        split
        · exact State.putN_queues _ _ _ _ _
        · rfl
      · rfl
    · split
      · exact (State.put_queues _ _ _ _).trans (setHeap_queues _ _ _ _)
      all_goals exact setHeap_queues _ _ _ _

@[simp] theorem enqueueAll_queues (s : State) (ps : List Wg) (kr : KReg) (op : Nat → MOp) : (enqueueAll s ps kr op).queues = s.queues := by
  refine foldl_queues (fun s p => ?_) ps s
  exact foldl_queues (fun _ _ => ite_queues (State.onThread_queues _ _ _) rfl) kr.signs (enqueue s p.id (op p.member)).2

@[simp] theorem completeRound_queues (s : State) (w : Wg) (cluster : Bool) (k : Fin 8) (kr : KReg) :
    (completeRound s w cluster k kr).queues = s.queues := by
  unfold completeRound
  split
  case h_4 => exact finishFopen_queues _ _ _ _ _ _
  case h_5 => simp only [finishMma, apply_ite State.queues, failRound_queues, finishRound_queues, enqueueAll_queues, ite_self]
  case h_6 => exact (finishRound_queues _ _ _ _ _ _).trans (enqueueAll_queues _ _ _ _)
  all_goals exact finishRound_queues _ _ _ _ _ _

theorem testRound_queues (s : State) (w : Wg) (cluster : Bool) (k : Fin 8) : (testRound s w cluster k).queues = s.queues :=
  ite_queues (completeRound_queues _ _ _ _ _) rfl

theorem testBar_queues (s : State) (w : Wg) (cluster : Bool) (id : Fin 16) : (testBar s w cluster id).queues = s.queues :=
  ite_queues ((foldl_queues (fun _ _ => wakeAcquire_queues _ _ _ _ _) _ _).trans (setBar_queues _ _ _ _ _)) rfl

theorem testScope_queues (s : State) (w : Nat) (cluster : Bool) : (testScope s w cluster).queues = s.queues := by
  refine (foldl_queues (fun s i => ?_) _ _).trans (foldl_queues (fun s i => ?_) _ _)
  all_goals dsimp only
  · split
    · exact testRound_queues _ _ _ _
    · rfl
  · split
    · exact testBar_queues _ _ _ _
    · rfl

theorem testGroups_queues (s : State) (w : Nat) : (testGroups s w).queues = s.queues :=
  (testScope_queues _ _ _).trans (testScope_queues _ _ _)

theorem releaseHold_queues (s : State) (w : Wg) (h : W64) : (releaseHold s w h).queues = s.queues := by
  unfold releaseHold
  split
  · exact ite_queues ((setHeap_queues _ _ _ _).trans (State.putN_queues _ _ _ _ _)) (State.putN_queues _ _ _ _ _)
  all_goals rfl

/-! ## The end of a thread and of a workgroup (R165, R244, R309, R310) -/

theorem exitHolds_queues (s : State) (t : Thread) (hold : List W64) : (exitHolds s t hold).queues = s.queues := by
  unfold exitHolds
  split
  · rfl
  · exact ite_queues rfl ((foldl_queues (fun _ _ => (releaseHold_queues _ _ _).trans (release_queues _ _ _ _)) _ _).trans
      (performAll_queues _ _ _))

theorem wlDone_queues (s : State) (t : Thread) (wl : Fin 4) : (wlDone s t wl).queues = s.queues := by
  unfold wlDone
  split
  · rfl
  · exact ite_queues (release_queues _ _ _ _) rfl

@[simp] theorem cancelRest_queues (s : State) (core : Nat) (p : RestEntry → Bool) : (cancelRest s core p).queues = s.queues :=
  State.onCore_queues _ _ _

theorem exitEffects_queues (s : State) (t : Thread) (fault : Bool) : (exitEffects s t fault).queues = s.queues := by
  refine (cancelRest_queues _ _ _).trans ((exitHolds_queues _ _ _).trans ((foldl_queues (fun s wl => ?_) _ _).trans ?_))
  · exact ite_queues rfl (wlDone_queues _ _ _)
  · split
    · exact State.onThread_queues _ _ _
    · exact State.onThread_queues _ _ _

@[simp] theorem devPut_queues (cid : Nat) (bs : List Byte) : ∀ (s : State) (va : Nat), (devPut s cid va bs).queues = s.queues := by
  induction bs with
  | nil => exact fun _ _ => rfl
  | cons b bs ih =>
    intro s va
    refine (ih _ _).trans ?_
    split
    · exact State.put_queues _ _ _ _
    · rfl

@[simp] theorem postEntry_queues (s : State) (cid : Nat) (entry : List Byte) : (postEntry s cid entry).queues = s.queues := by
  unfold postEntry
  split
  · rfl
  · simp only [ringPost]
    exact ite_queues rfl (ite_queues (devPut_queues _ _ _ _) ((devPut_queues _ _ _ _).trans (devPut_queues _ _ _ _)))

theorem poisonWaiters_queues (s : State) (key : Nat) : (poisonWaiters s key).queues = s.queues := by
  refine foldl_queues (fun s t => ?_) _ _
  split
  · exact ite_queues rfl rfl
  · rfl

theorem stopCopy_queues (s : State) (w : Wg) : (stopCopy s w).queues = s.queues := by
  refine foldl_queues (fun s raw => ?_) _ _
  split
  · exact ite_queues rfl ((poisonWaiters_queues _ _).trans (State.putN_queues _ _ _ _ _))
  · rfl

theorem terminate_queues (s : State) (w : Wg) (r : Report) : (terminate s w r).queues = s.queues := by
  simp only [terminate, postEntry_queues, State.onWg_queues, stopCopy_queues, State.onCore_queues, cancelRest_queues, testGroups_queues]
  exact foldl_queues (fun _ _ => exitEffects_queues _ _ _) _ _

/-! ## Kills (R309, R317, R335, R378) -/

theorem killWg_queues (s : State) (w : Nat) : (killWg s w).queues = s.queues := by
  unfold killWg
  split
  · exact ite_queues rfl (terminate_queues _ _ _)
  · rfl

theorem testIdle_queues (s : State) (cid : Nat) : (testIdle s cid).queues = s.queues :=
  testIdle_leaves (fun _ _ _ => rfl) State.put_queues s cid

theorem signalEnd_queues (s : State) (l : Launch) : (signalEnd s l).queues = s.queues := State.queues_of_still (signalEnd_still _ _)

theorem testLaunch_queues (s : State) (l : Nat) : (testLaunch s l).queues = s.queues := by
  unfold testLaunch
  split
  · rfl
  · split
    · exact (testIdle_queues _ _).trans (signalEnd_queues _ _)
    · rfl

theorem killSaved_queues (s : State) (cid : Nat) (v : Saved) : (killSaved s cid v).queues = s.queues := by
  refine (testIdle_queues _ _).trans ((testLaunch_queues _ _).trans ?_)
  exact foldl_queues (fun _ _ => killWg_queues _ _) _ _

theorem killCtx_queues (s : State) (cid : Nat) : (killCtx s cid).queues = s.queues := by
  refine (foldl_queues testLaunch_queues _ _).trans ((foldl_queues (fun _ _ => killSaved_queues _ _ _) _ _).trans ?_)
  exact foldl_queues killWg_queues _ _

theorem dropThread_queues (s : State) (r : TRef) : (dropThread s r).queues = s.queues :=
  ite_queues rfl rfl

theorem dropWg_queues (s : State) (w : Wg) : (dropWg s w).queues = s.queues := by
  refine (State.onCore_queues _ _ _).trans ?_
  exact foldl_queues (fun _ _ => dropThread_queues _ _) _ _

theorem dropGang_queues (s : State) (g : Gang) : (dropGang s g).queues = s.queues :=
  foldl_queues dropWg_queues _ _

theorem cleanCores_queues (s : State) (cid : Nat) : (cleanCores s cid).queues = s.queues :=
  foldl_queues (fun _ _ => State.queues_of_still (writeBackAll_still _ _ _ _)) _ _

theorem setCtxState_queues (s : State) (cid : Nat) (st : CState) : (setCtxState s cid st).queues = s.queues :=
  ite_queues (State.put_queues _ _ _ _) rfl

theorem destroyCtx_queues (s : State) (cid : Nat) : (destroyCtx s cid).queues = s.queues := by
  unfold destroyCtx
  split
  · rfl
  · simp only [setCtxState_queues, cleanCores_queues, foldl_queues dropGang_queues, killCtx_queues]

/-! ## The queues of a function (R371, R378) -/

theorem stopPacket_queues (s : State) (q : Nat) : (stopPacket s q).queues = s.queues := by
  refine foldl_queues (fun s k => ?_) _ s
  exact dropThread_queues s (.cur k.c)

theorem syncQueue_queues (s : State) (q : Nat) : (syncQueue s q).queues = s.queues := by
  unfold syncQueue
  split
  · rfl
  · exact ite_queues (State.put_queues _ _ _ _) rfl

theorem State.queue?_setQueue (s : State) {f : Queue → Queue} (hf : ∀ x, (f x).q = x.q) (n q : Nat) :
    (s.setQueue n f).queue? q = if q = n then (s.queue? q).map f else s.queue? q := by
  rw [State.queue?, State.setQueue, syncQueue_queues]
  split
  · subst n
    exact find_updFirst _ f (fun x hx => by rw [hf]; exact hx) _
  · rename_i hne
    refine find_updFirst_ne _ _ f (fun x hx => ?_) _
    have hx' : x.q ≠ q := fun e => hne (e.symm.trans (by simpa using hx))
    simp [hf, hx']

/-- A queue after a reset of its function: DISABLED, at HEAD and TAIL 0 (R378). -/
def Queue.reset (x : Queue) : Queue := { x with st := .disabled, quiesce := false, paused := none, head := 0, tail := 0 }

/-- The reset of one queue, with the packet that a curator runs of it. -/
def resetQueue (s : State) (x : Queue) : State := (stopPacket s x.q).setQueue x.q Queue.reset

theorem queue?_resetQueue (s : State) (x : Queue) (q : Nat) :
    (resetQueue s x).queue? q = if q = x.q then (s.queue? q).map Queue.reset else s.queue? q := by
  have hstop : (stopPacket s x.q).queue? q = s.queue? q := by rw [State.queue?, State.queue?, stopPacket_queues]
  rw [resetQueue, State.queue?_setQueue, hstop]
  exact fun _ => rfl

theorem queue?_foldl_resetQueue (l : List Queue) (q : Nat) : ∀ s : State,
    (l.foldl resetQueue s).queue? q = if q ∈ l.map (·.q) then (s.queue? q).map Queue.reset else s.queue? q := by
  induction l with
  | nil => exact fun _ => rfl
  | cons x l ih =>
    intro s
    rw [List.foldl_cons, ih, queue?_resetQueue]
    by_cases hx : q = x.q
    · cases s.queue? q <;> simp [hx, Queue.reset]
    · simp [hx]

theorem execFunctionLevelReset_resets (f : Nat) (s : State) : ∃ t, execFunctionLevelReset f s = .next t ∧
    ∀ q x, s.queue? q = some x → x.vf = f → t.queue? q = some x.reset := by
  refine ⟨_, rfl, fun q x hx hvf => ?_⟩
  have hmem : q ∈ (s.queues.filter (fun x => x.vf == f)).map (·.q) :=
    List.mem_map.mpr ⟨x, List.mem_filter.mpr ⟨List.mem_of_find?_eq_some hx, by simpa using hvf⟩, by simpa using List.find?_some hx⟩
  have hreset := queue?_foldl_resetQueue (s.queues.filter (fun x => x.vf == f)) q s
  rw [if_pos hmem, hx] at hreset
  rw [State.queue?, foldl_queues destroyCtx_queues, foldl_queues killCtx_queues]
  exact hreset

end Sys2Proof.Machine
end

section
/-! PROOFS. The events of the collective engine, the host and the fabric (R196, R334, R340, R363, R364, R368, R370, R378, R381, R382). -/

namespace Sys2Proof.Machine

/-! ## Collectives (R334, R368) -/

theorem collOf_congr {s t : State} (h : t.ctxs = s.ctxs) (cid g k : Nat) : collOf t cid g k = collOf s cid g k := by
  rw [collOf, collOf, State.ctx?_congr h]

/-- What a change of a context's collectives makes of one that is looked up. -/
theorem collOf_onCtx (s : State) (f : List Coll → List Coll) (cid g k : Nat) :
    collOf (s.onCtx cid (fun c => { c with colls := f c.colls })) cid g k =
      (s.ctx? cid).bind (fun c => (f c.colls).find? (fun x => x.g == g && x.k == k)) := by
  have hctx := State.ctx?_onCtx_self s (f := fun c : Ctx => { c with colls := f c.colls }) (fun _ => rfl) cid
  rw [collOf, hctx, Option.bind_map]
  rfl

theorem collOf_updFirst (s : State) {f : Coll → Coll} (hf : ∀ x, (f x).g = x.g ∧ (f x).k = x.k) (cid g k : Nat) :
    collOf (s.onCtx cid (fun c => { c with colls := updFirst (fun x => x.g == g && x.k == k) f c.colls })) cid g k =
      (collOf s cid g k).map f := by
  rw [collOf_onCtx s (fun l => updFirst (fun x => x.g == g && x.k == k) f l), collOf, Option.map_bind]
  exact congrArg (s.ctx? cid).bind (funext fun c => find_updFirst _ f (fun x hx => by rw [(hf x).1, (hf x).2]; exact hx) c.colls)

theorem collOf_dropColl (s : State) (cid g k : Nat) : collOf (dropColl s cid g k) cid g k = none := by
  rw [dropColl, collOf_onCtx s (fun l => l.filter (fun x => !(x.g == g && x.k == k)))]
  cases s.ctx? cid with
  | none => rfl
  | some c =>
    rw [Option.bind_some, List.find?_filter, List.find?_eq_none]
    intro x _ h
    cases hp : (x.g == g && x.k == k) <;> simp [hp] at h

theorem execCollChunk_moves {s : State} {cid g k : Nat} {x : Coll} {e : GroupEnt} {peers : List (List Byte)} {own : List Byte} {len : Nat}
    (hx : collOf s cid g k = some x) (he : groupAt s cid g = some e) (hrun : ctxState s cid = .running)
    (hlen : len = min 65536 (recvBytes x.cop e.n x.b - 65536 * x.next)) (hmore : 65536 * x.next < recvBytes x.cop e.n x.b)
    (hcount : peers.length = e.n) (hpeers : ∀ p ∈ peers, p.length = len)
    (hown : ownPart s cid x e.n e.rank (65536 * x.next) len = some own) :
    ∃ t, execCollChunk cid g k peers s = .next t ∧ collOf t cid g k = some { x with next := x.next + 1 } := by
  subst hlen
  have hall : peers.all (fun p => p.length == min 65536 (recvBytes x.cop e.n x.b - 65536 * x.next)) = true := by simpa using hpeers
  simp only [execCollChunk, hx, he, collChunkBytes, hrun, hmore, hcount, hall, hown, due, beq_self_eq_true, decide_true, Bool.and_self, if_true]
  refine ⟨_, rfl, (collOf_updFirst _ ?_ cid g k).trans ?_⟩
  · exact fun _ => ⟨rfl, rfl⟩
  · rw [collOf_congr (devPut_ctxs _ _ _ _)]
    exact congrArg (Option.map _) hx

theorem execCollectiveComplete_ends {s : State} {cid g k : Nat} {x : Coll} (hx : collOf s cid g k = some x)
    (hdone : recvBytes x.cop (groupSize s cid g) x.b ≤ 65536 * x.next) :
    ∃ t, execCollectiveComplete cid g k true s = .next t ∧ collOf t cid g k = none := by
  refine ⟨dropColl s cid g k, ?_, collOf_dropColl s cid g k⟩
  simp [execCollectiveComplete, hx, collChunkBytes, hdone, due]

/-! ## Ingress (R370) -/

theorem execIngressWrite_unbound {s : State} {f va : Nat} {bytes : List Byte} (hf : f ≤ 64) (hva : va + bytes.length ≤ 2 ^ 40)
    (hnone : boundCtx s f = none) : execIngressWrite f va bytes s = .next (ingressFault s f va) := by
  simp only [execIngressWrite, hf, hva, hnone, due, decide_true, Bool.and_self, if_true]

theorem execIngressRead_unbound {s : State} {f va n : Nat} (hf : f ≤ 64) (hva : va + n ≤ 2 ^ 40) (hnone : boundCtx s f = none) :
    execIngressRead f va n s = .next { ingressFault s f va with answers := s.answers ++ [.unsupported] } := by
  simp only [execIngressRead, hf, hva, hnone, due, decide_true, Bool.and_self, if_true]

section
variable {s : State} {f va cid key : Nat} (hf : f ≤ 64) (hbound : boundCtx s f = some cid) (hlive : replaying s cid = false)
  (hsys : isSys key = false)
include hf hbound hlive hsys

theorem execIngressWrite_writes {bytes : List Byte} (hva : va + bytes.length ≤ 2 ^ 40)
    (hone : sectorPieces va bytes.length = [(va, bytes.length)])
    (hplace : hubPlaces s cid 2 [(va, bytes.length)] = some [(key, va, bytes.length)]) :
    ∃ t, execIngressWrite f va bytes s = .next t ∧ t.mem = writeBytes s.mem key bytes := by
  refine ⟨(noteIngress (s.put .none key bytes) cid 0 va key bytes).drainEgress, ?_, State.put_mem hsys _ _⟩
  simp only [execIngressWrite, hf, hva, hbound, hone, hplace, hlive, due, decide_true, Bool.and_self, if_true, Bool.false_eq_true, if_false,
    ingressPieces, List.take_length]

theorem execIngressRead_answers {n : Nat} (hva : va + n ≤ 2 ^ 40) (hone : sectorPieces va n = [(va, n)])
    (hplace : hubPlaces s cid 1 [(va, n)] = some [(key, va, n)]) (hclean : s.poisoned key n = false) :
    ∃ t, execIngressRead f va n s = .next t ∧ t.answers = s.answers ++ [.data (readBytes s.mem key n)] := by
  refine ⟨{ s with answers := s.answers ++ [.data (readBytes s.mem key n)] }, ?_, rfl⟩
  have htake : s.take key n = (readBytes s.mem key n, s) := by simp [State.take, hsys]
  simp only [execIngressRead, hf, hva, hbound, hone, hplace, hlive, due, decide_true, Bool.and_self, if_true, Bool.false_eq_true, if_false,
    List.any_cons, List.any_nil, hclean, Bool.and_false, Bool.or_self, List.foldl_cons, List.foldl_nil, htake, List.nil_append]

end

/-! ## Failures (R382) -/

theorem execCoreFailure_counts {s : State} {core : Nat} (hcore : core < 384) (hin : s.outClusters.contains (core / 8) = false) :
    ∃ t, execCoreFailure core s = .next t ∧
      if s.spares.contains (core / 8) then t.spares = s.spares ∧ t.outClusters = s.outClusters ++ [core / 8]
      else t.spares = s.spares ++ [core / 8] ∧ t.outClusters = s.outClusters := by
  have hdue : (core < Config.cores && !s.outClusters.contains (core / 8)) = true := by
    rw [hin, Bool.not_false, Bool.and_true]
    exact decide_eq_true hcore
  have hfails (s0 s : State) (n : Nat) (h : Keeps s0 s) : Keeps s0 (emptyCore (failWgs s n) n) := emptyCore_keeps n (failWgs_keeps n h)
  simp only [execCoreFailure, hdue, due, if_true]
  cases s.spares.contains (core / 8)
  · have h := hfails _ _ core (Keeps.refl { s with spares := s.spares ++ [core / 8] })
    exact ⟨_, rfl, h.spares, h.outClusters⟩
  · have h := Keeps.foldl (fun s i => emptyCore (failWgs s (8 * (core / 8) + i)) (8 * (core / 8) + i)) (List.range 8)
      (Keeps.refl { s with outClusters := s.outClusters ++ [core / 8] }) (fun s i h => hfails _ s _ h)
    exact ⟨_, rfl, h.spares, h.outClusters⟩

theorem execAttestationQuote_signs {s : State} {cid : Nat} {c : Ctx} {nonce : List Byte} (hc : s.ctx? cid = some c) (hlen : nonce.length = 32) :
    execAttestationQuote cid nonce s = .next { s with
      quote := s.quote ++ [(c.measure ++ bytesLE 8 c.attest.length ++ nonce) ++
        Config.falconSign (c.measure ++ bytesLE 8 c.attest.length ++ nonce)] } := by
  simp only [execAttestationQuote, hc, hlen, due, beq_self_eq_true, if_true]

/-! ## Links (R363) -/

theorem getLsbD_one_shiftLeft {n i : Nat} (hi : i < n) (q : Nat) : (1#n <<< q).getLsbD i = decide (i = q) := by
  rw [← BitVec.twoPow_eq, BitVec.getLsbD_twoPow]
  by_cases h : q = i
  · simp [h, hi]
  · simp [h, Ne.symm h]

theorem getLsbD_port (p i : Fin 36) : (1#36 <<< p.val).getLsbD i = (i == p) := by
  rw [getLsbD_one_shiftLeft i.isLt, decide_eq_decide.mpr Fin.ext_iff.symm]; rfl

theorem execLinkFailure_links (s : State) (p : Fin 36) : ∃ t, execLinkFailure p s = .next t ∧
    ∀ i : Fin 36, t.links.getLsbD i = (s.links.getLsbD i && i != p) := by
  refine ⟨_, rfl, fun i => ?_⟩
  have hbit : (s.links &&& ~~~(1#36 <<< p.val)).getLsbD i = (s.links.getLsbD i && i != p) := by
    rw [BitVec.getLsbD_and, BitVec.getLsbD_not, getLsbD_port, decide_eq_true i.isLt, Bool.true_and]; rfl
  split
  · rw [(failAll_keeps (Keeps.refl _)).links.1]; exact hbit
  · exact hbit

theorem execLinkUp_links (s : State) (p : Fin 36) : ∃ t, execLinkUp p s = .next t ∧
    ∀ i : Fin 36, t.links.getLsbD i = (s.links.getLsbD i || i == p) :=
  ⟨_, rfl, fun i => by rw [BitVec.getLsbD_or, getLsbD_port]⟩

theorem execPodLeave_leaves {s : State} (hin : s.inPod = true) : ∃ t, execPodLeave s = .next t ∧ t.inPod = false := by
  simp only [execPodLeave, hin, due, if_true]
  exact ⟨_, rfl, (failAll_keeps (Keeps.refl _)).links.2⟩

/-! ## Peers' accesses (R364) -/

section
variable {s : State} {p : Fin 36} {pa : Nat} (hup : s.links.getLsbD p = true) (hpa : pa < 2 ^ 44) (hfirst : keyOk pa = true)
include hup hpa hfirst

theorem execNgurilIngress_reads {n : Nat} (hlast : keyOk (pa + n - 1) = true) :
    execNgurilIngress p pa (.read n) s = .next { s with answers := s.answers ++ [readAnswer s pa n] } := by
  simp only [execNgurilIngress, hup, hpa, hfirst, hlast, due, decide_true, Bool.and_self, if_true]

theorem execNgurilIngress_writes {bytes : List Byte} (hlast : keyOk (pa + bytes.length - 1) = true)
    (hone : sectorPieces pa bytes.length = [(pa, bytes.length)]) (hsys : isSys pa = false) (hfree : archMapped s 2 pa = []) :
    ∃ t, execNgurilIngress p pa (.write bytes false) s = .next t ∧ t.mem = writeBytes s.mem pa bytes := by
  have hnote (l : List (Nat × Nat)) (u : State) :
      (l.foldl (fun s x => noteIngress s x.1 (p.val + 1) x.2 pa bytes) u).mem = u.mem :=
    List.foldlRecOn (motive := fun t : State => t.mem = u.mem) l _ rfl (fun _ ht _ _ => ht)
  simp only [execNgurilIngress, hup, hpa, hfirst, hlast, due, decide_true, Bool.and_self, if_true, hone, peerWrite, peerPiece, hfree,
    List.isEmpty_nil, Bool.not_true, Bool.false_and, Bool.false_eq_true, if_false, List.take_length]
  exact ⟨_, rfl, (hnote _ _).trans (State.put_mem hsys _ _)⟩

end

/-! ## VMODE_WRITE (R196) -/

theorem getLsbD_foldl_quarters (l : List Nat) {i : Nat} (hi : i < 192) : ∀ m : BitVec 192,
    (l.foldl (fun m q => m ||| (1#192 <<< q)) m).getLsbD i = (m.getLsbD i || decide (i ∈ l)) := by
  induction l with
  | nil => simp
  | cons q l ih =>
    intro m
    rw [List.foldl_cons, ih, BitVec.getLsbD_or, getLsbD_one_shiftLeft hi, Bool.or_assoc]
    simp

theorem execVmodeWrite_keeps_mapped (s : State) (v : BitVec 192) : ∃ t, execVmodeWrite v s = .next t ∧
    ∀ i < 192, t.cfg.vmode.getLsbD i = if i ∈ mappedQuarters s then s.cfg.vmode.getLsbD i else v.getLsbD i := by
  refine ⟨_, rfl, fun i hi => ?_⟩
  simp only [BitVec.getLsbD_or, BitVec.getLsbD_and, BitVec.getLsbD_not, getLsbD_foldl_quarters _ hi, hi]
  by_cases h : i ∈ mappedQuarters s <;> simp [h]

end Sys2Proof.Machine

namespace Sys2Proof
open Machine

/-- Settles O60: kills and ends change no queue (`destroyCtx_queues`), so the reset of a function leaves each of its queues as
`queue?_foldl_resetQueue` says; failures of cores and links keep the counts and the links (`Keeps`). -/
theorem hostAndFabricEvents : Obligations.HostAndFabricEvents := by
  unfold Obligations.HostAndFabricEvents
  intro s
  refine ⟨fun cid g k x hx => ⟨?chunk, execCollectiveComplete_ends hx⟩,
    fun f va hf => ⟨fun hnone => ⟨fun bytes hva => execIngressWrite_unbound hf hva hnone, ?deny⟩,
      fun cid key hbound hlive hsys => ⟨?write, ?read⟩⟩,
    ?reset, fun core => execCoreFailure_counts, fun n => ⟨rfl, rfl, rfl⟩, fun cid c nonce => execAttestationQuote_signs,
    fun p => ⟨execLinkFailure_links s p, execLinkUp_links s p, rfl, execPodLeave_leaves,
      fun pa hup hpa hfirst => ⟨fun n => ?peerRead, ?peerWrite⟩⟩,
    execVmodeWrite_keeps_mapped s⟩
  case chunk =>
    intro e peers own he hrun o len hmore hcount hpeers hown
    exact execCollChunk_moves hx he hrun rfl hmore hcount hpeers hown
  case deny => exact fun n hva => ⟨_, execIngressRead_unbound hf hva hnone, rfl⟩
  case write =>
    intro bytes hva hone hplace hwf
    obtain ⟨t, hex, hmem⟩ := execIngressWrite_writes hf hbound hlive hsys hva hone hplace
    exact ⟨t, hex, fun a => by rw [hmem]; exact memGet_writeBytes bytes key a hwf⟩
  case read => exact fun n => execIngressRead_answers hf hbound hlive hsys
  case reset =>
    intro f
    obtain ⟨t, hex, hreset⟩ := execFunctionLevelReset_resets f s
    exact ⟨t, hex, fun q x hx hvf => ⟨_, hreset q x hx hvf, rfl, rfl, rfl⟩⟩
  case peerRead => exact execNgurilIngress_reads hup hpa hfirst
  case peerWrite =>
    intro bytes hlast hone hsys hfree hwf
    obtain ⟨t, hex, hmem⟩ := execNgurilIngress_writes hup hpa hfirst hlast hone hsys hfree
    exact ⟨t, hex, fun a => by rw [hmem]; exact memGet_writeBytes bytes pa a hwf⟩

end Sys2Proof
end

section
/-! PROOFS. The state after module reset (R317, R340, R362, R382). -/

namespace Sys2Proof.Machine

theorem ctxState_reset (cid : Nat) : ctxState State.reset cid = .free := rfl

theorem core_reset (n : Nat) : State.reset.core n = Core.init n := rfl

/-- Every function's register binds no context (R362). -/
theorem readRegister_reset_functx {f : Nat} (hf : f < 65) : readRegister State.reset (0x100 + 8 * f) = 0 := by
  have hoff : (0x100 + 8 * f - 0x100) / 8 = f := by omega
  have hreg : State.reset.cfg.functx[f]? = some 0 := by
    rw [Vector.getElem?_eq_getElem hf]
    exact congrArg some (Vector.getElem_replicate hf)
  unfold readRegister
  simp only [hoff, hreg]
  rw [if_neg (by omega), if_neg (by omega), if_neg (by omega), if_neg (by omega), if_neg (by omega), if_neg (by omega),
    if_neg (by omega), if_neg (by omega), if_neg (by omega), if_neg (by omega), if_neg (by omega), if_neg (by omega),
    if_neg (by omega), if_neg (by omega), if_pos (by omega)]
  rfl

end Sys2Proof.Machine

namespace Sys2Proof
open Machine

/-- Settles O1: the listed registers by evaluation, those of the functions by their common reset value. -/
theorem resetState : Obligations.ResetState := by
  unfold Obligations.ResetState
  refine ⟨rfl, rfl, ctxState_reset, by decide, fun f => readRegister_reset_functx, by decide, by decide, by decide, rfl, rfl, rfl, rfl, rfl,
    rfl, rfl, fun n => ?_, rfl, rfl⟩
  rw [core_reset]
  exact ⟨rfl, rfl⟩

end Sys2Proof
end

section
/-! PROOFS. Transaction barriers (R237-R241): the 128 bits of a barrier read back, the test after an update, and TBINIT, TBARRIVE,
TBEXPECT, TBTEST and TBWAIT at a barrier's place. -/

namespace Sys2Proof.Machine

theorem State.onRegs_cur_of {t : State} {c : Thread} (h : t.cur = c) (f : Regs → Regs) : (t.onRegs f).cur = { c with r := f c.r } := by
  rw [← h]; rfl

/-! ## The object (R238) -/

/-- The fields of a barrier are in the ranges of their bits. -/
structure TBar.Fits (b : TBar) : Prop where
  phase : b.phase < 2 ^ 4
  pendarr : b.pendarr < 2 ^ 16
  reload : b.reload < 2 ^ 16
  low : -2 ^ 31 ≤ b.pendsec
  high : b.pendsec < 2 ^ 31

theorem bits_lt (w lo n : Nat) : bits w lo n < 2 ^ n := Nat.mod_lt _ (Nat.two_pow_pos n)

theorem TBar.fits_ofNat (w : Nat) : (TBar.ofNat w).Fits where
  phase := bits_lt w 0 4
  pendarr := bits_lt w 4 16
  reload := bits_lt w 20 16
  low := BitVec.le_toInt (BitVec.ofNat 32 (bits w 36 32))
  high := BitVec.toInt_lt (x := BitVec.ofNat 32 (bits w 36 32))

theorem TBar.toNat_lt {b : TBar} (h : b.Fits) : b.toNat < 256 ^ 16 := by
  obtain ⟨hp, ha, hr, -, -⟩ := h
  have hs := (BitVec.ofInt 32 b.pendsec).isLt
  have hf : (if b.poison then 2 ^ 68 else 0) ≤ 2 ^ 68 := by split <;> omega
  unfold TBar.toNat
  omega

theorem TBar.ofNat_toNat {b : TBar} (h : b.Fits) : TBar.ofNat b.toNat = b := by
  obtain ⟨phase, pendarr, reload, pendsec, poison⟩ := b
  obtain ⟨hp, ha, hr, hlow, hhigh⟩ := h
  simp only at hp ha hr hlow hhigh
  have hs := (BitVec.ofInt 32 pendsec).isLt
  have hsec : (BitVec.ofInt 32 pendsec).toInt = pendsec := by
    rw [BitVec.toInt_ofInt]; exact Int.bmod_eq_of_le (by omega) (by omega)
  generalize hu : (BitVec.ofInt 32 pendsec).toNat = u at hs
  have hback : BitVec.ofNat 32 u = BitVec.ofInt 32 pendsec := by rw [← hu, BitVec.ofNat_toNat, BitVec.setWidth_eq]
  cases poison <;>
    simp only [TBar.ofNat, TBar.toNat, hu, bits, TBar.mk.injEq, Bool.false_eq_true, if_false, if_true] <;>
    refine ⟨by omega, by omega, by omega, ?_, ?_⟩
  · rw [show _ / 2 ^ 36 % 2 ^ 32 = u by omega, hback, hsec]
  · rw [beq_eq_false_iff_ne]; omega
  · rw [show _ / 2 ^ 36 % 2 ^ 32 = u by omega, hback, hsec]
  · rw [beq_iff_eq]; omega

/-- A barrier that shows no poison and nothing pending enters its next phase. -/
theorem TBar.test_eq (b : TBar) : b.test =
    if b.poison = false ∧ b.pendarr = 0 ∧ b.pendsec = 0 then { b with phase := (b.phase + 1) % 16, pendarr := b.reload } else b := by
  unfold TBar.test
  by_cases h : b.poison = false ∧ b.pendarr = 0 ∧ b.pendsec = 0
  · rw [if_pos h, if_pos (by simpa [and_assoc] using h), ← h.2.2]
  · rw [if_neg h, if_neg (by simpa [and_assoc] using h)]

theorem TBar.Fits.test {b : TBar} (h : b.Fits) : b.test.Fits := by
  rw [TBar.test_eq]
  split
  · exact ⟨Nat.mod_lt _ (by decide), h.reload, h.reload, h.low, h.high⟩
  · exact h

/-- The barrier that TBINIT writes with a count (R240). -/
def TBar.fresh (n : Nat) : TBar := { phase := 0, pendarr := n, reload := n, pendsec := 0, poison := false }

theorem TBar.fits_fresh {n : Nat} (h : n ≤ 65535) : (TBar.fresh n).Fits :=
  ⟨Nat.two_pow_pos 4, Nat.lt_succ_of_le h, Nat.lt_succ_of_le h, (by decide : (-2 ^ 31 : Int) ≤ 0), (by decide : (0 : Int) < 2 ^ 31)⟩

theorem TBar.Fits.arrived {b : TBar} (h : b.Fits) (n : Nat) : { b with pendarr := b.pendarr - n }.Fits :=
  ⟨h.phase, Nat.lt_of_le_of_lt (Nat.sub_le _ _) h.pendarr, h.reload, h.low, h.high⟩

theorem TBar.Fits.expecting {b : TBar} (h : b.Fits) {n : Nat} (hn : b.pendsec + n < 2147483648) : { b with pendsec := b.pendsec + n }.Fits :=
  ⟨h.phase, h.pendarr, h.reload, Int.le_trans h.low (Int.le_add_of_nonneg_right (Int.natCast_nonneg n)), hn⟩

/-! ## A barrier in memory -/

/-- The state with a barrier at a place. -/
def withBar (s : State) (who : TRef) (key : Nat) (b : TBar) : State := s.putN who key 16 b.toNat

/-- An update with its test leaves the tested barrier. -/
theorem updateBar_eq (s : State) (who : TRef) (key : Nat) (f : TBar → TBar) :
    updateBar s who key f = withBar s who key (f (TBar.ofNat (s.get key 16))).test := rfl

theorem withBar_cur {s : State} (h : s.cur.fence = none) (who : TRef) (key : Nat) (b : TBar) : (withBar s who key b).cur = s.cur :=
  State.put_cur h _ _ _

theorem withBar_holds {s : State} {who : TRef} {key : Nat} {b : TBar} (hsys : isSys key = false) (hwf : Memory.wf s.mem = true)
    (hb : b.Fits) : TBar.ofNat ((withBar s who key b).get key 16) = b := by
  rw [State.get, withBar, State.putN, State.put_mem hsys, readLE_writeBytes_bytesLE 16 key _ hwf, Nat.mod_eq_of_lt (TBar.toNat_lt hb),
    TBar.ofNat_toNat hb]

theorem withBar_only {s : State} {who : TRef} {key : Nat} (b : TBar) (hsys : isSys key = false) (hwf : Memory.wf s.mem = true) {x : Nat}
    (hx : x < key ∨ key + 16 ≤ x) : memGet (withBar s who key b).mem x = memGet s.mem x := by
  rw [withBar, State.putN, State.put_mem hsys, memGet_writeBytes _ _ _ hwf, length_bytesLE, if_neg (by omega)]

/-- Every place that a barrier may have is in a scratchpad (R239). -/
theorem isSys_of_barPlace {s : State} {addr : W64} {kind key sc : Nat} (h : barPlace s s.cur addr kind = .ok (key, sc)) :
    isSys key = false := by
  unfold barPlace at h
  simp only at h
  split at h
  · exact nomatch h
  split at h
  · exact nomatch h
  · rename_i hwin
    have hva : 2 ^ 56 ≤ addr.toNat := by
      have hwin' : inLocal addr.toNat = true ∨ inCluster addr.toNat = true := by
        simpa only [Bool.not_eq_true', Bool.not_eq_false, Bool.or_eq_true] using hwin
      rcases hwin' with h | h
      · exact Nat.le_trans (by decide) (of_decide_eq_true h : localBase ≤ addr.toNat)
      · exact Nat.le_trans (by decide) (of_decide_eq_true (Bool.and_eq_true_iff.mp h).1 : clusterBase ≤ addr.toNat)
    split at h
    · rename_i key' hres
      obtain rfl : key' = key := congrArg Prod.fst (Except.ok.inj h)
      exact isSys_of_isScratch (resolve_window (s' := (resolve s _ _ _ _ _ _).2) hva (Prod.ext hres rfl)).2
    all_goals exact nomatch h

/-! ## The instructions (R240, R241) -/

section
variable {g : Guard} {s : State} (hg : s.cur.r.holds g = true) (hrest : s.cur.rest = none) (hfence : s.cur.fence = none)
include hrest hfence

theorem onBar_goes {g : Guard} (hg : s.cur.r.holds g = true) {addr : W64} {kind key sc : Nat} (hplace : barPlace s s.cur addr kind = .ok (key, sc))
    (hfree : blocked s.cur key 16 true = false) (k : Nat → Nat → TBar → Out) :
    onBar g addr kind s k = k key sc (TBar.ofNat (s.get key 16)) := by
  simp only [onBar, guarded_true hg, outside_none hrest, settled_none hfence, orTrap, hplace, hfree, Bool.false_eq_true, if_false]

include hg

theorem execTbinit_writes {a : XReg} {c : TbCnt} {key sc : Nat} (hplace : barPlace s s.cur (s.cur.r.getX a) 2 = .ok (key, sc))
    (hfree : blocked s.cur key 16 true = false) (h1 : 1 ≤ (tbCount s.cur c).toNat) (h2 : (tbCount s.cur c).toNat ≤ 65535) :
    execTbinit g a c s = .next ((withBar s s.cur.ref key (TBar.fresh (tbCount s.cur c).toNat)).adv 1) := by
  have hn : ¬(tbCount s.cur c = 0 ∨ 65535 < (tbCount s.cur c).toNat) := by
    rintro (h | h)
    · rw [h] at h1; exact absurd h1 (by decide)
    · omega
  simp only [execTbinit, guarded_true hg, outside_none hrest, settled_none hfence, if_neg hn,
    onBar_goes hrest hfence (g := none) rfl hplace hfree]
  rfl

theorem execTbarrive_updates {d a : XReg} {c : TbCnt} {key sc : Nat} (hplace : barPlace s s.cur (s.cur.r.getX a) 3 = .ok (key, sc))
    (hfree : blocked s.cur key 16 true = false) (hpoison : (TBar.ofNat (s.get key 16)).poison = false)
    (hn : (tbCount s.cur c).toNat ≤ (TBar.ofNat (s.get key 16)).pendarr) (hmops : s.cur.mops = []) :
    execTbarrive g d a c s = .next
      ((updateBar (release s s.cur.core s.cur.cid sc) s.cur.ref key (fun b => { b with pendarr := b.pendarr - (tbCount s.cur c).toNat })).onRegs
        (fun r => (r.setX d (BitVec.ofNat 64 (TBar.ofNat (s.get key 16)).phase)).adv 1)) := by
  simp only [execTbarrive, onBar_goes hrest hfence hg hplace hfree, if_neg (Nat.not_lt.mpr hn), hpoison, Bool.false_eq_true, if_false,
    drained_none hmops, release_cur hfence rfl]

theorem execTbexpect_updates {a : XReg} {c : TbCnt} {key sc : Nat} (hplace : barPlace s s.cur (s.cur.r.getX a) 3 = .ok (key, sc))
    (hfree : blocked s.cur key 16 true = false) (hpoison : (TBar.ofNat (s.get key 16)).poison = false)
    (hn : (tbCount s.cur c).toNat < 2147483648) (hsum : (TBar.ofNat (s.get key 16)).pendsec + (tbCount s.cur c).toNat < 2147483648) :
    execTbexpect g a c s = .next
      ((updateBar s s.cur.ref key (fun b => { b with pendsec := b.pendsec + (tbCount s.cur c).toNat })).adv 1) := by
  simp only [execTbexpect, guarded_true hg, outside_none hrest, settled_none hfence, if_neg (Nat.not_le.mpr hn),
    onBar_goes hrest hfence (g := none) rfl hplace hfree, if_neg (Int.not_le.mpr hsum), hpoison, Bool.false_eq_true, if_false]

theorem execTbtest_reads {d a : XReg} {c : TbCnt} {key sc : Nat} (hplace : barPlace s s.cur (s.cur.r.getX a) 1 = .ok (key, sc))
    (hfree : blocked s.cur key 16 true = false) (hpoison : (TBar.ofNat (s.get key 16)).poison = false) :
    execTbtest g d a c s = .next
      ((if (TBar.ofNat (s.get key 16)).phase = (tbCount s.cur c).toNat % 16 then s else acquire s s.cur.core s.cur.cid sc).onRegs
        (fun r => (r.setX d (if (TBar.ofNat (s.get key 16)).phase = (tbCount s.cur c).toNat % 16 then 0 else 1)).adv 1)) := by
  simp only [execTbtest, onBar_goes hrest hfence hg hplace hfree, hpoison, Bool.false_eq_true, if_false, bne_iff_ne, ne_eq, ite_not]

theorem execTbwait_goes {a p : XReg} {key sc : Nat} (hplace : barPlace s s.cur (s.cur.r.getX a) 1 = .ok (key, sc))
    (hfree : blocked s.cur key 16 true = false) (hpoison : (TBar.ofNat (s.get key 16)).poison = false)
    (hphase : (TBar.ofNat (s.get key 16)).phase ≠ (s.cur.r.getX p).toNat % 16) :
    execTbwait g a p s = .next ((acquire s s.cur.core s.cur.cid sc).adv 1) := by
  simp only [execTbwait, onBar_goes hrest hfence hg hplace hfree, hpoison, Bool.false_eq_true, if_false, if_pos hphase]

end

@[simp] theorem acquire_mem (s : State) (core cid scope : Nat) : (acquire s core cid scope).mem = s.mem := by
  unfold acquire; split
  · exact State.onCore_mem _ _ _
  · rfl

/-- A release at workgroup scope writes nothing back (R204). -/
theorem release_workgroup (s : State) (core cid : Nat) : release s core cid 1 = s := rfl

end Sys2Proof.Machine

namespace Sys2Proof
open Machine

/-- Settles O40: each update leaves its tested barrier at the place (`withBar_holds`), since its fields stay in the ranges of their bits;
the two that read change nothing but what an acquire drops. -/
theorem transactionBarriers : Obligations.TransactionBarriers := by
  unfold Obligations.TransactionBarriers
  intro g d a p c s key sc hg hrest hfence hwf
  have hfits := TBar.fits_ofNat (s.get key 16)
  refine ⟨fun hplace hfree h1 h2 => ?init, fun hplace hfree hpoison => ⟨fun hn hmops => ?arrive, fun hn hsum => ?expect⟩,
    fun hplace hfree hpoison => ⟨?test, fun hphase => ?wait⟩⟩
  case init =>
    have hsys := isSys_of_barPlace hplace
    have hex := execTbinit_writes hg hrest hfence hplace hfree h1 h2
    refine ⟨_, hex, (execTbinit_keeps g a c (Keeps.refl s)).keeps _ hex, ?_, ?_, fun x hx => withBar_only _ hsys hwf hx⟩
    · exact State.onRegs_cur_of (withBar_cur hfence _ key _) _
    · exact withBar_holds hsys hwf (TBar.fits_fresh h2)
  case arrive =>
    have hsys := isSys_of_barPlace hplace
    have hex := execTbarrive_updates (d := d) hg hrest hfence hplace hfree hpoison hn hmops
    have hrel := (release_keeps s.cur.core s.cur.cid sc (Keeps.refl s)).wf hwf
    have hcur : (release s s.cur.core s.cur.cid sc).cur = s.cur := release_cur hfence rfl _ _ _
    have hb := TBar.fits_ofNat ((release s s.cur.core s.cur.cid sc).get key 16)
    rw [updateBar_eq] at hex
    refine ⟨_, hex, (execTbarrive_keeps g d a c (Keeps.refl s)).keeps _ hex, ?_, ?_, ?_⟩
    · exact State.onRegs_cur_of ((withBar_cur (by rw [hcur, hfence]) _ key _).trans hcur) _
    · exact (withBar_holds hsys hrel (hb.arrived _).test).trans (TBar.test_eq _)
    · intro hsc
      subst hsc
      rw [release_workgroup]
      exact ⟨(withBar_holds hsys hwf (hfits.arrived _).test).trans (TBar.test_eq _),
        fun x hx => withBar_only _ hsys hwf hx⟩
  case expect =>
    have hsys := isSys_of_barPlace hplace
    have hex := execTbexpect_updates hg hrest hfence hplace hfree hpoison hn hsum
    rw [updateBar_eq] at hex
    refine ⟨_, hex, (execTbexpect_keeps g a c (Keeps.refl s)).keeps _ hex, ?_, ?_, fun x hx => withBar_only _ hsys hwf hx⟩
    · exact State.onRegs_cur_of (withBar_cur hfence _ key _) _
    · exact (withBar_holds hsys hwf (hfits.expecting hsum).test).trans (TBar.test_eq _)
  case test =>
    have hex := execTbtest_reads (d := d) (c := c) hg hrest hfence hplace hfree hpoison
    have hcur : (if (TBar.ofNat (s.get key 16)).phase = (tbCount s.cur c).toNat % 16 then s else acquire s s.cur.core s.cur.cid sc).cur = s.cur := by
      split
      · rfl
      · exact acquire_cur _ _ _ _
    refine ⟨_, hex, (execTbtest_keeps g d a c (Keeps.refl s)).keeps _ hex, State.onRegs_cur_of hcur _, fun x => congrArg (memGet · x) ?_⟩
    split
    · rfl
    · exact acquire_mem _ _ _ _
  case wait =>
    have hex := execTbwait_goes hg hrest hfence hplace hfree hpoison hphase
    refine ⟨_, hex, (execTbwait_keeps g a p (Keeps.refl s)).keeps _ hex, ?_, fun x => ?_⟩
    · exact State.onRegs_cur_of (acquire_cur _ _ _ _) _
    · exact congrArg (memGet · x) (acquire_mem _ _ _ _)

end Sys2Proof
end

section
/-! PROOFS. MZERO, MLDSC and MSTAT (R247, R253, R258): their entries join the matrix queue, and what each entry does. -/

namespace Sys2Proof.Machine

/-! ## Entering the queue (R253) -/

/-- A workgroup whose matrix queue has one entry more, with a name and an operation. -/
def Wg.enqueued (w : Wg) (uid : Nat) (op : MOp) : Wg :=
  { w with mq := w.mq ++ [{ uid, op, begun := false, done := false, susp := none, row := 0 }] }

theorem enqueue_wg? {s : State} {n : Nat} {w : Wg} (hw : s.wg? n = some w) (op : MOp) :
    (enqueue s n op).2.wg? n = some (w.enqueued s.uid op) :=
  State.wg?_onWg_self (f := fun w => w.enqueued s.uid op) (fun _ => rfl) hw

section
variable {g : Guard} {s : State} {w : Wg} (hg : s.cur.r.holds g = true) (hw : s.wgOf s.cur = some w) (hrest : s.cur.rest = none)
  (hfence : s.cur.fence = none)
include hg hw hrest hfence

theorem execMzero_enters {slot : Fin 8} (hslot : slot.val < w.slots.length) :
    execMzero g slot s = .next ((enqueue s w.id (.mzero slot.val)).2.adv 1) := by
  rw [execMzero, onMatrix_next hg hw hrest hfence, if_neg (Nat.not_le.mpr hslot)]

theorem execMstat_enters {d : XReg} {slot : Fin 8} (hslot : slot.val < w.slots.length) :
    execMstat g d slot s = waitAt (enqueue s w.id (.mstat slot.val s.cur.ref d)).2 (.mstat s.uid) := by
  rw [execMstat, onMatrix_next hg hw hrest hfence, if_neg (Nat.not_le.mpr hslot)]
  rfl

theorem execMldsc_enters {d a : XReg} (hcheck : mldscCheck w (s.cur.r.getX d) (s.cur.r.getX a) = none)
    (hfree : blocked s.cur (scratchKey w.core (w.base + ((s.cur.r.getX a).toNat - localBase))) (bits (s.cur.r.getX d).toNat 0 17) true = false) :
    execMldsc g d a s = .next ((enqueue s w.id
      (.mldsc (s.cur.r.getX a).toNat (bits (s.cur.r.getX d).toNat 0 17) (bits (s.cur.r.getX d).toNat 32 16))).2.adv 1) := by
  simp only [execMldsc, onMatrix_next hg hw hrest hfence, unlessTrap, hcheck, hfree, Bool.false_eq_true, if_false]

end

/-! ## What the entries do (R258) -/

theorem getElem?_slots_withSlot (x : Wg) (i j : Nat) (f : Acc → Acc) :
    (x.withSlot i f).slots[j]? = (x.slots[j]?).map (fun a => if j = i then f a else a) := by
  simp [Wg.withSlot, List.getElem?_map, List.getElem?_zipIdx, Option.map_map, Function.comp_def]

/-- Slots that become as at allotment one after another. -/
def Wg.cleared (x : Wg) (l : List Nat) : Wg := l.foldl (fun x i => x.withSlot i (fun _ => Acc.init)) x

theorem getElem?_slots_cleared (l : List Nat) : ∀ (x : Wg) (j : Nat),
    (x.cleared l).slots[j]? = (x.slots[j]?).map (fun a => if j ∈ l then Acc.init else a) := by
  induction l with
  | nil => exact fun x j => by simp [Wg.cleared]
  | cons i l ih =>
    intro x j
    rw [Wg.cleared, List.foldl_cons, ← Wg.cleared, ih, getElem?_slots_withSlot, Option.map_map]
    congr 1
    funext a
    by_cases h : j = i <;> simp [h]

theorem foldl_onSlot_wg? (n : Nat) (l : List Nat) : ∀ {s : State} {x : Wg}, s.wg? n = some x →
    (l.foldl (fun s i => onSlot s n i (fun _ => Acc.init)) s).wg? n = some (x.cleared l) := by
  induction l with
  | nil => exact fun h => h
  | cons i l ih => exact fun h => ih (onSlot_wg? h i _)

/-- A workgroup with bytes at the scale indices from i on. -/
def Wg.withScale (w : Wg) (i : Nat) (bytes : List Byte) : Wg :=
  { w with scale := (bytes.zipIdx.map (fun b => (i + b.2, b.1))) ++ w.scale.filter (fun b => b.1 < i || i + bytes.length ≤ b.1) }

@[simp] theorem length_readBytes (m : List (Nat × Byte)) (n : Nat) : ∀ a, (readBytes m a n).length = n := by
  induction n with
  | zero => exact fun _ => rfl
  | succ n ih => exact fun a => congrArg (· + 1) (ih (a + 1))

theorem getD_readBytes (m : List (Nat × Byte)) (n : Nat) : ∀ (a : Nat) {i : Nat}, i < n → (readBytes m a n).getD i 0 = memGet m (a + i) := by
  induction n with
  | zero => exact fun _ _ h => absurd h (Nat.not_lt_zero _)
  | succ n ih =>
    intro a i h
    cases i with
    | zero => rfl
    | succ i => rw [readBytes, List.getD_cons_succ, ih _ (Nat.lt_of_succ_lt_succ h), Nat.add_right_comm, Nat.add_assoc]

theorem find?_numbered (bytes : List Byte) (lo i : Nat) : ∀ k : Nat,
    ((bytes.zipIdx k).map (fun b => (lo + b.2, b.1))).find? (fun x => x.1 == lo + k + i) = (bytes[i]?).map (fun b => (lo + k + i, b)) := by
  induction bytes generalizing i with
  | nil => exact fun _ => rfl
  | cons b bytes ih =>
    intro k
    rw [List.zipIdx_cons, List.map_cons, List.find?_cons]
    cases i with
    | zero => simp
    | succ i =>
      have hne : (lo + k == lo + k + (i + 1)) = false := by simp
      simp only [hne, List.getElem?_cons_succ]
      have := ih i (k + 1)
      rwa [show lo + (k + 1) + i = lo + k + (i + 1) by omega] at this

theorem scaleByte_withScale (w : Wg) (lo i : Nat) (bytes : List Byte) :
    scaleByte (w.withScale lo bytes) i = if lo ≤ i ∧ i < lo + bytes.length then bytes.getD (i - lo) 0 else scaleByte w i := by
  unfold scaleByte Wg.withScale
  simp only [List.find?_append]
  split
  · rename_i h
    have hfind := find?_numbered bytes lo (i - lo) 0
    rw [show lo + 0 + (i - lo) = i by omega, List.getElem?_eq_getElem (by omega)] at hfind
    rw [hfind, List.getD_eq_getElem _ _ (by omega)]; rfl
  · rename_i h
    have hnone : (bytes.zipIdx.map (fun b => (lo + b.2, b.1))).find? (fun x => x.1 == i) = none := by
      rw [List.find?_eq_none]
      intro x hx
      obtain ⟨b, hb, rfl⟩ := List.mem_map.mp hx
      have := List.mem_zipIdx hb
      simp only [beq_iff_eq]
      omega
    rw [hnone, Option.none_or, List.find?_filter]
    congr 3
    funext x
    by_cases hx : x.1 = i
    · have hkeep : x.1 < lo ∨ lo + bytes.length ≤ x.1 := by omega
      simpa [hx] using hx ▸ hkeep
    · simp [hx]

/-- State u once a thread of state s that waits for an entry has its answer (R258). -/
def mstatAnswered (s u : State) (uid : Nat) (r : TRef) (d : XReg) (v : W64) : State :=
  match s.thread? r with
  | some th => if th.wait = .mstat uid then wake u r 1 (fun x => x.setX d v) else u
  | none => u

theorem mstatAnswered_wgs (s u : State) (uid : Nat) (r : TRef) (d : XReg) (v : W64) : (mstatAnswered s u uid r d v).wgs = u.wgs := by
  unfold mstatAnswered
  split
  · split
    · exact State.onThread_wgs _ _ _
    · rfl
  · rfl

theorem mstatAnswered_thread? {s u : State} (hu : u.still = s.still) {r : TRef} {th : Thread} {uid : Nat} (hth : s.thread? r = some th)
    (hwait : th.wait = .mstat uid) (hr : r ≠ .none) (d : XReg) (v : W64) : ∃ th', (mstatAnswered s u uid r d v).thread? r = some th' ∧
      th'.wait = .none ∧ th'.r = (th.r.setX d v).adv 1 := by
  simp only [mstatAnswered, hth, hwait, if_true]
  exact wake_thread? hu hr hth 1 _

section
variable {s : State} {n : Nat} {w : Wg} {e : MEnt} {es : List MEnt} (hw : s.wg? n = some w) (hq : w.mq = e :: es)
  (hbegun : e.begun = false) (hsusp : e.susp = none) (hgoes : engineGoes s w (entryMust s n e) = true)
include hw hq

/-- The workgroup once its oldest entry has begun. -/
theorem begun_wg? : (onHead s n (fun e => { e with begun := true })).wg? n = some { w with mq := { e with begun := true } :: es } :=
  onHead_wg? hw hq _

include hbegun hsusp hgoes

theorem execMctlEntry_zeroes {sl : Nat} (hop : e.op = .mzero sl) : ∃ t, execMctlEntry n s = .next t ∧
    t.wg? n = some (({ w with mq := { e with begun := true } :: es } : Wg).cleared (slotsOf ((slotAt w sl).kind == .f64) sl)) := by
  refine ⟨_, ?_, foldl_onSlot_wg? n _ (begun_wg? hw hq)⟩
  simp only [execMctlEntry, onEntry_runs hw hq hsusp hgoes, hbegun, hop, due, Bool.not_false, if_true, zeroSlots, State.wg?_id hw]

theorem execMctlEntry_loads {src cnt didx : Nat} (hop : e.op = .mldsc src cnt didx) : ∃ t, execMctlEntry n s = .next t ∧
    t.wg? n = some (({ w with mq := { e with begun := true } :: es } : Wg).withScale didx
      (readBytes s.mem (scratchKey w.core (w.base + (src - localBase))) cnt)) := by
  refine ⟨_, ?_, State.wg?_onWg_self (f := fun w' => w'.withScale didx
    (readBytes s.mem (scratchKey w.core (w.base + (src - localBase))) cnt)) (fun _ => rfl) (begun_wg? hw hq)⟩
  simp only [execMctlEntry, onEntry_runs hw hq hsusp hgoes, hbegun, hop, due, Bool.not_false, if_true, Wg.withScale, length_readBytes]

/-- A MSTAT entry clears OVF of its slot; a thread that waits for it goes on with MRP, read before. -/
theorem execMctlEntry_answers {sl : Nat} {r : TRef} {d : XReg} (hop : e.op = .mstat sl r d) : ∃ t, execMctlEntry n s = .next t ∧
    t.wg? n = some (({ w with mq := { e with begun := true } :: es } : Wg).withSlot sl (fun a => { a with ovf := false })) ∧
    ∀ th, s.thread? r = some th → th.wait = .mstat e.uid → r ≠ .none → ∃ th', t.thread? r = some th' ∧
      th'.wait = .none ∧ th'.r = (th.r.setX d (BitVec.ofNat 64 (mrp w))).adv 1 := by
  refine ⟨_, ?_, onSlot_wg? ((State.wg?_congr (mstatAnswered_wgs s _ e.uid r d (BitVec.ofNat 64 (mrp w))) n).trans (begun_wg? hw hq)) sl _,
    fun th hth hwait hr => ?_⟩
  · simp only [execMctlEntry, onEntry_runs hw hq hsusp hgoes, hbegun, hop, due, Bool.not_false, if_true, mstatAnswered] <;> rfl
  · exact mstatAnswered_thread? (u := onHead s n (fun e => { e with begun := true })) rfl hth hwait hr d _

/-- An MMA or MDRAIN entry is no MCTL entry. -/
theorem execMctlEntry_other (hop : (∃ xa xb xc c rank, e.op = .mma xa xb xc c rank) ∨ ∃ xa xb xc c, e.op = .mdrain xa xb xc c) :
    execMctlEntry n s = .next s := by
  obtain ⟨xa, xb, xc, c, rank, hop⟩ | ⟨xa, xb, xc, c, hop⟩ := hop <;>
    simp only [execMctlEntry, onEntry_runs hw hq hsusp hgoes, hbegun, hop, due, Bool.not_false, if_true]

end

end Sys2Proof.Machine

namespace Sys2Proof
open Machine

/-- Settles O41: the entry that a guard lets through stands last (`enqueue_wg?`); of the three entries each changes its own part of the
workgroup. -/
theorem matrixQueueEntries : Obligations.MatrixQueueEntries := by
  unfold Obligations.MatrixQueueEntries
  intro g slot d a w s
  refine ⟨fun hg hrest hfence hw => ⟨fun hslot => ⟨?zero, ?stat⟩, fun hcheck hfree => ?load⟩, fun e es m hw hq hbegun hsusp hgang hway => ?entry⟩
  case zero => exact ⟨_, _, execMzero_enters hg hw hrest hfence hslot, rfl, enqueue_wg? (wgOf_wg? hw) _, rfl⟩
  case stat => exact ⟨_, _, execMstat_enters hg hw hrest hfence hslot, rfl, enqueue_wg? (wgOf_wg? hw) _, rfl⟩
  case load => exact ⟨_, _, execMldsc_enters hg hw hrest hfence hcheck hfree, rfl, enqueue_wg? (wgOf_wg? hw) _, rfl⟩
  case entry =>
    have hgoes : engineGoes s w (entryMust s w.id e) = true := by simp [engineGoes, hgang, hway]
    cases hop : e.op with
    | mzero sl =>
      obtain ⟨t, hex, ht⟩ := execMctlEntry_zeroes hw hq hbegun hsusp hgoes hop
      refine ⟨t, _, hex, ht, fun sl' h i v hv => ?_, nofun, nofun⟩
      obtain rfl := MOp.mzero.inj h
      rw [getElem?_slots_cleared, hv, Option.map_some]
    | mldsc y cnt didx =>
      obtain ⟨t, hex, ht⟩ := execMctlEntry_loads hw hq hbegun hsusp hgoes hop
      refine ⟨t, _, hex, ht, nofun, fun y' cnt' didx' h i => ?_, nofun⟩
      obtain ⟨rfl, rfl, rfl⟩ := MOp.mldsc.inj h
      rw [scaleByte_withScale, length_readBytes]
      split
      · exact getD_readBytes _ _ _ (by omega)
      · rfl
    | mstat sl r d =>
      obtain ⟨t, hex, ht, hth⟩ := execMctlEntry_answers hw hq hbegun hsusp hgoes hop
      refine ⟨t, _, hex, ht, nofun, nofun, fun sl' r' d' h => ?_⟩
      obtain ⟨rfl, rfl, rfl⟩ := MOp.mstat.inj h
      exact ⟨fun i v hv => by rw [getElem?_slots_withSlot, hv, Option.map_some], hth⟩
    | mma xa xb xc c rank =>
      exact ⟨s, w, execMctlEntry_other hw hq hbegun hsusp hgoes (.inl ⟨xa, xb, xc, c, rank, hop⟩), hw, nofun,
        nofun, nofun⟩
    | mdrain xa xb xc c =>
      exact ⟨s, w, execMctlEntry_other hw hq hbegun hsusp hgoes (.inr ⟨xa, xb, xc, c, hop⟩), hw, nofun,
        nofun, nofun⟩

end Sys2Proof
end

section
/-! PROOFS. The COLL instructions (R365, R366, R368). -/

namespace Sys2Proof.Machine

/-! ## Device tables (R362) -/

theorem tableRead_ok {s : State} {pa n : Nat} (hfirst : keyOk pa = true) (hlast : keyOk (pa + n - 1) = true) (k : List Byte → State → Out) :
    tableRead s pa n k = k (s.take pa n).1 (s.take pa n).2 := by
  simp only [tableRead, hfirst, hlast, Bool.and_self, if_true]

theorem State.take_ctxs (s : State) (key n : Nat) : (s.take key n).2.ctxs = s.ctxs := by
  unfold State.take; split <;> rfl

theorem State.take_cfg (s : State) (key n : Nat) : (s.take key n).2.cfg = s.cfg := by
  unfold State.take; split <;> rfl

theorem State.ctx?_cid {s : State} {cid : Nat} {c : Ctx} (h : s.ctx? cid = some c) : c.cid = cid := by
  simpa using List.find?_some h

/-! ## The start of a collective (R368) -/

/-- The context after a new collective: the number of the group's last, and the collective at the end of the list. -/
def Ctx.withColl (c : Ctx) (x : Coll) : Ctx :=
  { c with collK := (x.g, x.k) :: c.collK.filter (fun y => y.1 != x.g), colls := c.colls ++ [x] }

theorem lastColl_withColl (c : Ctx) (x : Coll) : lastColl (c.withColl x) x.g = x.k := by
  simp only [lastColl, Ctx.withColl, List.find?_cons, beq_self_eq_true, Option.map_some, Option.getD_some]

/-- The collective that a context starts on a group (R366, R368). -/
def newColl (c : Ctx) (cop g b : Nat) (ty : DType) (op : ROp) (send recv : Nat × Nat) : Coll :=
  { g, k := lastColl c g + 1, cop, ty, op, b, send := send.1, sendLen := send.2, recv := recv.1, recvLen := recv.2, next := 0 }

section
variable {s : State} {c : Ctx} (cop g b : Nat) (ty : DType) (op : ROp) (send recv : Nat × Nat) (xc : XReg)

theorem collGo_eq : collGo s c cop g b ty op send recv xc =
    ((release (sideOn s) s.cur.core s.cur.cid 6).onCtx c.cid (fun x => x.withColl (newColl c cop g b ty op send recv))).onRegs
      (fun r => (r.setX xc (collToken g (lastColl c g + 1))).adv 2) := rfl

theorem collGo_ctx? (hc : s.ctx? s.cur.cid = some c) :
    (collGo s c cop g b ty op send recv xc).ctx? s.cur.cid = some (c.withColl (newColl c cop g b ty op send recv)) := by
  have hrel : (release (sideOn s) s.cur.core s.cur.cid 6).ctxs = s.ctxs :=
    (State.ctxs_of_still (release_still _ _ _ _)).trans (sideOn_ctxs s)
  have hself := State.ctx?_onCtx_self (release (sideOn s) s.cur.core s.cur.cid 6)
    (f := fun x => x.withColl (newColl c cop g b ty op send recv)) (fun _ => rfl) s.cur.cid
  rw [collGo_eq, State.ctx?_cid hc, State.ctx?_congr (State.onRegs_ctxs _ _), hself, State.ctx?_congr hrel, hc]
  rfl

theorem collGo_cur (hfence : s.cur.fence = none) :
    (collGo s c cop g b ty op send recv xc).cur = { s.cur with r := (s.cur.r.setX xc (collToken g (lastColl c g + 1))).adv 2 } := by
  have hrel : (release (sideOn s) s.cur.core s.cur.cid 6).cur = s.cur := release_cur hfence (sideOn_cur s) _ _ _
  rw [collGo_eq, State.onRegs_cur_of ((State.onCtx_cur _ _ _).trans hrel)]

end

/-! ## The five instructions (R366) -/

section
variable {g : Guard} {xa xb xc : XReg} {send recv : BitVec 8} {ty : DType} {c : Ctx} {e : GroupEnt} {sb rb : Nat × Nat} {s s1 s2 s3 : State}
  {ge se re : List Byte}

/-- A COLL of a context whose tables configure its group and buffers, these as long as its kind needs, starts its collective. -/
theorem coll_goes {cop : Nat} {op : ROp} (hg : s.cur.r.holds g = true) (hrest : s.cur.rest = none) (hfence : s.cur.fence = none)
    (hmops : s.cur.mops = []) (hc : s.ctx? s.cur.cid = some c) (hfew : c.colls.length < 64) (hgrp : (s.cur.r.getX xa).toNat < 1024)
    (hb : (s.cur.r.getX xb).toNat ≠ 0) (hmult : (s.cur.r.getX xb).toNat % dtSize ty = 0)
    (h1 : ∀ k, tableRead s (collTable s c.cid + 4096 + 32 * (s.cur.r.getX xa).toNat) 32 k = k ge s1)
    (h2 : ∀ k, tableRead s1 (collTable s1 c.cid + 16 * send.toNat) 16 k = k se s2)
    (h3 : ∀ k, tableRead s2 (collTable s2 c.cid + 16 * recv.toNat) 16 k = k re s3) (hcur : s3.cur = s.cur)
    (he : GroupEnt.ofBytes ge = some e) (hsb : bufOf se = some sb) (hrb : bufOf re = some rb)
    (hsend : sendBytes cop e.n (s.cur.r.getX xb).toNat ≤ sb.2) (hrecv : recvBytes cop e.n (s.cur.r.getX xb).toNat ≤ rb.2) :
    coll cop g xa xb xc send recv ty op s =
      .next (collGo s3 c cop (s.cur.r.getX xa).toNat (s.cur.r.getX xb).toNat ty op sb rb xc) := by
  have hok : ¬(1024 ≤ (s.cur.r.getX xa).toNat ∨ (s.cur.r.getX xb).toNat = 0 ∨ (s.cur.r.getX xb).toNat % dtSize ty ≠ 0) := by omega
  have hfit : ¬(sb.2 < sendBytes cop e.n (s.cur.r.getX xb).toNat ∨ rb.2 < recvBytes cop e.n (s.cur.r.getX xb).toNat) := by omega
  simp only [coll, guarded_true hg, outside_none hrest, settled_none hfence, hc, if_neg hok, h1, h2, h3, he, hsb, hrb, if_neg hfit,
    if_neg (Nat.not_le.mpr hfew), drained_none (hcur.symm ▸ hmops : s3.cur.mops = [])]

end

end Sys2Proof.Machine

namespace Sys2Proof
open Machine

/-- Settles O48: the reads of the tables change the count of free values alone, and the start of the collective adds it to its context
(`collGo_ctx?`). -/
theorem collectivesIssue : Obligations.CollectivesIssue := by
  unfold Obligations.CollectivesIssue
  intro g xa xb xc send recv ty op c e sb rb s hg hrest hfence hmops hc hfew grp b tab there r1 r2 r3 hgrp hb hmult h1 h2 h3 he hsb hrb k made
  have hcur1 : r1.2.cur = s.cur := State.take_cur _ _ _
  have hcur2 : r2.2.cur = s.cur := (State.take_cur _ _ _).trans hcur1
  have hcur3 : r3.2.cur = s.cur := (State.take_cur _ _ _).trans hcur2
  have hctxs : r3.2.ctxs = s.ctxs := (State.take_ctxs _ _ _).trans ((State.take_ctxs _ _ _).trans (State.take_ctxs _ _ _))
  have hcfg1 : r1.2.cfg = s.cfg := State.take_cfg _ _ _
  have hcfg2 : r2.2.cfg = s.cfg := (State.take_cfg _ _ _).trans hcfg1
  have hread1 : ∀ f, tableRead s (collTable s c.cid + 4096 + 32 * grp) 32 f = f r1.1 r1.2 := tableRead_ok h1.1 h1.2
  have hread2 : ∀ f, tableRead r1.2 (collTable r1.2 c.cid + 16 * send.toNat) 16 f = f r2.1 r2.2 := by
    rw [collTable, hcfg1]; exact tableRead_ok h2.1 h2.2
  have hread3 : ∀ f, tableRead r2.2 (collTable r2.2 c.cid + 16 * recv.toNat) 16 f = f r3.1 r3.2 := by
    rw [collTable, hcfg2]; exact tableRead_ok h3.1 h3.2
  have hmade (cop : Nat) (op : ROp) (hsend : sendBytes cop e.n b ≤ sb.2) (hrecv : recvBytes cop e.n b ≤ rb.2) :
      ∃ t c', coll cop g xa xb xc send recv ty op s = .next t ∧ made t c' cop op := by
    have hex := coll_goes (op := op) (xc := xc) hg hrest hfence hmops hc hfew hgrp hb hmult hread1 hread2 hread3 hcur3 he hsb hrb hsend hrecv
    have hc3 : r3.2.ctx? r3.2.cur.cid = some c := by rw [hcur3, State.ctx?_congr hctxs, hc]
    refine ⟨_, c.withColl (newColl c cop grp b ty op sb rb), hex, (coll_keeps cop g xa xb xc send recv ty op (Keeps.refl s)).keeps _ hex, ?_, ?_,
      lastColl_withColl _ _, rfl⟩
    · have hctx := collGo_ctx? cop grp b ty op sb rb xc hc3
      rwa [hcur3] at hctx
    · rw [collGo_cur _ _ _ _ _ _ _ _ (hcur3.symm ▸ hfence : r3.2.cur.fence = none), hcur3]; rfl
  exact ⟨hmade 0 op, hmade 1 op, hmade 2 .sum, hmade 3 .sum, hmade 4 .sum⟩

end Sys2Proof
end

section
/-! PROOFS. The copy engine (R231, R233-R237): taking an entry of a ring, and the pieces of a channel's oldest entry. Reading moves no
workgroup (`pieceBytes_wgs`), and writing leaves the channels as they stand (`writePiece_still`). -/

namespace Sys2Proof.Machine

/-! ## Reading (R233, R234) -/

theorem wgs_of_snd {α : Type} {l : List Wg} {x : α × State} {a : α} {s : State} (h : x.2.wgs = l) (e : x = (a, s)) : s.wgs = l := by
  rw [e] at h; exact h

section
variable {l : List Wg}

theorem readSrc_wgs (w : Wg) (c : Cmd) (e : CopyEnt) (ahead : State → Nat → Option (List Byte)) (i va n : Nat) {s : State} (hs : s.wgs = l) :
    (readSrc w c e ahead i s va n).2.wgs = l := by
  have hread := (readPiece_wgs s (some w) w.core w.cid [] 1 (va % 2 ^ 64) n).trans hs
  unfold readSrc
  split <;> exact wgs_of_snd hread ‹_›

variable {c : Cmd} {read : Nat → State → Nat → Nat → Rd × State} {plain : State → Nat → Nat → Rd × State}
  (hread : ∀ i s a n, s.wgs = l → (read i s a n).2.wgs = l) (hplain : ∀ s a n, s.wgs = l → (plain s a n).2.wgs = l)
include hread

theorem convElems_wgs (dr off n : Nat) : ∀ (i : Nat) (acc : List Byte) {s : State}, s.wgs = l →
    (convElems c read dr off n i acc s).2.wgs = l := by
  induction n with
  | zero => exact fun _ _ _ hs => hs
  | succ n ih =>
    intro i acc s hs
    unfold convElems
    dsimp only
    split
    · exact ih _ _ (wgs_of_snd (hread _ _ _ _ hs) ‹_›)
    · exact wgs_of_snd (hread _ _ _ _ hs) ‹_›

include hplain

theorem pieceFrom_wgs (p : Nat) {s : State} (hs : s.wgs = l) : (pieceFrom c read plain p s).2.wgs = l := by
  unfold pieceFrom
  dsimp only
  split
  · exact hread _ _ _ _ hs
  split
  · split
    · exact hread _ _ _ _ (wgs_of_snd (hplain _ _ _ hs) ‹_›)
    · exact wgs_of_snd (hplain _ _ _ hs) ‹_›
  split
  · exact hs
  · exact convElems_wgs hread _ _ _ _ _ hs

end

theorem pieceBytes_wgs (s : State) (w : Wg) (c : Cmd) (e : CopyEnt) (p : Nat) : (pieceBytes s w c e p).2.wgs = s.wgs := by
  unfold pieceBytes
  cases c.total / 16 <;>
    exact pieceFrom_wgs (fun _ _ _ _ h => readSrc_wgs _ _ _ _ _ _ _ h) (fun _ _ _ h => (readPiece_wgs _ _ _ _ _ _ _ _).trans h) p rfl

theorem takeErr_wgs (s : State) (w : Wg) (raw : List Byte) : (takeErr s w raw).2.wgs = s.wgs := by
  have hread := engineRead_wgs s (some w) w.core w.cid [] (Cmd.ofBytes raw).src (8 * (Cmd.ofBytes raw).rows) 1
  unfold takeErr
  dsimp only
  split
  · rfl
  split
  · split <;> exact wgs_of_snd hread ‹_›
  · rfl

/-! ## COPY_TAKE_ENTRY (R231) -/

/-- The value of TAIL that the engine goes by (R231). -/
def seenTail (s : State) (x : Wg) (l : LRec) : Nat := if x.woken then s.get (scratchKey x.core (x.base + l.ringOff)) 4 else x.tail

/-- How many entries of the ring are published and not taken. -/
def unseen (s : State) (x : Wg) (l : LRec) : Nat := (seenTail s x l + 4294967296 - x.head % 4294967296) % 4294967296

/-- The bytes of the next entry of the ring (R230). -/
def nextRaw (s : State) (x : Wg) (l : LRec) : List Byte :=
  readBytes s.mem (scratchKey x.core (x.base + l.ringOff) + 64 + 32 * (x.head % 4294967296 % l.ringEnt)) 32

/-- The state in which the engine has read TAIL. -/
def tailSeen (s : State) (w : Nat) (x : Wg) (l : LRec) : State := s.onWg w (fun y => { y with tail := seenTail s x l, woken := false })

/-- A workgroup with one more entry in a channel. -/
def Wg.withEntry (y : Wg) (ch : Fin 4) (e : CopyEnt) : Wg := { y with chans := y.chans.set ch.val (y.chans[ch] ++ [e]) ch.isLt }

theorem chans_withEntry (y : Wg) (ch : Fin 4) (e : CopyEnt) : (y.withEntry ch e).chans[ch] = y.chans[ch] ++ [e] :=
  Vector.getElem_set_self ch.isLt

/-- An entry just taken: nothing of it is moved. -/
def takenEntry (s : State) (x : Wg) (raw : List Byte) : CopyEnt := { idx := x.head, raw, pub := publisher x x.head, done := 0, was := [], coin := s.fresh }

theorem setHead_wg? {s : State} {x y : Wg} (hy : s.wg? x.id = some y) (ring head : Nat) :
    ∃ z, (setHead s x ring head).wg? x.id = some z ∧ z.head = head ∧ z.chans = y.chans := by
  refine ⟨_, State.wg?_onWg_self (f := fun z => { z with head, pubs := z.pubs.filter _ }) (fun _ => rfl)
    ((State.wg?_congr (State.put_wgs _ _ _ _) _).trans hy), rfl, rfl⟩

theorem tailSeen_wg? {s : State} {w : Nat} {x : Wg} (hx : s.wg? w = some x) (l : LRec) :
    (tailSeen s w x l).wg? w = some { x with tail := seenTail s x l, woken := false } :=
  State.wg?_onWg_self (f := fun y => { y with tail := seenTail s x l, woken := false }) (fun _ => rfl) hx

/-- The state with an entry at the end of a channel, its bytes' free choices named (R233). -/
def withEntry (s : State) (w : Nat) (ch : Fin 4) (e : CopyEnt) (n : Nat) : State :=
  { s with fresh := s.fresh + n }.onWg w (fun y => y.withEntry ch e)

theorem withEntry_wg? {s : State} {w : Nat} {y : Wg} (hy : s.wg? w = some y) (ch : Fin 4) (e : CopyEnt) (n : Nat) :
    (withEntry s w ch e n).wg? w = some (y.withEntry ch e) :=
  State.wg?_onWg_self (s := { s with fresh := s.fresh + n }) (f := fun y => y.withEntry ch e) (fun _ => rfl) hy

section
variable {s s2 : State} {w : Nat} {x : Wg} {l : LRec} (hx : s.wg? w = some x) (hl : s.lrecOf x = some l)
  (hring : l.ringEnt ≠ 0) (hstop : x.copyStop = false)
  (hgoes : engineGoes s x (tokenOn s w (fun k => k.kinds.getLsbD 4 && x.head < k.ring)) = true) (hnew : unseen s x l ≠ 0)
  (hfew : unseen s x l ≤ l.ringEnt) (herr : takeErr (tailSeen s w x l) x (nextRaw s x l) = (none, s2))
include hx hl hring hstop hgoes hnew hfew herr

theorem execCopyTakeEntry_eq : execCopyTakeEntry w s = .next
    (withEntry (setHead s2 x (scratchKey x.core (x.base + l.ringOff)) (x.head + 1)) w (Cmd.ofBytes (nextRaw s x l)).ch
      (takenEntry (setHead s2 x (scratchKey x.core (x.base + l.ringOff)) (x.head + 1)) x (nextRaw s x l))
      (8 * (Cmd.ofBytes (nextRaw s x l)).total)) := by
  have hdue : (l.ringEnt != 0 && !x.copyStop && (x.woken || unseen s x l != 0) &&
      engineGoes s x (tokenOn s w (fun k => k.kinds.getLsbD 4 && x.head < k.ring))) = true := by
    rw [hgoes]; simp [hring, hstop, hnew]
  simp only [execCopyTakeEntry, hx, hl]
  refine (if_pos hdue).trans ((if_neg (Nat.not_lt.mpr hfew)).trans ((if_neg hnew).trans ?_))
  change (match takeErr (tailSeen s w x l) x (nextRaw s x l) with | (some e, s) => _ | (none, s) => _) = _
  rw [herr]
  rfl

theorem execCopyTakeEntry_takes :
    ∃ t y, execCopyTakeEntry w s = .next t ∧ t.wg? w = some y ∧ y.head = x.head + 1 ∧ ∃ e,
      y.chans[(Cmd.ofBytes (nextRaw s x l)).ch] = x.chans[(Cmd.ofBytes (nextRaw s x l)).ch] ++ [e] ∧
      e.idx = x.head ∧ e.raw = nextRaw s x l ∧ e.pub = publisher x x.head ∧ e.done = 0 ∧ e.was = [] := by
  have hid := State.wg?_id hx
  have hs2 : s2.wg? w = some { x with tail := seenTail s x l, woken := false } :=
    (State.wg?_congr (wgs_of_snd (takeErr_wgs _ _ _) herr) _).trans (tailSeen_wg? hx l)
  obtain ⟨z, hz, hhead, hchans⟩ := setHead_wg? ((congrArg s2.wg? hid).trans hs2) (scratchKey x.core (x.base + l.ringOff)) (x.head + 1)
  rw [hid] at hz
  refine ⟨_, _, execCopyTakeEntry_eq hx hl hring hstop hgoes hnew hfew herr, withEntry_wg? hz _ _ _, hhead, _,
    (chans_withEntry _ _ _).trans (by rw [hchans]), rfl, rfl, rfl, rfl, rfl⟩

end

/-! ## The work of a channel (R235-R237) -/

theorem onHeadEnt_wg? {s : State} {w : Nat} {ch : Fin 4} {y : Wg} {e : CopyEnt} {es : List CopyEnt} (hy : s.wg? w = some y)
    (hq : y.chans[ch] = e :: es) (f : CopyEnt → CopyEnt) :
    ∃ z, (onHeadEnt s w ch f).wg? w = some z ∧ z.chans[ch] = f e :: es ∧ z.chwp = y.chwp := by
  refine ⟨_, State.wg?_onWg_self (f := fun x => { x with chans := x.chans.set ch.val _ ch.isLt }) (fun _ => rfl) hy, ?_, rfl⟩
  refine (Vector.getElem_set_self ch.isLt).trans ?_
  rw [hq]

/-- The oldest entry of a channel and its CHWP: what of the entry says which it is and how far it has come. -/
structure Moves (s : State) (w : Nat) (ch : Fin 4) (e : CopyEnt) (es : List CopyEnt) (done : Nat) (chwp : W64) : Prop where
  stands : ∃ y e', s.wg? w = some y ∧ y.chans[ch] = e' :: es ∧ e'.idx = e.idx ∧ e'.raw = e.raw ∧ e'.done = done ∧ y.chwp[ch] = chwp

section
variable {s : State} {w : Nat} {ch : Fin 4} {e : CopyEnt} {es : List CopyEnt} {done : Nat} {chwp : W64}

theorem Moves.of_still {t : State} (h : Moves s w ch e es done chwp) (hst : t.still = s.still) : Moves t w ch e es done chwp := by
  obtain ⟨y, e', hy, hq, hrest⟩ := h.stands
  obtain ⟨z, hz, hzy⟩ := State.wg?_of_still hst hy
  have hch : z.chans = y.chans := (congrArg Wg.chans hzy : z.still.chans = y.still.chans)
  have hwp : z.chwp = y.chwp := (congrArg Wg.chwp hzy : z.still.chwp = y.still.chwp)
  exact ⟨z, e', hz, hch ▸ hq, hwp ▸ hrest⟩

theorem Moves.of_wgs {t : State} (h : Moves s w ch e es done chwp) (hw : t.wgs = s.wgs) : Moves t w ch e es done chwp := by
  obtain ⟨y, e', hy, hrest⟩ := h.stands
  exact ⟨y, e', (State.wg?_congr hw w).trans hy, hrest⟩

theorem moves_onHeadEnt (h : Moves s w ch e es done chwp) {f : CopyEnt → CopyEnt} {done' : Nat} (hidx : ∀ x, (f x).idx = x.idx)
    (hraw : ∀ x, (f x).raw = x.raw) (hdone : ∀ x, x.done = done → (f x).done = done') :
    Moves (onHeadEnt s w ch f) w ch e es done' chwp := by
  obtain ⟨y, e', hy, hq, hi, hr, hd, hc⟩ := h.stands
  obtain ⟨z, hz, hzq, hzc⟩ := onHeadEnt_wg? hy hq f
  exact ⟨z, f e', hz, hzq, (hidx _).trans hi, (hraw _).trans hr, hdone _ hd, by rw [hzc, hc]⟩

theorem moves_counted (h : Moves s w ch e es done chwp) :
    Moves (s.onWg w (fun x => { x with chwp := x.chwp.set ch.val (x.chwp[ch] + 16) ch.isLt })) w ch e es done (chwp + 16) := by
  obtain ⟨y, e', hy, hq, hi, hr, hd, hc⟩ := h.stands
  refine ⟨_, e', State.wg?_onWg_self (f := fun x => { x with chwp := x.chwp.set ch.val (x.chwp[ch] + 16) ch.isLt }) (fun _ => rfl) hy, hq, hi, hr, hd, ?_⟩
  exact (Vector.getElem_set_self ch.isLt).trans (by rw [hc])

theorem moves_keepOld (h : Moves s w ch e es done chwp) {x : Wg} (hx : x.id = w) {c : Cmd} (hc : c.ch = ch) (p : Nat) :
    Moves (keepOld s x c p) w ch e es done chwp := by
  have hread := readPiece_wgs s (some x) x.core x.cid [] 2 (c.dstAt p) 16
  subst hx hc
  unfold keepOld
  split
  · split
    · exact moves_onHeadEnt (h.of_wgs (wgs_of_snd hread ‹_›)) (fun _ => rfl) (fun _ => rfl) (fun _ hd => hd)
    · exact h.of_wgs (wgs_of_snd hread ‹_›)
  · exact h

/-- A piece that moves: CHWP counts its 16 bytes, the entry notes them. -/
theorem moves_movePiece (h : Moves s w ch e es done chwp) {x : Wg} (hx : x.id = w) {c : Cmd} (hc : c.ch = ch) {e0 : CopyEnt} {p : Nat} {t : State}
    (hmove : movePiece s x c e0 p = .ok t) : Moves t w ch e es (p + 16) (chwp + 16) := by
  have hread := pieceBytes_wgs s x c e0 p
  unfold movePiece at hmove
  split at hmove
  · rename_i bs s1 hbs
    have hkept := moves_keepOld (h.of_wgs (wgs_of_snd hread hbs)) hx hc p
    have hwrite := writePiece_still (keepOld s1 x c p) (some x) x.core x.cid (c.dstAt p) bs
    split at hmove
    · rename_i s2 hs2
      rw [hs2] at hwrite
      obtain rfl := Moved.ok.inj hmove
      subst hx hc
      exact moves_onHeadEnt (moves_counted (hkept.of_still hwrite)) (fun _ => rfl) (fun _ => rfl) (fun _ _ => rfl)
    · exact nomatch hmove
  · exact nomatch hmove

theorem countSector_still (s : State) (x : Wg) (raw : List Byte) : (countSector s x raw).still = s.still := by
  unfold countSector
  split
  · exact State.put_still _ _ _ _
  · rfl

/-- What n bytes more of a channel's oldest entry make of its workgroup (R235, R236). -/
def MovedOn (y : Wg) (ch : Fin 4) (e : CopyEnt) (es : List CopyEnt) (chwp : W64) (total n : Nat) : Prop :=
  y.chwp[ch] = chwp + BitVec.ofNat 64 n ∧
    if total ≤ e.done + n then y.chans[ch] = es
    else ∃ e', y.chans[ch] = e' :: es ∧ e'.idx = e.idx ∧ e'.raw = e.raw ∧ e'.done = e.done + n

/-- How a channel stands once n bytes more of its oldest entry have moved. -/
def HasMoved (t : State) (w : Nat) (ch : Fin 4) (e : CopyEnt) (es : List CopyEnt) (chwp : W64) (total n : Nat) : Prop :=
  ∃ y, t.wg? w = some y ∧ MovedOn y ch e es chwp total n

theorem hasMoved_finishCopy {total n : Nat} (h : Moves s w ch e es (e.done + n) (chwp + BitVec.ofNat 64 n)) {x : Wg} (hx : x.id = w) :
    HasMoved (if total ≤ e.done + n then finishCopy (countSector s x e.raw) x.id ch else countSector s x e.raw)
      w ch e es chwp total n := by
  obtain ⟨y, e', hy, hq, hi, hr, hd, hc⟩ := (h.of_still (countSector_still s x e.raw)).stands
  subst hx
  unfold HasMoved MovedOn
  split
  · refine ⟨_, State.wg?_onWg_self (f := fun y => { y with chans := y.chans.set ch.val (y.chans[ch].drop 1) ch.isLt }) (fun _ => rfl) hy, hc, ?_⟩
    refine (Vector.getElem_set_self ch.isLt).trans ?_
    rw [hq]; rfl
  · exact ⟨y, hy, hc, e', hq, hi, hr, hd⟩

/-- One step of a channel: 32 bytes, or the last 16 (R235; log entry 48). -/
theorem hasMoved_moveSector {x : Wg} {c : Cmd} {s1 s2 : State} {n : Nat} (h : Moves s w ch e es e.done chwp) (hx : x.id = w) (hcmd : c = Cmd.ofBytes e.raw)
    (hch : c.ch = ch) (hn : n = if c.total ≤ e.done + 16 then 16 else 32) (h1 : movePiece s x c e e.done = .ok s1)
    (h2 : n = 32 → movePiece s1 x c (headEnt s1 w ch e) (e.done + 16) = .ok s2) :
    HasMoved (moveSector s x ch e) w ch e es chwp c.total n := by
  have hfirst := moves_movePiece h hx hch h1
  subst hx hcmd
  unfold moveSector
  dsimp only
  rw [h1]
  dsimp only
  split
  · rename_i hlast
    rw [if_pos hlast] at hn
    subst hn
    have hend := hasMoved_finishCopy hfirst (total := (Cmd.ofBytes e.raw).total) (n := 16) (e := e) rfl
    rwa [if_pos hlast] at hend
  · rename_i hlast
    rw [if_neg hlast] at hn
    subst hn
    rw [h2 rfl]
    have hsecond := moves_movePiece hfirst rfl hch (h2 rfl)
    rw [BitVec.add_assoc] at hsecond
    exact hasMoved_finishCopy (e := e) (n := 32) hsecond rfl

/-- A channel whose oldest entry has the opcode of the event runs it (R235). -/
theorem runChannel_next {opc : Nat} {x : Wg} (hx : s.wg? w = some x) (hq : x.chans[ch] = e :: es) (hstop : x.copyStop = false)
    (hopc : (Cmd.ofBytes e.raw).opc = opc) : runChannel opc w ch s = .next (moveSector s x ch e) := by
  simp only [runChannel, hx, hq, hopc, hstop, due, beq_self_eq_true, Bool.not_false, Bool.and_self, if_true]

end

end Sys2Proof.Machine

namespace Sys2Proof
open Machine

/-- Settles O54: an entry that is taken stands last in its channel (`execCopyTakeEntry_takes`); each of the five commands is
`runChannel`, whose pieces move one after another (`hasMoved_moveSector`). -/
theorem copyEvents : Obligations.CopyEvents := by
  unfold Obligations.CopyEvents
  intro s
  refine ⟨fun w x l hx hl s2 hring hstop hgoes hnew hfew herr => ?take, ?move⟩
  case take =>
    obtain ⟨t, y, hex, hy, hhead, e, he⟩ := execCopyTakeEntry_takes hx hl hring hstop hgoes hnew hfew herr
    exact ⟨t, y, e, hex, hy, hhead, he⟩
  case move =>
    intro w x ch e es s1 s2 hx hq hstop c n hch h1 h2 moved
    have hstart : Moves s w ch e es e.done x.chwp[ch] := ⟨x, e, hx, hq, rfl, rfl, rfl, rfl⟩
    obtain ⟨y, hy, hmoved⟩ := hasMoved_moveSector hstart (State.wg?_id hx) rfl hch rfl h1 h2
    have hrun (opc : Nat) (hopc : c.opc = opc) :
        ∃ t y, runChannel opc w ch s = .next t ∧ t.wg? w = some y ∧ MovedOn y ch e es x.chwp[ch] c.total n :=
      ⟨_, y, runChannel_next hx hq hstop hopc, hy, hmoved⟩
    exact ⟨hrun 1, hrun 2, hrun 5, hrun 3, hrun 4⟩

end Sys2Proof
end

section
/-! PROOFS. Calls of surrogate regions (R266, R267) and the return of a restoration thread (R269). -/

namespace Sys2Proof.Machine

/-! ## What an order point leaves of a context (R348, R351) -/

/-- A context but for its archive unit. -/
def Ctx.sansArch (c : Ctx) : Ctx := { c with arch := Arch.init }

theorem map_ctx?_onCtx {β : Type} (k : Ctx → β) (s : State) {f : Ctx → Ctx} (hid : ∀ c, (f c).cid = c.cid) (hk : ∀ c, k (f c) = k c)
    (n cid : Nat) : ((s.onCtx n f).ctx? cid).map k = (s.ctx? cid).map k := by
  rw [State.ctx?_onCtx s hid]
  split
  · rw [Option.map_map]; exact congrArg (fun g => (s.ctx? cid).map g) (funext hk)
  · rfl

/-- The contexts of two states differ in their archive units alone. -/
def SameCtxs (s t : State) : Prop := ∀ cid, (t.ctx? cid).map Ctx.sansArch = (s.ctx? cid).map Ctx.sansArch

theorem SameCtxs.map {β : Type} {s t : State} (h : SameCtxs s t) (k : Ctx → β) (hk : ∀ c, k c.sansArch = k c) (cid : Nat) :
    (t.ctx? cid).map k = (s.ctx? cid).map k := by
  have hmap := congrArg (Option.map k) (h cid)
  rwa [Option.map_map, Option.map_map, show k ∘ Ctx.sansArch = k from funext hk] at hmap

theorem logWin_sameCtxs (s : State) (cid arb core slot : Nat) : SameCtxs s (logWin s cid arb core slot) := by
  refine map_ctx?_onCtx _ s (fun c => ?_) (fun c => ?_) cid <;> split <;> rfl

/-- The gate of a context that does not replay is open; it changes nothing but what is left of the log (R351). -/
theorem gateTake_opens {s : State} {cid : Nat} (h : replaying s cid = false) (arb core slot code : Nat) :
    ∃ ctxs, gateTake s cid arb core slot code = some ({ s with ctxs }, none) ∧ SameCtxs s { s with ctxs } := by
  obtain ⟨f, hf⟩ := gateTake_open h arb core slot code
  obtain ⟨left, hleft⟩ := gateTake_eq hf
  refine ⟨(s.onCtx cid f).ctxs, hf, ?_⟩
  rw [show ({ s with ctxs := (s.onCtx cid f).ctxs } : State) = s.onCtx cid f from rfl, hleft]
  intro n
  refine map_ctx?_onCtx _ s ?_ ?_ cid n <;> exact fun _ => rfl

/-- An order point of a thread that does not replay changes archive units alone. -/
theorem orderPoint_opens {s : State} (h : replaying s s.cur.cid = false) (arb : Nat) :
    ∃ ctxs, SameCtxs s { s with ctxs } ∧ ∀ k, orderPoint s arb k = k { s with ctxs } := by
  obtain ⟨ctxs, hgate, hsame⟩ := gateTake_opens h arb s.cur.core s.cur.slot 0
  refine ⟨(logWin { s with ctxs } s.cur.cid arb s.cur.core s.cur.slot).ctxs,
    fun cid => (logWin_sameCtxs { s with ctxs } s.cur.cid arb s.cur.core s.cur.slot cid).trans (hsame cid), fun k => ?_⟩
  simp only [orderPoint, hgate]
  rfl

/-! ## Count(core, region) (R266) -/

theorem countOf_eq (s : State) (core cid region : Nat) : countOf s core cid region =
    ((((s.ctx? cid).map (·.counts)).bind (fun l => l.find? (fun x => x.1 == core && x.2.1 == region))).map (·.2.2)).getD 0 := by
  unfold countOf
  cases s.ctx? cid <;> rfl

theorem countOf_congr {s t : State} {cid : Nat} (h : (t.ctx? cid).map (·.counts) = (s.ctx? cid).map (·.counts)) (core region : Nat) :
    countOf t core cid region = countOf s core cid region := by
  rw [countOf_eq, countOf_eq, h]

theorem onAgg_counts (s : State) (cid region : Nat) (f : Agg → Agg) (n : Nat) :
    ((onAgg s cid region f).ctx? n).map (·.counts) = (s.ctx? n).map (·.counts) := by
  refine map_ctx?_onCtx _ s ?_ ?_ cid n <;> exact fun _ => rfl

theorem countOf_setCount {s : State} {cid : Nat} (h : (s.ctx? cid).isSome = true) (core region : Nat) (n : W32) :
    countOf (setCount s core cid region n) core cid region = n := by
  obtain ⟨c, hc⟩ := Option.isSome_iff_exists.mp h
  have hself : (setCount s core cid region n).ctx? cid =
      some { c with counts := (core, region, n) :: c.counts.filter (fun x => !(x.1 == core && x.2.1 == region)) } := by
    refine (State.ctx?_onCtx_self s ?_ cid).trans (by rw [hc]; rfl)
    exact fun _ => rfl
  simp [countOf, hself]

/-! ## The issue of a call (R266) -/

section
variable (u : State) (w : Wg) (mode region : Nat) (res : Resident) (argv resv : VReg)

/-- The state in which a call has used its region's image. -/
def callUses : State := u.onCore u.cur.core (fun k => { k with store := res :: k.store.erase res })

/-- The entry that an exact call makes (R267). -/
def callEntry : RestEntry :=
  restEntry u .exact u.cur w.id region (RDesc.ofBytes res.desc) (u.cur.r.range argv.val (RDesc.ofBytes res.desc).argc) resv

/-- The evaluation that a call hands to its core (R265, R266). -/
def callEval : Eval :=
  { uid := u.uid, upto := u.cur.nmop, sonly := mode == 2, c := (countOf u u.cur.core u.cur.cid region).toNat, caller := u.cur.ref, w := w.id
    cid := u.cur.cid, region, desc := res.desc, image := res.image, args := u.cur.r.range argv.val (RDesc.ofBytes res.desc).argc
    xs := (callEntry u w region res argv resv).xs, resv := resv.val, resc := (RDesc.ofBytes res.desc).resc, call := u.uid }

/-- A call of state u that has issued in state t: its result registers are pending, PC is past it. -/
def callIssued (t : State) : State :=
  (State.onCur { t with uid := t.uid + 1 } (fun x =>
    { x with rpend := x.rpend ++ [{ call := u.uid, resv := resv.val, resc := (RDesc.ofBytes res.desc).resc, failed := none }] })).adv 2

/-- Is a call exact (R266)? -/
def CallExact : Prop :=
  mode = 1 ∨ (RDesc.ofBytes res.desc).kind = 0 ∨ (mode = 0 ∧ appliedState u u.cur.core u.cur.cid region = 2)

/-- What an exact call makes of the core and the counters. -/
def callQueued : State :=
  (bump (callUses u res) u.cur.cid region 4).onCore u.cur.core (fun k => { k with restq := k.restq ++ [callEntry u w region res argv resv] })

/-- What a call that the surrogate answers makes of the core and of Count. -/
def callGuessed : State :=
  (if mode = 0 then setCount (callUses u res) u.cur.core u.cur.cid region (countOf u u.cur.core u.cur.cid region + 1) else callUses u res).onCore
    u.cur.core (fun k => { k with evals := k.evals ++ [callEval u w mode region res argv resv] })

end

section
variable {s u : State} {w : Wg} {mode region : Nat} {res : Resident} {argv resv : VReg} (hu : sideOn s = u)
include hu

theorem callGo_exact (h : CallExact u mode region res) :
    callGo s w mode region res argv resv = callIssued u res resv (callQueued u w region res argv resv) := by
  subst hu
  unfold CallExact at h
  simp only [callGo, if_pos h]
  rfl

theorem callGo_guess (h : ¬CallExact u mode region res) :
    callGo s w mode region res argv resv = callIssued u res resv (callGuessed u w mode region res argv resv) := by
  subst hu
  unfold CallExact at h
  simp only [callGo, if_neg h]
  rfl

end

section
variable (u : State) (w : Wg) (mode region : Nat) (res : Resident) (argv resv : VReg)

theorem callQueued_cur : (callQueued u w region res argv resv).cur = u.cur := by
  simp only [callQueued, State.onCore_cur, bump, onAgg, State.onCtx_cur, callUses]

theorem callGuessed_cur : (callGuessed u w mode region res argv resv).cur = u.cur := by
  unfold callGuessed
  split <;> simp only [State.onCore_cur, setCount, State.onCtx_cur, callUses]

theorem callQueued_uid : (callQueued u w region res argv resv).uid = u.uid := by
  simp only [callQueued, State.onCore_uid, bump, onAgg, State.onCtx_uid, callUses]

theorem callGuessed_uid : (callGuessed u w mode region res argv resv).uid = u.uid := by
  unfold callGuessed
  split <;> simp only [State.onCore_uid, setCount, State.onCtx_uid, callUses]

theorem callIssued_cur {t : State} (h : t.cur = u.cur) : (callIssued u res resv t).cur =
    { u.cur with
      rpend := u.cur.rpend ++ [{ call := u.uid, resv := resv.val, resc := (RDesc.ofBytes res.desc).resc, failed := none }]
      r := u.cur.r.adv 2 } := by
  rw [← h]; rfl

theorem callUses_core : (callUses u res).core u.cur.core =
    { u.core u.cur.core with store := res :: (u.core u.cur.core).store.erase res } := by
  simp only [callUses, State.core_onCore, if_true, implies_true]

theorem callIssued_core (t : State) (n : Nat) : (callIssued u res resv t).core n = t.core n := rfl

theorem countOf_callIssued (t : State) (core cid n : Nat) : countOf (callIssued u res resv t) core cid n = countOf t core cid n := rfl

theorem callIssued_uid (t : State) : (callIssued u res resv t).uid = t.uid + 1 := rfl

theorem callQueued_core : (callQueued u w region res argv resv).core u.cur.core =
    { u.core u.cur.core with
      store := res :: (u.core u.cur.core).store.erase res
      restq := (u.core u.cur.core).restq ++ [callEntry u w region res argv resv] } := by
  have huses : (bump (callUses u res) u.cur.cid region 4).core u.cur.core = (callUses u res).core u.cur.core :=
    State.core_congr (State.onCtx_cores _ _ _) _
  simp only [callQueued, State.core_onCore, if_true, huses, callUses_core, implies_true]

theorem callGuessed_core : (callGuessed u w mode region res argv resv).core u.cur.core =
    { u.core u.cur.core with
      store := res :: (u.core u.cur.core).store.erase res
      evals := (u.core u.cur.core).evals ++ [callEval u w mode region res argv resv] } := by
  have huses : (if mode = 0 then setCount (callUses u res) u.cur.core u.cur.cid region (countOf u u.cur.core u.cur.cid region + 1)
      else callUses u res).core u.cur.core = (callUses u res).core u.cur.core := by
    split
    · exact State.core_congr (State.onCtx_cores _ _ _) _
    · rfl
  simp only [callGuessed, State.core_onCore, if_true, huses, callUses_core, implies_true]

theorem callUses_ctxs : (callUses u res).ctxs = u.ctxs := State.onCore_ctxs _ _ _

theorem countOf_callQueued (core cid n : Nat) : countOf (callQueued u w region res argv resv) core cid n = countOf u core cid n := by
  refine countOf_congr ?_ core n
  rw [callQueued, State.ctx?_congr (State.onCore_ctxs _ _ _), bump, onAgg_counts, State.ctx?_congr (callUses_ctxs u res)]

theorem countOf_callGuessed_sonly (core cid n : Nat) : countOf (callGuessed u w 2 region res argv resv) core cid n = countOf u core cid n :=
  countOf_congr (congrArg _ (State.ctx?_congr ((State.onCore_ctxs _ _ _).trans (callUses_ctxs u res)) cid)) core n

theorem countOf_callGuessed (h : (u.ctx? u.cur.cid).isSome = true) :
    countOf (callGuessed u w 0 region res argv resv) u.cur.core u.cur.cid region = countOf u u.cur.core u.cur.cid region + 1 := by
  have hctx : ((callUses u res).ctx? u.cur.cid).isSome = true := by rwa [State.ctx?_congr (callUses_ctxs u res)]
  rw [← countOf_setCount hctx u.cur.core region (countOf u u.cur.core u.cur.cid region + 1)]
  exact countOf_congr (congrArg _ (State.ctx?_congr (State.onCore_ctxs _ _ _) _)) _ _

end

/-! ## RCALL, RCALL.exact, RCALL.sonly (R266) -/

section
variable {s : State} {w : Wg} {g : Guard} {region : Fin 1024} {argv resv : VReg} {argc resc : Fin 8} {res : Resident} {mode : Nat}

/-- The state in which a call issues: the workgroup has its side-effect bit, the logs their win. -/
structure CallState (s u : State) : Prop where
  cur : u.cur = s.cur
  uid : u.uid = s.uid
  core : ∀ n, u.core n = s.core n
  ctxs : SameCtxs s u

theorem CallState.countOf {u : State} (h : CallState s u) (core cid n : Nat) : countOf u core cid n = Machine.countOf s core cid n :=
  countOf_congr (h.ctxs.map (·.counts) (fun _ => rfl) cid) core n

theorem CallState.appliedState {u : State} (h : CallState s u) (core cid n : Nat) : appliedState u core cid n = Machine.appliedState s core cid n := by
  rw [Machine.appliedState, h.core]; rfl

theorem CallState.ctx_isSome {u : State} (h : CallState s u) (cid : Nat) : (u.ctx? cid).isSome = (s.ctx? cid).isSome := by
  have hmap := congrArg Option.isSome (h.ctxs cid)
  rwa [Option.isSome_map, Option.isSome_map] at hmap

/-- A call whose sheaf may issue goes on behind its order point. -/
theorem rcall_issues (hg : s.cur.r.holds g = true) (hrest : s.cur.rest = none) (hfence : s.cur.fence = none)
    (hlive : replaying s s.cur.cid = false) (hw : s.wgOf s.cur = some w) (hres : residentOf s s.cur.core s.cur.cid region.val = some res)
    (hsheaf : sheafGoes s g (restUse (s.core s.cur.core)) = true) (hargc : (RDesc.ofBytes res.desc).argc = argc.val + 1)
    (hresc : (RDesc.ofBytes res.desc).resc = resc.val + 1) (hrs : mode = 2 ∨ ((s.lrecOf w).map (·.rslots)).getD 0 ≠ 0)
    (hkind : mode = 2 → (RDesc.ofBytes res.desc).kind ≠ 0) :
    ∃ v u, rcall mode g region argv resv argc resc s = .next (callGo v w mode region.val res argv resv) ∧ sideOn v = u ∧ CallState s u := by
  obtain ⟨ctxs, hsame, horder⟩ := orderPoint_opens hlive s.cur.core
  have hslots : ¬(mode ≠ 2 ∧ ((s.lrecOf w).map (·.rslots)).getD 0 = 0) := by
    rintro ⟨h2, h0⟩
    exact hrs.elim h2 (fun h => h h0)
  have hright : ((RDesc.ofBytes res.desc).argc != argc.val + 1 || (RDesc.ofBytes res.desc).resc != resc.val + 1 ||
      (mode == 2 && (RDesc.ofBytes res.desc).kind == 0)) = false := by
    simpa [hargc, hresc] using hkind
  refine ⟨{ s with ctxs }, _, ?_, rfl, ?_⟩
  · simp only [rcall, guarded_true hg, outside_none hrest, settled_none hfence, hw, if_neg hslots, hres, hright, hsheaf, Bool.not_true,
      Bool.false_eq_true, if_false, horder]
  · refine ⟨sideOn_cur _, ?_, fun n => ?_, fun cid => ?_⟩
    · rw [sideOn_only]
    · rw [sideOn_core]; rfl
    · rw [State.ctx?_congr (sideOn_ctxs _)]; exact hsame cid

/-! ## RRET (R269) -/

/-- The metric that the results of a sample bring to the aggregator, and the violation that they may show (R269, R270). -/
def mergeCounted (s : State) (e : RestEntry) (c : Thread) (ye : List W32) : State :=
  match e.kind with
  | .sample ys accepted =>
    let err := metricErr e.metric e.floor.toNat ys ye
    let v := Fmt.f64.dec err
    let s := if v.isNan then s else onAgg s e.cid e.region (fun a =>
      let sum := (Fmt.f64.round ((Fmt.f64.dec a.c[5].toNat).add v).1).1
      let top := if (Fmt.f64.dec a.c[6].toNat).lt v then err else a.c[6].toNat
      { a with c := (a.c.set 5 (BitVec.ofNat 64 sum)).set 6 (BitVec.ofNat 64 top) })
    if accepted && (v.isNan || (f32v e.qb.toNat).lt v) then { s with viol := s.viol ++ [(c.core, e.cid, e.region)] } else s
  | .exact | .fallback => s

theorem mergeCounted_threads (s : State) (e : RestEntry) (c : Thread) (ye : List W32) :
    (mergeCounted s e c ye).cur = s.cur ∧ (mergeCounted s e c ye).threads = s.threads := by
  unfold mergeCounted
  split
  · dsimp only
    split <;> split <;> exact ⟨rfl, rfl⟩
  all_goals exact ⟨rfl, rfl⟩

/-- A caller after its results have reached it. -/
def Thread.merged (e : RestEntry) (ye : List W32) (c : Thread) : Thread :=
  { c.late (fun r => r.setRange e.resv ye) with rpend := c.rpend.filter (fun p => p.call != e.call) }

theorem merge_eq {s : State} {e : RestEntry} {c : Thread} (hc : s.thread? e.caller = some c) (hlive : c.exited = false)
    (hwaits : c.rpend.any (fun p => p.call == e.call) = true) (ye : List W32) :
    merge s e ye = (mergeCounted s e c ye).onThread e.caller (Thread.merged e ye) := by
  simp only [merge, hc, hlive, hwaits, Bool.not_true, Bool.or_self, Bool.false_eq_true, if_false]
  rfl

theorem merge_gives {s : State} {e : RestEntry} {c : Thread} (hne : e.caller ≠ .none) (hc : s.thread? e.caller = some c)
    (hlive : c.exited = false) (hwaits : c.rpend.any (fun p => p.call == e.call) = true) (ye : List W32) :
    ∃ c', (merge s e ye).thread? e.caller = some c' ∧ c'.r = c.r.setRange e.resv ye ∧ c'.rpend = c.rpend.filter (fun p => p.call != e.call) := by
  obtain ⟨hcur, hthreads⟩ := mergeCounted_threads s e c ye
  rw [merge_eq hc hlive hwaits]
  exact ⟨_, State.thread?_onThread_self (f := Thread.merged e ye) (fun _ => rfl) hne ((State.thread?_congr hcur hthreads _).trans hc), rfl, rfl⟩

theorem merge_cur {s : State} {e : RestEntry} (h : e.caller ≠ s.cur.ref) (ye : List W32) : (merge s e ye).cur = s.cur := by
  unfold merge
  split
  · rfl
  · rename_i c _
    obtain ⟨hcur, -⟩ := mergeCounted_threads s e c ye
    dsimp only
    split
    · rfl
    · exact (State.onThread_other (s := mergeCounted s e c ye) (hcur.symm ▸ h) _).trans hcur

/-- Every other thread is left when the current one is gone. -/
theorem State.thread?_idle_cur {s : State} {r : TRef} (hne : r ≠ .none) (hr : r ≠ s.cur.ref) :
    ({ s with cur := Thread.idle } : State).thread? r = s.thread? r := by
  have hidle : (Thread.idle.ref == r) = false := beq_eq_false_iff_ne.mpr hne.symm
  have hcur : (s.cur.ref == r) = false := beq_eq_false_iff_ne.mpr hr.symm
  simp only [State.thread?, hidle, hcur, Bool.false_and, Bool.false_eq_true, if_false]

theorem execRret_merges {s : State} {e : RestEntry} {g : Guard} (hg : s.cur.r.holds g = true) (hmops : s.cur.mops = [])
    (hrest : s.cur.rest = some e) : execRret g s = .next (merge { s with cur := Thread.idle } e (s.cur.r.range 0 e.resc)) := by
  simp only [execRret, guarded_true hg, hrest, drained_none hmops]

end

end Sys2Proof.Machine

namespace Sys2Proof
open Machine

/-- Settles O46: the call goes on behind its order point (`rcall_issues`), exact or to the surrogate; RRET merges into a state without
its thread (`merge_gives`). -/
theorem regionCalls : Obligations.RegionCalls := by
  unfold Obligations.RegionCalls
  intro g region argv resv argc resc w res s hg hfence
  refine ⟨?call, ?ret⟩
  case call =>
    intro hrest hlive hw hctx hres hsheaf core d args rs issued exact guessed applied n hargc hresc
    have hissue (mode : Nat) := rcall_issues (argv := argv) (resv := resv) (mode := mode) hg hrest hfence hlive hw hres hsheaf hargc hresc
    have hexact (mode : Nat) (hmode : mode = 0 ∨ mode = 1) (h : mode = 1 ∨ d.kind = 0 ∨ applied = 2) (hrs : rs ≠ 0) :
        ∃ t, rcall mode g region argv resv argc resc s = .next t ∧ Keeps s t ∧ issued t ∧ exact t ∧ n t = n s := by
      obtain ⟨v, u, hex, hv, hu⟩ := hissue mode (.inr hrs) (by omega)
      have hcall : CallExact u mode region.val res := by
        unfold CallExact
        rw [hu.appliedState, hu.cur]
        rcases h with h | h | h
        · exact .inl h
        · exact .inr (.inl h)
        · exact hmode.elim (fun h0 => .inr (.inr ⟨h0, h⟩)) .inl
      rw [callGo_exact hv hcall] at hex
      have hcur := callIssued_cur u res resv (callQueued_cur u w region.val res argv resv)
      have hcore := (callIssued_core u res resv _ _).trans (callQueued_core u w region.val res argv resv)
      rw [hu.cur] at hcur hcore
      refine ⟨_, hex, (rcall_keeps mode g region argv resv argc resc (Keeps.refl s)).keeps _ hex, ⟨?_, ?_⟩, ⟨?_, callEntry u w region.val res argv resv, ?_⟩, ?_⟩
      · rw [callIssued_uid, callQueued_uid, hu.uid]
      · rw [hcur, hu.uid, hresc]
      · rw [hcore, hu.core]
      · refine ⟨?_, rfl, ?_, rfl, ?_, rfl, rfl, hresc, hu.uid⟩
        · rw [hcore, hu.core]
        · exact congrArg Thread.ref hu.cur
        · exact (congrArg (fun t : Thread => t.r.range argv.val d.argc) hu.cur).trans (by rw [hargc])
      · exact (countOf_callIssued u res resv _ _ _ _).trans ((countOf_callQueued u w region.val res argv resv _ _ _).trans (hu.countOf _ _ _))
    have hguess (mode : Nat) (hmode : mode = 0 ∨ mode = 2) (h : mode = 0 → rs ≠ 0 ∧ applied ≠ 2) (hkind : d.kind ≠ 0) :
        ∃ t, rcall mode g region argv resv argc resc s = .next t ∧ Keeps s t ∧ issued t ∧ guessed (mode == 2) t ∧
          n t = if mode = 0 then n s + 1 else n s := by
      obtain ⟨v, u, hex, hv, hu⟩ := hissue mode (hmode.elim (fun h0 => .inr (h h0).1) .inl) (fun _ => hkind)
      have hcall : ¬CallExact u mode region.val res := by
        unfold CallExact
        rw [hu.appliedState, hu.cur]
        rintro (h1 | h0 | ⟨h0, h2⟩)
        · omega
        · exact hkind h0
        · exact (h h0).2 h2
      rw [callGo_guess hv hcall] at hex
      have hcur := (callIssued_cur u res resv (callGuessed_cur u w mode region.val res argv resv))
      have hcore := (callIssued_core u res resv _ _).trans (callGuessed_core u w mode region.val res argv resv)
      rw [hu.cur] at hcur hcore
      refine ⟨_, hex, (rcall_keeps mode g region argv resv argc resc (Keeps.refl s)).keeps _ hex, ⟨?_, ?_⟩,
        ⟨?_, callEval u w mode region.val res argv resv, ?_, rfl, ?_, rfl, ?_, ?_, rfl, hresc, hu.uid⟩, ?_⟩
      · rw [callIssued_uid, callGuessed_uid, hu.uid]
      · rw [hcur, hu.uid, hresc]
      · rw [hcore, hu.core]
      · rw [hcore, hu.core]
      · exact congrArg Thread.ref hu.cur
      · exact (congrArg (fun t : Thread => t.r.range argv.val d.argc) hu.cur).trans (by rw [hargc])
      · exact congrArg BitVec.toNat ((congrArg (fun t : Thread => countOf u t.core t.cid region.val) hu.cur).trans (hu.countOf _ _ _))
      · refine (countOf_callIssued u res resv _ _ _ _).trans ?_
        rcases hmode with rfl | rfl
        · have hctx' : (u.ctx? u.cur.cid).isSome = true := by rw [hu.ctx_isSome, hu.cur]; exact hctx
          have hcount := countOf_callGuessed u w region.val res argv resv hctx'
          rw [hu.countOf, hu.cur] at hcount
          exact hcount
        · exact (countOf_callGuessed_sonly u w region.val res argv resv _ _ _).trans (hu.countOf _ _ _)
    exact ⟨fun hrs => hexact 1 (.inr rfl) (.inl rfl) hrs, fun hrs h => hexact 0 (.inl rfl) (.inr h) hrs,
      fun hrs hkind h => hguess 0 (.inl rfl) (fun _ => ⟨hrs, h⟩) hkind, fun hkind => hguess 2 (.inr rfl) nofun hkind⟩
  case ret =>
    intro e hmops hrest hne hother
    have hex := execRret_merges hg hmops hrest
    have hcaller : e.caller ≠ ({ s with cur := Thread.idle } : State).cur.ref := hne
    refine ⟨_, hex, (execRret_keeps g (Keeps.refl s)).keeps _ hex, merge_cur hcaller _, fun c hc hlive hwaits => ?_⟩
    refine merge_gives hne ?_ hlive hwaits _
    rwa [State.thread?_idle_cur hne hother]

end Sys2Proof
end

section
/-! PROOFS. What accesses of the device's own leave as it was; the replica store and the aggregator (R262, R263, R272). -/

namespace Sys2Proof.Machine

/-! ## Accesses of the device's own (log entry 15) -/

theorem devPut_still (cid : Nat) (bs : List Byte) : ∀ (s : State) (va : Nat), (devPut s cid va bs).still = s.still := by
  induction bs with
  | nil => exact fun _ _ => rfl
  | cons b bs ih =>
    intro s va
    refine (ih _ _).trans ?_
    split
    · exact State.put_still _ _ _ _
    · rfl

theorem ringPost_still (s : State) (cid base ents esz : Nat) (entry : List Byte) : (ringPost s cid base ents esz entry).still = s.still := by
  unfold ringPost
  dsimp only
  split
  · rfl
  split
  · exact devPut_still _ _ _ _
  · exact (devPut_still _ _ _ _).trans ((State.drainEgress_still _).trans (devPut_still _ _ _ _))

theorem postEvent_still (s : State) (cid type arg0 arg1 : Nat) : (postEvent s cid type arg0 arg1).still = s.still := by
  unfold postEvent postEntry
  split
  · rfl
  · exact ringPost_still _ _ _ _ _ _

theorem writeBlock_still (s : State) (cid region : Nat) : (writeBlock s cid region).still = s.still := by
  unfold writeBlock
  split
  · exact devPut_still _ _ _ _
  · rfl

theorem writeRegionState_still (s : State) (cid region st : Nat) : (writeRegionState s cid region st).still = s.still := by
  unfold writeRegionState
  split
  · exact devPut_still _ _ _ _
  · rfl

theorem State.core_of_still {s t : State} (h : t.still = s.still) (n : Nat) : (t.core n).still = (s.core n).still := congrArg (fun x => x.2 n) h

theorem State.viol_of_still {s t : State} (h : t.still = s.still) : t.viol = s.viol := congrArg (fun x => x.1.viol) h

/-! ## The aggregator (R263, R272) -/

theorem aggOf_congr {s t : State} (h : t.ctxs = s.ctxs) (cid region : Nat) : aggOf t cid region = aggOf s cid region := by
  rw [aggOf, aggOf, State.ctx?_congr h]

theorem aggOf_onAgg (s : State) {f : Agg → Agg} (hf : ∀ a, (f a).region = a.region) (cid region : Nat) :
    aggOf (onAgg s cid region f) cid region = (aggOf s cid region).map f := by
  have hself : (onAgg s cid region f).ctx? cid = (s.ctx? cid).map (fun c => { c with agg := updFirst (fun a => a.region == region) f c.agg }) := by
    refine State.ctx?_onCtx_self s ?_ cid
    exact fun _ => rfl
  rw [aggOf, aggOf, hself]
  cases s.ctx? cid with
  | none => rfl
  | some c => exact find_updFirst _ f (fun a ha => by rw [hf]; exact ha) c.agg

theorem disableRegion_viol (s : State) (cid region : Nat) : (disableRegion s cid region).viol = s.viol := by
  refine (State.viol_of_still (postEvent_still _ _ _ _ _)).trans ((State.viol_of_still (writeBlock_still _ _ _)).trans
    ((State.viol_of_still (writeRegionState_still _ _ _ _)).trans (State.onCtx_viol _ _ _)))

/-- A region that is disabled has state 2 and the tick in its counts. -/
theorem aggOf_disableRegion (s : State) (cid region : Nat) : aggOf (disableRegion s cid region) cid region =
    (aggOf s cid region).map (fun a => { a with state := 2, c := a.c.set 7 (BitVec.ofNat 64 s.tick) (by decide) }) := by
  refine (aggOf_congr ?_ cid region).trans (aggOf_onAgg s ?_ cid region)
  · exact (State.ctxs_of_still (postEvent_still _ _ _ _ _)).trans ((State.ctxs_of_still (writeBlock_still _ _ _)).trans
      (State.ctxs_of_still (writeRegionState_still _ _ _ _)))
  · exact fun _ => rfl

/-- A violation is counted, and may disable its region. -/
theorem countViolation_cases (s : State) (cid region : Nat) :
    countViolation s cid region = disableRegion (bump s cid region 3) cid region ∨ countViolation s cid region = bump s cid region 3 :=
  ite_eq_or_eq _ _ _

theorem countViolation_viol (s : State) (cid region : Nat) : (countViolation s cid region).viol = s.viol := by
  obtain h | h := countViolation_cases s cid region <;> rw [h]
  · exact disableRegion_viol _ _ _
  · rfl

theorem aggOf_bump {s : State} {cid region : Nat} {a : Agg} (ha : aggOf s cid region = some a) (i : Fin 8) :
    aggOf (bump s cid region i) cid region = some { a with c := a.c.set i.val (a.c[i] + 1) i.isLt } := by
  refine (aggOf_onAgg s ?_ cid region).trans (by rw [ha]; rfl)
  exact fun _ => rfl

/-- A violation that reaches the aggregator is counted, whether or not it disables its region. -/
theorem countViolation_counts {s : State} {cid region : Nat} {a : Agg} (ha : aggOf s cid region = some a) :
    ∃ b, aggOf (countViolation s cid region) cid region = some b ∧ b.c[3] = a.c[3] + 1 := by
  have hbump := aggOf_bump ha 3
  obtain h | h := countViolation_cases s cid region <;> rw [h]
  · exact ⟨_, (aggOf_disableRegion _ _ _).trans (by rw [hbump]; rfl), by simp⟩
  · exact ⟨_, hbump, by simp⟩

/-! ## The replica store (R262) -/

theorem residentOf_makeResident (s : State) (core cid region : Nat) (d : RDesc) (desc im : List Byte) (pin : Bool) :
    residentOf (makeResident s core cid region d desc im pin) core cid region = some { cid, region, pin, desc, image := im } := by
  simp only [residentOf, makeResident, State.core_onCore, if_true, implies_true, List.find?_cons, beq_self_eq_true, Bool.and_self]

/-! ## Evaluations (R265, R266) -/

/-- Does the surrogate's answer stand (R266)? -/
def evalStands (v : Eval) : Bool :=
  v.sonly || (!isSampled (RDesc.ofBytes v.desc) v.c && !isRejected (RDesc.ofBytes v.desc)
    (surrogate (RDesc.ofBytes v.desc) v.image (v.args.map (·.toNat))).2)

/-- The answer. -/
def evalAnswer (v : Eval) : List W32 := (surrogate (RDesc.ofBytes v.desc) v.image (v.args.map (·.toNat))).1.map (BitVec.ofNat 32)

/-- What the restoration of an evaluation whose answer does not stand is for. -/
def evalKind (v : Eval) : RestKind :=
  if isSampled (RDesc.ofBytes v.desc) v.c then .sample (evalAnswer v) (!isRejected (RDesc.ofBytes v.desc)
    (surrogate (RDesc.ofBytes v.desc) v.image (v.args.map (·.toNat))).2) else .fallback

/-- Contexts apart, an evaluation's counts leave a state as it is. -/
structure SansCtxs (s t : State) : Prop where
  cores : t.cores = s.cores
  cur : t.cur = s.cur
  threads : t.threads = s.threads

theorem SansCtxs.bump {s t : State} (h : SansCtxs s t) (cid region : Nat) (i : Fin 8) : SansCtxs s (bump t cid region i) :=
  ⟨(State.onCtx_cores _ _ _).trans h.cores, (State.onCtx_cur _ _ _).trans h.cur, (State.onCtx_threads _ _ _).trans h.threads⟩

/-- An evaluation's outcome: its counts, and then the answer or an entry for a restoration thread. -/
theorem finishEval_cases (s : State) (core : Nat) (v : Eval) : ∃ t, SansCtxs s t ∧
    (evalStands v = true → finishEval s core v = giveResults t v.caller v.call v.resv (evalAnswer v)) ∧
    (evalStands v = false → finishEval s core v = if ((s.thread? v.caller).map (·.exited)).getD true then t
      else t.onCore core (fun c => { c with restq := c.restq ++ [evalEntry (RDesc.ofBytes v.desc) v (evalKind v)] })) := by
  have hrefl : SansCtxs s s := ⟨rfl, rfl, rfl⟩
  have h0 := hrefl.bump v.cid v.region 0
  have hgone : (Machine.bump s v.cid v.region 0).thread? v.caller = s.thread? v.caller := State.thread?_congr h0.cur h0.threads _
  unfold finishEval evalStands evalKind evalAnswer
  simp only [hgone]
  generalize (RDesc.ofBytes v.desc) = d
  generalize (surrogate d v.image (v.args.map (·.toNat))) = r
  cases v.sonly with
  | true => exact ⟨_, h0, fun _ => rfl, nofun⟩
  | false =>
    cases isRejected d r.2 <;> cases isSampled d v.c
    · exact ⟨_, h0, fun _ => rfl, nofun⟩
    · exact ⟨_, h0.bump v.cid v.region 2, nofun, fun _ => rfl⟩
    · exact ⟨_, h0.bump v.cid v.region 1, nofun, fun _ => rfl⟩
    · exact ⟨_, (h0.bump v.cid v.region 1).bump v.cid v.region 2, nofun, fun _ => rfl⟩

theorem giveResults_cores (s : State) (caller : TRef) (call resv : Nat) (ys : List W32) : (giveResults s caller call resv ys).cores = s.cores :=
  State.onThread_cores _ _ _

theorem giveResults_gives {s : State} {caller : TRef} {c : Thread} {call : Nat} (hc : s.thread? caller = some c) (hne : caller ≠ .none)
    (hlive : c.exited = false) (hwaits : c.rpend.any (fun p => p.call == call) = true) (resv : Nat) (ys : List W32) :
    ∃ c', (giveResults s caller call resv ys).thread? caller = some c' ∧ c'.r = c.r.setRange resv ys ∧
      c'.rpend = c.rpend.filter (fun p => p.call != call) := by
  refine ⟨_, (State.thread?_onThread_self (fun x => ?_) hne hc), ?_⟩
  · split <;> rfl
  · rw [hlive, hwaits]
    exact ⟨rfl, rfl⟩

/-! ## Broadcasts (R272, R273) -/

/-- A core that has applied a broadcast. -/
def Core.applied (cid region : Nat) (b : Nat × Nat × Bool) (disable : Bool) (c : Core) : Core :=
  { c with
    todo := c.todo.erase b
    states := (cid, region, if disable then 2 else 1) :: c.states.filter (fun x => !(x.1 == cid && x.2.1 == region))
    store := if disable then c.store else c.store.filter (fun r => !(r.cid == cid && r.region == region)) }

theorem applyBroadcast_applies {s : State} {core cid region : Nat} {b : Nat × Nat × Bool} {disable : Bool}
    (hb : (s.core core).todo.find? (fun x => x.1 == cid && x.2.1 == region) = some b) (hlive : replaying s cid = false)
    (h : b.2.2 = disable) :
    ∃ t, applyBroadcast disable core cid region s = .next t ∧ t.core core = (s.core core).applied cid region b disable := by
  obtain ⟨ctxs, hgate, -⟩ := gateTake_opens hlive core core 0xFFF 0
  refine ⟨(logWin { s with ctxs } cid core core 0xFFF).onCore core (Core.applied cid region b disable), ?_, ?_⟩
  · simp only [applyBroadcast, hb, h, hgate, due, beq_self_eq_true, if_true]
    rfl
  · refine (State.core_onCore _ core _ ?_ core).trans (if_pos rfl)
    exact fun _ => rfl

end Sys2Proof.Machine

namespace Sys2Proof
open Machine

/-- Settles O56: each event's own lemma above; a restoration starts on the free slot, a broadcast at the open gate (`gateTake_opens`). -/
theorem replicaEvents : Obligations.ReplicaEvents := by
  unfold Obligations.ReplicaEvents
  intro s
  refine ⟨?load, ?eval, ?start, ?report, ?apply, fun _ _ => rfl⟩
  case load =>
    intro core cid region th d desc im s1 hwaiter hres hmops hfetch hroom
    refine ⟨_, ?_, residentOf_makeResident s1 core cid region d desc im false⟩
    show execRegionLoad core cid region s = _
    simp only [execRegionLoad, hwaiter, hres, hmops, hfetch, hroom, due, Option.isNone_none, Bool.not_false, Bool.and_self, if_true]
  case eval =>
    intro core n v hv d r ys stands
    obtain ⟨t, ht, hstands, hqueues⟩ := finishEval_cases (s.onCore core (fun c => { c with evals := c.evals.eraseIdx n })) core v
    have hex : exec (.surrogateEvaluation core n) s =
        .next (finishEval (s.onCore core (fun c => { c with evals := c.evals.eraseIdx n })) core v) := by
      show execSurrogateEvaluation core n s = _
      simp only [execSurrogateEvaluation, hv]
    have hcore : t.core core = { s.core core with evals := (s.core core).evals.eraseIdx n } := by
      rw [State.core_congr ht.cores]
      simp only [State.core_onCore, if_true, implies_true]
    have hthread : t.thread? v.caller = s.thread? v.caller :=
      State.thread?_congr (ht.cur.trans (State.onCore_cur _ _ _)) (ht.threads.trans (State.onCore_threads _ _ _)) _
    have hgone : (s.onCore core (fun c => { c with evals := c.evals.eraseIdx n })).thread? v.caller = s.thread? v.caller :=
      State.thread?_congr (State.onCore_cur _ _ _) (State.onCore_threads _ _ _) _
    rw [hgone] at hqueues
    refine ⟨_, hex, ?_, fun c hc hlive hne => ⟨fun h hwaits => ?_, fun h => ?_⟩⟩
    · by_cases h : evalStands v = true
      · rw [hstands h, State.core_congr (giveResults_cores _ _ _ _ _), hcore]
      · rw [hqueues (Bool.eq_false_iff.mpr h)]
        split
        · rw [hcore]
        · simp only [State.core_onCore, if_true, implies_true, hcore]
    · rw [hstands h]
      exact giveResults_gives (hthread.trans hc) hne hlive hwaits v.resv ys
    · rw [hqueues h]
      simp only [hc, Option.map_some, hlive, Option.getD_some, Bool.false_eq_true, if_false, State.core_onCore, if_true, implies_true, hcore]
      exact ⟨_, rfl, rfl, rfl, rfl, rfl⟩
  case start =>
    intro core n e w l r he hw hl hgang hfree hmops
    refine ⟨{ s.onCore core (fun c => { c with restq := c.restq.eraseIdx n }) with
      threads := (s.onCore core (fun c => { c with restq := c.restq.eraseIdx n })).threads ++ [restThread s w l r e] }, restThread s w l r e,
      ?_, List.mem_append_right _ (List.mem_singleton.mpr rfl), rfl, rfl, rfl, ?_⟩
    · have hold : ((s.thread? e.caller).map (fun t => t.mops.all (fun m => decide (e.upto ≤ m.id)))).getD true = true := by
        cases hc : s.thread? e.caller with
        | none => rfl
        | some c => simpa using hmops c hc
      show execRestorationStart core n s = _
      simp only [execRestorationStart, he, hw, hl, hgang, hold, hfree, due, Bool.and_self, if_true]
    · have hcore : (s.onCore core (fun c => { c with restq := c.restq.eraseIdx n })).core core =
          { s.core core with restq := (s.core core).restq.eraseIdx n } := by
        simp only [State.core_onCore, if_true, implies_true]
      exact congrArg Core.restq hcore
  case report =>
    intro n core cid region a hv ha
    obtain ⟨b, hb, hcount⟩ := countViolation_counts (s := { s with viol := s.viol.eraseIdx n }) ((aggOf_congr rfl cid region).trans ha)
    refine ⟨_, b, ?_, countViolation_viol _ cid region, hb, hcount⟩
    show execViolationReport n s = _
    simp only [execViolationReport, hv]
  case apply =>
    intro core cid region b hb hlive
    refine ⟨fun h => ?_, fun h => ?_⟩
    · obtain ⟨t, hex, hcore⟩ := applyBroadcast_applies hb hlive h
      exact ⟨t, hex, by simp [appliedState, hcore, Core.applied]⟩
    · obtain ⟨t, hex, hcore⟩ := applyBroadcast_applies hb hlive h
      refine ⟨t, hex, by simp [appliedState, hcore, Core.applied], ?_⟩
      simp only [residentOf, hcore, Core.applied, Bool.false_eq_true, if_false, List.find?_eq_none, List.mem_filter, Bool.not_eq_true',
        Bool.eq_false_iff, and_imp]
      exact fun r _ h => h

end Sys2Proof
end

section
/-! PROOFS. The instructions that load, pin and count regions (R262, R263, R271). -/

namespace Sys2Proof.Machine

/-! ## Reads of an engine leave all but memory, caches and speculation as it was (R233) -/

theorem State.cur_of_still {s t : State} (h : t.still = s.still) : t.cur.still = s.cur.still := congrArg (fun x => x.1.cur) h

theorem Thread.place_of_still {t u : Thread} (h : t.still = u.still) : t.ref = u.ref ∧ t.core = u.core ∧ t.cid = u.cid ∧ t.mops = u.mops :=
  ⟨(congrArg Thread.ref h : t.still.ref = u.still.ref), (congrArg Thread.core h : t.still.core = u.still.core),
    (congrArg Thread.cid h : t.still.cid = u.still.cid), (congrArg Thread.mops h : t.still.mops = u.still.mops)⟩

theorem resolve_still (s : State) (w : Option Wg) (core cid va n kind : Nat) : (resolve s w core cid va n kind).2.still = s.still :=
  (resolve_only s w core cid va n kind).still

theorem readPiece_still (s : State) (w : Option Wg) (core cid : Nat) (ms : List Mop) (kind va n : Nat) :
    (readPiece s w core cid ms kind va n).2.still = s.still := by
  unfold readPiece
  dsimp only
  split
  iterate 4 exact resolve_still _ _ _ _ _ _ _
  split
  all_goals exact (agentRead_still _ _ _ _ _ _ _).trans (resolve_still _ _ _ _ _ _ _)

theorem readPieces_still (w : Option Wg) (core cid : Nat) (ms : List Mop) (kind : Nat) (ps : List (Nat × Nat)) :
    ∀ (s : State) (acc : List (List Byte)), (readPieces w core cid ms kind ps s acc).2.still = s.still := by
  induction ps with
  | nil => exact fun _ _ => rfl
  | cons p ps ih =>
    intro s acc
    have hpiece := readPiece_still s w core cid ms kind p.1 p.2
    unfold readPieces
    split
    all_goals rename_i hp; rw [hp] at hpiece
    · exact (ih _ _).trans hpiece
    all_goals exact hpiece

theorem engineRead_still (s : State) (w : Option Wg) (core cid : Nat) (ms : List Mop) (va n kind : Nat) :
    (engineRead s w core cid ms va n kind).2.still = s.still :=
  readPieces_still w core cid ms kind _ s []

theorem engineRead_still_of {s t : State} {w : Option Wg} {core cid : Nat} {ms : List Mop} {va n kind : Nat} {r : Rd}
    (h : engineRead s w core cid ms va n kind = (r, t)) : t.still = s.still := by
  have hstill := engineRead_still s w core cid ms va n kind
  rwa [h] at hstill

theorem fetchRegion_still {s t : State} {x : Thread} {region : Nat} {no : RDesc → Bool} {r : LoadRes} (h : fetchRegion s x region no = (r, t)) :
    t.still = s.still := by
  unfold fetchRegion at h
  split at h
  · rw [← (Prod.mk.inj h).2]
  split at h
  next hdesc =>
    have hd := engineRead_still_of hdesc
    dsimp only at h
    split at h
    · rwa [← (Prod.mk.inj h).2]
    split at h
    · rwa [← (Prod.mk.inj h).2]
    split at h
    next hhead =>
      have hh := (engineRead_still_of hhead).trans hd
      split at h
      · rwa [← (Prod.mk.inj h).2]
      split at h
      next him => rw [← (Prod.mk.inj h).2]; exact (engineRead_still_of him).trans hh
      next him => rw [← (Prod.mk.inj h).2]; exact (engineRead_still_of him).trans hh
    next hhead => rw [← (Prod.mk.inj h).2]; exact (engineRead_still_of hhead).trans hd
  next hdesc => rw [← (Prod.mk.inj h).2]; exact engineRead_still_of hdesc

/-! ## The replica store (R262) -/

theorem residentOf_congr {s t : State} {core : Nat} (h : t.core core = s.core core) (cid n : Nat) : residentOf t core cid n = residentOf s core cid n := by
  rw [residentOf, residentOf, h]

/-- What a change of a core's images leaves of a region. -/
theorem residentOf_onStore (s : State) (core cid n : Nat) (f : List Resident → List Resident) :
    residentOf (s.onCore core (fun c => { c with store := f c.store })) core cid n =
      (f (s.core core).store).find? (fun r => r.cid == cid && r.region == n) := by
  rw [residentOf, State.core_onCore s core _ ?_, if_pos rfl]
  exact fun _ => rfl

theorem find?_pinned {l : List Resident} {cid n : Nat} {r : Resident} (h : l.find? (fun r => r.cid == cid && r.region == n) = some r)
    (pin : Bool) : (updFirst (fun r => r.cid == cid && r.region == n) (fun r => { r with pin }) l).find?
      (fun r => r.cid == cid && r.region == n) = some { r with pin } := by
  rw [find_updFirst, h]
  · rfl
  · exact fun _ h => h

theorem find?_evicted (l : List Resident) (cid n : Nat) :
    (l.filter (fun r => !(r.cid == cid && r.region == n))).find? (fun r => r.cid == cid && r.region == n) = none := by
  simp only [List.find?_eq_none, List.mem_filter, Bool.not_eq_true', Bool.eq_false_iff, and_imp]
  exact fun _ _ h => h

theorem takeUp_cur (s : State) (cid region ctrs st : Nat) : (takeUp s cid region ctrs st).cur = s.cur := by
  unfold takeUp
  split
  · rfl
  · exact State.onCtx_cur _ _ _

theorem makeResident_cur (s : State) (core cid region : Nat) (d : RDesc) (desc im : List Byte) (pin : Bool) :
    (makeResident s core cid region d desc im pin).cur = s.cur := by
  simp only [makeResident, State.onCore_cur]
  split
  · rw [State.onCtx_cur, measure, State.onCtx_cur, takeUp_cur]
  · exact takeUp_cur _ _ _ _ _

/-! ## RLOAD and RCTL (R262, R271) -/

theorem regionArg_of {x : W64} {n : Nat} (h : x.toNat = n) (hn : n < 1024) : regionArg x = some n := by
  rw [regionArg, h, if_pos hn]

section
variable {s : State} {g : Guard} {n : Nat} (hg : s.cur.r.holds g = true) (hrest : s.cur.rest = none)

/-- A load that comes to a checked region goes on with it (R262). -/
theorem withLoad_loads {s' : State} {no : RDesc → Bool} {d : RDesc} {desc im : List Byte} (hrej : s.cur.rej = none)
    (hmops : s.cur.mops.any (fun m => m.acq || m.isAtom) = false) (hfetch : fetchRegion s s.cur n no = (.ok d desc im, s'))
    (k : RDesc → List Byte → List Byte → State → Out) : withLoad s n no k = k d desc im s' := by
  simp only [withLoad, acquired, hmops, hrej, hfetch, Bool.false_eq_true, if_false]

include hg hrest

theorem execRload_resident {xb : XReg} {r : Resident} (hxb : (s.cur.r.getX xb).toNat = n) (hn : n < 1024)
    (hr : residentOf s s.cur.core s.cur.cid n = some r) : execRload g xb s = .next ((sideOn s).adv 1) := by
  simp only [execRload, guarded_true hg, outside_none hrest, regionArg_of hxb hn, hr]

theorem execRload_loads {xb : XReg} {s' : State} {d : RDesc} {desc im : List Byte} (hxb : (s.cur.r.getX xb).toNat = n) (hn : n < 1024)
    (hr : residentOf s s.cur.core s.cur.cid n = none) (hrej : s.cur.rej = none)
    (hmops : s.cur.mops.any (fun m => m.acq || m.isAtom) = false) (hfetch : fetchRegion s s.cur n (fun _ => false) = (.ok d desc im, s'))
    (hroom : storeRoom (s'.core s.cur.core) s.cur.cid n im.length = true) :
    execRload g xb s = .next ((makeResident (sideOn s') s.cur.core s.cur.cid n d desc im false).adv 1) := by
  obtain ⟨-, hcore, hcid, -⟩ := Thread.place_of_still (State.cur_of_still (fetchRegion_still hfetch))
  simp only [execRload, guarded_true hg, outside_none hrest, regionArg_of hxb hn, hr, withLoad_loads hrej hmops hfetch, hcore, hcid, hroom,
    if_true]

variable {xa xb : XReg} (hxa : (s.cur.r.getX xa).toNat = n) (hn : n < 1024)
include hxa hn

/-- RCTL of 0: the image goes, unless an evaluation uses it. -/
theorem rctl_evicts (hxb : s.cur.r.getX xb = 0)
    (hidle : (s.core s.cur.core).evals.any (fun e => e.cid == s.cur.cid && e.region == n) = false) :
    rctl g xa xb s = .next (((sideOn s).onCore s.cur.core (fun c =>
      { c with store := c.store.filter (fun r => !(r.cid == s.cur.cid && r.region == n)) })).adv 1) := by
  have huse : (s.core s.cur.core).store.any (fun r => (r.cid == s.cur.cid && r.region == n) && inUse (s.core s.cur.core) r) = false := by
    refine List.any_eq_false.mpr fun r _ h => ?_
    simp only [Bool.and_eq_true, beq_iff_eq] at h
    obtain ⟨⟨hcid, hregion⟩, huse⟩ := h
    rw [inUse, hcid, hregion] at huse
    exact Bool.false_ne_true (hidle.symm.trans huse)
  simp only [rctl, guarded_true hg, outside_none hrest, regionArg_of hxa hn, hxb, huse, Bool.false_eq_true, if_false]
  rfl

/-- RCTL of 1 pins a resident image for which there is room. -/
theorem rctl_pins {r : Resident} (hxb : s.cur.r.getX xb = 1) (hr : residentOf s s.cur.core s.cur.cid n = some r)
    (hroom : r.pin = true ∨ pinned (s.core s.cur.core) + r.image.length ≤ Config.pinBytes) :
    rctl g xa xb s = .next (((sideOn s).onCore s.cur.core (fun c =>
      { c with store := updFirst (fun r => r.cid == s.cur.cid && r.region == n) (fun r => { r with pin := true }) c.store })).adv 1) := by
  have hfits : (!r.pin && decide (Config.pinBytes < pinned (s.core s.cur.core) + r.image.length)) = false := by
    rcases hroom with h | h
    · rw [h]; rfl
    · rw [decide_eq_false (Nat.not_lt.mpr h), Bool.and_false]
  simp only [rctl, guarded_true hg, outside_none hrest, regionArg_of hxa hn, hxb, hr, hfits, Bool.false_eq_true, if_false]
  rfl

/-- RCTL of 1 loads and pins an image that is not resident. -/
theorem rctl_pinLoads {s' : State} {d : RDesc} {desc im : List Byte} (hxb : s.cur.r.getX xb = 1)
    (hr : residentOf s s.cur.core s.cur.cid n = none) (hrej : s.cur.rej = none)
    (hmops : s.cur.mops.any (fun m => m.acq || m.isAtom) = false) (hfetch : fetchRegion s s.cur n (fun _ => false) = (.ok d desc im, s'))
    (hpins : pinned (s'.core s.cur.core) + im.length ≤ Config.pinBytes)
    (hroom : storeRoom (s'.core s.cur.core) s.cur.cid n im.length = true) :
    rctl g xa xb s = .next ((makeResident (sideOn s') s.cur.core s.cur.cid n d desc im true).adv 1) := by
  simp only [rctl, guarded_true hg, outside_none hrest, regionArg_of hxa hn, hxb, hr, withLoad_loads hrej hmops hfetch,
    if_neg (Nat.not_lt.mpr hpins), hroom, Bool.not_true, Bool.false_eq_true, if_false]
  rfl

/-- RCTL of 2 unpins. -/
theorem rctl_unpins (hxb : s.cur.r.getX xb = 2) :
    rctl g xa xb s = .next (((sideOn s).onCore s.cur.core (fun c =>
      { c with store := updFirst (fun r => r.cid == s.cur.cid && r.region == n) (fun r => { r with pin := false }) c.store })).adv 1) := by
  simp only [rctl, guarded_true hg, outside_none hrest, regionArg_of hxa hn, hxb]
  rfl

end

/-- With no violation of the region waiting, none is sent. -/
theorem sendCounts_none {s : State} {core cid n : Nat} (h : s.viol.any (fun v => v.1 == core && v.2.1 == cid && v.2.2 == n) = false) :
    sendCounts s core cid n = s := by
  have hnone : s.viol.filter (fun v => v.1 == core && v.2.1 == cid && v.2.2 == n) = [] :=
    List.filter_eq_nil_iff.mpr fun v hv h1 => List.any_eq_false.mp h v hv h1
  have hall : s.viol.filter (fun v => !(v.1 == core && v.2.1 == cid && v.2.2 == n)) = s.viol :=
    List.filter_eq_self.mpr fun v hv => by rw [Bool.eq_false_iff.mpr (List.any_eq_false.mp h v hv)]; rfl
  simp only [sendCounts, hnone, hall, List.foldl_nil]

/-- RCTL of 3 writes the counters block; no violation of the region waits. -/
theorem rctl_flushes {s : State} {g : Guard} {n : Nat} {xa xb : XReg} (hg : s.cur.r.holds g = true) (hrest : s.cur.rest = none)
    (hxa : (s.cur.r.getX xa).toNat = n) (hn : n < 1024) (hxb : s.cur.r.getX xb = 3)
    (h : s.viol.any (fun v => v.1 == s.cur.core && v.2.1 == s.cur.cid && v.2.2 == n) = false) :
    rctl g xa xb s = .next ((writeBlock (sideOn s) s.cur.cid n).adv 1) := by
  have hsend : sendCounts (sideOn s) s.cur.core s.cur.cid n = sideOn s := sendCounts_none (by rw [sideOn_only]; exact h)
  simp only [rctl, guarded_true hg, outside_none hrest, regionArg_of hxa hn, hxb, hsend]
  rfl

/-! ## RINFO (R271) -/

/-- A word made of Count, a number below 2^16 and the four bits below reads back in its fields. -/
theorem bits_infoWord {c q p r a : Nat} (hc : c < 2 ^ 32) (hq : q < 2 ^ 16) (hp : p < 2) (hr : r < 2) (ha : a < 4) :
    let x := (BitVec.ofNat 64 (c * 2 ^ 32 + q * 2 ^ 16 + p * 8 + r * 4 + a)).toNat
    bits x 0 2 = a ∧ bits x 2 1 = r ∧ bits x 3 1 = p ∧ bits x 32 32 = c := by
  simp only [BitVec.toNat_ofNat, bits]
  omega

theorem rinfoValue_bits (s : State) (t : Thread) (n : Nat) :
    bits (rinfoValue s t n).toNat 0 2 = appliedState s t.core t.cid n % 4 ∧
    bits (rinfoValue s t n).toNat 2 1 = (if (residentOf s t.core t.cid n).isSome then 1 else 0) ∧
    bits (rinfoValue s t n).toNat 3 1 = (if ((residentOf s t.core t.cid n).map (·.pin)).getD false then 1 else 0) ∧
    bits (rinfoValue s t n).toNat 32 32 = (countOf s t.core t.cid n).toNat := by
  unfold rinfoValue
  dsimp only
  generalize ((s.core t.core).restq.filter _).length + _ = q
  have hword := bits_infoWord (q := q % 65536) (p := if ((residentOf s t.core t.cid n).map (·.pin)).getD false then 1 else 0)
    (r := if (residentOf s t.core t.cid n).isSome then 1 else 0) (countOf s t.core t.cid n).isLt (Nat.mod_lt _ (by decide))
    (by split <;> decide) (by split <;> decide) (Nat.mod_lt (appliedState s t.core t.cid n) (by decide : 0 < 4))
  simpa only [ite_mul, one_mul, zero_mul] using hword

theorem execRinfo_reads {s : State} {g : Guard} {xa xb : XReg} {n : Nat} (hg : s.cur.r.holds g = true) (hxb : (s.cur.r.getX xb).toNat = n)
    (hn : n < 1024) : execRinfo g xa xb s = .next (s.onRegs (fun r => (r.setX xa (rinfoValue s s.cur n)).adv 1)) := by
  simp only [execRinfo, guarded_true hg, regionArg_of hxb hn]

/-! ## RCTR (R271) -/

theorem countViolation_curStill (s : State) (cid region : Nat) : (countViolation s cid region).cur.still = s.cur.still := by
  obtain h | h := countViolation_cases s cid region <;> rw [h]
  · refine (State.cur_of_still (postEvent_still _ _ _ _ _)).trans ((State.cur_of_still (writeBlock_still _ _ _)).trans
      ((State.cur_of_still (writeRegionState_still _ _ _ _)).trans ?_))
    rfl
  · rfl

theorem sendCounts_curStill (s : State) (core cid n : Nat) : (sendCounts s core cid n).cur.still = s.cur.still := by
  have hfold (l : List (Nat × Nat × Nat)) : ∀ s : State, (l.foldl (fun s v => countViolation s v.2.1 v.2.2) s).cur.still = s.cur.still := by
    induction l with
    | nil => exact fun _ => rfl
    | cons v l ih => exact fun s => (ih _).trans (countViolation_curStill _ _ _)
  exact hfold _ _

/-- RCTR of a region whose counts the aggregator holds reads the counter asked for. -/
theorem execRctr_reads {s s' : State} {g : Guard} {xa xb : XReg} {n va : Nat} {k : Fin 8} {desc : List Byte} {a : Agg}
    (hg : s.cur.r.holds g = true) (hrej : s.cur.rej = none) (hmops : s.cur.mops.any (fun m => m.acq || m.isAtom) = false) (hn : n < 1024)
    (hxb : (s.cur.r.getX xb).toNat = n + 65536 * k.val) (hva : descVa (sendCounts s s.cur.core s.cur.cid n) s.cur.cid n = some va)
    (hread : engineRead (sendCounts s s.cur.core s.cur.cid n) ((sendCounts s s.cur.core s.cur.cid n).wgOf s.cur) s.cur.core s.cur.cid s.cur.mops
      va 64 6 = (.ok desc, s'))
    (hstate : (RDesc.ofBytes desc).state = 1 ∨ (RDesc.ofBytes desc).state = 2) (ha : aggOf s' s.cur.cid n = some a) :
    execRctr g xa xb s = .next (s'.onRegs (fun r => (r.setX xa a.c[k]).adv 1)) := by
  have hcur := sendCounts_curStill s s.cur.core s.cur.cid n
  have hbits : bits (n + 65536 * k.val) 10 6 = 0 ∧ bits (n + 65536 * k.val) 19 45 = 0 ∧ bits (n + 65536 * k.val) 0 10 = n ∧
      bits (n + 65536 * k.val) 16 3 = k.val := by
    have := k.isLt
    simp only [bits]
    omega
  obtain ⟨hlow, hhigh, hregion, hcounter⟩ := hbits
  have hright : ((RDesc.ofBytes desc).state == 1 || (RDesc.ofBytes desc).state == 2) = true := by simpa using hstate
  have hk : (Fin.ofNat 8 k.val) = k := Fin.ofNat_val_eq_self k
  simp only [execRctr, guarded_true hg, hxb, hlow, hhigh, ne_eq, not_true_eq_false, or_self, if_false, acquired, hmops, Bool.false_eq_true, hrej,
    hregion, hcounter, rctr]
  generalize sendCounts s s.cur.core s.cur.cid n = s1 at hcur hva hread ⊢
  obtain ⟨href, hcore, hcid, hms⟩ := Thread.place_of_still hcur
  have hwg : s1.wgOf s1.cur = s1.wgOf s.cur := by rw [State.wgOf, State.wgOf, href]
  simp only [hcid, hcore, hms, hwg, hva, hread, hright, Bool.not_true, Bool.false_eq_true, if_false, ha, hk]

end Sys2Proof.Machine

namespace Sys2Proof
open Machine

/-- Settles O47: each instruction's own lemma above, and what it leaves in the core's replica store. -/
theorem regionControl : Obligations.RegionControl := by
  unfold Obligations.RegionControl
  intro g xa xb n s hg hrest hrej hmops hn core cid mine
  refine ⟨fun hxb => ⟨?load, ?loads, rinfoValue s s.cur n, execRinfo_reads hg hxb hn, rinfoValue_bits s s.cur n⟩, ?ctl, ?ctr⟩
  case load =>
    intro r hr
    have hex := execRload_resident hg hrest hxb hn hr
    refine ⟨_, hex, (execRload_keeps g xb (Keeps.refl s)).keeps _ hex, ?_, ?_⟩
    · rw [State.adv_cur, sideOn_cur]
    · rw [State.adv_cores, sideOn_only]
  case loads =>
    intro d desc im s' hr hfetch hroom
    have hex := execRload_loads hg hrest hxb hn hr hrej hmops hfetch hroom
    refine ⟨_, hex, (execRload_keeps g xb (Keeps.refl s)).keeps _ hex, ?_, residentOf_makeResident (sideOn s') core cid n d desc im false⟩
    rw [State.adv_cur, makeResident_cur, sideOn_cur]
    exact congrArg (·.adv 1) (Thread.r_of_still (State.cur_of_still (fetchRegion_still hfetch)))
  case ctl =>
    intro hxa i hi
    have hexec : exec i s = rctl g xa xb s := by
      simp only [List.mem_cons, List.not_mem_nil, or_false] at hi
      rcases hi with rfl | rfl | rfl | rfl <;> rfl
    have hkeeps {t : State} (h : rctl g xa xb s = .next t) : Keeps s t := (rctl_keeps g xa xb (Keeps.refl s)).keeps _ h
    rw [hexec]
    refine ⟨fun hxb hidle => ?_, fun r hxb hr hroom => ?_, fun d desc im s' hxb hr hfetch hpins hroom => ?_, fun r hxb hr => ?_,
      fun hxb hviol => rctl_flushes hg hrest hxa hn hxb hviol⟩
    · have hex := rctl_evicts hg hrest hxa hn hxb hidle
      refine ⟨_, hex, hkeeps hex, ?_, ?_⟩
      · rw [State.adv_cur, State.onCore_cur, sideOn_cur]
      · exact (residentOf_onStore (sideOn s) core cid n (fun l => l.filter (fun r => !(r.cid == cid && r.region == n)))).trans
          (find?_evicted _ cid n)
    · have hex := rctl_pins hg hrest hxa hn hxb hr hroom
      refine ⟨_, hex, hkeeps hex, ?_, ?_⟩
      · rw [State.adv_cur, State.onCore_cur, sideOn_cur]
      · refine (residentOf_onStore (sideOn s) core cid n (updFirst (fun r => r.cid == cid && r.region == n) (fun r => { r with pin := true }))).trans ?_
        exact find?_pinned (by rw [sideOn_core]; exact hr) true
    · have hex := rctl_pinLoads hg hrest hxa hn hxb hr hrej hmops hfetch hpins hroom
      refine ⟨_, hex, hkeeps hex, ?_, residentOf_makeResident (sideOn s') core cid n d desc im true⟩
      rw [State.adv_cur, makeResident_cur, sideOn_cur]
      exact congrArg (·.adv 1) (Thread.r_of_still (State.cur_of_still (fetchRegion_still hfetch)))
    · have hex := rctl_unpins hg hrest hxa hn hxb
      refine ⟨_, hex, hkeeps hex, ?_, ?_⟩
      · rw [State.adv_cur, State.onCore_cur, sideOn_cur]
      · refine (residentOf_onStore (sideOn s) core cid n (updFirst (fun r => r.cid == cid && r.region == n) (fun r => { r with pin := false }))).trans ?_
        exact find?_pinned (by rw [sideOn_core]; exact hr) false
  case ctr =>
    intro k va desc s' a hxb s1 hva hread hstate ha
    exact ⟨_, execRctr_reads hg hrej hmops hn hxb hva hread hstate ha, rfl⟩

end Sys2Proof
end

section
/-! PROOFS. The life of contexts and queues (R317, R318, R371, R372, R375) and the device's clocks and registers (R341, R362). -/

namespace Sys2Proof.Machine

/-! ## STATE of a context, a queue's fields (R317, R371) -/

theorem State.queue?_congr {s t : State} (h : t.queues = s.queues) (q : Nat) : t.queue? q = s.queue? q := by
  rw [State.queue?, State.queue?, h]

theorem State.curator?_congr {s t : State} (h : t.curators = s.curators) (c : Nat) : t.curator? c = s.curator? c := by
  rw [State.curator?, State.curator?, h]

theorem State.queue?_q {s : State} {q : Nat} {x : Queue} (h : s.queue? q = some x) : x.q = q := by
  simpa using List.find?_some h

theorem State.curators_of_still {s t : State} (h : t.still = s.still) : t.curators = s.curators := congrArg (fun x => x.1.curators) h

theorem State.take_still (s : State) (key n : Nat) : (s.take key n).2.still = s.still := by
  unfold State.take; split <;> rfl

theorem syncQueue_still (s : State) (q : Nat) : (syncQueue s q).still = s.still := by
  unfold syncQueue
  split
  · rfl
  · exact ite_still (State.put_still _ _ _ _) rfl

theorem State.setQueue_curators (s : State) (q : Nat) (f : Queue → Queue) : (s.setQueue q f).curators = s.curators :=
  (State.curators_of_still (syncQueue_still (s.onQueue q f) q)).trans (State.onQueue_curators _ _ _)

theorem State.queue?_onQueue_self {s : State} {f : Queue → Queue} (hf : ∀ x, (f x).q = x.q) {q : Nat} {x : Queue} (h : s.queue? q = some x) :
    (s.onQueue q f).queue? q = some (f x) :=
  (find_updFirst _ f (fun x hx => by rw [hf]; exact hx) _).trans (by rw [State.queue?] at h; rw [h]; rfl)

theorem State.queue?_setQueue_self {s : State} {f : Queue → Queue} (hf : ∀ x, (f x).q = x.q) {q : Nat} {x : Queue} (h : s.queue? q = some x) :
    (s.setQueue q f).queue? q = some (f x) := by
  rw [State.queue?_setQueue s hf, if_pos rfl, h]; rfl

theorem find?_append_new {α : Type} {p : α → Bool} {l : List α} {a : α} (hl : l.find? p = none) (ha : p a = true) : (l ++ [a]).find? p = some a := by
  rw [List.find?_append, hl, Option.none_or, List.find?_singleton, if_pos ha]

theorem setCtxState_ctxs (s : State) (cid : Nat) (st : CState) : (setCtxState s cid st).ctxs = (s.onCtx cid (fun c => { c with st })).ctxs :=
  State.ctxs_of_still (ite_still (State.put_still _ _ _ _) rfl)

theorem ctx?_setCtxState (s : State) (cid : Nat) (st : CState) :
    (setCtxState s cid st).ctx? cid = (s.ctx? cid).map (fun c => { c with st }) := by
  rw [State.ctx?_congr (setCtxState_ctxs s cid st)]
  refine State.ctx?_onCtx_self s ?_ cid
  exact fun _ => rfl

theorem ctx?_of_ctxState {s : State} {cid : Nat} {st : CState} (h : ctxState s cid = st) (hfree : st ≠ .free) : ∃ c, s.ctx? cid = some c := by
  cases hc : s.ctx? cid with
  | some c => exact ⟨c, rfl⟩
  | none => rw [ctxState, hc] at h; exact absurd h.symm hfree

/-! ## Contexts (R317, R318, R342) -/

/-- The state with a new context of a descriptor's bytes, its event queue's header at reset. -/
def withContext (s : State) (cid : Nat) (bs : List Byte) : State :=
  devPut (setCtxState { s with ctxs := s.ctxs ++ [Ctx.create cid (CDesc.ofBytes bs) (Config.shake256 (bytesLE 8 1 ++ Config.shake256 []))] } cid
    .idle) cid (CDesc.ofBytes bs).evq (bytesLE 64 0)

theorem ctx?_withContext {s : State} {cid : Nat} (h : s.ctx? cid = none) (bs : List Byte) : (withContext s cid bs).ctx? cid =
    some (Ctx.create cid (CDesc.ofBytes bs) (Config.shake256 (bytesLE 8 1 ++ Config.shake256 []))) := by
  rw [withContext, State.ctx?_congr (devPut_ctxs _ _ _ _), ctx?_setCtxState, State.ctx?, find?_append_new h (beq_self_eq_true cid)]
  rfl

theorem execContextCreate_creates {s : State} {cid : Nat} (hcid : cid < 64) (hfree : s.ctx? cid = none)
    (hfirst : keyOk (s.cfg.cdtab.toNat + 128 * cid) = true) (hlast : keyOk (s.cfg.cdtab.toNat + 128 * cid + 127) = true)
    {r : List Byte × State} (hr : ({ s with cfg := { s.cfg with ccid := BitVec.ofNat 6 cid } } : State).take (s.cfg.cdtab.toNat + 128 * cid) 128 = r)
    (hok : cdescOk r.2 r.1 = true) : execContextCreate cid s = .next (withContext r.2 cid r.1) := by
  subst hr
  have hdue : (decide (cid < 64) && (s.ctx? cid).isNone) = true := by rw [decide_eq_true hcid, hfree]; rfl
  show due (decide (cid < 64) && (s.ctx? cid).isNone) _ _ = _
  rw [due, if_pos hdue, tableRead_ok hfirst hlast, if_pos hok]
  rfl

theorem ctx?_destroyCtx (s : State) (cid : Nat) : (destroyCtx s cid).ctx? cid = none := by
  unfold destroyCtx
  split
  next hnone => exact hnone
  next =>
    refine List.find?_eq_none.mpr fun c hc => ?_
    obtain ⟨-, hne⟩ := List.mem_filter.mp hc
    simpa using hne

/-- A context that takes a debug descriptor which asks no replay (R342). -/
def Ctx.debugged (d : DDesc) (tick : Nat) (x : Ctx) : Ctx :=
  { x with
    dbg := d, leaving := false
    arch := if d.amode = 0 then { x.arch with on := false }
      else if d.amode = 1 ∧ !x.arch.on then { x.arch with since := tick } else x.arch }

/-- The state in which a context runs under a debug descriptor, a new sample ring at reset. -/
def underDebug (s : State) (cid : Nat) (c : Ctx) (d : DDesc) : State :=
  let s := if d.sen && d.sring != c.dbg.sring then devPut s cid d.sring (bytesLE 64 0) else s
  setCtxState (s.onCtx cid (Ctx.debugged d s.tick)) cid .running

theorem ctx?_underDebug {s : State} {cid : Nat} {c : Ctx} (h : s.ctx? cid = some c) (d : DDesc) :
    ∃ c', (underDebug s cid c d).ctx? cid = some c' ∧ c'.st = .running ∧ c'.dbg = d ∧ c'.leaving = false := by
  unfold underDebug
  dsimp only
  rw [ctx?_setCtxState, State.ctx?_onCtx_self, State.ctx?_congr (s := s), h]
  · exact ⟨_, rfl, rfl, rfl, rfl⟩
  · split
    · exact devPut_ctxs _ _ _ _
    · rfl
  · exact fun _ => rfl

/-- A context whose debug descriptor is valid and asks no replay runs with it (R342). -/
theorem enterRunning_runs {s : State} {cid : Nat} {c : Ctx} {r : List Byte × State} (hc : s.ctx? cid = some c) (hroom : runningCount s < 8)
    (hfirst : keyOk (s.cfg.dbgtab.toNat + 64 * cid) = true) (hlast : keyOk (s.cfg.dbgtab.toNat + 64 * cid + 63) = true)
    (hr : s.take (s.cfg.dbgtab.toNat + 64 * cid) 64 = r) (hok : ddescBad r.1 = none) (hmode : (DDesc.ofBytes r.1).amode ≠ 2)
    (k : State → Out) : enterRunning s cid k = k (underDebug r.2 cid c (DDesc.ofBytes r.1)) := by
  subst hr
  have hfull : ¬Config.runningContexts ≤ runningCount s := Nat.not_le.mpr hroom
  have hreplay : ¬((DDesc.ofBytes (s.take (s.cfg.dbgtab.toNat + 64 * cid) 64).1).amode = 2 ∧ (!c.arch.on) = true) := fun h => hmode h.1
  simp only [enterRunning, hc, if_neg hfull, tableRead_ok (n := 64) hfirst hlast, hok, if_neg hreplay]
  rfl

/-! ## Queues (R371, R379) -/

/-- The state with a queue put in the place of the one of its number. -/
def withQueue (s : State) (x : Queue) : State := syncQueue { s with queues := s.queues.filter (fun y => y.q != x.q) ++ [x] } x.q

theorem queue?_withQueue (s : State) (x : Queue) : (withQueue s x).queue? x.q = some x := by
  refine (State.queue?_congr (syncQueue_queues _ _) _).trans (find?_append_new (List.find?_eq_none.mpr fun y hy => ?_) (beq_self_eq_true x.q))
  obtain ⟨-, hne⟩ := List.mem_filter.mp hy
  simpa using hne

theorem execQueueEnable_enables {s : State} {q : Nat} {r : List Byte × State} {prog : List Byte} (hq : q < 4096) (hmay : mayEnable s q = true)
    (hfirst : keyOk (s.cfg.qdtab.toNat + 128 * q) = true) (hlast : keyOk (s.cfg.qdtab.toNat + 128 * q + 127) = true)
    (hr : (nameQueue s q).take (s.cfg.qdtab.toNat + 128 * q) 128 = r) (hok : qdescOk r.1 = true)
    (hc : (s.ctx? (bits (dword r.1 8) 0 6)).isSome = true)
    (hprog : devGet r.2 (bits (dword r.1 8) 0 6) (dword r.1 0x10) (4 * dword r.1 0x18) = some prog) :
    execQueueEnable q s = .next (withQueue (measure r.2 (bits (dword r.1 8) 0 6) 2 prog)
      (Queue.ofBytes q r.1 (wordsOf prog) (verify (wordsOf prog)))) := by
  have hctxs : r.2.ctxs = s.ctxs := hr ▸ State.take_ctxs (nameQueue s q) _ _
  have hctx : (!qdescOk r.1 || (r.2.ctx? (bits (dword r.1 8) 0 6)).isNone) = false := by
    rw [hok, State.ctx?_congr hctxs, Option.isNone_eq_false_iff.mpr hc]; rfl
  have hdue : (decide (q < 4096) && mayEnable s q) = true := by rw [decide_eq_true hq, hmay]; rfl
  have hread (k : List Byte → State → Out) : tableRead (nameQueue s q) (s.cfg.qdtab.toNat + 128 * q) 128 k = k r.1 r.2 :=
    (tableRead_ok hfirst hlast k).trans (by rw [hr])
  show due (decide (q < 4096) && mayEnable s q) _ (tableRead (nameQueue s q) (s.cfg.qdtab.toNat + 128 * q) 128 _) = _
  rw [due, if_pos hdue, hread]
  simp only [hctx, Bool.false_eq_true, if_false, hprog]
  rfl

/-- A queue that is disabled at its head. -/
def Queue.stopped (x : Queue) : Queue := { x with st := .disabled, quiesce := false, paused := none, tail := x.head }

section
variable {s : State} {q : Nat} {x : Queue} (hx : s.queue? q = some x)
include hx

theorem execQueueDisable_disables : ∃ t, execQueueDisable q s = .next t ∧ t.queue? q = some x.stopped := by
  have hsome : ((nameQueue s q).queue? q).isSome = true := (congrArg Option.isSome hx : (s.queue? q).isSome = true)
  refine ⟨(stopPacket (nameQueue s q) q).setQueue q Queue.stopped, ?_, State.queue?_setQueue_self (f := Queue.stopped) (fun _ => rfl) ?_⟩
  · simp only [execQueueDisable, hsome, due, if_true]
    rfl
  · exact (State.queue?_congr (stopPacket_queues _ _) q).trans hx

theorem execQueueQuiesce_quiesces : ∃ t, execQueueQuiesce q s = .next t ∧ t.queue? q = some (if runsPacket s q then { x with quiesce := true }
    else { x with st := .disabled, paused := none, tail := x.head }) := by
  have hq : (nameQueue s q).queue? q = some x := hx
  have hruns : runsPacket (nameQueue s q) q = runsPacket s q := rfl
  simp only [execQueueQuiesce, hq, hruns]
  split
  · refine ⟨_, rfl, State.queue?_onQueue_self ?_ hq⟩
    exact fun _ => rfl
  · refine ⟨_, rfl, State.queue?_setQueue_self ?_ hq⟩
    exact fun _ => rfl

theorem execQueueNotify_notifies {f : Nat} {v : W32} (hf : f = 0 ∨ x.vf = f) (hst : x.st = .enabled ∨ x.st = .waiting) :
    ∃ t, execQueueNotify f q v s = .next t ∧ t.queue? q = some { x with tail := v } := by
  have hdue : ((f == 0 || x.vf == f) && (x.st == .enabled || x.st == .waiting)) = true := by simpa using ⟨hf, hst⟩
  refine ⟨_, ?_, State.queue?_onQueue_self (f := fun x => { x with tail := v }) (fun _ => rfl) hx⟩
  simp only [execQueueNotify, hx, hdue, due, if_true]

end

/-! ## The next packet, and a wait that ends (R372, R375) -/

/-- A curator that is free before it starts is the one that runs then. -/
theorem State.curator?_append {s t : State} {k : Curator} (hfree : s.curator? k.c = none) (ht : t.curators = s.curators ++ [k]) :
    t.curator? k.c = some k := by
  rw [State.curator?, ht]
  exact find?_append_new hfree (beq_self_eq_true k.c)

/-- A curator's round once it visits a context: its deficit stands, or its weight is added. -/
def visitRound (s : State) (c : Nat) (x : Queue) : Round :=
  let r := s.round c
  if r.last = x.cid ∧ 0 < r.deficit x.cid then r
  else { r.setDeficit x.cid (min (r.deficit x.cid + ((s.ctx? x.cid).map (·.desc.weight)).getD 0 * 4096) 1099511627776) with last := x.cid }

theorem execPacketStart_starts {s : State} {c q : Nat} {x : Queue} (hx : (refreshDescs s).queue? q = some x) (hc : c < 16)
    (hfree : (refreshDescs s).curator? c = none) (hserved : servedQueue (refreshDescs s) c x = true)
    (hdef : 0 < (visitRound (refreshDescs s) c x).deficit x.cid) : ∃ t wins, execPacketStart c q s = .next t ∧
      t.curators = (refreshDescs s).curators ++ [{ c, q, left := 4096, wins }] ∧ t.threads = (refreshDescs s).threads ++ [curatorThread c x] := by
  have hdue : (decide (c < 16) && ((refreshDescs s).curator? c).isNone && servedQueue (refreshDescs s) c x) = true := by
    rw [decide_eq_true hc, hfree, hserved]; rfl
  unfold visitRound at hdef
  simp only [execPacketStart, hx, hdue, due, if_true, if_neg (Int.not_le.mpr hdef)]
  exact ⟨_, _, rfl, rfl, rfl⟩

theorem execQwaitsigResume_resumes {s s1 : State} {q key : Nat} {x : Queue} (hx : s.queue? q = some x) (hst : x.st = .waiting)
    (hsaved : ctxState s x.cid ≠ .saved) (hfree : s.curator? x.cur = none)
    (hkey : xlate s (Config.cores + x.cur) x.cid x.waddr.toNat 1 = (.ok key, s1)) (hsys : isSys key = false)
    (hclean : s1.poisoned key 8 = false) (hreached : x.wthr.toNat ≤ ofBytes (readBytes s1.mem key 8)) :
    execQwaitsigResume q s = .next (resumeQueue s1 x) := by
  have hdue : (x.st == .waiting && ctxState s x.cid != .saved && (s.curator? x.cur).isNone) = true := by
    rw [hst, hfree, bne_iff_ne.mpr hsaved]; rfl
  have htake : s1.take key 8 = (readBytes s1.mem key 8, s1) := by rw [State.take, hsys]; rfl
  simp only [execQwaitsigResume, hx, hdue, due, if_true, hkey, hsys, hclean, Bool.not_false, Bool.and_false, Bool.false_eq_true, if_false, htake,
    hreached]

theorem resumeQueue_resumes {s : State} {x : Queue} {th : Thread} (hx : s.queue? x.q = some x) (hfree : s.curator? x.cur = none)
    (hth : x.paused = some th) : (resumeQueue s x).queue? x.q = some { x with st := .enabled, waddr := 0, wthr := 0, paused := none } ∧
      { th with wait := .none } ∈ (resumeQueue s x).threads ∧ ∃ k, (resumeQueue s x).curator? x.cur = some k ∧ k.q = x.q := by
  have hset := State.queue?_setQueue_self (f := fun y => { y with st := .enabled, waddr := 0, wthr := 0, paused := none }) (fun _ => rfl) hx
  have hfree' : (s.setQueue x.q (fun y => { y with st := .enabled, waddr := 0, wthr := 0, paused := none })).curator? x.cur = none :=
    (State.curator?_congr (State.setQueue_curators _ _ _) _).trans hfree
  unfold resumeQueue
  simp only [hth]
  generalize s.setQueue x.q (fun y => { y with st := .enabled, waddr := 0, wthr := 0, paused := none }) = u at hset hfree' ⊢
  refine ⟨?_, List.mem_append_right _ (List.mem_singleton.mpr rfl), _, State.curator?_append
    (s := acquire u (Config.cores + x.cur) x.cid 6) (k := { c := x.cur, q := x.q, left := 4096 - th.issues, wins := (x.ring + 64 * (x.head.toNat % 2 ^ x.log2e), 64) :: x.wins }) ?_ rfl, rfl⟩
  · exact (State.queue?_congr (acquire_queues u _ _ _) _).trans hset
  · exact (State.curator?_congr (State.curators_of_still (acquire_still u _ _ _)) _).trans hfree'

end Sys2Proof.Machine

namespace Sys2Proof
open Machine

/-- Settles O58: each event's own lemma above. -/
theorem contextAndQueueEvents : Obligations.ContextAndQueueEvents := by
  unfold Obligations.ContextAndQueueEvents
  intro s
  refine ⟨?context, ?select, ?queue, ?packet, ?resume, ?device⟩
  case context =>
    intro cid s1 pa r
    refine ⟨fun hcid hfree hfirst hlast hok => ?_, _, rfl, ctx?_destroyCtx _ cid⟩
    have hex := execContextCreate_creates (r := r) hcid hfree hfirst hlast rfl hok
    have hctx := ctx?_withContext ((State.ctx?_congr (State.take_ctxs s1 _ _) cid).trans hfree : r.2.ctx? cid = none) r.1
    exact ⟨_, _, hex, hctx, rfl, rfl, fun wl => Vector.getElem_replicate _⟩
  case select =>
    intro cid pa r hst hroom hfirst hlast hok hmode
    have hdue : (ctxState s cid == .idle || ctxState s cid == .saved) = true := by simpa using hst
    obtain ⟨c, hc⟩ : ∃ c, s.ctx? cid = some c := hst.elim (ctx?_of_ctxState · nofun) (ctx?_of_ctxState · nofun)
    obtain ⟨c', hc', hruns⟩ := ctx?_underDebug ((State.ctx?_congr (State.take_ctxs s _ _) cid).trans hc) (DDesc.ofBytes r.1)
    refine ⟨_, c', ?_, hc', hruns⟩
    show execContextSelect cid s = _
    rw [execContextSelect, hdue, due, if_pos rfl, enterRunning_runs hc hroom hfirst hlast rfl hok hmode]
  case queue =>
    intro q pa r cid
    exact ⟨fun prog hq hmay hfirst hlast hok hc hprog =>
        ⟨_, execQueueEnable_enables (r := r) hq hmay hfirst hlast rfl hok hc hprog, queue?_withQueue _ _⟩,
      fun x hx => ⟨execQueueDisable_disables hx, execQueueQuiesce_quiesces hx, fun f v => execQueueNotify_notifies hx⟩⟩
  case packet =>
    intro c q x s0 r r' pkt hx hc hfree hserved hdef
    obtain ⟨t, wins, hex, hcurators, hthreads⟩ := execPacketStart_starts hx hc hfree hserved hdef
    exact ⟨t, _, curatorThread c x, hex, State.curator?_append (k := { c, q, left := 4096, wins }) hfree hcurators, rfl, rfl,
      hthreads ▸ List.mem_append_right _ (List.mem_singleton.mpr rfl), rfl, rfl, rfl, by simp [curatorThread, pkt]⟩
  case resume =>
    intro q x th key s1 hx hst hsaved hfree hth hkey hsys hclean hreached
    have honly := xlate_only s (Config.cores + x.cur) x.cid x.waddr.toNat 1
    rw [hkey] at honly
    have hx1 : s1.queue? x.q = some x := by
      rw [State.queue?_congr (State.queues_of_still honly.still), State.queue?_q hx]; exact hx
    have hfree1 : s1.curator? x.cur = none := (State.curator?_congr (State.curators_of_still honly.still) _).trans hfree
    obtain ⟨hqueue, hthread, hcurator⟩ := resumeQueue_resumes hx1 hfree1 hth
    refine ⟨_, execQwaitsigResume_resumes hx hst hsaved hfree hkey hsys hclean hreached, ?_⟩
    rw [← State.queue?_q hx]
    exact ⟨hqueue, hthread, hcurator⟩
  case device =>
    intro off v
    refine ⟨fun h => ?_, fun hne h => ?_, rfl⟩
    · show execTickstopWrite v s = _
      rw [execTickstopWrite, decide_eq_true h, due, if_pos rfl]
    · have hdue : (s.cfg.tickstop != 0 && decide (s.cfg.tickstop.toNat ≤ s.tick)) = true := by rw [decide_eq_true h, bne_iff_ne.mpr hne]; rfl
      show execTickStop s = _
      rw [execTickStop, hdue, due, if_pos rfl]

end Sys2Proof
end

section
/-! PROOFS. Pre-emption, saves, restores and switches (R322-R333), halts and samples (R343-R346), the archive unit and the replay
(R347, R351, R357). -/

namespace Sys2Proof.Machine

/-- What leaves a part of the state at each element leaves it along a list. -/
theorem foldl_leaves {α β : Type} {π : State → β} {f : State → α → State} (hf : ∀ s a, π (f s a) = π s) (l : List α) (s : State) :
    π (l.foldl f s) = π s :=
  List.foldlRecOn (motive := fun t : State => π t = π s) l f rfl (fun t ht a _ => (hf t a).trans ht)

/-! ## Gangs by name -/

theorem State.gang?_congr {s t : State} (h : t.gangs = s.gangs) (i : Nat) : t.gang? i = s.gang? i := by
  rw [State.gang?, State.gang?, h]

theorem State.gang?_id {s : State} {i : Nat} {g : Gang} (h : s.gang? i = some g) : g.id = i := by
  simpa using List.find?_some h

/-- A gang that is taken off its cores stands no more. -/
theorem gang?_dropGang (s : State) (g : Gang) : (dropGang s g).gang? g.id = none := find_filter_ne _ Gang.id _

theorem gang?_flushGang (s : State) (g : Gang) : (flushGang s g).gang? g.id = none := gang?_dropGang _ g

theorem chargeMove_gangs (s : State) (who : Option Nat) (bytes : Nat) : (chargeMove s who bytes).gangs = s.gangs := by
  unfold chargeMove
  split <;> rfl

/-! ## Pre-emption (R322-R326) -/

section
variable {s : State} {i : Nat} {g : Gang} {l : LRec} (hg : s.gang? i = some g) (hl : (s.launch? g.launch).map (·.lrec) = some l)
  (hway : g.way = .run) (hend : g.endTick = none) (br by' : Option Nat)
include hg hl hway hend

theorem preempt_drains (h : gangWay s g l (gangBound br l.latency) = .drain) : (preempt s i br by').gang? i =
    some { g with way := .drain ((gangBound br l.latency).map (fun n => s.tick + n)), by' } := by
  have hrun : (g.way != .run || g.endTick.isSome) = false := by rw [hway, hend]; rfl
  simp only [preempt, hg, hl, hrun, Bool.false_eq_true, if_false, h]
  refine State.gang?_onGang_self ?_ hg
  exact fun _ => rfl

theorem preempt_saves (h : gangWay s g l (gangBound br l.latency) = .save) : (preempt s i br by').gang? i = some { g with way := .save, by' } := by
  have hrun : (g.way != .run || g.endTick.isSome) = false := by rw [hway, hend]; rfl
  simp only [preempt, hg, hl, hrun, Bool.false_eq_true, if_false, h]
  refine State.gang?_onGang_self ?_ hg
  exact fun _ => rfl

theorem preempt_flushes (h : gangWay s g l (gangBound br l.latency) = .flush) : (preempt s i br by').gang? i = none := by
  have hrun : (g.way != .run || g.endTick.isSome) = false := by rw [hway, hend]; rfl
  simp only [preempt, hg, hl, hrun, Bool.false_eq_true, if_false, h]
  rw [← State.gang?_id hg]
  exact gang?_flushGang s g

end

/-- Asking for a context's gangs leaves what the decision of R325 rests on. -/
theorem gangWay_askSaved (s : State) (gids : List Nat) (g : Gang) (l : LRec) (b : Option Nat) :
    gangWay (askSaved s gids) g l b = gangWay s g l b := rfl

/-! ## Saves (R327-R329) -/

/-- The saved gangs of a context. -/
def savedOfCtx (n : Nat) (s : State) : Option (List Saved) := (s.ctx? n).map (·.saved)

theorem savedOfCtx_congr {s t : State} (h : t.ctxs = s.ctxs) (n : Nat) : savedOfCtx n t = savedOfCtx n s := by
  rw [savedOfCtx, savedOfCtx, State.ctx?_congr h]

theorem savedOfCtx_onCtx {f : Ctx → Ctx} (hid : ∀ c, (f c).cid = c.cid) (hsaved : ∀ c, (f c).saved = c.saved) (s : State) (m n : Nat) :
    savedOfCtx n (s.onCtx m f) = savedOfCtx n s :=
  map_ctx?_onCtx (·.saved) s hid hsaved m n

theorem savedOfCtx_append (s : State) (n : Nat) (v : Saved) :
    savedOfCtx n (s.onCtx n (fun c => { c with saved := c.saved ++ [v] })) = (savedOfCtx n s).map (· ++ [v]) := by
  rw [savedOfCtx, savedOfCtx, State.ctx?_onCtx_self, Option.map_map, Option.map_map]
  · rfl
  · exact fun _ => rfl

theorem savedOfCtx_charge (s : State) (cid k n : Nat) : savedOfCtx n (charge s cid k) = savedOfCtx n s := by
  refine savedOfCtx_onCtx ?_ ?_ s cid n <;> exact fun _ => rfl

theorem savedOfCtx_chargeMove (s : State) (who : Option Nat) (bytes n : Nat) : savedOfCtx n (chargeMove s who bytes) = savedOfCtx n s := by
  unfold chargeMove
  split
  · exact savedOfCtx_charge _ _ _ _
  · rfl

theorem savedOfCtx_setCtxState (s : State) (cid : Nat) (st : CState) (n : Nat) : savedOfCtx n (setCtxState s cid st) = savedOfCtx n s := by
  refine (savedOfCtx_congr (setCtxState_ctxs s cid st) n).trans (savedOfCtx_onCtx ?_ ?_ s cid n) <;> exact fun _ => rfl

theorem savedOfCtx_testIdle (s : State) (cid n : Nat) : savedOfCtx n (testIdle s cid) = savedOfCtx n s := by
  have hleft : savedOfCtx n (s.onCtx cid (fun c => { c with leaving := false })) = savedOfCtx n s := by
    refine savedOfCtx_onCtx ?_ ?_ s cid n <;> exact fun _ => rfl
  unfold testIdle
  split
  · rfl
  split
  · rfl
  split
  · dsimp only
    split
    · exact (savedOfCtx_setCtxState _ _ _ _).trans hleft
    · exact hleft
  split
  · exact (savedOfCtx_setCtxState _ _ _ _).trans hleft
  · rfl

theorem savedOfCtx_sendRec (s : State) (core : Nat) (r : WRec) (n : Nat) : savedOfCtx n (sendRec s core r) = savedOfCtx n s := by
  refine (savedOfCtx_onCtx ?_ ?_ _ r.cid n).trans (savedOfCtx_congr (State.onCore_ctxs _ _ _) n) <;> exact fun _ => rfl

theorem savedOfCtx_drainFront (s : State) (core cid n : Nat) : savedOfCtx n (drainFront s core cid) = savedOfCtx n s := by
  refine foldl_leaves (fun s r => ?_) _ s
  split
  · exact savedOfCtx_sendRec _ _ _ _
  · rfl

theorem putFree_still (s : State) (cid va n : Nat) : (putFree s cid va n).still = s.still := (devPut_still _ _ _ _).trans rfl

theorem writeMember_still (l : LRec) (va : Nat) (v : Saved) (s : State) (x : Wg × List Byte) : (writeMember l va v s x).still = s.still := by
  have hput (s : State) (cid va : Nat) (bs : List Byte) : (devPut s cid va bs).still = s.still := devPut_still cid bs s va
  refine (putFree_still _ _ _ _).trans ((hput _ _ _ _).trans ((foldl_still (fun s a => hput s _ _ _) _ _).trans ((hput _ _ _ _).trans
    ((foldl_still (fun s t => ?_) _ _).trans ((foldl_still (fun s r => foldl_still (fun s p => hput s _ _ _) _ s) _ _).trans (hput _ _ _ _))))))
  dsimp only
  split
  · exact (hput _ _ _ _).trans (hput _ _ _ _)
  · exact (putFree_still _ _ _ _).trans (hput _ _ _ _)

theorem writeSlot_still (s : State) (l : LRec) (addr : W64) (v : Saved) (e : Nat) : (writeSlot s l addr v e).still = s.still :=
  (foldl_still (writeMember_still l v.slot v) _ _).trans ((putFree_still _ _ _ _).trans (devPut_still _ _ _ _))

theorem dropThread_ctxs (s : State) (r : TRef) : (dropThread s r).ctxs = s.ctxs := by
  unfold dropThread
  split <;> rfl

theorem dropGang_ctxs (s : State) (g : Gang) : (dropGang s g).ctxs = s.ctxs := by
  refine foldl_leaves (π := State.ctxs) (fun s w => ?_) _ s
  exact (State.onCore_ctxs _ _ _).trans (foldl_leaves (π := State.ctxs) (fun s (t : Thread) => dropThread_ctxs s t.ref) _ s)

theorem savedOfCtx_writeGang (s : State) (g : Gang) (la : Launch) (n : Nat) : savedOfCtx n (writeGang s g la).2 = savedOfCtx n s := by
  refine (savedOfCtx_congr (State.ctxs_of_still (writeSlot_still _ _ _ _ _)) n).trans (foldl_leaves (fun s w => ?_) _ s)
  exact (savedOfCtx_drainFront _ _ _ _).trans (savedOfCtx_congr (State.ctxs_of_still (release_still _ _ _ _)) n)

theorem writeGang_gang (s : State) (g : Gang) (la : Launch) : (writeGang s g la).1.gang = g ∧ (writeGang s g la).1.slot = g.slot := ⟨rfl, rfl⟩

theorem gang?_saveGang (s : State) (g : Gang) (la : Launch) : (saveGang s g la).gang? g.id = none := by
  refine (State.gang?_congr ((testIdle_gangs _ _).trans ?_) g.id).trans (gang?_dropGang (writeGang s g la).2 g)
  exact (State.onCtx_gangs _ _ _).trans ((chargeMove_gangs _ _ _).trans (State.onCtx_gangs _ _ _))

/-- A save adds the gang to the saved ones of its context. -/
theorem saveGang_saves {s : State} {g : Gang} {c : Ctx} (hc : s.ctx? g.cid = some c) (la : Launch) :
    ∃ d, (saveGang s g la).ctx? g.cid = some d ∧ d.saved = c.saved ++ [(writeGang s g la).1] := by
  have hsaved : savedOfCtx g.cid (saveGang s g la) = some (c.saved ++ [(writeGang s g la).1]) := by
    refine (savedOfCtx_testIdle _ _ _).trans ?_
    rw [savedOfCtx_append, savedOfCtx_chargeMove, savedOfCtx_charge, savedOfCtx_congr (dropGang_ctxs _ _), savedOfCtx_writeGang, savedOfCtx, hc]
    rfl
  obtain ⟨d, hd, hds⟩ := Option.map_eq_some_iff.mp hsaved
  exact ⟨d, hd, hds⟩

/-- No speculation of a gang's threads is left to undo. -/
theorem noSpec {l : List Thread} (h : ∀ t ∈ l, ∀ f, t.fence = some f → f.rolled = true) :
    l.filter (fun t => (t.fence.map (fun f => !f.rolled)).getD false) = [] := by
  refine List.filter_eq_nil_iff.mpr fun t ht => ?_
  cases hf : t.fence with
  | none => exact Bool.false_ne_true
  | some f => simp [h t ht f hf]

theorem execGangSave_saves {s : State} {i : Nat} {g : Gang} {la : Launch} (hg : s.gang? i = some g) (hway : g.way = .save)
    (hend : g.endTick = none) (hla : s.launch? g.launch = some la)
    (hrolled : ∀ t ∈ gangThreads s g, ∀ f, t.fence = some f → f.rolled = true) (hsettled : (membersOf s g).all (memberSettled s) = true) :
    execGangSave i s = .next (saveGang s g la) := by
  have hdue : (g.way == .save && g.endTick.isNone) = true := by rw [hway, hend]; rfl
  simp only [execGangSave, hg, hdue, due, if_true, noSpec hrolled, List.isEmpty_nil, Bool.not_true, Bool.false_eq_true, if_false, hla, hsettled]

/-! ## Restores (R331, R332) -/

theorem restoreMember_gangs (v : Saved) (la : Launch) (first : Nat) (moved : List (Wg × Nat × Nat)) (s : State)
    (x : (Wg × List Byte) × (List Nat × Nat)) : (restoreMember v la first moved s x).gangs = s.gangs :=
  (State.gangs_of_still (acquire_still _ _ _ _)).trans (State.onCore_gangs _ _ _)

/-- With no answer that came meanwhile, a restored gang runs at its new place. -/
theorem restoreGang_runs {v : Saved} (hrejected : v.rejected = []) (hpops : v.pops = []) (s : State) (cid die cluster : Nat) (la : Launch)
    (places : List (List Nat × Nat)) : { v.gang with die, cluster, way := .run, ready := !switchIn s cid, by' := none } ∈
      (restoreGang s cid die cluster v la places).gangs := by
  unfold restoreGang
  simp only [hrejected, hpops, List.foldl_nil, State.onCtx_gangs, foldl_leaves (π := State.gangs) (restoreMember_gangs v la _ _),
    chargeMove_gangs]
  exact List.mem_append_right _ (List.mem_singleton.mpr rfl)

/-- The cluster of a die is among the forty-eight. -/
theorem anyCluster {p : Nat → Nat → Bool} {die cluster : Nat} (hdie : die < 4) (hcluster : cluster < 12) (h : p die cluster = true) :
    (List.range 48).any (fun i => p (i / 12) (i % 12)) = true := by
  refine List.any_eq_true.mpr ⟨12 * die + cluster, List.mem_range.mpr (by omega), ?_⟩
  rwa [show (12 * die + cluster) / 12 = die by omega, show (12 * die + cluster) % 12 = cluster by omega]

section
variable {s : State} {slot die cluster : Nat} {rows : List (List Nat)} {bases : List Nat} {c : Ctx} {v : Saved} {la : Launch}
  (hc : (refreshDescs s).ctxs.find? (fun c => c.saved.any (fun v => v.slot == slot)) = some c)
  (hv : c.saved.find? (fun v => v.slot == slot) = some v) (hla : (refreshDescs s).launch? v.gang.launch = some la)
  (hst : c.st = .running) (hleaving : c.leaving = false) (hdie : die < 4) (hcluster : cluster < 12)
  (hok : clusterOk (refreshDescs s) c.desc.part die cluster = true) (hrows : rows.length = v.wgs.length) (hbases : bases.length = v.wgs.length)
  (hlive : replaying (refreshDescs s) c.cid = false)
  (hfits : (v.wgs.zip (rows.zip bases)).all (fun x => memberFits (refreshDescs s)
    (die * Config.coresPerDie + cluster * 8 + v.gang.first + x.1.member) la.lrec x.2.1 x.2.2) = true)
  (hinherits : inherits c v = true ∨ c.saved.any (inherits c) = false) (houtranked : notOutranked (refreshDescs s) c = true)
  (hquiet : v.wgs.all (fun w => !((refreshDescs s).core (die * Config.coresPerDie + cluster * 8 + v.gang.first + w.member)).todo.any
    (fun x => x.1 == c.cid)) = true)
  (hheader : headerOk ((devGet (refreshDescs s) c.cid slot 256).getD []) la.addr = true)
include hc hv hla hst hleaving hdie hcluster hok hrows hbases hlive hfits hinherits houtranked hquiet hheader

/-- A gang whose places are free, of a context that runs, is restored at them. -/
theorem execGangRestore_restores : execGangRestore slot die cluster rows bases s =
    .next (restoreGang (refreshDescs s) c.cid die cluster v la (rows.zip bases)) := by
  have hruns : ¬(c.st ≠ .running ∨ c.leaving = true) := by rw [hst, hleaving]; simp
  have hany := anyCluster hdie hcluster hok
  have htask : (inherits c v || !c.saved.any (inherits c)) = true := by rw [Bool.or_eq_true, Bool.not_eq_true']; exact hinherits
  simp only [execGangRestore, hc, hv, hla, if_neg hruns, hany, Bool.not_true, Bool.false_eq_true, if_false, decide_eq_true hdie,
    decide_eq_true hcluster, hok, hrows, hbases, beq_self_eq_true, hlive, Bool.not_false, Bool.true_or, hfits, htask, houtranked, hquiet,
    Bool.and_self, due, if_true, hheader]

end

/-! ## Switches (R333) -/

/-- What still runs after an outgoing context has left ran before, and is another. -/
theorem switchOut_running {by' : Option Nat} {s : State} {a c : Nat} (h : ctxState (switchOut by' s a) c = .running) :
    ctxState s c = .running ∧ c ≠ a := by
  unfold switchOut at h
  split at h
  next hrun =>
    by_cases hca : c = a
    · subst hca
      rw [ctxState, ctx?_setCtxState] at h
      cases hc : ({ s with gangs := s.gangs.map (fun (g : Gang) => if g.cid == c && g.endTick.isNone then
        { g with way := .save, by' := if g.by'.isSome then g.by' else by' } else g) } : State).ctx? c with
      | none => rw [hc] at h; exact nomatch h
      | some x => rw [hc] at h; exact nomatch h
    · refine ⟨?_, hca⟩
      rw [ctxState, State.ctx?_congr (setCtxState_ctxs _ a .saved), State.ctx?_onCtx, if_neg hca] at h
      · exact h
      · exact fun _ => rfl
  next hrun => exact ⟨h, fun hca => hrun (hca ▸ h)⟩

theorem switchOuts_running {by' : Option Nat} {out : List Nat} {c : Nat} : ∀ {s : State}, ctxState (out.foldl (switchOut by') s) c = .running →
    ctxState s c = .running ∧ c ∉ out := by
  induction out with
  | nil => exact fun h => ⟨h, List.not_mem_nil⟩
  | cons a out ih =>
    intro s h
    obtain ⟨hrun, hout⟩ := ih h
    obtain ⟨hbefore, hne⟩ := switchOut_running hrun
    exact ⟨hbefore, fun h => (List.mem_cons.mp h).elim hne hout⟩

theorem execSwitchTick_leaves {s : State} {w : Switch} (hw : s.switches.find? (fun w => !w.begun && w.when ≤ s.tick) = some w)
    (hinc : w.inc = none) : ∃ t, execSwitchTick s = .next t ∧ ∀ c ∈ w.out, ctxState t c ≠ .running := by
  refine ⟨w.out.foldl (switchOut (some w.by')) { s with switches := updFirst (fun x => x == w) (fun x => { x with begun := true }) s.switches },
    ?_, fun c hc hrun => (switchOuts_running hrun).2 hc⟩
  simp only [execSwitchTick, hw, hinc]

theorem State.switches_of_still {s t : State} (h : t.still = s.still) : t.switches = s.switches := congrArg (fun x => x.1.switches) h

theorem switchLeave_switches (s : State) (cid : Nat) : (switchLeave s cid).switches = s.switches := by
  unfold switchLeave
  split
  · rfl
  split
  · rfl
  split
  · exact (State.switches_of_still (ite_still (State.put_still _ _ _ _) rfl)).trans (State.onCtx_switches _ _ _)
  · exact foldl_leaves (π := State.switches) (fun s r => State.switches_of_still (writeBlock_still s _ r)) _ s

theorem execSwitchComplete_ends {s : State} {w : Switch} (hw : s.switches.find? (switchDone s) = some w) :
    ∃ t, execSwitchComplete s = .next t ∧ t.switches = s.switches.filter (fun x => x != w) := by
  simp only [execSwitchComplete, hw]
  refine ⟨_, rfl, ?_⟩
  refine congrArg (List.filter (fun x => x != w)) ((foldl_leaves (π := State.switches)
    (fun s c => State.switches_of_still (postEvent_still s c 4 _ _)) _ _).trans (Eq.trans ?_ (foldl_leaves (π := State.switches) switchLeave_switches w.out s)))
  split
  · split <;> rfl
  · rfl

/-! ## Halts and samples (R343, R346) -/

/-- A thread that has halted (R346). -/
def Thread.haltedAt (bk : Bool) (t : Thread) : Thread := { t with halted := true, haltReq := false, bkpt := bk }

theorem haltEvent_still (s : State) (t : Thread) (bk : Bool) : (haltEvent s t bk).still = s.still := postEvent_still _ _ _ _ _

section
variable {s : State} {r : TRef} {x : Thread} (hr : r ≠ .none) (hx : s.thread? r = some x)
include hr hx

theorem execHaltRequest_notes (hexited : x.exited = false) (hhalted : x.halted = false) (hwg : (refWg r).isSome = true) :
    ∃ t, execHaltRequest [r] s = .next t ∧ t.thread? r = some { x with haltReq := true } := by
  refine ⟨_, rfl, (State.thread?_onThread_self (f := Thread.askHalt) (fun x => ?_) hr hx).trans ?_⟩
  · unfold Thread.askHalt; split <;> rfl
  · have href : x.ref = r := State.thread?_ref hx
    have hask : (x.exited || x.halted || (refWg x.ref).isNone) = false := by
      rw [hexited, hhalted, href, Option.isNone_eq_false_iff.mpr hwg]; rfl
    rw [Thread.askHalt, hask]; rfl

/-- A thread outside a fence halts where it is, and its event is posted. -/
theorem haltThread_halts (hexited : x.exited = false) (hhalted : x.halted = false) (hfence : x.fence = none) (bk : Bool) :
    haltThread s r bk = haltEvent (s.onThread r (Thread.haltedAt bk)) (x.haltedAt bk) bk := by
  have hroll : rollBack s r = s := by simp [rollBack, hx, hfence]
  have hself : (s.onThread r (Thread.haltedAt bk)).thread? r = some (x.haltedAt bk) :=
    State.thread?_onThread_self (f := Thread.haltedAt bk) (fun _ => rfl) hr hx
  unfold haltThread
  simp only [hx, hexited, hhalted, Bool.or_self, Bool.false_eq_true, if_false, hroll]
  rw [show (s.onThread r (fun t => { t with halted := true, haltReq := false, bkpt := bk })).thread? r = some (x.haltedAt bk) from hself]
  rfl

theorem execThreadHalt_halts (hexited : x.exited = false) (hhalted : x.halted = false) (hreq : x.haltReq = true) (hfence : x.fence = none) :
    ∃ t u, execThreadHalt r s = .next t ∧ t.thread? r = some u ∧ u.halted = true ∧ u.haltReq = false ∧ u.r = x.r := by
  have hself : (s.onThread r (Thread.haltedAt false)).thread? r = some (x.haltedAt false) :=
    State.thread?_onThread_self (f := Thread.haltedAt false) (fun _ => rfl) hr hx
  have hdue : (x.haltReq && !x.exited) = true := by rw [hreq, hexited]; rfl
  obtain ⟨u, hu, hstill⟩ := State.thread?_of_still (haltEvent_still (s.onThread r (Thread.haltedAt false)) (x.haltedAt false) false) hself
  refine ⟨_, u, ?_, hu, (congrArg Thread.halted hstill : u.still.halted = (x.haltedAt false).still.halted),
    (congrArg Thread.haltReq hstill : u.still.haltReq = (x.haltedAt false).still.haltReq),
    (Thread.r_of_still hstill : u.r = (x.haltedAt false).r)⟩
  simp only [execThreadHalt, hx, hdue, due, if_true, haltThread_halts hr hx hexited hhalted hfence]

theorem execResumeRequest_resumes (hhalted : x.halted = true) : ∃ t u, execResumeRequest [r] s = .next t ∧ t.thread? r = some u ∧
    u.halted = false ∧ u.r = if x.bkpt then x.r.adv 1 else x.r := by
  refine ⟨_, _, rfl, State.thread?_onThread_self (f := resumed) (fun x => ?_) hr hx, ?_⟩
  · unfold resumed; split <;> rfl
  · rw [resumed, if_pos hhalted]; exact ⟨rfl, rfl⟩

theorem execGatePass_passes {arb code : Nat} {g : State × Option W64} (hlive : replaying s x.cid = true) (hexited : x.exited = false)
    (hhalted : x.halted = false) (hwait : x.wait = .gate arb code)
    (hcase : ∀ c, s.ctx? x.cid = some c → (gateRequests s x).findSome? (fun q => gateCase s c x q.1 q.2) = none)
    (hgate : gateTake s x.cid arb x.core x.slot code = some g) :
    ∃ t, execGatePass r s = .next t ∧ t.thread? r = some { x with wait := .none } := by
  obtain ⟨c, hc⟩ : ∃ c, s.ctx? x.cid = some c := by
    cases hc : s.ctx? x.cid with
    | some c => exact ⟨c, rfl⟩
    | none => rw [replaying, hc] at hlive; exact absurd hlive Bool.false_ne_true
  refine ⟨_, ?_, State.thread?_onThread_self (f := fun y => { y with wait := .none }) (fun _ => rfl) hr hx⟩
  simp only [execGatePass, hx, hc, hlive, hhalted, hexited, due, Bool.not_false, Bool.and_self, if_true, hcase c hc, hwait, hgate,
    Option.isSome_some]

end

theorem execSample_moves {s : State} {core : Nat} {th : Thread} (hcore : core < 384) (hat : (s.core core).sampAt ≠ some s.tick)
    (hth : (sortBy (fun t => (t.slot + 4096 - (s.core core).samp) % 4096) (sampleable s core)).head? = some th) :
    ∃ t, execSample core s = .next t ∧ (t.core core).samp = (th.slot + 1) % 4096 ∧ (t.core core).sampAt = some s.tick := by
  have hdue : (decide (core < Config.cores) && (s.core core).sampAt != some s.tick) = true := by
    rw [decide_eq_true (show core < Config.cores from hcore), bne_iff_ne.mpr hat]; rfl
  simp only [execSample, hdue, due, if_true, hth]
  refine ⟨_, rfl, ?_⟩
  simp only [State.core_congr (State.onThread_cores _ _ _), State.core_onCore, if_true, implies_true, and_self]

/-! ## Checkpoints and intervals (R347, R357) -/

theorem rollBack_ctxs (s : State) (r : TRef) : (rollBack s r).ctxs = s.ctxs := by
  unfold rollBack
  split
  · rfl
  split
  · rfl
  · exact State.onThread_ctxs _ _ _

section
variable {s : State} {cid : Nat} {c : Ctx} (hc : s.ctx? cid = some c)
include hc

section
variable (hmode : c.dbg.amode = 1) (hfull : c.arch.full = false) (hon : c.arch.on = true ∨ c.st = .running)
include hmode hfull hon

theorem execCheckpoint_begins (hsettling : c.arch.settling = false) (hdue : checkpointDue s c = true) :
    ∃ t, execCheckpoint cid s = .next t ∧ t.ctx? cid = some { c with arch := beginCheckpoint s.tick c } := by
  have hgo : (c.dbg.amode == 1 && !c.arch.full && (c.arch.on || c.st == .running) && (c.arch.settling || checkpointDue s c)) = true := by
    simpa [hmode, hfull, hdue] using hon
  simp only [execCheckpoint, hc, hgo, due, if_true]
  simp only [hsettling, Bool.not_false, Bool.true_or, if_true]
  refine ⟨_, rfl, (State.ctx?_congr (foldl_leaves (π := State.ctxs) (fun s (t : Thread) => rollBack_ctxs s t.ref) _ _) cid).trans ?_⟩
  rw [State.ctx?_onCtx_self, hc]
  · rfl
  · exact fun _ => rfl

theorem execCheckpoint_takes (hsettling : c.arch.settling = true)
    (hrolled : ∀ g ∈ ctxGangs s cid, ∀ t ∈ gangThreads s g, ∀ f, t.fence = some f → f.rolled = true)
    (hsettled : (ctxGangs s cid).all (fun g => (membersOf s g).all (memberSettled s)) = true) :
    execCheckpoint cid s = .next (takeCheckpoint s cid) := by
  have hgo : (c.dbg.amode == 1 && !c.arch.full && (c.arch.on || c.st == .running) && (c.arch.settling || checkpointDue s c)) = true := by
    simpa [hmode, hfull, hsettling] using hon
  have hspec : ((ctxGangs s cid).flatMap (gangThreads s)).filter (fun t => (t.fence.map (fun f => !f.rolled)).getD false) = [] := by
    refine noSpec fun t ht => ?_
    obtain ⟨g, hg, htg⟩ := List.mem_flatMap.mp ht
    exact hrolled g hg t htg
  simp only [execCheckpoint, hc, hgo, due, if_true]
  simp only [hsettling, hspec, List.isEmpty_nil, Bool.not_true, Bool.or_self, Bool.false_eq_true, if_false, hsettled, if_true]

end

theorem ctx?_resetHashes (n : Nat) : ∃ d, (resetHashes s n).ctx? cid = some d ∧ d.arch = c.arch := by
  have hmap : ((resetHashes s n).ctx? cid).map (·.arch) = (s.ctx? cid).map (·.arch) := by
    refine map_ctx?_onCtx (·.arch) (s.onAll _) ?_ ?_ n cid <;> exact fun _ => rfl
  rw [hc] at hmap
  exact Option.map_eq_some_iff.mp hmap

/-- The end of a replay leaves nothing to be compared, and the context IDLE. -/
theorem replayEnd_ends (seq : Nat) : ∃ d, (replayEnd s cid seq).ctx? cid = some d ∧ d.arch.want = [] ∧ d.st = .idle := by
  have hdrop : ((ctxGangs s cid).foldl dropGang s).ctxs = s.ctxs := foldl_leaves (π := State.ctxs) dropGang_ctxs _ s
  unfold replayEnd
  dsimp only
  generalize (ctxGangs s cid).foldl dropGang s = u at hdrop
  rw [ctx?_setCtxState, State.ctx?_congr (State.ctxs_of_still (postEvent_still _ _ _ _ _)), State.ctx?_onCtx_self,
    State.ctx?_congr (s := s) (by exact hdrop), hc]
  · exact ⟨_, rfl, rfl, rfl⟩
  · exact fun _ => rfl

theorem closeInterval_closes {h : Checkpoint} (hmatch : hashMismatch s c h = none) (hs : List Checkpoint) :
    ∃ d, (closeInterval s c h hs).ctx? cid = some d ∧ d.arch.want = hs ∧ (hs = [] → d.st = .idle) := by
  have hcid : c.cid = cid := State.ctx?_cid hc
  simp only [closeInterval, hmatch, hcid]
  cases hs with
  | nil =>
    obtain ⟨d, hd, hwant, hst⟩ := replayEnd_ends hc h.seq
    exact ⟨d, hd, hwant, fun _ => hst⟩
  | cons k ks =>
    have hopen := State.ctx?_onCtx_self s (f := fun c => { c with arch := openInterval { c.arch with want := k :: ks, seq := h.seq } h.tick })
      (fun _ => rfl) cid
    rw [hc] at hopen
    obtain ⟨d, hd, harch⟩ := ctx?_resetHashes hopen cid
    exact ⟨d, hd, congrArg Arch.want harch, nofun⟩

end

end Sys2Proof.Machine

namespace Sys2Proof
open Machine

/-- Settles O59: each event's own lemma above. -/
theorem preemptAndDebugEvents : Obligations.PreemptAndDebugEvents := by
  unfold Obligations.PreemptAndDebugEvents
  intro s
  refine ⟨?request, ?expire, ?save, ?restore, ?switches, ?debug, ?sample, ?archive⟩
  case request =>
    intro i g l br asks hg hl hway hend hnone hsome b
    have hex : ∃ u, u.gang? i = some g ∧ (u.launch? g.launch).map (·.lrec) = some l ∧ u.tick = s.tick ∧ gangWay u g l b = gangWay s g l b ∧
        exec (.preemptRequest [i] br) s = .next (preempt u i br asks) := by
      cases br with
      | none =>
        obtain ⟨hasks, hne⟩ := hnone rfl
        obtain ⟨c, rfl⟩ := Option.ne_none_iff_exists'.mp hne
        refine ⟨s, hg, hl, rfl, rfl, ?_⟩
        show execPreemptRequest [i] none s = _
        simp only [execPreemptRequest, hasks, List.foldl_cons, List.foldl_nil]
      | some n =>
        obtain rfl := hsome nofun
        exact ⟨askSaved s [i], hg, hl, rfl, gangWay_askSaved s [i] g l b, rfl⟩
    obtain ⟨u, hgu, hlu, htick, hwayu, hex⟩ := hex
    refine ⟨_, hex, ?_⟩
    split
    next h => rw [← htick]; exact preempt_drains hgu hlu hway hend br asks (hwayu.trans h)
    next h => exact preempt_saves hgu hlu hway hend br asks (hwayu.trans h)
    next h => exact preempt_flushes hgu hlu hway hend br asks (hwayu.trans h)
  case expire =>
    intro i g d hg hway hd hend
    have hdue : (decide (d ≤ s.tick) && g.endTick.isNone) = true := by rw [decide_eq_true hd, hend]; rfl
    refine ⟨_, ?_, State.gang?_onGang_self (f := fun g => { g with way := .save }) (fun _ => rfl) hg⟩
    show execDrainExpire i s = _
    simp only [execDrainExpire, hg, hway, hdue, due, if_true]
  case save =>
    intro i g la c hg hway hend hla hc hrolled hsettled
    obtain ⟨d, hd, hsaved⟩ := saveGang_saves hc la
    refine ⟨_, d, _, execGangSave_saves hg hway hend hla hrolled hsettled, ?_, hd, hsaved, writeGang_gang s g la⟩
    rw [← State.gang?_id hg]
    exact gang?_saveGang s g la
  case restore =>
    intro slot die cluster rows bases c v la s0 first fits quiet hc hv hla hst hleaving hrejected hpops hdie hcluster hok hrows hbases hlive
      hfits hinherits houtranked hquiet hheader
    exact ⟨_, _, execGangRestore_restores hc hv hla hst hleaving hdie hcluster hok hrows hbases hlive hfits hinherits houtranked hquiet hheader,
      restoreGang_runs hrejected hpops s0 c.cid die cluster la (rows.zip bases), rfl, rfl, rfl, rfl⟩
  case switches =>
    intro w
    exact ⟨execSwitchTick_leaves, execSwitchComplete_ends⟩
  case debug =>
    intro r x hr hx hexited
    exact ⟨execHaltRequest_notes hr hx hexited, execThreadHalt_halts hr hx hexited, execResumeRequest_resumes hr hx,
      fun arb code g hlive hhalted hwait hcase hgate => execGatePass_passes hr hx hlive hexited hhalted hwait hcase hgate⟩
  case sample =>
    intro core th hcore hat hth
    exact execSample_moves hcore hat hth
  case archive =>
    intro cid c hc
    refine ⟨fun hmode hfull hon => ⟨fun hsettling hdue => ?_, execCheckpoint_takes hc hmode hfull hon⟩, fun h hs hwant hlive hdone hmatch => ?_⟩
    · obtain ⟨t, hex, hctx⟩ := execCheckpoint_begins hc hmode hfull hon hsettling hdue
      refine ⟨t, _, hex, hctx, rfl, ?_⟩
      simp [beginCheckpoint, hsettling]
    · obtain ⟨d, hd⟩ := closeInterval_closes hc hmatch hs
      refine ⟨_, d, ?_, hd⟩
      show execIntervalClose cid s = _
      simp only [execIntervalClose, hc, hwant, hlive, hdone, due, Bool.and_self, if_true]

end Sys2Proof
end

section
/-! PROOFS. What a curator's functions do (R273, R283, R333, R375). -/

namespace Sys2Proof.Machine

/-! ## A function of curator cores, and the blocks it reads (R52, R375) -/

theorem ofBytes_lt (bs : List Byte) : ofBytes bs < 256 ^ bs.length := by
  induction bs with
  | nil => decide
  | cons b bs ih =>
    have hb : b.toNat < 256 := b.isLt
    simp only [ofBytes, List.length_cons, Nat.pow_succ]
    omega

theorem State.curator?_c {s : State} {c : Nat} {k : Curator} (h : s.curator? c = some k) : k.c = c := by
  simpa using List.find?_some h

section
variable {s : State} {g : Guard} {c : Nat} {k : Curator} {q : Queue} (hg : s.cur.r.holds g = true) (href : s.cur.ref = .cur c)
  (hk : s.curator? c = some k) (hq : s.queue? k.q = some q) (hfence : s.cur.fence = none)
include hg href hk hq hfence

/-- On a curator whose guard holds, with no fence pending, its function goes on with the curator and its queue. -/
theorem sysCurator_runs (f : Curator → Queue → Out) : sysCurator g s f = f k q := by
  simp only [sysCurator, guarded_true hg, href, hk, hq, settled_none hfence]

end

theorem pairOk_of {a : XReg} (h : a.val % 2 = 0 ∧ a.val ≤ 58) : pairOk a = true := by
  rw [pairOk, decide_eq_true h.2, beq_iff_eq.mpr h.1]; rfl

theorem sysRead_ok {s s' : State} {va : W64} {n m : Nat} {bs : List Byte} (hrej : s.cur.rej = none) (hm : va.toNat = m)
    (h : engineRead s none s.cur.core s.cur.cid s.cur.mops m n 1 = (.ok bs, s')) (f : List Byte → State → Out) : sysRead s va n f = f bs s' := by
  simp only [sysRead, hrej, hm, h]

/-- A block that lies in a window of the packet is read (R283, R375). -/
theorem windowRead_ok {s s' : State} {k : Curator} {va : W64} {n align : Nat} {bs : List Byte} (hrej : s.cur.rej = none)
    (halign : va.toNat % align = 0) (hwin : ∃ w ∈ k.wins, w.1 ≤ va.toNat ∧ va.toNat + n ≤ w.1 + w.2)
    (h : engineRead s none s.cur.core s.cur.cid s.cur.mops va.toNat n 1 = (.ok bs, s')) (f : List Byte → State → Out) :
    windowRead s k va n align f = f bs s' := by
  have hany : k.wins.any (fun w => w.1 ≤ va.toNat && va.toNat + n ≤ w.1 + w.2) = true := by simpa using hwin
  rw [windowRead, if_neg (not_not_intro halign), if_pos hany, sysRead_ok hrej rfl h]

theorem resolve_only_of {s t : State} {w : Option Wg} {core cid va n kind : Nat} {x : Xl} (h : resolve s w core cid va n kind = (x, t)) :
    OnlyTlbs s t := by
  have honly := resolve_only s w core cid va n kind
  rwa [h] at honly

/-! ## Packets and phases (R375, R377) -/

theorem dropThread_selected {s : State} {r : TRef} (h : s.cur.ref = r) : (dropThread s r).cur = Thread.idle := by
  rw [dropThread, if_pos (beq_iff_eq.mpr h)]

theorem curator?_endPacket (s : State) (c : Nat) : (endPacket s c).curator? c = none := find_filter_ne _ Curator.c _

/-- The selected thread's packet ends: no thread is selected, the curator is free, and the queues are as they were. -/
theorem endPacket_dropThread {s : State} {r : TRef} (h : s.cur.ref = r) (c : Nat) : (endPacket (dropThread s r) c).cur = Thread.idle ∧
    (endPacket (dropThread s r) c).curator? c = none ∧ ∀ q, (endPacket (dropThread s r) c).queue? q = s.queue? q :=
  ⟨dropThread_selected h, curator?_endPacket _ c, fun q => State.queue?_congr (dropThread_queues s r) q⟩

theorem State.setQueue_curStill (s : State) (q : Nat) (f : Queue → Queue) : (s.setQueue q f).cur.still = s.cur.still :=
  State.cur_of_still (s := s.onQueue q f) (syncQueue_still _ q)

theorem State.setQueue_cur {s : State} (hfence : s.cur.fence = none) (q : Nat) (f : Queue → Queue) : (s.setQueue q f).cur = s.cur := by
  unfold State.setQueue syncQueue
  split
  · rfl
  dsimp only
  split
  · exact State.put_cur (s := s.onQueue q f) hfence _ _ _
  · rfl

/-- What QPHASE makes of a queue. -/
def Queue.inPhase (p : W32) (q : Queue) : Queue := { q with phase := p, fresh := q.fresh || q.phase != p }

/-- What QDONE makes of a queue. -/
def Queue.served (q : Queue) : Queue := { q with head := q.head + 1, st := (if q.quiesce then .disabled else q.st), quiesce := false }

/-- What QWAITSIG makes of a queue. -/
def Queue.waitsOn (va thr : W64) (t : Thread) (q : Queue) : Queue := { q with st := .waiting, waddr := va, wthr := thr, paused := some t }

section
variable {s : State} {g : Guard} {a : XReg} {c : Nat} {k : Curator} {q : Queue} (hg : s.cur.r.holds g = true) (href : s.cur.ref = .cur c)
  (hk : s.curator? c = some k) (hq : s.queue? k.q = some q) (hfence : s.cur.fence = none)
include hg href hk hq hfence

theorem execQphase_sets (hx : (s.cur.r.getX a).toNat < 2 ^ 32) :
    execQphase g a s = .next ((s.setQueue k.q (Queue.inPhase ((s.cur.r.getX a).setWidth 32))).adv 1) := by
  have hwidth : BitVec.ofNat 32 (s.cur.r.getX a).toNat = (s.cur.r.getX a).setWidth 32 := rfl
  rw [execQphase, sysCurator_runs hg href hk hq hfence]
  dsimp only
  rw [if_neg (Nat.not_le.mpr hx), hwidth, State.queue?_q hq]
  rfl

theorem execQdone_serves (hmops : s.cur.mops = []) : execQdone g s =
    .next (endPacket (dropThread ((release s s.cur.core s.cur.cid 6).setQueue k.q Queue.served) s.cur.ref) c) := by
  rw [execQdone, sysCurator_runs hg href hk hq hfence]
  dsimp only
  rw [drained_none hmops, State.queue?_q hq, State.curator?_c hk]
  rfl

variable (hrej : s.cur.rej = none)
include hrej

theorem execQsignal_adds {key : Nat} {s' : State} (ha : a.val % 2 = 0 ∧ a.val ≤ 58) (hal : (s.cur.r.getX a).toNat % 8 = 0)
    (hkey : resolve s (s.wgOf s.cur) s.cur.core s.cur.cid (s.cur.r.getX a).toNat 8 3 = (.ok key, s')) (hmops : s.cur.mops = [])
    (hclean : s'.poisoned key 8 = false) :
    execQsignal g a s = .next ((signalAt s' s.cur.core s.cur.cid key (s.cur.r.getX (Fin.ofNat 64 (a.val + 1)))).adv 1) := by
  have honly := resolve_only_of hkey
  rw [execQsignal, sysCurator_runs hg href hk hq hfence]
  dsimp only
  rw [pairOk_of ha, if_neg (by decide), if_neg (not_not_intro hal), drained_none hmops, withPlace_ok hkey (.inr hrej), hclean,
    if_neg Bool.false_ne_true, honly.cur]
  rfl

theorem execQwaitsig_waits {key : Nat} {s' : State} (ha : a.val % 2 = 0 ∧ a.val ≤ 58) (hal : (s.cur.r.getX a).toNat % 8 = 0)
    (hquiesce : q.quiesce = false)
    (hkey : resolve s (s.wgOf s.cur) s.cur.core s.cur.cid (s.cur.r.getX a).toNat 8 1 = (.ok key, s')) :
    execQwaitsig g a s = .next ((endPacket (dropThread s' s.cur.ref) c).setQueue k.q (Queue.waitsOn (s.cur.r.getX a)
      (s.cur.r.getX (Fin.ofNat 64 (a.val + 1))) { s.cur with wait := .qsig, r := s.cur.r.adv 1 })) := by
  have honly := resolve_only_of hkey
  rw [execQwaitsig, sysCurator_runs hg href hk hq hfence]
  dsimp only
  rw [pairOk_of ha, if_neg (by decide), if_neg (not_not_intro hal), withPlace_ok hkey (.inr hrej), hquiesce, if_neg Bool.false_ne_true,
    honly.cur, State.queue?_q hq, State.curator?_c hk]
  rfl

/-- QLAUNCH hands a launch of the record to the dispatcher. -/
theorem execQlaunch_lists {raw : List Byte} {s' : State} (ha : a.val % 2 = 0 ∧ a.val ≤ 58) (hal : (s.cur.r.getX a).toNat % 256 = 0)
    (hraw : engineRead s none s.cur.core s.cur.cid s.cur.mops (s.cur.r.getX a).toNat 256 1 = (.ok raw, s')) :
    ∃ t l, execQlaunch g a s = .next t ∧ t.launches = s'.launches ++ [l] ∧ l.cid = q.cid ∧ l.raw = raw ∧
      l.sig = s'.cur.r.getX (Fin.ofNat 64 (a.val + 1)) ∧ l.q = q.q ∧ l.accepted = false := by
  rw [execQlaunch, sysCurator_runs hg href hk hq hfence]
  dsimp only
  rw [pairOk_of ha, if_neg (by decide), if_neg (not_not_intro hal), sysRead_ok hrej rfl hraw]
  exact ⟨_, _, rfl, rfl, rfl, rfl, rfl, rfl, rfl⟩

end

/-- An agent without an L1 adds at the home: the number there is the sum (R375). -/
theorem signalAt_get {core : Nat} (hcore : hasL1 core = false) {s : State} {key : Nat} (hwf : Memory.wf s.mem = true) (hsys : isSys key = false)
    (cid : Nat) (n : W64) : (signalAt s core cid key n).get key 8 = (s.get key 8 + n.toNat) % 2 ^ 64 := by
  have hmem : (signalAt s core cid key n).mem = writeBytes s.mem key (bytesLE 8 (BitVec.ofNat 64 (s.get key 8) + n).toNat) := by
    simp [signalAt, agentWrite, release, atL1, goHome, hcore, State.get]
    split <;> exact State.put_mem hsys _ _
  rw [State.get, hmem, readLE_writeBytes_bytesLE 8 key _ hwf, BitVec.toNat_add, BitVec.toNat_ofNat, Nat.mod_add_mod]
  exact Nat.mod_mod _ _

/-! ## Switches (R333) -/

/-- The decision of R325 rests on a gang's members. -/
theorem gangWay_members {g h : Gang} (hm : g.members = h.members) (s : State) (l : LRec) (b : Option Nat) : gangWay s g l b = gangWay s h l b := by
  unfold gangWay membersOf
  rw [hm]

/-- A state in which gangs of another have been asked for, none flushed: but for the gangs' ways it is the other. -/
structure Asked (s t : State) : Prop where
  state : t = { s with gangs := t.gangs }
  members : ∀ i, (t.gang? i).map Gang.members = (s.gang? i).map Gang.members

theorem Asked.onGang {s t : State} (h : Asked s t) (i : Nat) {f : Gang → Gang} (hid : ∀ g, (f g).id = g.id)
    (hm : ∀ g, (f g).members = g.members) : Asked s (t.onGang i f) where
  state := by rw [h.state]; rfl
  members j := by
    rw [← h.members j]
    by_cases hij : j = i
    · subst hij
      cases hg : t.gang? j with
      | none =>
        have hnone : (t.onGang j f).gang? j = none := by
          refine (find_updFirst _ f (fun x hx => by rw [hid]; exact hx) _).trans ?_
          rw [show t.gangs.find? (fun x => x.id == j) = none from hg]; rfl
        rw [hnone]
      | some g => rw [State.gang?_onGang_self hid hg]; exact congrArg some (hm g)
    · refine congrArg (Option.map Gang.members) (find_updFirst_ne _ _ f (fun x hx => ?_) _)
      have hx' : x.id = i := by simpa using hx
      rw [hid, hx']
      simpa using Ne.symm hij

/-- A request that flushes no gang only has it drain or be saved. -/
theorem Asked.preempt {s t : State} (h : Asked s t) {i : Nat} (br by' : Option Nat)
    (hflush : ∀ g l b, s.gang? i = some g → gangWay s g l b ≠ .flush) : Asked s (preempt t i br by') := by
  unfold Machine.preempt
  split
  · exact h
  next g hg =>
    split
    · exact h
    next l hl =>
      split
      · exact h
      dsimp only
      split
      · exact h.onGang i (fun _ => rfl) (fun _ => rfl)
      · exact h.onGang i (fun _ => rfl) (fun _ => rfl)
      next hway =>
        have hsome := h.members i
        rw [hg] at hsome
        obtain ⟨g', hg', hm⟩ := Option.map_eq_some_iff.mp hsome.symm
        rw [h.state, gangWay_members hm.symm] at hway
        exact absurd hway (hflush g' l _ hg')

theorem Asked.preempts {s : State} (br : State → Option Nat) (by' : Option Nat) (is : List Nat)
    (hflush : ∀ i ∈ is, ∀ g l b, s.gang? i = some g → gangWay s g l b ≠ .flush) : ∀ {t : State}, Asked s t →
      Asked s (is.foldl (fun t i => Machine.preempt t i (br t) by') t) := by
  induction is with
  | nil => exact fun h => h
  | cons i is ih =>
    intro t h
    exact ih (fun j hj => hflush j (List.mem_cons_of_mem _ hj)) (h.preempt _ _ (hflush i List.mem_cons_self))

section
variable {s : State} {g : Guard} {a : XReg} {c : Nat} {k : Curator} {q : Queue} (hg : s.cur.r.holds g = true) (href : s.cur.ref = .cur c)
  (hk : s.curator? c = some k) (hq : s.queue? k.q = some q) (hfence : s.cur.fence = none) (hrej : s.cur.rej = none)
include hg href hk hq hfence hrej

/-- QSWITCH of a valid block lists its switch, unless one like it stands, and pre-empts the outgoing contexts' gangs. -/
theorem execQswitch_lists {bs : List Byte} {s' : State} {inc : Option Nat} (hsw : q.sw = true) (hal : (s.cur.r.getX a).toNat % 8 = 0)
    (hwin : ∃ w ∈ k.wins, w.1 ≤ (s.cur.r.getX a).toNat ∧ (s.cur.r.getX a).toNat + 32 ≤ w.1 + w.2)
    (hread : engineRead s none s.cur.core s.cur.cid s.cur.mops (s.cur.r.getX a).toNat 32 1 = (.ok bs, s'))
    (hinc : inc = if bits (dword bs 8) 63 1 = 1 then none else some (bits (dword bs 8) 0 6))
    (hzero : bits (dword bs 8) 6 57 = 0) (hlast : dword bs 24 = 0) (hclash : ∀ i, inc = some i → (dword bs 0).testBit i = false) :
    ∃ t, execQswitch g a s = .next t ∧
      ((∀ g1 ∈ s'.gangs, (dword bs 0).testBit g1.cid = true → ∀ h l b, s'.gang? g1.id = some h → gangWay s' h l b ≠ .flush) →
        t.cur.r = s.cur.r.adv 1) ∧
      ∃ w ∈ t.switches, w.inc = inc ∧ w.when = max (dword bs 16) (s'.tick + 16384) ∧
        w.out = (List.range 64).filter (fun i => (dword bs 0).testBit i) := by
  have hcur : s'.cur.r = s.cur.r := Thread.r_of_still (State.cur_of_still (engineRead_still_of hread))
  rw [execQswitch, sysCurator_runs hg href hk hq hfence]
  dsimp only
  rw [hsw, Bool.not_true, if_neg Bool.false_ne_true, windowRead_ok hrej hal hwin hread, ← hinc]
  rw [if_neg]
  case hnc =>
    rintro (h | h | h)
    · exact h hzero
    · exact h hlast
    · split at h
      next i => exact Bool.false_ne_true ((hclash i rfl).symm.trans h)
      next => exact Bool.false_ne_true h
  split
  next hlisted =>
    obtain ⟨w, hw, hsame⟩ := List.any_eq_true.mp hlisted
    have hsame := beq_iff_eq.mp hsame
    exact ⟨_, rfl, fun _ => by rw [State.adv_cur, hcur], w, hw, (congrArg Switch.inc hsame : _), (congrArg Switch.when hsame : _),
      (congrArg Switch.out hsame : _)⟩
  next =>
    refine ⟨_, rfl, fun hflush => ?_, _, List.mem_append_right _ (List.mem_singleton.mpr rfl), rfl, rfl, rfl⟩
    have hasked := Asked.preempts (s := s') (fun t => some (max (dword bs 16) (s'.tick + switchLead) - t.tick)) (some q.cid)
      ((s'.gangs.filter (fun g => ((List.range 64).filter (fun i => (dword bs 0).testBit i)).contains g.cid)).map (·.id))
      (fun i hi => ?_) (t := s') ⟨rfl, fun _ => rfl⟩
    · rw [State.adv_cur]
      refine congrArg (fun r : Regs => r.adv 1) ((congrArg (fun u : State => u.cur.r) hasked.state).trans hcur)
    · obtain ⟨g1, hg1, rfl⟩ := List.mem_map.mp hi
      obtain ⟨hmem, hout⟩ := List.mem_filter.mp hg1
      have hbit : (dword bs 0).testBit g1.cid = true := (List.mem_filter.mp (List.contains_iff_mem.mp hout)).2
      exact fun h l b => hflush g1 hmem hbit h l b

/-! ## RENABLE (R273) -/

omit hg href hk hq hfence hrej in
theorem aggOf_takeUp {s : State} {cid : Nat} (hc : (s.ctx? cid).isSome = true) (region ctrs st : Nat) :
    (aggOf (takeUp s cid region ctrs st) cid region).isSome = true := by
  unfold takeUp
  split
  next h => exact h
  next h =>
    obtain ⟨c, hc⟩ := Option.isSome_iff_exists.mp hc
    rw [aggOf, State.ctx?_onCtx_self, hc]
    · simp [List.find?_append]
    · exact fun _ => rfl

/-- RENABLE of a region in state 1 or 2 has the aggregator hold it enabled, its violations forgotten. -/
theorem execRenable_enables {va : Nat} {desc cb : List Byte} {s1 s2 : State} (hx : (s.cur.r.getX a).toNat < 1024)
    (hva : descVa s q.cid (s.cur.r.getX a).toNat = some va) (hlt : va < 2 ^ 64)
    (hdesc : engineRead s none s.cur.core s.cur.cid s.cur.mops va 64 1 = (.ok desc, s1))
    (hstate : (RDesc.ofBytes desc).state = 1 ∨ (RDesc.ofBytes desc).state = 2)
    (hctrs : engineRead s1 none s1.cur.core s1.cur.cid s1.cur.mops (RDesc.ofBytes desc).ctrs 64 1 = (.ok cb, s2))
    (hc : (s.ctx? q.cid).isSome = true) :
    ∃ t, execRenable g a s = .next t ∧ t.cur.r = s.cur.r.adv 1 ∧
      ∃ z, aggOf t q.cid (s.cur.r.getX a).toNat = some z ∧ z.state = 1 ∧ z.c[3] = 0 ∧ z.c[7] = 0 := by
  have hstill1 := engineRead_still_of hdesc
  have hstill2 := (engineRead_still_of hctrs).trans hstill1
  have hrej1 : s1.cur.rej = none := (congrArg Thread.rej (State.cur_of_still hstill1) : s1.cur.still.rej = s.cur.still.rej).trans hrej
  have hctrslt : (RDesc.ofBytes desc).ctrs < 2 ^ 64 := by
    refine lt_of_lt_of_le (ofBytes_lt ((desc.drop 48).take 8)) (Nat.pow_le_pow_right (by decide : 0 < 256) ?_ |>.trans (by decide : 256 ^ 8 ≤ 2 ^ 64))
    exact List.length_take_le 8 _
  have hright : (!((RDesc.ofBytes desc).state == 1 || (RDesc.ofBytes desc).state == 2)) = false := by
    rcases hstate with h | h <;> rw [h] <;> rfl
  rw [execRenable, sysCurator_runs hg href hk hq hfence]
  dsimp only
  rw [hva]
  dsimp only
  rw [if_neg (Nat.not_le.mpr hx), sysRead_ok hrej (by rw [BitVec.toNat_ofNat, Nat.mod_eq_of_lt hlt]) hdesc, hright, if_neg Bool.false_ne_true,
    sysRead_ok hrej1 (by rw [BitVec.toNat_ofNat, Nat.mod_eq_of_lt hctrslt]) hctrs]
  generalize (s.cur.r.getX a).toNat = x
  obtain ⟨z, hz⟩ := Option.isSome_iff_exists.mp (aggOf_takeUp (s := s2)
    (by rw [State.ctx?_congr (State.ctxs_of_still hstill2)]; exact hc) x (RDesc.ofBytes desc).ctrs (RDesc.ofBytes desc).state)
  have hcur := takeUp_cur s2 q.cid x (RDesc.ofBytes desc).ctrs (RDesc.ofBytes desc).state
  generalize takeUp s2 q.cid x (RDesc.ofBytes desc).ctrs (RDesc.ofBytes desc).state = u at hz hcur
  refine ⟨_, rfl, ?_, { z with state := 1, c := (z.c.set 3 0).set 7 0 }, ?_, rfl, by simp, by simp⟩
  · have hr := Thread.r_of_still ((State.cur_of_still (writeBlock_still _ q.cid x)).trans
      (State.cur_of_still (writeRegionState_still (onAgg u q.cid x (fun a => { a with state := 1, c := (a.c.set 3 0).set 7 0 })) q.cid x 1)))
    have hu : u.cur.r = s.cur.r := hcur ▸ Thread.r_of_still (State.cur_of_still hstill2)
    exact congrArg (fun r : Regs => r.adv 1) (hr.trans hu)
  · refine (aggOf_congr ((State.ctxs_of_still (writeBlock_still _ q.cid x)).trans
      (State.ctxs_of_still (writeRegionState_still (onAgg u q.cid x (fun a => { a with state := 1, c := (a.c.set 3 0).set 7 0 })) q.cid x 1)))
      q.cid x).trans ((aggOf_onAgg u ?_ q.cid x).trans (by rw [hz]; rfl))
    exact fun _ => rfl

/-! ## WLCFG (R283) -/

theorem execWlcfg_active {bs : List Byte} {s' : State} {w : Worklist} (hal : (s.cur.r.getX a).toNat % 64 = 0)
    (hwin : ∃ w ∈ k.wins, w.1 ≤ (s.cur.r.getX a).toNat ∧ (s.cur.r.getX a).toNat + 64 ≤ w.1 + w.2)
    (hread : engineRead s none s.cur.core s.cur.cid s.cur.mops (s.cur.r.getX a).toNat 64 1 = (.ok bs, s'))
    (hw : s'.wl? q.cid (Fin.ofNat 4 (bits (dword bs 0) 0 2)) = some w) (hst : w.st = .active) :
    execWlcfg g a s = .next (s'.onRegs (fun r => (r.setX a 1).adv 1)) := by
  rw [execWlcfg, sysCurator_runs hg href hk hq hfence]
  dsimp only
  rw [windowRead_ok hrej hal hwin hread]
  simp only [hw, hst, if_true]
  rfl

/-- WLCFG of a valid block at device scope has its worklist ACTIVE. -/
theorem execWlcfg_configures {bs : List Byte} {s' : State} {w : Worklist} (hal : (s.cur.r.getX a).toNat % 64 = 0)
    (hwin : ∃ w ∈ k.wins, w.1 ≤ (s.cur.r.getX a).toNat ∧ (s.cur.r.getX a).toNat + 64 ≤ w.1 + w.2)
    (hread : engineRead s none s.cur.core s.cur.cid s.cur.mops (s.cur.r.getX a).toNat 64 1 = (.ok bs, s'))
    (hw : s'.wl? q.cid (Fin.ofNat 4 (bits (dword bs 0) 0 2)) = some w) (hst : w.st ≠ .active) (hok : wlBlockOk bs = true)
    (hdev : bits (dword bs 0) 24 1 = 0) :
    ∃ t, execWlcfg g a s = .next t ∧ t.cur.r = (s'.cur.r.setX a 0).adv 1 ∧ t.wl? q.cid (Fin.ofNat 4 (bits (dword bs 0) 0 2)) =
      some (wlConfigured bs (Vector.replicate 4 ⟨none, [], []⟩) none) := by
  rw [execWlcfg, sysCurator_runs hg href hk hq hfence]
  dsimp only
  rw [windowRead_ok hrej hal hwin hread]
  simp only [hw, if_neg hst, hok, Bool.not_true, Bool.false_eq_true, if_false, hdev, if_true]
  exact ⟨_, rfl, rfl, State.wl?_onWl_self (f := fun _ => wlConfigured bs (Vector.replicate 4 ⟨none, [], []⟩) none) ((State.wl?_congr rfl _ _).trans hw)⟩

end

end Sys2Proof.Machine

namespace Sys2Proof
open Machine

/-- Settles O50: each function's own lemma above; QSWITCH without a flush by `Asked.preempts`. -/
theorem curatorFunctions : Obligations.CuratorFunctions := by
  unfold Obligations.CuratorFunctions
  intro g a c k q s hg href hk hq hfence hrej x x2 pair at' reads block
  refine ⟨?phase, ?done, ?signal, ?waitsig, ?launch, ?switch, ?renable, ?wlcfg⟩
  case phase =>
    intro hx
    have hex := execQphase_sets hg href hk hq hfence hx
    refine ⟨_, hex, (execQphase_keeps g a (Keeps.refl s)).keeps _ hex, ?_, ?_⟩
    · exact congrArg (fun r : Regs => r.adv 1) (Thread.r_of_still (State.setQueue_curStill s k.q (Queue.inPhase (x.setWidth 32))))
    · exact State.queue?_setQueue_self (f := Queue.inPhase (x.setWidth 32)) (fun _ => rfl) hq
  case done =>
    intro hmops
    have hex := execQdone_serves hg href hk hq hfence hmops
    have hrel := release_still s s.cur.core s.cur.cid 6
    have hq' : (release s s.cur.core s.cur.cid 6).queue? k.q = some q := (State.queue?_congr (State.queues_of_still hrel) _).trans hq
    have hset := State.queue?_setQueue_self (f := Queue.served) (fun _ => rfl) hq'
    have hsel := Thread.place_of_still ((State.setQueue_curStill _ k.q Queue.served).trans (State.cur_of_still hrel))
    obtain ⟨hidle, hfree, hqueues⟩ := endPacket_dropThread hsel.1 c
    exact ⟨_, hex, (execQdone_keeps g (Keeps.refl s)).keeps _ hex, hidle, hfree, (hqueues k.q).trans hset⟩
  case signal =>
    intro ha hal key s' hkey hmops hclean
    have hex := execQsignal_adds hg href hk hq hfence hrej ha hal hkey hmops hclean
    have honly := resolve_only_of hkey
    refine ⟨_, hex, (execQsignal_keeps g a (Keeps.refl s)).keeps _ hex, ?_, fun hwf hsys hl1 => ?_⟩
    · exact congrArg (fun r : Regs => r.adv 1) (Thread.r_of_still ((State.cur_of_still (signalAt_still s' s.cur.core s.cur.cid key x2)).trans
        (State.cur_of_still honly.still)))
    · have hmem : s'.mem = s.mem := by rw [honly.state]
      have hget := signalAt_get (s := s') hl1 (hmem ▸ hwf) hsys s.cur.cid x2
      rwa [show s'.get key 8 = s.get key 8 by rw [State.get, State.get, hmem]] at hget
  case waitsig =>
    intro ha hal hquiesce key s' hkey
    have hex := execQwaitsig_waits hg href hk hq hfence hrej ha hal hquiesce hkey
    have honly := resolve_only_of hkey
    obtain ⟨hidle, hfree, hqueues⟩ := endPacket_dropThread (congrArg Thread.ref honly.cur) c
    refine ⟨_, hex, (execQwaitsig_keeps g a (Keeps.refl s)).keeps _ hex, (State.setQueue_cur (by rw [hidle]; rfl) _ _).trans hidle,
      (State.curator?_congr (State.setQueue_curators _ _ _) c).trans hfree, ?_⟩
    refine State.queue?_setQueue_self (f := Queue.waitsOn x x2 { s.cur with wait := .qsig, r := s.cur.r.adv 1 }) (fun _ => rfl) ?_
    exact (hqueues k.q).trans ((State.queue?_congr (State.queues_of_still honly.still) k.q).trans hq)
  case launch =>
    intro ha hal raw s' hraw
    obtain ⟨t, l, hex, hlaunches, hcid, hrawl, hsig, hl⟩ := execQlaunch_lists hg href hk hq hfence hrej ha hal hraw
    refine ⟨t, l, hex, (execQlaunch_keeps g a (Keeps.refl s)).keeps _ hex, hlaunches, hcid, hrawl, ?_, hl⟩
    rw [hsig, Thread.r_of_still (State.cur_of_still (engineRead_still_of hraw))]
  case switch =>
    intro hsw hal bs s' hblock d inc hzero hlast hclash
    obtain ⟨hwin, hread⟩ := hblock
    obtain ⟨t, hex, hrest⟩ := execQswitch_lists hg href hk hq hfence hrej hsw hal hwin hread rfl hzero hlast hclash
    exact ⟨t, hex, (execQswitch_keeps g a (Keeps.refl s)).keeps _ hex, hrest⟩
  case renable =>
    intro va desc s1 cb s2 hx hva hlt hdesc hstate hctrs hc
    obtain ⟨t, hex, hrest⟩ := execRenable_enables hg href hk hq hfence hrej hx hva hlt hdesc hstate hctrs hc
    exact ⟨t, hex, (execRenable_keeps g a (Keeps.refl s)).keeps _ hex, hrest⟩
  case wlcfg =>
    intro bs s' w hal hblock hw
    obtain ⟨hwin, hread⟩ := hblock
    have hr : s'.cur.r = s.cur.r := Thread.r_of_still (State.cur_of_still (engineRead_still_of hread))
    refine ⟨fun hst => ?_, fun hst hok hdev => ?_⟩
    · have hex := execWlcfg_active hg href hk hq hfence hrej hal hwin hread hw hst
      exact ⟨_, hex, (execWlcfg_keeps g a (Keeps.refl s)).keeps _ hex, by rw [State.onRegs_cur, hr], rfl⟩
    · obtain ⟨t, hex, htr, hwl⟩ := execWlcfg_configures hg href hk hq hfence hrej hal hwin hread hw hst hok hdev
      exact ⟨t, hex, (execWlcfg_keeps g a (Keeps.refl s)).keeps _ hex, by rw [htr, hr], hwl⟩

end Sys2Proof
end

section
/-! PROOFS. The instructions of the worklists (R287-R291). What they make of the selected thread and of its worklist. -/

namespace Sys2Proof.Machine

/-! ## Lists of records (R284, R289) -/

theorem least_eq_none {l : List Nat} (h : least l = none) : l = [] := by
  cases l with
  | nil => rfl
  | cons x xs =>
    unfold least at h
    split at h <;> exact nomatch h

/-- The least of a list is in it, and nothing in it is less. -/
theorem least_eq_some {l : List Nat} : ∀ {m : Nat}, least l = some m → m ∈ l ∧ ∀ x ∈ l, m ≤ x := by
  induction l with
  | nil => exact fun h => nomatch h
  | cons x xs ih =>
    intro m h
    unfold least at h
    split at h
    next hnone =>
      obtain rfl := least_eq_none hnone
      obtain rfl := Option.some.inj h
      simp
    next y hy =>
      obtain rfl := Option.some.inj h
      obtain ⟨hmem, hle⟩ := ih hy
      refine ⟨?_, fun z hz => ?_⟩
      · rcases min_choice x y with hmin | hmin <;> rw [hmin]
        · exact List.mem_cons_self
        · exact List.mem_cons_of_mem _ hmem
      · rcases List.mem_cons.mp hz with rfl | hz
        · exact min_le_left _ _
        · exact (min_le_right _ _).trans (hle z hz)

theorem pickRec_mem (s : State) {cs : List WRec} (h : cs ≠ []) : ∃ r ∈ cs, pickRec s cs = some r := by
  match cs, h with
  | [r], _ => exact ⟨r, List.mem_cons_self, rfl⟩
  | r :: q :: l, _ =>
    refine ⟨_, ?_, rfl⟩
    cases hget : (r :: q :: l)[Config.freeChoice s.fresh % (l.length + 2)]? with
    | none => exact List.mem_cons_self
    | some x => exact List.mem_of_getElem? hget

/-- May a pop of a core be given a record that its front buffer or its die unit holds on chip (R289)? -/
def MayPop (s : State) (core cid : Nat) (wl : Fin 4) (w : Worklist) (r : WRec) : Prop :=
  r ∈ frontOf s core cid wl ++ (w.units[dieOf core]).recs ∧ eligible w (w.units[dieOf core]).fseen (bucket w r.key) = true

section
variable {s : State} {core cid : Nat} {wl : Fin 4} {w : Worklist} (hchip : (w.units[dieOf core]).chunks.flatMap (·.2) = [])
include hchip

/-- With nothing spilled, a pop's choices are the records it may be given, of the lowest bucket. -/
theorem mem_popChoices {r : WRec} (h : r ∈ popChoices s core cid wl w) :
    MayPop s core cid wl w r ∧ ∀ q, MayPop s core cid wl w q → bucket w r.key ≤ bucket w q.key := by
  simp only [popChoices, hchip, List.append_nil] at h
  split at h
  next => exact nomatch h
  next b hb =>
    obtain ⟨hmem, hbucket⟩ := List.mem_filter.mp h
    obtain ⟨hall, heligible⟩ := List.mem_filter.mp hmem
    refine ⟨⟨hall, heligible⟩, fun q hq => ?_⟩
    rw [beq_iff_eq.mp hbucket]
    exact (least_eq_some hb).2 _ (List.mem_map.mpr ⟨q, List.mem_filter.mpr hq, rfl⟩)

theorem popChoices_eq_nil : popChoices s core cid wl w = [] ↔ ¬∃ r, MayPop s core cid wl w r := by
  refine ⟨fun h ⟨r, hr⟩ => ?_, fun h => List.eq_nil_iff_forall_not_mem.mpr fun r hr => h ⟨r, (mem_popChoices hchip hr).1⟩⟩
  simp only [popChoices, hchip, List.append_nil] at h
  have hmem := List.mem_filter (p := fun r : WRec => eligible w (w.units[dieOf core]).fseen (bucket w r.key)) |>.mpr hr
  split at h
  next hnone => rw [List.map_eq_nil_iff.mp (least_eq_none hnone)] at hmem; exact nomatch hmem
  next b hb =>
    obtain ⟨q, hq, hqb⟩ := List.mem_map.mp (least_eq_some hb).1
    have hin := List.mem_filter (p := fun r : WRec => bucket w r.key == b) |>.mpr ⟨hq, beq_iff_eq.mpr hqb⟩
    rw [h] at hin
    exact nomatch hin

theorem reachRec_onChip (r : WRec) : reachRec s cid core wl w r = .ok := by
  have hnone : chunkOf w core r = none := by
    rw [chunkOf, Option.map_eq_none_iff, List.find?_eq_none]
    intro c hc hr
    have hin : r ∈ (w.units[dieOf core]).chunks.flatMap (·.2) := List.mem_flatMap.mpr ⟨c, hc, List.contains_iff_mem.mp hr⟩
    rw [hchip] at hin
    exact nomatch hin
  unfold reachRec
  split
  · rfl
  · rw [hnone]

end

/-! ## WLSTAT and WLFLOOR (R291) -/

/-- The fields of WLSTAT's word read back. -/
theorem bits_statWord {st d h j p f n : Nat} (hst : st < 4) (hd : d < 64) (hh : h < 2) (hj : j < 2) (hp : p < 2 ^ 16) (hf : f < 2 ^ 16)
    (hn : n < 2 ^ 16) :
    let x := (BitVec.ofNat 64 (st * 2 ^ 62 + d * 2 ^ 56 + h * 2 ^ 55 + j * 2 ^ 54 + p * 2 ^ 32 + f * 2 ^ 16 + n)).toNat
    bits x 62 2 = st ∧ bits x 56 6 = d ∧ bits x 55 1 = h ∧ bits x 54 1 = j := by
  simp only [BitVec.toNat_ofNat, bits]
  omega

/-- STATE of a worklist as a number (R291). -/
def Worklist.code (w : Worklist) : Nat :=
  match w.st with | .unconfigured => 0 | .active => 1 | .terminated => 2 | .faulted => 3

/-- The participants parked on a thread's die (R291). -/
def parkedNear (s : State) (t : Thread) (wl : Fin 4) (w : Worklist) : Nat :=
  ((parkedOn s t.cid wl).filter (fun x => dieOf x.core == dieOf t.core && w.parts.contains x.ref)).length

/-- The tasks that threads of a thread's core hold (R291). -/
def tasksNear (s : State) (t : Thread) (w : Worklist) : Nat :=
  (w.tasks.filter (fun k => ((s.thread? k.1).map (fun x => x.core == t.core)).getD false)).length

section
variable {s : State} {t : Thread} {wl : Fin 4} {w : Worklist} (hw : s.wl? t.cid wl = some w)
include hw

theorem wlstatValue_unconfigured (hst : w.st = .unconfigured) : wlstatValue s t wl = 0 := by
  simp only [wlstatValue, hw, hst, if_true]

theorem wlstatValue_bits (hst : w.st ≠ .unconfigured) (hd : w.delta < 64) :
    bits (wlstatValue s t wl).toNat 62 2 = w.code ∧ bits (wlstatValue s t wl).toNat 56 6 = w.delta ∧
    bits (wlstatValue s t wl).toNat 55 1 = (if (wlHeld w t.ref).isSome then 1 else 0) ∧
    bits (wlstatValue s t wl).toNat 54 1 = (if w.parts.contains t.ref then 1 else 0) := by
  have hcode : w.code < 4 ∧ w.code ≠ 0 := by
    unfold Worklist.code
    cases hs : w.st with
    | unconfigured => exact absurd hs hst
    | active | terminated | faulted => decide
  have hvalue : wlstatValue s t wl = BitVec.ofNat 64
      (w.code * 2 ^ 62 + w.delta * 2 ^ 56 + (if (wlHeld w t.ref).isSome then 1 else 0) * 2 ^ 55
        + (if w.parts.contains t.ref then 1 else 0) * 2 ^ 54 + min (parkedNear s t wl w) 65535 * 2 ^ 32
        + (frontOf s t.core t.cid wl).length % 65536 * 2 ^ 16 + tasksNear s t w % 65536) := by
    rw [ite_mul, ite_mul, one_mul, one_mul, zero_mul, zero_mul]
    simp only [wlstatValue, hw]
    exact if_neg hcode.2
  rw [hvalue]
  exact bits_statWord hcode.1 hd (by split <;> decide) (by split <;> decide)
    (lt_of_le_of_lt (min_le_right _ 65535) (by decide)) (Nat.mod_lt _ (by decide)) (Nat.mod_lt _ (by decide))

end


/-! ## What a worklist's state lets through (R287) -/

section
variable {g : Guard} {s : State} {wl : Fin 4} {w : Worklist} (hg : s.cur.r.holds g = true) (hrest : s.cur.rest = none)
  (hfence : s.cur.fence = none) (hw : s.wl? s.cur.cid wl = some w)
include hg hrest hfence hw

theorem onList_active (hst : w.st = .active) (push : Bool) (k : Worklist → Out) : onList g wl push s k = k w := by
  simp only [onList, guarded_true hg, outside_none hrest, settled_none hfence, hw, hst]

theorem onList_open (hst : w.st = .active ∨ w.st = .terminated) (k : Worklist → Out) : onList g wl false s k = k w := by
  rcases hst with hst | hst
  · exact onList_active hg hrest hfence hw hst false k
  · simp only [onList, guarded_true hg, outside_none hrest, settled_none hfence, hw, hst, Bool.false_eq_true, if_false]

end

/-! ## The task that a thread retires (R290) -/

theorem wlRetire_tasks (w : Worklist) (t : TRef) : (wlRetire w t).tasks = w.tasks.filter (fun x => x.1 != t) := by
  unfold wlRetire
  split
  · rfl
  next hfree =>
    refine (List.filter_eq_self.mpr fun x hx => ?_).symm
    rw [wlHeld, Option.isSome_map, Bool.not_eq_true, Option.isSome_eq_false_iff, Option.isNone_iff_eq_none] at hfree
    exact bne_iff_ne.mpr fun h => List.find?_eq_none.mp hfree x hx (beq_iff_eq.mpr h)

theorem wlRetire_counts (w : Worklist) (t : TRef) : (wlRetire w t).counts =
    (w.counts.1, w.counts.2.1, w.counts.2.2.1 + (if (wlHeld w t).isSome then 1 else 0), w.counts.2.2.2) := by
  unfold wlRetire
  split <;> rfl

section
variable {s : State} {t : Thread} {wl : Fin 4}

theorem wlDone_cur (hfence : s.cur.fence = none) : (wlDone s t wl).cur = s.cur := by
  unfold wlDone
  split
  · rfl
  split
  · exact release_cur hfence rfl _ _ _
  · rfl

theorem wlDone_wl? {w : Worklist} (hw : s.wl? t.cid wl = some w) : (wlDone s t wl).wl? t.cid wl = some (wlRetire w t.ref) := by
  simp only [wlDone, hw]
  split
  · exact State.wl?_onWl_self ((State.wl?_congr (State.ctxs_of_still (release_still _ _ _ _)) _ _).trans hw) _
  next hfree => rw [wlRetire, if_neg hfree]; exact hw

theorem wlDone_front (core : Nat) : ((wlDone s t wl).core core).front = (s.core core).front := by
  unfold wlDone
  split
  · rfl
  split
  · exact (congrArg Core.front (State.core_congr (State.onWl_cores _ _ _ _) core)).trans (State.front_of_still (release_still _ _ _ _) core)
  · rfl

theorem replaying_wlDone (cid : Nat) : replaying (wlDone s t wl) cid = replaying s cid := by
  unfold wlDone
  split
  · rfl
  split
  · exact (replaying_onWl _ _ _ _ _).trans (replaying_congr (State.ctxs_of_still (release_still _ _ _ _)) cid)
  · rfl

end

/-! ## The start of a pop (R289) -/

/-- A worklist in which a thread has retired its task and joined (R285, R289). -/
def Worklist.started (w : Worklist) (t : TRef) : Worklist := wlJoin (wlRetire w t) t

theorem wlJoin_only (w : Worklist) (t : TRef) : ∃ parts joined counts, wlJoin w t = { w with parts, joined, counts } := by
  unfold wlJoin
  split
  · exact ⟨_, _, _, rfl⟩
  · exact ⟨_, _, _, rfl⟩

theorem wlRetire_only (w : Worklist) (t : TRef) : ∃ tasks counts, wlRetire w t = { w with tasks, counts } := by
  unfold wlRetire
  split
  · exact ⟨_, _, rfl⟩
  · exact ⟨_, _, rfl⟩

theorem mem_wlJoin_parts (w : Worklist) (t : TRef) : t ∈ (wlJoin w t).parts := by
  unfold wlJoin
  split
  next hin => exact List.contains_iff_mem.mp hin
  · exact List.mem_append_right _ List.mem_cons_self

theorem Worklist.started_only (w : Worklist) (t : TRef) : ∃ parts joined counts, w.started t =
    { w with parts, joined, counts, tasks := w.tasks.filter (fun x => x.1 != t) } := by
  obtain ⟨parts, joined, counts, hjoin⟩ := wlJoin_only (wlRetire w t) t
  obtain ⟨tasks, counts', hretire⟩ := wlRetire_only w t
  have htasks := wlRetire_tasks w t
  rw [hretire] at htasks hjoin
  exact ⟨parts, joined, counts, by rw [Worklist.started, hretire, hjoin, ← htasks]⟩

section
variable {s : State} {wl : Fin 4}

theorem popStart_cur (hfence : s.cur.fence = none) : (popStart s wl).cur = s.cur := wlDone_cur hfence

theorem popStart_wl? {w : Worklist} (hw : s.wl? s.cur.cid wl = some w) :
    (popStart s wl).wl? s.cur.cid wl = some (w.started s.cur.ref) :=
  State.wl?_onWl_self (wlDone_wl? hw) _

theorem popStart_front (core : Nat) : ((popStart s wl).core core).front = (s.core core).front :=
  (congrArg Core.front (State.core_congr (State.onWl_cores _ _ _ _) core)).trans (wlDone_front core)

theorem replaying_popStart (cid : Nat) : replaying (popStart s wl) cid = replaying s cid :=
  (replaying_onWl _ _ _ _ _).trans (replaying_wlDone cid)

end

/-- The start of a pop leaves what it may be given. -/
theorem mayPop_popStart {s : State} {core cid : Nat} {wl wl' : Fin 4} (w : Worklist) (t : TRef) (r : WRec) :
    MayPop (popStart s wl') core cid wl (w.started t) r ↔ MayPop s core cid wl w r := by
  obtain ⟨parts, joined, counts, hstarted⟩ := w.started_only t
  rw [hstarted, MayPop, MayPop, frontOf, frontOf, popStart_front]
  exact Iff.rfl

/-! ## What a pop gives (R289) -/

theorem tasks_takeRec (s : State) (core n cid : Nat) (l wl : Fin 4) (r : WRec) :
    ((takeRec s core n l r).wl? cid wl).map (·.tasks) = (s.wl? cid wl).map (·.tasks) := by
  unfold takeRec
  split
  · rw [State.wl?_congr (State.onCore_ctxs _ _ _)]
  · refine State.map_wl?_onWl _ _ ?_ _ _ _ _
    exact fun _ => rfl

theorem takeRec_cur (s : State) (core cid : Nat) (wl : Fin 4) (r : WRec) : (takeRec s core cid wl r).cur = s.cur := by
  unfold takeRec
  split
  · exact State.onCore_cur _ _ _
  · rfl

theorem popTaken_cur (s : State) (t : Thread) (wl : Fin 4) (r : WRec) : (popTaken s t wl r).cur = s.cur := by
  unfold popTaken
  split <;> exact takeRec_cur s t.core t.cid wl r

theorem logValue_wl? (s : State) (n arb core slot code val cid : Nat) (wl : Fin 4) :
    (logValue s n arb core slot code val).wl? cid wl = s.wl? cid wl := by
  refine State.wl?_onCtx s (fun c => ?_) n cid wl
  split <;> exact ⟨rfl, rfl⟩

/-- A worklist of which a record has been handed to a thread as its task (R284). -/
def Worklist.given (w : Worklist) (t : TRef) (key : W32) : Worklist :=
  { w with tasks := w.tasks ++ [(t, key)], counts := (w.counts.1, w.counts.2.1 + 1, w.counts.2.2) }

theorem popTaken_tasks {s : State} {t : Thread} {wl : Fin 4} {w : Worklist} (hw : s.wl? t.cid wl = some w) (r : WRec) :
    ∃ w', (popTaken s t wl r).wl? t.cid wl = some w' ∧ w'.tasks = w.tasks ++ [(t.ref, r.key)] := by
  have htaken := tasks_takeRec s t.core t.cid t.cid wl wl r
  rw [hw, Option.map_some, Option.map_eq_some_iff] at htaken
  obtain ⟨u, hu, hsame⟩ := htaken
  have hlogged : (popLogged s t wl r).wl? t.cid wl = some (u.given t.ref r.key) := by
    rw [popLogged, logValue_wl?]
    exact State.wl?_onWl_self hu _
  refine ⟨u.given t.ref r.key, ?_, by rw [Worklist.given, hsame]⟩
  unfold popTaken
  split
  · exact (State.wl?_congr (State.onWg_ctxs _ _ _) _ _).trans hlogged
  · exact hlogged

section
variable {s : State} {t : Thread} (href : s.cur.ref = t.ref) (wl : Fin 4) (xa : XReg) (ps : PReg)
include href

/-- A pop that gives the selected thread a record: its registers and the worklist's tasks. -/
theorem popGive_selected (v : VReg) (n : Nat) (r : WRec) {w : Worklist} (hw : s.wl? t.cid wl = some w) :
    (popGive s t wl xa ps v n r).cur.r = (((s.cur.r.setRange v.val r.words).setX xa 0).setP ps true).adv n ∧
      ∃ w', (popGive s t wl xa ps v n r).wl? t.cid wl = some w' ∧ w'.tasks = w.tasks ++ [(t.ref, r.key)] := by
  obtain ⟨w', hw', htasks⟩ := popTaken_tasks hw r
  have hcur : (acquire (popTaken s t wl r) t.core t.cid (((s.wl? t.cid wl).map wlScope).getD 5)).cur = s.cur :=
    (acquire_cur _ _ _ _).trans (popTaken_cur s t wl r)
  rw [popGive_eq]
  refine ⟨?_, w', ?_, htasks⟩
  · rw [State.onThread_selected (by rw [hcur, href]), State.onCur_cur, hcur]
  · rw [State.wl?_congr (State.onThread_ctxs _ _ _), State.wl?_congr (State.ctxs_of_still (acquire_still _ _ _ _)), hw']

theorem popStatus_selected (n st : Nat) :
    (popStatus s t xa ps n st).cur.r = ((s.cur.r.setX xa (BitVec.ofNat 64 st)).setP ps false).adv n := by
  rw [popStatus, State.onThread_selected href, State.onCur_cur]

theorem popEnded_selected (n : Nat) : (popEnded s t wl xa ps n).cur.r = ((s.cur.r.setX xa 2).setP ps false).adv n := by
  rw [popEnded, popStatus_selected (by rw [acquire_cur, href]), acquire_cur]
  rfl

end

theorem popStatus_ctxs (s : State) (t : Thread) (xa : XReg) (ps : PReg) (n st : Nat) : (popStatus s t xa ps n st).ctxs = s.ctxs :=
  State.onThread_ctxs _ _ _

/-! ## WLPOP and WLTRY (R289) -/

section
variable {s : State} {wl : Fin 4} {w : Worklist} (hfence : s.cur.fence = none) (hmops : s.cur.mops = [])
  (hw : s.wl? s.cur.cid wl = some w) (xa : XReg) (ps : PReg) (v : VReg) (park : State → State)
include hfence hmops hw

theorem popRun_terminated (hst : w.st = .terminated) :
    popRun s wl xa ps v park = .next (popEnded (popStart s wl) s.cur wl xa ps 2) := by
  obtain ⟨parts, joined, counts, hstarted⟩ := w.started_only s.cur.ref
  simp only [popRun, drained_none hmops, popStart_cur hfence, popStart_wl? hw, hstarted, hst, if_true]

section
variable (hst : w.st = .active) (hlive : replaying s s.cur.cid = false)
  (hchip : (w.units[dieOf s.cur.core]).chunks.flatMap (·.2) = [])
include hst hlive hchip

/-- With nothing that the thread may be given, a pop parks it or answers it as its instruction says. -/
theorem popRun_none (hno : ¬∃ r, MayPop s s.cur.core s.cur.cid wl w r) : popRun s wl xa ps v park = .next (park (popStart s wl)) := by
  have hchoices : popChoices (popStart s wl) s.cur.core s.cur.cid wl (w.started s.cur.ref) = [] := by
    refine (popChoices_eq_nil ?_).mpr fun ⟨r, hr⟩ => hno ⟨r, (mayPop_popStart w s.cur.ref r).mp hr⟩
    obtain ⟨parts, joined, counts, hstarted⟩ := w.started_only s.cur.ref
    rw [hstarted]
    exact hchip
  have hst' : (w.started s.cur.ref).st ≠ .terminated := by
    obtain ⟨parts, joined, counts, hstarted⟩ := w.started_only s.cur.ref
    simp [hstarted, hst]
  simp only [popRun, drained_none hmops, popStart_cur hfence, popStart_wl? hw, if_neg hst', popFind, replaying_popStart, hlive, hchoices,
    pickRec, Bool.false_eq_true, if_false]

/-- With some record that the thread may be given, a pop gives it one of the lowest bucket. -/
theorem popRun_found (hsome : ∃ r, MayPop s s.cur.core s.cur.cid wl w r) :
    ∃ r, MayPop s s.cur.core s.cur.cid wl w r ∧ (∀ q, MayPop s s.cur.core s.cur.cid wl w q → bucket w r.key ≤ bucket w q.key) ∧
      popRun s wl xa ps v park =
        .next (popGive { popStart s wl with fresh := (popStart s wl).fresh + 1 } s.cur wl xa ps v 2 r) := by
  obtain ⟨parts, joined, counts, hstarted⟩ := w.started_only s.cur.ref
  have hchip' : ((w.started s.cur.ref).units[dieOf s.cur.core]).chunks.flatMap (·.2) = [] := by rw [hstarted]; exact hchip
  have hst' : (w.started s.cur.ref).st ≠ .terminated := by simp [hstarted, hst]
  have hchoices : popChoices (popStart s wl) s.cur.core s.cur.cid wl (w.started s.cur.ref) ≠ [] := fun h => by
    obtain ⟨r, hr⟩ := hsome
    exact (popChoices_eq_nil hchip').mp h ⟨r, (mayPop_popStart w s.cur.ref r).mpr hr⟩
  obtain ⟨r, hr, hpick⟩ := pickRec_mem (popStart s wl) hchoices
  obtain ⟨hmay, hleast⟩ := mem_popChoices hchip' hr
  refine ⟨r, (mayPop_popStart w s.cur.ref r).mp hmay, fun q hq => ?_, ?_⟩
  · have hle := hleast q ((mayPop_popStart w s.cur.ref q).mpr hq)
    rw [hstarted] at hle
    exact hle
  · simp only [popRun, drained_none hmops, popStart_cur hfence, popStart_wl? hw, if_neg hst', popFind, replaying_popStart, hlive, hpick,
      reachRec_onChip hchip', Bool.false_eq_true, if_false]

end

end

/-! ## The entry that a push takes (R288, R292) -/

/-- The entry `e` that a push of depth `dep` takes of a core's front buffer, and the records `old` that stand there before its own. -/
def TakesEntry (s : State) (core dep : Nat) (e : Option Nat) (old : List WRec) : Prop :=
  (generalUsed (s.core core) < 256 ∧ e = none ∧ old = (s.core core).front) ∨
  (256 ≤ generalUsed (s.core core) ∧ ¬dieHeld s (dieOf core) < unitRoom ∧ (s.core core).front.any (fun r => r.resv == some dep) = false ∧
    e = some dep ∧ old = (s.core core).front) ∨
  (generalUsed (s.core core) = 256 ∧ dieHeld s (dieOf core) < unitRoom ∧ e = none ∧
    ∃ r, (s.core core).front.find? (fun r => r.resv.isNone) = some r ∧ old = (s.core core).front.erase r)

/-- The oldest general record out of the front buffer leaves one general entry more. -/
theorem generalUsed_sendRec {s : State} {core : Nat} {r : WRec} (h : (s.core core).front.find? (fun r => r.resv.isNone) = some r) :
    generalUsed ((sendRec s core r).core core) = generalUsed (s.core core) - 1 := by
  rw [core_sendRec, generalUsed, generalUsed, ← List.countP_eq_length_filter, ← List.countP_eq_length_filter, List.countP_erase,
    if_pos ⟨List.mem_of_find?_eq_some h, List.find?_some (p := fun r : WRec => r.resv.isNone) h⟩]

theorem sendFull_takesEntry {s : State} {core dep : Nat} {e : Option Nat} {old : List WRec} (h : TakesEntry s core dep e old) :
    frontRoom ((sendFull s core).core core) dep = some e ∧ ((sendFull s core).core core).front = old := by
  rcases h with ⟨hroom, rfl, rfl⟩ | ⟨hfull, hunit, hdep, rfl, rfl⟩ | ⟨hfull, hunit, rfl, r, hr, rfl⟩
  case inl => rw [sendFull_of_room hroom, frontRoom, if_pos hroom]; exact ⟨rfl, rfl⟩
  case inr.inl =>
    rw [sendFull, if_neg (fun h => hunit h.2), frontRoom, if_neg (Nat.not_lt.mpr hfull), hdep]
    exact ⟨rfl, rfl⟩
  case inr.inr =>
    have hsend : sendFull s core = sendRec s core r := by rw [sendFull, if_pos ⟨hfull.ge, hunit⟩, hr]
    rw [hsend, frontRoom, generalUsed_sendRec hr, hfull, core_sendRec]
    exact ⟨rfl, rfl⟩

theorem sendFull_cur (s : State) (core : Nat) : (sendFull s core).cur = s.cur := by
  unfold sendFull
  split
  · split
    · exact State.onCore_cur _ _ _
    · rfl
  · rfl

/-- A record on its way to a die unit changes the worklist's units only. -/
theorem sendFull_wl? {s : State} {cid : Nat} {wl : Fin 4} {w : Worklist} (h : s.wl? cid wl = some w) (core : Nat) :
    ∃ w', (sendFull s core).wl? cid wl = some w' ∧ w'.parts = w.parts ∧ w'.counts = w.counts := by
  have hkept : ((sendFull s core).wl? cid wl).map (fun w => (w.parts, w.counts)) = some (w.parts, w.counts) := by
    unfold sendFull
    split
    · split
      · rw [sendRec, State.map_wl?_onWl, State.wl?_congr (State.onCore_ctxs _ _ _), h]
        · rfl
        · exact fun _ => rfl
      · rw [h]; rfl
    · rw [h]; rfl
  obtain ⟨w', hw', hsame⟩ := Option.map_eq_some_iff.mp hkept
  exact ⟨w', hw', congrArg Prod.fst hsame, congrArg Prod.snd hsame⟩

/-! ## WLPUSH (R288) -/

theorem State.onThread_r (s : State) (q : TRef) {f : Thread → Thread} (hf : ∀ x, (f x).r = x.r) : (s.onThread q f).cur.r = s.cur.r := by
  unfold State.onThread
  split
  · exact hf _
  · rfl

/-- A worklist of which one push more has been counted (R288). -/
def Worklist.pushed (w : Worklist) : Worklist := { w with counts := (w.counts.1 + 1, w.counts.2) }

theorem wlPlace_r {s : State} (hfence : s.cur.fence = none) (t : Thread) (wl : Fin 4) (words : List W32) (entry : Option Nat) :
    (wlPlace s t wl words entry).cur.r = s.cur.r := by
  unfold wlPlace
  dsimp only
  rw [logWin, State.onCtx_cur, State.onThread_r, State.onWl_cur, State.onCore_cur, release_cur hfence rfl]
  exact fun _ => rfl

theorem wlPlace_wl? {s : State} {t : Thread} {wl : Fin 4} {w : Worklist} (hw : s.wl? t.cid wl = some w) (words : List W32)
    (entry : Option Nat) : (wlPlace s t wl words entry).wl? t.cid wl = some w.pushed := by
  unfold wlPlace
  dsimp only
  rw [wl?_logWin, State.wl?_congr (State.onThread_ctxs _ _ _)]
  exact State.wl?_onWl_self ((State.wl?_congr (State.onCore_ctxs _ _ _) _ _).trans
    ((State.wl?_congr (State.ctxs_of_still (release_still _ _ _ _)) _ _).trans hw)) _

section
variable {s s' : State} {t : Thread} {wl : Fin 4} {words : List W32} {entry : Option Nat} (h : pushAtGate s t wl words entry = some s')
include h

theorem pushAtGate_r (hfence : s.cur.fence = none) : s'.cur.r = s.cur.r := by
  obtain ⟨left, rfl⟩ := pushAtGate_eq h
  exact wlPlace_r (s := s.onCtx t.cid _) hfence t wl words entry

theorem pushAtGate_wl? {w : Worklist} (hw : s.wl? t.cid wl = some w) : s'.wl? t.cid wl = some w.pushed := by
  obtain ⟨left, rfl⟩ := pushAtGate_eq h
  refine wlPlace_wl? ((State.wl?_onCtx s ?_ _ _ _).trans hw) words entry
  exact fun _ => ⟨rfl, rfl⟩

end

/-- The state in which the pushing thread has joined (R285, R324). -/
def pushStart (s : State) (wl : Fin 4) : State := (sideOn s).onWl s.cur.cid wl (fun w => wlJoin w s.cur.ref)

theorem pushStart_cur (s : State) (wl : Fin 4) : (pushStart s wl).cur = s.cur := sideOn_cur s

theorem pushStart_core (s : State) (wl : Fin 4) (core : Nat) : (pushStart s wl).core core = s.core core :=
  (State.core_congr (State.onWl_cores _ _ _ _) core).trans (sideOn_core s core)

theorem replaying_pushStart (s : State) (wl : Fin 4) (cid : Nat) : replaying (pushStart s wl) cid = replaying s cid :=
  (replaying_onWl _ _ _ _ _).trans (replaying_congr (sideOn_ctxs s) cid)

theorem pushStart_wl? {s : State} {wl : Fin 4} {w : Worklist} (hw : s.wl? s.cur.cid wl = some w) :
    (pushStart s wl).wl? s.cur.cid wl = some (wlJoin w s.cur.ref) :=
  State.wl?_onWl_self ((State.wl?_congr (sideOn_ctxs s) _ _).trans hw) _

/-- What the die units hold stays where no worklist's units change. -/
theorem dieHeld_onWl (s : State) {f : Worklist → Worklist} (hf : ∀ w, (f w).units = w.units) (cid : Nat) (wl : Fin 4) (d : Fin 4) :
    dieHeld (s.onWl cid wl f) d = dieHeld s d := by
  refine congrArg List.sum (map_updFirst _ _ _ ?_ _)
  refine fun c => congrArg List.sum ?_
  refine List.ext_getElem (by simp) (fun i h h' => ?_)
  simp only [Vector.toList_set, List.getElem_map, List.getElem_set, Vector.getElem_toList]
  split
  next hi => subst hi; exact congrArg (fun u => (u[d]).recs.length) (hf _)
  · rfl

theorem dieHeld_pushStart (s : State) (wl : Fin 4) (d : Fin 4) : dieHeld (pushStart s wl) d = dieHeld s d := by
  refine (dieHeld_onWl _ (fun w => ?_) _ _ _).trans (by rw [dieHeld, dieHeld, sideOn_ctxs])
  obtain ⟨parts, joined, counts, hjoin⟩ := wlJoin_only w s.cur.ref
  rw [hjoin]

theorem pushStart_takesEntry {s : State} {core dep : Nat} {e : Option Nat} {old : List WRec} (h : TakesEntry s core dep e old) (wl : Fin 4) :
    TakesEntry (pushStart s wl) core dep e old := by
  rw [TakesEntry, pushStart_core, dieHeld_pushStart]
  exact h

/-- A push of a bucket not below Fseen that finds an entry (R284, R288). -/
theorem execWlpush_pushes {g : Guard} {s : State} {wl : Fin 4} {w : Worklist} (hg : s.cur.r.holds g = true) (hrest : s.cur.rest = none)
    (hfence : s.cur.fence = none) (hlive : replaying s s.cur.cid = false) (hw : s.wl? s.cur.cid wl = some w) (hmops : s.cur.mops = [])
    (hst : w.st = .active) {v : VReg} {dep : Fin 8} (hseen : belowSeen w (bucket w ((s.cur.r.range v.val 4).headD 0)) = false)
    {e : Option Nat} {old : List WRec} (hentry : TakesEntry s s.cur.core dep.val e old) :
    ∃ t w', execWlpush g wl v dep s = .next t ∧ t.cur.r = s.cur.r.adv 2 ∧ t.wl? s.cur.cid wl = some w' ∧ s.cur.ref ∈ w'.parts ∧
      w'.counts.1 = w.counts.1 + 1 ∧ (t.core s.cur.core).front = old ++ [pushedRec s.cur wl (s.cur.r.range v.val 4) e] := by
  obtain ⟨hroom, hfront⟩ := sendFull_takesEntry (pushStart_takesEntry hentry wl)
  have hcur : (sendFull (pushStart s wl) s.cur.core).cur = s.cur := (sendFull_cur _ _).trans (pushStart_cur s wl)
  obtain ⟨t, ht⟩ := pushAtGate_open ((replaying_sendFull _ _ _).trans ((replaying_pushStart s wl _).trans hlive)) wl
    (s.cur.r.range v.val 4) e (t := s.cur) (s := sendFull (pushStart s wl) s.cur.core)
  obtain ⟨w', hw', hparts, hcounts⟩ := sendFull_wl? (pushStart_wl? hw) s.cur.core
  refine ⟨t.adv 2, w'.pushed, ?_, ?_, pushAtGate_wl? ht hw', ?_, ?_, ?_⟩
  case refine_1 =>
    have hjoin : (sideOn s).onWl s.cur.cid wl (fun w => wlJoin w s.cur.ref) = pushStart s wl := rfl
    simp only [execWlpush, onList_active hg hrest hfence hw hst, drained_none hmops, hseen, hjoin, pushStart_cur, hcur, hroom, ht,
      Bool.false_eq_true, if_false]
  case refine_2 => rw [State.adv_cur, pushAtGate_r ht (by rw [hcur, hfence]), hcur]
  case refine_3 => exact hparts ▸ mem_wlJoin_parts w s.cur.ref
  case refine_4 =>
    have hjoined : (wlJoin w s.cur.ref).counts.1 = w.counts.1 := by unfold wlJoin; split <;> rfl
    rw [Worklist.pushed, hcounts, hjoined]
  case refine_5 => exact (pushAtGate_front ht).trans (by rw [hfront])

/-! ## The instructions on a worklist that lets them (R287-R291) -/

section
variable {g : Guard} {s : State} {wl : Fin 4} {w : Worklist} (hg : s.cur.r.holds g = true) (hrest : s.cur.rest = none)
  (hfence : s.cur.fence = none) (hw : s.wl? s.cur.cid wl = some w)
include hg hrest hfence

theorem execWlstat_answers (xa : XReg) : execWlstat g xa wl s = .next (s.onRegs (fun r => (r.setX xa (wlstatValue s s.cur wl)).adv 2)) := by
  simp only [execWlstat, guarded_true hg, outside_none hrest, settled_none hfence]

include hw

/-- WLDONE of a thread that holds no task, or has its accesses performed (R290). -/
theorem execWldone_retires (hst : w.st = .active ∨ w.st = .terminated) (hdone : (wlHeld w s.cur.ref).isSome = false ∨ s.cur.mops = []) :
    ∃ t, execWldone g wl s = .next t ∧ t.cur.r = s.cur.r.adv 2 ∧ t.wl? s.cur.cid wl = some (wlRetire w s.cur.ref) := by
  rw [execWldone, onList_open hg hrest hfence hw hst]
  by_cases hheld : (wlHeld w s.cur.ref).isSome = true
  case pos =>
    have hmops : s.cur.mops = [] := hdone.resolve_left (by simp [hheld])
    refine ⟨(wlDone s s.cur wl).adv 2, by rw [if_pos hheld, drained_none hmops], ?_, wlDone_wl? hw⟩
    rw [State.adv_cur, wlDone_cur hfence]
  case neg =>
    refine ⟨_, if_neg hheld, rfl, ?_⟩
    rw [wlRetire, if_neg hheld]
    exact hw

/-- Both pops run one pop, with what each does where it finds nothing. -/
theorem exec_pop (hst : w.st = .active ∨ w.st = .terminated) {xa : XReg} {ps : PReg} {v : VReg} {i : Instr}
    (hi : i ∈ [Instr.wlpop g xa ps wl v, Instr.wltry g xa ps wl v]) :
    ∃ park, exec i s = popRun s wl xa ps v park ∧ ∀ t, exec i s = .next t → Keeps s t := by
  simp only [List.mem_cons, List.not_mem_nil, or_false] at hi
  rcases hi with rfl | rfl
  · exact ⟨_, onList_open hg hrest hfence hw hst _, (execWlpop_keeps g xa ps wl v (Keeps.refl s)).keeps⟩
  · exact ⟨_, onList_open hg hrest hfence hw hst _, (execWltry_keeps g xa ps wl v (Keeps.refl s)).keeps⟩

end

section
variable {s : State} {wl : Fin 4} {w : Worklist} (hfence : s.cur.fence = none) (hw : s.wl? s.cur.cid wl = some w)
  (hmops : s.cur.mops = []) (xa : XReg) (ps : PReg) (v : VReg)
include hfence hw hmops

/-- A pop of a worklist that has terminated answers 2 (R289). -/
theorem popRun_ends (hst : w.st = .terminated) (park : State → State) :
    ∃ t w', popRun s wl xa ps v park = .next t ∧ t.cur.r = ((s.cur.r.setX xa 2).setP ps false).adv 2 ∧ t.wl? s.cur.cid wl = some w' ∧
      w'.tasks = w.tasks.filter (fun x => x.1 != s.cur.ref) := by
  obtain ⟨parts, joined, counts, hstarted⟩ := w.started_only s.cur.ref
  refine ⟨_, w.started s.cur.ref, popRun_terminated hfence hmops hw xa ps v park hst, ?_, ?_, by rw [hstarted]⟩
  · rw [popEnded_selected (by rw [popStart_cur hfence]), popStart_cur hfence]
  · rw [State.wl?_congr (popEnded_ctxs _ _ _ _ _ _), popStart_wl? hw]

/-- A pop that finds a record gives it to its thread (R289). -/
theorem popRun_gives (hst : w.st = .active) (hlive : replaying s s.cur.cid = false)
    (hchip : (w.units[dieOf s.cur.core]).chunks.flatMap (·.2) = []) (hsome : ∃ r, MayPop s s.cur.core s.cur.cid wl w r) (park : State → State) :
    ∃ r, MayPop s s.cur.core s.cur.cid wl w r ∧ (∀ q, MayPop s s.cur.core s.cur.cid wl w q → bucket w r.key ≤ bucket w q.key) ∧
      ∃ t w', popRun s wl xa ps v park = .next t ∧
        t.cur.r = (((s.cur.r.setRange v.val r.words).setX xa 0).setP ps true).adv 2 ∧ t.wl? s.cur.cid wl = some w' ∧
        w'.tasks = w.tasks.filter (fun x => x.1 != s.cur.ref) ++ [(s.cur.ref, r.key)] := by
  obtain ⟨parts, joined, counts, hstarted⟩ := w.started_only s.cur.ref
  obtain ⟨r, hmay, hleast, hrun⟩ := popRun_found hfence hmops hw xa ps v park hst hlive hchip hsome
  obtain ⟨hr, w', hw', htasks⟩ := popGive_selected (s := { popStart s wl with fresh := (popStart s wl).fresh + 1 }) (t := s.cur)
    (congrArg Thread.ref (popStart_cur hfence)) wl xa ps v 2 r (popStart_wl? hw)
  refine ⟨r, hmay, hleast, _, w', hrun, hr.trans ?_, hw', by rw [htasks, hstarted]⟩
  rw [popStart_cur hfence]

/-- A pop that finds nothing (R289): WLTRY answers 1, WLPOP parks. -/
theorem popRun_misses (hst : w.st = .active) (hlive : replaying s s.cur.cid = false)
    (hchip : (w.units[dieOf s.cur.core]).chunks.flatMap (·.2) = []) (hno : ¬∃ r, MayPop s s.cur.core s.cur.cid wl w r)
    {park : State → State} (hpark : ∀ u, (park u).ctxs = u.ctxs) :
    popRun s wl xa ps v park = .next (park (popStart s wl)) ∧ ∃ w', (park (popStart s wl)).wl? s.cur.cid wl = some w' ∧
      w'.tasks = w.tasks.filter (fun x => x.1 != s.cur.ref) := by
  obtain ⟨parts, joined, counts, hstarted⟩ := w.started_only s.cur.ref
  refine ⟨popRun_none hfence hmops hw xa ps v park hst hlive hchip hno, w.started s.cur.ref, ?_, by rw [hstarted]⟩
  rw [State.wl?_congr (hpark _), popStart_wl? hw]

end

end Sys2Proof.Machine

namespace Sys2Proof
open Machine

/-- Settles O45: WLSTAT, WLFLOOR and WLDONE by what R287 lets through; the pops by the records of the lowest bucket; WLPUSH by the entry
that it takes, before which the oldest general record leaves a full buffer for a unit with room (log entry 101). -/
theorem worklistCalls : Obligations.WorklistCalls := by
  unfold Obligations.WorklistCalls
  intro g wl v dep xa ps w s hg href hrest hfence hlive hw core c u held left
  refine ⟨fun hdelta => ?stat, fun hst => ⟨?floor, fun hdone => ?done⟩, fun hmops hst i hi => ?ended,
    fun hmops hst hchip => ⟨fun hsome i hi => ?found, fun hno => ?none⟩, fun hmops hst hseen e old hentry => ?push⟩
  case stat =>
    refine ⟨_, execWlstat_answers hg hrest hfence xa, wlstatValue_unconfigured hw, fun hst => ?_⟩
    exact wlstatValue_bits hw hst hdelta
  case floor => exact onList_open hg hrest hfence hw hst _
  case done =>
    obtain ⟨t, hex, hr, hwl⟩ := execWldone_retires hg hrest hfence hw hst hdone
    exact ⟨t, _, hex, (execWldone_keeps g wl (Keeps.refl s)).keeps _ hex, hr, hwl, wlRetire_tasks w _, wlRetire_counts w _⟩
  case ended =>
    obtain ⟨park, hpop, hkeeps⟩ := exec_pop hg hrest hfence hw (.inr hst) hi
    obtain ⟨t, w', hex, hdid⟩ := popRun_ends hfence hw hmops xa ps v hst park
    exact ⟨t, w', hpop.trans hex, hkeeps _ (hpop.trans hex), hdid⟩
  case found =>
    obtain ⟨park, hpop, hkeeps⟩ := exec_pop hg hrest hfence hw (.inl hst) hi
    obtain ⟨r, hmay, hleast, t, w', hex, hdid⟩ := popRun_gives hfence hw hmops xa ps v hst hlive hchip hsome park
    exact ⟨r, hmay, hleast, t, w', hpop.trans hex, hkeeps _ (hpop.trans hex), hdid⟩
  case none =>
    obtain ⟨htry, w1, hw1, htasks1⟩ := popRun_misses hfence hw hmops xa ps v hst hlive hchip hno
      (park := fun u => popStatus u u.cur xa ps 2 1) (fun u => popStatus_ctxs u u.cur xa ps 2 1)
    obtain ⟨hwait, w2, hw2, htasks2⟩ := popRun_misses hfence hw hmops xa ps v hst hlive hchip hno
      (park := fun u => u.onCur (fun t => { t with wait := .wlpop wl xa ps v })) (fun _ => rfl)
    have hextry : exec (.wltry g xa ps wl v) s = _ := (onList_active hg hrest hfence hw hst false _).trans htry
    have hexpop : exec (.wlpop g xa ps wl v) s = _ := (onList_active hg hrest hfence hw hst false _).trans hwait
    refine ⟨_, w1, hextry, (execWltry_keeps g xa ps wl v (Keeps.refl s)).keeps _ hextry, ?_, hw1, htasks1,
      _, w2, hexpop, (execWlpop_keeps g xa ps wl v (Keeps.refl s)).keeps _ hexpop, ?_, rfl, hw2, htasks2⟩
    · rw [popStatus_selected rfl, popStart_cur hfence]
      rfl
    · rw [State.onCur_cur, popStart_cur hfence]
  case push =>
    obtain ⟨t, w', hex, hr, hdid⟩ := execWlpush_pushes hg hrest hfence hlive hw hmops hst hseen (v := v) (dep := dep) hentry
    exact ⟨t, w', hex, (execWlpush_keeps g wl v dep (Keeps.refl s)).keeps _ hex, hr, hdid⟩

end Sys2Proof
end
